-- ==== Sys2Proof/Word.lean ====
section
/-! DEFINITION. The word types of the model and their plainest arithmetic (00_scope.md R10: registers of 32 and 64 bits, byte-addressed memories). -/

namespace Sys2Proof

/-- One byte of a memory (00_scope.md R7: byte addressed, little-endian). -/
abbrev Byte := BitVec 8
/-- A 32-bit register or register half (02_register_pages.md R37). -/
abbrev Word := BitVec 32
/-- A 64-bit register, signal word or address. -/
abbrev Word64 := BitVec 64

end Sys2Proof
end

