-- ==== Sys2Proof/Syntax.lean ====
section
/-! DEFINITION. The commands of the block: one constructor per row of spec/opcode_table.json, and the operand types they carry. A command is what reaches the module from outside or an event inside it whose moment the spec leaves open. -/

namespace Sys2Proof

/-- The kinds of register page (02_register_pages.md R35). -/
inductive Blk where
  | palur | mgmt | time | bunt | power | net | qeng | xlat | fabric | hoist | errlog | hostc
  | die | oe | link | cache | hbmc | tile | queue | conn
deriving DecidableEq, Repr

/-- A register page: a block kind and its instance number. -/
structure Page where
  blk : Blk
  inst : Nat
deriving DecidableEq, Repr

/-- Who makes a register access (02_register_pages.md R36, R37): a host hart by number, or Palur. -/
inductive Agent where
  | host (n : Nat)
  | palur
deriving DecidableEq, Repr

/-- Which part of a 64-bit register a write reaches (02_register_pages.md R37). -/
inductive Half where
  | whole
  | low
  | high
deriving DecidableEq, Repr

/-- A running group: tile, number of the resident block on it, group within the block (05_thread_groups.md R142). -/
structure GRef where
  tile : Nat
  blk : Nat
  grp : Nat
deriving DecidableEq, Repr

/-- The fields of an instruction word, and its second word (05_thread_groups.md R147). -/
structure TInstr where
  op : BitVec 8
  dst : BitVec 8
  a : BitVec 8
  b : BitVec 8
  c : BitVec 8
  fmt : BitVec 4
  pred : BitVec 3
  predNeg : Bool
  mod : BitVec 8
  rsvd : BitVec 7
  wide : Bool
  imm : BitVec 64
deriving DecidableEq, Repr

/-- The operation an update applies to a signal word (05_thread_groups.md R169). -/
inductive SigOp where
  | st
  | add
  | or
deriving DecidableEq, Repr

/-- What a watchdog times (05_thread_groups.md R173, 06 R191, 07 R232, 08 R251): a barrier of a resident block, the parked path `k` of a group, or the wait of an engine's head descriptor. -/
inductive WdTarget where
  | barrier (blk n : Nat)
  | wait (blk grp k : Nat)
  | mx
  | vx
  | dma
deriving DecidableEq, Repr

/-- A clocked island (01_architecture.md R19). -/
inductive Island where
  | net
  | phy (stack : Nat)
  | oe (n : Nat)
  | mgmt
  | timebase
deriving DecidableEq, Repr

/-- What the error correction finds when a 64-byte block is read (11_memory_system.md R343, R344): nothing; an error corrected in the frame or in the slice's SRAM; an error past correction in the frame, or a double-bit error in the SRAM. -/
inductive Ecc where
  | clean
  | corrected
  | sramCorrected
  | uncorrectable
  | sramUncorrectable
deriving DecidableEq, Repr

/-- How a hart reaches memory (03_memory_model.md R101, R102): through an NC or IO mapping; through a PMA mapping; LR or SC to an NC or IO mapping; cbo.clean, cbo.flush or cbo.inval of the lines of a range; the write-back of evicted lines. -/
inductive HartAcc where
  | nc
  | pma
  | lrsc
  | clean
  | flush
  | inval
  | evict
deriving DecidableEq, Repr

/-- Who makes a request to a cache slice (11_memory_system.md R361, UE_INFO.requester): `misc` a base die's own patrol or round, `hostDie` a unit of the host die that has no code of its own, as migration, Palur, the error log and the Hoist. -/
inductive Requester where
  | thread (tile : Nat)
  | dma (tile : Nat)
  | qeng
  | hart (n : Nat) (how : HartAcc)
  | krovmo
  | xlat
  | misc
  | hostDie
deriving DecidableEq, Repr

/-- An atomic operation: aop, width and fmt as in the ATOMIC command (09_command_queues.md R284), with its operands. -/
structure AtomArg where
  aop : BitVec 4
  width : BitVec 2
  fmt : BitVec 4
  operand : BitVec 128
  comparand : BitVec 128
deriving DecidableEq, Repr

/-- A packet (12_krovmo_fabric.md R374): its header fields, the reserved header bits, its body and its check. -/
structure Packet where
  ver : BitVec 4
  ptype : BitVec 4
  ord : BitVec 8
  len : BitVec 13
  dstConn : BitVec 14
  srcConn : BitVec 14
  rsvd : BitVec 7
  seq : BitVec 32
  gen : BitVec 32
  epoch : BitVec 32
  srcNode : BitVec 20
  relTile : BitVec 8
  relUnit : BitVec 4
  target : BitVec 64
  body : List Byte
  check : BitVec 64
deriving DecidableEq, Repr

/-- A flit (12_krovmo_fabric.md R371). -/
structure Flit where
  ftype : BitVec 2
  vc : BitVec 2
  seq : BitVec 12
  ack : BitVec 12
  nak : Bool
  cut : Bool
  cr0 : BitVec 8
  cr1 : BitVec 8
  cr2 : BitVec 8
  payload : List Byte
  crc : BitVec 64
deriving DecidableEq, Repr

/-- A capability link-control flit (12_krovmo_fabric.md R368, R371). -/
structure CapInfo where
  node : BitVec 20
  port : BitVec 5
  oldest : BitVec 4
  newest : BitVec 4
  lanes : BitVec 8
  buf0 : BitVec 16
  buf1 : BitVec 16
  buf2 : BitVec 16
deriving DecidableEq, Repr

/-- A link of a crossing (01_architecture.md R20). -/
inductive XC where
  | xc1 (die c : Nat)
  | xc3 (base c : Nat)
  | xc4 (c : Nat)
deriving DecidableEq, Repr

/-- A DHCPv4 message of a server (12_krovmo_fabric.md R396, RFC 2131). -/
inductive DhcpKind where
  | offer
  | ack
  | nak
deriving DecidableEq, Repr

/-- A frame on the management port other than a datagram or a PTP message (12_krovmo_fabric.md R396): an ARP request or reply with its sender and target, an NDP solicitation or another NDP message, an ICMP or ICMPv6 echo request or reply, a DHCPv4 message with the address, server, prefix, gateway and lease seconds it gives, or any other frame. -/
inductive FrameKind where
  | arp (request : Bool) (mac : BitVec 48) (ip target : BitVec 32)
  | ndp (solicit : Bool) (source target : BitVec 128)
  | icmp (v6 request : Bool) (source target : BitVec 128) (data : List Byte)
  | dhcp (kind : DhcpKind) (xid addr server : BitVec 32) (plen : Nat) (gateway : BitVec 32) (secs : Nat)
  | other
deriving DecidableEq, Repr

/-- What the hardware finds during bring-up (16_bringup_errors_test.md R504): crossings that train, pseudo-channels that fail training (by stack), tiles that fail the self-test. -/
structure BringupEnv where
  xc1 : BitVec 64
  xc3 : BitVec 48
  xc4 : BitVec 16
  pcFail : List Nat
  tileFail : List Nat
deriving DecidableEq, Repr

/-- The transport of a PTP message (12_krovmo_fabric.md R397): IEEE 802.3, UDP/IPv4, UDP/IPv6. -/
inductive PtpNet where
  | ether
  | udp4
  | udp6
deriving DecidableEq, Repr

/-- A Sync message as received (12_krovmo_fabric.md R397): transport, sending master, domain, two-step flag, number, origin time stamp and receive time stamp in ns of the local PTP clock. -/
structure PtpSyncMsg where
  net : PtpNet
  master : BitVec 64
  domain : BitVec 8
  twoStep : Bool
  n : Nat
  origin : Nat
  received : Nat
deriving DecidableEq, Repr

/-- Where a Follow_Up message comes from (12_krovmo_fabric.md R397): transport, sending master and domain. -/
structure PtpFollowMsg where
  net : PtpNet
  master : BitVec 64
  domain : BitVec 8
deriving DecidableEq, Repr

/-- A Delay_Resp, or with `peer` a Pdelay response (12_krovmo_fabric.md R397): transport, domain, the number of the request, the time the response left (Pdelay only), and when it was received here. -/
structure PtpDelayMsg where
  net : PtpNet
  peer : Bool
  domain : BitVec 8
  n : Nat
  origin : Nat
  received : Nat
deriving DecidableEq, Repr

/-- An Announce message (12_krovmo_fabric.md R397): transport, the fields the best master clock algorithm compares, and the Sync and Announce intervals in ticks of 10 ns. -/
structure PtpAnnounceMsg where
  net : PtpNet
  master : BitVec 64
  domain : BitVec 8
  priority1 : BitVec 8
  clockClass : BitVec 8
  accuracy : BitVec 8
  variance : BitVec 16
  priority2 : BitVec 8
  interval : Nat
  announce : Nat
deriving DecidableEq, Repr

/-- What a teardown drains (13_binding_and_jobs.md R416, R419): a job slot or one resource page. -/
inductive TdTarget where
  | slot (j : Nat)
  | page (p : Page)
deriving DecidableEq, Repr

/-- A temperature sensor group (14_power_thermal.md R451). -/
inductive Sensor where
  | tile (n : Nat)
  | dieOther (d k : Nat)
  | host
  | oe (n : Nat)
deriving DecidableEq, Repr

/-- What the cap controller's energy budget gives in one control period (14_power_thermal.md R446, R449), which the spec states no formula for: V_cap in mV and duty in per cent by die, and whether the budget cannot be met; given for a cap in W, for a source of the powers, the estimate or measurement (R444, R445), and for the power in mW that the controller plans for each tile at least, which active PENNANTs announce (R446). -/
structure ControlIn where
  cap : Nat
  measured : Bool
  plan : List Nat
  vcap : List Nat
  duty : List Nat
  unreachable : Bool
deriving DecidableEq, Repr

/-- The activity counted in one 10 µs period (14_power_thermal.md R442): by compute die its array steps, vector-chain cycles, scratchpad bytes, DMA bytes and core issues; and the slice, fabric and stack activity of the rest of the module. -/
structure EstimateIn where
  die : List (List Nat)
  other : List Nat
deriving DecidableEq, Repr

/-- The measured averages of one 10 ms window (14_power_thermal.md R442): input mV and mA, rail mV and mA by die. -/
structure MeasureIn where
  mv : Nat
  ma : Nat
  railMv : List Nat
  railMa : List Nat
deriving DecidableEq, Repr

/-- The commands of the module: one constructor per row of spec/opcode_table.json. -/
inductive Instr where
  /-- REGISTER_WRITE (R58) -/
  | registerWrite (who : Agent) (addr size : Nat) (v : BitVec 64)
  /-- ENABLE (R43) -/
  | enable (p : Page) (on swp load : Bool)
  /-- CTRL_SWAP (R49) -/
  | ctrlSwap (p : Page) (load : Bool)
  /-- SHADOW_LOAD (R46) -/
  | shadowLoad (p : Page)
  /-- VER_SEL (R60) -/
  | verSel (p : Page) (v : BitVec 4)
  /-- SWAP (R48) -/
  | swap (p : Page)
  /-- FLAG_CLEAR (R52) -/
  | flagClear (p : Page) (off : Nat) (mask : BitVec 32)
  /-- DISTURB_WRITE (R44) -/
  | disturbWrite (p : Page) (h : Half) (v : BitVec 64)
  /-- DISTURB_WIN_WRITE (R44) -/
  | disturbWinWrite (p : Page) (h : Half) (v : BitVec 64)
  /-- STALL_WINDOW_OPEN (R44) -/
  | stallWindowOpen (p : Page)
  /-- STALL_WINDOW_CLOSE (R44) -/
  | stallWindowClose (p : Page)
  /-- SUMMARY_UPDATE (R54) -/
  | summaryUpdate (p : Page)
  /-- ERROR_RECORD_POST (R516) -/
  | errorRecordPost
  /-- ERRLOG_HEAD_WRITE (R519) -/
  | errlogHeadWrite (v : BitVec 32)
  /-- PLL_LOCK_LOSS (R22) -/
  | pllLockLoss (i : Island)
  /-- HBM_PHY_RELOCK (R22) -/
  | hbmPhyRelock (st : Nat)
  /-- HBM_RELOCK_TIMEOUT (R22) -/
  | hbmRelockTimeout (st : Nat)
  /-- ADD (R542) -/
  | iadd (gr : GRef) (x : TInstr)
  /-- SUB (R542) -/
  | isub (gr : GRef) (x : TInstr)
  /-- MUL_LO (R542) -/
  | mulLo (gr : GRef) (x : TInstr)
  /-- MUL_HI (R542) -/
  | mulHi (gr : GRef) (x : TInstr)
  /-- AND (R542) -/
  | iand (gr : GRef) (x : TInstr)
  /-- OR (R542) -/
  | ior (gr : GRef) (x : TInstr)
  /-- XOR (R542) -/
  | ixor (gr : GRef) (x : TInstr)
  /-- SHL (R542) -/
  | shl (gr : GRef) (x : TInstr)
  /-- SHR (R542) -/
  | shr (gr : GRef) (x : TInstr)
  /-- SAR (R542) -/
  | sar (gr : GRef) (x : TInstr)
  /-- MIN (R542) -/
  | imin (gr : GRef) (x : TInstr)
  /-- MAX (R542) -/
  | imax (gr : GRef) (x : TInstr)
  /-- POPC (R542) -/
  | popc (gr : GRef) (x : TInstr)
  /-- CLZ (R542) -/
  | clz (gr : GRef) (x : TInstr)
  /-- ADD64 (R542) -/
  | add64 (gr : GRef) (x : TInstr)
  /-- MOV (R542) -/
  | mov (gr : GRef) (x : TInstr)
  /-- FP_ADD (R150) -/
  | fpAdd (gr : GRef) (x : TInstr)
  /-- FP_SUB (R150) -/
  | fpSub (gr : GRef) (x : TInstr)
  /-- FP_MUL (R150) -/
  | fpMul (gr : GRef) (x : TInstr)
  /-- FP_FMA (R150) -/
  | fpFma (gr : GRef) (x : TInstr)
  /-- FP_MIN (R150) -/
  | fpMin (gr : GRef) (x : TInstr)
  /-- FP_MAX (R150) -/
  | fpMax (gr : GRef) (x : TInstr)
  /-- FP_ABS (R150) -/
  | fpAbs (gr : GRef) (x : TInstr)
  /-- FP_NEG (R150) -/
  | fpNeg (gr : GRef) (x : TInstr)
  /-- FP_DIV (R150) -/
  | fpDiv (gr : GRef) (x : TInstr)
  /-- FP_SQRT (R150) -/
  | fpSqrt (gr : GRef) (x : TInstr)
  /-- FP_RCP (R150) -/
  | fpRcp (gr : GRef) (x : TInstr)
  /-- FP_RSQRT (R150) -/
  | fpRsqrt (gr : GRef) (x : TInstr)
  /-- FP_EXP2 (R150) -/
  | fpExp2 (gr : GRef) (x : TInstr)
  /-- FP_LOG2 (R150) -/
  | fpLog2 (gr : GRef) (x : TInstr)
  /-- FP_SIN (R150) -/
  | fpSin (gr : GRef) (x : TInstr)
  /-- FP_COS (R150) -/
  | fpCos (gr : GRef) (x : TInstr)
  /-- CVT (R119) -/
  | cvt (gr : GRef) (x : TInstr)
  /-- CVT_PACK (R151) -/
  | cvtPack (gr : GRef) (x : TInstr)
  /-- CVT_UNPACK (R151) -/
  | cvtUnpack (gr : GRef) (x : TInstr)
  /-- EQ (R542) -/
  | cmpEq (gr : GRef) (x : TInstr)
  /-- NE (R542) -/
  | cmpNe (gr : GRef) (x : TInstr)
  /-- LT (R542) -/
  | cmpLt (gr : GRef) (x : TInstr)
  /-- LE (R542) -/
  | cmpLe (gr : GRef) (x : TInstr)
  /-- GT (R542) -/
  | cmpGt (gr : GRef) (x : TInstr)
  /-- GE (R542) -/
  | cmpGe (gr : GRef) (x : TInstr)
  /-- UNORDERED (R542) -/
  | unordered (gr : GRef) (x : TInstr)
  /-- SELECT (R542) -/
  | select (gr : GRef) (x : TInstr)
  /-- PAND (R542) -/
  | pand (gr : GRef) (x : TInstr)
  /-- POR (R542) -/
  | por (gr : GRef) (x : TInstr)
  /-- PXOR (R542) -/
  | pxor (gr : GRef) (x : TInstr)
  /-- PNOT (R542) -/
  | pnot (gr : GRef) (x : TInstr)
  /-- BRA (R154) -/
  | bra (gr : GRef) (x : TInstr)
  /-- BRA_DIV (R153) -/
  | braDiv (gr : GRef) (x : TInstr)
  /-- JOIN (R153) -/
  | join (gr : GRef) (x : TInstr)
  /-- CALL (R542) -/
  | call (gr : GRef) (x : TInstr)
  /-- RET (R154) -/
  | ret (gr : GRef) (x : TInstr)
  /-- EXIT (R156) -/
  | exit (gr : GRef) (x : TInstr)
  /-- NOP (R148) -/
  | nop (gr : GRef) (x : TInstr)
  /-- TRAP (R177) -/
  | trap (gr : GRef) (x : TInstr)
  /-- LD_SP (R542) -/
  | ldSp (gr : GRef) (x : TInstr)
  /-- ST_SP (R542) -/
  | stSp (gr : GRef) (x : TInstr)
  /-- LD_ACC (R163) -/
  | ldAcc (gr : GRef) (x : TInstr)
  /-- LD_X (R161) -/
  | ldX (gr : GRef) (x : TInstr)
  /-- ST_X (R161) -/
  | stX (gr : GRef) (x : TInstr)
  /-- LD_ARG (R542) -/
  | ldArg (gr : GRef) (x : TInstr)
  /-- LD_G (R158) -/
  | ldG (gr : GRef) (x : TInstr)
  /-- ST_G (R158) -/
  | stG (gr : GRef) (x : TInstr)
  /-- LD_G_ACQ (R78) -/
  | ldGAcq (gr : GRef) (x : TInstr)
  /-- ST_G_REL (R77) -/
  | stGRel (gr : GRef) (x : TInstr)
  /-- GLOBAL_ACCESS_RESPONSE (R178) -/
  | globalAccessResponse (gr : GRef) (id : Nat)
  /-- ATOM_ADD (R91) -/
  | atomAdd (gr : GRef) (x : TInstr)
  /-- ATOM_AND (R91) -/
  | atomAnd (gr : GRef) (x : TInstr)
  /-- ATOM_OR (R91) -/
  | atomOr (gr : GRef) (x : TInstr)
  /-- ATOM_XOR (R91) -/
  | atomXor (gr : GRef) (x : TInstr)
  /-- ATOM_MIN_S (R91) -/
  | atomMinS (gr : GRef) (x : TInstr)
  /-- ATOM_MAX_S (R91) -/
  | atomMaxS (gr : GRef) (x : TInstr)
  /-- ATOM_MIN_U (R91) -/
  | atomMinU (gr : GRef) (x : TInstr)
  /-- ATOM_MAX_U (R91) -/
  | atomMaxU (gr : GRef) (x : TInstr)
  /-- ATOM_SWAP (R91) -/
  | atomSwap (gr : GRef) (x : TInstr)
  /-- ATOM_CAS (R159) -/
  | atomCas (gr : GRef) (x : TInstr)
  /-- ATOM_CAS128 (R149) -/
  | atomCas128 (gr : GRef) (x : TInstr)
  /-- ATOM_FADD (R123) -/
  | atomFadd (gr : GRef) (x : TInstr)
  /-- ATOM_FMIN (R91) -/
  | atomFmin (gr : GRef) (x : TInstr)
  /-- ATOM_FMAX (R91) -/
  | atomFmax (gr : GRef) (x : TInstr)
  /-- CELL_ADD (R133) -/
  | cellAdd (gr : GRef) (x : TInstr)
  /-- CELL_READ (R134) -/
  | cellRead (gr : GRef) (x : TInstr)
  /-- CELL_READ_AND_CLEAR (R94) -/
  | cellReadAndClear (gr : GRef) (x : TInstr)
  /-- CELL_CLEAR (R94) -/
  | cellClear (gr : GRef) (x : TInstr)
  /-- SIG_ST (R168) -/
  | sigSt (gr : GRef) (x : TInstr)
  /-- SIG_ADD (R168) -/
  | sigAdd (gr : GRef) (x : TInstr)
  /-- SIG_OR (R168) -/
  | sigOr (gr : GRef) (x : TInstr)
  /-- SIG_LD (R168) -/
  | sigLd (gr : GRef) (x : TInstr)
  /-- WAIT_GE (R168) -/
  | waitGe (gr : GRef) (x : TInstr)
  /-- WAIT_EQ (R168) -/
  | waitEq (gr : GRef) (x : TInstr)
  /-- WAIT_NE (R168) -/
  | waitNe (gr : GRef) (x : TInstr)
  /-- WAIT_ANY (R168) -/
  | waitAny (gr : GRef) (x : TInstr)
  /-- SIGNAL_WORD_UPDATE (R169) -/
  | signalWordUpdate (t word : Nat) (op : SigOp) (v : BitVec 64)
  /-- PATH_RESUME (R166) -/
  | pathResume (gr : GRef) (k : Nat)
  /-- BAR_SYNC (R165) -/
  | barSync (gr : GRef) (x : TInstr)
  /-- BAR_ARRIVE (R165) -/
  | barArrive (gr : GRef) (x : TInstr)
  /-- FENCE (R79) -/
  | fence (gr : GRef) (x : TInstr)
  /-- SHFL_IDX (R172) -/
  | shflIdx (gr : GRef) (x : TInstr)
  /-- SHFL_UP (R172) -/
  | shflUp (gr : GRef) (x : TInstr)
  /-- SHFL_DOWN (R172) -/
  | shflDown (gr : GRef) (x : TInstr)
  /-- SHFL_XOR (R172) -/
  | shflXor (gr : GRef) (x : TInstr)
  /-- VOTE_ANY (R172) -/
  | voteAny (gr : GRef) (x : TInstr)
  /-- VOTE_ALL (R172) -/
  | voteAll (gr : GRef) (x : TInstr)
  /-- BALLOT (R172) -/
  | ballot (gr : GRef) (x : TInstr)
  /-- ISSUE_MX (R183) -/
  | issueMx (gr : GRef) (x : TInstr)
  /-- ISSUE_VX (R213) -/
  | issueVx (gr : GRef) (x : TInstr)
  /-- ISSUE_DMA (R243) -/
  | issueDma (gr : GRef) (x : TInstr)
  /-- MMA_RR (R197) -/
  | mmaRR (gr : GRef) (x : TInstr)
  /-- MMA_RS (R197) -/
  | mmaRS (gr : GRef) (x : TInstr)
  /-- MMA_SS (R197) -/
  | mmaSS (gr : GRef) (x : TInstr)
  /-- ACC_CLR (R196) -/
  | accClr (gr : GRef) (x : TInstr)
  /-- READ_LANE (R148) -/
  | readLane (gr : GRef) (x : TInstr)
  /-- READ_GROUP (R148) -/
  | readGroup (gr : GRef) (x : TInstr)
  /-- READ_BLOCK_INDEX (R148) -/
  | readBlockIndex (gr : GRef) (x : TInstr)
  /-- READ_TILE_NUMBER (R148) -/
  | readTileNumber (gr : GRef) (x : TInstr)
  /-- READ_NODE_ID (R148) -/
  | readNodeId (gr : GRef) (x : TInstr)
  /-- READ_TIME (R148) -/
  | readTime (gr : GRef) (x : TInstr)
  /-- READ_NBLOCKS (R148) -/
  | readNblocks (gr : GRef) (x : TInstr)
  /-- WATCHDOG_EXPIRY (R173) -/
  | watchdogExpiry (t : Nat) (w : WdTarget)
  /-- LAUNCH_DELIVERY (R145) -/
  | launchDelivery (t : Nat)
  /-- BLOCK_START (R454) -/
  | blockStart (t : Nat) (pass : Bool)
  /-- MX_DESC_CHECK (R184) -/
  | mxDescCheck (t : Nat)
  /-- MX_WAIT_SATISFIED (R191) -/
  | mxWaitSatisfied (t : Nat)
  /-- MX_BLOCK_START (R194) -/
  | mxBlockStart (t arr : Nat)
  /-- MX_BLOCK_DONE (R202) -/
  | mxBlockDone (t arr : Nat)
  /-- MX_OPERANDS_READ (R192) -/
  | mxOperandsRead (t : Nat)
  /-- MX_COMPLETION (R193) -/
  | mxCompletion (t : Nat)
  /-- VX_DESC_CHECK (R214) -/
  | vxDescCheck (t : Nat)
  /-- VX_WAIT_SATISFIED (R232) -/
  | vxWaitSatisfied (t : Nat)
  /-- VX_VECTOR (R223) -/
  | vxVector (t : Nat)
  /-- VX_INPUTS_READ (R233) -/
  | vxInputsRead (t : Nat)
  /-- VX_COMPLETION (R235) -/
  | vxCompletion (t : Nat)
  /-- DMA_DESC_CHECK (R244) -/
  | dmaDescCheck (t : Nat)
  /-- DMA_WAIT_SATISFIED (R251) -/
  | dmaWaitSatisfied (t : Nat)
  /-- DMA_SLOT_START (R255) -/
  | dmaSlotStart (t : Nat)
  /-- DMA_ACCESS_PERFORMED (R256) -/
  | dmaAccessPerformed (t n : Nat)
  /-- DMA_SOURCE_READ (R252) -/
  | dmaSourceRead (t n : Nat)
  /-- DMA_SIGNAL_SEND (R253) -/
  | dmaSignalSend (t n : Nat)
  /-- DMA_COMPLETION (R254) -/
  | dmaCompletion (t : Nat)
  /-- DMA_STALL_REPORT (R257) -/
  | dmaStallReport (t n : Nat) (cause : BitVec 3)
  /-- WIN_READ (R268) -/
  | winRead (t : Nat) (inc : Bool)
  /-- WIN_WRITE (R268) -/
  | winWrite (t : Nat) (inc : Bool)
  /-- WIN_OP_END (R269) -/
  | winOpEnd (t : Nat)
  /-- IPI_SET (R272) -/
  | ipiSet (w : Nat) (v : BitVec 32)
  /-- CTRL_HOST_RESET (R297) -/
  | ctrlHostReset
  /-- HART_RESTART (R507) -/
  | hartRestart
  /-- DOORBELL (R286) -/
  | doorbell (q : Nat) (d : BitVec 32)
  /-- DOORBELL_BLOCK_WRITE (R287) -/
  | doorbellBlockWrite (q : Nat)
  /-- QUEUE_ARM (R276) -/
  | queueArm (q : Nat)
  /-- QUEUE_STOP (R275) -/
  | queueStop (q : Nat)
  /-- CQ_HEAD_WRITE (R278) -/
  | cqHeadWrite (q : Nat) (v : BitVec 32)
  /-- COMMAND_FETCH (R288) -/
  | commandFetch (q : Nat)
  /-- COMMAND_REFETCH (R288) -/
  | commandRefetch (q : Nat)
  /-- LAUNCH (R284) -/
  | launch (q : Nat) (pos : BitVec 32)
  /-- DMA (R284) -/
  | dma (q : Nat) (pos : BitVec 32)
  /-- WRITE_INLINE (R290) -/
  | writeInline (q : Nat) (pos : BitVec 32)
  /-- SIGNAL (R284) -/
  | signal (q : Nat) (pos : BitVec 32)
  /-- ATOMIC (R284) -/
  | atomic (q : Nat) (pos : BitVec 32)
  /-- WAIT (R284) -/
  | wait (q : Nat) (pos : BitVec 32)
  /-- WAIT_CONDITION_MET (R284) -/
  | waitConditionMet (q : Nat) (pos : BitVec 32)
  /-- WAIT_TIMEOUT (R296) -/
  | waitTimeout (q : Nat) (pos : BitVec 32)
  /-- FENCE_COMMAND (R71) -/
  | fenceCommand (q : Nat) (pos : BitVec 32)
  /-- PENNANT (R291) -/
  | pennant (q : Nat) (pos : BitVec 32)
  /-- PENNANT_EXPIRY (R455) -/
  | pennantExpiry (q k : Nat)
  /-- NOP_COMMAND (R284) -/
  | nopCommand (q : Nat) (pos : BitVec 32)
  /-- COMPLETION_RECORD (R293) -/
  | completionRecord (q : Nat) (pos : BitVec 32)
  /-- MISS_RESP_RETRY (R314) -/
  | missRespRetry (n : BitVec 32)
  /-- MISS_RESP_REFUSE (R314) -/
  | missRespRefuse (n : BitVec 32)
  /-- MISS_TIMEOUT (R315) -/
  | missTimeout (n : BitVec 32)
  /-- HREQ_HEAD_WRITE (R325) -/
  | hreqHeadWrite (v : BitVec 32)
  /-- INV_ALL (R317) -/
  | invAll (waitCmds : Bool)
  /-- INV_CTX (R317) -/
  | invCtx (waitCmds : Bool)
  /-- INV_PAGES (R317) -/
  | invPages (waitCmds : Bool)
  /-- INV_END (R317) -/
  | invEnd
  /-- ACCESS_COUNT_UPDATE (R318) -/
  | accessCountUpdate
  /-- MIGRATION_GO (R320) -/
  | migrationGo
  /-- MIGRATION_LEAF (R321) -/
  | migrationLeaf
  /-- SLICE_READ (R334) -/
  | sliceRead (r : Requester) (addr len : Nat) (e : Ecc)
  /-- SLICE_WRITE (R335) -/
  | sliceWrite (r : Requester) (addr : Nat) (data : List Byte)
  /-- SLICE_ATOMIC (R90) -/
  | sliceAtomic (r : Requester) (addr : Nat) (y : AtomArg) (ord : BitVec 8)
  /-- SECTOR_FILL (R335) -/
  | sectorFill (blk : Nat) (e : Ecc)
  /-- ORW_ROUND (R340) -/
  | orwRound (c j : Nat)
  /-- ROW_REPAIR (R347) -/
  | rowRepair (st pc bank row : Nat) (ok : Bool)
  /-- RET_HEAD_WRITE (R362) -/
  | retHeadWrite (st : Nat) (v : BitVec 32)
  /-- MAPOUT_GO (R349) -/
  | mapoutGo (st : Nat)
  /-- MAPOUT_AUTO (R349) -/
  | mapoutAuto (st : Nat)
  /-- MAPOUT_COPY (R350) -/
  | mapoutCopy (st : Nat)
  /-- HBM_RETRAIN (R356) -/
  | hbmRetrain (st : Nat)
  /-- PHY_RECALIBRATE (R357) -/
  | phyRecalibrate (st : Nat)
  /-- PATROL_READ (R358) -/
  | patrolRead (st : Nat) (e : Ecc)
  /-- SCRUB_GO (R359) -/
  | scrubGo
  /-- SCRUB_DONE (R359) -/
  | scrubDone
  /-- THROTTLE_LEVEL (R352) -/
  | throttleLevel (st stackT baseT : Nat)
  /-- HEAVY_WINDOW (R353) -/
  | heavyWindow (st : Nat)
  /-- SCOPE_CLEAR_LAST (R84) -/
  | scopeClearLast (p : Page)
  /-- PARTNER_LIGHT (R367) -/
  | partnerLight (l : Nat) (lanes : BitVec 8)
  /-- CAPABILITY (R368) -/
  | capability (l : Nat) (k : CapInfo)
  /-- RETRAIN_REQUEST (R369) -/
  | retrainRequest (l : Nat)
  /-- CREDIT_GRANT (R373) -/
  | creditGrant (l b0 b1 b2 : Nat)
  /-- TRAINING_TIMEOUT (R367) -/
  | trainingTimeout (l : Nat)
  /-- LANE_SIGNAL_LOSS (R369) -/
  | laneSignalLoss (l : Nat) (lane : Nat)
  /-- RETRAIN_COMPLETE (R369) -/
  | retrainComplete (l : Nat) (lanes : BitVec 8)
  /-- RETRAIN_TIMEOUT (R369) -/
  | retrainTimeout (l : Nat)
  /-- LINK_TRAIN (R370) -/
  | linkTrain (l : Nat)
  /-- LINK_FORCE_DOWN (R370) -/
  | linkForceDown (l : Nat)
  /-- AUTO_TRAIN (R370) -/
  | autoTrain (l : Nat)
  /-- PAYLOAD_FLIT (R372) -/
  | payloadFlit (l : Nat) (f : Flit)
  /-- IDLE_FLIT (R372) -/
  | idleFlit (l : Nat) (f : Flit)
  /-- ACK_TIMEOUT (R372) -/
  | ackTimeout (l : Nat)
  /-- SENDER_CUT (R377) -/
  | senderCut (l vc : Nat)
  /-- RECEIVER_TRUNCATE (R377) -/
  | receiverTruncate (l vc : Nat)
  /-- WR (R384) -/
  | wr (l : Nat) (p : Packet)
  /-- RD (R385) -/
  | rd (l : Nat) (p : Packet)
  /-- ATOM (R385) -/
  | atom (l : Nat) (p : Packet)
  /-- SIG (R98) -/
  | sig (l : Nat) (p : Packet)
  /-- RSP (R383) -/
  | rsp (l : Nat) (p : Packet)
  /-- HOLD (R380) -/
  | hold (l : Nat) (p : Packet)
  /-- OPEN (R379) -/
  | openPkt (l : Nat) (p : Packet)
  /-- OPEN_ACK (R379) -/
  | openAck (l : Nat) (p : Packet)
  /-- CLOSE (R378) -/
  | closePkt (l : Nat) (p : Packet)
  /-- CONN_OPEN (R378) -/
  | connOpen (c : Nat)
  /-- CONN_CLOSE (R378) -/
  | connClose (c : Nat)
  /-- OPEN_RESEND (R379) -/
  | openResend (c : Nat)
  /-- OPEN_TIMEOUT (R379) -/
  | openTimeout (c : Nat)
  /-- RTO_RESEND (R380) -/
  | rtoResend (c : Nat) (n : BitVec 32)
  /-- HOLD_SEND (R380) -/
  | holdSend (c : Nat)
  /-- CONN_SILENT (R380) -/
  | connSilent (c : Nat)
  /-- XC_LINK_ERROR (R298) -/
  | xcLinkError (k : XC)
  /-- XC_RETRAIN_COMPLETE (R298) -/
  | xcRetrainComplete (k : XC)
  /-- XC_RETRAIN_TIMEOUT (R299) -/
  | xcRetrainTimeout (k : XC)
  /-- MBX_OWNER_WRITE (R300) -/
  | mbxOwnerWrite (v : BitVec 8)
  /-- MBX_GO (R303) -/
  | mbxGo
  /-- MGMT_DATAGRAM (R398) -/
  | mgmtDatagram (d : List Byte)
  /-- MGMT_FRAME (R396) -/
  | mgmtFrame (k : FrameKind)
  /-- GET_INFO (R302) -/
  | getInfo
  /-- GET_RESULT (R303) -/
  | getResult
  /-- BRINGUP_RUN (R504) -/
  | bringupRun (env : BringupEnv)
  /-- BRINGUP_AUTO (R501) -/
  | bringupAuto (env : BringupEnv)
  /-- SLEEP_ENTER_P1 (R509) -/
  | sleepEnterP1
  /-- SLEEP_ENTER_P2 (R510) -/
  | sleepEnterP2
  /-- SLEEP_ENTER_P3 (R512) -/
  | sleepEnterP3
  /-- SLEEP_EXIT (R511) -/
  | sleepExit
  /-- FW_STAGE_HOST (R476) -/
  | fwStageHost
  /-- FW_STAGE_CHUNK (R476) -/
  | fwStageChunk
  /-- FW_STAGE_ABORT (R476) -/
  | fwStageAbort
  /-- FW_STAGE_COMPLETE (R477) -/
  | fwStageComplete (storeOk : Bool)
  /-- STAGING_CHUNK_TIMEOUT (R476) -/
  | stagingChunkTimeout
  /-- FW_ACTIVATE (R479) -/
  | fwActivate
  /-- SELF_TEST_TILE_LOGIC (R513) -/
  | selfTestTileLogic
  /-- SELF_TEST_STORAGE (R513) -/
  | selfTestStorage
  /-- SELF_TEST_LOOPBACK (R513) -/
  | selfTestLoopback
  /-- SELF_TEST_COMPLETE (R514) -/
  | selfTestComplete (fails : List Nat)
  /-- DEBUG_TOKEN_PRESENT (R492) -/
  | debugTokenPresent
  /-- TOKEN_VERIFY_COMPLETE (R492) -/
  | tokenVerifyComplete
  /-- DEBUG_TOKEN_CHALLENGE (R490) -/
  | debugTokenChallenge
  /-- CHALLENGE_LAPSE (R490) -/
  | challengeLapse
  /-- DEBUG_TOKEN_DEPLOY (R489) -/
  | debugTokenDeploy
  /-- DEBUG_TOKEN_MGMT_KEY (R494) -/
  | debugTokenMgmtKey
  /-- DEBUG_TOKEN_END (R493) -/
  | debugTokenEnd
  /-- DEBUG_EXPIRY (R493) -/
  | debugExpiry
  /-- HOST_RESET (R302) -/
  | hostReset
  /-- MODULE_RESET (R508) -/
  | moduleReset
  /-- ATTEST_REPORT (R488) -/
  | attestReport
  /-- ATTEST_SIGN_COMPLETE (R488) -/
  | attestSignComplete
  /-- ATTEST_READ (R488) -/
  | attestRead
  /-- ATTEST_BURGEE (R488) -/
  | attestBurgee
  /-- ERRLOG_READ (R521) -/
  | errlogRead
  /-- CAL_READ (R485) -/
  | calRead
  /-- CAL_WRITE_DATA (R485) -/
  | calWriteData
  /-- CAL_COMMIT (R486) -/
  | calCommit
  /-- CAL_DISCARD (R485) -/
  | calDiscard
  /-- RNG_HEALTH_FAIL (R467) -/
  | rngHealthFail
  /-- PTP_SYNC (R434) -/
  | ptpSync (y : PtpSyncMsg)
  /-- PTP_FOLLOW_UP (R397) -/
  | ptpFollowUp (y : PtpFollowMsg) (n origin : Nat)
  /-- PTP_ANNOUNCE (R397) -/
  | ptpAnnounce (y : PtpAnnounceMsg)
  /-- PTP_DELAY_RESP (R397) -/
  | ptpDelayResp (y : PtpDelayMsg) (t4 : Nat)
  /-- PTP_DELAY_REQ_SEND (R397) -/
  | ptpDelayReqSend
  /-- PTP_SYNC_TIMEOUT (R433) -/
  | ptpSyncTimeout
  /-- HOLDOVER_EXPIRY (R433) -/
  | holdoverExpiry
  /-- TIME_SNAP (R435) -/
  | timeSnap
  /-- JOB_GEN_WRITE (R402) -/
  | jobGenWrite (j : Nat) (v : BitVec 32)
  /-- JOB_READY (R402) -/
  | jobReady (j : Nat)
  /-- JOB_START (R429) -/
  | jobStart (j : Nat)
  /-- JOB_TEARDOWN (R416) -/
  | jobTeardown (j : Nat)
  /-- TEARDOWN_DRAIN_END (R416) -/
  | teardownDrainEnd (d : TdTarget)
  /-- DRAIN_TIMEOUT (R417) -/
  | drainTimeout (d : TdTarget)
  /-- BIND_REQ (R405) -/
  | bindReq (p : Page)
  /-- RESOURCE_TEARDOWN (R419) -/
  | resourceTeardown (p : Page)
  /-- REGION_BIND (R409) -/
  | regionBind (r : Nat)
  /-- REGION_RELEASE (R411) -/
  | regionRelease (r : Nat)
  /-- HOIST_TX_GO (R426) -/
  | hoistTxGo (policy : Bool)
  /-- HOIST_START (R423) -/
  | hoistStart (l : Nat) (p : Packet)
  /-- HOIST_REPORT (R425) -/
  | hoistReport (l : Nat) (p : Packet)
  /-- HOIST_ABORT (R428) -/
  | hoistAbort (l : Nat) (p : Packet)
  /-- HOIST_RETRY (R424) -/
  | hoistRetry (k ch : Nat)
  /-- HOIST_REPORT_BATCH (R425) -/
  | hoistReportBatch (k par : Nat)
  /-- HOIST_DEADLINE (R427) -/
  | hoistDeadline (k : Nat)
  /-- HOIST_START_TIME (R429) -/
  | hoistStartTime (j : Nat)
  /-- HOIST_CONTEXT_RELEASE (R422) -/
  | hoistContextRelease (k : Nat)
  /-- INPUT_QUALIFIED (R499) -/
  | inputQualified
  /-- POWER_LOSS (R437) -/
  | powerLoss
  /-- INPUT_OVERVOLTAGE (R436) -/
  | inputOvervoltage
  /-- INPUT_RANGE_CHANGE (R436) -/
  | inputRangeChange (mv : Nat)
  /-- CONTROL_PERIOD (R439) -/
  | controlPeriod (y : ControlIn)
  /-- RAIL_SLEW_STEP (R439) -/
  | railSlewStep
  /-- ESTIMATOR_PERIOD (R442) -/
  | estimatorPeriod (y : EstimateIn)
  /-- MEASUREMENT_WINDOW (R444) -/
  | measurementWindow (y : MeasureIn)
  /-- RELEARN (R444) -/
  | relearn
  /-- FAST_LIMITER (R448) -/
  | fastLimiter (avgW : Nat)
  /-- DROOP (R440) -/
  | droop (d mv : Nat)
  /-- BROWNOUT (R440) -/
  | brownout (d mv : Nat)
  /-- THERMAL_EMERGENCY (R451) -/
  | thermalEmergency (d : Nat)
  /-- DIE_TRIP (R452) -/
  | dieTrip (d : Nat)
  /-- MODULE_THERMAL_TRIP (R453) -/
  | moduleThermalTrip
  /-- TEMPERATURE_CHANGE (R451) -/
  | temperatureChange (y : Sensor) (temp : Nat)
  /-- DIE_RECOVER (R452) -/
  | dieRecover (d : Nat)
  /-- PACE_WINDOW (R460) -/
  | paceWindow (j waitUs : Nat)
  /-- STRAGGLER_INTERVAL (R459) -/
  | stragglerInterval (j us : Nat)
  /-- MGMT_PORT_UP (R399) -/
  | mgmtPortUp
  /-- MGMT_PORT_DOWN (R433) -/
  | mgmtPortDown
  /-- LASER_FAILURE (R391) -/
  | laserFailure (l : Nat)
  /-- PALUR_CHECK_FAILED (R522) -/
  | palurCheckFailed
  /-- FW_ACTIVATE_COMPLETE (R479) -/
  | fwActivateComplete (ok : Bool) (pauseUs : Nat)
deriving DecidableEq, Repr

end Sys2Proof
end

