-- ==== Sys2Proof/Config.lean ====
section
/-! DEFINITION. What an implementation fixes and the free values: constants with no body, which nothing in Lean can evaluate, and the fixed sizes of the module (00_scope.md R1-R5). -/

namespace Sys2Proof.Config

/-- Which of the results within its bound of ulps a transcendental function returns (05_thread_groups.md R150, 07_vector_engine.md R211): by function code, CVT byte, format code and operand bits. The same on every run. -/
opaque mathPick (fn cvt fmt a b : Nat) : Nat

/-- A 64-bit random value drawn by Palur (11_memory_system.md R331, 15_security_firmware.md R467, R490), by the number of the draw. -/
opaque randomWord (n : Nat) : Word64

/-- A free value: what a location, a register or a result holds where the spec does not say, by the number of the use. -/
opaque freeWord (n : Nat) : Word64

/-- Free bytes, by the number of the use and the position. -/
opaque freeByte (n pos : Nat) : Byte

/-- Which of the 16 ways of a full set a slice replaces (11_memory_system.md R334: the choice affects time only), by the lines of the set. -/
opaque victimWay (lines : List Nat) : Nat

/-- The seed of stochastic rounding in rank-ordered rounds (11 R340, 04_number_formats.md R118): the spec names none. The same in every round. -/
opaque roundSeed : Nat

/-- What an exact-sum add or a cell clear returns as its old value (03_memory_model.md R91), by aop and format. -/
opaque cellReturn (aop fmt : Nat) : Nat

/-- The power in W that the estimator forms of a compute die in one period before the learned gain (14_power_thermal.md R442), by the calibration set, the die's activity counts, its rail in mV and its hottest temperature; and of the rest of the module by the calibration set and its activity. The spec gives the inputs and no formula. -/
opaque diePower (calib : List Byte) (counts : List Nat) (mv temp : Nat) : Nat
opaque otherPower (calib : List Byte) (counts : List Nat) : Nat

/-- V_cap in mV and duty in per cent of a die where the operand of CONTROL_PERIOD does not give them (14 R446, R449), by cap in W, source of the powers, powers planned by tile, input powers of the past windows, powers of the dies, and die. -/
opaque capVolts (cap : Nat) (measured : Bool) (plan past powers : List Nat) (d : Nat) : Nat
opaque capDuty (cap : Nat) (measured : Bool) (plan past powers : List Nat) (d : Nat) : Nat

/-- The codewords of a port that FEC corrected, or could not (12_krovmo_fabric.md R392), by link and moment: what the optics receive. -/
opaque fecCount (uncorrectable : Bool) (link ref : Nat) : Nat

/-- The frames of a stack that hold its fold tables (11_memory_system.md R333, R355), by the mapped-out pseudo-channels and the stack. -/
opaque foldTable (mapped : List Nat) (st : Nat) : Nat

/-- SHA-384 as published (15_security_firmware.md R465-R470): 48 bytes, kept uninterpreted. -/
opaque sha384 (m : List Byte) : List Byte

/-- A vendor key slot's public key by kind: 0 RSA-3072, 1 SLH-DSA (15_security_firmware.md R466). -/
opaque vendorKey (kind slot : Nat) : List Byte

/-- The module's device key by kind (15 R466). -/
opaque deviceKey (kind : Nat) : List Byte

/-- The AES image key in fuses (15 R466). -/
opaque imageKey : List Byte

/-- The bytes of the factory calibration set that the spec does not give (15 R484), and of the Burgee record (15 R487). -/
opaque calByte (i : Nat) : Byte
opaque burgeeByte (i : Nat) : Byte

/-- The host firmware component of an image (15 R479, 16_bringup_errors_test.md R507), by the image's bytes. -/
opaque hostFirmware (image : List Byte) : List Byte

/-- How GET_INFO lays out the versions it returns (09_command_queues.md R302): the spec gives what it returns, not the layout. -/
opaque infoBytes (versions : List Nat) : List Byte

/-- How the stored settings records are laid out for the digest of a report (15_security_firmware.md R488), by their contents: the spec gives the records and their order, not their form. -/
opaque recordBytes (contents : List Nat) (calibration : List Byte) : List Byte

/-- AES-256-GCM (12_krovmo_fabric.md R398): the ciphertext with its tag. Kept uninterpreted. -/
opaque gcmSeal (key iv aad plain : List Byte) : List Byte

/-- A signature verifies under a key (15_security_firmware.md R466). Kept uninterpreted. -/
opaque sigOk (key msg sig : List Byte) : Bool

/-- The signature a key held by Palur gives a message (15_security_firmware.md R488). Kept uninterpreted. -/
opaque sigOf (key msg : List Byte) : List Byte

/-- AES-256-GCM decryption of a body (15 R470, R474) or of a datagram's message (12 R398) under key, nonce and additional data, none where the tag fails. Kept uninterpreted. -/
opaque openSealed (key iv aad body tag : List Byte) : Option (List Byte)

end Sys2Proof.Config
end

