-- ==== Sys2Proof/Machine/Map.lean ====
section
/-! DEFINITION. Sparse storage by number: a list of (key, value) pairs in one canonical form, keys strictly rising and no entry equal to what an unlisted key reads as. Registers, memories and the tables of units are held this way. -/

namespace Sys2Proof.Machine

/-- A sparse map from numbers. -/
abbrev FMap (α : Type) := List (Nat × α)

/-- The value at `k`; `d k` where the map lists nothing. -/
def fget {α : Type} (d : Nat → α) : FMap α → Nat → α
  | [], k => d k
  | (j, v) :: r, k => if j = k then v else fget d r k

/-- Every entry of key `k` removed. -/
def ferase {α : Type} : FMap α → Nat → FMap α
  | [], _ => []
  | (j, v) :: r, k => if j = k then ferase r k else (j, v) :: ferase r k

/-- An entry put before the first greater key. -/
def finsert {α : Type} : FMap α → Nat → α → FMap α
  | [], k, v => [(k, v)]
  | (j, w) :: r, k, v => if k < j then (k, v) :: (j, w) :: r else (j, w) :: finsert r k v

/-- Store `v` at `k`; storing the value an unlisted key reads as removes the entry. -/
def fset {α : Type} [DecidableEq α] (d : Nat → α) (m : FMap α) (k : Nat) (v : α) : FMap α :=
  if v = d k then ferase m k else finsert (ferase m k) k v

/-- Keys strictly above `lo` and rising, no entry at its default. -/
def fwfFrom {α : Type} [DecidableEq α] (d : Nat → α) : Option Nat → FMap α → Bool
  | _, [] => true
  | lo, (k, v) :: r =>
    (match lo with | none => true | some l => decide (l < k)) && decide (v ≠ d k) && fwfFrom d (some k) r

/-- The canonical form. -/
def fwf {α : Type} [DecidableEq α] (d : Nat → α) (m : FMap α) : Bool := fwfFrom d none m

/-- Insert into a strictly rising list of numbers, without repeats. -/
def sinsert (k : Nat) : List Nat → List Nat
  | [] => [k]
  | j :: r => if k < j then k :: j :: r else if k = j then j :: r else j :: sinsert k r

/-- Remove a number from a list. -/
def sremove (k : Nat) (l : List Nat) : List Nat := l.filter (fun j => j ≠ k)

/-- Replace element `n` of a list (nothing where it is too short). -/
def lset {α : Type} : List α → Nat → α → List α
  | [], _, _ => []
  | _ :: r, 0, v => v :: r
  | x :: r, n + 1, v => x :: lset r n v

/-- Change element `n` of a list. -/
def lmod {α : Type} (f : α → α) : List α → Nat → List α
  | [], _ => []
  | x :: r, 0 => f x :: r
  | x :: r, n + 1 => x :: lmod f r n

/-- Remove the first element that satisfies `p`. -/
def lremoveFirst {α : Type} (p : α → Bool) : List α → List α
  | [] => []
  | x :: r => if p x then r else x :: lremoveFirst p r

/-- Change every element that satisfies `p`. -/
def lupdate {α : Type} (p : α → Bool) (f : α → α) (l : List α) : List α :=
  l.map (fun x => if p x then f x else x)

/-- The sum of a list of numbers. -/
def lsum (l : List Nat) : Nat := l.foldl (· + ·) 0

end Sys2Proof.Machine
end

