-- ==== Sys2Proof/Machine/Bits.lean ====
section
/-! DEFINITION. Bit fields, byte order (00_scope.md R7: little-endian) and small integer helpers. -/

namespace Sys2Proof.Machine

/-- Bits `[lo + len - 1 : lo]` of a number. -/
def bits (x lo len : Nat) : Nat := x / 2 ^ lo % 2 ^ len

/-- Bit `n` of a number. -/
def bit (x n : Nat) : Bool := x.testBit n

/-- 1 for true. -/
def b2n (b : Bool) : Nat := if b then 1 else 0

/-- `x` with bits `[lo + len - 1 : lo]` replaced by the low bits of `v`. -/
def putBits (x lo len v : Nat) : Nat :=
  x % 2 ^ lo + (v % 2 ^ len) * 2 ^ lo + x / 2 ^ (lo + len) * 2 ^ (lo + len)

/-- A little-endian byte list read as a number. -/
def leNat : List Byte → Nat
  | [] => 0
  | b :: r => b.toNat + 256 * leNat r

/-- The `n` low bytes of a number, little-endian. -/
def toLE : Nat → Nat → List Byte
  | 0, _ => []
  | n + 1, x => BitVec.ofNat 8 x :: toLE n (x / 256)

/-- Bytes `[off, off + n)` of a byte list, zero bytes where it is too short. -/
def slice (l : List Byte) (off n : Nat) : List Byte :=
  let t := (l.drop off).take n
  t ++ List.replicate (n - t.length) 0

/-- The little-endian number in `n` bytes at `off`. -/
def leAt (l : List Byte) (off n : Nat) : Nat := leNat ((l.drop off).take n)

/-- `l` with the bytes `v` written from offset `off` on; the length stays. -/
def putBytes (l : List Byte) (off : Nat) (v : List Byte) : List Byte :=
  (l.take off ++ v ++ l.drop (off + v.length)).take l.length

/-- Every byte of a list is zero. -/
def allZero (l : List Byte) : Bool := l.all (fun b => b = 0)

/-- The signed value of the low `n` bits of a number. -/
def sint (n x : Nat) : Int :=
  let y := x % 2 ^ n
  if y < 2 ^ (n - 1) then (y : Int) else (y : Int) - (2 ^ n : Nat)

/-- The two's complement image in `n` bits of an integer. -/
def uimg (n : Nat) (x : Int) : Nat := (x % (2 ^ n : Nat)).toNat

/-- The number of set bits among the low `n` bits. -/
def popc : Nat → Nat → Nat
  | 0, _ => 0
  | n + 1, x => x % 2 + popc n (x / 2)

/-- The numbers of the set bits among the low `n` bits, ascending. -/
def setBits (n x : Nat) : List Nat := (List.range n).filter (fun i => x.testBit i)

/-- The mask of a list of bit numbers. -/
def maskOf (l : List Nat) : Nat := l.foldl (fun m i => m ||| 2 ^ i) 0

/-- CRC-32 of IEEE 802.3 (15_security_firmware.md R484): reflected, initial value and final XOR 0xFFFFFFFF. -/
def crc32 (l : List Byte) : Nat :=
  (l.foldl (fun c b => (List.range 8).foldl (fun c _ => if c % 2 = 1 then (c / 2) ^^^ 0xEDB88320 else c / 2) (c ^^^ b.toNat)) 0xFFFFFFFF) ^^^ 0xFFFFFFFF

/-- `a - b` of free-running 32-bit counts. -/
def diff32 (a b : Nat) : Nat := (a + 2 ^ 32 - b % 2 ^ 32) % 2 ^ 32

/-- Round up to a multiple. -/
def ceilDiv (a b : Nat) : Nat := (a + b - 1) / b

end Sys2Proof.Machine
end

