-- ==== Sys2Proof/Machine/Regs.lean ====
section
/-! DEFINITION. The register pages as data: page bases (02_register_pages.md R35), the common header and tail (R41, R42) and every block's registers with field positions, access codes, reset values and legal encodings. -/

namespace Sys2Proof.Machine

open Sys2Proof

/-- The number of instances of a block (R35). -/
def instances : Blk → Nat
  | .die => 4 | .oe => 4 | .link => 32 | .cache => 12 | .hbmc => 12
  | .tile => 160 | .queue => 16384 | .conn => 16384 | _ => 1

/-- The type code of a block (R35). -/
def typeCode : Blk → Nat
  | .palur => 1 | .mgmt => 2 | .time => 3 | .bunt => 4 | .power => 5 | .net => 6 | .qeng => 7 | .xlat => 8
  | .fabric => 9 | .hoist => 10 | .errlog => 11 | .hostc => 12 | .die => 0x10 | .oe => 0x11 | .link => 0x12
  | .cache => 0x20 | .hbmc => 0x21 | .tile => 0x30 | .queue => 0x40 | .conn => 0x41

/-- The page base of instance 0 (R35). -/
def base0 : Blk → Nat
  | .palur => 0xFC00000000 | .mgmt => 0xFC00001000 | .time => 0xFC00002000 | .bunt => 0xFC00003000
  | .power => 0xFC00004000 | .net => 0xFC00005000 | .qeng => 0xFC00006000 | .xlat => 0xFC00007000
  | .fabric => 0xFC00008000 | .hoist => 0xFC00009000 | .errlog => 0xFC0000A000 | .hostc => 0xFC0000B000
  | .die => 0xFC00010000 | .oe => 0xFC00020000 | .link => 0xFC00030000 | .cache => 0xFC00100000
  | .hbmc => 0xFC00110000 | .tile => 0xFC00200000 | .queue => 0xFC10000000 | .conn => 0xFC20000000

/-- Every block kind, in the order of R35. -/
def allBlks : List Blk :=
  [.palur, .mgmt, .time, .bunt, .power, .net, .qeng, .xlat, .fabric, .hoist, .errlog, .hostc,
   .die, .oe, .link, .cache, .hbmc, .tile, .queue, .conn]

/-- The base address of a page (R35). -/
def pageBase (p : Page) : Nat := base0 p.blk + p.inst * 0x1000

/-- The page exists (R35). -/
def pageOk (p : Page) : Bool := decide (p.inst < instances p.blk)

/-- The page and offset of a local physical address; none for an unassigned page (R35, R36). -/
def pageOf (addr : Nat) : Option (Page × Nat) :=
  (allBlks.findSome? (fun b =>
    if base0 b ≤ addr && decide (addr < base0 b + instances b * 0x1000)
    then some (⟨b, (addr - base0 b) / 0x1000⟩, addr % 0x1000) else none))

/-- The register file's key of a 32-bit word of a page. -/
def regKey (p : Page) (off : Nat) : Nat := (pageBase p + off) / 4

/-- Access codes (00_scope.md R10); `act` marks a field whose write is a command of its own. -/
inductive Acc where
  | ro | rw | rws | w1c | w1s | wo | act
deriving DecidableEq, Repr

/-- A register field: position, access, reset value, and the least and greatest legal encoding. -/
structure Fld where
  lo : Nat
  len : Nat
  acc : Acc
  rst : Nat
  min : Nat
  max : Nat
deriving DecidableEq, Repr

/-- A run of `n` equal registers of 32 or 64 bits, `stride` bytes apart. -/
structure Reg where
  off : Nat
  n : Nat
  stride : Nat
  wide : Bool
  fs : List Fld
deriving DecidableEq, Repr

def fld (acc : Acc) (lo len rst : Nat) : Fld := ⟨lo, len, acc, rst, 0, 2 ^ len - 1⟩
def fldR (acc : Acc) (lo len rst mn mx : Nat) : Fld := ⟨lo, len, acc, rst, mn, mx⟩
def reg (off : Nat) (fs : List Fld) : Reg := ⟨off, 1, 4, false, fs⟩
def reg64 (off : Nat) (fs : List Fld) : Reg := ⟨off, 1, 8, true, fs⟩
def regs32 (off n stride : Nat) (fs : List Fld) : Reg := ⟨off, n, stride, false, fs⟩
/-- A 32-bit count or value that only the module writes. -/
def cnt (off : Nat) : Reg := reg off [fld .ro 0 32 0]
/-- Such registers in a row. -/
def cnts (off n : Nat) : Reg := regs32 off n 4 [fld .ro 0 32 0]
/-- A shadowed 32-bit word. -/
def cfgw (off rst : Nat) : Reg := reg off [fld .rws 0 32 rst]

/-- What CAPS reports of a block: cfg_words, prog_unit, prog_shift, disturb, epoch, island, features (R41). -/
structure Caps where
  words : Nat
  unit : Nat
  shift : Nat
  disturb : Bool
  epoch : Bool
  island : Bool
  features : Nat
deriving DecidableEq, Repr

/-- CAPS of each block (R53, R174, R209, R256, R273, R277, R279, R324, R361, R362, R390-R393, R399, R430, R435, R462, R464, R497, R515, R519, R524). -/
def caps : Blk → Caps
  | .palur => ⟨2, 6, 0, false, false, false, 0⟩
  | .mgmt => ⟨11, 0, 0, false, false, true, 0⟩
  | .time => ⟨2, 0, 0, false, false, true, 0⟩
  | .bunt => ⟨2, 0, 0, false, false, false, 0⟩
  | .power => ⟨5, 0, 0, false, false, false, 0⟩
  | .net => ⟨1, 0, 0, true, false, true, 0⟩
  | .qeng => ⟨1, 0, 0, true, false, false, 0⟩
  | .xlat => ⟨48, 2, 0, true, false, false, 0⟩
  | .fabric => ⟨4, 0, 0, false, false, false, 0⟩
  | .hoist => ⟨27, 5, 0, false, false, false, 0⟩
  | .errlog => ⟨4, 0, 0, false, false, false, 0⟩
  | .hostc => ⟨4, 0, 0, false, false, false, 0⟩
  | .die => ⟨2, 0, 0, false, false, false, 0⟩
  | .oe => ⟨1, 0, 0, false, false, true, 0⟩
  | .link => ⟨6, 5, 0, true, false, true, 0⟩
  | .cache => ⟨4, 1, 16, true, false, false, 0⟩
  | .hbmc => ⟨6, 1, 26, true, false, true, 0⟩
  | .tile => ⟨32, 1, 7, true, true, false, 0x1FF⟩
  | .queue => ⟨16, 0, 0, false, true, false, 0⟩
  | .conn => ⟨3, 0, 0, false, true, false, 0⟩

/-- CAPS as a 64-bit number (R41). -/
def capsWord (b : Blk) : Nat :=
  let c := caps b
  c.words + c.shift * 2 ^ 10 + c.unit * 2 ^ 16 + b2n c.disturb * 2 ^ 20 + b2n c.epoch * 2 ^ 21
    + b2n c.island * 2 ^ 22 + c.features * 2 ^ 32

/-- The highest assigned FLAGS bit of a block (each block's chapter). -/
def flagTop : Blk → Nat
  | .palur => 20 | .mgmt => 11 | .time => 10 | .bunt => 7 | .power => 17 | .net => 10 | .qeng => 8 | .xlat => 13
  | .fabric => 11 | .hoist => 18 | .errlog => 10 | .hostc => 11 | .die => 12 | .oe => 9 | .link => 15
  | .cache => 12 | .hbmc => 19 | .tile => 24 | .queue => 19 | .conn => 19

/-- The FLAGS bit is assigned: CLOCK_LOSS is reserved where CAPS.island is 0 (R41); SCRUB_REFUSED is reserved above CACHE 0 (R361), and bits 13-15 of a connection are (12_krovmo_fabric.md R393). -/
def flagAssigned (p : Page) (n : Nat) : Bool :=
  decide (n ≤ flagTop p.blk) && (n ≠ 5 || (caps p.blk).island) && !(p.blk = .cache && n = 12 && p.inst ≠ 0) && !(p.blk = .conn && 13 ≤ n && n ≤ 15)

/-- The assigned FLAGS bits as a mask. -/
def flagMask (p : Page) : Nat := maskOf ((List.range 32).filter (flagAssigned p))

/-- The block-specific CTRL bits, written 1 to act (each block's chapter). -/
def ctrlBits (p : Page) : List Nat :=
  match p.blk with
  | .hostc => [16]
  | .queue => [16, 17, 20, 21]
  | .tile => [20, 21]
  | .conn => [16, 17, 20, 21]
  | .cache => if p.inst = 0 then [16] else []
  | .hbmc => [16, 17]
  | .link => [16, 17]
  | .time => [16]
  | .power => [16]
  | .die => [16]
  | _ => []

/-- The block has the DISTURB registers; elsewhere they are reserved (R524). -/
def hasDisturb (p : Page) : Bool := (caps p.blk).disturb

/-- The common header and tail (R41, R42) of a page. -/
def commonRegs (p : Page) : List Reg :=
  let c := caps p.blk
  [ reg 0x000 [fld .ro 0 24 (typeCode p.blk + p.inst * 256)],
    reg 0x004 [fld .ro 0 24 0x010100],
    reg64 0x008 [fld .ro 0 64 (capsWord p.blk)],
    reg 0x010 ([fld .act 0 1 0, fld .w1s 1 1 0, fld .w1s 2 1 0, fld .act 4 4 1] ++ (ctrlBits p).map (fun b => fld .w1s b 1 0)),
    reg 0x014 [fld .ro 0 32 0],
    reg 0x018 ((List.range 32).filterMap (fun n => if flagAssigned p n then some (fld .w1c n 1 0) else none)),
    cnt 0x01C,
    cnt 0x020,
    reg 0x024 [fld .ro 0 32 (if c.unit = 6 then 0 else c.shift + c.unit * 256)],
    reg64 0x028 [fld .ro 0 64 0] ]
  ++ (if c.disturb then
    [ reg64 0x030 [fld .act 0 10 0, fld .act 16 7 0, fld .act 24 8 0, fld .act 63 1 0],
      reg64 0x038 [fld .act 0 64 0] ] else [])
  ++ [ cfgw 0x100 0xFFFFFFFF,
    reg 0x700 [fld .ro 0 16 0],
    cnt 0x704,
    cnt 0x708,
    cnts 0x780 32 ]

/-- The binding registers of TILE, QUEUE and CONN pages (13_binding_and_jobs.md R404). -/
def bindRegs : List Reg :=
  [ reg64 0x600 [fld .rw 0 64 0], reg 0x608 [fld .ro 0 8 0] ]

/-- A local physical base held in two words: low word aligned to `2 ^ al`, high byte (for example R277). -/
def baseRegs (off al : Nat) : List Reg :=
  [ reg off [⟨0, 32, .rws, 0, al, 0⟩], reg (off + 4) [fld .rws 0 8 0] ]

/-- The registers of the TILE page beyond the common ones (R84, R138, R174-R176, R206-R208, R240-R242, R263-R268, R404). -/
def tileRegs : List Reg :=
  [ reg 0x104 [fld .rws 0 1 0, fld .rws 1 1 0, fld .rws 2 1 1],
    reg 0x108 [fldR .rws 0 16 0x7D0 1 60000],
    reg 0x10C [fldR .rws 0 2 1 1 3, fld .rws 2 1 0],
    reg 0x110 [fldR .rws 0 2 1 1 3, fld .rws 2 1 0],
    reg 0x114 [fldR .rws 0 2 1 1 3, fld .rws 2 1 0, fldR .rws 16 16 0x64 1 65535],
    reg 0x200 [fld .ro 0 11 0, fld .ro 16 11 0], cnt 0x204,
    reg 0x210 [fld .ro 0 8 0, fld .ro 8 5 0, fld .w1c 31 1 0], cnts 0x214 3, reg64 0x220 [fld .ro 0 64 0],
    reg 0x228 [fld .ro 0 14 0], cnt 0x22C,
    reg 0x240 [fld .ro 0 4 0, fld .w1c 31 1 0], cnt 0x244, reg 0x248 [fld .ro 0 12 0], cnts 0x300 32, cnts 0x380 32,
    reg 0x400 [fld .ro 0 7 0, fld .ro 8 3 0], cnts 0x404 2,
    reg 0x410 [fld .ro 0 8 0, fld .w1c 31 1 0], cnts 0x414 4, reg 0x424 [fld .ro 0 8 0], reg 0x428 [fld .ro 0 14 0],
    reg 0x42C [fld .ro 0 16 0], cnt 0x430,
    reg 0x480 [fld .ro 0 7 0, fld .ro 8 2 0], cnts 0x484 3,
    reg 0x490 [fld .ro 0 8 0, fld .w1c 31 1 0], cnts 0x494 3, reg 0x4A0 [fld .ro 0 8 0], reg 0x4A4 [fld .ro 0 14 0], cnts 0x4A8 2,
    reg 0x500 [fld .ro 0 7 0, fld .ro 8 9 0], cnts 0x504 2, cnts 0x510 16,
    reg 0x550 [fld .ro 0 9 0, fld .w1c 31 1 0], cnts 0x554 3, reg64 0x560 [fld .ro 0 64 0], cnt 0x568,
    reg 0x56C [fld .ro 0 8 0], reg 0x570 [fld .ro 0 14 0], cnt 0x574,
    reg 0x580 [fld .rw 0 32 0], reg 0x584 [fld .w1s 0 1 0, fld .rw 1 1 0, fld .rw 2 1 0], reg 0x588 [fld .ro 0 4 0],
    reg64 0x590 [fld .rw 0 64 0],
    cnts 0x6D0 4, reg 0x6F0 [fld .rw 0 1 0, fld .w1s 1 1 0], cnt 0x6F4, reg64 0x6F8 [fld .ro 0 64 0] ]
  ++ bindRegs

/-- The registers of the QUEUE page (09_command_queues.md R277, R278). -/
def queueRegs : List Reg :=
  [ reg 0x104 [fldR .rws 0 2 1 1 3, fldR .rws 2 2 3 1 3, fld .rws 4 1 0, fld .rws 5 1 0, fld .rws 6 1 0,
      fldR .rws 8 5 6 6 20, fldR .rws 16 5 4 4 20] ]
  ++ baseRegs 0x108 12 ++ baseRegs 0x110 12 ++ baseRegs 0x118 6 ++
  [ reg 0x120 [fld .rws 0 12 0], regs32 0x124 5 4 [fld .rws 0 32 0], reg 0x138 [fld .rws 0 16 0],
    reg 0x200 [fld .act 0 32 0], cnt 0x204, reg 0x208 [fld .act 0 32 0], cnt 0x20C, reg 0x210 [fld .rw 0 32 0],
    reg 0x214 [fld .ro 0 16 0], cnts 0x218 2, reg 0x220 [fld .ro 0 8 0, fld .w1c 31 1 0], cnts 0x224 3 ]
  ++ bindRegs

/-- The registers of the CONN page (12_krovmo_fabric.md R393). -/
def connRegs : List Reg :=
  [ reg 0x104 [fld .rws 0 5 0, fld .rws 5 1 0, fldR .rws 8 8 64 1 64, fld .rws 18 14 0],
    reg 0x108 [fld .rws 0 20 0xFFFFF],
    reg 0x200 [fld .ro 0 4 0], cnts 0x204 3, reg 0x210 [fld .ro 0 7 0], cnts 0x214 2, reg 0x21C [fld .ro 0 4 0] ]
  ++ bindRegs

/-- The registers of the XLAT page (10_translation.md R324, R325). -/
def xlatRegs : List Reg :=
  [ reg 0x104 [fldR .rws 0 16 0x3E8 1 60000, fld .rws 16 1 0] ] ++ baseRegs 0x108 16 ++ baseRegs 0x110 16 ++
  [ reg 0x118 [fld .rws 0 16 0] ] ++ baseRegs 0x11C 12 ++ [ reg 0x124 [fldR .rws 0 4 6 6 12] ] ++ baseRegs 0x128 20 ++
  [ regs32 0x140 8 16 [fld .rws 0 32 0], regs32 0x144 8 16 [fldR .rws 0 32 0 0 0x0FFFFFFF],
    regs32 0x148 8 16 [fld .rws 0 18 0, fld .rws 18 2 0, fld .rws 20 1 0, fld .rws 21 1 0],
    regs32 0x14C 8 16 [fld .rws 0 32 0],
    cnt 0x200, reg 0x204 [fld .act 0 32 0], reg64 0x208 [fld .wo 0 33 0], reg 0x210 [fld .ro 0 9 0], cnt 0x214,
    reg 0x218 [fld .ro 0 16 0], reg 0x220 [fld .ro 0 4 0, fld .ro 16 12 0, fld .w1c 31 1 0], reg64 0x228 [fld .ro 0 64 0],
    reg 0x230 [fld .ro 0 14 0], cnt 0x234,
    reg 0x300 [fld .rw 0 12 0, fld .rw 16 14 0], reg64 0x308 [fldR .rw 0 64 0 12 0], reg64 0x310 [fld .rw 0 64 0],
    reg 0x318 [fldR .rw 0 24 0 1 16777215], reg 0x31C [fld .w1s 0 1 0], reg 0x320 [fld .ro 0 4 0],
    reg 0x340 [fld .w1s 0 1 0, fldR .rw 1 2 0 0 2, fld .rw 3 1 0], reg 0x344 [fld .rw 0 12 0], reg64 0x348 [fldR .rw 0 64 0 12 0],
    reg 0x350 [fld .rw 0 32 0], reg 0x354 [fld .ro 0 2 0], cnt 0x358 ]

/-- The registers of a CACHE page (11_memory_system.md R361, with R84 and R138). -/
def cacheRegs (inst : Nat) : List Reg :=
  baseRegs 0x104 12 ++
  [ reg 0x10C [fldR .rws 0 13 0 0 4096], cnts 0x200 4, cnts 0x210 4, reg64 0x220 [fld .ro 0 40 0],
    reg 0x228 [fld .ro 0 4 0, fld .ro 4 8 0, fld .w1c 31 1 0], reg 0x230 [fld .ro 0 12 0, fld .ro 16 4 0, fld .w1c 31 1 0] ]
  ++ (if inst = 0 then [ reg64 0x240 [fld .rw 0 40 0], reg64 0x248 [fld .rw 0 40 0], reg 0x250 [fld .ro 0 2 0] ] else [])
  ++ [ cnts 0x6D0 3, reg 0x6F0 [fld .rw 0 1 0, fld .w1s 1 1 0], cnt 0x6F4, reg64 0x6F8 [fld .ro 0 64 0] ]

/-- The registers of an HBMC page (11_memory_system.md R362); MEM_END resets to the full capacity of R332. -/
def hbmcRegs : List Reg :=
  [ reg 0x104 [fld .rws 0 1 1, fldR .rws 8 8 24 1 168], reg 0x108 [fldR .rws 0 8 8 1 255, fldR .rws 8 8 16 1 255, fld .rws 16 1 1] ]
  ++ baseRegs 0x10C 12 ++
  [ reg 0x114 [fldR .rws 0 4 6 4 12], cnt 0x200, reg 0x204 [fld .ro 0 3 0, fld .ro 8 7 100], cnts 0x208 5, reg 0x21C [fld .ro 0 1 0],
    cnts 0x220 4, reg64 0x230 [fld .ro 0 64 0], reg 0x238 [fld .ro 0 6 0, fld .ro 31 1 0], cnt 0x240, reg 0x244 [fld .act 0 32 0],
    reg64 0x248 [fld .ro 0 40 864000000000], reg64 0x250 [fld .ro 0 64 0], reg64 0x258 [fld .ro 0 64 0], cnt 0x260, cnts 0x300 16 ]

/-- The registers of the HOIST page (13_binding_and_jobs.md R408, R430, R431). -/
def hoistRegs : List Reg :=
  [ reg 0x104 [fld .rws 0 1 0, fld .rws 1 1 0, fldR .rws 16 16 100 1 65535], reg 0x108 [fldR .rws 0 16 1000 100 65535],
    regs32 0x10C 18 4 [fld .rws 0 20 0, fld .rws 20 5 0, fld .rws 31 1 0] ]
  ++ baseRegs 0x154 22 ++ baseRegs 0x15C 22 ++ baseRegs 0x164 12 ++
  [ reg64 0x200 [fld .rw 0 64 0], reg64 0x208 [fld .rw 0 64 0], reg 0x210 [fld .rw 0 32 0], reg 0x214 [fld .w1s 0 1 0, fld .rw 1 1 0],
    reg 0x218 [fldR .rw 0 20 0 0 1048560], reg 0x21C [fld .ro 0 4 0],
    cnts 0x220 8, cnts 0x240 5,
    regs32 0x300 16 16 [fld .act 0 32 0], regs32 0x304 16 16 [fld .w1s 0 1 0, fld .w1s 1 1 0, fld .w1s 2 1 0],
    regs32 0x308 16 16 [fld .ro 0 9 0], regs32 0x30C 16 16 [fld .ro 0 32 0],
    regs32 0x400 32 16 [fld .rw 0 19 0], regs32 0x404 32 16 [fld .rw 0 19 0],
    regs32 0x408 32 16 [fld .rw 0 4 0, fld .w1s 16 1 0, fld .w1s 17 1 0, fld .ro 20 2 0, fld .ro 24 4 0],
    regs32 0x40C 32 16 [fld .ro 0 32 0], reg 0x600 [fld .rw 0 32 0] ]

/-- The registers of the POWER page (14_power_thermal.md R462, R463). -/
def powerRegs : List Reg :=
  [ reg 0x104 [fldR .rws 0 13 4400 1000 4400, fldR .rws 16 5 10 1 30],
    reg 0x108 [fld .rws 0 1 0, fldR .rws 8 8 16 1 255, fldR .rws 16 16 20 1 65535],
    reg 0x10C [fldR .rws 0 10 100 10 1000, fldR .rws 12 4 3 1 15], reg 0x110 [fld .rws 0 1 1],
    reg 0x200 [fld .ro 0 16 0], reg 0x204 [fld .ro 0 18 0], cnt 0x208, reg 0x20C [fld .ro 0 16 0], reg64 0x210 [fld .ro 0 64 0],
    reg 0x218 [fld .ro 0 2 0, fld .ro 8 1 0], cnt 0x21C, regs32 0x220 4 4 [fld .ro 0 16 0x4000], reg 0x230 [fld .ro 0 16 0],
    reg 0x238 [fld .ro 0 2 0],
    regs32 0x400 16 32 [fld .rw 0 1 0, fldR .rw 8 7 30 1 100, fldR .rw 16 7 10 0 99, fldR .rw 24 8 10 0 50],
    regs32 0x404 16 32 [fld .ro 0 10 0], regs32 0x408 16 32 [fld .ro 0 10 850], regs32 0x40C 16 32 [fldR .rw 0 32 1000 1 0xFFFFFFFF],
    ⟨0x410, 16, 32, true, [fld .ro 0 64 0]⟩, regs32 0x418 16 32 [fld .ro 0 32 0], regs32 0x41C 16 32 [fld .ro 0 32 0] ]

/-- The registers of the other pages (R53, R273, R279, R390-R392, R399, R433, R464, R497, R498, R515, R519). -/
def blockRegs (p : Page) : List Reg :=
  match p.blk with
  | .palur =>
    [ reg 0x104 [fld .rws 0 1 0, fld .rws 1 1 0, fld .rws 2 1 0],
      reg 0x200 [fld .ro 0 2 0], reg 0x204 [fld .ro 0 2 0], cnt 0x208, cnts 0x210 4, reg 0x220 [fld .ro 0 4 0], reg 0x224 [fld .ro 0 16 0],
      reg 0x228 [fld .ro 0 3 0, fld .ro 16 16 0], cnts 0x22C 2, reg 0x234 [fld .ro 0 16 0], reg 0x238 [fld .ro 0 4 0, fld .ro 8 1 0], cnt 0x23C,
      reg 0x300 [fld .act 0 8 0], reg 0x304 [fld .w1s 0 1 0], reg 0x308 [fld .ro 0 2 0],
      regs32 0x400 64 4 [fld .rw 0 32 0], regs32 0x500 64 4 [fld .ro 0 32 0] ]
  | .mgmt =>
    [ reg 0x104 [fld .rws 0 1 0, fld .rws 1 1 0, fld .rws 2 1 0, fld .rws 4 12 0, fld .rws 16 1 0],
      reg 0x108 [fldR .rws 0 8 0 0 127, fld .rws 8 1 0, fld .rws 9 3 0, fld .rws 16 16 0],
      cfgw 0x10C 0, reg 0x110 [fldR .rws 0 6 0 0 32], cfgw 0x114 0, regs32 0x118 4 4 [fld .rws 0 32 0], reg 0x128 [fldR .rws 0 8 0 0 128],
      reg64 0x200 [fld .ro 0 48 0], reg 0x208 [fld .ro 0 2 0], cnts 0x210 5 ]
  | .time =>
    [ reg 0x104 [fldR .rws 0 16 60 1 3600, fldR .rws 16 16 1000 10 65535],
      reg64 0x200 [fld .ro 0 64 0], reg64 0x208 [fld .ro 0 64 0], reg 0x210 [fld .ro 0 2 0], cnts 0x214 2, reg64 0x220 [fld .ro 0 64 0],
      cnts 0x228 2, reg64 0x230 [fld .ro 0 64 0], reg64 0x238 [fld .ro 0 64 0] ]
  | .bunt =>
    [ reg 0x104 [fld .rws 0 32 0], reg 0x180 [fld .ro 0 9 0], cnts 0x184 6, cnts 0x1A0 5, cnts 0x200 16, cnts 0x240 16 ]
  | .power => powerRegs
  | .net => [ reg64 0x200 [fld .ro 0 64 0], reg64 0x208 [fld .ro 0 48 0], cnts 0x210 2 ]
  | .qeng => [ cnts 0x200 3 ]
  | .xlat => xlatRegs
  | .fabric =>
    [ reg 0x104 [fld .rws 0 20 0xFFFFF], reg 0x108 [fldR .rws 0 2 1 1 3, fldR .rws 2 2 3 1 3],
      reg 0x10C [fldR .rws 0 16 100 10 10000, fldR .rws 16 16 100 1 60000],
      reg 0x200 [fld .ro 0 20 0xFFFFF], cnt 0x204, reg 0x208 [fld .ro 0 15 0], cnts 0x210 6, reg 0x228 [fld .ro 0 17 0] ]
  | .hoist => hoistRegs
  | .errlog =>
    baseRegs 0x104 12 ++
    [ reg 0x10C [⟨0, 5, .rws, 0, 0, 16⟩, fld .rws 5 2 0, fldR .rws 16 16 1000 1 65535],
      cnt 0x200, reg 0x204 [fld .act 0 32 0], cnts 0x208 2, cnts 0x210 4, reg 0x220 [fld .ro 0 2 0, fld .ro 4 2 0, fld .ro 8 8 0], cnts 0x230 5 ]
  | .hostc =>
    [ regs32 0x104 3 4 [fld .rws 0 32 0], regs32 0x200 3 4 [fld .w1s 0 32 0], cnt 0x210, reg 0x214 [fld .ro 0 2 0], reg 0x218 [fld .ro 0 16 0],
      cnts 0x21C 2, reg64 0x228 [fld .ro 0 40 0] ]
  | .die =>
    [ reg 0x104 [fldR .rws 0 8 95 70 100], reg 0x200 [fld .ro 0 10 0, fld .ro 16 10 0], reg 0x204 [fld .ro 0 20 0], cnt 0x208,
      reg 0x20C [fld .ro 0 3 5, fld .ro 8 7 100], reg 0x210 [fld .ro 0 16 0], reg 0x214 [fld .ro 0 22 0], cnts 0x218 2,
      regs32 0x300 40 4 [fld .ro 0 16 0] ]
  | .oe => [ reg 0x200 [fld .ro 0 8 0], reg 0x204 [fld .ro 0 16 0], reg 0x208 [fld .ro 0 8 0] ]
  | .link =>
    [ reg 0x104 [fld .rws 0 1 0, fld .rws 1 1 1], reg 0x108 [fld .rws 0 20 0xFFFFF], reg 0x110 [fld .rws 0 8 0xFF, fldR .rws 8 4 0 0 9],
      reg 0x114 [fldR .rws 0 8 8 1 255, fldR .rws 8 8 4 1 100],
      reg 0x200 [fld .ro 0 25 0], reg 0x204 [fld .ro 0 4 0, fld .ro 8 8 0], cnts 0x208 6, reg 0x220 [fld .ro 0 4 0] ]
  | .cache => cacheRegs p.inst
  | .hbmc => hbmcRegs
  | .tile => tileRegs
  | .queue => queueRegs
  | .conn => connRegs

/-- The register that holds the word at `off`, and whether that word is its high half. -/
def findReg (rs : List Reg) (off : Nat) : Option (Reg × Bool) :=
  rs.findSome? (fun r =>
    if r.off ≤ off && decide ((off - r.off) / r.stride < r.n) then
      let d := (off - r.off) % r.stride
      if d = 0 then some (r, false) else if r.wide && d = 4 then some (r, true) else none
    else none)

/-- The register at an offset of a page outside the shadow set. -/
def regAt (p : Page) (off : Nat) : Option (Reg × Bool) := findReg (commonRegs p ++ blockRegs p) off

/-- The offset lies in the active set (R40). -/
def inActive (p : Page) (off : Nat) : Bool := decide (0x100 ≤ off ∧ off < 0x100 + 4 * (caps p.blk).words)

/-- The offset lies in the shadow set (R40). -/
def inShadow (p : Page) (off : Nat) : Bool := decide (0x900 ≤ off ∧ off < 0x900 + 4 * (caps p.blk).words)

/-- The reset value of a field list as a number. -/
def fldReset (fs : List Fld) : Nat := lsum (fs.map (fun f => f.rst * 2 ^ f.lo))

/-- The reset value of the word at `off` of a page (R41, R42, R50: both configuration sets alike). -/
def resetWord (p : Page) (off : Nat) : BitVec 32 :=
  let o := if inShadow p off then off - 0x800 else off
  match regAt p o with
  | some (r, hi) => BitVec.ofNat 32 (if hi then fldReset r.fs / 2 ^ 32 else fldReset r.fs)
  | none => 0

/-- What a word of the register file that nothing has written reads as. -/
def regDefault (key : Nat) : BitVec 32 :=
  match pageOf (4 * key) with
  | some (p, off) => resetWord p off
  | none => 0

end Sys2Proof.Machine
end

