-- ==== Sys2Proof/Machine/State.lean ====
section
/-! DEFINITION. The state of the module as plain data, the reasons a step can stop, and the state right after reset. -/

namespace Sys2Proof.Machine

open Sys2Proof

/-- Why the machine stops. The spec gives every command of the table an effect, so no meaning raises a fault; the reason is kept for a run that reaches a state the spec rules out. -/
inductive Fault where
  /-- No meaning raises it. Safe. -/
  | unreachableState
deriving DecidableEq, Repr

/-- Why a command has no meaning. -/
inductive Refusal where
  /-- The command is not modelled yet (raised by Dispatch only). Safe: nothing is proved of it. -/
  | notModelled (mnemonic : String)
  /-- The command names a unit the module does not have (tile 160, queue 16 384 ...), so it is no command of this module (02_register_pages.md R35). Safe. -/
  | noSuchUnit
deriving DecidableEq, Repr

/-- A translated range (10_translation.md R309). -/
structure Extent where
  len : Nat
  perm : Nat
  gran : Nat
  kind : Nat
  base : Nat
  firstOff : Nat
  nruns : Nat
deriving DecidableEq, Repr

/-- A delivered launch (05_thread_groups.md R144), with the command and queue it belongs to; blocks started, the moment it became the earliest candidate, the moment since which it has been unable to start, and how often it was passed over (14_power_thermal.md R454, R457). -/
structure Launch where
  uid : Nat
  cmd : Nat
  queue : Nat
  nblocks : Nat
  groups : Nat
  nregs : Nat
  blockBase : Nat
  entry : Nat
  maxResident : Nat
  args : List Byte
  extents : List Extent
  started : Nat
  since : Nat
  stuck : Nat
  bypass : Nat
deriving DecidableEq, Repr

/-- An entry of a path's stack: a return point with the lanes of the call, or the split it belongs to (05 R153, R154). -/
inductive Frame where
  | call (ret lanes : Nat)
  | split (id : Nat)
deriving DecidableEq, Repr

/-- A path of a group: its lanes as a mask, its pc, its open entries innermost first (05 R152-R154). -/
structure Path where
  lanes : Nat
  pc : Nat
  frames : List Frame
deriving DecidableEq, Repr

/-- An unclosed split: reconvergence point, full lane set, lanes that have reached join, and the entries below it (05 R153). -/
structure Split where
  id : Nat
  reconv : Nat
  lanes : Nat
  joined : Nat
  frames : List Frame
deriving DecidableEq, Repr

/-- One lane of a parked wait: lane, word, operation (0 ge, 1 eq, 2 ne, 3 any), value, and the word value that satisfied it (05 R168). -/
structure LaneWait where
  lane : Nat
  word : Nat
  op : Nat
  val : Nat
  got : Option Nat
deriving DecidableEq, Repr

/-- Why a path is parked (05 R166): at a barrier, with the completions each waiting lane still needs, or at a signal wait with its destination register. -/
inductive ParkKind where
  | bar (n : Nat) (need : List (Nat × Nat))
  | wait (dst ord : Nat) (lanes : List LaneWait)
deriving DecidableEq, Repr

/-- A parked path, the moment it parked, the watchdog limit in force then, and whether its stall was reported (05 R166, R173). -/
structure Park where
  path : Path
  kind : ParkKind
  since : Nat
  limit : Nat
  reported : Bool
deriving DecidableEq, Repr

/-- An outstanding global access of a group (05 R178): what it writes when its response returns, a fault it returns with, the remote parts still out, the registers that it will write (first, number), whether it only writes memory, and whether it is an acquire. -/
structure Access where
  id : Nat
  pc : Nat
  lanes : Nat
  writes : List (Nat × Word)
  fault : Option (Nat × Nat)
  remote : Nat
  dst : Nat
  ndst : Nat
  store : Bool
  acq : Bool
deriving DecidableEq, Repr

/-- A thread group (05 R140, R141, R152): registers by 32 x register + lane, predicates as lane masks. -/
structure Group where
  core : Nat
  exited : Nat
  run : Option Path
  ready : List Path
  parked : List Park
  splits : List Split
  nextId : Nat
  regs : FMap Word
  preds : FMap Word
  outst : List Access
deriving DecidableEq, Repr

/-- A block barrier (05 R164, R165): arrivals by thread, the first arrival of the use in progress, its watchdog limit, whether its stall was reported, the pc of each thread's arrival at the use in progress, and the arrivals that count toward later uses in their order (thread, moment, watchdog limit, pc). -/
structure Bar where
  arrivals : List (Nat × Nat)
  since : Option Nat
  limit : Nat
  reported : Bool
  pcs : List (Nat × Nat)
  later : List (Nat × Nat × Nat × Nat)
deriving DecidableEq, Repr

/-- A resident block of a tile (05 R142). -/
structure Block where
  id : Nat
  launch : Launch
  index : Nat
  groups : List Group
  bars : List Bar
deriving DecidableEq, Repr

/-- Who issued a descriptor: queue, command, resident block (none for a queue's delivery) and block index (06 R183, 07 R213, 08 R243). -/
structure Issuer where
  queue : Nat
  cmd : Nat
  blk : Option Nat
  index : Nat
deriving DecidableEq, Repr

/-- A descriptor in an engine's intake: its copied bytes, the scratchpad offset it was issued from, its issuer, its extents, uncorrectable data met by the copy, whether it has passed its check, the moment its wait began with the watchdog limit then in force. -/
structure Desc where
  uid : Nat
  bytes : List Byte
  off : Nat
  iss : Issuer
  extents : List Extent
  raw : Option Nat
  checked : Bool
  wait : Option (Nat × Nat)
deriving DecidableEq, Repr

/-- A matrix descriptor that has left the intake (06 R191-R194): next output block to start, blocks written back, whether its operands-read signal is performed, and the code of its failure. -/
structure MxJob where
  d : Desc
  next : Nat
  done : Nat
  rdSent : Bool
  fail : Option Nat
deriving DecidableEq, Repr

/-- The block an array holds (06 R188): descriptor, block number, the elements it will write by offset, element size, and the numeric events it has counted. -/
structure MxBlk where
  uid : Nat
  num : Nat
  out : List (Nat × Nat)
  size : Nat
  sat : Nat
  nan : Nat
deriving DecidableEq, Repr

/-- The matrix engine (06 R183-R208): intake, descriptors out of the intake in order, the two arrays, blocks whose later descriptors fail. -/
structure MxEng where
  intake : List Desc
  jobs : List MxJob
  arr0 : Option MxBlk
  arr1 : Option MxBlk
  halted : List Nat
deriving DecidableEq, Repr

/-- Bits that the vector engine's store writes (07 R223, R230): stored with the vector that holds input element `idx`, `w` bits from bit `bit` behind byte `off`; `elem` says that it is an output element. -/
structure VxItem where
  idx : Nat
  off : Nat
  bit : Nat
  w : Nat
  val : Nat
  elem : Bool
deriving DecidableEq, Repr

/-- Numeric events that a vector descriptor counts with the vector of linear index `idx` (04 R138): saturations, NaNs, NaNs lost. -/
structure VxEvent where
  idx : Nat
  sat : Nat
  nan : Nat
  lost : Nat
deriving DecidableEq, Repr

/-- A vector descriptor that has left the intake (07 R223-R235): inputs read, next linear index, what is still to store, elements stored, empty outputs, histogram counters (64 bins, zeros, subnormals, saturations, NaNs, infinities, total), every write performed, the inputs-read signal performed, the code of its failure, the numeric events still to count, and for each empty output still to store the index whose vector stores it. -/
structure VxJob where
  d : Desc
  snap : Bool
  pos : Nat
  items : List VxItem
  stored : Nat
  empty : Nat
  hist : List Nat
  fin : Bool
  rdSent : Bool
  fail : Option Nat
  events : List VxEvent
  emptyIdx : List Nat
deriving DecidableEq, Repr

/-- The vector engine. -/
structure VxEng where
  intake : List Desc
  jobs : List VxJob
  halted : List Nat
deriving DecidableEq, Repr

/-- A part of a transfer that is out on the fabric (08 R251, R252): first linear index, length, answers still to come, bytes gathered for the destination, and whether it is a remote write. -/
structure DmaPart where
  start : Nat
  len : Nat
  need : Nat
  data : List Byte
  write : Bool
deriving DecidableEq, Repr

/-- A DMA descriptor that has left the intake (08 R252-R258): its slot, next linear index to move, parts on the fabric, moment of its last movement with the stall limit then in force, whether it is stalled, whether its source-read signal is performed, its signal (0 not sent, 1 sent, 2 applied), the code of its failure, and, for a copy whose footprints overlap, where its free choices begin with the source bytes as it found them (R250). -/
structure DmaJob where
  d : Desc
  slot : Option Nat
  pos : Nat
  parts : List DmaPart
  since : Nat
  limit : Nat
  stalled : Bool
  rdSent : Bool
  sig : Nat
  fail : Option Nat
  ovl : Option (Nat × List Byte)
deriving DecidableEq, Repr

/-- The tile DMA engine: intake, descriptors that have left it, blocks being failed (R262), and blocks with a failed write and its code (03 R82). -/
structure DmaEng where
  intake : List Desc
  jobs : List DmaJob
  halted : List Nat
  lost : List (Nat × Nat)
deriving DecidableEq, Repr

/-- A release tag of the scope detector (03_memory_model.md R83-R85): the bytes of the release write, scope, tile, whether it came over Krovmo, and the agent within the tile. -/
structure RelTag where
  loc : Nat
  len : Nat
  scope : Nat
  tile : Option Nat
  remote : Bool
  thread : Option Nat
deriving DecidableEq, Repr

/-- A launch descriptor on its way to the scheduler of a tile (05 R145): the command and its queue, the block index base of this tile, its bytes from 0x00 to 0x4F, its extents, and the binding it was sent under. -/
structure Arrive where
  uid : Nat
  queue : Nat
  gen : Nat
  epoch : Nat
  base : Nat
  bytes : List Byte
  extents : List Extent
deriving DecidableEq, Repr

/-- What a tile holds beside its registers and bytes: resident blocks, launches taken, launches arriving, the three engines, release tags, and the register-window operation in progress with its result (08 R268). -/
structure Tile where
  blocks : List Block
  launches : List Launch
  arriving : List Arrive
  nextId : Nat
  mx : MxEng
  vx : VxEng
  dma : DmaEng
  tags : List RelTag
  win : Option (Nat × Option Nat × Bool)
deriving DecidableEq, Repr

/-- A tile with nothing on it. -/
def Tile.init : Tile :=
  ⟨[], [], [], 0, ⟨[], [], none, none, []⟩, ⟨[], [], []⟩, ⟨[], [], [], []⟩, [], none⟩

/-- A record kept in the retirement store of Palur (11_memory_system.md R348, R351): stack, pseudo-channel, bank, row, reason, the interleave key it was made under, and the pages it lists. -/
structure RetRow where
  st : Nat
  pc : Nat
  bank : Nat
  row : Nat
  reason : Nat
  key : Nat
  pages : List Nat
deriving DecidableEq, Repr

/-- A rank-ordered round in progress (11 R340): slice, header index and the header as it was read at its start. -/
structure OrwRound where
  c : Nat
  j : Nat
  addr : Nat
  hdr : List Byte
deriving DecidableEq, Repr

/-- A map-out in progress (11 R350): stack, pseudo-channel, next frame to look at, bytes copied, bytes to copy in all. -/
structure Mapout where
  st : Nat
  pc : Nat
  q : Nat
  copied : Nat
  total : Nat
deriving DecidableEq, Repr

/-- A region scrub in progress (11 R359): range, and the HBM region it serves, if any. -/
structure Scrub where
  base : Nat
  len : Nat
  region : Option Nat
deriving DecidableEq, Repr

/-- A SLICE_WRITE that waits for the fill of a block it covers in part (11 R335). -/
structure FillWait where
  req : Requester
  addr : Nat
  data : List Byte
deriving DecidableEq, Repr

/-- What the base dies hold beside their registers (11_memory_system.md). -/
structure MemSys where
  /-- slice sectors by 64-byte block: 1 present, 2 present and dirty; others absent -/
  sectors : FMap Nat
  /-- fold frame of each displaced granule, as 2^23 x module pseudo-channel + frame -/
  fold : FMap Nat
  /-- next pseudo-channel of each stack to give a fold frame, and reserve frames used by module pseudo-channel -/
  foldNext : FMap Nat
  foldUsed : FMap Nat
  /-- correctable errors by row since its last repair -/
  rowCe : FMap Nat
  /-- rows that have failed and wait for their repair -/
  failing : List Nat
  /-- repairs by row, and spare rows used by bank -/
  rowRep : FMap Nat
  bankSpare : FMap Nat
  /-- Palur's stored retirement records, in order -/
  retired : List RetRow
  /-- records that wait for room in a stack's ring, with the number of the next record -/
  retWait : List (Nat × RetRow)
  /-- stacks whose ring has been configured since bring-up -/
  retOpen : List Nat
  mapout : Option Mapout
  /-- stacks whose PHY has lost lock, with the moment -/
  phyLost : List (Nat × Nat)
  /-- stacks marked failed until the next bring-up -/
  failed : List Nat
  /-- requests by slice and requester in the current window -/
  reqs : FMap Nat
  /-- the moment of each stack's last recalibration, and its temperature then -/
  recal : FMap Nat
  recalTemp : FMap Nat
  /-- next frame of each stack's patrol -/
  patrol : FMap Nat
  scrub : Option Scrub
  /-- regions that wait for CACHE 0 to take their scrub, in order -/
  scrubWait : List Nat
  rounds : List OrwRound
  /-- release tags of each slice, newest first -/
  tags : List (Nat × RelTag)
  /-- queues with a watched doorbell block, and those whose block has been written -/
  watch : List (Nat × Nat)
  dbWritten : List Nat
  /-- counted accesses not yet added: region, granule, blocks -/
  counted : List (Nat × Nat × Nat)
  /-- blocks found present and absent, and dirty blocks written back, by slice (R361) -/
  hits : FMap Nat
  misses : FMap Nat
  wbacks : FMap Nat
  /-- writes that wait for a fill, in order of arrival -/
  fillWait : List FillWait
  /-- stacks whose PHY retrains by CTRL.retrain (R356) -/
  retrain : List Nat
  /-- stacks whose map-out has its consent and waits for another map-out, in order (R349) -/
  mapWait : List Nat
  /-- every stack is in self-refresh (14 R453, 16 R510) -/
  selfRefresh : Bool
deriving DecidableEq, Repr

def MemSys.init : MemSys :=
  ⟨[], [], [], [], [], [], [], [], [], [], [], none, [], [], [], [], [], [], none, [], [], [], [], [], [], [], [], [], [], [], [], false⟩

/-- A host hart (09_command_queues.md R270-R272): privilege mode (0 user, 1 supervisor, 3 machine), program counter, integer, floating-point and vector registers (64, 64 and 512 bits), control and status registers by number (satp, the trap registers, stimecmp, the 16 PMP entries and the others), the line reserved by LR, and the access that waits on the way to memory (address, whether it is a store). -/
structure Hart where
  priv : Nat
  pc : Nat
  x : FMap Word64
  f : FMap Word64
  v : FMap (BitVec 512)
  csr : FMap Word64
  resv : Option Nat
  wait : Option (Nat × Bool)
deriving DecidableEq, Repr

/-- A hart as it starts: machine mode, registers zero (DESIGN CHOICE, log entry 152). -/
def Hart.init : Hart := ⟨3, 0, [], [], [], [], none, none⟩

/-- The caches of the host cores, coherent among themselves and with nothing else (01_architecture.md R17): lines by 64-byte block (1 clean, 2 dirty), the bytes they hold, and write-backs that wait on the way to memory (hart, line, whether the line goes). -/
structure HostCache where
  lines : FMap Nat
  bytes : List Host.Cell
  wait : List (Nat × Nat × Bool)
deriving DecidableEq, Repr

/-- The first fault of a command: code, unit, tile (255 when none), detail (09_command_queues.md R293, R296). -/
structure CmdFault where
  code : Nat
  unit : Nat
  tile : Nat
  detail : Nat
deriving DecidableEq, Repr

/-- A command that the queue engine has taken from its ring (09 R283-R293): queue, position, bytes, header, translation context, ranges in order, directly named addresses by field offset, pool units (first, number), target tiles with the epoch they held at the check; `bad` where it failed a check and is not executed; how far it has come (0 not begun or nothing performed, 1 first part performed, 2 all performed), remote parts outstanding, the moment it began, the value its atomic returned and still writes, its first fault. -/
structure Cmd where
  uid : Nat
  queue : Nat
  pos : Nat
  bytes : List Byte
  op : Nat
  relaxed : Bool
  notify : Bool
  tag : Nat
  ctx : Nat
  extents : List Extent
  direct : List (Nat × Extent)
  pool : Option (Nat × Nat)
  targets : List (Nat × Nat)
  bad : Bool
  begun : Bool
  stage : Nat
  remote : Nat
  since : Nat
  got : Option Nat
  fault : Option CmdFault
deriving DecidableEq, Repr

/-- Why a command that has been read is not yet accepted: a handler request (10_translation.md R313), no record slot, a migration that holds its range (R321) or the extent pool (R311, with the order of waiting), each with the moment it began; or it is to be tried again. -/
inductive HWait where
  | miss (seq : Nat)
  | ring
  | mig (since : Nat)
  | pool (n : Nat)
  | again
deriving DecidableEq, Repr

/-- A queue beside its registers (09 R288, R293): a refetch in progress (first read, last read, refetches made), the command read and not yet accepted, the number of the last completion record, the place of the command at HEAD in the order of waiting for the extent pool (10 R311), and the code of a write that failed since the queue was armed (03 R82). -/
structure QSt where
  torn : Option (Nat × Nat × Nat)
  held : Option (List Byte × HWait)
  seq : Nat
  poolAt : Option Nat
  lost : Option Nat
deriving DecidableEq, Repr

def QSt.init : QSt := ⟨none, none, 0, none, none⟩

/-- An outstanding handler request (10 R313, R314): record number, context, 4 KiB page, access kind, waiting queues, moment of posting. -/
structure MissReq where
  seq : Nat
  ctx : Nat
  page : Nat
  kind : Nat
  queues : List Nat
  since : Nat
deriving DecidableEq, Repr

/-- A cached leaf entry (10 R308): context, generation, first virtual address, log2 of its size, and the entry. -/
structure TlbEnt where
  ctx : Nat
  gen : Nat
  va : Nat
  log : Nat
  pte : Nat
deriving DecidableEq, Repr

/-- A cached non-leaf entry (10 R308): context, generation, its level, the virtual address divided by the size it covers, and the entry. -/
structure PteEnt where
  ctx : Nat
  gen : Nat
  level : Nat
  tag : Nat
  pte : Nat
deriving DecidableEq, Repr

/-- A cached context entry (10 R308): context and its two words. -/
structure CtxEnt where
  ctx : Nat
  w0 : Nat
  w1 : Nat
deriving DecidableEq, Repr

/-- A migration in progress (10 R320, R321): its number, its registers, pages done, the commands it waits for, remote parts outstanding of the leaf in progress, whether that leaf has been sent. -/
structure Mig where
  uid : Nat
  ctx : Nat
  conn : Nat
  va : Nat
  dst : Nat
  pages : Nat
  pos : Nat
  waits : List Nat
  parts : Nat
  sent : Bool
deriving DecidableEq, Repr

/-- An invalidation in progress (10 R317): mode (3 once its entries are gone), context, range, and the commands it waits for. -/
structure InvOp where
  mode : Nat
  ctx : Nat
  va : Nat
  pages : Nat
  waits : List Nat
deriving DecidableEq, Repr

/-- The translation front end beside its registers: outstanding handler requests, the cache of leaf entries, of non-leaf entries and of context entries, the migration and the invalidation in progress, the next number of the order of waiting for pool room. -/
structure Xlat where
  reqs : List MissReq
  tlb : List TlbEnt
  ptes : List PteEnt
  ctxs : List CtxEnt
  mig : Option Mig
  inv : Option InvOp
  poolNext : Nat
deriving DecidableEq, Repr

/-- A bind that is held (13_binding_and_jobs.md R405): the resource, epoch and generation as they stood at the write, and the bstate that HELD replaced. -/
structure BindHold where
  page : Page
  epoch : Nat
  gen : Nat
  prior : Nat
deriving DecidableEq, Repr

/-- A teardown in progress (13 R416-R419): what it tears down, the job, its resources, the step, the moment the drain began, and whether the drain limit has passed. -/
structure Teardown where
  target : TdTarget
  gen : Nat
  pages : List Page
  step : Nat
  since : Nat
  forced : Bool
deriving DecidableEq, Repr

/-- Binding beside the registers: bound resources, slots whose ready has been written, held binds, teardowns, region binds held behind releasing regions (region, epoch), regions releasing with the commands they wait for, and what the most recently started teardown tears down (R430). -/
structure BindSt where
  bound : List Page
  ready : List Nat
  holds : List BindHold
  tds : List Teardown
  rgnHeld : List (Nat × Nat)
  rgnDrain : List (Nat × List Nat)
  newest : Option TdTarget
deriving DecidableEq, Repr

/-- An active PENNANT (09 R291, 14 R455, R456): queue, tiles it still names, its tile_count, duration in µs, energy in mJ, intensity, and the moment it ends. -/
structure Pennant where
  queue : Nat
  tiles : List Nat
  count : Nat
  duration : Nat
  energy : Nat
  intensity : Nat
  stop : Nat
deriving DecidableEq, Repr

/-- Who waits for the answer to a packet (12_krovmo_fabric.md R380, R383): a thread access with the register bytes it fills (register key, offset in the answer, bytes), a part of a DMA transfer, a part of a command, or a migration with an offset in its range and whether the part is a write. -/
inductive PCtx where
  | thread (gr : GRef) (acc : Nat) (fill : List (Nat × Nat × Nat))
  | dma (t uid part : Nat)
  | cmd (uid part : Nat)
  | mig (uid off : Nat) (write : Bool)
deriving DecidableEq, Repr

/-- A request that an agent of this module hands to a connection. -/
structure OutReq where
  ptype : Nat
  ord : Nat
  len : Nat
  relTile : Nat
  relUnit : Nat
  node : Nat
  target : Nat
  body : List Byte
  ctx : PCtx
deriving DecidableEq, Repr

/-- A packet sent and not yet answered, with its retry copy (12 R380), the cuts after which it was begun again less the TRUNCATED answers that came for them (R377), and the bytes reserved for its response (R373). -/
structure OutPkt where
  req : OutReq
  seq : Nat
  sentAt : Nat
  covered : Bool
  cuts : Int
  room : Nat
deriving DecidableEq, Repr

/-- A connection beside its registers (12 R378-R381): requests waiting for capacity, packets outstanding, answers to the last 64 requests (seq, status, type, old value), accepted requests not yet performed, timers, and how many of the accepted requests are from before the connection went DOWN and get no answer (R378). -/
structure ConnSt where
  wait : List OutReq
  out : List OutPkt
  answers : List (Nat × Nat × Nat × Nat)
  held : List Packet
  openSince : Option Nat
  lastOpen : Nat
  heard : Nat
  holdAt : Nat
  closing : Bool
  peerClosed : Bool
  silentFrom : Nat
  mute : Nat
deriving DecidableEq, Repr

def ConnSt.init : ConnSt := ⟨[], [], [], [], none, 0, 0, 0, false, false, 0, 0⟩

/-- The sending side of a virtual channel (12 R373, R377): packets to send, the rest of the packet in progress and the whole of it, when its last flit went, credits held. -/
structure VcTx where
  q : List (List Byte)
  rest : List Byte
  whole : List Byte
  lastAt : Nat
  cutDue : Bool
  credits : Nat
deriving DecidableEq, Repr

/-- The receiving side of a virtual channel (12 R373, R377): bytes of the packet in progress, when its last flit came, whether bytes are discarded until a cut, and the freed flits whose credits have not been returned. -/
structure VcRx where
  buf : List Byte
  lastAt : Nat
  dropping : Bool
  owed : Nat
deriving DecidableEq, Repr

/-- A flit kept until an ack covers it (12 R372), with the moments of its replays in the last 100 µs (R369). -/
structure TxFlit where
  seq : Nat
  ftype : Nat
  vc : Nat
  cut : Bool
  payload : List Byte
  times : List Nat
deriving DecidableEq, Repr

/-- A link beside its registers (12 R367-R377): training step and start, lanes trained on this side, retrain start, moment of DOWN, last auto-training, next seq to send, last seq accepted, retry buffer, whether a replay of it waits, link-control payloads that wait, time of the last ack, a nak owed, VC0 credits withheld, the two sides of its three virtual channels, and the flits transmitted since reset. -/
structure LinkSt where
  step : Nat
  since : Nat
  lanes : Nat
  retrainFrom : Option Nat
  downAt : Nat
  lastAuto : Nat
  seqNext : Nat
  accepted : Nat
  retry : List TxFlit
  replayDue : Bool
  ctl : List (List Byte)
  ackAt : Nat
  nakDue : Bool
  kept : Nat
  tx : List VcTx
  rx : List VcRx
  line : List Flit
deriving DecidableEq, Repr

def LinkSt.init : LinkSt :=
  ⟨0, 0, 0, none, 0, 0, 1, 0, [], false, [], 0, false, 0, List.replicate 3 ⟨[], [], [], 0, false, 0⟩, List.replicate 3 ⟨[], 0, false, 0⟩, []⟩

/-- What a module keeps of a child in a broadcast (13 R424): its last status, the moment of the next START to it, and the gap after that. -/
structure Kid where
  status : Option Nat
  nextAt : Option Nat
  gap : Nat
deriving DecidableEq, Repr

/-- A broadcast context (13_binding_and_jobs.md R422-R429): generation, times in ns of PTP time, root, policy, members; whether this module is its root; own status, whether the start is armed; the children by number; statuses by node (one more than the code); entries to send to each parent with the moment of the last batch; whether the report is written; nodes that took the start late. -/
structure HCtx where
  gen : Nat
  time : Nat
  deadline : Nat
  root : Nat
  policy : Nat
  members : Nat
  here : Bool
  status : Nat
  taken : Bool
  kids : List Kid
  known : FMap Nat
  pend : List (List (Nat × Nat) × Nat)
  reported : Bool
deriving DecidableEq, Repr

/-- The PTP servo (12 R397, 13 R433, R434): best announced master, the Sync that waits for its Follow_Up (number, receive time), origin and receive time of the last Sync, path delay, Delay_Req sent (number, time), reference moment of the last Sync, offsets in a row within 500 ns, moment holdover began, whether the first step has been made, fraction of a nanosecond in 10^-9, and the moment of the last Announce of the best master. -/
structure Ptp where
  best : Option PtpAnnounceMsg
  sync : Option (Nat × Nat)
  last : Option (Nat × Nat)
  delay : Int
  req : Option (Nat × Nat)
  reqNum : Nat
  lastSync : Nat
  good : Nat
  holdFrom : Nat
  stepped : Bool
  frac : Nat
  announceAt : Nat
deriving DecidableEq, Repr

/-- A frame that the management port sends of its own (12 R396): an ARP reply, a neighbour advertisement, an echo reply, or a DHCPv4 client's message (DISCOVER, or a REQUEST of an address from a server) with its transaction number. -/
inductive MgmtFrame where
  | arp (ip mac dest : Nat)
  | ndp (ip mac : Nat) (dest : Nat)
  | echo (v6 : Bool) (source dest : Nat) (data : List Byte)
  | discover (xid : Nat)
  | request (xid addr server : Nat)
deriving DecidableEq, Repr

/-- The network side of the management port (12 R396): the DHCPv4 client's state (0 none, 1 DISCOVER sent, 2 REQUEST sent, 3 bound), its transaction number, the lease (address, prefix length, gateway, the tick of its end), and the last frame sent with its VLAN tag (R399). -/
structure MgmtNet where
  dhcp : Nat
  xid : Nat
  lease : Option (Nat × Nat × Nat × Nat)
  sent : Option (Option Nat × MgmtFrame)
deriving DecidableEq, Repr

def MgmtNet.init : MgmtNet := ⟨0, 0, none, none⟩

/-- A flag event whose error record has not been written yet (16_bringup_errors_test.md R516, R517). -/
structure Rec where
  cls : Nat
  page : Page
  flag : Nat
  code : Nat
  queue : Nat
  count : Nat
  ref : Nat
  ptp : Nat
  addr : Nat
  detail : List Nat
  gen : Nat
  epoch : Nat
deriving DecidableEq, Repr

/-- The error log (16 R516-R521): events not yet posted, records waiting for ring room, Palur's recent records, posts per flag in the current second. -/
structure Log where
  posted : List Rec
  waiting : List (Nat × List Byte)
  recent : List (Nat × List Byte)
  seq : Nat
  rates : List (Nat × Nat × Nat)
deriving DecidableEq, Repr

/-- An image in a bank of Palur's store (15_security_firmware.md R469, R470): the file as received, and whether its signatures, digest and tag verify. -/
structure Image where
  bytes : List Byte
  sound : Bool
deriving DecidableEq, Repr

/-- One stored settings record (15 R483): its layout; the words of a configuration set, or the mapped-out pseudo-channels; retired-row counts and retirement records; the bytes of a calibration set. -/
structure KeptRec where
  lay : Nat
  words : List Nat
  counts : FMap Nat
  rows : List RetRow
  calib : List Byte
deriving DecidableEq, Repr

/-- Palur's non-volatile store (15 R469, 16_bringup_errors_test.md R521): the two banks and the marker, whether the other bank is staged or failed to start, min_svn, lifecycle, revocations, management key, highest session, the stored active sets of MGMT and PALUR, mapped-out pseudo-channels and retired-row counts by module number, the layouts of these three records, the records of newer layouts kept aside by record number, the records whose own check fails (15 R483), the calibration set, its factory CRC with that CRC's layout and the modified flag, the Burgee record, the last loss of input and whether it is still to be flagged, the class 3 records kept. -/
structure Store where
  banks : List (Option Image)
  active : Nat
  staged : Bool
  stagedBad : Bool
  minSvn : Nat
  lifecycle : Nat
  revoked : Nat
  mgmtKey : Option (List Byte)
  sessHigh : Nat
  mgmtSet : List Nat
  palurSet : List Nat
  mgmtLay : Nat
  palurLay : Nat
  mapped : List Nat
  retCounts : FMap Nat
  rowsLay : Nat
  kept : List (Nat × KeptRec)
  badRecs : List Nat
  calib : List Byte
  factoryCrc : Nat
  crcLayout : Nat
  modified : Bool
  burgee : List Byte
  lastLoss : Nat
  lossDue : Bool
  class3 : List (Nat × List Byte)
deriving DecidableEq, Repr

/-- A request that waits with Palur (09_command_queues.md R303): from the mailbox, or from a management session with its number; its 256 message bytes. -/
structure PReq where
  session : Option (Nat × Nat)
  msg : List Byte
deriving DecidableEq, Repr

/-- Palur's long operation in progress (15 R476-R479, R488, R490, 16 R513): staging or presenting a token, from host memory (address, length) or in chunks (bytes received, moment of the last, whether the last has come); an activation; a self-test with its tiles; the signing of a report. -/
inductive LongOp where
  | stage (host : Option (Nat × Nat)) (got : List Byte) (lastAt : Nat) (closing : Bool)
  | token (host : Option (Nat × Nat)) (got : List Byte) (lastAt : Nat) (closing : Bool)
  | activate (hostReset : Bool)
  | selfTest (kind : Nat) (tiles : List Nat)
  | attest (report : List Byte)
deriving DecidableEq, Repr

/-- Palur beside its registers and its store: ROM recovery, requests waiting in arrival order, the long operation, what GET_RESULT returns, the challenge with the moment of its issue, debug state and its end, open sessions with the last seq of each, the pending calibration copy and the committed set that the next control period takes, the signed report and the reports since power-up, whether bring-up has been taken, the moment stage A ended, the last pause, the last response sent over the management port, the random draws made, where hart 0 was last started, the resume address of P2. -/
structure PalurSt where
  rom : Bool
  reqs : List PReq
  long : Option LongOp
  result : List Byte
  challenge : Option (List Byte × Nat)
  debug : Nat
  debugEnd : Nat
  sessions : List (Nat × Nat)
  calPend : Option (List Byte)
  calDue : Option (List Byte)
  report : Option (List Byte)
  reports : Nat
  taken : Bool
  stageAt : Nat
  pauseUs : Nat
  sent : List Byte
  draws : Nat
  entry : Nat
  resume : Nat
deriving DecidableEq, Repr

def PalurSt.init : PalurSt :=
  ⟨false, [], none, [0, 0, 0, 0, 0], none, 0, 0, [], none, none, none, 0, false, 0, 0, [], 0, 0, 0⟩

/-- Power beside its registers (14_power_thermal.md): P3 was entered by SLEEP_ENTER, the input is low, is high, a relearn that waits for the end of its window, dies whose rail is on, rail voltage by die in mV, V_cap and V_therm, whether the fast limiter acts, watts estimated in the current window by die (4 is the rest) and the periods of it, input power of the past windows, remainder of ENERGY, the other sensors of a die, the moment since which a sensor has been at 105 degrees, the moment since which a stack has been at level 4, the consecutive windows in the upper and lower band by job slot, the waiting of its bound tiles in the current pace window in tile-ticks by job slot, the ticks for which all of them have been waiting, the slots whose present such interval is counted (R459), and the voltage of the base supply and of the host supply in mV (01_architecture.md R12). -/
structure PowerSt where
  sleepOff : Bool
  low : Bool
  high : Bool
  relearn : Bool
  rails : List Nat
  rail : FMap Nat
  vcap : FMap Nat
  vtherm : FMap Nat
  limiter : Bool
  est : FMap Nat
  estN : Nat
  hist : List Nat
  frac : Nat
  others : FMap Nat
  hotSince : FMap Nat
  lvl4 : FMap Nat
  paceHi : FMap Nat
  paceLo : FMap Nat
  paceWait : FMap Nat
  paceAll : FMap Nat
  straggled : List Nat
  baseMv : Nat
  hostMv : Nat
deriving DecidableEq, Repr

def PowerSt.init : PowerSt := ⟨false, false, false, false, [], [], [], [], false, [], 0, [], 0, [], [], [], [], [], [], [], [], 0, 0⟩

/-- The state of the module. -/
structure State where
  /-- the commands that wait, first in first out -/
  pending : List Instr
  /-- the register space by 32-bit word -/
  regs : FMap Word
  /-- stacked memory by byte -/
  hbm : List Host.Cell
  /-- the 64-byte blocks of stacked memory that hold uncorrectable data -/
  raw : List Nat
  /-- per-tile bytes by 2^32 x tile + offset -/
  tmem : List Host.Cell
  /-- the 64-byte blocks of per-tile space that hold uncorrectable data -/
  traw : List Nat
  /-- the reference timebase in 10 ns ticks -/
  ref : Nat
  /-- PTP time in ns (13_binding_and_jobs.md R433) -/
  ptp : Nat
  /-- stage A has ended: Palur runs and the register space is served (16_bringup_errors_test.md R499) -/
  up : Bool
  /-- the pages whose disturbance stall window is open (02_register_pages.md R44, 16 R524) -/
  stalls : List Page
  /-- the moment, plus one, from which the stall windows of an armed page are phased, by page number (02 R44) -/
  phase : FMap Nat
  /-- command fetch is paused by an activation (15_security_firmware.md R479) -/
  paused : Bool
  /-- how many free values have been used (the model's own field) -/
  free : Nat
  /-- base dies -/
  mem : MemSys
  /-- connections -/
  conns : FMap ConnSt
  /-- the connections in state OPEN -/
  openConns : List Nat
  /-- links -/
  links : FMap LinkSt
  /-- commands taken from the queues and not completed, in order of acceptance -/
  cmds : List Cmd
  /-- the number of the next command -/
  nextUid : Nat
  /-- the queues beside their registers -/
  qs : FMap QSt
  /-- the queue whose fetch was the last turn of the round (09 R289) -/
  fetchTurn : Nat
  /-- the translation front end -/
  xlat : Xlat
  /-- bindings and job slots -/
  bind : BindSt
  /-- active PENNANTs -/
  pennants : List Pennant
  /-- the four broadcast contexts of the Hoist -/
  hoist : List (Option HCtx)
  /-- the generations whose ABORT has been forwarded (13 R428) -/
  aborted : List Nat
  /-- the PTP servo -/
  servo : Ptp
  /-- the network side of the management port -/
  mgmt : MgmtNet
  /-- the power headroom of each compute die in µW (14_power_thermal.md R457) -/
  headroom : FMap Int
  /-- the harts that run, and SSIP of each hart (09 R272, 16 R507) -/
  hartsOn : Nat
  ssip : Nat
  /-- the host harts by number -/
  harts : FMap Hart
  /-- the caches of the host cores -/
  hcache : HostCache
  /-- the tiles -/
  tiles : FMap Tile
  /-- the error log -/
  log : Log
  /-- Palur's store, which power loss does not touch -/
  store : Store
  /-- Palur beside its store -/
  palur : PalurSt
  /-- power and heat -/
  power : PowerSt
  /-- crossing links that retrain, with the moment it began (09_command_queues.md R298): XC1 16 x die + c, XC3 64 + 4 x base + c, XC4 112 + c -/
  xc : List (Nat × Nat)
  /-- the reference timebase has lost lock and stands still (01_architecture.md R22) -/
  refStopped : Bool
  /-- the base-plane network has lost its lock and halted (01_architecture.md R22) -/
  netHalted : Bool
deriving DecidableEq, Repr

/-- The header of the image a module is shipped with (15 R471): firmware 4.2.7, svn 11, settings layout 3, the values of the delivery record that 17_physical.md R539 gives as an example. Everything else that the spec leaves open of this header is the model's choice (DESIGN CHOICE, log entry 6): key_slot 0, body_len 1, and iv, tag, body_digest and build all zero. -/
def shippedHeader : List Byte :=
  toLE 4 0x4B414E52 ++ toLE 1 2 ++ toLE 1 0 ++ toLE 2 512 ++ toLE 4 0x9740 ++ toLE 4 0 ++ toLE 4 0x040207 ++ toLE 4 11 ++ toLE 8 1
    ++ List.replicate 80 0 ++ toLE 2 3 ++ toLE 2 1 ++ List.replicate 396 0

/-- The factory calibration set (15 R484): layout 1, its length, values the spec does not give, zeros, and its CRC. -/
def factoryCal : List Byte :=
  let b := toLE 4 1 ++ toLE 4 8192 ++ (List.range 6136).map Config.calByte ++ List.replicate 2044 0
  b ++ toLE 4 (crc32 b)

/-- The Burgee record (15 R487): version and part, and values the spec does not give. Its key_slot is 0, which the spec does not give and the model fixes (DESIGN CHOICE, log entry 7). -/
def factoryBurgee : List Byte :=
  toLE 4 1 ++ toLE 4 0x9740 ++ (List.range 14).map Config.burgeeByte ++ [0, 0] ++ (List.range 4).map (fun i => Config.burgeeByte (14 + i))
    ++ [0, 0, 0, 0] ++ (List.range 432).map (fun i => Config.burgeeByte (18 + i)) ++ List.replicate 48 0
    ++ (List.range 16608).map (fun i => Config.burgeeByte (450 + i))

/-- The shipped MGMT active set (12_krovmo_fabric.md R395, R399): FEC on, auto_enable 1, the rest 0. -/
def shippedMgmt : List Nat := [0xFFFFFFFF, 3, 0, 0, 0, 0, 0, 0, 0, 0, 0]

/-- The shipped PALUR active set (15 R497). -/
def shippedPalur : List Nat := [0xFFFFFFFF, 0]

/-- Palur's store as a module is shipped (00_scope.md R3): PROVISIONED, an image installed and active in bank A, no management key, the factory calibration. -/
def Store.shipped : Store :=
  { banks := [some ⟨shippedHeader, true⟩, none], active := 0, staged := false, stagedBad := false, minSvn := 11, lifecycle := 1, revoked := 0,
    mgmtKey := none, sessHigh := 0, mgmtSet := shippedMgmt, palurSet := shippedPalur, mgmtLay := 3, palurLay := 3, mapped := [], retCounts := [], rowsLay := 3, kept := [], badRecs := [],
    calib := factoryCal, factoryCrc := leAt factoryCal 0x1FFC 4, crcLayout := 1, modified := false, burgee := factoryBurgee,
    lastLoss := 0, lossDue := false, class3 := [] }

/-- The module right after reset: every register at its reset value, memories with nothing listed, no work anywhere, no power applied. -/
def State.reset : State :=
  { pending := [], regs := [], hbm := [], raw := [], tmem := [], traw := [], ref := 0, ptp := 0, up := false, stalls := [], phase := [], paused := false, free := 0, mem := MemSys.init, conns := [], openConns := [], links := [], cmds := [], nextUid := 0, qs := [], fetchTurn := 16383, xlat := ⟨[], [], [], [], none, none, 0⟩, bind := ⟨[], [], [], [], [], [], none⟩, pennants := [], hoist := [none, none, none, none], aborted := [], servo := ⟨none, none, none, 0, none, 0, 0, 0, 0, false, 0, 0⟩, mgmt := MgmtNet.init, headroom := [], hartsOn := 0, ssip := 0, harts := [], hcache := ⟨[], [], []⟩, tiles := [],
    log := ⟨[], [], [], 0, []⟩, store := Store.shipped, palur := PalurSt.init, power := PowerSt.init, xc := [], refStopped := false, netHalted := false }

end Sys2Proof.Machine
end

