-- ==== Sys2Proof/Machine/Ops.lean ====
section
/-! DEFINITION. The named operations over registers, memories, free values and tiles that every meaning is built from. -/

namespace Sys2Proof.Machine

open Sys2Proof

/-- The outcome type of every meaning. -/
abbrev Out := Host.Outcome State Fault Refusal

/-- The command runs where the units it names exist, and is refused elsewhere (R35). -/
def onUnit (ok : Bool) (s : State) : Out := if ok then .next s else .refused .noSuchUnit

/-! Registers. -/

/-- A 32-bit register as a number. -/
def State.rd (s : State) (p : Page) (off : Nat) : Nat := (fget regDefault s.regs (regKey p off)).toNat

/-- Store a 32-bit register. -/
def State.wr (s : State) (p : Page) (off v : Nat) : State :=
  { s with regs := fset regDefault s.regs (regKey p off) (BitVec.ofNat 32 v) }

/-- A 64-bit register as a number (R37). -/
def State.rd64 (s : State) (p : Page) (off : Nat) : Nat := s.rd p off + 2 ^ 32 * s.rd p (off + 4)

/-- Store a 64-bit register. -/
def State.wr64 (s : State) (p : Page) (off v : Nat) : State := (s.wr p off v).wr p (off + 4) (v / 2 ^ 32)

/-- Bits of a register. -/
def State.rdF (s : State) (p : Page) (off lo len : Nat) : Nat := bits (s.rd p off) lo len

/-- Store bits of a register. -/
def State.wrF (s : State) (p : Page) (off lo len v : Nat) : State := s.wr p off (putBits (s.rd p off) lo len v)

/-- A bit of a register. -/
def State.rdB (s : State) (p : Page) (off n : Nat) : Bool := bit (s.rd p off) n

/-- Add to a 32-bit count, modulo 2^32. -/
def State.inc (s : State) (p : Page) (off n : Nat) : State := s.wr p off (s.rd p off + n)

/-- The pages by name. -/
def pPalur : Page := ⟨.palur, 0⟩
def pMgmt : Page := ⟨.mgmt, 0⟩
def pTime : Page := ⟨.time, 0⟩
def pBunt : Page := ⟨.bunt, 0⟩
def pPower : Page := ⟨.power, 0⟩
def pNet : Page := ⟨.net, 0⟩
def pQeng : Page := ⟨.qeng, 0⟩
def pXlat : Page := ⟨.xlat, 0⟩
def pFabric : Page := ⟨.fabric, 0⟩
def pHoist : Page := ⟨.hoist, 0⟩
def pErrlog : Page := ⟨.errlog, 0⟩
def pHostc : Page := ⟨.hostc, 0⟩
def pDie (n : Nat) : Page := ⟨.die, n⟩
def pOe (n : Nat) : Page := ⟨.oe, n⟩
def pLink (n : Nat) : Page := ⟨.link, n⟩
def pCache (n : Nat) : Page := ⟨.cache, n⟩
def pHbmc (n : Nat) : Page := ⟨.hbmc, n⟩
def pTile (n : Nat) : Page := ⟨.tile, n⟩
def pQueue (n : Nat) : Page := ⟨.queue, n⟩
def pConn (n : Nat) : Page := ⟨.conn, n⟩

/-- CTRL.enable as STATUS.enabled reports it (R41, R43). -/
def State.enabled (s : State) (p : Page) : Bool := s.rdB p 0x14 0
/-- STATUS.swap_pending. -/
def State.swapPending (s : State) (p : Page) : Bool := s.rdB p 0x14 1
/-- STATUS.quarantined. -/
def State.quarantined (s : State) (p : Page) : Bool := s.rdB p 0x14 2
/-- STATUS.op_busy. -/
def State.opBusy (s : State) (p : Page) : Bool := s.rdB p 0x14 3

/-- The register space is served: stage A has ended and the module is not in P3 (16_bringup_errors_test.md R499, R512). -/
def served (s : State) : Bool := s.up && decide (s.rdF pErrlog 0x220 4 2 ≠ 3)

/-- A page lies beyond the base-plane network: those of the compute dies and the base dies (02_register_pages.md R35). -/
def farPage (p : Page) : Bool := decide (p.blk = .die ∨ p.blk = .tile ∨ p.blk = .cache ∨ p.blk = .hbmc)

/-- A register access reaches its page: over a halted network it waits (01_architecture.md R22). -/
def reached (s : State) (p : Page) : Bool := served s && !(s.netHalted && farPage p)

/-- BIND_STATUS.bstate: 0 UNBOUND, 1 HELD, 2 BOUND, 3 TEARDOWN, 4 QUARANTINED (13_binding_and_jobs.md R404). -/
def bstate (s : State) (p : Page) : Nat := s.rdF p 0x608 0 3

/-- A resource is bound to a job generation (13 R403, R404). -/
def boundTo (s : State) (p : Page) (gen : Nat) : Bool := decide (bstate s p = 2 ∧ s.rd p 0x2C = gen)

/-! Stacked memory. -/

/-- What a byte that nothing has written reads as (DESIGN CHOICE, log entry 3). -/
def byte0 (_ : Nat) : Byte := 0

/-- One byte of stacked memory. -/
def State.hb (s : State) (a : Nat) : Byte := fget byte0 s.hbm a

/-- `n` bytes of stacked memory. -/
def State.hrd (s : State) (a n : Nat) : List Byte := (List.range n).map (fun i => s.hb (a + i))

/-- A little-endian number of `n` bytes in stacked memory. -/
def State.hnat (s : State) (a n : Nat) : Nat := leNat (s.hrd a n)

/-- Bytes written into a memory from address `a` on. -/
def writeCells : List Host.Cell → Nat → List Byte → List Host.Cell
  | m, _, [] => m
  | m, a, b :: r => writeCells (fset byte0 m a b) (a + 1) r

/-- Write bytes to stacked memory. -/
def State.hwr (s : State) (a : Nat) (l : List Byte) : State := { s with hbm := writeCells s.hbm a l }

/-- The enabled capacity E: HBM ends below it (01_architecture.md R23, 11_memory_system.md R332). -/
def memEnd (s : State) : Nat := s.rd64 (pHbmc 0) 0x248

/-- A range lies wholly in enabled HBM. -/
def inHbm (s : State) (a n : Nat) : Bool := decide (a + n ≤ memEnd s)

def State.modMem (s : State) (f : MemSys → MemSys) : State := { s with mem := f s.mem }

/-- Some 64-byte block of a range holds uncorrectable data (11 R344). -/
def rawIn (s : State) (a n : Nat) : Option Nat :=
  s.raw.find? (fun b => decide (a / 64 ≤ b ∧ b ≤ (a + n - 1) / 64))

/-! Per-tile space. -/

/-- The key of a per-tile byte. -/
def tkey (t off : Nat) : Nat := t * 2 ^ 32 + off

/-- One byte of per-tile space. -/
def State.tb (s : State) (t off : Nat) : Byte := fget byte0 s.tmem (tkey t off)

/-- `n` bytes of per-tile space. -/
def State.trd (s : State) (t off n : Nat) : List Byte := (List.range n).map (fun i => s.tb t (off + i))

/-- A little-endian number in per-tile space. -/
def State.tnat (s : State) (t off n : Nat) : Nat := leNat (s.trd t off n)

/-- Write bytes to per-tile space; a 64-byte block written whole is no longer uncorrectable. -/
def State.twr (s : State) (t off : Nat) (l : List Byte) : State :=
  { s with
    tmem := writeCells s.tmem (tkey t off) l
    traw := s.traw.filter (fun b => !(decide (tkey t off ≤ 64 * b) && decide (64 * b + 64 ≤ tkey t off + l.length))) }

/-- Some 64-byte block of a per-tile range holds uncorrectable data. -/
def trawIn (s : State) (t off n : Nat) : Option Nat :=
  (s.traw.find? (fun b => decide (tkey t off / 64 ≤ b ∧ b ≤ (tkey t off + n - 1) / 64))).map (fun b => b * 64 % 2 ^ 32)

/-- The regions of per-tile space (01_architecture.md R28). -/
inductive Region where
  | scratch | acc | xreg | sig
deriving DecidableEq, Repr

/-- The region that holds an offset. -/
def regionOf (off : Nat) : Option Region :=
  if off < 0x1800000 then some .scratch
  else if off < 0x1900000 then some .acc
  else if off < 0x1A00000 then some .xreg
  else if off < 0x1A08000 then some .sig
  else none

/-- First offset and end of a region. -/
def regionLo : Region → Nat
  | .scratch => 0 | .acc => 0x1800000 | .xreg => 0x1900000 | .sig => 0x1A00000
def regionHi : Region → Nat
  | .scratch => 0x1800000 | .acc => 0x1900000 | .xreg => 0x1A00000 | .sig => 0x1A08000

/-- A range lies wholly in a region. -/
def inRegion (r : Region) (off n : Nat) : Bool := decide (regionLo r ≤ off ∧ off + n ≤ regionHi r)

/-- The per-tile offset of signal word `w`. -/
def sigOff (w : Nat) : Nat := 0x1A00000 + 8 * w

/-- A signal word. -/
def State.sig (s : State) (t w : Nat) : Nat := s.tnat t (sigOff w) 8

/-! Free values. -/

/-- A fresh free 64-bit value: nothing is known of it. -/
def freeVal (s : State) : Nat := (Config.freeWord s.free).toNat

/-- The counter of free values advances. -/
def State.freeNext (s : State) : State := { s with free := s.free + 1 }

/-! Host harts (09_command_queues.md R270-R272). -/

/-- A hart. -/
def State.hart (s : State) (n : Nat) : Hart := fget (fun _ => Hart.init) s.harts n
def State.setHart (s : State) (n : Nat) (x : Hart) : State := { s with harts := fset (fun _ => Hart.init) s.harts n x }
def State.modHart (s : State) (n : Nat) (f : Hart → Hart) : State := s.setHart n (f (s.hart n))

/-- The hart runs. -/
def hartRuns (s : State) (n : Nat) : Bool := bit s.hartsOn n

/-- A control and status register of a hart as it is stored. -/
def Hart.c (h : Hart) (n : Nat) : Nat := (fget (fun _ => 0) h.csr n).toNat
def Hart.setC (h : Hart) (n v : Nat) : Hart := { h with csr := fset (fun _ => 0) h.csr n (BitVec.ofNat 64 v) }

/-- A trap of a hart with a cause and a trap value, as the RISC-V privileged architecture has it (PRESUMED, log entry 152): to supervisor mode where medeleg delegates it from below machine mode, else to machine mode. -/
def Hart.trap (h : Hart) (cause tval : Nat) : Hart :=
  if h.priv ≠ 3 ∧ bit (h.c 0x302) cause = true then
    let m := h.c 0x300
    let m1 := putBits (putBits (putBits m 8 1 (h.priv % 2)) 5 1 (bits m 1 1)) 1 1 0
    { ((((h.setC 0x141 h.pc).setC 0x142 cause).setC 0x143 tval).setC 0x300 m1) with priv := 1, pc := h.c 0x105 / 4 * 4 }
  else
    let m := h.c 0x300
    let m1 := putBits (putBits (putBits m 11 2 h.priv) 7 1 (bits m 3 1)) 3 1 0
    { ((((h.setC 0x341 h.pc).setC 0x342 cause).setC 0x343 tval).setC 0x300 m1) with priv := 3, pc := h.c 0x305 / 4 * 4 }

/-- An access-fault exception in a hart (02_register_pages.md R36, R37, 03_memory_model.md R101, 09 R299, 11 R345): of a load, or of a store or AMO, at an address. -/
def hartFault (s : State) (n a : Nat) (store : Bool) : State :=
  s.modHart n (fun h => { h with wait := none }.trap (if store then 7 else 5) a)

/-! Tiles. -/

/-- A tile. -/
def State.tile (s : State) (t : Nat) : Tile := fget (fun _ => Tile.init) s.tiles t

/-- Replace a tile. -/
def State.setTile (s : State) (t : Nat) (x : Tile) : State := { s with tiles := fset (fun _ => Tile.init) s.tiles t x }

/-- Change a tile. -/
def State.modTile (s : State) (t : Nat) (f : Tile → Tile) : State := s.setTile t (f (s.tile t))

/-- The compute die of a tile (14_power_thermal.md R464: 40 tiles each). -/
def dieOf (t : Nat) : Nat := t / 40

end Sys2Proof.Machine
end

