-- ==== Sys2Proof/Machine/Flags.lean ====
section
/-! DEFINITION. Every flag computation: setting a FLAGS bit with its counters and error record (02_register_pages.md R52, 16_bringup_errors_test.md R516-R518), and the flags and progress of long operations (02 R56). -/

namespace Sys2Proof.Machine

open Sys2Proof

/-! Flags and error events. -/

/-- The class of the record that a flag of a block posts (16_bringup_errors_test.md R518). -/
def recClass (b : Blk) (n : Nat) : Nat :=
  let two : List Nat := match b with
    | .tile => [8, 9, 10, 11, 12, 14, 17]
    | .queue => [8, 9, 13, 15]
    | .xlat => [9]
    | .hbmc => [9, 15, 17, 19]
    | .cache => [9, 10, 11]
    | .link => [10]
    | .conn => [9, 10]
    | .net => [9]
    | .hostc => [10, 11]
    | .oe => [8]
    | .die => [10, 12]
    | .power => [10]
    | .palur => [12, 20]
    | _ => []
  let one : List Nat := match b with
    | .hbmc => [8, 10, 11]
    | .cache => [8]
    | .link => [9, 14, 15]
    | .hostc => [9]
    | .net => [8]
    | .die => [11]
    | .power => [11]
    | _ => []
  if (b = .errlog && n = 10) || (b = .power && n = 14) then 3
  else if n = 5 || two.contains n then 2
  else if one.contains n then 1
  else 0

/-- Set FLAGS bit `n` and advance its counters (R52), with no error record. -/
def setFlag (s : State) (p : Page) (n : Nat) : State :=
  ((s.wr p 0x18 (s.rd p 0x18 ||| 2 ^ n)).inc p (0x780 + 4 * n) 1).inc p 0x1C 1

/-- The PTP time an error record carries: zero while TIME.STATE is FREE (16 R517). -/
def recPtp (s : State) : Nat := if s.rdF pTime 0x210 0 2 = 0 then 0 else s.ptp

/-- A set event of FLAGS bit `n`: the flag, its counters, and one error record posted (R52, 16 R516). RECORD_LOST and RECORD_SUPPRESSED post none. -/
def raise (s : State) (p : Page) (n : Nat) (code : Nat := 0) (queue : Nat := 0xFFFF) (addr : Nat := 0)
    (detail : List Nat := []) : State :=
  let s1 := setFlag s p n
  if p.blk = .errlog && (n = 8 || n = 9) then s1
  else
    let r : Rec := ⟨recClass p.blk n, p, n, code, queue, s1.rd p (0x780 + 4 * n), s.ref, recPtp s, addr, detail.take 4,
      s.rd p 0x2C, s.rd p 0x28⟩
    { s1 with log := { s1.log with posted := s1.log.posted ++ [r] } }

/-- ILLEGAL_WRITE of a page (R58). -/
def illegalWrite (s : State) (p : Page) : State := raise s p 2

/-! Long operations (R56). -/

/-- A long operation starts: PROGRESS zero, op_busy set, OP_UNIT taken where CAPS.prog_unit is 6. -/
def opStart (s : State) (p : Page) (unit shift : Nat) : State :=
  let s1 := (s.wr p 0x20 0).wrF p 0x14 3 1 1
  if (caps p.blk).unit = 6 then s1.wr p 0x24 (shift + unit * 256) else s1

/-- PROGRESS at `done` of `total`, one position unit being `u` (R56). -/
def progressWord (done total u : Nat) : Nat :=
  done / u % 2 ^ 24 + (if total = 0 then 100 else 100 * done / total) * 2 ^ 24

/-- PROGRESS of an operation that runs: percent reads 100 only once it has completed (R56). -/
def runWord (done total u : Nat) : Nat :=
  let pc := if total = 0 then 0 else 100 * done / total
  done / u % 2 ^ 24 + (if pc < 99 then pc else 99) * 2 ^ 24

/-- PROGRESS moves. -/
def opProgress (s : State) (p : Page) (done total u : Nat) : State := s.wr p 0x20 (runWord done total u)

/-- A long operation completes: final PROGRESS, op_busy clear, then OP_DONE. -/
def opDone (s : State) (p : Page) (done u : Nat) : State :=
  raise ((s.wr p 0x20 (progressWord done done u)).wrF p 0x14 3 1 0) p 6

/-- A long operation ends without completing: PROGRESS kept, op_busy clear, OP_FAILED. -/
def opFail (s : State) (p : Page) : State := raise (s.wrF p 0x14 3 1 0) p 7

end Sys2Proof.Machine
end

