-- ==== Sys2Proof/Machine/Num.lean ====
section
/-! DEFINITION. Number formats, conversion and rounding (04_number_formats.md R109-R122), exact values as signed dyadic numbers, and the reference values of the functions whose results the spec bounds in ulps. -/

namespace Sys2Proof.Machine

/-- An exact value: a NaN, an infinity, or plus or minus `m * 2 ^ e`. `more` says that the true magnitude lies above the given one by less than one unit of `2 ^ e` (only quotients, roots and the transcendental references set it, and they are rounded at once). -/
inductive FV where
  | nan
  | inf (neg : Bool)
  | fin (neg : Bool) (m : Nat) (e : Int) (more : Bool)
deriving DecidableEq, Repr

/-- A floating-point format of R109: exponent and mantissa widths, bias, largest finite encoding, infinity and canonical NaN where it has them. -/
structure Flt where
  eb : Nat
  mb : Nat
  bias : Nat
  maxB : Nat
  inf : Option Nat
  nan : Option Nat
deriving DecidableEq, Repr

/-- The floating-point formats of R109 and the canonical NaNs of R113, by format code. -/
def flt (code : Nat) : Option Flt :=
  match code with
  | 0 => some ⟨11, 52, 1023, 0x7FEFFFFFFFFFFFFF, some 0x7FF0000000000000, some 0x7FF8000000000000⟩
  | 1 => some ⟨8, 23, 127, 0x7F7FFFFF, some 0x7F800000, some 0x7FC00000⟩
  | 2 => some ⟨8, 7, 127, 0x7F7F, some 0x7F80, some 0x7FC0⟩
  | 3 => some ⟨5, 10, 15, 0x7BFF, some 0x7C00, some 0x7E00⟩
  | 4 => some ⟨4, 3, 7, 0x7E, none, some 0x7F⟩
  | 5 => some ⟨5, 2, 15, 0x7B, some 0x7C, some 0x7E⟩
  | 6 => some ⟨3, 2, 3, 0x1F, none, none⟩
  | 7 => some ⟨2, 3, 1, 0x1F, none, none⟩
  | 8 => some ⟨2, 1, 1, 0x7, none, none⟩
  | _ => none

/-- The width in bits of an integer format of R109, by code. -/
def intW (code : Nat) : Option Nat :=
  match code with
  | 9 => some 32
  | 10 => some 8
  | 11 => some 4
  | _ => none

/-- The width in bits of an element of a format (R109). -/
def fmtBits (code : Nat) : Nat :=
  match code with
  | 0 => 64 | 1 => 32 | 2 => 16 | 3 => 16 | 4 => 8 | 5 => 8 | 6 => 6 | 7 => 6 | 8 => 4
  | 9 => 32 | 10 => 8 | 11 => 4 | 12 => 8 | _ => 32

/-- A format code names an element format (codes 0xD-0xF are reserved, 0xC is a scale only: R109). -/
def isElemFmt (code : Nat) : Bool := code ≤ 11

/-- A format is one of the floating-point formats. -/
def isFlt (code : Nat) : Bool := code ≤ 8

/-- Shift a number by a signed amount, dropping low bits. -/
def shiftI (m : Nat) (k : Int) : Nat := if 0 ≤ k then m * 2 ^ k.toNat else m / 2 ^ (-k).toNat

/-- The value that bits `x` of a floating-point format hold (R109, R112: subnormals at full value). -/
def decodeFlt (f : Flt) (x : Nat) : FV :=
  let s := x / 2 ^ (f.eb + f.mb) % 2 = 1
  let mag := x % 2 ^ (f.eb + f.mb)
  if f.inf = some mag then .inf s
  else if f.nan.isSome && decide (f.maxB < mag) then .nan
  else
    let ex := mag / 2 ^ f.mb
    let fr := mag % 2 ^ f.mb
    if ex = 0 then .fin s fr (1 - (f.bias : Int) - f.mb) false
    else .fin s (fr + 2 ^ f.mb) ((ex : Int) - f.bias - f.mb) false

/-- The value of an integer. -/
def ofInt (i : Int) : FV := .fin (decide (i < 0)) i.natAbs 0 false

/-- The value that bits `x` of format `code` hold (R109). -/
def decodeFV (code x : Nat) : FV :=
  match flt code with
  | some f => decodeFlt f x
  | none =>
    match intW code with
    | some w => ofInt (sint w x)
    | none => if code = 12 then (if x % 256 = 255 then .nan else .fin false 1 (((x % 256 : Nat) : Int) - 127) false) else .nan

/-- How a result is rounded: the CVT byte of R116, with the seed and element index of R118. -/
structure Rnd where
  rnd : Nat
  ovfInf : Bool
  seed : Nat
  idx : Nat
deriving DecidableEq, Repr

/-- RNE with ovf_inf = 0, where a unit has no CVT field (R116). -/
def rne : Rnd := ⟨0, false, 0, 0⟩

/-- The rounding that a CVT byte names. -/
def rndOf (cvt seed idx : Nat) : Rnd := ⟨cvt % 8, bit cvt 3, seed, idx⟩

/-- CVT_INVALID (R117): a reserved bit, a reserved rnd value, or ovf_inf for a target other than FP64, FP32, BF16 or FP16. -/
def cvtBad (cvt target : Nat) : Bool :=
  decide (16 ≤ cvt % 256) || decide (5 ≤ cvt % 8) || (bit cvt 3 && decide (4 ≤ target))

/-- The 16-bit stochastic rounding number of R118. -/
def srNumber (seed idx : Nat) : Nat :=
  let p := 2 ^ 64
  let z := (seed + (idx + 1) * 0x9E3779B97F4A7C15) % p
  let z := (z ^^^ (z / 2 ^ 30)) * 0xBF58476D1CE4E5B9 % p
  let z := (z ^^^ (z / 2 ^ 27)) * 0x94D049BB133111EB % p
  (z ^^^ (z / 2 ^ 31)) % 2 ^ 16

/-- Numeric events of R138: saturations, canonical NaNs from non-NaN operands, NaNs lost. -/
structure NEv where
  sat : Nat
  nan : Nat
  lost : Nat
deriving DecidableEq, Repr

def NEv.zero : NEv := ⟨0, 0, 0⟩
def NEv.add (a b : NEv) : NEv := ⟨a.sat + b.sat, a.nan + b.nan, a.lost + b.lost⟩

/-- The multiple of `2 ^ q` that magnitude `m * 2 ^ e` (with `more` above it) rounds to (R116, R118). -/
def roundMag (r : Rnd) (neg : Bool) (m : Nat) (e : Int) (more : Bool) (q : Int) : Nat :=
  let m' := if more then m * 2 ^ 64 else m
  let e' := if more then e - 64 else e
  if q ≤ e' then m' * 2 ^ (e' - q).toNat
  else
    let sh := (q - e').toNat
    let lo := m' / 2 ^ sh
    let rem := m' % 2 ^ sh
    let up : Bool :=
      match r.rnd with
      | 0 => decide (2 ^ sh < 2 * rem) || (decide (2 * rem = 2 ^ sh) && (more || decide (lo % 2 = 1)))
      | 1 => false
      | 2 => neg && (decide (rem ≠ 0) || more)
      | 3 => !neg && (decide (rem ≠ 0) || more)
      | _ => (decide (rem ≠ 0) || more) && decide (srNumber r.seed r.idx < rem * 2 ^ 16 / 2 ^ sh)
    if up then lo + 1 else lo

/-- The sign bit of a format. -/
def signBit (f : Flt) (neg : Bool) : Nat := if neg then 2 ^ (f.eb + f.mb) else 0

/-- A finite value rounded to a floating-point format, and whether it counts as a saturation (R121). -/
def roundFlt (f : Flt) (r : Rnd) (neg : Bool) (m : Nat) (e : Int) (more : Bool) : Nat × Bool :=
  if m = 0 && !more then (signBit f neg, false)
  else
    let emin : Int := 1 - (f.bias : Int) - f.mb
    let m1 := if m = 0 then 1 else m
    let e1 := if m = 0 then e - 64 else e
    let len : Int := (Nat.log2 m1 : Nat) + 1
    let q := max emin (e1 + len - (f.mb + 1))
    let k := roundMag r neg m1 e1 more q
    let mag := (q - emin).toNat * 2 ^ f.mb + k
    if mag ≤ f.maxB then (signBit f neg + mag, false)
    else
      match (if r.ovfInf then f.inf else none) with
      | none => (signBit f neg + f.maxB, true)
      | some i =>
        let toInf : Bool := match r.rnd with | 1 => false | 2 => neg | 3 => !neg | _ => true
        if toInf then (signBit f neg + i, false) else (signBit f neg + f.maxB, true)

/-- A finite value rounded to an integer of `w` bits and clamped, and whether it was clamped (R119, R121). -/
def roundInt (w : Nat) (r : Rnd) (neg : Bool) (m : Nat) (e : Int) (more : Bool) : Nat × Bool :=
  let k := roundMag r neg m e more 0
  let lim := 2 ^ (w - 1)
  if neg then (if k ≤ lim then (uimg w (-(k : Int)), false) else (lim, true))
  else if k < lim then (k, false) else (lim - 1, true)

/-- A value converted to format `code` with one rounding (R119-R121), with the events it counts. -/
def encodeFV (code : Nat) (r : Rnd) (v : FV) : Nat × NEv :=
  match flt code with
  | some f =>
    match v with
    | .nan => match f.nan with
      | some n => (n, .zero)
      | none => (0, ⟨0, 0, 1⟩)
    | .inf s => match f.inf with
      | some i => (signBit f s + i, .zero)
      | none => (signBit f s + f.maxB, ⟨1, 0, 0⟩)
    | .fin s m e more => let x := roundFlt f r s m e more; (x.1, ⟨b2n x.2, 0, 0⟩)
  | none =>
    match intW code with
    | some w =>
      match v with
      | .nan => (0, ⟨0, 0, 1⟩)
      | .inf s => (if s then 2 ^ (w - 1) else 2 ^ (w - 1) - 1, ⟨1, 0, 0⟩)
      | .fin s m e more => let x := roundInt w r s m e more; (x.1, ⟨b2n x.2, 0, 0⟩)
    | none => (0, .zero)

/-- A conversion between formats; a conversion to the same format passes every bit (R113, R119). -/
def convert (src dst : Nat) (r : Rnd) (x : Nat) : Nat × NEv :=
  if src = dst then (x % 2 ^ fmtBits dst, .zero) else encodeFV dst r (decodeFV src x)

/-- The integer `m * 2 ^ e` scaled to exponent `q ≤ e`, signed. -/
def scaled (neg : Bool) (m : Nat) (e q : Int) : Int :=
  let k : Int := (m * 2 ^ (e - q).toNat : Nat)
  if neg then -k else k

/-- The exact sum (R114, R115); `rdn` says that the governing rounding is toward minus infinity. -/
def fadd (rdn : Bool) (a b : FV) : FV :=
  match a, b with
  | .nan, _ => .nan
  | _, .nan => .nan
  | .inf s, .inf t => if s = t then .inf s else .nan
  | .inf s, _ => .inf s
  | _, .inf t => .inf t
  | .fin s m e _, .fin t n f _ =>
    let q := min e f
    let i := scaled s m e q + scaled t n f q
    if i = 0 then .fin (if s = t then s else rdn) 0 0 false
    else .fin (decide (i < 0)) i.natAbs q false

/-- The negation. -/
def fneg : FV → FV
  | .nan => .nan
  | .inf s => .inf (!s)
  | .fin s m e k => .fin (!s) m e k

/-- The absolute value. -/
def fabs : FV → FV
  | .nan => .nan
  | .inf _ => .inf false
  | .fin _ m e k => .fin false m e k

/-- The exact product. -/
def fmul (a b : FV) : FV :=
  match a, b with
  | .nan, _ => .nan
  | _, .nan => .nan
  | .inf s, .inf t => .inf (s != t)
  | .inf s, .fin t n _ _ => if n = 0 then .nan else .inf (s != t)
  | .fin s m _ _, .inf t => if m = 0 then .nan else .inf (s != t)
  | .fin s m e _, .fin t n f _ => .fin (s != t) (m * n) (e + f) false

/-- The value is a NaN. -/
def FV.isNan : FV → Bool
  | .nan => true
  | _ => false

/-- The value is zero. -/
def FV.isZero : FV → Bool
  | .fin _ m _ k => decide (m = 0) && !k
  | _ => false

/-- The order of two values that are not NaN; -0 equals +0. -/
def fcmp (a b : FV) : Ordering :=
  match a, b with
  | .inf s, .inf t => if s = t then .eq else if s then .lt else .gt
  | .inf s, _ => if s then .lt else .gt
  | _, .inf t => if t then .gt else .lt
  | .fin s m e _, .fin t n f _ => let q := min e f; compare (scaled s m e q) (scaled t n f q)
  | _, _ => .eq

/-- The sign of a value. -/
def FV.neg : FV → Bool
  | .nan => false
  | .inf s => s
  | .fin s _ _ _ => s

/-- FP minimum: the non-NaN operand where one is NaN, -0 below +0 (R211). -/
def fminV (a b : FV) : FV :=
  if a.isNan then b else if b.isNan then a
  else match fcmp a b with
    | .lt => a
    | .gt => b
    | .eq => if a.neg then a else b

/-- FP maximum (R211). -/
def fmaxV (a b : FV) : FV :=
  if a.isNan then b else if b.isNan then a
  else match fcmp a b with
    | .lt => b
    | .gt => a
    | .eq => if a.neg then b else a

/-- The quotient, exact but for `more` (R114, R124, R211). -/
def fdiv (a b : FV) : FV :=
  match a, b with
  | .nan, _ => .nan
  | _, .nan => .nan
  | .inf _, .inf _ => .nan
  | .inf s, .fin t _ _ _ => .inf (s != t)
  | .fin s _ _ _, .inf t => .fin (s != t) 0 0 false
  | .fin s m e _, .fin t n f _ =>
    if n = 0 then (if m = 0 then .nan else .inf (s != t))
    else if m = 0 then .fin (s != t) 0 0 false
    else
      let k := 160 + Nat.log2 n
      let x := m * 2 ^ k
      .fin (s != t) (x / n) (e - f - (k : Int)) (decide (x % n ≠ 0))

/-- The integer square root, bit by bit from bit `k`. -/
def isqrtFrom : Nat → Nat → Nat → Nat
  | 0, n, r => if (r + 1) * (r + 1) ≤ n then r + 1 else r
  | k + 1, n, r =>
    let c := r + 2 ^ (k + 1)
    isqrtFrom k n (if c * c ≤ n then c else r)

/-- The integer square root. -/
def isqrt (n : Nat) : Nat := isqrtFrom (Nat.log2 n / 2 + 1) n 0

/-- The square root (R211): -0 and +0 keep their sign, negative values give NaN. -/
def fsqrt (a : FV) : FV :=
  match a with
  | .nan => .nan
  | .inf s => if s then .nan else .inf false
  | .fin s m e _ =>
    if m = 0 then .fin s 0 0 false
    else if s then .nan
    else
      let k := 240 + ((e - 240) % 2).toNat
      let x := m * 2 ^ k
      let r := isqrt x
      .fin false r ((e - (k : Int)) / 2) (decide (r * r ≠ x))

/-- An exact result written in format `code` under `r`: bits and events, a NaN made from non-NaN operands counted (R114, R138). -/
def finish (code : Nat) (r : Rnd) (anyNan : Bool) (v : FV) : Nat × NEv :=
  let x := encodeFV code r v
  (x.1, if v.isNan && !anyNan then ⟨x.2.sat, x.2.nan + 1, x.2.lost⟩ else x.2)

/-! Reference values of the bounded functions: fixed-point numbers with 256 fraction bits. -/

def fxBits : Nat := 256
def fxOne : Int := (2 ^ 256 : Nat)
/-- ln 2 with 256 fraction bits. -/
def fxLn2 : Int := 80260960185991308862233904206310070533990667611589946606122867505419956976171
/-- pi with 256 fraction bits. -/
def fxPi : Int := 363771576891766324280234942777729862653393377328392429958772151117938894466185

/-- Fixed-point product. -/
def fxMul (a b : Int) : Int := a * b / fxOne
/-- Fixed-point quotient. -/
def fxDiv (a b : Int) : Int := if b = 0 then 0 else a * fxOne / b

/-- A finite value as a fixed-point number, low bits dropped. -/
def toFx (s : Bool) (m : Nat) (e : Int) : Int :=
  let k : Int := (shiftI m (e + 256) : Nat)
  if s then -k else k

/-- A fixed-point number times `2 ^ n`, as a value a little above or below the truth. -/
def ofFx (x : Int) (n : Int) : FV := .fin (decide (x < 0)) x.natAbs (n - 256) true

/-- The sum of `t * x / k` terms of the exponential series. -/
def expSeries : Nat → Nat → Int → Int → Int → Int
  | 0, _, _, _, acc => acc
  | n + 1, k, x, t, acc => let t' := fxMul t x / (k : Int); expSeries n (k + 1) x t' (acc + t')

/-- e to a fixed-point number in [0, 1). -/
def fxExp (x : Int) : Int := expSeries 60 1 x fxOne fxOne

/-- The terms of the sine (from `t = x`, `k = 1`) or cosine (from `t = 1`, `k = 0`) series. -/
def trigSeries : Nat → Nat → Int → Int → Int → Int
  | 0, _, _, _, acc => acc
  | n + 1, k, x2, t, acc =>
    let t' := -(fxMul t x2 / (((k + 1) * (k + 2) : Nat) : Int))
    trigSeries n (k + 2) x2 t' (acc + t')

/-- Sine or cosine of a fixed-point number: argument reduced by quarter turns. -/
def fxTrig (cos : Bool) (x : Int) : Int :=
  let half := fxPi / 2
  let k := (x + half / 2) / half
  let r := x - k * half
  let q := ((k + (if cos then 1 else 0)) % 4).toNat
  let sn := trigSeries 40 1 (fxMul r r) r r
  let cs := trigSeries 40 0 (fxMul r r) fxOne fxOne
  match q with | 0 => sn | 1 => cs | 2 => -sn | _ => -cs

/-- Bits of the base-2 logarithm of `y / 2 ^ 512` in [1, 2), by repeated squaring. -/
def log2Digits : Nat → Nat → Nat → Nat
  | 0, _, acc => acc
  | n + 1, y, acc =>
    let z := y * y / 2 ^ 512
    if 2 ^ 513 ≤ z then log2Digits n (z / 2) (2 * acc + 1) else log2Digits n z (2 * acc)

/-- The base-2 logarithm of `m * 2 ^ e`, m > 0, as a fixed-point number. -/
def fxLog2 (m : Nat) (e : Int) : Int :=
  let l := Nat.log2 m
  let y := shiftI m (512 - (l : Int))
  ((l : Int) + e) * fxOne + ((log2Digits 200 y 0 * 2 ^ 56 : Nat) : Int)

/-- 2 to the power `n + f` for a fixed-point number, held below and above where no format reaches. -/
def refExp2 (x : Int) : FV :=
  if x < -(40000 * fxOne) then .fin false 1 (-40000) true
  else if 40000 * fxOne < x then .fin false 1 40000 true
  else
    let n := x / fxOne
    ofFx (fxExp (fxMul (x % fxOne) fxLn2)) n

/-- e to the power of a fixed-point number. -/
def refExp (x : Int) : FV :=
  if x < -(20000 * fxOne) then .fin false 1 (-40000) true
  else if 20000 * fxOne < x then .fin false 1 40000 true
  else
    let n := x / fxLn2
    ofFx (fxExp (x - n * fxLn2)) n

/-- One over the square root of two pi, with 256 fraction bits. -/
def fxInvSqrt2Pi : Int := fxDiv fxOne ((isqrt ((2 * fxPi * fxOne).natAbs) : Nat) : Int)

/-- The continued fraction of the Mills ratio of the normal distribution at `x`, from depth `n`. -/
def mills : Nat → Int → Int → Int
  | 0, x, acc => fxDiv fxOne (x + acc)
  | n + 1, x, acc => mills n x (fxDiv (((n + 1 : Nat) : Int) * fxOne) (x + acc))

/-- Terms of the series of the normal distribution about zero. -/
def phiSeries : Nat → Nat → Int → Int → Int → Int
  | 0, _, _, _, acc => acc
  | n + 1, k, x2, t, acc =>
    let t' := fxMul t x2 / ((2 * k + 1 : Nat) : Int)
    phiSeries n (k + 1) x2 t' (acc + t')

/-- The value times a fixed-point number. -/
def scaleFx (v : FV) (x : Int) : FV :=
  match v with
  | .fin s m e _ => .fin (s != decide (x < 0)) (m * x.natAbs) (e - 256) true
  | v => v

/-- The normal distribution function at minus `x`, `x` not negative. -/
def refPhiNeg (x : Int) : FV :=
  let d := refExp (-(fxMul x x) / 2)
  if x < 4 * fxOne then
    match scaleFx d fxInvSqrt2Pi with
    | .fin _ m e _ =>
      let up := phiSeries 300 1 (fxMul x x) x x
      let p := fxMul (toFx false m e) up
      ofFx (fxOne / 2 - p) 0
    | v => v
  else scaleFx (scaleFx d fxInvSqrt2Pi) (mills 200 x 0)

/-- A reference value of a class T function (codes of 07_vector_engine.md R210) at a finite non-zero value in its domain, to far more bits than any format holds. -/
def mathRef (fn : Nat) (s : Bool) (m : Nat) (e : Int) : FV :=
  let v : FV := .fin s m e false
  let x := toFx s m e
  let tiny : Bool := decide ((Nat.log2 m : Int) + e < -100)
  match fn with
  | 0x30 => fdiv (.fin false 1 0 false) v
  | 0x31 => match fsqrt v with
    | .fin _ r f _ => fdiv (.fin false 1 0 false) (.fin false r f false)
    | w => w
  | 0x32 => fsqrt v
  | 0x34 => refExp2 x
  | 0x35 => refExp x
  | 0x36 => if fcmp v (.fin false 1 0 false) = .eq then .fin false 0 0 false else ofFx (fxLog2 m e) 0
  | 0x37 => if fcmp v (.fin false 1 0 false) = .eq then .fin false 0 0 false else ofFx (fxMul (fxLog2 m e) fxLn2) 0
  | 0x38 =>
    if tiny then .fin s m e false
    else if decide (200 * fxOne < x) then ofFx (fxOne - 1) 0
    else if decide (x < -(200 * fxOne)) then ofFx (1 - fxOne) 0
    else match refExp (2 * x) with
      | .fin _ p q _ =>
        let t := fadd false (.fin false p q false) (.fin true 1 0 false)
        let u := fadd false (.fin false p q false) (.fin false 1 0 false)
        fdiv t u
      | w => w
  | 0x39 =>
    match refExp (-x) with
    | .fin _ p q _ =>
      if decide (x < -(20000 * fxOne)) then .fin false 1 (-40000) true
      else fdiv (.fin false 1 0 false) (fadd false (.fin false p q false) (.fin false 1 0 false))
    | w => w
  | 0x3A =>
    if s then (if x < -(200 * fxOne) then .fin true 1 (-40000) true else match refPhiNeg (-x) with | .fin _ p q _ => fmul v (.fin false p q false) | w => w)
    else if tiny then .fin false m (e - 1) true
    else if 200 * fxOne < x then .fin false m e false
    else match refPhiNeg x with
      | .fin _ p q _ => fmul v (fadd false (.fin false 1 0 false) (.fin true p q false))
      | w => w
  | 0x3B => if tiny then .fin s m e false else ofFx (fxTrig false x) 0
  | _ => ofFx (fxTrig true x) 0

/-- The bound in ulps of a class T function (R150, R211). -/
def mathUlps (fn : Nat) : Nat :=
  match fn with
  | 0x30 => 1 | 0x31 => 1 | 0x32 => 1 | 0x33 => 1
  | 0x34 => 2 | 0x35 => 2 | 0x36 => 2 | 0x37 => 2
  | 0x38 => 3 | 0x39 => 3 | 0x3A => 4 | _ => 2

/-- A result within `k` ulps of a reference value, a reference of zero being the result itself: the nearest number of the format moved by the free choice, which stays within the bound (R150, R211); beyond the range R121 applies. -/
def within (code : Nat) (r : Rnd) (k pick : Nat) (v : FV) : Nat × NEv :=
  match flt code, v with
  | some f, .fin s m e more =>
    if m = 0 && !more then encodeFV code r v
    else
    let y := roundFlt f rne s m e more
    if y.2 then encodeFV code r v
    else
      let mag := y.1 % 2 ^ (f.eb + f.mb)
      let above : Bool := match decodeFlt f mag with
        | .fin _ n g _ => match fcmp (.fin false n g false) (.fin false m e false) with
          | .gt => true
          | .lt => false
          | .eq => !more
        | _ => false
      let lo := if above then k else k - 1
      let hi := if above then k - 1 else k
      let z := mag + pick % (lo + hi + 1)
      let z' := if z < lo then 0 else z - lo
      (signBit f s + (if f.maxB < z' then f.maxB else z'), .zero)
  | _, _ => encodeFV code r v

/-- The special values of the class T functions of one operand (R211), none where the bound applies. -/
def mathSpecial (fn : Nat) (v : FV) : Option FV :=
  match v with
  | .nan => some .nan
  | .inf s =>
    match fn with
    | 0x30 => some (.fin s 0 0 false)
    | 0x31 => some (if s then .nan else .fin false 0 0 false)
    | 0x32 => some (if s then .nan else .inf false)
    | 0x34 => some (if s then .fin false 0 0 false else .inf false)
    | 0x35 => some (if s then .fin false 0 0 false else .inf false)
    | 0x36 => some (if s then .nan else .inf false)
    | 0x37 => some (if s then .nan else .inf false)
    | 0x38 => some (.fin s 1 0 false)
    | 0x39 => some (if s then .fin false 0 0 false else .fin false 1 0 false)
    | 0x3A => some (if s then .fin true 0 0 false else .inf false)
    | _ => some .nan
  | .fin s m e _ =>
    if m = 0 then
      match fn with
      | 0x30 => some (.inf s)
      | 0x31 => some (.inf s)
      | 0x32 => some (.fin s 0 0 false)
      | 0x36 => some (.inf true)
      | 0x37 => some (.inf true)
      | 0x34 => some (.fin false 1 0 false)
      | 0x35 => some (.fin false 1 0 false)
      | 0x39 => some (.fin false 1 (-1) false)
      | 0x3C => some (.fin false 1 0 false)
      | _ => some (.fin s 0 0 false)
    else if s && (fn = 0x31 || fn = 0x32 || fn = 0x36 || fn = 0x37) then some .nan
    else if (fn = 0x3B || fn = 0x3C) && (fcmp (.fin false 1 20 false) (.fin false m e false) = .lt) then some .nan
    else none

/-- A class T function of one operand: format code, CVT byte, operand bits (R150, R211). -/
def mathFn (fn code cvt : Nat) (r : Rnd) (a : Nat) : Nat × NEv :=
  let v := decodeFV code a
  match mathSpecial fn v with
  | some w => finish code r v.isNan w
  | none =>
    match v with
    | .fin s m e _ => within code r (mathUlps fn) (Config.mathPick fn cvt code a 0) (mathRef fn s m e)
    | w => finish code r true w

/-- The vector engine's quotient, within one ulp (R211). -/
def mathDiv (code cvt : Nat) (r : Rnd) (a b : Nat) : Nat × NEv :=
  let va := decodeFV code a
  let vb := decodeFV code b
  let q := fdiv va vb
  match q with
  | .fin _ m _ k => if m = 0 && !k then finish code r false q else within code r 1 (Config.mathPick 0x33 cvt code a b) q
  | w => finish code r (va.isNan || vb.isNan) w

end Sys2Proof.Machine
end

