-- ==== Sys2Proof/Machine/Mem.lean ====
section
/-! DEFINITION. Global memory as the shared-cache slices serve it: the interleave (11_memory_system.md R329, R330), addresses (01_architecture.md R23-R26), uncorrectable data (R344, R345), atomics and exact-sum cells (03 R90-R95, 04 R132-R134), release tags (03 R83-R85). -/

namespace Sys2Proof.Machine

open Sys2Proof

/-- The mixing function of R118 before its last line, as the interleave uses it (R329). -/
def mixZ (seed idx : Nat) : Nat :=
  let p := 2 ^ 64
  let z := (seed + (idx + 1) * 0x9E3779B97F4A7C15) % p
  let z := (z ^^^ (z / 2 ^ 30)) * 0xBF58476D1CE4E5B9 % p
  (z ^^^ (z / 2 ^ 27)) * 0x94D049BB133111EB % p

/-- The column v of a granule under an interleave key (R329). -/
def homeV (key g : Nat) : Nat := (g % 768 / 2 + mixZ key (g / 768) % 384) % 384

/-- Home stack of a granule. -/
def homeStack (key g : Nat) : Nat := homeV key g % 12

/-- Home pseudo-channel of a granule within its stack. -/
def homePc (key g : Nat) : Nat := 2 * (homeV key g / 12) + g % 2

/-- The granule whose home is frame `q` of pseudo-channel `pc` of stack `st` (R329 inverted). -/
def granuleAt (key st pc q : Nat) : Nat :=
  let v := 12 * (pc / 2) + st
  let u := (v + 384 - mixZ key q % 384) % 384
  768 * q + 2 * u + pc % 2

/-- The interleave key in use (R331). -/
def mapKey (s : State) : Nat := s.rd64 (pHbmc 0) 0x250

/-- The slice that owns a local address (R330). -/
def sliceOf (s : State) (a : Nat) : Nat := homeStack (mapKey s) (a / 256)

/-- Where a global address lies (R25, R26). -/
inductive Loc where
  | loc (a : Nat)
  | remote (node a : Nat)
  | unmapped
deriving DecidableEq, Repr

/-- The node ID in effect (R26). -/
def nodeId (s : State) : Nat := s.rd pFabric 0x200

/-- The place of `n` bytes at a global address (R23, R26). -/
def locate (s : State) (ga n : Nat) : Loc :=
  let node := bits ga 40 20
  let a := ga % 2 ^ 40
  if node = 0xFFFFF ∨ nodeId s = 0xFFFFF ∨ 2 ^ 60 ≤ ga then .unmapped
  else if node = nodeId s then (if inHbm s a n then .loc a else .unmapped)
  else .remote node a

/-- UE_INFO.requester of a requester (R361). -/
def reqCode : Requester → Nat
  | .thread _ => 0 | .dma _ => 1 | .qeng => 2 | .hart _ _ => 3 | .krovmo => 4 | .xlat => 5 | .misc => 6 | .hostDie => 6

/-- UE_INFO.tile of a requester. -/
def reqTile : Requester → Nat
  | .thread t => t | .dma t => t | _ => 0

/-! Requests and sectors (R334, R353, R361). -/

/-- The number of a requester: its tile, or 160 for the host die. -/
def reqNum : Requester → Nat
  | .thread t => t
  | .dma t => t
  | _ => 160

/-- The 64-byte blocks, and the granules, that a range touches. -/
def blocksOf (a n : Nat) : List Nat := (List.range ((a + n - 1) / 64 + 1 - a / 64)).map (a / 64 + ·)
def granulesOf (a n : Nat) : List Nat := (List.range ((a + n - 1) / 256 + 1 - a / 256)).map (a / 256 + ·)

/-- One more at a key of a table of counts. -/
def bump (m : FMap Nat) (k : Nat) : FMap Nat := fset (fun _ => 0) m k (fget (fun _ => 0) m k + 1)

/-- The lines that a slice holds in the set of a granule: 128 MiB of 256-byte lines in 16 ways make 32 768 sets (DESIGN CHOICE, log entry 153: the granule's number picks the set). -/
def setLines (m : MemSys) (key c g : Nat) : List Nat :=
  (m.sectors.filterMap (fun x => if x.1 / 4 % 32768 = g % 32768 ∧ homeStack key (x.1 / 4) = c then some (x.1 / 4) else none)).dedup

/-- The sectors of a line leave their slice; dirty ones are written back to their frames. -/
def dropLine (m : MemSys) (c g : Nat) : MemSys :=
  { m with
    sectors := m.sectors.filter (fun x => decide (x.1 / 4 ≠ g))
    wbacks := (m.sectors.filter (fun x => decide (x.1 / 4 = g ∧ x.2 = 2))).foldl (fun w _ => bump w c) m.wbacks }

/-- Room for the line of a granule: a line of a full set is replaced; which one is a free value. -/
def makeRoom (m : MemSys) (key c g : Nat) : MemSys :=
  let l := setLines m key c g
  if l.contains g || decide (l.length < 16) then m
  else dropLine m c ((l[Config.victimWay l % 16]?).getD 0)

/-- A slice finds a block present or fetches it: the block is present from then on, and dirty after a write. -/
def touchBlock (key : Nat) (wr : Bool) (m : MemSys) (b : Nat) : MemSys :=
  let c := homeStack key (b / 4)
  let v := fget (fun _ => 0) m.sectors b
  let m1 := if v = 0 then { makeRoom m key c (b / 4) with misses := bump m.misses c } else { m with hits := bump m.hits c }
  { m1 with sectors := fset (fun _ => 0) m1.sectors b (if wr || decide (v = 2) then 2 else 1) }

/-- A block stands in its slice with a state (1 present, 2 dirty), its line having taken a place. -/
def placeBlock (key v : Nat) (m : MemSys) (b : Nat) : MemSys :=
  let m1 := makeRoom m key (homeStack key (b / 4)) (b / 4)
  { m1 with sectors := fset (fun _ => 0) m1.sectors b v }

/-- The slices of a range count a request of each granule (R353). -/
def countReqs (key : Nat) (r : Requester) (a n : Nat) (m : MemSys) : MemSys :=
  { m with reqs := (granulesOf a n).foldl (fun q g => bump q (homeStack key g * 256 + reqNum r)) m.reqs }

/-- An access of a requester to local bytes passes through the slices: requests, hits and misses, sectors. Nothing else of the machine changes. -/
def sliceTouch (s : State) (r : Requester) (a n : Nat) (wr : Bool) : State :=
  s.modMem (fun m => (blocksOf a n).foldl (touchBlock (mapKey s) wr) (countReqs (mapKey s) r a n m))

/-- An uncorrectable event at a local address (R344, R361): UE_READ, UE_COUNT, a record with the address, and the latch while it is free. -/
def ueEvent (s : State) (r : Requester) (a : Nat) : State :=
  let p := pCache (sliceOf s a)
  let b := a / 64 * 64
  let s1 := s.inc p 0x214 1
  let s2 := if s1.rdB p 0x228 31 then s1
    else (s1.wr64 p 0x220 b).wr p 0x228 (reqCode r + 16 * reqTile r + 2 ^ 31)
  raise s2 p 9 0x10 0xFFFF b [b % 2 ^ 32, b / 2 ^ 32, reqCode r + 16 * reqTile r, 0]

/-- Each of some raw blocks is an uncorrectable event of its own (R344). -/
def ueEvents (s : State) (r : Requester) (l : List Nat) : State := l.foldl (fun s b => ueEvent s r (64 * b)) s

/-- The first byte of a local range that lies in a stack marked failed (R22). -/
def failedAt (s : State) (a n : Nat) : Option Nat :=
  if s.mem.failed = [] then none
  else ((List.range ((a + n - 1) / 256 + 1 - a / 256)).find? (fun i => s.mem.failed.contains (homeStack (mapKey s) (a / 256 + i)))).map
    (fun i => if i = 0 then a else 256 * (a / 256 + i))

/-- What stops an access to local bytes: outside HBM, a failed stack, or uncorrectable data; code and address (R23, R22, R345). -/
def memFault (s : State) (a n : Nat) : Option (Nat × Nat) :=
  if !inHbm s a n then some (0x07, a)
  else match failedAt s a n with
  | some x => some (0x11, x)
  | none => match rawIn s a n with
    | some b => some (0x10, 64 * b)
    | none => none

/-- The stacks that the granules of a local range lie in (R329). -/
def stacksOf (s : State) (a n : Nat) : List Nat :=
  (List.range ((a + n - 1) / 256 + 1 - a / 256)).map (fun i => homeStack (mapKey s) (a / 256 + i))

/-- The slice or the controller of a stack is inert (02_register_pages.md R41). -/
def stackOff (s : State) (st : Nat) : Bool := !s.enabled (pCache st) || !s.enabled (pHbmc st)

/-- A crossing link, by its number, its register and its bit, carries traffic: it is up and does not retrain (01_architecture.md R20, 09_command_queues.md R298). -/
def xcCarries (s : State) (num : Nat) (p : Page) (off b : Nat) : Bool := s.rdB p off b && !s.xc.any (fun x => decide (x.1 = num))

/-- Some link of a crossing carries traffic: XC1 of a compute die, XC3 of a base die, XC4 of the host die. -/
def xc1Open (s : State) (d : Nat) : Bool := (List.range 16).any (fun c => xcCarries s (16 * d + c) pNet (0x200 + 4 * (d / 2)) (16 * (d % 2) + c))
def xc3Open (s : State) (b : Nat) : Bool := (List.range 4).any (fun c => xcCarries s (64 + 4 * b + c) pNet (0x208 + 4 * (b / 8)) (4 * (b % 8) + c))
def xc4Open (s : State) : Bool := (List.range 16).any (fun c => xcCarries s (112 + c) pHostc 0x218 c)

/-- A requester's own crossing onto the network carries traffic; the patrol and the rounds of a base die need none of their own. -/
def reqOpen (s : State) : Requester → Bool
  | .thread t => xc1Open s (dieOf t)
  | .dma t => xc1Open s (dieOf t)
  | .misc => true
  | _ => xc4Open s

/-- The controller of a stack takes no request: its PHY has lost its lock (R22) or retrains (R356), or it is at throttle level 4 (R352). -/
def phyHeld (s : State) (st : Nat) : Bool :=
  s.mem.phyLost.any (fun x => decide (x.1 = st)) || s.mem.retrain.contains st || decide (s.rdF (pHbmc st) 0x204 0 3 = 4)

/-- Requests of the range are held at the base dies: the crossings, a slice or a controller of it are inert, no XC3 link of a base die carries traffic (01_architecture.md R20, R21), a controller takes no request, a stall window of its slice, its controller or the network is open (16 R524), or the stacks are in self-refresh (14 R453, 16 R510). -/
def baseHeld (s : State) (a n : Nat) : Bool :=
  s.mem.selfRefresh || s.netHalted || !s.enabled pNet ||
  (stacksOf s a n).any (fun st => stackOff s st || phyHeld s st || !xc3Open s st) ||
  s.stalls.any (fun p => p.blk = .net || ((p.blk = .cache || p.blk = .hbmc) && (stacksOf s a n).contains p.inst))

/-- Requests of a requester to the range are held: at the base dies, or before the requester's own crossing. -/
def memHeld (s : State) (r : Requester) (a n : Nat) : Bool := baseHeld s a n || !reqOpen s r

/-- The state after an access has met its fault: an uncorrectable one is an event of the owning slice. -/
def afterFault (s : State) (r : Requester) (f : Nat × Nat) : State := if f.1 = 0x10 then ueEvent s r f.2 else s

/-- A read of local bytes (R18, R345). -/
def memRead (s : State) (r : Requester) (a n : Nat) : State × Except (Nat × Nat) (List Byte) :=
  match memFault s a n with
  | some f => (afterFault s r f, .error f)
  | none => (sliceTouch s r a n false, .ok (s.hrd a n))

/-- The queues whose watched doorbell block lies in a written range (09_command_queues.md R287). -/
def ringBlocks (s : State) (a n : Nat) : State :=
  let hit := (s.mem.watch.filter (fun w => decide (a / 64 ≤ w.2 ∧ w.2 ≤ (a + n - 1) / 64))).map (·.1)
  { s with mem := { s.mem with dbWritten := hit.foldl (fun l q => sinsert q l) s.mem.dbWritten } }

/-- The blocks of a range that hold raw data and are covered only in part (R344). -/
def partRaw (s : State) (a n : Nat) : List Nat :=
  s.raw.filter (fun b => decide (a / 64 ≤ b ∧ b ≤ (a + n - 1) / 64 ∧ ¬ (a ≤ 64 * b ∧ 64 * b + 64 ≤ a + n)))

/-- Bytes written except into the listed blocks. -/
def writeSkip (s : State) (skip : List Nat) : Nat → List Byte → State
  | _, [] => s
  | a, b :: r =>
    writeSkip (if skip.contains (a / 64) then s else { s with hbm := fset byte0 s.hbm a b }) skip (a + 1) r

/-- A release write's bytes meet a range. -/
def RelTag.meets (t : RelTag) (a n : Nat) : Bool := decide (t.loc < a + n ∧ a < t.loc + t.len)

/-- The tags whose bytes a write replaces go: a plain write is not a release (R85). -/
def dropTags (s : State) (a n : Nat) : State :=
  { s with mem := { s.mem with tags := s.mem.tags.filter (fun t => !t.2.meets a n) } }

/-- The blocks of a range that lie in a stack marked failed (R22). -/
def lostBlocks (s : State) (a n : Nat) : List Nat :=
  if s.mem.failed = [] then [] else (blocksOf a n).filter (fun b => s.mem.failed.contains (homeStack (mapKey s) (b / 4)))

/-- What follows a write to the blocks of a range but the skipped ones: watched doorbell blocks ring (09 R287), and the tags of the bytes go (R85). -/
def wroteBlocks (s : State) (skip : List Nat) (a n : Nat) : State :=
  let hit := (s.mem.watch.filter (fun w => decide (a / 64 ≤ w.2 ∧ w.2 ≤ (a + n - 1) / 64) && !skip.contains w.2)).map (·.1)
  { s with mem := { s.mem with
      dbWritten := hit.foldl (fun l q => sinsert q l) s.mem.dbWritten
      tags := s.mem.tags.filter (fun t => skip.contains (t.2.loc / 64) || !t.2.meets a n) } }

/-- A write of local bytes (R335, R344): blocks not raw, and raw blocks covered whole, are written; a raw block covered in part and a block of a failed stack fail back. -/
def memWrite (s : State) (r : Requester) (a : Nat) (data : List Byte) : State × Option (Nat × Nat) :=
  let n := data.length
  if n = 0 then (s, none)
  else if !inHbm s a n then (s, some (0x07, a))
  else
    let lost := lostBlocks s a n
    let part := (partRaw s a n).filter (fun b => !lost.contains b)
    let s1 := writeSkip (sliceTouch s r a n true) (lost ++ part) a data
    let s2 := { s1 with raw := s1.raw.filter (fun b => lost.contains b || decide (¬ (a ≤ 64 * b ∧ 64 * b + 64 ≤ a + n))) }
    let s3 := wroteBlocks s2 (lost ++ part) a n
    match part with
    | [] => (s3, (failedAt s a n).map (fun x => (0x11, x)))
    | b :: _ => (ueEvents s3 r part, some ((failedAt s a n).elim (0x10, 64 * b) (fun x => (0x11, x))))

/-! Release tags (R83-R85). -/

/-- The tags of the `n` most recently released blocks, newest first; `seen` are the blocks counted. -/
def keepBlocks : Nat → List Nat → List (Nat × RelTag) → List (Nat × RelTag)
  | _, _, [] => []
  | n, seen, y :: r =>
    if seen.contains (y.2.loc / 64) then y :: keepBlocks n seen r
    else if seen.length < n then y :: keepBlocks n (y.2.loc / 64 :: seen) r
    else keepBlocks n seen r

/-- A release write of `n` bytes is remembered by its slice while the detector is on, for 4 096 blocks (R85); it replaces the tags of its bytes. -/
def tagRelease (s : State) (a n scope : Nat) (t : RelTag) : State :=
  let c := sliceOf s a
  let s1 := dropTags s a n
  if s.rdB (pCache c) 0x6F0 0 then
    let x : RelTag := { t with loc := a, len := n, scope := scope }
    let mine := s1.mem.tags.filter (fun y => decide (y.1 = c))
    let rest := s1.mem.tags.filter (fun y => decide (y.1 ≠ c))
    { s1 with mem := { s1.mem with tags := keepBlocks 4096 [] ((c, x) :: mine) ++ rest } }
  else s1

/-- Two tags of one agent that has a tag of its own. -/
def sameAgent (a b : RelTag) : Bool := a.thread.isSome && decide (a.thread = b.thread ∧ a.tile = b.tile ∧ a.remote = b.remote)

/-- The scope named by an agent contains another agent (R73, R74): the agent itself, same thread group, tile, die, module. -/
def scopeHolds (scope : Nat) (a b : RelTag) : Bool :=
  sameAgent a b ||
  match scope with
  | 0 => false
  | 1 => a.tile.isSome && decide (a.tile = b.tile) && !a.remote && !b.remote
  | 2 => a.tile.isSome && decide (a.tile.map dieOf = b.tile.map dieOf) && !a.remote && !b.remote
  | 3 => !a.remote && !b.remote
  | _ => true

/-- A mismatched pair is counted and kept as the last (R84, R85). -/
def countMismatch (s : State) (p : Page) (loc relScope acqScope : Nat) (remote : Bool) : State :=
  (s.inc p 0x6F4 1).wr64 p 0x6F8
    (loc + relScope * 2 ^ 40 + acqScope * 2 ^ 43 + b2n remote * 2 ^ 62 + 2 ^ 63)

/-- An acquire read of `n` local bytes by an agent (R85): a release write that it returns bytes of makes a pair, counted when either scope fails to hold both. -/
def acquireCheck (s : State) (a n scope : Nat) (me : RelTag) : State :=
  let c := sliceOf s a
  if s.rdB (pCache c) 0x6F0 0 then
    match s.mem.tags.find? (fun y => decide (y.1 = c) && y.2.meets a n) with
    | some (_, w) =>
      if scopeHolds w.scope w me && scopeHolds scope me w then s
      else countMismatch s (pCache c) (a / 64 * 64) w.scope scope w.remote
    | none => s
  else s

/-- The agent tag of a thread group, an engine of a tile, the queue engine, another agent of the module, or an agent of another module. -/
def threadTag (t g : Nat) : RelTag := ⟨0, 0, 0, some t, false, some g⟩
def engineTag (t : Nat) : RelTag := ⟨0, 0, 0, some t, false, none⟩
def qengTag : RelTag := ⟨0, 0, 0, none, false, some 0⟩
def nodeTag : RelTag := ⟨0, 0, 0, none, false, none⟩
def remoteTag : RelTag := ⟨0, 0, 0, none, true, none⟩

/-- An ORD byte (R75, R76): a reserved bit, a reserved scope with sem 1-3, a semantics outside `sems`, or a scope outside `scopes` with sem 1-3. -/
def ordBad (o : Nat) (sems scopes : List Nat) : Bool :=
  decide (32 ≤ o % 256) || !sems.contains (o % 4) || (decide (o % 4 ≠ 0) && !scopes.contains (o / 4 % 8))

def ordRel (o : Nat) : Bool := bit o 1
def ordAcq (o : Nat) : Bool := bit o 0
def ordScope (o : Nat) : Nat := o / 4 % 8

/-! Atomics (R90-R95). -/

/-- The width in bits of an atomic: integer widths 32, 64, 128; floating point by format. -/
def atomBits (aop width fmt : Nat) : Nat :=
  if aop ≤ 9 then (if width = 0 then 32 else if width = 1 then 64 else 128)
  else if fmt = 0 then 64 else 32

/-- The operation is a cell operation. -/
def isCell (aop : Nat) : Bool := decide (0xD ≤ aop)

/-- Bytes that an atomic reads and writes, and its alignment (R92, R132). -/
def atomSize (aop width fmt : Nat) : Nat :=
  if isCell aop then (if fmt = 0 then 384 else 64) else atomBits aop width fmt / 8
def atomAlign (aop width fmt : Nat) : Nat :=
  if isCell aop then (if fmt = 0 then 512 else 64) else atomBits aop width fmt / 8

/-- What an atomic leaves in memory (R91, R123), other than a cell operation: new value and numeric events. -/
def atomNew (aop width fmt old v cmp : Nat) : Nat × NEv :=
  let n := atomBits aop width fmt
  match aop with
  | 0 => ((old + v) % 2 ^ n, .zero)
  | 1 => (old &&& v, .zero)
  | 2 => (old ||| v, .zero)
  | 3 => (old ^^^ v, .zero)
  | 4 => (if sint n v < sint n old then v else old, .zero)
  | 5 => (if sint n old < sint n v then v else old, .zero)
  | 6 => (if v < old then v else old, .zero)
  | 7 => (if old < v then v else old, .zero)
  | 8 => (v, .zero)
  | 9 => (if old = cmp then v else old, .zero)
  | 0xA =>
    let a := decodeFV fmt old
    let b := decodeFV fmt v
    finish fmt rne (a.isNan || b.isNan) (fadd false a b)
  | 0xB =>
    let a := decodeFV fmt old
    let b := decodeFV fmt v
    finish fmt rne (a.isNan || b.isNan) (fminV a b)
  | _ =>
    let a := decodeFV fmt old
    let b := decodeFV fmt v
    finish fmt rne (a.isNan || b.isNan) (fmaxV a b)

/-- An atomic that returned `old` has written: a compare that fails and a cell read that does not clear are reads alone (R94, 05_thread_groups.md R149). -/
def atomWrites (aop old cmp : Nat) (clear : Bool) : Bool :=
  !(decide (aop = 9) && decide (old ≠ cmp)) && !(decide (aop = 0xE) && !clear)

/-- Bytes of an operand of an atomic: its width for the integer operations, its format for the others (R91). -/
def atomArg (aop width fmt : Nat) : Nat := if aop ≤ 9 then 4 * 2 ^ width else if fmt = 0 then 8 else 4

/-- Bits of N in a cell (R132), and the exponent of its unit. -/
def cellN (fmt : Nat) : Nat := if fmt = 0 then 3064 else 504
def cellUnit (fmt : Nat) : Nat := if fmt = 0 then 1074 else 149

/-- An exact-sum add into a cell image (R133): new image, and whether ovf was set. -/
def cellAddImg (fmt img v : Nat) : Nat × Bool :=
  let w := cellN fmt
  let keep := img % 2 ^ (w + 4)
  match decodeFV fmt v with
  | .nan => (keep ||| 2 ^ w, false)
  | .inf s => (keep ||| (if s then 2 ^ (w + 2) else 2 ^ (w + 1)), false)
  | .fin s m e _ =>
    if m = 0 then (keep, false)
    else
      let i := scaled s m e (-(cellUnit fmt : Int))
      let x := sint w img + i
      let ovf := decide (x < -((2 ^ (w - 1) : Nat) : Int)) || decide (((2 ^ (w - 1) : Nat) : Int) ≤ x)
      (uimg w x + bits img w 4 * 2 ^ w ||| (if ovf then 2 ^ (w + 3) else 0), ovf)

/-- The value a cell read returns (R134): bits, saturation, and whether a NaN is counted. A read names no ovf_inf, and the model takes 0: a finite value beyond the format saturates (DESIGN CHOICE, log entry 154). -/
def cellValue (fmt img : Nat) : Nat × Bool × Bool :=
  let w := cellN fmt
  let nanB := (encodeFV fmt rne .nan).1
  if bit img w || (bit img (w + 1) && bit img (w + 2)) then (nanB, false, true)
  else if bit img (w + 1) then ((encodeFV fmt rne (.inf false)).1, false, false)
  else if bit img (w + 2) then ((encodeFV fmt rne (.inf true)).1, false, false)
  else if bit img (w + 3) then (nanB, false, true)
  else
    let n := sint w img
    if n = 0 then (0, false, false)
    else
      let x := encodeFV fmt rne (.fin (decide (n < 0)) n.natAbs (-(cellUnit fmt : Int)) false)
      (x.1, decide (x.2.sat ≠ 0), false)

/-- The header index of the rank-ordered window of slice `c` whose arrive word lies at `a` (R339). -/
def orwIndex (s : State) (c a : Nat) : Option Nat :=
  let b := s.rd (pCache c) 0x104 + 2 ^ 32 * s.rd (pCache c) 0x108
  if b ≤ a ∧ (a - b) % 64 = 0 ∧ (a - b) / 64 < s.rd (pCache c) 0x10C then some ((a - b) / 64) else none

/-- Bytes that a slice itself changes: no raw block is in them. -/
def slicePut (s : State) (a : Nat) (data : List Byte) : State := dropTags (ringBlocks (s.hwr a data) a data.length) a data.length

/-- One atomic in the owning slice at a local address (R90): its state, and the old (for a cell read, the rounded) value. -/
def memAtomic (s : State) (r : Requester) (a aop width fmt v cmp : Nat) (clear : Bool) : State × Except (Nat × Nat) Nat :=
  let sz := atomSize aop width fmt
  match memFault s a sz with
  | some f => (afterFault s r f, .error f)
  | none =>
    let p := pCache (sliceOf s a)
    let s1 := (sliceTouch s r a sz (decide (aop ≠ 0xE) || clear)).inc p 0x20C 1
    let old := s1.hnat a sz
    if aop = 0xD then
      let x := cellAddImg fmt old v
      (slicePut (s1.inc p 0x6D8 (b2n x.2)) a (toLE sz x.1), .ok 0)
    else if aop = 0xE then
      let x := cellValue fmt old
      let s2 := (s1.inc p 0x6D0 (b2n x.2.1)).inc p 0x6D4 (b2n x.2.2)
      (if clear then slicePut s2 a (toLE sz 0) else s2, .ok x.1)
    else if aop = 0xF then (slicePut s1 a (toLE sz 0), .ok 0)
    else
      let x := atomNew aop width fmt old v cmp
      let s2 := s1.inc p 0x6D0 x.2.sat
      match (if aop = 0 ∧ sz = 4 then orwIndex s (sliceOf s a) a else none) with
      | some j =>
        let n := s2.hnat (a + 8) 4
        if n ≤ x.1 then
          let s3 := slicePut s2 a (toLE 4 (x.1 - n))
          let rd : OrwRound := ⟨sliceOf s a, j, a, s3.hrd a 64⟩
          ({ s3 with mem := { s3.mem with rounds := s3.mem.rounds ++ [rd] } }, .ok old)
        else (slicePut s2 a (toLE 4 x.1), .ok old)
      | none =>
        (if aop = 9 ∧ old ≠ cmp then s2 else slicePut s2 a (toLE sz x.1), .ok old)

/-! Extents (10_translation.md R309-R311). -/

/-- log2 of a granularity code (R310). -/
def granLog (g : Nat) : Nat := match g with | 0 => 12 | 1 => 16 | 2 => 21 | _ => 30

/-- The global address of byte `o` of an extent; a run entry is read from the pool (R310, R311). -/
def extAddr (s : State) (e : Extent) (o : Nat) : Nat :=
  if e.kind = 0 then e.base + o
  else
    let g := granLog e.gran
    let i := (e.firstOff + o) / 2 ^ g
    s.hnat (e.base + 8 * i) 8 + (e.firstOff + o) % 2 ^ g

/-- The run entry that byte `o` needs is readable; otherwise its fault. -/
def extFault (s : State) (e : Extent) (o : Nat) : Option (Nat × Nat) :=
  if e.kind = 0 then none else memFault s (e.base + 8 * ((e.firstOff + o) / 2 ^ granLog e.gran)) 8

end Sys2Proof.Machine
end

