-- ==== Sys2Proof/Machine/Net.lean ====
section
/-! DEFINITION. Handing requests to connections and packets to links: the sending side of 12_krovmo_fabric.md R371-R380. -/

namespace Sys2Proof.Machine

open Sys2Proof

def State.conn (s : State) (c : Nat) : ConnSt := fget (fun _ => ConnSt.init) s.conns c
def State.setConn (s : State) (c : Nat) (x : ConnSt) : State := { s with conns := fset (fun _ => ConnSt.init) s.conns c x }
def State.modConn (s : State) (c : Nat) (f : ConnSt → ConnSt) : State := s.setConn c (f (s.conn c))
def State.link (s : State) (l : Nat) : LinkSt := fget (fun _ => LinkSt.init) s.links l
def State.setLink (s : State) (l : Nat) (x : LinkSt) : State := { s with links := fset (fun _ => LinkSt.init) s.links l x }
def State.modLink (s : State) (l : Nat) (f : LinkSt → LinkSt) : State := s.setLink l (f (s.link l))

/-- CONN.STATUS.state (R378). -/
def connState (s : State) (c : Nat) : Nat := s.rdF (pConn c) 0x14 16 3
/-- A connection enters a state: STATUS.state, the list of OPEN connections and FABRIC.CONNS_OPEN (R378, R390). -/
def setConnState (s : State) (c st : Nat) : State :=
  let l := if st = 3 then sinsert c s.openConns else sremove c s.openConns
  (({ s with openConns := l }).wrF (pConn c) 0x14 16 3 st).wr pFabric 0x208 l.length
/-- LINK.STATUS.state (R392). -/
def linkState (s : State) (l : Nat) : Nat := s.rdF (pLink l) 0x14 16 3

/-- One step of CRC-64, reflected (R376). -/
def crc64Byte (c : Nat) (b : Byte) : Nat :=
  let x := c ^^^ b.toNat
  (List.range 8).foldl (fun x _ => if x % 2 = 1 then (x / 2) ^^^ 0xC96C5795D7870F42 else x / 2) x

/-- CRC-64 of R376: reflected, initial value and final XOR all ones. -/
def crc64 (l : List Byte) : Nat := (l.foldl crc64Byte (2 ^ 64 - 1)) ^^^ (2 ^ 64 - 1)

/-- The bytes of a packet's header (R374). -/
def packetHeader (p : Packet) : List Byte :=
  toLE 1 (p.ver.toNat + 16 * p.ptype.toNat) ++ toLE 1 p.ord.toNat ++ toLE 2 (p.len.toNat + 2 ^ 13 * (p.rsvd.toNat % 8))
  ++ toLE 2 (p.dstConn.toNat + 2 ^ 14 * (p.rsvd.toNat / 8 % 4)) ++ toLE 2 (p.srcConn.toNat + 2 ^ 14 * (p.rsvd.toNat / 32))
  ++ toLE 4 p.seq.toNat ++ toLE 4 p.gen.toNat ++ toLE 4 p.epoch.toNat
  ++ toLE 4 (p.srcNode.toNat + 2 ^ 20 * p.relTile.toNat + 2 ^ 28 * p.relUnit.toNat) ++ toLE 8 p.target.toNat

/-- The check over header and body (R376). -/
def packetCheck (p : Packet) : Nat := crc64 (packetHeader p ++ p.body)

/-- The bytes a packet occupies (R374). -/
def packetBytes (p : Packet) : List Byte := packetHeader p ++ p.body ++ toLE 8 p.check.toNat

/-- A packet of this module with its check. -/
def mkPacket (s : State) (ver ptype ord len dst src seq gen epoch relTile relUnit target : Nat) (body : List Byte) : Packet :=
  let p : Packet := ⟨BitVec.ofNat 4 ver, BitVec.ofNat 4 ptype, BitVec.ofNat 8 ord, BitVec.ofNat 13 len, BitVec.ofNat 14 dst,
    BitVec.ofNat 14 src, 0, BitVec.ofNat 32 seq, BitVec.ofNat 32 gen, BitVec.ofNat 32 epoch, BitVec.ofNat 20 (nodeId s),
    BitVec.ofNat 8 relTile, BitVec.ofNat 4 relUnit, BitVec.ofNat 64 target, body, 0⟩
  { p with check := BitVec.ofNat 64 (packetCheck p) }

/-- The virtual channel of a packet type (R375). -/
def vcOf (ptype : Nat) : Nat := if ptype ≤ 4 then 0 else if ptype ≤ 6 then 1 else 2

/-! Flits (R371-R373, R377). -/

/-- The bytes of a flit before its crc (R371). -/
def flitBytes (f : Flit) : List Byte :=
  toLE 2 (f.ftype.toNat + 4 * f.vc.toNat + 16 * f.seq.toNat) ++ toLE 2 (f.ack.toNat + 4096 * b2n f.nak + 8192 * b2n f.cut)
    ++ toLE 4 (f.cr0.toNat + 2 ^ 8 * f.cr1.toNat + 2 ^ 16 * f.cr2.toNat) ++ slice f.payload 0 240

/-- The 256 bytes of a flit on the fibre (R371). -/
def flitImage (f : Flit) : List Byte := flitBytes f ++ toLE 8 f.crc.toNat

/-- The flit's crc checks. -/
def flitOk (f : Flit) : Bool := decide (f.crc.toNat = crc64 (flitBytes f))

/-- VC0 credits that an armed disturbance withholds (R373, 16_bringup_errors_test.md R524). -/
def creditHold (s : State) (l : Nat) : Nat :=
  let d := s.rd64 (pLink l) 0x30
  if bit d 63 then bits d 24 8 else 0

/-- What the next flit of a link returns of the credits owed, with what is withheld and owed then: VC0 keeps back what the disturbance withholds, and a flit returns at most 255 of a channel (R371, R373). -/
def creditTurn (k : LinkSt) (hold : Nat) : List Nat × LinkSt :=
  let owed (vc : Nat) : Nat := ((k.rx[vc]?).map (·.owed)).getD 0
  let all := owed 0 + k.kept
  let kept := if hold < all then hold else all
  let due := [all - kept, owed 1, owed 2]
  let give := due.map (fun n => if n < 255 then n else 255)
  (give, { k with
    kept := kept
    rx := (k.rx.zip (due.zip give)).map (fun x => { x.1 with owed := x.2.1 - x.2.2 }) })

/-- The flit that a link transmits now: the current ack, the nak that is due, the credits it returns, and its crc (R371, R372). -/
def mkFlit (k : LinkSt) (give : List Nat) (ftype vc seq : Nat) (cut : Bool) (payload : List Byte) : Flit :=
  let f : Flit :=
    { ftype := BitVec.ofNat 2 ftype, vc := BitVec.ofNat 2 vc, seq := BitVec.ofNat 12 seq, ack := BitVec.ofNat 12 k.accepted, nak := k.nakDue, cut := cut,
      cr0 := BitVec.ofNat 8 ((give[0]?).getD 0), cr1 := BitVec.ofNat 8 ((give[1]?).getD 0), cr2 := BitVec.ofNat 8 ((give[2]?).getD 0),
      payload := slice payload 0 240, crc := 0 }
  { f with crc := BitVec.ofNat 64 (crc64 (flitBytes f)) }

/-- A link after a transmission: the flit joins those transmitted, the nak is sent, credits are returned. -/
def LinkSt.transmit (k : LinkSt) (hold ftype vc seq : Nat) (cut : Bool) (payload : List Byte) : LinkSt :=
  let r := creditTurn k hold
  { r.2 with line := k.line ++ [mkFlit k r.1 ftype vc seq cut payload], nakDue := false }

/-- A new flit is transmitted: it takes the next seq and is kept until an ack covers it (R372). -/
def LinkSt.send (k : LinkSt) (hold now ftype vc : Nat) (cut : Bool) (payload : List Byte) : LinkSt :=
  let k1 := k.transmit hold ftype vc k.seqNext cut payload
  { k1 with
    seqNext := (k.seqNext + 1) % 4096
    retry := k.retry ++ [⟨k.seqNext, ftype, vc, cut, payload, []⟩]
    ackAt := if k.retry = [] then now else k.ackAt }

/-- A port may transmit: no stall window of its LINK page is open, and its back-pressure leaves it a turn (R392, 16 R524). -/
def linkOpen (s : State) (l : Nat) : Bool :=
  let d := s.rd64 (pLink l) 0x30
  !s.stalls.contains (pLink l) && !(bit d 63 && decide (100 ≤ bits d 16 7))

/-- Bytes of packets fill a flit back to back: the rest of the packet in progress, then the next ones; with what is left of the last one begun, that packet, and the packets behind it (R374). -/
def packFlit : Nat → List Byte → List Byte → List (List Byte) → List Byte × List Byte × List Byte × List (List Byte)
  | room, rest, whole, [] => (rest.take room, rest.drop room, whole, [])
  | room, rest, whole, b :: q =>
    if room ≤ rest.length then (rest.take room, rest.drop room, whole, b :: q)
    else
      let r := packFlit (room - rest.length) b b q
      (rest ++ r.1, r.2)

/-- The next flit of a channel is a cut: 40 µs have passed since the last flit of the packet in progress, or the packet is marked (R377). -/
def vcCut (v : VcTx) (now : Nat) : Bool := v.cutDue || decide (v.rest ≠ [] ∧ v.lastAt + 4000 ≤ now)

/-- The next flit of a virtual channel that has bytes to send: the packet in progress goes on and the next ones follow; a cut begins it again whole (R374, R377). -/
def vcFlit (v : VcTx) (now : Nat) : Option (List Byte × Bool × VcTx) :=
  let cut := vcCut v now
  let r := packFlit 240 (if cut then v.whole else v.rest) v.whole v.q
  if r.1 = [] then none
  else some (r.1, cut, { v with q := r.2.2.2, rest := r.2.1, whole := r.2.2.1, lastAt := now, cutDue := false, credits := v.credits - 1 })

/-- A packet is begun again behind a cut: CUT_TX counts, and a request's packet notes it (R377). -/
def cutBegun (s : State) (l vc : Nat) (whole : List Byte) : State :=
  let s1 := s.inc (pLink l) 0x21C 1
  if vc = 0 then
    s1.modConn (leAt whole 6 2 % 2 ^ 14) (fun k => { k with
      out := lupdate (fun o => decide (o.seq = leAt whole 8 4)) (fun o => { o with cuts := o.cuts + 1 }) k.out })
  else s1

/-- Flits pass on a link: it is UP, or it trains or retrains and its lanes are aligned (R367, R369). -/
def linkTalks (s : State) (l : Nat) : Bool :=
  decide (linkState s l = 2) || (decide (linkState s l = 1 ∨ linkState s l = 3) && decide (3 ≤ (s.link l).step))

/-- The link-control payload that waits longest is sent where training, retraining or UP allows and the retry buffer has room (R371, R372). -/
def linkSendCtl (s : State) (l : Nat) : Option State :=
  let k := s.link l
  match k.ctl with
  | [] => none
  | b :: r =>
    if linkTalks s l = false ∨ linkOpen s l = false ∨ 2048 ≤ k.retry.length then none
    else some (s.setLink l ({ k with ctl := r }.send (creditHold s l) s.ref 2 0 false b))

/-- A payload flit of a channel is sent while the link is UP, the retry buffer has room and the channel holds credit (R372, R373). -/
def linkSendOne (s : State) (l vc : Nat) : Option State :=
  let k := s.link l
  match k.tx[vc]? with
  | none => none
  | some v =>
    if linkState s l ≠ 2 ∨ linkOpen s l = false ∨ v.credits = 0 ∨ 2048 ≤ k.retry.length then none
    else match vcFlit v s.ref with
      | none => none
      | some (pay, cut, v') =>
        let s1 := s.setLink l ({ k with tx := lset k.tx vc v' }.send (creditHold s l) s.ref 1 vc cut pay)
        some (if cut then cutBegun s1 l vc v.whole else s1)

/-- Up to `n` flits: link control, then the three channels, responses first, so that VC1 and VC2 never wait on VC0 (R373). -/
def linkPump : Nat → Nat → State → State
  | 0, _, s => s
  | n + 1, l, s =>
    match linkSendCtl s l with
    | some s' => linkPump n l s'
    | none =>
      match linkSendOne s l 1 with
      | some s' => linkPump n l s'
      | none =>
        match linkSendOne s l 2 with
        | some s' => linkPump n l s'
        | none =>
          match linkSendOne s l 0 with
          | some s' => linkPump n l s'
          | none => s

/-- A replay that is due: every flit from ack + 1 is transmitted again, in order (R372). -/
def linkReplay (s : State) (l : Nat) : State :=
  if (s.link l).replayDue ∧ linkState s l = 2 ∧ linkOpen s l = true then
    (s.link l).retry.foldl (fun s f => s.modLink l (fun k => k.transmit (creditHold s l) f.ftype f.vc f.seq f.cut f.payload))
      (s.modLink l (fun k => { k with replayDue := false }))
  else s

/-- A link sends what it has: what a replay owes, then new flits. -/
def linkGo (l : Nat) (s : State) : State := linkPump 2048 l (linkReplay s l)

/-- A link answers what it has received since it stood at `old`: with what it has to send or, with nothing to send, with an idle flit that carries ack, nak and credits (R372). -/
def linkAnswer (old : LinkSt) (l : Nat) (s : State) : State :=
  let s1 := linkGo l s
  if (s1.link l).line.length = old.line.length ∧ linkOpen s1 l = true ∧ linkTalks s1 l = true then
    s1.modLink l (fun k => k.transmit (creditHold s1 l) 0 0 0 false [])
  else s1

/-- A packet is put behind the others of its virtual channel on a port. -/
def linkSend (s : State) (l : Nat) (p : Packet) : State :=
  let vc := vcOf p.ptype.toNat
  linkGo l (s.modLink l (fun k => { k with tx := lmod (fun v => { v with q := v.q ++ [packetBytes p] }) k.tx vc }))

/-- The port of a connection. -/
def connPort (s : State) (c : Nat) : Nat := s.rdF (pConn c) 0x104 0 5

/-- Retry copies held by the module (R380). -/
def retryUsed (s : State) : Nat := lsum (s.conns.map (fun x => x.2.out.length))

/-- The packet of an outstanding request. -/
def pktOf (s : State) (c : Nat) (r : OutReq) (seq : Nat) : Packet :=
  let p := pConn c
  mkPacket s (s.rdF p 0x200 0 4) r.ptype (if s.rdF p 0x200 0 4 = 1 then r.ord % 4 else r.ord) r.len (s.rdF p 0x104 18 14) c seq (s.rd p 0x2C) (s.rd p 0x204)
    (if s.rdF p 0x200 0 4 = 3 ∧ bit r.ord 1 then r.relTile else 0) (if s.rdF p 0x200 0 4 = 3 ∧ bit r.ord 1 then r.relUnit else 0)
    (r.node * 2 ^ 40 + r.target) r.body

/-- The bytes of the longest response to a request, which are reserved before it is sent (R373, R375). -/
def rspRoom (r : OutReq) : Nat := 40 + (match r.ptype with | 2 => if r.len < 8 then 8 else r.len | 3 => 16 | _ => 8)

/-- Send waiting requests of an OPEN connection while window and retry copies allow (R380). -/
def connPump : Nat → Nat → State → State
  | 0, _, s => s
  | n + 1, c, s =>
    let k := s.conn c
    let p := pConn c
    match k.wait with
    | [] => s
    | r :: w =>
      if connState s c ≠ 3 ∨ k.closing ∨ k.peerClosed ∨ s.enabled pFabric = false ∨ s.rdF p 0x104 8 8 ≤ k.out.length ∨ 65536 ≤ retryUsed s then s
      else
        let seq := s.rd p 0x208
        let s1 := s.setConn c { k with wait := w, out := k.out ++ [⟨r, seq, s.ref, false, 0, rspRoom r⟩],
                                       silentFrom := if k.out = [] then s.ref else k.silentFrom }
        let s2 := (s1.wr p 0x208 (seq + 1)).wr p 0x210 (k.out.length + 1)
        let s3 := s2.wr pFabric 0x228 (retryUsed s2)
        connPump n c (linkSend s3 (connPort s c) (pktOf s c r seq))

/-- Hand a request to a connection (R379, R380). -/
def connSend (s : State) (c : Nat) (r : OutReq) : State :=
  connPump 64 c (s.modConn c (fun k => { k with wait := k.wait ++ [r] }))

/-- A retry copy freed where none was free: every connection with waiting requests is tried again (R380). -/
def repump (full : Bool) (s : State) : State :=
  if full then s.openConns.foldl (fun s c => if (s.conn c).wait = [] then s else connPump 64 c s) s else s

/-- The connection that an access naming none uses: OPEN, dflt = 1, bound to the job, its peer the target node (R379). -/
def dfltConn (s : State) (gen node : Nat) : Option Nat :=
  (s.openConns.find? (fun c => decide (connState s c = 3) && s.rdB (pConn c) 0x104 5
    && decide (s.rd (pConn c) 0x2C = gen) && decide (s.rdF (pConn c) 0x108 0 20 = node)))

/-- What a connection's version can carry (R386): the length limit, 128-bit cas and the operations added after version 1. -/
def verCarries (ver ptype len aop width : Nat) : Bool :=
  if ver = 1 then decide (len ≤ 1024) && (decide (ptype ≠ 3) || (decide (aop ≤ 9) && decide (width ≠ 2)))
  else decide (len ≤ 4096)

/-- An access counted by a region that is enabled in direction `dir` (10_translation.md R318): region, granule and blocks. -/
def countAccess (s : State) (dir ga n : Nat) : State :=
  if s.rdB pXlat 0x104 16 then
    let hits := (List.range 8).filterMap (fun r =>
      let cfg := s.rd pXlat (0x148 + 16 * r)
      let b := s.rd pXlat (0x140 + 16 * r) + 2 ^ 32 * s.rd pXlat (0x144 + 16 * r)
      let g := granLog (bits cfg 18 2)
      let lim := b + bits cfg 0 18 * 2 ^ g
      if bit cfg 21 && decide (bits cfg 20 1 = dir) then
        let blks := (List.range (ceilDiv (ga % 64 + n) 64)).map (fun i => ga / 64 * 64 + 64 * i)
        let inn := blks.filter (fun x => decide (b ≤ x ∧ x < lim))
        match inn with
        | [] => none
        | _ => some (inn.map (fun x => (r, (x - b) / 2 ^ g, 1)))
      else none)
    { s with mem := { s.mem with counted := s.mem.counted ++ hits.foldl (· ++ ·) [] } }
  else s

end Sys2Proof.Machine
end

