-- ==== Sys2Proof/WellFormed.lean ====
section
/-! DEFINITION. When a command is a command of this module: the units it names exist (02_register_pages.md R35 and each unit's chapter) and its parts have the sizes the spec gives them. -/

namespace Sys2Proof

/-- The page exists (R35). -/
def Page.wf (p : Page) : Bool :=
  decide (p.inst < match p.blk with
    | .die | .oe => 4
    | .link => 32
    | .cache | .hbmc => 12
    | .tile => 160
    | .queue | .conn => 16384
    | _ => 1)

/-- A group number fits a block (05_thread_groups.md R142). -/
def GRef.wf (g : GRef) : Bool := decide (g.tile < 160) && decide (g.grp < 32)

/-- A slot or a page that can be bound (13_binding_and_jobs.md R401, R404). -/
def TdTarget.wf : TdTarget → Bool
  | .slot j => decide (j < 16)
  | .page p => p.wf && (p.blk = .tile || p.blk = .queue || p.blk = .conn)

/-- The op code names an operation of R148. -/
def opAssigned (op : Nat) : Bool :=
  decide (op % 16 < ([16, 16, 3, 12, 8, 6, 4, 16, 8, 3, 7, 3, 4, 7].getD (op / 16) 0))

/-- An instruction word given as operation `code`: it has that op, or a reserved one, which every operation refuses as illegal (05 R147). -/
def TInstr.wf (code : Nat) (x : TInstr) : Bool := decide (x.op.toNat = code) || !opAssigned x.op.toNat

/-- The eight barriers of a block (05 R164), the groups of a block (R142). -/
def WdTarget.wf : WdTarget → Bool
  | .barrier _ n => decide (n < 8)
  | .wait _ g _ => decide (g < 32)
  | .mx | .vx | .dma => true

/-- The links of the crossings (01_architecture.md R20). -/
def XC.wf : XC → Bool
  | .xc1 d c => decide (d < 4) && decide (c < 16)
  | .xc3 b c => decide (b < 12) && decide (c < 4)
  | .xc4 c => decide (c < 16)

/-- The islands that exist (01 R19). -/
def Island.wf : Island → Bool
  | .phy st => decide (st < 12)
  | .oe n => decide (n < 4)
  | .net | .mgmt | .timebase => true

/-- The sensors that exist (14_power_thermal.md R451). -/
def Sensor.wf : Sensor → Bool
  | .tile n => decide (n < 160)
  | .dieOther d k => decide (d < 4) && decide (k < 9)
  | .host => true
  | .oe n => decide (n < 4)

/-- Tiles and harts that exist. -/
def Requester.wf : Requester → Bool
  | .thread t | .dma t => decide (t < 160)
  | .hart n _ => decide (n < 96)
  | .qeng | .krovmo | .xlat | .misc | .hostDie => true

/-- A flit carries 240 bytes (12_krovmo_fabric.md R371). -/
def Flit.wf (f : Flit) : Bool := decide (f.payload.length = 240)

/-- A packet's body has the length its header states; a RD has none (12 R374, R376). -/
def Packet.wf (p : Packet) : Bool := decide (p.body.length = if p.ptype = 2 then 0 else p.len.toNat)

/-- The command is one of this module. -/
def Instr.wf : Instr → Bool
  | .registerWrite (.host n) _ _ _ => decide (n < 96)
  | .registerWrite .palur _ _ _ => true
  | .enable p _ _ _ => Page.wf p
  | .ctrlSwap p _ => Page.wf p
  | .shadowLoad p => Page.wf p
  | .verSel p _ => Page.wf p
  | .swap p => Page.wf p
  | .flagClear p _ _ => Page.wf p
  | .disturbWrite p _ _ => Page.wf p
  | .disturbWinWrite p _ _ => Page.wf p
  | .stallWindowOpen p => Page.wf p
  | .stallWindowClose p => Page.wf p
  | .summaryUpdate p => Page.wf p
  | .errorRecordPost => true
  | .errlogHeadWrite _ => true
  | .pllLockLoss i => Island.wf i
  | .hbmPhyRelock st => decide (st < 12)
  | .hbmRelockTimeout st => decide (st < 12)
  | .iadd gr x => GRef.wf gr && TInstr.wf 0x00 x
  | .isub gr x => GRef.wf gr && TInstr.wf 0x01 x
  | .mulLo gr x => GRef.wf gr && TInstr.wf 0x02 x
  | .mulHi gr x => GRef.wf gr && TInstr.wf 0x03 x
  | .iand gr x => GRef.wf gr && TInstr.wf 0x04 x
  | .ior gr x => GRef.wf gr && TInstr.wf 0x05 x
  | .ixor gr x => GRef.wf gr && TInstr.wf 0x06 x
  | .shl gr x => GRef.wf gr && TInstr.wf 0x07 x
  | .shr gr x => GRef.wf gr && TInstr.wf 0x08 x
  | .sar gr x => GRef.wf gr && TInstr.wf 0x09 x
  | .imin gr x => GRef.wf gr && TInstr.wf 0x0A x
  | .imax gr x => GRef.wf gr && TInstr.wf 0x0B x
  | .popc gr x => GRef.wf gr && TInstr.wf 0x0C x
  | .clz gr x => GRef.wf gr && TInstr.wf 0x0D x
  | .add64 gr x => GRef.wf gr && TInstr.wf 0x0E x
  | .mov gr x => GRef.wf gr && TInstr.wf 0x0F x
  | .fpAdd gr x => GRef.wf gr && TInstr.wf 0x10 x
  | .fpSub gr x => GRef.wf gr && TInstr.wf 0x11 x
  | .fpMul gr x => GRef.wf gr && TInstr.wf 0x12 x
  | .fpFma gr x => GRef.wf gr && TInstr.wf 0x13 x
  | .fpMin gr x => GRef.wf gr && TInstr.wf 0x14 x
  | .fpMax gr x => GRef.wf gr && TInstr.wf 0x15 x
  | .fpAbs gr x => GRef.wf gr && TInstr.wf 0x16 x
  | .fpNeg gr x => GRef.wf gr && TInstr.wf 0x17 x
  | .fpDiv gr x => GRef.wf gr && TInstr.wf 0x18 x
  | .fpSqrt gr x => GRef.wf gr && TInstr.wf 0x19 x
  | .fpRcp gr x => GRef.wf gr && TInstr.wf 0x1A x
  | .fpRsqrt gr x => GRef.wf gr && TInstr.wf 0x1B x
  | .fpExp2 gr x => GRef.wf gr && TInstr.wf 0x1C x
  | .fpLog2 gr x => GRef.wf gr && TInstr.wf 0x1D x
  | .fpSin gr x => GRef.wf gr && TInstr.wf 0x1E x
  | .fpCos gr x => GRef.wf gr && TInstr.wf 0x1F x
  | .cvt gr x => GRef.wf gr && TInstr.wf 0x20 x
  | .cvtPack gr x => GRef.wf gr && TInstr.wf 0x21 x
  | .cvtUnpack gr x => GRef.wf gr && TInstr.wf 0x22 x
  | .cmpEq gr x => GRef.wf gr && TInstr.wf 0x30 x
  | .cmpNe gr x => GRef.wf gr && TInstr.wf 0x31 x
  | .cmpLt gr x => GRef.wf gr && TInstr.wf 0x32 x
  | .cmpLe gr x => GRef.wf gr && TInstr.wf 0x33 x
  | .cmpGt gr x => GRef.wf gr && TInstr.wf 0x34 x
  | .cmpGe gr x => GRef.wf gr && TInstr.wf 0x35 x
  | .unordered gr x => GRef.wf gr && TInstr.wf 0x36 x
  | .select gr x => GRef.wf gr && TInstr.wf 0x37 x
  | .pand gr x => GRef.wf gr && TInstr.wf 0x38 x
  | .por gr x => GRef.wf gr && TInstr.wf 0x39 x
  | .pxor gr x => GRef.wf gr && TInstr.wf 0x3A x
  | .pnot gr x => GRef.wf gr && TInstr.wf 0x3B x
  | .bra gr x => GRef.wf gr && TInstr.wf 0x40 x
  | .braDiv gr x => GRef.wf gr && TInstr.wf 0x41 x
  | .join gr x => GRef.wf gr && TInstr.wf 0x42 x
  | .call gr x => GRef.wf gr && TInstr.wf 0x43 x
  | .ret gr x => GRef.wf gr && TInstr.wf 0x44 x
  | .exit gr x => GRef.wf gr && TInstr.wf 0x45 x
  | .nop gr x => GRef.wf gr && TInstr.wf 0x46 x
  | .trap gr x => GRef.wf gr && TInstr.wf 0x47 x
  | .ldSp gr x => GRef.wf gr && TInstr.wf 0x50 x
  | .stSp gr x => GRef.wf gr && TInstr.wf 0x51 x
  | .ldAcc gr x => GRef.wf gr && TInstr.wf 0x52 x
  | .ldX gr x => GRef.wf gr && TInstr.wf 0x53 x
  | .stX gr x => GRef.wf gr && TInstr.wf 0x54 x
  | .ldArg gr x => GRef.wf gr && TInstr.wf 0x55 x
  | .ldG gr x => GRef.wf gr && TInstr.wf 0x60 x
  | .stG gr x => GRef.wf gr && TInstr.wf 0x61 x
  | .ldGAcq gr x => GRef.wf gr && TInstr.wf 0x62 x
  | .stGRel gr x => GRef.wf gr && TInstr.wf 0x63 x
  | .globalAccessResponse gr _ => GRef.wf gr
  | .atomAdd gr x => GRef.wf gr && TInstr.wf 0x70 x
  | .atomAnd gr x => GRef.wf gr && TInstr.wf 0x71 x
  | .atomOr gr x => GRef.wf gr && TInstr.wf 0x72 x
  | .atomXor gr x => GRef.wf gr && TInstr.wf 0x73 x
  | .atomMinS gr x => GRef.wf gr && TInstr.wf 0x74 x
  | .atomMaxS gr x => GRef.wf gr && TInstr.wf 0x75 x
  | .atomMinU gr x => GRef.wf gr && TInstr.wf 0x76 x
  | .atomMaxU gr x => GRef.wf gr && TInstr.wf 0x77 x
  | .atomSwap gr x => GRef.wf gr && TInstr.wf 0x78 x
  | .atomCas gr x => GRef.wf gr && TInstr.wf 0x79 x
  | .atomCas128 gr x => GRef.wf gr && TInstr.wf 0x79 x
  | .atomFadd gr x => GRef.wf gr && TInstr.wf 0x7A x
  | .atomFmin gr x => GRef.wf gr && TInstr.wf 0x7B x
  | .atomFmax gr x => GRef.wf gr && TInstr.wf 0x7C x
  | .cellAdd gr x => GRef.wf gr && TInstr.wf 0x7D x
  | .cellRead gr x => GRef.wf gr && TInstr.wf 0x7E x
  | .cellReadAndClear gr x => GRef.wf gr && TInstr.wf 0x7E x
  | .cellClear gr x => GRef.wf gr && TInstr.wf 0x7F x
  | .sigSt gr x => GRef.wf gr && TInstr.wf 0x80 x
  | .sigAdd gr x => GRef.wf gr && TInstr.wf 0x81 x
  | .sigOr gr x => GRef.wf gr && TInstr.wf 0x82 x
  | .sigLd gr x => GRef.wf gr && TInstr.wf 0x83 x
  | .waitGe gr x => GRef.wf gr && TInstr.wf 0x84 x
  | .waitEq gr x => GRef.wf gr && TInstr.wf 0x85 x
  | .waitNe gr x => GRef.wf gr && TInstr.wf 0x86 x
  | .waitAny gr x => GRef.wf gr && TInstr.wf 0x87 x
  | .signalWordUpdate t word _ _ => decide (t < 160) && decide (word < 4096)
  | .pathResume gr _ => GRef.wf gr
  | .barSync gr x => GRef.wf gr && TInstr.wf 0x90 x
  | .barArrive gr x => GRef.wf gr && TInstr.wf 0x91 x
  | .fence gr x => GRef.wf gr && TInstr.wf 0x92 x
  | .shflIdx gr x => GRef.wf gr && TInstr.wf 0xA0 x
  | .shflUp gr x => GRef.wf gr && TInstr.wf 0xA1 x
  | .shflDown gr x => GRef.wf gr && TInstr.wf 0xA2 x
  | .shflXor gr x => GRef.wf gr && TInstr.wf 0xA3 x
  | .voteAny gr x => GRef.wf gr && TInstr.wf 0xA4 x
  | .voteAll gr x => GRef.wf gr && TInstr.wf 0xA5 x
  | .ballot gr x => GRef.wf gr && TInstr.wf 0xA6 x
  | .issueMx gr x => GRef.wf gr && TInstr.wf 0xB0 x
  | .issueVx gr x => GRef.wf gr && TInstr.wf 0xB1 x
  | .issueDma gr x => GRef.wf gr && TInstr.wf 0xB2 x
  | .mmaRR gr x => GRef.wf gr && TInstr.wf 0xC0 x
  | .mmaRS gr x => GRef.wf gr && TInstr.wf 0xC1 x
  | .mmaSS gr x => GRef.wf gr && TInstr.wf 0xC2 x
  | .accClr gr x => GRef.wf gr && TInstr.wf 0xC3 x
  | .readLane gr x => GRef.wf gr && TInstr.wf 0xD0 x
  | .readGroup gr x => GRef.wf gr && TInstr.wf 0xD1 x
  | .readBlockIndex gr x => GRef.wf gr && TInstr.wf 0xD2 x
  | .readTileNumber gr x => GRef.wf gr && TInstr.wf 0xD3 x
  | .readNodeId gr x => GRef.wf gr && TInstr.wf 0xD4 x
  | .readTime gr x => GRef.wf gr && TInstr.wf 0xD5 x
  | .readNblocks gr x => GRef.wf gr && TInstr.wf 0xD6 x
  | .watchdogExpiry t w => decide (t < 160) && WdTarget.wf w
  | .launchDelivery t => decide (t < 160)
  | .blockStart t _ => decide (t < 160)
  | .mxDescCheck t => decide (t < 160)
  | .mxWaitSatisfied t => decide (t < 160)
  | .mxBlockStart t arr => decide (t < 160) && decide (arr < 2)
  | .mxBlockDone t arr => decide (t < 160) && decide (arr < 2)
  | .mxOperandsRead t => decide (t < 160)
  | .mxCompletion t => decide (t < 160)
  | .vxDescCheck t => decide (t < 160)
  | .vxWaitSatisfied t => decide (t < 160)
  | .vxVector t => decide (t < 160)
  | .vxInputsRead t => decide (t < 160)
  | .vxCompletion t => decide (t < 160)
  | .dmaDescCheck t => decide (t < 160)
  | .dmaWaitSatisfied t => decide (t < 160)
  | .dmaSlotStart t => decide (t < 160)
  | .dmaAccessPerformed t n => decide (t < 160) && decide (n < 4)
  | .dmaSourceRead t n => decide (t < 160) && decide (n < 4)
  | .dmaSignalSend t n => decide (t < 160) && decide (n < 4)
  | .dmaCompletion t => decide (t < 160)
  | .dmaStallReport t n _ => decide (t < 160) && decide (n < 4)
  | .winRead t _ => decide (t < 160)
  | .winWrite t _ => decide (t < 160)
  | .winOpEnd t => decide (t < 160)
  | .ipiSet w _ => decide (w < 3)
  | .ctrlHostReset => true
  | .hartRestart => true
  | .doorbell q _ => decide (q < 16384)
  | .doorbellBlockWrite q => decide (q < 16384)
  | .queueArm q => decide (q < 16384)
  | .queueStop q => decide (q < 16384)
  | .cqHeadWrite q _ => decide (q < 16384)
  | .commandFetch q => decide (q < 16384)
  | .commandRefetch q => decide (q < 16384)
  | .launch q _ => decide (q < 16384)
  | .dma q _ => decide (q < 16384)
  | .writeInline q _ => decide (q < 16384)
  | .signal q _ => decide (q < 16384)
  | .atomic q _ => decide (q < 16384)
  | .wait q _ => decide (q < 16384)
  | .waitConditionMet q _ => decide (q < 16384)
  | .waitTimeout q _ => decide (q < 16384)
  | .fenceCommand q _ => decide (q < 16384)
  | .pennant q _ => decide (q < 16384)
  | .pennantExpiry q _ => decide (q < 16384)
  | .nopCommand q _ => decide (q < 16384)
  | .completionRecord q _ => decide (q < 16384)
  | .missRespRetry _ => true
  | .missRespRefuse _ => true
  | .missTimeout _ => true
  | .hreqHeadWrite _ => true
  | .invAll _ => true
  | .invCtx _ => true
  | .invPages _ => true
  | .invEnd => true
  | .accessCountUpdate => true
  | .migrationGo => true
  | .migrationLeaf => true
  | .sliceRead r _ _ _ => Requester.wf r
  | .sliceWrite r _ _ => Requester.wf r
  | .sliceAtomic r _ _ _ => Requester.wf r
  | .sectorFill _ _ => true
  | .orwRound c j => decide (c < 12) && decide (j < 4096)
  | .rowRepair st pc _ _ _ => decide (st < 12) && decide (pc < 64)
  | .retHeadWrite st _ => decide (st < 12)
  | .mapoutGo st => decide (st < 12)
  | .mapoutAuto st => decide (st < 12)
  | .mapoutCopy st => decide (st < 12)
  | .hbmRetrain st => decide (st < 12)
  | .phyRecalibrate st => decide (st < 12)
  | .patrolRead st _ => decide (st < 12)
  | .scrubGo => true
  | .scrubDone => true
  | .throttleLevel st _ _ => decide (st < 12)
  | .heavyWindow st => decide (st < 12)
  | .scopeClearLast p => Page.wf p
  | .partnerLight l _ => decide (l < 32)
  | .capability l _ => decide (l < 32)
  | .retrainRequest l => decide (l < 32)
  | .creditGrant l _ _ _ => decide (l < 32)
  | .trainingTimeout l => decide (l < 32)
  | .laneSignalLoss l lane => decide (l < 32) && decide (lane < 8)
  | .retrainComplete l _ => decide (l < 32)
  | .retrainTimeout l => decide (l < 32)
  | .linkTrain l => decide (l < 32)
  | .linkForceDown l => decide (l < 32)
  | .autoTrain l => decide (l < 32)
  | .payloadFlit l f => decide (l < 32) && Flit.wf f
  | .idleFlit l f => decide (l < 32) && Flit.wf f
  | .ackTimeout l => decide (l < 32)
  | .senderCut l vc => decide (l < 32) && decide (vc < 3)
  | .receiverTruncate l vc => decide (l < 32) && decide (vc < 3)
  | .wr l p => decide (l < 32) && Packet.wf p
  | .rd l p => decide (l < 32) && Packet.wf p
  | .atom l p => decide (l < 32) && Packet.wf p
  | .sig l p => decide (l < 32) && Packet.wf p
  | .rsp l p => decide (l < 32) && Packet.wf p
  | .hold l p => decide (l < 32) && Packet.wf p
  | .openPkt l p => decide (l < 32) && Packet.wf p
  | .openAck l p => decide (l < 32) && Packet.wf p
  | .closePkt l p => decide (l < 32) && Packet.wf p
  | .connOpen c => decide (c < 16384)
  | .connClose c => decide (c < 16384)
  | .openResend c => decide (c < 16384)
  | .openTimeout c => decide (c < 16384)
  | .rtoResend c _ => decide (c < 16384)
  | .holdSend c => decide (c < 16384)
  | .connSilent c => decide (c < 16384)
  | .xcLinkError k => XC.wf k
  | .xcRetrainComplete k => XC.wf k
  | .xcRetrainTimeout k => XC.wf k
  | .mbxOwnerWrite _ => true
  | .mbxGo => true
  | .mgmtDatagram _ => true
  | .mgmtFrame _ => true
  | .getInfo => true
  | .getResult => true
  | .bringupRun _ => true
  | .bringupAuto _ => true
  | .sleepEnterP1 => true
  | .sleepEnterP2 => true
  | .sleepEnterP3 => true
  | .sleepExit => true
  | .fwStageHost => true
  | .fwStageChunk => true
  | .fwStageAbort => true
  | .fwStageComplete _ => true
  | .stagingChunkTimeout => true
  | .fwActivate => true
  | .selfTestTileLogic => true
  | .selfTestStorage => true
  | .selfTestLoopback => true
  | .selfTestComplete _ => true
  | .debugTokenPresent => true
  | .tokenVerifyComplete => true
  | .debugTokenChallenge => true
  | .challengeLapse => true
  | .debugTokenDeploy => true
  | .debugTokenMgmtKey => true
  | .debugTokenEnd => true
  | .debugExpiry => true
  | .hostReset => true
  | .moduleReset => true
  | .attestReport => true
  | .attestSignComplete => true
  | .attestRead => true
  | .attestBurgee => true
  | .errlogRead => true
  | .calRead => true
  | .calWriteData => true
  | .calCommit => true
  | .calDiscard => true
  | .rngHealthFail => true
  | .ptpSync _ => true
  | .ptpFollowUp _ _ _ => true
  | .ptpAnnounce _ => true
  | .ptpDelayResp _ _ => true
  | .ptpDelayReqSend => true
  | .ptpSyncTimeout => true
  | .holdoverExpiry => true
  | .timeSnap => true
  | .jobGenWrite j _ => decide (j < 16)
  | .jobReady j => decide (j < 16)
  | .jobStart j => decide (j < 16)
  | .jobTeardown j => decide (j < 16)
  | .teardownDrainEnd d => TdTarget.wf d
  | .drainTimeout d => TdTarget.wf d
  | .bindReq p => Page.wf p
  | .resourceTeardown p => Page.wf p
  | .regionBind r => decide (r < 32)
  | .regionRelease r => decide (r < 32)
  | .hoistTxGo _ => true
  | .hoistStart l p => decide (l < 32) && Packet.wf p
  | .hoistReport l p => decide (l < 32) && Packet.wf p
  | .hoistAbort l p => decide (l < 32) && Packet.wf p
  | .hoistRetry k ch => decide (k < 4) && decide (ch < 16)
  | .hoistReportBatch k par => decide (k < 4) && decide (par < 2)
  | .hoistDeadline k => decide (k < 4)
  | .hoistStartTime j => decide (j < 16)
  | .hoistContextRelease k => decide (k < 4)
  | .inputQualified => true
  | .powerLoss => true
  | .inputOvervoltage => true
  | .inputRangeChange _ => true
  | .controlPeriod _ => true
  | .railSlewStep => true
  | .estimatorPeriod _ => true
  | .measurementWindow _ => true
  | .relearn => true
  | .fastLimiter _ => true
  | .droop d _ => decide (d < 4)
  | .brownout d _ => decide (d < 4)
  | .thermalEmergency d => decide (d < 4)
  | .dieTrip d => decide (d < 4)
  | .moduleThermalTrip => true
  | .temperatureChange y _ => Sensor.wf y
  | .dieRecover d => decide (d < 4)
  | .paceWindow j _ => decide (j < 16)
  | .stragglerInterval j _ => decide (j < 16)
  | .mgmtPortUp => true
  | .mgmtPortDown => true
  | .laserFailure l => decide (l < 32)
  | .palurCheckFailed => true
  | .fwActivateComplete _ _ => true

end Sys2Proof
end

