-- ==== Sys2Proof/Machine/Threads.lean ====
section
/-! DEFINITION. How a thread group runs an instruction: its context, register access, static checks, writing results, faults (05_thread_groups.md R147-R156, R176-R178, R542), divergence, barriers and waits (R153, R164-R168). -/

namespace Sys2Proof.Machine

open Sys2Proof

/-- Every lane of a group. -/
def allLanes : Nat := 2 ^ 32 - 1

/-- The module works: stage A has ended and no fatal cause has stopped it (16_bringup_errors_test.md R522). -/
def alive (s : State) : Bool := s.up && decide (s.rdF pErrlog 0x220 0 2 ≠ 2)

/-- The power state (16 R509, R519). -/
def powerState (s : State) : Nat := s.rdF pErrlog 0x220 4 2

/-- A tile is powered: P0 and its die not tripped (14_power_thermal.md R452, 16 R509). -/
def tilePowered (s : State) (t : Nat) : Bool := decide (powerState s = 0) && !s.rdB (pDie (dieOf t)) 0x14 16

/-- A tile runs: enabled, powered, module alive. -/
def tileOn (s : State) (t : Nat) : Bool := alive s && s.enabled (pTile t) && tilePowered s t

/-- What an instruction of a group sees. -/
structure TC where
  gr : GRef
  blk : Block
  grp : Group
  path : Path
  x : TInstr
  act : List Nat
deriving DecidableEq, Repr

/-- A predicate of a lane; p7 is true (R141). -/
def Group.pred (g : Group) (p lane : Nat) : Bool :=
  if p = 7 then true else (fget (fun _ => (0 : Word)) g.preds p).toNat.testBit lane

/-- A register of a lane. -/
def Group.reg (g : Group) (lane r : Nat) : Nat := (fget (fun _ => (0 : Word)) g.regs (32 * r + lane)).toNat

/-- Write a register of a lane by key 32 x register + lane. -/
def Group.setReg (g : Group) (key v : Nat) : Group :=
  { g with regs := fset (fun _ => (0 : Word)) g.regs key (BitVec.ofNat 32 v) }

/-- Write predicate `p` of the lanes in `mask`; writes to p7 are discarded (R141). -/
def Group.setPred (g : Group) (p mask v : Nat) : Group :=
  if p = 7 then g
  else
    let old := (fget (fun _ => (0 : Word)) g.preds p).toNat
    { g with preds := fset (fun _ => (0 : Word)) g.preds p (BitVec.ofNat 32 ((old &&& (allLanes ^^^ mask)) ||| (v &&& mask))) }

/-- The block of a tile by its resident number. -/
def Tile.block (T : Tile) (id : Nat) : Option Block := T.blocks.find? (fun b => decide (b.id = id))

/-- The class of an instruction (R147). -/
def opClass (x : TInstr) : Nat := x.op.toNat / 16

/-- A field of the instruction may name a register of the run of `n` from `r`: no operand is longer than eight registers. -/
def regsMeet (x : TInstr) (r n : Nat) : Bool :=
  [x.dst, x.a, x.b, x.c].any (fun f => decide (f.toNat < r + n ∧ r < f.toNat + 8))

/-- The release that an instruction carries, by its scope: its ORD (R148), and tile scope for a descriptor issue (03_memory_model.md R70). -/
def opRelease (x : TInstr) : Option Nat :=
  if opClass x = 11 then some 1
  else if (x.op.toNat = 0x63 ∨ opClass x = 7 ∨ opClass x = 8 ∨ opClass x = 9) ∧ ordRel x.mod.toNat = true then some (ordScope x.mod.toNat)
  else none

/-- An outstanding access lets an instruction of its group issue (R178, 03 R77, R78, R96): the instruction names none of the registers that the access will write, is no register-form matrix instruction and no exit; a release waits for every access it orders, at system scope for the acknowledgements of remote writes too; a memory operation waits for an earlier acquire, and a fence that acquires for earlier reads. -/
def letsIssue (x : TInstr) (a : Access) : Bool :=
  !regsMeet x a.dst a.ndst && !(opClass x = 12 || x.op.toNat = 0x45)
  && (match opRelease x with
      | none => true
      | some sc => a.store && a.fault.isNone && decide (sc < 4))
  && !(a.acq && ((decide (5 ≤ opClass x) && decide (opClass x ≤ 9)) || opClass x = 11))
  && !(decide (x.op.toNat = 0x92) && ordAcq x.mod.toNat && !a.store)

/-- The context of an instruction of group `gr`: the group has a running path, and each access outstanding lets the instruction issue; its tile runs. -/
def threadCtx (s : State) (gr : GRef) (x : TInstr) : Option TC :=
  if tileOn s gr.tile then
    match (s.tile gr.tile).block gr.blk with
    | none => none
    | some b =>
      match b.groups[gr.grp]? with
      | none => none
      | some g =>
        match g.run with
        | some p =>
          if g.outst.all (letsIssue x) then
            some ⟨gr, b, g, p, x, (List.range 32).filter (fun l => p.lanes.testBit l && (g.pred x.pred.toNat l != x.predNeg))⟩
          else none
        | none => none
  else none

/-- Change a block of a tile. -/
def State.modBlock (s : State) (t id : Nat) (f : Block → Block) : State :=
  s.modTile t (fun T => { T with blocks := lupdate (fun b => decide (b.id = id)) f T.blocks })

/-- Change a group. -/
def State.modGroup (s : State) (gr : GRef) (f : Group → Group) : State :=
  s.modBlock gr.tile gr.blk (fun b => { b with groups := lmod f b.groups gr.grp })

/-- Run an instruction of a group: refused for a tile that does not exist, no effect while the group cannot execute. -/
def runThread (gr : GRef) (x : TInstr) (s : State) (f : TC → State → State) : Out :=
  onUnit (decide (gr.tile < 160)) (match threadCtx s gr x with | none => s | some tc => f tc s)

/-- The first failing check of a list. -/
def firstBad : List (Bool × Nat) → Option Nat
  | [] => none
  | (b, c) :: r => if b then some c else firstBad r

def TC.nregs (tc : TC) : Nat := tc.blk.launch.nregs
/-- The active lanes as a mask. -/
def TC.mask (tc : TC) : Nat := maskOf tc.act
/-- A thread's number within its block (R142). -/
def TC.tid (tc : TC) (lane : Nat) : Nat := 32 * tc.gr.grp + lane
/-- Length of the instruction in bytes. -/
def TC.len (tc : TC) : Nat := if tc.x.wide then 16 else 8

/-- `n` consecutive registers from `r` on, at their place (R542): a pair starts even, a run of four at a multiple of 4. -/
def TC.badR (tc : TC) (r : BitVec 8) (n : Nat) : Bool := decide (tc.nregs < r.toNat + n) || decide (r.toNat % n ≠ 0)
/-- A run of `n` registers with no alignment (R151). -/
def TC.badRun (tc : TC) (r : BitVec 8) (n : Nat) : Bool := decide (tc.nregs < r.toNat + n)

/-- The value of `n` consecutive registers of a lane, least significant first. -/
def Group.getN (g : Group) (lane r : Nat) : Nat → Nat
  | 0 => 0
  | n + 1 => g.reg lane r + 2 ^ 32 * Group.getN g lane (r + 1) n

def TC.get (tc : TC) (lane : Nat) (r : BitVec 8) (n : Nat) : Nat := tc.grp.getN lane r.toNat n

/-- Register writes of a value of `n` registers. -/
def putN (lane r : Nat) : Nat → Nat → List (Nat × Nat)
  | 0, _ => []
  | n + 1, v => (32 * r + lane, v % 2 ^ 32) :: putN lane (r + 1) n (v / 2 ^ 32)

/-- A reserved class or operation, the reserved bits and the fields a class does not use (R147), and where a second word may stand (R542): 0 never, 1 permitted, 2 required. -/
def illegalCommon (x : TInstr) (wide : Nat) (fmtUsed modUsed : Bool) : List (Bool × Nat) :=
  [(!opAssigned x.op.toNat, 1), (x.rsvd ≠ 0, 1), (x.wide && decide (wide = 0), 1), (!x.wide && decide (wide = 2), 1),
   (!fmtUsed && x.fmt ≠ 0, 1), (!modUsed && x.mod ≠ 0, 1)]

/-! Faults. -/

/-- Numeric events of a tile (04_number_formats.md R138). -/
def tileNum (s : State) (t : Nat) (e : NEv) : State :=
  if e = .zero then s
  else ((s.inc (pTile t) 0x6D0 e.sat).inc (pTile t) 0x6D4 e.nan).inc (pTile t) 0x6D8 e.lost

/-- FMT_INVALID, CVT_INVALID and SCALE_INVALID are counted (R139). -/
def tileNumFault (s : State) (t code : Nat) : State :=
  if code = 0x0B ∨ code = 0x0C ∨ code = 0x16 then s.inc (pTile t) 0x6DC 1 else s

/-- The first fault of a command is kept (R177, 09 R293). -/
def cmdFault (s : State) (uid : Nat) (f : CmdFault) : State :=
  { s with cmds := lupdate (fun c => decide (c.uid = uid)) (fun c => { c with fault := c.fault <|> some f }) s.cmds }

/-- A block ends (R143): its slots and registers are free, TG_DONE counts it. -/
def endBlock (s : State) (t id : Nat) : State :=
  (s.modTile t (fun T => { T with blocks := T.blocks.filter (fun b => decide (b.id ≠ id)) })).inc (pTile t) 0x204 1

/-- Latch a thread fault in the GF registers, or count it as lost (R176). -/
def latchGF (s : State) (t code grp lanes pc block addr queue : Nat) : State :=
  let p := pTile t
  if s.rdB p 0x210 31 then s.inc p 0x22C 1
  else
    ((((((s.wr p 0x210 (code + grp * 256 + 2 ^ 31)).wr p 0x214 lanes).wr p 0x218 pc).wr p 0x21C block).wr64 p 0x220 addr)).wr p 0x228 queue

/-- A fault of a block (R177): latched, flagged, recorded, the block stopped and ended, the command's first fault kept. -/
def blockFault (s : State) (t : Nat) (b : Block) (code grp lanes pc addr : Nat) : State :=
  let s1 := latchGF (tileNumFault s t code) t code grp lanes pc b.index addr b.launch.queue
  let s2 := raise s1 (pTile t) 8 code b.launch.queue addr [code + grp * 256 + 2 ^ 31, lanes, pc, b.index]
  endBlock (cmdFault s2 b.launch.cmd ⟨code, 1, t, b.index⟩) t b.id

/-- A fault of the instruction in progress. -/
def threadFault (tc : TC) (s : State) (code addr : Nat) : State :=
  blockFault s tc.gr.tile tc.blk code tc.gr.grp tc.mask tc.path.pc addr

/-- Continue unless a check fails. -/
def guarded (tc : TC) (s : State) (checks : List (Bool × Nat)) (k : State) : State :=
  match firstBad checks with
  | some c => threadFault tc s c 0
  | none => k

/-! Results. -/

/-- The running path moves on behind the instruction. -/
def Group.advance (g : Group) (n : Nat) : Group :=
  { g with run := g.run.map (fun p => { p with pc := p.pc + n }) }

/-- Apply register writes. -/
def Group.applyWrites (g : Group) (w : List (Nat × Nat)) : Group := w.foldl (fun g kv => g.setReg kv.1 kv.2) g

/-- Write registers of the group, count numeric events, move on. -/
def commit (tc : TC) (s : State) (w : List (Nat × Nat)) (e : NEv) : State :=
  (tileNum s tc.gr.tile e).modGroup tc.gr (fun g => (g.applyWrites w).advance tc.len)

/-- Write a predicate of the active lanes and move on. -/
def commitPred (tc : TC) (s : State) (p v : Nat) : State :=
  s.modGroup tc.gr (fun g => (g.setPred p tc.mask v).advance tc.len)

/-- The mask of the active lanes for which `f` holds. -/
def TC.maskWhere (tc : TC) (f : Nat → Bool) : Nat := maskOf (tc.act.filter f)

/-- Lane results gathered: register writes and events. -/
def gather (l : List (List (Nat × Nat) × NEv)) : List (Nat × Nat) × NEv :=
  l.foldl (fun acc r => (acc.1 ++ r.1, acc.2.add r.2)) ([], .zero)

/-- An instruction that only writes registers: checks, then one result for each active lane. -/
def laneOp (gr : GRef) (x : TInstr) (s : State) (checks : TC → List (Bool × Nat))
    (f : TC → Nat → List (Nat × Nat) × NEv) : Out :=
  runThread gr x s (fun tc s =>
    guarded tc s (checks tc) (let r := gather (tc.act.map (f tc)); commit tc s r.1 r.2))

/-! Divergence (R153-R156). -/

/-- Call entries of a list of frames. -/
def callCount (l : List Frame) : Nat := (l.filter (fun f => match f with | .call _ _ => true | .split _ => false)).length

/-- Entries on the reconvergence stack: open splits, paths that wait for their turn, and calls (R154). -/
def Group.depth (g : Group) : Nat :=
  g.splits.length + g.ready.length + (match g.run with | some p => callCount p.frames | none => 0)
    + lsum (g.splits.map (fun x => callCount x.frames)) + lsum (g.parked.map (fun x => callCount x.path.frames))

/-- A split is complete when each of its lanes has reached join or exited (R153). -/
def Group.splitDone (g : Group) (x : Split) : Bool := decide (x.lanes &&& (allLanes ^^^ (x.joined ||| g.exited)) = 0)

/-- Close complete splits: the lanes that have not exited go on at the reconvergence point; otherwise the next path runs. Only acts while no path runs. -/
def Group.settle (g : Group) : Nat → Group
  | 0 => g
  | n + 1 =>
    match g.run with
    | some _ => g
    | none =>
      match g.splits.find? g.splitDone with
      | some x =>
        let g1 := { g with splits := g.splits.filter (fun y => decide (y.id ≠ x.id)) }
        let live := x.lanes &&& (allLanes ^^^ g.exited)
        if live = 0 then Group.settle g1 n else { g1 with run := some ⟨live, x.reconv, x.frames⟩ }
      | none =>
        match g.ready with
        | [] => g
        | p :: r =>
          let live := p.lanes &&& (allLanes ^^^ g.exited)
          if live = 0 then Group.settle { g with ready := r } n else { g with run := some { p with lanes := live }, ready := r }

/-- The running path ends here: the next one runs. -/
def Group.next (g : Group) : Group := Group.settle { g with run := none } 70

/-- bra.div splits the path (R153): the way with the lowest lane runs, the other waits. -/
def Group.split (g : Group) (p : Path) (taken target recon nxt : Nat) : Group :=
  let other := p.lanes &&& (allLanes ^^^ taken)
  let sp : Split := ⟨g.nextId, recon, p.lanes, 0, p.frames⟩
  let a : Path := ⟨taken, target, [.split g.nextId]⟩
  let b : Path := ⟨other, nxt, [.split g.nextId]⟩
  let low := taken % 2 ^ 32 ≠ 0 && decide ((setBits 32 taken).head? = (setBits 32 p.lanes).head?)
  { g with
    run := some (if low then a else b), ready := (if low then b else a) :: g.ready,
    splits := sp :: g.splits, nextId := g.nextId + 1 }

/-! Barriers and waits (R164-R168, R173). -/

/-- The threads of a block that have not exited. -/
def Block.live (b : Block) : List Nat :=
  ((List.range b.groups.length).map (fun i =>
    match b.groups[i]? with
    | some g => (setBits 32 (allLanes ^^^ g.exited)).map (fun l => 32 * i + l)
    | none => [])).foldl (· ++ ·) []

/-- Arrivals of a thread at a barrier. -/
def Bar.count (b : Bar) (t : Nat) : Nat := ((b.arrivals.find? (fun x => decide (x.1 = t))).map (·.2)).getD 0

/-- The barrier's use is complete: some thread lives and each has arrived (R165). -/
def Block.barDone (b : Block) (n : Nat) : Bool :=
  match b.bars[n]? with
  | some x => decide (b.live ≠ []) && b.live.all (fun t => decide (1 ≤ x.count t))
  | none => false

/-- The first of the later arrivals of each thread, and the rest of them. -/
def nextArrivals : List Nat → List (Nat × Nat × Nat × Nat) → List (Nat × Nat × Nat × Nat) × List (Nat × Nat × Nat × Nat)
  | _, [] => ([], [])
  | seen, y :: r =>
    if seen.contains y.1 then ((nextArrivals seen r).1, y :: (nextArrivals seen r).2)
    else (y :: (nextArrivals (y.1 :: seen) r).1, (nextArrivals (y.1 :: seen) r).2)

/-- One use of barrier `n` completes: each arrival is used up, every waiting lane needs one completion fewer. The next use is timed from the first arrival that counts toward it (R173). -/
def Block.barComplete (b : Block) (n : Nat) : Block :=
  { b with
    bars := lmod (fun x =>
      let l := nextArrivals [] x.later
      { x with
        arrivals := (x.arrivals.map (fun y => (y.1, y.2 - 1))).filter (fun y => decide (y.2 ≠ 0))
        since := l.1.head?.map (fun y => y.2.1), limit := (l.1.head?.map (fun y => y.2.2.1)).getD 0, reported := false
        pcs := l.1.map (fun y => (y.1, y.2.2.2)), later := l.2 }) b.bars n
    groups := b.groups.map (fun g => { g with parked := g.parked.map (fun k =>
      match k.kind with
      | .bar m need => if m = n then { k with kind := .bar m (need.map (fun y => (y.1, y.2 - 1))) } else k
      | .wait _ _ _ => k) }) }

/-- Complete barrier `n` as often as it is complete. -/
def Block.barSettle (b : Block) (n : Nat) : Nat → Block
  | 0 => b
  | k + 1 => if b.barDone n then Block.barSettle (b.barComplete n) n k else b

/-- Settle every barrier of a block (after exits). -/
def Block.barSettleAll (b : Block) : Block := (List.range 8).foldl (fun b n => b.barSettle n 1025) b

/-- Record the arrival of threads at barrier `n` (R165): a second arrival counts toward the next use. -/
def Block.arrive (b : Block) (n pc now limit : Nat) (ts : List Nat) : Block :=
  { b with bars := lmod (fun x =>
      let a := ts.foldl (fun l t =>
        match l.find? (fun y => decide (y.1 = t)) with
        | some _ => lupdate (fun y => decide (y.1 = t)) (fun y => (y.1, y.2 + 1)) l
        | none => l ++ [(t, 1)]) x.arrivals
      { x with arrivals := a, since := x.since <|> (if ts = [] then none else some now),
               limit := if x.since.isSome then x.limit else limit,
               pcs := x.pcs ++ (ts.filter (fun t => decide (x.count t = 0))).map (fun t => (t, pc)),
               later := x.later ++ (ts.filter (fun t => decide (1 ≤ x.count t))).map (fun t => (t, now, limit, pc)) }) b.bars n }

/-- A parked path is satisfied (R165, R168). -/
def Park.ok (k : Park) : Bool :=
  match k.kind with
  | .bar _ need => need.all (fun y => decide (y.2 = 0))
  | .wait _ _ ls => ls.all (fun y => y.got.isSome)

/-- The lanes of a parked path that wait: at a signal wait every active lane of the path (R166). -/
def Park.waiting (k : Park) : List Nat :=
  match k.kind with
  | .bar _ need => (need.filter (fun y => decide (y.2 ≠ 0))).map (·.1)
  | .wait _ _ ls => ls.map (·.lane)

/-- The condition of a wait (R168). -/
def waitHolds (op word val : Nat) : Bool :=
  match op with
  | 0 => decide (val ≤ word)
  | 1 => decide (word = val)
  | 2 => decide (word ≠ val)
  | _ => decide (word &&& val ≠ 0)

/-- The watchdog limit of a tile in ticks of 10 ns (R173). -/
def wdLimit (s : State) (t : Nat) : Nat := s.rdF (pTile t) 0x108 0 16 * 100000

/-- Lanes parked on signal word `w` of a tile whose condition now holds are satisfied (R168). -/
def wakeWord (s : State) (t w v : Nat) : State :=
  s.modTile t (fun T => { T with blocks := T.blocks.map (fun b => { b with groups := b.groups.map (fun g => { g with
    parked := g.parked.map (fun k =>
      match k.kind with
      | .wait d o ls => { k with kind := .wait d o (ls.map (fun y =>
          if y.word = w ∧ y.got = none ∧ waitHolds y.op v y.val = true then { y with got := some v } else y)) }
      | .bar _ _ => k) }) }) })

/-- A signal word takes a value in the signal unit, and waiting lanes see it (R87, R168). -/
def setSig (s : State) (t w v : Nat) : State := wakeWord (s.twr t (sigOff w) (toLE 8 v)) t w v

/-- The new value of a signal word under an operation: 0 st, 1 add, 2 or (R168). -/
def sigApply (op old v : Nat) : Nat :=
  match op with
  | 0 => v
  | 1 => (old + v) % 2 ^ 64
  | _ => old ||| v

/-- A write to a signal word that is no release that the detector remembers: the word's tag goes. -/
def untagSig (s : State) (t w : Nat) : State :=
  s.modTile t (fun T => { T with tags := T.tags.filter (fun y => decide (y.loc ≠ sigOff w)) })

/-- A release write to a signal word is remembered while the tile's detector is on (03 R84, R85). -/
def tagSig (s : State) (t w scope : Nat) (r : RelTag) : State :=
  if s.rdB (pTile t) 0x6F0 0 then
    s.modTile t (fun T => { T with
      tags := { r with loc := sigOff w, len := 8, scope := scope } :: T.tags.filter (fun y => decide (y.loc ≠ sigOff w)) })
  else untagSig s t w

/-- An acquire of a signal word by an agent of its tile (03 R85). -/
def sigAcquire (s : State) (t w scope : Nat) (me : RelTag) : State :=
  if s.rdB (pTile t) 0x6F0 0 then
    match (s.tile t).tags.find? (fun y => decide (y.loc = sigOff w)) with
    | some r =>
      if scopeHolds r.scope r me && scopeHolds scope me r then s
      else countMismatch s (pTile t) (sigOff w) r.scope scope r.remote
    | none => s
  else s

/-- The lanes parked on word `w` that value `v` satisfies: ORD byte and agent of each. -/
def newlyMet (s : State) (t w v : Nat) : List (Nat × RelTag) :=
  ((s.tile t).blocks.map (fun b => ((List.range b.groups.length).map (fun i =>
    match b.groups[i]? with
    | none => []
    | some g => (g.parked.map (fun k =>
        match k.kind with
        | .wait _ o ls => (ls.filter (fun y => decide (y.word = w ∧ y.got = none) && waitHolds y.op v y.val)).map
            (fun _ => (o, threadTag t (b.id * 32 + i)))
        | .bar _ _ => [])).foldl (· ++ ·) [])).foldl (· ++ ·) [])).foldl (· ++ ·) []

/-- An update of a signal word of a tile as a release at `scope` by an agent (R169); waiting lanes that it satisfies acquire it. -/
def sigRelease (s : State) (t w op v scope : Nat) (r : RelTag) : State :=
  let x := sigApply op (s.sig t w) v
  (newlyMet s t w x).foldl (fun s y => if ordAcq y.1 then sigAcquire s t w (ordScope y.1) y.2 else s)
    (tagSig (setSig s t w x) t w scope r)

/-- An update of a signal word that is no release. -/
def sigPlain (s : State) (t w op v : Nat) : State := untagSig (setSig s t w (sigApply op (s.sig t w) v)) t w

end Sys2Proof.Machine
end

