-- ==== Sys2Proof/Machine/Engines.lean ====
section
/-! DEFINITION. What the matrix, vector and tile DMA engines share: issue and intake (05_thread_groups.md R171, 06 R183), completion and operands-read signals (06 R192, R193), fault latching and halting (06 R205), and the watchdog's report of a wait (R173). -/

namespace Sys2Proof.Machine

open Sys2Proof

/-- Places in an engine's intake: 64, less the entries that an armed disturbance withholds, at least 1 (16_bringup_errors_test.md R524). -/
def intakeCap (s : State) (t : Nat) : Nat :=
  let d := s.rd64 (pTile t) 0x30
  let held := if bit d 63 then bits d 24 8 else 0
  if held < 64 then 64 - held else 1

/-- The byte of a descriptor, a field of it, a bit field of it. -/
def Desc.le (d : Desc) (off n : Nat) : Nat := leAt d.bytes off n
def Desc.bf (d : Desc) (off lo len : Nat) : Nat := bits (leAt d.bytes off 4) lo len

/-- The first offending field of a list of conditions, each with the byte offset of its field. -/
def firstField (l : List (Bool × Nat)) : Option Nat := (l.find? (·.1)).map (·.2)

/-- Every byte of a list of descriptor ranges is zero; otherwise the range's offset. -/
def nonZero (d : Desc) (l : List (Nat × Nat)) : List (Bool × Nat) := l.map (fun x => (decide (d.le x.1 x.2 ≠ 0), x.1))

/-- A descriptor enters an intake: the engine copies `n` bytes from scratchpad (06 R183). -/
def mkDesc (tc : TC) (s : State) (off n : Nat) : Desc :=
  ⟨(s.tile tc.gr.tile).nextId, s.trd tc.gr.tile off n, off,
    ⟨tc.blk.launch.queue, tc.blk.launch.cmd, some tc.blk.id, tc.blk.index⟩, tc.blk.launch.extents,
    trawIn s tc.gr.tile off n, false, none⟩

/-- Checks of an issue. -/
def checksIssue (tc : TC) : List (Bool × Nat) := illegalCommon tc.x 0 false false ++ [(tc.badR tc.x.a 1, 2)]

/-- An issue instruction (R171): register a of the lowest active lane names a descriptor of `n` bytes; a full intake makes the issue wait. -/
def issueOp (gr : GRef) (x : TInstr) (s : State) (n : Nat) (len : Tile → Nat) (push : Desc → Tile → Tile) : Out :=
  runThread gr x s (fun tc s => guarded tc s (checksIssue tc)
    (match tc.act with
     | [] => s.modGroup tc.gr (fun g => g.advance tc.len)
     | l :: _ =>
       let off := tc.get l tc.x.a 1
       if off % 64 ≠ 0 then threadFault tc s 3 off
       else if 0x1800000 < off + n then threadFault tc s 5 off
       else if intakeCap s tc.gr.tile ≤ len (s.tile tc.gr.tile) then s
       else
         (s.modTile tc.gr.tile (fun T => { push (mkDesc tc s off n) T with nextId := T.nextId + 1 })).modGroup tc.gr
           (fun g => g.advance tc.len)))

/-- issue.mx: 128 bytes (06 R183). -/
def execIssueMx (gr : GRef) (x : TInstr) (s : State) : Out :=
  issueOp gr x s 128 (fun T => T.mx.intake.length) (fun d T => { T with mx := { T.mx with intake := T.mx.intake ++ [d] } })
/-- issue.vx: 256 bytes (07 R213). -/
def execIssueVx (gr : GRef) (x : TInstr) (s : State) : Out :=
  issueOp gr x s 256 (fun T => T.vx.intake.length) (fun d T => { T with vx := { T.vx with intake := T.vx.intake ++ [d] } })
/-- issue.dma: 128 bytes (08 R243). -/
def execIssueDma (gr : GRef) (x : TInstr) (s : State) : Out :=
  issueOp gr x s 128 (fun T => T.dma.intake.length) (fun d T => { T with dma := { T.dma with intake := T.dma.intake ++ [d] } })

/-- The scope at which an engine's signal is released: that of its ORD, or tile where the ORD is invalid (06 R193). -/
def sigScope (ord : Nat) : Nat := if ordBad ord [2] [1, 2, 3, 4] then 1 else ordScope ord

/-- An engine adds `v` to a signal word and sets `marks`, in one operation, as a release (06 R193). -/
def engSignal (s : State) (t word v marks ord : Nat) : State :=
  sigRelease s t word 0 (((s.sig t word + v) % 2 ^ 64) ||| marks) (sigScope ord) (engineTag t)

/-- The issuing block is still resident. -/
def issuerLives (s : State) (t : Nat) (d : Desc) : Bool :=
  match d.iss.blk with
  | some b => ((s.tile t).block b).isSome
  | none => false

/-- The descriptor's block is being failed by an engine (06 R205). -/
def isHalted (s : State) (t : Nat) (d : Desc) (halted : List Nat) : Bool :=
  match d.iss.blk with
  | some b => halted.contains b && issuerLives s t d
  | none => false

/-- The latch of an engine's fault registers: INFO, DESC, TAG and BLOCK in a row, then the rest as the engine lays them out; while INFO.valid is set, only LOST counts (06 R205). -/
def latchEng (s : State) (t info lost : Nat) (words : List (Nat × Nat)) : State :=
  let p := pTile t
  if s.rdB p info 31 then s.inc p lost 1 else words.foldl (fun s w => s.wr p w.1 w.2) s

/-- Close the use of a watchdog report: the BS registers take it while they are free, and the flag is raised with its record (05_thread_groups.md R173, R176). -/
def stallReport (s : State) (t kind bar word block queue : Nat) (waiting missing : List Nat) : State :=
  let p := pTile t
  let info := bar + 8 * kind + 2 ^ 31
  let mask (l : List Nat) (w : Nat) : Nat := maskOf ((l.filter (fun x => decide (x / 32 = w))).map (· % 32))
  let s1 := if s.rdB p 0x240 31 then s
    else
      let s0 := ((s.wr p 0x240 info).wr p 0x244 block).wr p 0x248 word
      (List.range 32).foldl (fun s w => (s.wr p (0x300 + 4 * w) (mask waiting w)).wr p (0x380 + 4 * w) (mask missing w)) s0
  raise s1 p (if kind = 0 then 9 else 10) (if kind = 0 then 0x13 else 0x14) queue (sigOff word * kind) [info, block, word, mask waiting 0]

end Sys2Proof.Machine
end

