-- ==== Sys2Proof/Machine/Dma.lean ====
section
/-! DEFINITION. The tile DMA engine and the register window (08_tile_data_movement.md R243-R269). -/

namespace Sys2Proof.Machine

open Sys2Proof

/-! The descriptor (R245-R247). Side 0 is the source, side 1 the destination. -/

def dmaVer (d : Desc) : Nat := d.le 0 1
def dmaOp (d : Desc) : Nat := d.bf 1 0 4
/-- The side is global. -/
def dmaGlobal (d : Desc) (k : Nat) : Bool := decide (d.bf (2 + k) 0 1 = 1)
def dmaExtIx (d : Desc) (k : Nat) : Nat := d.bf (2 + k) 1 4
/-- The sides that a descriptor uses. -/
def dmaSides (d : Desc) : List Nat := if dmaOp d = 0 then [0, 1] else if dmaOp d = 1 then [1] else []
def dmaD0 (d : Desc) : Nat := d.bf 4 0 24
def dmaD1 (d : Desc) : Nat := d.le 8 2
def dmaD2 (d : Desc) : Nat := if dmaVer d = 1 then 1 else d.le 0xA 2
def dmaRows (d : Desc) : Nat := dmaD1 d * dmaD2 d
/-- Bytes that a descriptor writes. -/
def dmaTotal (d : Desc) : Nat := if dmaOp d ≤ 1 then dmaD0 d * dmaRows d else 0
def dmaConn (d : Desc) : Nat := d.bf 0xC 0 14
def dmaWaitEn (d : Desc) : Bool := decide (dmaVer d = 3) && decide (d.bf 0x58 12 1 = 1)
def dmaRdEn (d : Desc) : Bool := decide (dmaVer d = 3) && decide (d.bf 0x5C 12 1 = 1)
def dmaSigDst (d : Desc) : Nat := if dmaVer d = 3 then d.bf 0x70 0 2 else 0
def dmaTag (d : Desc) : Nat := if dmaVer d = 3 then d.le 0x14 4 else 0

/-- The address of the first byte of row `r` of a side (R248). -/
def dmaRow (d : Desc) (k r : Nat) : Int :=
  (d.le (0x20 + 8 * k) 8 : Int) + sint 64 (d.le (0x30 + 8 * k) 8) * (r % dmaD1 d : Nat)
    + (if dmaD2 d = 1 then 0 else sint 64 (d.le (0x40 + 8 * k) 8)) * (r / dmaD1 d : Nat)

/-- Reserved bits, reserved values and sizes of R246 and R247; the first offending field. Fields that R246 ignores are not looked at. -/
def dmaBad (d : Desc) : Option Nat :=
  let v := dmaVer d
  let op := dmaOp d
  let data := op ≠ 2
  let side (k : Nat) : Bool := (dmaSides d).contains k
  firstField (
    [(decide ((if v = 1 then 0 else if v = 2 then 1 else 2) < op) || decide (d.bf 1 4 4 ≠ 0), 0x01),
     (side 0 && decide (d.bf 2 5 3 ≠ 0), 0x02), (side 1 && decide (d.bf 3 5 3 ≠ 0), 0x03),
     (data && (decide (dmaD0 d = 0) || decide (2 ^ 30 < dmaTotal d)), 0x04), (data && decide (d.bf 4 24 8 ≠ 0), 0x07),
     (data && decide (dmaD1 d = 0), 0x08), (data && decide (dmaD2 d = 0), 0x0A),
     (decide (v = 1) && decide (dmaConn d ≠ 0), 0x0C), (decide (d.bf 0xC 14 18 ≠ 0), 0x0D),
     (decide (d.bf 0x10 12 4 ≠ 0), 0x11), (decide (d.bf 0x10 24 8 ≠ 0), 0x13),
     (decide (v ≠ 3) && decide (d.le 0x14 4 ≠ 0), 0x14)]
    ++ (dmaSides d).map (fun k => (!dmaGlobal d k && decide (d.le (0x24 + 8 * k) 4 ≠ 0), 0x20 + 8 * k))
    ++ (if v = 3 then
      [(dmaWaitEn d && decide (d.bf 0x58 13 3 ≠ 0), 0x59), (dmaWaitEn d && decide (d.bf 0x58 24 8 ≠ 0), 0x5B),
       (dmaRdEn d && decide (d.bf 0x5C 13 3 ≠ 0), 0x5D), (dmaRdEn d && decide (d.bf 0x5C 24 8 ≠ 0), 0x5F),
       (decide (dmaSigDst d = 3), 0x70)]
      ++ (if dmaSigDst d = 0 then [] else
        [(decide (d.bf 0x70 2 6 ≠ 0), 0x70), (decide (d.bf 0x70 28 4 ≠ 0), 0x73), (decide (159 < d.le 0x74 1), 0x74),
         (decide (d.bf 0x74 8 24 ≠ 0), 0x75)])
     else []))

/-- An ORD byte at fault (R261). -/
def dmaOrdBad (d : Desc) : Option Nat :=
  firstField (
    [(ordBad (d.le 0x12 1) [2] [1, 2, 3, 4], 0x12)]
    ++ (if dmaWaitEn d then [(ordBad (d.le 0x5A 1) [1] [1, 2, 3, 4], 0x5A)] else [])
    ++ (if dmaRdEn d then [(ordBad (d.le 0x5E 1) [2] [1, 2, 3, 4], 0x5E)] else [])
    ++ (if dmaSigDst d = 0 then [] else [(ordBad (d.le 0x71 1) [2] [1, 2, 3, 4], 0x71)]))

/-! Pieces of a side: runs of consecutive bytes of one row at consecutive addresses. -/

/-- A run: first linear index, length, space (0 this tile, 1 memory of this module, 2 another module) and address in it. -/
structure Piece where
  i : Nat
  n : Nat
  sp : Nat
  a : Nat
deriving DecidableEq, Repr

/-- The run of a side that begins at linear index `i` and ends before `hi`; a fault with its address (R249, R310). -/
def dmaPiece (s : State) (d : Desc) (k i hi : Nat) : Except (Nat × Nat) Piece :=
  let b := i % dmaD0 d
  let n0 := if dmaD0 d - b < hi - i then dmaD0 d - b else hi - i
  let a := (dmaRow d k (i / dmaD0 d) + b).toNat
  if !dmaGlobal d k then .ok ⟨i, n0, 0, a⟩
  else match d.extents[dmaExtIx d k]? with
  | none => .error (4, 0)
  | some e =>
    match extFault s e a with
    | some f => .error f
    | none =>
      let ga := extAddr s e a
      let lim := if e.kind = 0 then 2 ^ 40 - ga % 2 ^ 40 else 2 ^ granLog e.gran - (e.firstOff + a) % 2 ^ granLog e.gran
      let n := if lim < n0 then lim else n0
      match locate s ga n with
      | .unmapped => .error (7, ga)
      | .loc x => .ok ⟨i, n, 1, x⟩
      | .remote _ _ => .ok ⟨i, n, 2, ga⟩

/-- The runs of the linear range `[i, hi)` of a side, up to the first fault. -/
def dmaPieces (s : State) (d : Desc) (k : Nat) : Nat → Nat → Nat → List Piece × Option (Nat × Nat)
  | 0, _, _ => ([], none)
  | f + 1, i, hi =>
    if hi ≤ i then ([], none)
    else match dmaPiece s d k i hi with
    | .error e => ([], some e)
    | .ok p =>
      let r := dmaPieces s d k f (i + (if p.n = 0 then 1 else p.n)) hi
      (p :: r.1, r.2)

/-! The check (R249, R261). -/

/-- The rows of a side. -/
def dmaRowList (d : Desc) (k : Nat) : List Int := (List.range (dmaRows d)).map (dmaRow d k)

/-- A global side's row range leaves the extent (R249). -/
def dmaExtBad (d : Desc) (k : Nat) : Option Nat :=
  if !dmaGlobal d k then none
  else match d.extents[dmaExtIx d k]? with
  | none => some (0x02 + k)
  | some e => if (dmaRowList d k).any (fun a => decide (a < 0) || decide ((e.len : Int) < a + dmaD0 d)) then some (0x20 + 8 * k) else none

/-- The kind 0 extent of a global side. -/
def dmaRun (d : Desc) (k : Nat) : Option Extent :=
  if dmaGlobal d k then
    match d.extents[dmaExtIx d k]? with
    | some e => if e.kind = 0 then some e else none
    | none => none
  else none

/-- What a side that can be resolved in the check meets: the first unmapped address, or the nodes of its remote bytes. -/
def dmaResolve (s : State) (d : Desc) (k : Nat) : List Nat × Option Nat :=
  match dmaRun d k with
  | none => ([], none)
  | some _ =>
    let r := dmaPieces s d k (dmaTotal d) 0 (dmaTotal d)
    (r.1.filterMap (fun p => if p.sp = 2 then some (bits p.a 40 20) else none), r.2.map (·.2))

/-- What is wrong with a per-tile side: SPACE_DENIED or TILE_ADDR_INVALID with the first address refused (R63, R64, R249). -/
def dmaTileBad (d : Desc) (k : Nat) (code : Nat) : Option Nat :=
  let n : Int := dmaD0 d
  if dmaGlobal d k then none
  else if code = 6 then
    (dmaRowList d k).findSome? (fun a =>
      if a < 0x1A08000 && decide (0x1900000 < a + n) then some (if a < 0x1900000 then 0x1900000 else a.toNat) else none)
  else
    let first := dmaRow d k 0
    let (lo, hi) : Int × Int := if first < 0x1800000 then (0, 0x1800000) else (0x1800000, 0x1900000)
    (dmaRowList d k).findSome? (fun a =>
      if a < lo || hi ≤ a then some (uimg 32 a) else if hi < a + n then some hi.toNat else none)

/-- The connection is bound to the job of the tile (R249). -/
def dmaConnOk (s : State) (t : Nat) (d : Desc) : Bool := boundTo s (pConn (dmaConn d)) (s.rd (pTile t) 0x2C)

/-- The check of a descriptor: code, field, address, and whether the address is global (R261, in the order of its table). -/
def dmaCheck (s : State) (t : Nat) (d : Desc) : Option (Nat × Nat × Nat × Nat) :=
  let v := dmaVer d
  let sides := dmaSides d
  match d.raw with
  | some a => some (0x23, 0, a, 0)
  | none =>
    if v = 0 ∨ 3 < v ∨ v < s.rdF (pTile t) 0x114 0 2 then some (0x28, 0, 0, 0)
    else match dmaBad d with
    | some f => some (0x29, f, 0, 0)
    | none =>
      let inExt := sides.all (fun k => (dmaExtBad d k).isNone)
      let res := sides.map (fun k => (k, if inExt then dmaResolve s d k else ([], none)))
      let rem := res.filter (fun x => decide (x.2.1 ≠ []))
      let nodes := (res.map (fun x => x.2.1)).foldl (· ++ ·) []
      if rem ≠ [] ∧ (v = 1 ∨ rem.length = 2) then some (0x29, 0x02 + ((rem.head?).map (·.1)).getD 0, 0, 0)
      else match dmaOrdBad d with
      | some f => some (0x0A, f, 0, 0)
      | none =>
        match sides.findSome? (dmaExtBad d) with
        | some f => some (0x04, f, 0, 0)
        | none =>
          match res.findSome? (fun x => x.2.2.map (fun a => (x.1, a))) with
          | some (k, a) => some (0x07, 0x20 + 8 * k, a, 1)
          | none =>
            if (nodes ≠ [] ∨ dmaSigDst d = 2) ∧
               (!dmaConnOk s t d || nodes.any (fun n => decide (n ≠ s.rdF (pConn (dmaConn d)) 0x108 0 20))) = true then
              some (0x2A, 0x0C, 0, 0)
            else
              let perm (k : Nat) : Bool :=
                dmaGlobal d k && (match d.extents[dmaExtIx d k]? with
                  | some e => decide (e.perm &&& (k + 1) = 0)
                  | none => false)
              match sides.findSome? (fun k => if perm k then some (0x02 + k, 0) else (dmaTileBad d k 6).map (fun a => (0x20 + 8 * k, a))) with
              | some (f, a) => some (0x06, f, a, 0)
              | none =>
                (sides.findSome? (fun k => (dmaTileBad d k 5).map (fun a => (0x20 + 8 * k, a)))).map (fun x => (0x05, x.1, x.2, 0))

/-! State changes. -/

def State.modDma (s : State) (t : Nat) (f : DmaEng → DmaEng) : State := s.modTile t (fun T => { T with dma := f T.dma })

def DmaEng.modJob (e : DmaEng) (uid : Nat) (f : DmaJob → DmaJob) : DmaEng :=
  { e with jobs := lupdate (fun j => decide (j.d.uid = uid)) f e.jobs }

/-- The job in slot `n`. -/
def DmaEng.inSlot (e : DmaEng) (n : Nat) : Option DmaJob := e.jobs.find? (fun j => decide (j.slot = some n))

/-- A descriptor fault (R262): latched, flagged, recorded, kept for the command; with halt_on_fault the block's later descriptors fail. -/
def dmaFault (s : State) (t : Nat) (d : Desc) (code field addr kind prog : Nat) : State :=
  let info := code + 256 * kind + 2 ^ 31
  let s1 := latchEng s t 0x550 0x574
    [(0x550, info), (0x554, d.off), (0x558, dmaTag d), (0x55C, d.iss.index), (0x560, addr), (0x564, addr / 2 ^ 32),
     (0x568, prog), (0x56C, field), (0x570, d.iss.queue)]
  let s2 := raise s1 (pTile t) 17 code d.iss.queue addr [info, d.off, dmaTag d, d.iss.index]
  let s3 := cmdFault s2 d.iss.cmd ⟨code, 4, t, d.iss.index⟩
  match d.iss.blk with
  | some b =>
    if s.rdB (pTile t) 0x114 2 && issuerLives s t d && !(s.tile t).dma.halted.contains b then
      raise (s3.modDma t (fun e => { e with halted := e.halted ++ [b] })) (pTile t) 18 0 d.iss.queue
    else s3
  | none => s3

/-- The head descriptor fails: it owes its completion, and its source-read signal unless its version was refused. -/
def dmaFailHead (s : State) (t : Nat) (d : Desc) (code field addr kind : Nat) : State :=
  (dmaFault s t d code field addr kind 0).modDma t (fun e =>
    { e with intake := e.intake.tail,
             jobs := e.jobs ++ [⟨d, none, 0, [], s.ref, 0, false, code = 0x28 || !dmaRdEn d, 2, some code, none⟩] })

/-- A checked head of a block that is being failed (R262). -/
def dmaAbortWaiting (s : State) (t : Nat) : State :=
  match (s.tile t).dma.intake with
  | d :: _ => if d.checked && isHalted s t d (s.tile t).dma.halted then dmaFailHead s t d 0x2B 0 0 0 else s
  | [] => s

/-- The global address of a local one, as DMA_FAULT_ADDR reports it (R265). -/
def globalOf (s : State) (a : Nat) : Nat := nodeId s * 2 ^ 40 + a

/-- A started descriptor fails (R262) with code, field, address and address kind: its parts on the fabric are still awaited before its completion. -/
def dmaFailJob (s : State) (t : Nat) (j : DmaJob) (code field addr kind : Nat) : State :=
  let prog := match j.slot with | some n => s.rd (pTile t) (0x510 + 16 * n) | none => 0
  dmaAbortWaiting ((dmaFault s t j.d code field addr kind prog).modDma t (fun e =>
    e.modJob j.d.uid (fun j => { j with fail := some code }))) t

/-- A write of a descriptor has failed: a later signal of its block, which would cover the write, fails with it (03 R82). -/
def dmaWriteLost (s : State) (t : Nat) (d : Desc) (code : Nat) : State :=
  match d.iss.blk with
  | some b => s.modDma t (fun e => if e.lost.any (fun x => decide (x.1 = b)) then e else { e with lost := e.lost ++ [(b, code)] })
  | none => s

/-- The code of a failed write that a signal of a descriptor would cover. -/
def dmaLost (s : State) (t : Nat) (d : Desc) : Option Nat :=
  d.iss.blk.bind (fun b => ((s.tile t).dma.lost.find? (fun x => decide (x.1 = b))).map (·.2))

/-- The first linear index not yet performed (R256). -/
def DmaJob.low (j : DmaJob) : Nat := j.parts.foldl (fun m p => if p.start < m then p.start else m) j.pos

/-- Every write of the descriptor has been performed. -/
def DmaJob.moved (j : DmaJob) : Bool := decide (dmaTotal j.d ≤ j.pos) && decide (j.parts = [])

/-- The job after an access has been performed: a new stall interval begins, and the slot's registers follow (R256, R257, R263). -/
def dmaMoved (s : State) (t : Nat) (j : DmaJob) : State :=
  let p := pTile t
  let j' := { j with since := s.ref, limit := s.rdF p 0x114 16 16 * 1000, stalled := false }
  let s1 := s.modDma t (fun e => e.modJob j.d.uid (fun _ => j'))
  match j.slot with
  | none => s1
  | some n =>
    let done := if j.moved then ceilDiv (dmaTotal j.d) 128 * 128 else j.low
    let word := if j.moved then done / 128 % 2 ^ 24 + 100 * 2 ^ 24 else progressWord j.low (dmaTotal j.d) 128
    (s1.wr p (0x510 + 16 * n) word).wrF p (0x518 + 16 * n) 1 1 0

/-! The intake head (R244, R251, R255). -/

/-- DMA_DESC_CHECK. -/
def execDmaDescCheck (t : Nat) (s : State) : Out :=
  onUnit (decide (t < 160))
    (match (s.tile t).dma.intake with
     | [] => s
     | d :: _ =>
       if !tileOn s t || d.checked then s
       else match dmaCheck s t d with
       | some (c, f, a, k) => dmaAbortWaiting (dmaFailHead s t d c f a k) t
       | none =>
         if isHalted s t d (s.tile t).dma.halted then dmaFailHead s t d 0x2B 0 0 0
         else s.modDma t (fun e =>
           { e with intake := { d with checked := true, wait := if dmaWaitEn d then some (s.ref, wdLimit s t) else none } :: e.intake.tail }))

/-- DMA_WAIT_SATISFIED: the wait word has reached its threshold, and is acquired (R251). -/
def execDmaWaitSatisfied (t : Nat) (s : State) : Out :=
  onUnit (decide (t < 160))
    (match (s.tile t).dma.intake with
     | [] => s
     | d :: _ =>
       if tileOn s t && d.checked && d.wait.isSome && decide (d.le 0x60 8 ≤ s.sig t (d.bf 0x58 0 12)) then
         (sigAcquire s t (d.bf 0x58 0 12) (ordScope (d.le 0x5A 1)) (engineTag t)).modDma t (fun e =>
           { e with intake := { d with wait := none } :: e.intake.tail })
       else s)

/-- DMA_SLOT_START: the head takes the lowest free slot. -/
def execDmaSlotStart (t : Nat) (s : State) : Out :=
  onUnit (decide (t < 160))
    (match (s.tile t).dma.intake with
     | [] => s
     | d :: _ =>
       match (List.range 4).find? (fun n => ((s.tile t).dma.inSlot n).isNone) with
       | none => s
       | some n =>
         if tileOn s t && d.checked && d.wait.isNone then
           let p := pTile t
           let j : DmaJob := ⟨d, some n, 0, [], s.ref, 0, false, !dmaRdEn d, if dmaSigDst d = 0 then 2 else 0, none, none⟩
           let s1 := s.modDma t (fun e => { e with intake := e.intake.tail, jobs := e.jobs ++ [j] })
           let s2 := ((s1.wr p (0x514 + 16 * n) d.off).wr p (0x518 + 16 * n) (1 + d.iss.queue * 2 ^ 16)).wr p (0x51C + 16 * n) (dmaTag d)
           dmaMoved s2 t j
         else s)

/-! The transfer (R248, R250, R251). -/

/-- Two runs share a byte. -/
def Piece.meets (x y : Piece) : Bool := decide (x.sp = y.sp ∧ x.a < y.a + y.n ∧ y.a < x.a + x.n)

/-- The runs of one side of a job over some linear ranges. -/
def dmaSideRuns (s : State) (d : Desc) (k : Nat) (l : List (Nat × Nat)) : List Piece :=
  (l.map (fun r => (dmaPieces s d k (r.2 - r.1) r.1 r.2).1)).foldl (· ++ ·) []

/-- What a job has not yet written: the parts on the fabric and all that is still to move. -/
def DmaJob.unwritten (j : DmaJob) : List (Nat × Nat) :=
  j.parts.map (fun p => (p.start, p.start + p.len)) ++ (if j.fail.isSome then [] else [(j.pos, dmaTotal j.d)])

/-- What a job has not yet read. -/
def DmaJob.unread (j : DmaJob) : List (Nat × Nat) :=
  ((j.parts.filter (fun p => !p.write)).map (fun p => (p.start, p.start + p.len))) ++ (if j.fail.isSome then [] else [(j.pos, dmaTotal j.d)])

/-- An access is held behind an earlier descriptor (R251): it reads or writes what an earlier one writes, or writes what an earlier one reads. -/
def dmaHeld (s : State) (earlier : List DmaJob) (src dst : List Piece) : Bool :=
  earlier.any (fun j =>
    (dmaSideRuns s j.d 1 (if dmaOp j.d ≤ 1 then j.unwritten else [])).any (fun x => (src ++ dst).any x.meets)
    || (dmaSideRuns s j.d 0 (if dmaOp j.d = 0 then j.unread else [])).any (fun x => dst.any x.meets))

/-- Earlier jobs of the engine. -/
def DmaEng.before (e : DmaEng) (uid : Nat) : List DmaJob := e.jobs.takeWhile (fun j => decide (j.d.uid ≠ uid))

/-- The most bytes that a packet of the connection carries (12_krovmo_fabric.md R386). -/
def connLen (s : State) (c : Nat) : Nat := if s.rdF (pConn c) 0x200 0 4 = 1 then 1024 else 4096

/-- The field of a side's address where an access of that side meets an address fault (R265). -/
def dmaAddrField (k : Nat) (f : Nat × Nat) : Nat × Nat × Nat := (f.1, if f.1 = 7 then 0x20 + 8 * k else if f.1 = 4 then 2 + k else 0, f.2)

/-- The next bytes that a job moves: the destination run and the source runs that fill it; or a fault with its field and address. A block of this module's destination is one access; a remote side moves up to a packet, cut at a block's end (R251). -/
def dmaChunk (s : State) (d : Desc) (pos : Nat) : Except (Nat × Nat × Nat) (Piece × List Piece) :=
  match dmaPiece s d 1 pos (dmaTotal d) with
  | .error f => .error (dmaAddrField 1 f)
  | .ok w =>
    let far := w.sp = 2 || (dmaOp d = 0 && (match dmaPiece s d 0 pos (dmaTotal d) with | .ok r => decide (r.sp = 2) | .error _ => false))
    let lim := (if far then connLen s (dmaConn d) else 64) - w.a % 64
    let w' := { w with n := if lim < w.n then lim else w.n }
    if dmaOp d = 1 then .ok (w', [])
    else
      let r := dmaPieces s d 0 w'.n pos (pos + w'.n)
      match r.2 with
      | some f => .error (dmaAddrField 0 f)
      | none => .ok (w', r.1)

/-- The bytes of a local source run, or their fault: code, address, address kind. -/
def dmaRead (s : State) (t : Nat) (p : Piece) : Except (Nat × Nat × Nat) (List Byte) :=
  if p.sp = 0 then
    match trawIn s t p.a p.n with
    | some a => .error (0x23, a, 0)
    | none => .ok (s.trd t p.a p.n)
  else if p.sp = 1 then
    match memFault s p.a p.n with
    | some f => .error (f.1, f.2, 1)
    | none => .ok (s.hrd p.a p.n)
  else .ok (List.replicate p.n 0)

/-- The bytes of all source runs in order. -/
def dmaReadAll (s : State) (t : Nat) : List Piece → Except (Nat × Nat × Nat) (List Byte)
  | [] => .ok []
  | p :: r =>
    match dmaRead s t p with
    | .error f => .error f
    | .ok b =>
      match dmaReadAll s t r with
      | .error f => .error f
      | .ok bs => .ok (b ++ bs)

/-- Write bytes to a destination run of this module; an uncorrectable block covered in part fails back (11_memory_system.md R344). -/
def dmaWrite (s : State) (t : Nat) (a : Nat) (sp : Nat) (data : List Byte) : State × Option (Nat × Nat) :=
  if sp = 0 then (s.twr t a data, none) else memWrite s (.dma t) a data

/-- A fill's bytes from a linear index on (R248). -/
def dmaPattern (d : Desc) (i n : Nat) : List Byte := (List.range n).map (fun k => BitVec.ofNat 8 (bits (d.le 0x50 8) (8 * ((i + k) % 8)) 8))

/-- The connection of a started descriptor still serves it: bound to its job, or in that job's teardown, which the descriptor drains through (R258, 13 R416). -/
def dmaConnLive (s : State) (t : Nat) (d : Desc) : Bool :=
  let c := pConn (dmaConn d)
  decide ((bstate s c = 2 ∨ bstate s c = 3) ∧ s.rd c 0x2C = s.rd (pTile t) 0x2C)

/-- A remote run that may leave by the descriptor's connection; otherwise the code that it fails with and the field (R249, R265, 12 R386). -/
def dmaRemoteBad (s : State) (t : Nat) (d : Desc) (w : Piece) (src : List Piece) : Option (Nat × Nat) :=
  let far := (w :: src).filter (fun p => decide (p.sp = 2))
  if far = [] then none
  else if dmaVer d = 1 ∨ (w.sp = 2 ∧ src.any (fun p => decide (p.sp = 2)) = true) then some (0x29, if src.any (fun p => decide (p.sp = 2)) then 2 else 3)
  else if !dmaConnLive s t d || far.any (fun p => decide (bits p.a 40 20 ≠ s.rdF (pConn (dmaConn d)) 0x108 0 20)) then some (0x2A, 0xC)
  else none

/-! Copies whose footprints overlap (R250). -/

/-- The linear index whose destination byte is the byte `a` of space `sp`, among the destination's runs. -/
def dmaAt (runs : List Piece) (sp a : Nat) : Option Nat :=
  (runs.find? (fun p => decide (p.sp = sp ∧ p.a ≤ a ∧ a < p.a + p.n))).map (fun p => p.i + (a - p.a))

/-- What the copy reads at linear index `i`: the byte as the copy found it, or, where another index writes that byte, by a free choice what the copy writes there. The choices are followed from index to index as long as they lead on. -/
def dmaOpenByte (src dst : List Piece) (free : Nat) (old : List Byte) : Nat → Nat → Byte
  | 0, i => (old[i]?).getD 0
  | k + 1, i =>
    match src.find? (fun p => decide (p.i ≤ i ∧ i < p.i + p.n)) with
    | none => (old[i]?).getD 0
    | some p =>
      match dmaAt dst p.sp (p.a + (i - p.i)) with
      | none => (old[i]?).getD 0
      | some x =>
        let far := (src.find? (fun q => decide (q.i ≤ x ∧ x < q.i + q.n))).any (fun q => decide (q.sp = 2))
        if x = i ∨ far = true ∨ !bit (Config.freeWord (free + i)).toNat 0 then (old[i]?).getD 0 else dmaOpenByte src dst free old k x

/-- The source and destination runs of a whole copy of this module share bytes. -/
def dmaOverlaps (src dst : List Piece) : Bool := src.any (fun p => decide (p.sp ≠ 2) && dst.any p.meets)

/-- A copy about to make its first access keeps its source bytes where its footprints overlap. -/
def dmaKeepOld (s : State) (t : Nat) (j : DmaJob) : State × DmaJob :=
  let n := dmaTotal j.d
  let src := (dmaPieces s j.d 0 n 0 n).1
  if decide (j.pos ≠ 0) || decide (dmaOp j.d ≠ 0) || j.ovl.isSome || !dmaOverlaps src (dmaPieces s j.d 1 n 0 n).1 then (s, j)
  else
    let b := (src.map (fun p => if p.sp = 0 then s.trd t p.a p.n else if p.sp = 1 then s.hrd p.a p.n else List.replicate p.n 0)).foldl (· ++ ·) []
    ({ s with free := s.free + n }, { j with ovl := some (s.free, b) })

/-- The bytes that a copy writes at the indices of an access: as read, or as R250 leaves them open. -/
def dmaBytes (s : State) (j : DmaJob) (i : Nat) (b : List Byte) : List Byte :=
  match j.ovl with
  | none => b
  | some (free, old) =>
    let n := dmaTotal j.d
    let src := (dmaPieces s j.d 0 n 0 n).1
    let dst := (dmaPieces s j.d 1 n 0 n).1
    (List.range b.length).map (fun k => dmaOpenByte src dst free old n (i + k))

/-- The job stands as given; where an access was performed with it, that is movement (R257). -/
def dmaStep (s : State) (t : Nat) (j : DmaJob) (performed : Bool) : State :=
  if performed then dmaMoved s t j else s.modDma t (fun e => e.modJob j.d.uid (fun _ => j))

/-- The shared cache serves the runs of this module's memory that an access reads (11 R334). -/
def dmaTouch (s : State) (t : Nat) (src : List Piece) : State :=
  src.foldl (fun s p => if p.sp = 1 then sliceTouch s (.dma t) p.a p.n false else s) s

/-- One access of a job is made (R248-R251): blocks of this module are read and written at once; remote parts are handed to the connection and end with their answers. -/
def dmaMove (s0 : State) (t : Nat) (j0 : DmaJob) (w : Piece) (src : List Piece) : State :=
  let d := j0.d
  let far := src.filter (fun p => decide (p.sp = 2))
  let near := src.any (fun p => decide (p.sp ≠ 2))
  match dmaReadAll s0 t src with
  | .error (c, a, k) => dmaFailJob (if c = 0x10 then ueEvent s0 (.dma t) a else s0) t j0 c 0 (if k = 1 then globalOf s0 a else a) k
  | .ok b =>
    let kept := dmaKeepOld s0 t j0
    let s := dmaTouch kept.1 t src
    let j := kept.2
    let data := if dmaOp d = 1 then dmaPattern d w.i w.n else dmaBytes s j w.i b
    let j1 := { j with pos := j.pos + w.n }
    if w.sp = 2 then
      let r : OutReq := ⟨1, 0, w.n, t, 2, bits w.a 40 20, w.a % 2 ^ 40, data, .dma t d.uid w.i⟩
      connSend (countAccess (dmaStep s t { j1 with parts := j.parts ++ [⟨w.i, w.n, 1, [], true⟩] } near) 0 w.a w.n) (dmaConn d) r
    else if far ≠ [] then
      far.foldl (fun s p =>
          connSend (countAccess s 0 p.a p.n) (dmaConn d) ⟨2, 0, p.n, t, 2, bits p.a 40 20, p.a % 2 ^ 40, [], .dma t d.uid p.i⟩)
        (dmaStep s t { j1 with parts := j.parts ++ [⟨w.i, w.n, far.length, data, false⟩] } near)
    else
      match dmaWrite s t w.a w.sp data with
      | (s1, some f) => dmaFailJob (dmaWriteLost s1 t d f.1) t j f.1 0 (globalOf s f.2) 1
      | (s1, none) => dmaMoved s1 t j1

/-- DMA_ACCESS_PERFORMED: the transfer in slot `n` makes its next access; it waits behind an earlier descriptor (R251), behind an open stall window (16 R524), where memory holds requests (01 R22), where the connection is not OPEN, or 1 MiB beyond its position (R256). On a DOWN connection it fails with LINK_DOWN (DEDUCED, log 67). -/
def execDmaAccessPerformed (t n : Nat) (s : State) : Out :=
  onUnit (decide (t < 160) && decide (n < 4))
    (match (s.tile t).dma.inSlot n with
     | none => s
     | some j =>
       if !tileOn s t || s.stalls.contains (pTile t) || j.fail.isSome || decide (dmaTotal j.d ≤ j.pos) then s
       else match dmaChunk s j.d j.pos with
       | .error (c, f, a) => dmaFailJob (if c = 0x10 then ueEvent s (.dma t) a else s) t j c f (if c = 7 then a else globalOf s a) 1
       | .ok (w, src) =>
         let far := (w :: src).any (fun p => decide (p.sp = 2))
         if dmaHeld s ((s.tile t).dma.before j.d.uid) src [w] then s
         else if (w :: src).any (fun p => decide (p.sp = 1) && memHeld s (.dma t) p.a p.n) then s
         else match dmaRemoteBad s t j.d w src with
         | some c => dmaFailJob s t j c.1 c.2 0 0
         | none =>
           if far && decide (connState s (dmaConn j.d) = 5) then dmaFailJob (if w.sp = 2 then dmaWriteLost s t j.d 0x12 else s) t j 0x12 0 0 0
           else if (far && decide (connState s (dmaConn j.d) ≠ 3)) || decide (j.low / 128 * 128 + 2 ^ 20 < j.pos + w.n) then s
           else dmaMove s t j w src)

/-- The answer to a remote part arrives (12_krovmo_fabric.md R383): data fills its destination bytes, and once a part is whole its blocks are written. -/
def dmaPartDone (s : State) (t uid at_ : Nat) (body : List Byte) : State :=
  match (s.tile t).dma.jobs.find? (fun j => decide (j.d.uid = uid)) with
  | none => s
  | some j =>
    if at_ = 2 ^ 40 then s.modDma t (fun e => e.modJob uid (fun j => { j with sig := 2 }))
    else match j.parts.find? (fun p => decide (p.start ≤ at_ ∧ at_ < p.start + p.len)) with
    | none => s
    | some p =>
      let p1 := { p with need := p.need - 1, data := if p.write then [] else putBytes p.data (at_ - p.start) body }
      let rest := j.parts.filter (fun x => decide (x.start ≠ p.start))
      if p1.need ≠ 0 then
        dmaStep s t { j with parts := lupdate (fun x => decide (x.start = p.start)) (fun _ => p1) j.parts } j.fail.isNone
      else if p.write || j.fail.isSome then dmaStep s t { j with parts := rest } j.fail.isNone
      else match dmaPiece s j.d 1 p.start (p.start + p.len) with
      | .error f => dmaFailJob (s.modDma t (fun e => e.modJob uid (fun j => { j with parts := rest }))) t { j with parts := rest } f.1 (dmaAddrField 1 f).2.1 (globalOf s f.2) 1
      | .ok w =>
        match dmaWrite s t w.a w.sp p1.data with
        | (s1, some f) => dmaFailJob (dmaWriteLost (s1.modDma t (fun e => e.modJob uid (fun j => { j with parts := rest }))) t j.d f.1) t { j with parts := rest } f.1 0 (globalOf s f.2) 1
        | (s1, none) => dmaMoved s1 t { j with parts := rest }

/-- A remote part or the remote signal fails (12 R380, R383; R262): the descriptor fails with the first such code. -/
def dmaPartFail (s : State) (t uid at_ code addr : Nat) : State :=
  match (s.tile t).dma.jobs.find? (fun j => decide (j.d.uid = uid)) with
  | none => s
  | some j =>
    let parts := j.parts.filterMap (fun p =>
      if p.start ≤ at_ ∧ at_ < p.start + p.len then (if p.need ≤ 1 then none else some { p with need := p.need - 1 }) else some p)
    let s1 := s.modDma t (fun e => e.modJob uid (fun j => { j with parts := parts }))
    let s2 := if j.parts.any (fun p => p.write && decide (p.start ≤ at_ ∧ at_ < p.start + p.len)) then dmaWriteLost s1 t j.d code else s1
    if j.fail.isSome then s2 else dmaFailJob s2 t { j with parts := parts } code 0 addr (if addr = 0 then 0 else 1)

/-! Signals and completion (R252-R254). -/

/-- Every source read has been performed. -/
def DmaJob.readAll (j : DmaJob) : Bool := decide (dmaTotal j.d ≤ j.pos) && j.parts.all (·.write)

/-- The source-read signal. -/
def dmaSendRd (s : State) (t : Nat) (j : DmaJob) : State :=
  engSignal s t (j.d.bf 0x5C 0 12) (j.d.le 0x68 8) 0 (j.d.le 0x5E 1)

/-- What a release by a descriptor waits for of the earlier ones (R252, R253, 03 R77, R96): their reads and writes performed and their signals sent, and at system scope their remote writes acknowledged too. Their completion writes are not waited for (DEDUCED, log 160). -/
def dmaEarlierDone (s : State) (t : Nat) (j : DmaJob) (scope : Nat) : Bool :=
  let sys := decide (scope = 4)
  ((s.tile t).dma.before j.d.uid).all (fun x =>
    if x.fail.isSome then (if sys then decide (x.parts = []) else x.parts.all (·.write))
    else (x.rdSent || !dmaRdEn x.d) && decide ((if sys then 2 else 1) ≤ x.sig)
      && (if sys then x.moved
          else x.readAll || (decide (dmaOp x.d = 1) && (dmaSideRuns s x.d 1 [(x.pos, dmaTotal x.d)]).all (fun p => decide (p.sp = 2)))))

/-- DMA_SOURCE_READ. -/
def execDmaSourceRead (t n : Nat) (s : State) : Out :=
  onUnit (decide (t < 160) && decide (n < 4))
    (match (s.tile t).dma.inSlot n with
     | none => s
     | some j =>
       if tileOn s t && j.fail.isNone && !j.rdSent && j.readAll && dmaEarlierDone s t j (ordScope (j.d.le 0x5E 1)) then
         (dmaSendRd s t j).modDma t (fun e => e.modJob j.d.uid (fun j => { j with rdSent := true }))
       else s)

/-- DMA_SIGNAL_SEND: to a tile of this module, applied at once or refused; to the peer, handed to the connection (R253). -/
def execDmaSignalSend (t n : Nat) (s : State) : Out :=
  onUnit (decide (t < 160) && decide (n < 4))
    (match (s.tile t).dma.inSlot n with
     | none => s
     | some j =>
       let d := j.d
       let ord := d.le 0x71 1
       if !tileOn s t || j.fail.isSome || decide (j.sig ≠ 0) || !j.moved || !dmaEarlierDone s t j (ordScope ord) then s
       else if (dmaLost s t d).isSome then dmaFailJob s t j ((dmaLost s t d).getD 0) 0 0 0
       else if dmaSigDst d = 1 then
         let tgt := d.le 0x74 1
         if boundTo s (pTile tgt) (s.rd (pTile t) 0x2C) then
           (sigRelease s tgt (d.bf 0x70 16 12) 1 (d.le 0x78 8) (ordScope ord) (engineTag t)).modDma t (fun e =>
             e.modJob d.uid (fun j => { j with sig := 2 }))
         else dmaFailJob s t j 0x2C 0 0 0
       else if !dmaConnLive s t d then dmaFailJob s t j 0x2A 0xC 0 0
       else if connState s (dmaConn d) = 5 then dmaFailJob s t j 0x12 0 0 0
       else if connState s (dmaConn d) ≠ 3 then s
       else
         connSend (s.modDma t (fun e => e.modJob d.uid (fun j => { j with sig := 1 }))) (dmaConn d)
           ⟨4, ord, 8, t, 2, s.rdF (pConn (dmaConn d)) 0x108 0 20, d.le 0x74 1 + 256 * d.bf 0x70 16 12 + 2 ^ 20, toLE 8 (d.le 0x78 8),
             .dma t d.uid (2 ^ 40)⟩)

/-- DMA_COMPLETION: the oldest descriptor completes, bit 63 set where it failed; its slot is free (R254, R256). -/
def execDmaCompletion (t : Nat) (s : State) : Out :=
  onUnit (decide (t < 160))
    (match (s.tile t).dma.jobs with
     | [] => s
     | j :: _ =>
       if tileOn s t && (if j.fail.isSome then decide (j.parts = []) else j.moved && decide (j.sig = 2)) then
         let p := pTile t
         let s1 := if j.rdSent then s else dmaSendRd s t j
         let s2 := engSignal s1 t (j.d.bf 0x10 0 12) (j.d.le 0x18 8) (if j.fail.isSome then 2 ^ 63 else 0) (j.d.le 0x12 1)
         let s3 := (s2.inc p 0x504 1).modDma t (fun e => { e with jobs := e.jobs.tail })
         match j.slot with
         | some n => s3.wrF p (0x518 + 16 * n) 0 2 0
         | none => s3
       else s)

/-- DMA_STALL_REPORT: slot `n` has not moved for stall_limit (R257). Causes 6 and 7 are reserved. -/
def execDmaStallReport (t n : Nat) (cause : BitVec 3) (s : State) : Out :=
  onUnit (decide (t < 160) && decide (n < 4))
    (match (s.tile t).dma.inSlot n with
     | none => s
     | some j =>
       let p := pTile t
       if tileOn s t && j.fail.isNone && !j.stalled && !(j.moved && decide (j.sig ≠ 1)) && decide (j.since + j.limit ≤ s.ref)
          && decide (cause.toNat < 6) then
         let s1 := s.modDma t (fun e => e.modJob j.d.uid (fun j => { j with stalled := true }))
         let s2 := (s1.wrF p (0x518 + 16 * n) 1 4 (1 + 2 * cause.toNat)).inc p 0x508 1
         raise s2 p 19 0 j.d.iss.queue 0 [n, cause.toNat, s2.rd p (0x510 + 16 * n), j.d.off]
       else s)

/-! The register window (R266-R269). -/

/-- PALUR.LIFECYCLE and DEBUG (15_security_firmware.md R489, R493): 0 BLANK, 1 PROVISIONED, 2 DEPLOYED, 3 RETURNED; 0 LOCKED, 1 TOKEN-LIMITED, 2 TOKEN-FULL. -/
def lifecycle (s : State) : Nat := s.store.lifecycle
def debugState (s : State) : Nat := if s.store.lifecycle = 0 then 2 else s.palur.debug

/-- The window may be used on a tile (15 R495). -/
def winPermitted (s : State) (t : Nat) : Bool :=
  decide (powerState s ≤ 1) && (decide (debugState s = 2) || (decide (debugState s = 1) && decide (bstate s (pTile t) = 0)))

/-- The location that WIN_ADDR names is fit for an operation (R266, R267). -/
def winAddrOk (off : Nat) : Bool := decide (off % 8 = 0 ∧ off < 0x1A08000)

/-- A go is taken, or discarded while an operation is in progress, which keeps the mode it began with (R268). -/
def winGo (t : Nat) (wr inc : Bool) (s : State) (run : State → State × Nat × Option Nat) : Out :=
  onUnit (decide (t < 160))
    (let p := pTile t
     if !reached s p then s
     else
       let s0 := s.wrF p 0x584 1 2 (b2n wr + 2 * b2n inc)
       match (s.tile t).win with
       | some _ => raise (s0.wrF p 0x588 1 3 5) p 20
       | none =>
         let r := if !winPermitted s t then (s0, 1, none)
           else if !tilePowered s t then (s0, 2, none)
           else if !winAddrOk (s.rd p 0x580) then (s0, 3, none)
           else run s0
         (r.1.modTile t (fun T => { T with win := some (r.2.1, r.2.2, inc) })).wrF p 0x588 0 1 1)

/-- WIN_READ: 8 bytes of per-tile space. -/
def execWinRead (t : Nat) (inc : Bool) (s : State) : Out :=
  winGo t false inc s (fun s =>
    let off := s.rd (pTile t) 0x580
    match trawIn s t off 8 with
    | some _ => (s, 4, some 0)
    | none => (s, 0, some (s.tnat t off 8)))

/-- WIN_WRITE: WIN_DATA to per-tile space; to a signal word as a relaxed sig.st. -/
def execWinWrite (t : Nat) (inc : Bool) (s : State) : Out :=
  winGo t true inc s (fun s =>
    let off := s.rd (pTile t) 0x580
    let v := s.rd64 (pTile t) 0x590
    (if 0x1A00000 ≤ off then sigPlain s t ((off - 0x1A00000) / 8) 0 v else s.twr t off (toLE 8 v), 0, none))

/-- WIN_OP_END: busy clears, err takes the operation's result, data read is in WIN_DATA, WIN_ADDR may move on. -/
def execWinOpEnd (t : Nat) (s : State) : Out :=
  onUnit (decide (t < 160))
    (match (s.tile t).win with
     | none => s
     | some (err, data, inc) =>
       let p := pTile t
       let s1 := (s.modTile t (fun T => { T with win := none })).wrF p 0x588 0 4 (2 * err)
       let s2 := match data with | some v => s1.wr64 p 0x590 v | none => s1
       if err ≠ 0 then raise s2 p 20
       else if inc then s2.wr p 0x580 (s2.rd p 0x580 + 8) else s2)

end Sys2Proof.Machine
end

