-- ==== Sys2Proof/Machine/Matrix.lean ====
section
/-! DEFINITION. The matrix engine: descriptors, their check, order of work, arithmetic, completion and faults, and the register form (06_matrix_engine.md R180-R209, 04_number_formats.md R125-R131). -/

namespace Sys2Proof.Machine

open Sys2Proof

/-! Arithmetic (R127-R131). -/

/-- A value times a power of two. -/
def fscale (v : FV) (k : Int) : FV :=
  match v with
  | .fin s m e r => .fin s m (e + k) r
  | w => w

/-- +0. -/
def fzero : FV := .fin false 0 0 false

/-- A finite value. -/
def FV.isFin : FV → Bool
  | .fin _ _ _ _ => true
  | _ => false

/-- x_hi: x rounded to BF16 (R129). A value beyond BF16's range becomes the largest BF16, and no saturation is counted for it (DESIGN CHOICE, log 158). -/
def sliceHi (x : FV) : FV := if x.isFin then decodeFV 2 (encodeFV 2 rne x).1 else x

/-- x - x_hi; zero for an infinite or NaN operand. -/
def sliceRest (x : FV) : FV := if x.isFin then fadd false x (fneg (sliceHi x)) else fzero

/-- x_lo of the three-pass mode. -/
def sliceLo (x : FV) : FV := decodeFV 2 (encodeFV 2 rne (sliceRest x)).1

/-- x_lo of the two-pass mode: a 4-bit significand, nearest even, on the BF16 subnormal grid at the least (R129). -/
def sliceShort (x : FV) : FV :=
  match sliceRest x with
  | .fin s m e _ =>
    if m = 0 then fzero
    else
      let top : Int := (Nat.log2 m : Int) + e - 3
      let q : Int := if top < -133 then -133 else top
      .fin s (roundMag rne s m e false q) q false
  | w => w

/-- One pass: the slice pairs whose products share its groups. -/
abbrev Pass := List ((FV → FV) × (FV → FV))

/-- The passes of a pass mode (R129). -/
def passes (mode : Nat) : List Pass :=
  match mode with
  | 1 => [[(sliceHi, sliceHi)]]
  | 2 => [[(sliceHi, sliceHi)], [(sliceHi, sliceShort), (sliceShort, sliceHi)]]
  | 3 => [[(sliceHi, sliceHi)], [(sliceHi, sliceLo)], [(sliceLo, sliceHi)]]
  | _ => [[(id, id)]]

/-- The exact sum of a list; the empty sum is +0. -/
def fsumList : List FV → FV
  | [] => fzero
  | x :: r => r.foldl (fadd false) x

/-- The products of one pass over a group; after the first pass a product with an infinite or NaN factor is zero (R129). -/
def groupProducts (p : Pass) (first : Bool) (a b : List FV) : List FV :=
  (p.map (fun f => List.zipWith (fun x y =>
    if first || (x.isFin && y.isFin) then fmul (f.1 x) (f.2 y) else fzero) a b)).foldl (· ++ ·) []

/-- Groups of `n` elements. -/
def groupsOf (n : Nat) (l : List FV) : List (List FV) :=
  (List.range (ceilDiv l.length n)).map (fun i => (l.drop (n * i)).take n)

/-- Scale codes of a group as a power of two; none for the NaN code (R125, R127). -/
def scaleExp (x : Option Nat) : Option Int :=
  match x with
  | none => some 0
  | some c => if c = 255 then none else some ((c : Int) - 127)

/-- The terms that are added to an accumulator, in order: the scaled group sums of every pass (R127). -/
def terms (mode gsz : Nat) (a b : List FV) (sa sb : List (Option Nat)) : List FV :=
  let ga := groupsOf gsz a
  let gb := groupsOf gsz b
  let ps := passes mode
  ((List.range ps.length).map (fun pi =>
    (List.range ga.length).map (fun i =>
      match scaleExp ((sa[i]?).getD none), scaleExp ((sb[i]?).getD none) with
      | some x, some y =>
        fscale (fsumList (groupProducts ((ps[pi]?).getD []) (pi = 0) ((ga[i]?).getD []) ((gb[i]?).getD []))) (x + y)
      | _, _ => .nan))).foldl (· ++ ·) []

/-- Add a term with one rounding, saturating (R127, R131). -/
def accFp (ct : Nat) (c : FV × NEv) (x : FV) : FV × NEv :=
  let r := encodeFV ct rne (fadd false c.1 x)
  (decodeFV ct r.1, c.2.add r.2)

/-- The integer that an exact integer value holds. -/
def fvInt : FV → Int
  | .fin s m e _ => let k : Int := (shiftI m e : Nat); if s then -k else k
  | _ => 0

/-- Add an exact integer group sum and clamp (R127). -/
def accInt (c : Int × NEv) (x : FV) : Int × NEv :=
  let y := c.1 + fvInt x
  if y < -(2 ^ 31 : Int) then (-(2 ^ 31 : Int), c.2.add ⟨1, 0, 0⟩)
  else if (2 ^ 31 : Int) ≤ y then (2 ^ 31 - 1, c.2.add ⟨1, 0, 0⟩)
  else (y, c.2)

/-- One element of C: accumulator type, initial bits, terms, whether an input was a NaN, the per-tensor scales (R127, R128). -/
def mxElement (ct c0 : Nat) (ts : List FV) (anyNan : Bool) (sc : Option (FV × FV)) : Nat × NEv :=
  if ct = 9 then
    let r := ts.foldl accInt (sint 32 c0, .zero)
    (uimg 32 r.1, r.2)
  else
    let v0 := decodeFV ct c0
    let r := ts.foldl (accFp ct) (v0, .zero)
    let v := match sc with
      | some (x, y) => fmul (fmul x y) r.1
      | none => r.1
    let w := finish ct rne (anyNan || v0.isNan) v
    (w.1, r.2.add w.2)

/-! The descriptor (R185-R187). -/

def mxVer (d : Desc) : Nat := d.le 0 1
def mxFa (d : Desc) : Nat := d.bf 1 0 4
def mxFb (d : Desc) : Nat := d.bf 1 4 4
def mxPass (d : Desc) : Nat := d.bf 2 0 2
def mxAcc (d : Desc) : Bool := d.bf 2 2 1 = 1
def mxMa (d : Desc) : Bool := d.bf 2 3 1 = 1
def mxMb (d : Desc) : Bool := d.bf 2 4 1 = 1
def mxScale (d : Desc) : Bool := d.bf 2 5 1 = 1
def mxM (d : Desc) : Nat := d.le 4 2
def mxN (d : Desc) : Nat := d.le 6 2
def mxK (d : Desc) : Nat := d.le 8 3
def mxAccLd (d : Desc) : Nat := if mxVer d = 1 then 256 else d.le 0x38 2
def mxRdEn (d : Desc) : Bool := mxVer d = 3 && d.bf 0x48 12 1 = 1
def mxWaitEn (d : Desc) : Bool := mxVer d = 3 && d.bf 0x58 12 1 = 1
def mxTag (d : Desc) : Nat := if mxVer d = 3 then d.le 0x68 4 else 0

/-- The integer formats of the engine. -/
def isInt8 (f : Nat) : Bool := f = 10 || f = 11

/-- The accumulator's element type (R180): INT32 for unscaled integers, FP64, otherwise FP32. -/
def mxCt (d : Desc) : Nat :=
  if isInt8 (mxFa d) && isInt8 (mxFb d) && !mxMa d && !mxMb d then 9 else if mxFa d = 0 && mxFb d = 0 then 0 else 1

/-- Bytes of an accumulator element. -/
def ctSize (ct : Nat) : Nat := if ct = 0 then 8 else 4

/-- The formats pair and flags match a row of R180. -/
def mxRow (fa fb pass : Nat) (ma mb : Bool) : Bool :=
  let small (f : Nat) : Bool := decide (4 ≤ f ∧ f ≤ 8)
  if small fa && small fb then pass = 0
  else if isInt8 fa && isInt8 fb then pass = 0 && (!ma || fa = 10) && (!mb || fb = 10)
  else if fa = fb && (fa = 2 || fa = 3 || fa = 0) then pass = 0 && !ma && !mb
  else if fa = 1 && fb = 1 then pass ≠ 0 && !ma && !mb
  else false

/-- Some pass and flags make the pair of formats a row of R180, in the descriptor's version (R187). -/
def mxPair (v fa fb : Nat) : Bool :=
  if v = 1 then fa = fb && [0, 1, 2, 3, 4, 5, 10].contains fa
  else [0, 1, 2, 3].any (fun p => mxRow fa fb p false false)

/-- The descriptor matches its version's formats and passes. -/
def mxFmtOk (d : Desc) : Bool :=
  mxPair (mxVer d) (mxFa d) (mxFb d) && mxRow (mxFa d) (mxFb d) (mxPass d) (mxMa d) (mxMb d)
    && (mxVer d ≠ 1 || mxPass d ≤ 1)

/-- Bytes that k elements of an operand occupy (R186); none demanded of a format that no row lists. -/
def mxRowLen (f k : Nat) : Nat :=
  match f with
  | 0 => 8 * k | 1 => 4 * k | 2 => 2 * k | 3 => 2 * k | 4 => k | 5 => k | 10 => k
  | 6 => 3 * ceilDiv k 4 | 7 => 3 * ceilDiv k 4 | 8 => ceilDiv k 2 | 11 => ceilDiv k 2
  | _ => 0

/-- MX_DESC_INVALID (R186, R187), in the order of the fields. -/
def mxInvalid (d : Desc) : Option Nat :=
  let v := mxVer d
  let k := mxK d
  let lim := if v = 1 then 256 else 512
  firstField (
    [(decide (d.bf 2 6 2 ≠ 0) || (mxScale d && mxCt d = 9) || (decide (v = 1) && (mxMa d || mxMb d || mxScale d)), 0x02)]
    ++ nonZero d [(3, 1)] ++
    [(decide (mxM d = 0 ∨ lim < mxM d), 0x04), (decide (mxN d = 0 ∨ lim < mxN d), 0x06), (decide (k = 0), 0x08)]
    ++ nonZero d [(0x0B, 1)] ++
    [(decide (d.le 0xC 4 % 64 ≠ 0), 0x0C), (decide (d.le 0x10 4 % 64 ≠ 0), 0x10),
     (decide (d.le 0x14 4 % 64 ≠ 0 ∨ d.le 0x14 4 < mxRowLen (mxFa d) k), 0x14),
     (decide (d.le 0x18 4 % 64 ≠ 0), 0x18),
     (decide (d.le 0x1C 4 % 64 ≠ 0 ∨ d.le 0x1C 4 < mxRowLen (mxFb d) k), 0x1C)]
    ++ (if v = 1 then nonZero d [(0x20, 4), (0x24, 4), (0x28, 4), (0x2C, 4), (0x30, 4), (0x34, 4), (0x38, 2)]
        else
          [(mxMa d && decide (d.le 0x24 4 < ceilDiv k 32), 0x24), (mxMb d && decide (d.le 0x2C 4 < ceilDiv k 32), 0x2C),
           (decide (d.le 0x38 2 % 16 ≠ 0 ∨ d.le 0x38 2 < mxN d), 0x38)])
    ++ nonZero d [(0x3A, 2)] ++ [(decide (d.bf 0x3C 12 4 ≠ 0), 0x3C)] ++ nonZero d [(0x3F, 1)]
    ++ (if v = 3 then
          [(decide (d.bf 0x48 13 3 ≠ 0), 0x48)] ++ nonZero d [(0x4B, 1), (0x4C, 4)]
          ++ [(decide (d.bf 0x58 13 3 ≠ 0), 0x58)] ++ nonZero d [(0x5B, 1), (0x5C, 4), (0x6C, 20)]
        else []))

/-- A per-tensor scale that is not positive and finite (04 R124). -/
def badScale (x : Nat) : Bool :=
  match decodeFV 1 x with
  | .fin s m _ _ => s || m = 0
  | _ => true

/-- The footprints that leave their region (R186), by the offset of their field. -/
def mxFootprint (d : Desc) : Option Nat :=
  let k := mxK d
  let top := 0x1800000
  let sz := ctSize (mxCt d)
  firstField
    [(decide (d.le 0xC 4 < top ∨ 0x1900000 < d.le 0xC 4 + ((mxM d - 1) * mxAccLd d + mxN d) * sz), 0x0C),
     (decide (top < d.le 0x10 4 + (mxM d - 1) * d.le 0x14 4 + mxRowLen (mxFa d) k), 0x10),
     (decide (top < d.le 0x18 4 + (mxN d - 1) * d.le 0x1C 4 + mxRowLen (mxFb d) k), 0x18),
     (mxMa d && decide (top < d.le 0x20 4 + (mxM d - 1) * d.le 0x24 4 + ceilDiv k 32), 0x20),
     (mxMb d && decide (top < d.le 0x28 4 + (mxN d - 1) * d.le 0x2C 4 + ceilDiv k 32), 0x28)]

/-- The check of R204 in its order: code, field and address of the first cause. -/
def mxCheck (s : State) (t : Nat) (d : Desc) : Option (Nat × Nat × Nat) :=
  let v := mxVer d
  match d.raw with
  | some a => some (0x23, 0, a)
  | none =>
    if v = 0 ∨ 3 < v ∨ v < s.rdF (pTile t) 0x10C 0 2 then some (0x21, 0, 0)
    else match mxInvalid d with
    | some f => some (0x20, f, 0)
    | none =>
      if !mxFmtOk d then some (0x0B, if mxPair v (mxFa d) (mxFb d) then 2 else 1, 0)
      else match firstField [(ordBad (d.le 0x3E 1) [2] [1, 2, 3, 4], 0x3E),
          (mxRdEn d && ordBad (d.le 0x4A 1) [2] [1, 2, 3, 4], 0x4A), (mxWaitEn d && ordBad (d.le 0x5A 1) [1] [1, 2, 3, 4], 0x5A)] with
      | some f => some (0x0A, f, 0)
      | none =>
        match firstField [(mxScale d && badScale (d.le 0x30 4), 0x30), (mxScale d && badScale (d.le 0x34 4), 0x34)] with
        | some f => some (0x16, f, 0)
        | none => (mxFootprint d).map (fun f => (0x05, f, 0))

/-! Blocks (R188, R194). -/

/-- Output blocks of a descriptor, and the rows and columns of block `b`: first and count. -/
def mxBlocks (d : Desc) : Nat := ceilDiv (mxM d) 128 * ceilDiv (mxN d) 128
def mxRows (d : Desc) (b : Nat) : Nat × Nat :=
  let r := b / ceilDiv (mxN d) 128 * 128
  (r, if mxM d - r < 128 then mxM d - r else 128)
def mxCols (d : Desc) (b : Nat) : Nat × Nat :=
  let c := b % ceilDiv (mxN d) 128 * 128
  (c, if mxN d - c < 128 then mxN d - c else 128)

/-- The per-tile offset of C(i, j). -/
def mxCOff (d : Desc) (i j : Nat) : Nat := d.le 0xC 4 + (i * mxAccLd d + j) * ctSize (mxCt d)

/-- The 64-byte units of each row of a block, first and last. -/
def mxUnits (d : Desc) (b : Nat) : List (Nat × Nat) :=
  let c := mxCols d b
  (List.range (mxRows d b).2).map (fun r =>
    let i := (mxRows d b).1 + r
    (mxCOff d i c.1 / 64, (mxCOff d i (c.1 + c.2) - 1) / 64))

/-- Two blocks share a 64-byte unit of the accumulator store (R194). -/
def mxShare (d : Desc) (b : Nat) (d' : Desc) (b' : Nat) : Bool :=
  (mxUnits d b).any (fun x => (mxUnits d' b').any (fun y => decide (x.1 ≤ y.2 ∧ y.1 ≤ x.2)))

/-- Element `k` of a packed row in scratchpad (04 R110); MXINT8 elements weigh 2^-6 (R125). -/
def mxEl (s : State) (t off f : Nat) (mx : Bool) (k : Nat) : FV :=
  let w := fmtBits f
  let v := decodeFV f (bits (s.tnat t (off + k * w / 8) (ceilDiv (k * w % 8 + w) 8)) (k * w % 8) w)
  if mx && f = 10 then fscale v (-6) else v

/-- Row i of A, or column j of B, and its scale codes. -/
def mxRowA (s : State) (t : Nat) (d : Desc) (i : Nat) : List FV × List (Option Nat) :=
  ((List.range (mxK d)).map (mxEl s t (d.le 0x10 4 + i * d.le 0x14 4) (mxFa d) (mxMa d)),
   (List.range (ceilDiv (mxK d) 32)).map (fun g => if mxMa d then some (s.tnat t (d.le 0x20 4 + i * d.le 0x24 4 + g) 1) else none))
def mxColB (s : State) (t : Nat) (d : Desc) (j : Nat) : List FV × List (Option Nat) :=
  ((List.range (mxK d)).map (mxEl s t (d.le 0x18 4 + j * d.le 0x1C 4) (mxFb d) (mxMb d)),
   (List.range (ceilDiv (mxK d) 32)).map (fun g => if mxMb d then some (s.tnat t (d.le 0x28 4 + j * d.le 0x2C 4 + g) 1) else none))

/-- An input of an element is a NaN, or its block's scale is. -/
def anyNanIn (a : List FV × List (Option Nat)) : Bool := a.1.any FV.isNan || a.2.any (fun x => x = some 255)

/-- The elements of an output block (R189): offset and bits, and the events. -/
def mxCompute (s : State) (t : Nat) (d : Desc) (b : Nat) : List (Nat × Nat) × NEv :=
  let ct := mxCt d
  let gsz := if ct = 0 then 8 else 32
  let rows := (List.range (mxRows d b).2).map (fun r => ((mxRows d b).1 + r, mxRowA s t d ((mxRows d b).1 + r)))
  let cols := (List.range (mxCols d b).2).map (fun c => ((mxCols d b).1 + c, mxColB s t d ((mxCols d b).1 + c)))
  let sc := if mxScale d then some (decodeFV 1 (d.le 0x30 4), decodeFV 1 (d.le 0x34 4)) else none
  let els := (rows.map (fun r => cols.map (fun c =>
    let o := mxCOff d r.1 c.1
    let c0 := if mxAcc d then s.tnat t o (ctSize ct) else 0
    let e := mxElement ct c0 (terms (mxPass d) gsz r.2.1 c.2.1 r.2.2 c.2.2) (anyNanIn r.2 || anyNanIn c.2) sc
    ((o, e.1), e.2)))).foldl (· ++ ·) []
  (els.map (·.1), els.foldl (fun n e => n.add e.2) .zero)

/-- Uncorrectable scratchpad data among a block's operands and scale codes (R204). -/
def mxRaw (s : State) (t : Nat) (d : Desc) (b : Nat) : Option Nat :=
  let k := mxK d
  let one (base ld i n : Nat) : Option Nat := trawIn s t (base + i * ld) n
  ((List.range (mxRows d b).2).findSome? (fun r => one (d.le 0x10 4) (d.le 0x14 4) ((mxRows d b).1 + r) (mxRowLen (mxFa d) k)))
  <|> ((List.range (mxCols d b).2).findSome? (fun c => one (d.le 0x18 4) (d.le 0x1C 4) ((mxCols d b).1 + c) (mxRowLen (mxFb d) k)))
  <|> (if mxMa d then (List.range (mxRows d b).2).findSome? (fun r => one (d.le 0x20 4) (d.le 0x24 4) ((mxRows d b).1 + r) (ceilDiv k 32)) else none)
  <|> (if mxMb d then (List.range (mxCols d b).2).findSome? (fun c => one (d.le 0x28 4) (d.le 0x2C 4) ((mxCols d b).1 + c) (ceilDiv k 32)) else none)

/-! Faults and state changes. -/

/-- Change the matrix engine of a tile. -/
def State.modMx (s : State) (t : Nat) (f : MxEng → MxEng) : State := s.modTile t (fun T => { T with mx := f T.mx })

/-- A descriptor fault (R205): counted, latched, flagged, recorded, kept for the command; under halt_on_fault the block's later descriptors will fail. -/
def mxFault (s : State) (t : Nat) (d : Desc) (code field addr done : Nat) : State :=
  let s1 := latchEng (tileNumFault s t code) t 0x410 0x430
    [(0x410, code + 2 ^ 31), (0x414, d.off), (0x418, mxTag d), (0x41C, d.iss.index), (0x420, addr), (0x424, field),
     (0x428, d.iss.queue), (0x42C, done)]
  let s2 := raise s1 (pTile t) 12 code d.iss.queue addr [code + 2 ^ 31, d.off, mxTag d, d.iss.index]
  let s3 := cmdFault s2 d.iss.cmd ⟨code, 2, t, d.iss.index⟩
  match d.iss.blk with
  | some b =>
    if s.rdB (pTile t) 0x10C 2 && issuerLives s t d && !(s.tile t).mx.halted.contains b then
      raise (s3.modMx t (fun e => { e with halted := e.halted ++ [b] })) (pTile t) 13 0 d.iss.queue
    else s3
  | none => s3

/-- The head descriptor fails: it leaves the intake and waits for its completion. -/
def mxFailHead (s : State) (t : Nat) (d : Desc) (code field addr : Nat) : State :=
  (mxFault s t d code field addr 0).modMx t (fun e =>
    { e with intake := e.intake.tail, jobs := e.jobs ++ [⟨d, 0, 0, code = 0x21 || !mxRdEn d, some code⟩] })

/-- The head descriptor starts (R191). -/
def mxStart (s : State) (t : Nat) (d : Desc) : State :=
  s.modMx t (fun e => { e with intake := e.intake.tail, jobs := e.jobs ++ [⟨d, 0, 0, !mxRdEn d, none⟩] })

/-- A waiting head of a halted block fails at once (R205). -/
def mxAbortWaiting (s : State) (t : Nat) : State :=
  match (s.tile t).mx.intake with
  | d :: _ => if d.checked && isHalted s t d (s.tile t).mx.halted then mxFailHead s t d 0x22 0 0 else s
  | [] => s

/-- MX_DESC_CHECK: the head descriptor is checked; it fails, waits or starts (R184, R204, R205). -/
def execMxDescCheck (t : Nat) (s : State) : Out :=
  onUnit (decide (t < 160))
    (match (s.tile t).mx.intake with
     | [] => s
     | d :: _ =>
       if !tileOn s t || d.checked then s
       else match mxCheck s t d with
       | some (c, f, a) => mxFailHead s t d c f a
       | none =>
         if isHalted s t d (s.tile t).mx.halted then mxFailHead s t d 0x22 0 0
         else if mxWaitEn d then
           s.modMx t (fun e => { e with intake := { d with checked := true, wait := some (s.ref, wdLimit s t) } :: e.intake.tail })
         else mxStart s t d)

/-- The wait of a matrix descriptor holds (R191). -/
def mxWaitMet (s : State) (t : Nat) (d : Desc) : Bool := decide (d.le 0x60 8 ≤ s.sig t (d.bf 0x58 0 12))

/-- MX_WAIT_SATISFIED: the head's signal word has reached its threshold; the read acquires it and the descriptor starts. -/
def execMxWaitSatisfied (t : Nat) (s : State) : Out :=
  onUnit (decide (t < 160))
    (match (s.tile t).mx.intake with
     | [] => s
     | d :: _ =>
       if tileOn s t && d.checked && mxWaitMet s t d then
         mxStart (sigAcquire s t (d.bf 0x58 0 12) (ordScope (d.le 0x5A 1)) (engineTag t)) t d
       else s)

/-- The array of a number. -/
def MxEng.arr (e : MxEng) (n : Nat) : Option MxBlk := if n = 0 then e.arr0 else e.arr1
def MxEng.setArr (e : MxEng) (n : Nat) (b : Option MxBlk) : MxEng := if n = 0 then { e with arr0 := b } else { e with arr1 := b }

/-- The descriptor whose next block is given out: the first that has one left (R191). -/
def mxNextJob (e : MxEng) : Option MxJob := e.jobs.find? (fun j => j.fail.isNone && decide (j.next < mxBlocks j.d))

/-- Change a job. -/
def MxEng.modJob (e : MxEng) (uid : Nat) (f : MxJob → MxJob) : MxEng :=
  { e with jobs := lupdate (fun j => decide (j.d.uid = uid)) f e.jobs }

/-- A block in an array belongs to another descriptor and shares a unit with block `b` of `d`. -/
def mxHazard (e : MxEng) (d : Desc) (b : Nat) : Bool :=
  [e.arr0, e.arr1].any (fun x =>
    match x with
    | none => false
    | some k => decide (k.uid ≠ d.uid) && e.jobs.any (fun j => decide (j.d.uid = k.uid) && mxShare d b j.d k.num))

/-- A started descriptor meets uncorrectable data: blocks not yet written back are dropped (R205). -/
def mxFailJob (s : State) (t : Nat) (j : MxJob) (addr : Nat) : State :=
  let drop (x : Option MxBlk) : Option MxBlk := match x with
    | some k => if k.uid = j.d.uid then none else some k
    | none => none
  mxAbortWaiting ((mxFault s t j.d 0x23 0 addr j.done).modMx t (fun e =>
    { e.modJob j.d.uid (fun j => { j with fail := some 0x23 }) with arr0 := drop e.arr0, arr1 := drop e.arr1 })) t

/-- MX_BLOCK_START: a free array takes the next block, reads its operands and c0, and computes it (R188, R189, R194). -/
def execMxBlockStart (t arr : Nat) (s : State) : Out :=
  onUnit (decide (t < 160 ∧ arr < 2))
    (let e := (s.tile t).mx
     match e.arr arr, mxNextJob e with
     | none, some j =>
       if !tileOn s t || mxHazard e j.d j.next then s
       else match mxRaw s t j.d j.next with
       | some a => mxFailJob s t j a
       | none =>
         let r := mxCompute s t j.d j.next
         s.modMx t (fun e => (e.modJob j.d.uid (fun j => { j with next := j.next + 1 })).setArr arr
           (some ⟨j.d.uid, j.next, r.1, ctSize (mxCt j.d), r.2.sat, r.2.nan⟩))
     | _, _ => s)

/-- MX_BLOCK_DONE: the block's results are written back (R202). -/
def execMxBlockDone (t arr : Nat) (s : State) : Out :=
  onUnit (decide (t < 160 ∧ arr < 2))
    (match (s.tile t).mx.arr arr with
     | none => s
     | some k =>
       if tileOn s t then
         let s1 := k.out.foldl (fun s x => s.twr t x.1 (toLE k.size x.2)) s
         let s2 := (tileNum s1 t ⟨k.sat, k.nan, 0⟩).inc (pTile t) 0x408 1
         s2.modMx t (fun e => (e.modJob k.uid (fun j => { j with done := j.done + 1 })).setArr arr none)
       else s)

/-- The operands-read signal of a job (R192). -/
def mxSendRd (s : State) (t : Nat) (j : MxJob) : State :=
  engSignal s t (j.d.bf 0x48 0 12) (j.d.le 0x50 8) 0 (j.d.le 0x4A 1)

/-- MX_OPERANDS_READ: every scratchpad read of a descriptor has been performed. -/
def execMxOperandsRead (t : Nat) (s : State) : Out :=
  onUnit (decide (t < 160))
    (match (s.tile t).mx.jobs.find? (fun j => !j.rdSent && j.fail.isNone && decide (j.next = mxBlocks j.d)) with
     | none => s
     | some j =>
       if tileOn s t then (mxSendRd s t j).modMx t (fun e => e.modJob j.d.uid (fun j => { j with rdSent := true })) else s)

/-- A job may complete: failed, or every block written back. -/
def MxJob.ready (j : MxJob) : Bool := j.fail.isSome || decide (j.done = mxBlocks j.d)

/-- MX_COMPLETION: the completion write of the oldest descriptor, with bit 63 set where it failed (R193). -/
def execMxCompletion (t : Nat) (s : State) : Out :=
  onUnit (decide (t < 160))
    (match (s.tile t).mx.jobs with
     | [] => s
     | j :: _ =>
       if tileOn s t && j.ready then
         let s1 := if j.rdSent then s else mxSendRd s t j
         let s2 := engSignal s1 t (j.d.bf 0x3C 0 12) (j.d.le 0x40 8) (if j.fail.isSome then 2 ^ 63 else 0) (j.d.le 0x3E 1)
         (s2.inc (pTile t) 0x404 1).modMx t (fun e => { e with jobs := e.jobs.tail })
       else s)

/-! The register form (R196-R199). -/

/-- k elements of 32 bytes, by format (R197). -/
def mmaK (f : Nat) : Option Nat :=
  match f with
  | 8 => some 64 | 11 => some 64
  | 4 => some 32 | 5 => some 32 | 10 => some 32
  | 2 => some 16 | 3 => some 16
  | _ => none

/-- The elements of a 32-byte row. -/
def rowOf (f : Nat) (x : Nat) : List FV :=
  (List.range ((mmaK f).getD 0)).map (fun k => decodeFV f (bits x (k * fmtBits f) (fmtBits f)))

/-- An offset of a register-form operand: misaligned, or outside its region. -/
def mmaOff (acc : Bool) (o n : Nat) : List (Bool × Nat) :=
  [(decide (o % 64 ≠ 0), 3), (!inRegion (if acc then .acc else .scratch) o n, 5)]

/-- The checks of a register-form product: every lane active, its fields, its offsets, its format, and uncorrectable operands (R196-R199). -/
def checksMma (aReg bReg : Bool) (tc : TC) (s : State) : List (Bool × Nat) :=
  let t := tc.gr.tile
  let oa := tc.get 0 tc.x.a 1
  let ob := tc.get 0 tc.x.b 1
  [(decide (tc.act.length < 32), 0x0D)] ++ illegalCommon tc.x 0 true true ++
    [(decide (tc.x.dst ≠ 0), 1), (decide (2 ≤ tc.x.mod.toNat), 1),
     (tc.badRun tc.x.a (if aReg then 8 else 1) || tc.badRun tc.x.b (if bReg then 8 else 1) || tc.badR tc.x.c 1, 2)]
    ++ (if aReg then [] else mmaOff false oa 1024) ++ (if bReg then [] else mmaOff false ob 1024) ++ mmaOff true (tc.get 0 tc.x.c 1) 4096
    ++ [((mmaK tc.x.fmt.toNat).isNone, 0x0B),
        ((!aReg && (trawIn s t oa 1024).isSome) || (!bReg && (trawIn s t ob 1024).isSome), 0x23)]

/-- The checks of acc.clr (R196). -/
def checksClr (tc : TC) : List (Bool × Nat) :=
  [(decide (tc.act.length < 32), 0x0D)] ++ illegalCommon tc.x 0 false false ++
    [(decide (tc.x.dst ≠ 0), 1), (tc.badR tc.x.c 1, 2)] ++ mmaOff true (tc.get 0 tc.x.c 1) 4096

/-- The per-tile offset that a register-form fault concerns (05_thread_groups.md R176): the operand misaligned, outside its region, or with uncorrectable data; 0 for other faults. -/
def mmaAddr (tc : TC) (s : State) (ops : List (Bool × Nat × Nat)) (code : Nat) : Nat :=
  if code = 3 then ((ops.find? (fun o => decide (o.2.1 % 64 ≠ 0))).map (·.2.1)).getD 0
  else if code = 5 then ((ops.find? (fun o => !inRegion (if o.1 then .acc else .scratch) o.2.1 o.2.2)).map (·.2.1)).getD 0
  else if code = 0x23 then (ops.findSome? (fun o => if o.1 then none else trawIn s tc.gr.tile o.2.1 o.2.2)).getD 0
  else 0

/-- The memory operands of a register-form product: whether each is in the accumulator store, its offset and its bytes. -/
def mmaMemOps (aReg bReg : Bool) (tc : TC) : List (Bool × Nat × Nat) :=
  (if aReg then [] else [(false, tc.get 0 tc.x.a 1, 1024)]) ++ (if bReg then [] else [(false, tc.get 0 tc.x.b 1, 1024)])
    ++ [(true, tc.get 0 tc.x.c 1, 4096)]

/-- Row `i` of an operand of a register-form product: eight registers of lane `i`, or 32 bytes of scratchpad (R196). -/
def mmaRow (tc : TC) (s : State) (reg : Bool) (r : BitVec 8) (i : Nat) : List FV :=
  rowOf tc.x.fmt.toNat (if reg then tc.grp.getN i r.toNat 8 else s.tnat tc.gr.tile (tc.get 0 r 1 + 32 * i) 32)

/-- A register-form product: where A and B come from (R196). -/
def mmaOp (gr : GRef) (x : TInstr) (s : State) (aReg bReg : Bool) : Out :=
  runThread gr x s (fun tc s =>
    let t := tc.gr.tile
    let oc := tc.get 0 tc.x.c 1
    match firstBad (checksMma aReg bReg tc s) with
    | some c => threadFault tc s c (mmaAddr tc s (mmaMemOps aReg bReg tc) c)
    | none =>
      let as := (List.range 32).map (mmaRow tc s aReg tc.x.a)
      let bs := (List.range 32).map (mmaRow tc s bReg tc.x.b)
      let ct := if isInt8 tc.x.fmt.toNat then 9 else 1
      let els := ((List.range 32).map (fun i => (List.range 32).map (fun j =>
        let o := oc + 4 * (32 * i + j)
        let a := (as[i]?).getD []
        let b := (bs[j]?).getD []
        let c0 := if tc.x.mod.toNat = 1 then s.tnat t o 4 else 0
        let e := mxElement ct c0 (terms 0 32 a b [] []) (a.any FV.isNan || b.any FV.isNan) none
        ((o, e.1), e.2)))).foldl (· ++ ·) []
      commit tc (els.foldl (fun s e => s.twr t e.1.1 (toLE 4 e.1.2)) s) [] (els.foldl (fun n e => n.add e.2) .zero))

/-- mma.rr: both operands from registers. -/
def execMmaRR (gr : GRef) (x : TInstr) (s : State) : Out := mmaOp gr x s true true
/-- mma.rs: B from scratchpad. -/
def execMmaRS (gr : GRef) (x : TInstr) (s : State) : Out := mmaOp gr x s true false
/-- mma.ss: both from scratchpad. -/
def execMmaSS (gr : GRef) (x : TInstr) (s : State) : Out := mmaOp gr x s false false

/-- acc.clr: 4 KiB of zero bytes at the offset in register c of lane 0 (R196). -/
def execAccClr (gr : GRef) (x : TInstr) (s : State) : Out :=
  runThread gr x s (fun tc s =>
    let oc := tc.get 0 tc.x.c 1
    match firstBad (checksClr tc) with
    | some c => threadFault tc s c (mmaAddr tc s [(true, oc, 4096)] c)
    | none => commit tc (s.twr tc.gr.tile oc (List.replicate 4096 0)) [] .zero)

end Sys2Proof.Machine
end

