-- ==== Sys2Proof/Machine/Vector.lean ====
section
/-! DEFINITION. The vector engine: chains, descriptors, their check, loops and layout, masks, reductions, the store stage with its histogram, completion and faults (07_vector_engine.md R210-R242, 04_number_formats.md R124-R126, R135-R137). -/

namespace Sys2Proof.Machine

open Sys2Proof

/-! The descriptor (R215, R216, R219, R220). -/

def vxVer (d : Desc) : Nat := d.le 0 1
def vxStages (d : Desc) : Nat := d.bf 1 0 4
def vxDims (d : Desc) : Nat := d.bf 1 4 3
def vxOrder (d : Desc) : Nat := d.bf 2 0 2
def vxZero (d : Desc) : Bool := d.bf 2 2 1 = 1
def vxHist (d : Desc) : Bool := d.bf 2 3 1 = 1
def vxCt (d : Desc) : Nat := d.bf 2 6 2
def vxCvt (d : Desc) : Nat := d.le 3 1
def vxDim (d : Desc) (i : Nat) : Nat := if i < vxDims d then d.le (4 + 2 * i) 2 else 1
def vxRdEn (d : Desc) : Bool := vxVer d = 3 && d.bf 0x30 12 1 = 1
def vxWaitEn (d : Desc) : Bool := vxVer d = 3 && d.bf 0x14 12 1 = 1

/-- The chain type as a format code: FP32, FP64 or INT32 (R210). -/
def vxType (d : Desc) : Nat := match vxCt d with | 0 => 1 | 1 => 0 | _ => 9

/-- The stage word of stage i. -/
def vxFunc (d : Desc) (i : Nat) : Nat := d.le (0x40 + 8 * i) 1
def vxSel (d : Desc) (i k : Nat) : Nat := d.bf (0x40 + 8 * i) (8 + 3 * k) 3
def vxSetMask (d : Desc) (i : Nat) : Bool := d.bf (0x40 + 8 * i) 17 1 = 1
def vxRed (d : Desc) (i : Nat) : Nat := d.bf (0x40 + 8 * i) 18 3
def vxImm (d : Desc) (i : Nat) : Nat := d.le (0x44 + 8 * i) 4

/-- Stream words by number: 0-2 the inputs, 3 the output. -/
def strBase (k : Nat) : Nat := 0x80 + 0x20 * k
def strOff (d : Desc) (k : Nat) : Nat := d.le (strBase k) 4
def strFmt (d : Desc) (k : Nat) : Nat := d.bf (strBase k + 4) 0 4
def strEn (d : Desc) (k : Nat) : Bool := k = 3 || d.bf (strBase k + 4) 4 1 = 1
def strMx (d : Desc) (k : Nat) : Bool := d.bf (strBase k + 4) 5 1 = 1
def strBcast (d : Desc) (k : Nat) : Bool := k ≠ 3 && d.bf (strBase k + 4) 6 1 = 1
def strStride (d : Desc) (k j : Nat) : Int := sint 32 (d.le (strBase k + 4 + 4 * j) 4)
def strSc (d : Desc) (k : Nat) : Nat := d.le (strBase k + 0x18) 4
def strS (d : Desc) (k : Nat) : Nat := d.le (strBase k + 0x1C) 4

/-- The class of a function code (R210): A, C, T or R, and how many operands it takes; none for a reserved code. -/
inductive VxClass where
  | a | c | t | r
deriving DecidableEq, Repr

def vxClass (f : Nat) : Option (VxClass × Nat) :=
  if f = 0 ∨ f = 7 ∨ f = 8 then some (.a, 1)
  else if f = 4 ∨ f = 9 ∨ f = 10 then some (.a, 3)
  else if f ≤ 6 then some (.a, 2)
  else if 0x10 ≤ f ∧ f ≤ 0x15 then some (.a, 2)
  else if 0x20 ≤ f ∧ f ≤ 0x25 then some (.c, 2)
  else if f = 0x26 then some (.c, 1)
  else if f = 0x33 then some (.t, 2)
  else if 0x30 ≤ f ∧ f ≤ 0x3C then some (.t, 1)
  else if 0x40 ≤ f ∧ f ≤ 0x48 then some (.r, 1)
  else none

/-- A function is allowed in a chain type and version (R210, R220). -/
def vxAllowed (d : Desc) (f : Nat) : Bool :=
  let int := vxType d = 9
  match vxClass f with
  | none => false
  | some (cl, _) =>
    (if f = 4 || cl = .t then !int else true)
    && (if (0x10 ≤ f && f ≤ 0x15) || (0x46 ≤ f && f ≤ 0x48) then int else true)
    && (if vxVer d = 1 && cl = .t then [0x30, 0x31, 0x32, 0x34, 0x36].contains f else true)

/-- The reduction that ends the chain, if one does: its function and dimensions (R226). -/
def vxReduce (d : Desc) : Option (Nat × Nat) :=
  let i := vxStages d - 1
  match vxClass (vxFunc d i) with
  | some (.r, _) => some (vxFunc d i, vxRed d i)
  | _ => none

/-- The dimensions of a stream: the loop's, or for a reduction's output those not reduced (R226). -/
def strDims (d : Desc) (k : Nat) : List Nat :=
  let all := (List.range (vxDims d)).map (vxDim d)
  if k = 3 then
    match vxReduce d with
    | some (_, r) => all.drop r
    | none => all
  else all

/-- Elements of the loop, of a reduction group, of the output. -/
def lprod (l : List Nat) : Nat := l.foldl (· * ·) 1
def vxTotal (d : Desc) : Nat := lprod (strDims d 0)
def vxOuts (d : Desc) : Nat := lprod (strDims d 3)
def vxGroup (d : Desc) : Nat := lprod (((List.range (vxDims d)).map (vxDim d)).take (match vxReduce d with | some (_, r) => r | none => 0))

/-- Elements of a row, rows of a stream. -/
def rowLen0 (dims : List Nat) : Nat := dims.headD 1
def rowCount (dims : List Nat) : Nat := lprod dims.tail

/-- The byte offset of row r of a stream (R221). -/
def rowOff (d : Desc) (k r : Nat) : Int :=
  ((strDims d k).tail.foldl (fun (acc : Int × Nat × Nat) n =>
    (acc.1 + strStride d k acc.2.1 * ((acc.2.2 % n : Nat) : Int), acc.2.1 + 1, acc.2.2 / n)) ((strOff d k : Int), 1, r)).1

/-- Bytes that n elements of a format occupy in a row (04 R110). -/
def rowBytes (f n : Nat) : Nat := if f = 6 ∨ f = 7 then 3 * ceilDiv n 4 else ceilDiv (n * fmtBits f) 8

/-- The byte ranges of a stream: its rows, its scale codes, and for argmax and argmin the index array (R218). -/
def isArg (f : Nat) : Bool := f = 0x44 || f = 0x45
def strRanges (d : Desc) (k : Nat) : List (Int × Int) :=
  let dims := strDims d k
  if lprod dims = 0 then []
  else
    let n := if strBcast d k then 1 else rowLen0 dims
    let rows := (List.range (rowCount dims)).map (fun r => (rowOff d k r, rowOff d k r + (rowBytes (strFmt d k) n : Nat)))
    let codes : List (Int × Int) := if strMx d k then
        [((strSc d k : Int), (strSc d k : Int) + (ceilDiv (rowLen0 dims) 32 * rowCount dims : Nat))] else []
    let idx : List (Int × Int) := match vxReduce d with
      | some (f, _) => if k = 3 && isArg f then [((strSc d 3 : Int), (strSc d 3 : Int) + (4 * vxOuts d : Nat))] else []
      | none => []
    rows ++ codes ++ idx

def overlaps (x y : Int × Int) : Bool := decide (x.1 < y.2 ∧ y.1 < x.2)

/-- The region that wholly holds a range; none where no region does. -/
def rangeRegion (x : Int × Int) : Option Region :=
  if x.1 < 0 then none
  else match regionOf x.1.toNat with
    | some r => if x.2 ≤ (regionHi r : Int) then some r else none
    | none => none

/-- The range of the histogram record. -/
def histRange (d : Desc) : Int × Int := ((d.le 0x34 4 : Nat), (d.le 0x34 4 + 512 : Nat))

/-- Element size in bytes for alignment: 2, 4, 8; 1 for smaller formats (R217). -/
def alignOf (f : Nat) : Nat := match fmtBits f with | 64 => 8 | 32 => 4 | 16 => 2 | _ => 1

/-- Conditions on a stream word (R217), with the offsets of their fields. -/
def strInvalid (d : Desc) (k : Nat) : List (Bool × Nat) :=
  let b := strBase k
  if !strEn d k then []
  else
    let f := strFmt d k
    let al := alignOf f
    let fp6 := f = 6 || f = 7
    let nd := (strDims d k).length
    let v := vxVer d
    [(decide (strOff d k % al ≠ 0), b),
     (decide (d.bf (b + 4) 7 25 ≠ 0) || (k = 3 && decide (d.bf (b + 4) 4 1 ≠ 0 ∨ d.bf (b + 4) 6 1 ≠ 0))
        || (strMx d k && (strBcast d k || (if k = 3 then v = 1 else v ≤ 2) || vxType d = 9)), b + 4)]
    ++ (List.range 4).map (fun j =>
      (decide (j + 1 < nd) && (decide (strStride d k (j + 1) % (al : Int) ≠ 0) || (fp6 && decide (strStride d k (j + 1) % 3 ≠ 0))), b + 8 + 4 * j))
    ++ [(vxType d = 9 && decide (strS d k ≠ 0x3F800000), b + 0x1C)]

/-- VX_DESC_INVALID (R217, R218, R220) in the order of the fields. -/
def vxInvalid (d : Desc) : Option Nat :=
  let v := vxVer d
  let ct := vxCt d
  let ro := vxOrder d
  let maxSt := if v = 1 then 4 else 8
  let maxD := if v = 1 then 3 else 5
  let shape := decide (vxStages d = 0 ∨ maxSt < vxStages d ∨ vxDims d = 0 ∨ maxD < vxDims d ∨ d.bf 1 7 1 ≠ 0)
  let early := firstField
    [(shape, 0x01),
     (decide (ro = 3 ∨ ct = 3) || (v = 1 && decide (ro ≠ 0 ∨ ct ≠ 0 ∨ d.bf 2 3 3 ≠ 0)) || (v = 2 && decide (ro = 1 ∨ ct = 1)), 0x02)]
  match early with
  | some f => some f
  | none =>
    firstField (
      (List.range 5).map (fun i => (decide (vxDims d ≤ i ∧ d.le (4 + 2 * i) 2 ≠ 0), 4 + 2 * i))
      ++ [(decide (d.bf 0x0E 12 4 ≠ 0) || (v = 1 && decide (d.le 0x0E 2 ≠ 0)), 0x0E), (decide (d.bf 0x10 12 4 ≠ 0), 0x10)]
      ++ nonZero d [(0x13, 1)]
      ++ (if v = 3 then [(decide (d.bf 0x14 13 3 ≠ 0), 0x14)] ++ nonZero d [(0x17, 1)] else nonZero d [(0x14, 4), (0x20, 8)])
      ++ (if v = 1 then nonZero d [(0x28, 8)] else [])
      ++ (if v = 3 then [(decide (d.bf 0x30 13 3 ≠ 0), 0x30)] ++ nonZero d [(0x33, 1)] else nonZero d [(0x30, 4)])
      ++ [(if v = 1 then decide (d.le 0x34 4 ≠ 0) else vxHist d && (decide (d.le 0x34 4 % 512 ≠ 0)
            || ((if strEn d 0 then strRanges d 0 else []) ++ (if strEn d 1 then strRanges d 1 else [])
                ++ (if strEn d 2 then strRanges d 2 else []) ++ strRanges d 3).any (overlaps (histRange d))), 0x34)]
      ++ (if v = 3 then [] else nonZero d [(0x38, 8)])
      ++ (List.range 8).map (fun i => (decide (d.bf (0x40 + 8 * i) 21 11 ≠ 0), 0x40 + 8 * i))
      ++ strInvalid d 0 ++ strInvalid d 1 ++ strInvalid d 2 ++ strInvalid d 3)

/-- A selector names an enabled stream, the immediate, or an earlier stage (R212, R219). -/
def selOk (d : Desc) (i sel : Nat) : Bool :=
  match sel with
  | 0 => strEn d 0 | 1 => strEn d 1 | 2 => strEn d 2
  | 3 => true
  | 4 => decide (1 ≤ i) | 5 => decide (2 ≤ i) | 6 => decide (1 ≤ i)
  | _ => false

/-- VX_CHAIN_INVALID (R212). -/
def vxChainBad (d : Desc) : Option Nat :=
  let n := vxStages d
  let isT (i : Nat) : Bool := match vxClass (vxFunc d i) with | some (.t, _) => true | _ => false
  let exact := vxOrder d = 1
  let arg := match vxReduce d with | some (f, _) => isArg f | none => false
  let sumFp := match vxReduce d with | some (f, _) => f = 0x40 && vxType d ≠ 9 | none => false
  firstField (
    [(exact && !sumFp, 0x02)]
    ++ (List.range n).map (fun i =>
      let bad := match vxClass (vxFunc d i) with
        | none => true
        | some (cl, k) =>
          !vxAllowed d (vxFunc d i)
          || (cl = .t && decide (2 < ((List.range (i + 1)).filter isT).length))
          || (cl = .r && decide (i + 1 < n))
          || (List.range k).any (fun j => !selOk d i (vxSel d i j))
          || (vxSetMask d i && cl ≠ .c)
          || (if cl = .r then decide (vxRed d i = 0 ∨ vxDims d < vxRed d i) else decide (vxRed d i ≠ 0))
      (bad, 0x40 + 8 * i))
    ++ [(arg && strMx d 3, 0xE4)])

/-- A stream's format is at fault (R217, R111). -/
def strFmtBad (d : Desc) (k : Nat) : Bool :=
  let f := strFmt d k
  strEn d k && (!isElemFmt f
    || (decide (regionOf (strOff d k) = some .acc) && !([0, 1, 9] : List Nat).contains f)
    || (k ≠ 3 && vxType d = 9 && decide (f ≤ 8))
    || (strMx d k && !([4, 5, 6, 7, 8, 10] : List Nat).contains f))

/-- SPACE_DENIED (R218): an input in the signal words, Y there or in the accumulator store, the histogram record outside scratchpad. -/
def strDenied (d : Desc) (k : Nat) : Bool :=
  strEn d k && (strRanges d k).any (fun x =>
    overlaps x ((regionLo .sig : Nat), (regionHi .sig : Nat)) || (k = 3 && overlaps x ((regionLo .acc : Nat), (regionHi .acc : Nat))))

/-- TILE_ADDR_INVALID (R218): a footprint not wholly inside one region. -/
def strOutside (d : Desc) (k : Nat) : Bool :=
  strEn d k && (let rs := (strRanges d k).map rangeRegion
    match rs with
    | [] => false
    | r :: rest => r.isNone || rest.any (fun x => x ≠ r))

/-- The check of R238 in its order: code, field, address. -/
def vxCheck (s : State) (t : Nat) (d : Desc) : Option (Nat × Nat × Nat) :=
  let v := vxVer d
  match d.raw with
  | some a => some (0x23, 0, a)
  | none =>
    if v = 0 ∨ 3 < v ∨ v < s.rdF (pTile t) 0x110 0 2 then some (0x24, 0, 0)
    else match vxInvalid d with
    | some f => some (0x25, f, 0)
    | none =>
      match vxChainBad d with
      | some f => some (0x26, f, 0)
      | none =>
        match firstField ((List.range 4).map (fun k => (strFmtBad d k, strBase k + 4))) with
        | some f => some (0x0B, f, 0)
        | none =>
          if cvtBad (vxCvt d) (strFmt d 3) || (v = 1 && vxCvt d % 8 = 4) then some (0x0C, 3, 0)
          else match firstField [(ordBad (d.le 0x12 1) [2] [1, 2, 3, 4], 0x12),
              (vxWaitEn d && ordBad (d.le 0x16 1) [1] [1, 2, 3, 4], 0x16), (vxRdEn d && ordBad (d.le 0x32 1) [2] [1, 2, 3, 4], 0x32)] with
          | some f => some (0x0A, f, 0)
          | none =>
            match firstField ((List.range 4).map (fun k => (strEn d k && badScale (strS d k), strBase k + 0x1C))) with
            | some f => some (0x16, f, 0)
            | none =>
              match firstField ([(vxHist d && decide (rangeRegion (histRange d) ≠ some .scratch), 0x34)]
                  ++ (List.range 4).map (fun k => (strDenied d k, strBase k))) with
              | some f => some (0x06, f, 0)
              | none =>
                (firstField ((List.range 4).map (fun k => (strOutside d k, strBase k)))).map (fun f => (0x05, f, 0))

/-! Values. -/

/-- Bits of element `k` of a packed row that begins at byte `off`. -/
def elBits (s : State) (t off w k : Nat) : Nat :=
  bits (s.tnat t (off + k * w / 8) (ceilDiv (k * w % 8 + w) 8)) (k * w % 8) w

/-- The rounding of element `n`. -/
def vxRnd (d : Desc) (n : Nat) : Rnd := rndOf (vxCvt d) (d.le 0x28 8) n

/-- A result rounded to the chain type, with its events (R211). -/
def toChain (d : Desc) (n : Nat) (anyNan : Bool) (v : FV) : FV × NEv :=
  let x := finish (vxType d) (if vxType d = 9 then rne else vxRnd d n) anyNan v
  (decodeFV (vxType d) x.1, x.2)

/-- The position of element `n` of a stream: row, place in the row. -/
def elRow (dims : List Nat) (n : Nat) : Nat × Nat := (n / rowLen0 dims, n % rowLen0 dims)

/-- The byte range of element `n` of a stream. -/
def elRange (d : Desc) (k n : Nat) : Int × Int :=
  let p := elRow (strDims d k) n
  let w := fmtBits (strFmt d k)
  let i := if strBcast d k then 0 else p.2
  let o := rowOff d k p.1
  (o + (i * w / 8 : Nat), o + (ceilDiv ((i + 1) * w) 8 : Nat))

/-- The bits of element `n` of a stream. -/
def elSpan (d : Desc) (k n : Nat) : Int × Int :=
  let p := elRow (strDims d k) n
  let w := fmtBits (strFmt d k)
  let lo := 8 * rowOff d k p.1 + (((if strBcast d k then 0 else p.2) * w : Nat) : Int)
  (lo, lo + (w : Nat))

/-- Some bit of a span is written by the output otherwise than by its element `n` on exactly that span: by another element, the bits behind a row, a scale code or an index (R224). -/
def outTouches (d : Desc) (n : Nat) (x : Int × Int) : Bool :=
  let bytes (r : Int × Int) : Int × Int := (8 * r.1, 8 * r.2)
  let rows := rowCount (strDims d 3)
  let own := elSpan d 3 n
  let mine := decide (n < vxOuts d)
  ((List.range rows).any (fun r =>
    let row := bytes (rowOff d 3 r, rowOff d 3 r + (rowBytes (strFmt d 3) (rowLen0 (strDims d 3)) : Nat))
    if mine && decide (r = (elRow (strDims d 3) n).1) then
      overlaps x (row.1, own.1) || overlaps x (own.2, row.2) || (overlaps x own && decide (x ≠ own))
    else overlaps x row))
  || ((strRanges d 3).drop rows).any (fun r => overlaps x (bytes r))

/-- The address of the scale code of element `n` of a stream (R221). -/
def codeAddr (d : Desc) (k n : Nat) : Nat :=
  let p := elRow (strDims d k) n
  strSc d k + p.2 / 32 + ceilDiv (rowLen0 (strDims d k)) 32 * p.1

/-- An input element that the output overlaps elsewhere than at its own place: it reads its old value or one that the descriptor has already stored (R224). -/
def openInput (d : Desc) (k n : Nat) : Bool :=
  (strRanges d 3).any (overlaps (elRange d k n)) && outTouches d n (elSpan d k n)

/-- The same for the scale code of an input element, which has no place of its own in the output. -/
def openCode (d : Desc) (k n : Nat) : Bool :=
  (strRanges d 3).any (overlaps ((codeAddr d k n : Nat), (codeAddr d k n + 1 : Nat)))

/-- The output overlaps some input. -/
def vxOpen (d : Desc) : Bool :=
  ((List.range 3).filter (strEn d)).any (fun k => (strRanges d k).any (fun x => (strRanges d 3).any (overlaps x)))

/-- The value of element `n` of an input, exactly (R222): read from memory as the descriptor found it (`s`), or, where that is open, from memory with the earlier vectors' stores (`cur`), by a free choice for the element and one for its code. A NaN has no payload here: every load and store makes it the quiet NaN of its format (DESIGN CHOICE, log 156). -/
def inputExact (s cur : State) (t : Nat) (d : Desc) (k n : Nat) : FV :=
  let p := elRow (strDims d k) n
  let f := strFmt d k
  let pick := Config.freeWord (s.free + 3 * n + k)
  let src (o : Bool) (b : Nat) : State := if o && bit pick.toNat b then cur else s
  let v := decodeFV f (elBits (src (openInput d k n) 0) t (rowOff d k p.1).toNat (fmtBits f) (if strBcast d k then 0 else p.2))
  let w := if strMx d k then
      let c := (src (openCode d k n) 1).tnat t (codeAddr d k n) 1
      if c = 255 then .nan else fscale v ((c : Int) - 127 - (if f = 10 then 6 else 0))
    else v
  fmul w (decodeFV 1 (strS d k))

/-- An input element in the chain type. -/
def inputVal (s cur : State) (t : Nat) (d : Desc) (k n : Nat) : FV × NEv :=
  let v := inputExact s cur t d k n
  toChain d n v.isNan v

/-- A truth value of the chain. -/
def truth (b : Bool) : FV := .fin false (b2n b) 0 false

/-- Bits of an INT32 value, and back. -/
def intBits (v : FV) : Nat := uimg 32 (fvInt v)
def ofBits (x : Nat) : FV := ofInt (sint 32 x)

/-- The value of a stage function and, for class C, its comparison (R210, R211). -/
def stageFn (d : Desc) (n f : Nat) (a b c : FV) : FV × NEv × Bool :=
  let ct := vxType d
  let rdn := vxCvt d % 8 = 2
  let nan1 := a.isNan
  let nan2 := a.isNan || b.isNan
  let rnd (anyNan : Bool) (v : FV) : FV × NEv × Bool := let r := toChain d n anyNan v; (r.1, r.2, true)
  let cmp (x : Bool) : FV × NEv × Bool := (truth x, .zero, x)
  let math (f : Nat) : FV × NEv × Bool :=
    let r := mathFn f ct (vxCvt d) (vxRnd d n) (encodeFV ct rne a).1
    (decodeFV ct r.1, r.2, true)
  match f with
  | 0x00 => (a, .zero, true)
  | 0x01 => rnd nan2 (fadd rdn a b)
  | 0x02 => rnd nan2 (fadd rdn a (fneg b))
  | 0x03 => rnd nan2 (fmul a b)
  | 0x04 => rnd (nan2 || c.isNan) (fadd rdn (fmul a b) c)
  | 0x05 => rnd nan2 (fminV a b)
  | 0x06 => rnd nan2 (fmaxV a b)
  | 0x07 => rnd nan1 (fabs a)
  | 0x08 => rnd nan1 (fneg a)
  | 0x09 => rnd (nan2 || c.isNan) (fminV (fmaxV a b) c)
  | 0x0A => (if c.isZero then b else a, .zero, true)
  | 0x10 => (ofBits (intBits a &&& intBits b), .zero, true)
  | 0x11 => (ofBits (intBits a ||| intBits b), .zero, true)
  | 0x12 => (ofBits (intBits a ^^^ intBits b), .zero, true)
  | 0x13 => (ofBits (intBits a * 2 ^ (intBits b % 32)), .zero, true)
  | 0x14 => (ofBits (intBits a / 2 ^ (intBits b % 32)), .zero, true)
  | 0x15 => (ofInt (fvInt a / ((2 ^ (intBits b % 32) : Nat) : Int)), .zero, true)
  | 0x20 => cmp (!nan2 && fcmp a b = .eq)
  | 0x21 => cmp (nan2 || fcmp a b ≠ .eq)
  | 0x22 => cmp (!nan2 && fcmp a b = .lt)
  | 0x23 => cmp (!nan2 && fcmp a b ≠ .gt)
  | 0x24 => cmp (!nan2 && fcmp a b = .gt)
  | 0x25 => cmp (!nan2 && fcmp a b ≠ .lt)
  | 0x26 => (a, .zero, !a.isZero)
  | 0x33 =>
    let r := mathDiv ct (vxCvt d) (vxRnd d n) (encodeFV ct rne a).1 (encodeFV ct rne b).1
    (decodeFV ct r.1, r.2, true)
  | f => math f

/-- Operand `j` of stage `i` (R219): an input, the immediate or an earlier stage's value; `vs` holds those values, latest first. -/
def stageOperand (s cur : State) (t : Nat) (d : Desc) (n i j : Nat) (vs : List FV) : FV :=
  match vxSel d i j with
  | 3 => if vxType d = 9 then ofInt (sint 32 (vxImm d i)) else decodeFV 1 (vxImm d i)
  | 4 => (vs[0]?).getD fzero
  | 5 => (vs[1]?).getD fzero
  | 6 => vs.getLast?.getD fzero
  | x => (inputVal s cur t d x n).1

/-- The element-wise stages of element `n`, from stage `i` on: values so far (latest first), events, mask. -/
def runStages (s cur : State) (t : Nat) (d : Desc) (n : Nat) : Nat → Nat → List FV → NEv → Bool → List FV × NEv × Bool
  | 0, _, vs, e, m => (vs, e, m)
  | k + 1, i, vs, e, m =>
    let f := vxFunc d i
    let ar := match vxClass f with | some (_, a) => a | none => 0
    let operand (j : Nat) : FV := if j < ar then stageOperand s cur t d n i j vs else fzero
    let r := stageFn d n f (operand 0) (operand 1) (operand 2)
    runStages s cur t d n k (i + 1) (r.1 :: vs) (e.add r.2.1) (m && (!vxSetMask d i || r.2.2))

/-- The events of the loads of element `n`: each enabled stream is converted to the chain type once (R210, R222). -/
def loadEvents (s cur : State) (t : Nat) (d : Desc) (n : Nat) : NEv :=
  ((List.range 3).filter (strEn d)).foldl (fun e k => e.add (inputVal s cur t d k n).2) .zero

/-- Element `n` of a chain: its final value, or for a reduction the value that enters it; events; final mask. -/
def vxElement (s cur : State) (t : Nat) (d : Desc) (n : Nat) : FV × NEv × Bool :=
  match vxReduce d with
  | none =>
    let r := runStages s cur t d n (vxStages d) 0 [] (loadEvents s cur t d n) true
    ((r.1[0]?).getD fzero, r.2.1, r.2.2)
  | some _ =>
    let i := vxStages d - 1
    let r := runStages s cur t d n i 0 [] (loadEvents s cur t d n) true
    (stageOperand s cur t d n i 0 r.1, r.2.1, r.2.2)

/-! Reductions (R226-R229). -/

/-- One combination of a reduction, rounded to the chain type. -/
def redOp (d : Desc) (j f : Nat) (a b : FV) : FV × NEv :=
  let nan2 := a.isNan || b.isNan
  match f with
  | 0x40 => toChain d j nan2 (fadd (decide (vxCvt d % 8 = 2)) a b)
  | 0x41 => toChain d j nan2 (fmul a b)
  | 0x42 => (fmaxV a b, .zero)
  | 0x43 => (fminV a b, .zero)
  | 0x46 => (ofBits (intBits a &&& intBits b), .zero)
  | 0x47 => (ofBits (intBits a ||| intBits b), .zero)
  | 0x48 => (ofBits (intBits a ^^^ intBits b), .zero)
  | _ => (a, .zero)

/-- Combine two optional values; one alone passes on unchanged. -/
def redOpt (d : Desc) (j f : Nat) (x y : Option FV) : Option FV × NEv :=
  match x, y with
  | some a, some b => let r := redOp d j f a b; (some r.1, r.2)
  | some a, none => (some a, .zero)
  | none, y => (y, .zero)

/-- One level of the tree: neighbours combined. -/
def treeLevel (d : Desc) (j f : Nat) : List (Option FV) → List (Option FV) × NEv
  | a :: b :: r =>
    let x := redOpt d j f a b
    let y := treeLevel d j f r
    (x.1 :: y.1, x.2.add y.2)
  | l => (l, .zero)

/-- A chunk of 32 combined by the balanced tree (R227). -/
def treeChunk (d : Desc) (j f : Nat) : Nat → List (Option FV) × NEv → Option FV × NEv
  | 0, x => ((x.1[0]?).getD none, x.2)
  | n + 1, x => let y := treeLevel d j f x.1; treeChunk d j f n (y.1, x.2.add y.2)

/-- The fixed tree: chunks of 32 reduced indices, then the chunks one at a time (R227). -/
def treeAll (d : Desc) (j f : Nat) (l : List (Option FV)) : Option FV × NEv :=
  ((List.range (ceilDiv l.length 32)).map (fun c => treeChunk d j f 5 ((l.drop (32 * c)).take 32, .zero))).foldl
    (fun acc x => let r := redOpt d j f acc.1 x.1; (r.1, (acc.2.add x.2).add r.2)) (none, .zero)

/-- Partial results combined in an order that nothing fixes (R227, arrival): two free picks at a time. -/
def arrival (d : Desc) (j f : Nat) : Nat → Nat → List FV → NEv → Option FV × NEv
  | 0, _, l, e => (l.head?, e)
  | k + 1, free, l, e =>
    match l with
    | [] => (none, e)
    | [x] => (some x, e)
    | _ =>
      let i := (Config.freeWord free).toNat % l.length
      let a := (l[i]?).getD fzero
      let l1 := l.eraseIdx i
      let p := (Config.freeWord (free + 1)).toNat % l1.length
      let b := (l1[p]?).getD fzero
      let r := redOp d j f a b
      arrival d j f k (free + 2) (r.1 :: l1.eraseIdx p) (e.add r.2)

/-- The element that argmax or argmin chooses: the lowest index among equals (R228). -/
def argPick (mx : Bool) (l : List (Nat × FV)) : Option (Nat × FV) :=
  l.foldl (fun acc x =>
    match acc with
    | none => some x
    | some b =>
      let strict : Bool := if b.2.isNan then !x.2.isNan else if x.2.isNan then false
        else match fcmp x.2 b.2 with
          | .gt => mx
          | .lt => !mx
          | .eq => x.2.isZero && b.2.isZero && x.2.neg != b.2.neg && (if mx then b.2.neg else x.2.neg)
      if strict then some x else some b) none

/-- The empty result in the chain type (R229). -/
def emptyVal (d : Desc) (f : Nat) : FV :=
  let int := vxType d = 9
  match f with
  | 0x41 => .fin false 1 0 false
  | 0x42 => if int then ofInt (-(2 ^ 31)) else .inf true
  | 0x44 => if int then ofInt (-(2 ^ 31)) else .inf true
  | 0x43 => if int then ofInt (2 ^ 31 - 1) else .inf false
  | 0x45 => if int then ofInt (2 ^ 31 - 1) else .inf false
  | 0x46 => ofInt (-1)
  | _ => fzero

/-- An output of a reduction: its value (not yet divided by s), index, whether it is empty, whether it is exact (no rounding to the chain type), and events. -/
structure RedOut where
  val : FV
  idx : Nat
  empty : Bool
  ev : NEv

/-- The exact sum of chain values as an exact-sum cell holds it (R227). It is not rounded to the chain type, and the histogram under src = 1 classifies that total as it stands (DESIGN CHOICE, log 159). -/
def exactSum (d : Desc) (l : List FV) : FV × NEv :=
  let ct := vxType d
  let img := l.foldl (fun x v => (cellAddImg ct x (encodeFV ct rne v).1).1) 0
  let w := cellN ct
  let anyNan := l.any FV.isNan
  if bit img w || (bit img (w + 1) && bit img (w + 2)) then (.nan, ⟨0, b2n (!anyNan), 0⟩)
  else if bit img (w + 1) then (.inf false, .zero)
  else if bit img (w + 2) then (.inf true, .zero)
  else if bit img (w + 3) then (.nan, ⟨0, 1, 0⟩)
  else
    let n := sint w img
    if n = 0 then (.fin (decide (vxCvt d % 8 = 2)) 0 0 false, .zero)
    else (.fin (decide (n < 0)) n.natAbs (-(cellUnit ct : Int)) false, .zero)

/-- Reduce the active elements of output `j`: `l` holds each reduced index's value, none where inactive. -/
def reduceOut (d : Desc) (free j f : Nat) (l : List (Option FV)) : RedOut :=
  let act := l.filterMap id
  match act with
  | [] => ⟨emptyVal d f, 0xFFFFFFFF, true, .zero⟩
  | _ =>
    if f = 0x44 ∨ f = 0x45 then
      let ix := (List.range l.length).filterMap (fun i => ((l[i]?).getD none).map (fun v => (i, v)))
      match argPick (decide (f = 0x44)) ix with
      | some p => ⟨p.2, p.1, false, .zero⟩
      | none => ⟨emptyVal d f, 0xFFFFFFFF, true, .zero⟩
    else if vxType d = 9 ∧ f = 0x40 then
      let r := encodeFV 9 rne (ofInt ((act.map fvInt).foldl (· + ·) 0))
      ⟨decodeFV 9 r.1, 0, false, r.2⟩
    else if f = 0x40 ∧ vxOrder d = 1 then let r := exactSum d act; ⟨r.1, 0, false, r.2⟩
    else if vxOrder d = 2 ∧ vxType d ≠ 9 ∧ (f = 0x40 ∨ f = 0x41) then
      let r := arrival d j f act.length free act .zero
      ⟨r.1.getD fzero, 0, false, r.2⟩
    else let r := treeAll d j f l; ⟨r.1.getD fzero, 0, false, r.2⟩

/-! The store stage and the histogram (R126, R135, R136, R223, R230). -/

/-- An output value to store: linear index in Y, index of the input element whose vector stores it, value, active. -/
structure OutVal where
  n : Nat
  last : Nat
  v : FV
  act : Bool

/-- Class of a stored or presented value, for the histogram: counter number (0-63 bins, 64 zeros, 65 subnormals, 67 NaNs, 68 infinities). -/
def histClass (d : Desc) (fmt : Nat) (v : FV) : Nat :=
  match v with
  | .nan => 67
  | .inf _ => 68
  | .fin _ m e _ =>
    if m = 0 then 64
    else
      let ex : Int := (Nat.log2 m : Int) + e
      let sub : Bool := match flt fmt with
        | some f => decide (ex < 1 - (f.bias : Int))
        | none => false
      if sub then 65
      else
        let b := ex - sint 12 (d.bf 0x0E 0 12)
        if b < 0 then 0 else if 63 < b then 63 else b.toNat

/-- Count a value in a list of histogram counters: class, total, saturation (66). -/
def histCount (h : List Nat) (c : Nat) (sat : Bool) : List Nat :=
  let h1 := lmod (· + 1) (lmod (· + 1) h c) 69
  if sat then lmod (· + 1) h1 66 else h1

/-- What the store makes of one row block or element: bits by output value, events, histogram. -/
structure StoreAcc where
  items : List VxItem
  ev : List VxEvent
  hist : List Nat

/-- Events that count with the vector of index `idx`; none where nothing happened. -/
def evAt (idx : Nat) (e : NEv) : List VxEvent := if e = .zero then [] else [⟨idx, e.sat, e.nan, e.lost⟩]

/-- The place of output element `n` in Y: byte offset of its row and bit in it. -/
def outPlace (d : Desc) (n : Nat) : Nat × Nat :=
  let p := elRow (strDims d 3) n
  ((rowOff d 3 p.1).toNat, p.2 * fmtBits (strFmt d 3))

/-- The bits behind the last element of a row, in its byte or group, are written as zero (R223). -/
def padItem (d : Desc) (o : OutVal) : List VxItem :=
  let w := fmtBits (strFmt d 3)
  let p := outPlace d o.n
  let used := p.2 + w
  let full := 8 * rowBytes (strFmt d 3) (rowLen0 (strDims d 3))
  if (elRow (strDims d 3) o.n).2 + 1 = rowLen0 (strDims d 3) then
    (if used < full then [⟨o.last, p.1, used, full - used, 0, false⟩] else [])
  else []

/-- An element written as `q`. -/
def elItem (d : Desc) (o : OutVal) (q : Nat) : VxItem :=
  let p := outPlace d o.n
  ⟨o.last, p.1, p.2, fmtBits (strFmt d 3), q, true⟩

/-- The quotient by the output's scale, exact (04 R124). -/
def divScale (d : Desc) (v : FV) : FV := if strS d 3 = 0x3F800000 then v else fdiv v (decodeFV 1 (strS d 3))

/-- Store one value with no block scale. The histogram counts the saturation of this store alone, not one in an earlier stage of the element (DESIGN CHOICE, log 159). -/
def storePlain (d : Desc) (acc : StoreAcc) (o : OutVal) : StoreAcc :=
  let f := strFmt d 3
  if o.act then
    let q := encodeFV f (vxRnd d o.n) (divScale d o.v)
    let hist := if vxHist d then
        (if d.bf 2 5 1 = 1 then histCount acc.hist (histClass d (vxType d) o.v) (decide (q.2.sat ≠ 0))
         else histCount acc.hist (histClass d f (decodeFV f q.1)) (decide (q.2.sat ≠ 0)))
      else acc.hist
    ⟨acc.items ++ [elItem d o q.1] ++ padItem d o, acc.ev ++ evAt o.last q.2, hist⟩
  else if vxZero d && (vxReduce d).isNone then ⟨acc.items ++ [elItem d o 0] ++ padItem d o, acc.ev, acc.hist⟩
  else ⟨acc.items ++ padItem d o, acc.ev, acc.hist⟩

/-- The exponent subtracted for the scale of a format (R126). -/
def emaxOf (f : Nat) : Int := match f with | 4 => 8 | 5 => 15 | 6 => 4 | 7 => 2 | 8 => 2 | _ => 0

/-- The scale code of a block of quotients (R126): code, and the exponent where elements are divided. -/
def mxCode (f : Nat) (ws : List FV) : Nat × Option Int :=
  if ws.any (fun w => !w.isFin) then (255, none)
  else
    let tops := ws.filterMap (fun w => match w with
      | .fin _ m e _ => if m = 0 then none else some ((Nat.log2 m : Int) + e)
      | _ => none)
    match tops with
    | [] => (0, none)
    | x :: r =>
      let t := r.foldl (fun a b => if a < b then b else a) x - emaxOf f
      let c : Int := if t < -127 then -127 else if 127 < t then 127 else t
      ((c + 127).toNat, some c)

/-- Store a block of 32 consecutive elements of a row with its scale code, all of it with the vector that holds the block's last element, since its code is known only then (R126, R230). Under keep-old an inactive element is left as it stands, also where the code is 0 or 255 and R126 has the elements +0 (DESIGN CHOICE, log 157). -/
def storeBlock (d : Desc) (acc : StoreAcc) (os : List OutVal) : StoreAcc :=
  match os.getLast? with
  | none => acc
  | some lastO =>
    let f := strFmt d 3
    let live := os.filter (·.act)
    let code := mxCode f (live.map (fun o => divScale d o.v))
    let item : VxItem := ⟨lastO.last, codeAddr d 3 lastO.n, 0, 8, code.1, false⟩
    (os.map (fun o => { o with last := lastO.last })).foldl (fun a o =>
      if o.act then
        let w := divScale d o.v
        let q : Nat × NEv := match code.2 with
          | some x => encodeFV f (vxRnd d o.n) (fscale w (if f = 10 then 6 - x else -x))
          | none => (0, if code.1 = 255 then (if w.isNan then ⟨0, 0, 1⟩ else if w.isFin then .zero else ⟨1, 0, 0⟩) else .zero)
        let hist := if vxHist d then
            (if d.bf 2 5 1 = 1 then histCount a.hist (histClass d (vxType d) o.v) (decide (q.2.sat ≠ 0))
             else histCount a.hist (if code.1 = 255 then 67 else
               histClass d f (if f = 10 then fscale (decodeFV f q.1) 0 else decodeFV f q.1)) (decide (q.2.sat ≠ 0)))
          else a.hist
        ⟨a.items ++ [elItem d o q.1] ++ padItem d o, a.ev ++ evAt o.last q.2, hist⟩
      else if vxZero d && (vxReduce d).isNone then ⟨a.items ++ [elItem d o 0] ++ padItem d o, a.ev, a.hist⟩
      else ⟨a.items ++ padItem d o, a.ev, a.hist⟩) ⟨acc.items ++ [item], acc.ev, acc.hist⟩

/-- Blocks of 32 consecutive elements within rows; of a list that stops short of the output's end, the whole ones. -/
def rowBlocks (d : Desc) (os : List OutVal) : List (List OutVal) :=
  let n := rowLen0 (strDims d 3)
  ((List.range (rowCount (strDims d 3))).map (fun r =>
    (List.range (ceilDiv n 32)).filterMap (fun b =>
      let w := if n - 32 * b < 32 then n - 32 * b else 32
      let l := (os.drop (r * n + 32 * b)).take w
      if l.length = w then some l else none))).foldl (· ++ ·) []

/-- Everything a descriptor will store: items, events, for each empty output the index whose vector stores it, histogram counters. -/
structure VxPlan where
  items : List VxItem
  ev : List VxEvent
  empty : List Nat
  hist : List Nat

/-- What the store stage makes of a descriptor's elements, the first ones or all of them; `free0` is where the free values of the plan begin. -/
def vxMake (free0 : Nat) (d : Desc) (els : List (FV × NEv × Bool)) : VxPlan :=
  let ev0 := ((List.range els.length).map (fun n =>
    match els[n]? with
    | some x => if x.2.2 then evAt n x.2.1 else []
    | none => [])).foldl (· ++ ·) []
  let free := free0 + 3 * vxTotal d
  let red : List (RedOut × OutVal) := match vxReduce d with
    | none => []
    | some (f, _) =>
      let g := vxGroup d
      (List.range (if els.length = vxTotal d then vxOuts d else els.length / g)).map (fun j =>
        let l := ((els.drop (j * g)).take g).map (fun x => if x.2.2 then some x.1 else none)
        let r := reduceOut d (free + 2 * g * j) j f l
        (r, ⟨j, j * g + g - 1, r.val, true⟩))
  let outs : List OutVal := match vxReduce d with
    | none => (List.range els.length).map (fun n =>
        let x := (els[n]?).getD (fzero, .zero, false)
        ⟨n, n, x.1, x.2.2⟩)
    | some _ => red.map (·.2)
  let acc0 : StoreAcc := ⟨[], [], List.replicate 70 0⟩
  let acc := if strMx d 3 then (rowBlocks d outs).foldl (storeBlock d) acc0 else outs.foldl (storePlain d) acc0
  let idx : List VxItem := match vxReduce d with
    | some (f, _) => if isArg f then red.map (fun x => ⟨x.2.last, strSc d 3 + 4 * x.2.n, 0, 32, x.1.idx, false⟩) else []
    | none => []
  ⟨acc.items ++ idx, ev0 ++ acc.ev ++ (red.map (fun x => evAt x.2.last x.1.ev)).foldl (· ++ ·) [],
    (red.filter (fun x => x.1.empty)).map (fun x => x.2.last), acc.hist⟩

/-- The end of the vector that begins at linear index `p` (R223): at most 1 024 (FP64: 512) elements and 16 rows. -/
def vxEnd (d : Desc) (p : Nat) : Nat :=
  let cap := if vxType d = 0 then 512 else 1024
  let row := (p / vxDim d 0 + 16) * vxDim d 0
  let e := if p + cap < row then p + cap else row
  if e < vxTotal d then e else vxTotal d

/-- Store one item: bits merged into the old contents (R225). -/
def storeItem (t : Nat) (s : State) (x : VxItem) : State :=
  let o := x.off + x.bit / 8
  let b := x.bit % 8
  let n := ceilDiv (b + x.w) 8
  s.twr t o (toLE n (putBits (s.tnat t o n) b x.w x.val))

/-- Memory once the vectors of the elements so far have been stored; needed only where the output overlaps an input (R224). -/
def vxStored (s : State) (t : Nat) (d : Desc) (els : List (FV × NEv × Bool)) : State :=
  if vxOpen d then ((vxMake s.free d els).items.filter (fun x => decide (x.idx < els.length))).foldl (storeItem t) s else s

/-- The elements of a descriptor, vector by vector: each vector sees what the earlier ones stored where R224 leaves that open. -/
def vxElements (s : State) (t : Nat) (d : Desc) : Nat → List (FV × NEv × Bool) → List (FV × NEv × Bool)
  | 0, els => els
  | k + 1, els =>
    if vxTotal d ≤ els.length then els else
    let p := els.length
    let cur := vxStored s t d els
    vxElements s t d k (els ++ (List.range (vxEnd d p - p)).map (fun i => vxElement s cur t d (p + i)))

/-- The plan of a descriptor, from the inputs as they stand at its first vector. -/
def vxPlan (s : State) (t : Nat) (d : Desc) : VxPlan :=
  vxMake s.free d (vxElements s t d (vxTotal d) [])

/-- How many free values a descriptor's plan may have used. -/
def vxFree (d : Desc) : Nat := 5 * vxTotal d

/-! State changes. -/

def State.modVx (s : State) (t : Nat) (f : VxEng → VxEng) : State := s.modTile t (fun T => { T with vx := f T.vx })

/-- A descriptor fault (R239). -/
def vxFault (s : State) (t : Nat) (d : Desc) (code field addr done : Nat) : State :=
  let s1 := latchEng (tileNumFault s t code) t 0x490 0x4AC
    [(0x490, code + 2 ^ 31), (0x494, d.off), (0x498, d.iss.index), (0x49C, addr), (0x4A0, field), (0x4A4, d.iss.queue), (0x4A8, done)]
  let s2 := raise s1 (pTile t) 14 code d.iss.queue addr [code + 2 ^ 31, d.off, d.iss.index, addr]
  let s3 := cmdFault s2 d.iss.cmd ⟨code, 3, t, d.iss.index⟩
  match d.iss.blk with
  | some b =>
    if s.rdB (pTile t) 0x110 2 && issuerLives s t d && !(s.tile t).vx.halted.contains b then
      raise (s3.modVx t (fun e => { e with halted := e.halted ++ [b] })) (pTile t) 15 0 d.iss.queue
    else s3
  | none => s3

/-- The head descriptor fails. -/
def vxFailHead (s : State) (t : Nat) (d : Desc) (code field addr : Nat) : State :=
  (vxFault s t d code field addr 0).modVx t (fun e =>
    { e with intake := e.intake.tail, jobs := e.jobs ++ [⟨d, false, 0, [], 0, 0, [], false, code = 0x24 || !vxRdEn d, some code, [], []⟩] })

/-- The head descriptor starts (R235). -/
def vxStart (s : State) (t : Nat) (d : Desc) : State :=
  s.modVx t (fun e => { e with intake := e.intake.tail, jobs := e.jobs ++ [⟨d, false, 0, [], 0, 0, [], false, !vxRdEn d, none, [], []⟩] })

/-- A waiting head of a halted block fails at once (R239). -/
def vxAbortWaiting (s : State) (t : Nat) : State :=
  match (s.tile t).vx.intake with
  | d :: _ => if d.checked && isHalted s t d (s.tile t).vx.halted then vxFailHead s t d 0x27 0 0 else s
  | [] => s

/-- VX_DESC_CHECK: the head descriptor is checked; it fails, waits or starts (R214, R238). -/
def execVxDescCheck (t : Nat) (s : State) : Out :=
  onUnit (decide (t < 160))
    (match (s.tile t).vx.intake with
     | [] => s
     | d :: _ =>
       if !tileOn s t || d.checked then s
       else match vxCheck s t d with
       | some (c, f, a) => vxFailHead s t d c f a
       | none =>
         if isHalted s t d (s.tile t).vx.halted then vxFailHead s t d 0x27 0 0
         else if vxWaitEn d then
           s.modVx t (fun e => { e with intake := { d with checked := true, wait := some (s.ref, wdLimit s t) } :: e.intake.tail })
         else vxStart s t d)

/-- The wait of a vector descriptor holds. -/
def vxWaitMet (s : State) (t : Nat) (d : Desc) : Bool := decide (d.le 0x20 8 ≤ s.sig t (d.bf 0x14 0 12))

/-- VX_WAIT_SATISFIED: the head's signal word has reached its threshold (R232). -/
def execVxWaitSatisfied (t : Nat) (s : State) : Out :=
  onUnit (decide (t < 160))
    (match (s.tile t).vx.intake with
     | [] => s
     | d :: _ =>
       if tileOn s t && d.checked && vxWaitMet s t d then
         vxStart (sigAcquire s t (d.bf 0x14 0 12) (ordScope (d.le 0x16 1)) (engineTag t)) t d
       else s)

def VxEng.modJob (e : VxEng) (uid : Nat) (f : VxJob → VxJob) : VxEng :=
  { e with jobs := lupdate (fun j => decide (j.d.uid = uid)) f e.jobs }

/-- A counter that stops at its top. -/
def satCount (x : Nat) : Nat := if 0xFFFFFFFF < x then 0xFFFFFFFF else x

/-- The histogram record is written (04 R136, R137). -/
def writeHist (s : State) (t : Nat) (d : Desc) (h : List Nat) : State :=
  let o := d.le 0x34 4
  let accum := d.bf 2 4 1 = 1
  let old (i : Nat) : Nat := if accum then s.tnat t (o + 4 * i) 4 else 0
  let vals := (List.range 70).map (fun i => old i + (h[i]?).getD 0)
  let capped := vals.any (fun x => decide (0xFFFFFFFF ≤ x)) || (accum && bit (s.tnat t (o + 0x11C) 4) 0)
  let src := d.bf 2 5 1
  let hdr := d.bf 0x0E 0 12 + 2 ^ 16 * (if src = 0 then strFmt d 3 else vxType d) + 2 ^ 20 * src
  let bytes := (vals.map (fun x => toLE 4 (satCount x))).foldl (· ++ ·) []
  s.twr t o (bytes ++ toLE 4 hdr ++ toLE 4 (b2n capped) ++ List.replicate 224 0)

/-- Uncorrectable data among the inputs of elements `lo` to `hi` - 1 (R238). -/
def vxRawIn (s : State) (t : Nat) (d : Desc) (lo hi : Nat) : Option Nat :=
  if s.traw = [] then none
  else (List.range (hi - lo)).findSome? (fun i => ((List.range 3).filter (strEn d)).findSome? (fun k =>
    let r := elRange d k (lo + i)
    trawIn s t r.1.toNat (r.2 - r.1).toNat <|> (if strMx d k then trawIn s t (codeAddr d k (lo + i)) 1 else none)))

/-- Uncorrectable data that the next vector of a job reads; none once the inputs-read signal has told that every input was read. -/
def vxRaw (s : State) (t : Nat) (j : VxJob) : Option Nat :=
  if vxRdEn j.d && j.rdSent then none else vxRawIn s t j.d j.pos (vxEnd j.d j.pos)

/-- Every input of a job has been read (R233): its first vector has read them, and none that is still to pass meets uncorrectable data. -/
def vxAllRead (s : State) (t : Nat) (j : VxJob) : Bool := j.snap && (vxRawIn s t j.d j.pos (vxTotal j.d)).isNone

/-- The job whose vectors enter the chain: the first that has not finished (R235). -/
def vxRunning (e : VxEng) : Option VxJob := e.jobs.find? (fun j => j.fail.isNone && !j.fin)

/-- The first vector of a descriptor reads its inputs. -/
def vxSnap (s : State) (t : Nat) (j : VxJob) : State × VxJob :=
  if j.snap then (s, j)
  else
    let p := vxPlan s t j.d
    ({ s with free := s.free + vxFree j.d }, { j with snap := true, items := p.items, emptyIdx := p.empty, hist := p.hist, events := p.ev })

/-- The descriptors that a halted block has behind a failing one, checked and past their waits but not begun, fail at once (R239). -/
def vxAbortJobs (s : State) (t : Nat) : State :=
  ((s.tile t).vx.jobs.filter (fun j => !j.snap && j.fail.isNone && isHalted s t j.d (s.tile t).vx.halted)).foldl
    (fun s j => (vxFault s t j.d 0x27 0 0 0).modVx t (fun e => e.modJob j.d.uid (fun j => { j with fail := some 0x27 }))) s

/-- Count a list of numeric events in the tile's counters. -/
def countEvents (s : State) (t : Nat) (l : List VxEvent) : State :=
  tileNum s t (l.foldl (fun e x => e.add ⟨x.sat, x.nan, x.lost⟩) .zero)

/-- VX_VECTOR: the next vector passes through the chain and is stored; each brings the empty outputs it stores, and the last one the histogram record (R223, R229, R231). -/
def execVxVector (t : Nat) (s : State) : Out :=
  onUnit (decide (t < 160))
    (match vxRunning (s.tile t).vx with
     | none => s
     | some j0 =>
       if !tileOn s t then s
       else match vxRaw s t j0 with
       | some a =>
         vxAbortWaiting (vxAbortJobs ((vxFault s t j0.d 0x23 0 a j0.stored).modVx t (fun e =>
           e.modJob j0.d.uid (fun j => { j with fail := some 0x23, items := [], events := [], emptyIdx := [] }))) t) t
       | none =>
         let r := vxSnap s t j0
         let j := r.2
         let e := vxEnd j.d j.pos
         let last := decide (e = vxTotal j.d)
         let now := j.items.filter (fun x => last || decide (x.idx < e))
         let n := (now.filter (·.elem)).length
         let m := (j.emptyIdx.filter (fun x => last || decide (x < e))).length
         let s1 := (now.foldl (storeItem t) (countEvents r.1 t (j.events.filter (fun x => last || decide (x.idx < e))))).inc (pTile t) 0x488 n
         let s3 := if last && vxHist j.d then writeHist s1 t j.d j.hist else s1
         let s4 := s3.inc (pTile t) 0x48C m
         let s2 := if m ≠ 0 ∧ j.empty = 0 then raise s4 (pTile t) 16 0 j.d.iss.queue else s4
         s2.modVx t (fun e' => e'.modJob j.d.uid (fun _ =>
           { j with pos := e, items := j.items.filter (fun x => !(last || decide (x.idx < e))), stored := j.stored + n, fin := last, empty := j.empty + m, emptyIdx := j.emptyIdx.filter (fun x => !(last || decide (x < e))), events := j.events.filter (fun x => !(last || decide (x.idx < e))) })))

/-- The inputs-read signal of a job (R233). -/
def vxSendRd (s : State) (t : Nat) (j : VxJob) : State :=
  engSignal s t (j.d.bf 0x30 0 12) (j.d.le 0x38 8) 0 (j.d.le 0x32 1)

/-- VX_INPUTS_READ: every input read of a descriptor has been performed. -/
def execVxInputsRead (t : Nat) (s : State) : Out :=
  onUnit (decide (t < 160))
    (match (s.tile t).vx.jobs.find? (fun j => !j.rdSent && j.fail.isNone && vxAllRead s t j) with
     | none => s
     | some j =>
       if tileOn s t then (vxSendRd s t j).modVx t (fun e => e.modJob j.d.uid (fun j => { j with rdSent := true })) else s)

/-- VX_COMPLETION: the completion write of the oldest descriptor, bit 62 for an empty output, bit 63 for a failure (R235). -/
def execVxCompletion (t : Nat) (s : State) : Out :=
  onUnit (decide (t < 160))
    (match (s.tile t).vx.jobs with
     | [] => s
     | j :: _ =>
       if tileOn s t && (j.fail.isSome || j.fin) then
         let s1 := if j.rdSent then s else vxSendRd s t j
         let marks := (if j.empty = 0 then 0 else 2 ^ 62) + (if j.fail.isSome then 2 ^ 63 else 0)
         let s2 := engSignal s1 t (j.d.bf 0x10 0 12) (j.d.le 0x18 8) marks (j.d.le 0x12 1)
         (s2.inc (pTile t) 0x484 1).modVx t (fun e => { e with jobs := e.jobs.tail })
       else s)

end Sys2Proof.Machine
end

