-- ==== Sys2Proof/Machine/Sched.lean ====
section
/-! DEFINITION. The tile scheduler and the watchdog: delivery of launches (05_thread_groups.md R144-R146), block starts (14_power_thermal.md R454-R457), barrier and wait stalls (05 R173). -/

namespace Sys2Proof.Machine

open Sys2Proof

/-! Delivery (R145, 09_command_queues.md R283). -/

/-- A launch descriptor that a tile refuses (R144, R145): reserved bits and values, entry outside extent 0, block indices beyond 32 bits. -/
def launchBad (a : Arrive) : Bool :=
  let f (off lo len : Nat) : Nat := bits (leAt a.bytes off 4) lo len
  decide (f 0 0 16 = 0) || decide (f 2 0 6 = 0) || decide (32 < f 2 0 6) || decide (f 2 6 2 ≠ 0)
  || decide (f 3 0 8 < 2) || decide (32 < f 3 0 8) || decide (f 0xC 5 3 ≠ 0) || decide (32 < f 0xD 0 6) || decide (f 0xD 6 2 ≠ 0)
  || decide (f 0xE 0 16 ≠ 0) || decide (leAt a.bytes 8 4 % 8 ≠ 0)
  || (match a.extents.head? with | some e => decide (e.len ≤ leAt a.bytes 8 4) | none => true)
  || decide (2 ^ 32 ≤ a.base + f 0 0 16 - 1)

/-- LAUNCH_INVALID of a command: unit 1, detail 0, the lowest-numbered refusing tile, in place of any other fault (R145). -/
def launchFault (s : State) (uid t : Nat) : State :=
  { s with cmds := lupdate (fun c => decide (c.uid = uid)) (fun c =>
      { c with fault := match c.fault with
          | some f => if f.code = 0x15 ∧ f.tile ≤ t then some f else some ⟨0x15, 1, t, 0⟩
          | none => some ⟨0x15, 1, t, 0⟩ }) s.cmds }

/-- The launch that a sound descriptor makes. -/
def mkLaunch (s : State) (uid : Nat) (a : Arrive) : Launch :=
  ⟨uid, a.uid, a.queue, leAt a.bytes 0 2, bits (leAt a.bytes 2 1) 0 6, 8 * leAt a.bytes 3 1, a.base, leAt a.bytes 8 4,
    bits (leAt a.bytes 0xD 1) 0 6, (a.bytes.drop 0x10).take 64, a.extents, 0, s.ref, s.ref, 0⟩

/-- The tile is still bound to the job under the epoch of the check. -/
def boundUnder (s : State) (p : Page) (gen epoch : Nat) : Bool := boundTo s p gen && decide (s.rd p 0x28 = epoch)

/-- LAUNCH_DELIVERY: the first arriving launch is refused or taken; at a gated tile it waits (13_binding_and_jobs.md, 16 R509). -/
def execLaunchDelivery (t : Nat) (s : State) : Out :=
  onUnit (decide (t < 160))
    (match (s.tile t).arriving with
     | [] => s
     | a :: r =>
       if !alive s || !tilePowered s t then s
       else
         let s1 := s.modTile t (fun T => { T with arriving := r })
         if !boundUnder s (pTile t) a.gen a.epoch then cmdFault s1 a.uid ⟨0x34, 0, t, 0x10⟩
         else if launchBad a then launchFault (raise s1 (pTile t) 11 0x15 a.queue) a.uid t
         else s1.modTile t (fun T => { T with launches := T.launches ++ [mkLaunch s T.nextId a], nextId := T.nextId + 1 }))

/-! Block starts. -/

/-- Groups that a core could still take of blocks with `nregs` registers: 16 slots and 1 024 registers per lane (R140, R141). -/
def coreRoom (T : Tile) (nregs core : Nat) : Nat :=
  let mine := (T.blocks.map (fun b => (b.groups.filter (fun g => decide (g.core = core ∧ g.exited ≠ allLanes))).map (fun _ => b.launch.nregs))).foldl (· ++ ·) []
  let slots := 16 - mine.length
  let room := (1024 - lsum mine) / nregs
  if slots < room then slots else room

/-- The cores that take `n` groups, lowest core first; none where they do not all fit. -/
def placeGroups (T : Tile) (nregs n : Nat) : Option (List Nat) :=
  let l := ((List.range 64).map (fun c => List.replicate (coreRoom T nregs c) c)).foldl (· ++ ·) []
  if n ≤ l.length then some (l.take n) else none

/-- The launch may start a block now: below its max_resident, with room for every group (R142). -/
def launchFits (T : Tile) (l : Launch) : Bool :=
  (decide (l.maxResident = 0) || decide ((T.blocks.filter (fun b => decide (b.launch.uid = l.uid))).length < l.maxResident))
  && (placeGroups T l.nregs l.groups).isSome

/-- The active PENNANT that makes a launch heavy on a tile (14 R456). -/
def heavyOf (s : State) (t : Nat) (l : Launch) : Option Pennant :=
  s.pennants.find? (fun p => decide (p.queue = l.queue) && p.tiles.contains t)

/-- The per-tile draw of a PENNANT in µW, rounded down. -/
def pennantDraw (p : Pennant) : Int := ((10 ^ 9 * p.energy / (p.duration * p.count) : Nat) : Int)

/-- A launch starts its next block: every group gets a slot and zeroed registers at once (R142). -/
def startBlock (s : State) (t : Nat) (l : Launch) : State :=
  match placeGroups (s.tile t) l.nregs l.groups with
  | none => s
  | some cores =>
    let grp (c : Nat) : Group := ⟨c, 0, some ⟨allLanes, l.entry, []⟩, [], [], [], 0, [], [], []⟩
    let T := s.tile t
    let b : Block := ⟨T.nextId, l, l.blockBase + l.started, cores.map grp, List.replicate 8 ⟨[], none, 0, false, [], []⟩⟩
    let l' := { l with started := l.started + 1, stuck := s.ref }
    let ls := if l'.started < l.nblocks then lupdate (fun x : Launch => decide (x.uid = l.uid)) (fun _ => l') T.launches
      else
        let rest := T.launches.filter (fun x => decide (x.uid ≠ l.uid))
        if (T.launches.head?).map (·.uid) = some l.uid then
          match rest with
          | x :: r => { x with since := s.ref, stuck := s.ref, bypass := 0 } :: r
          | [] => []
        else rest
    let s1 := s.setTile t { T with nextId := T.nextId + 1, blocks := T.blocks ++ [b], launches := ls }
    match heavyOf s t l with
    | some p => { s1 with headroom := fset (fun _ => 0) s1.headroom (dieOf t) (fget (fun _ => 0) s1.headroom (dieOf t) - pennantDraw p) }
    | none => s1

/-- BLOCK_START: the next block of the earliest launch that can start; a launch that has been unable for 100 µs holds the others. With `pass`, in mode 1, an earliest candidate that is heavy beyond the headroom is passed over within its bounds (14 R454, R457). -/
def execBlockStart (t : Nat) (pass : Bool) (s : State) : Out :=
  onUnit (decide (t < 160))
    (let T := s.tile t
     match T.launches with
     | [] => s
     | h :: _ =>
       if !tileOn s t then s
       else
         let able := T.launches.filter (launchFits T)
         match able with
         | [] => s
         | l :: r =>
           let late := !launchFits T h && decide (h.stuck + 10000 ≤ s.ref)
           if late then s
           else if !pass then startBlock s t l
           else
             let heavy := match heavyOf s t l with
               | some p => decide (fget (fun _ => 0) s.headroom (dieOf t) < pennantDraw p)
               | none => false
             let bound := decide (s.rdF pPower 0x108 8 8 ≤ l.bypass) || decide (l.since + 1000 * s.rdF pPower 0x108 16 16 ≤ s.ref)
             if s.rdB pPower 0x108 0 && heavy && !bound then
               match r.find? (fun x => (heavyOf s t x).isNone) with
               | some x =>
                 startBlock (s.modTile t (fun T => { T with launches := lupdate (fun y : Launch => decide (y.uid = l.uid)) (fun y => { y with bypass := y.bypass + 1 }) T.launches })) t x
               | none => s
             else s)

/-! The watchdog (R173). -/

/-- The lanes of a group that wait at barrier `n`. -/
def Group.waitingAt (g : Group) (n : Nat) : List Nat :=
  (g.parked.map (fun k => match k.kind with | .bar m _ => if m = n then k.waiting else [] | .wait _ _ _ => [])).foldl (· ++ ·) []

/-- The threads of a block that wait at barrier `n`, ascending. -/
def Block.waitingAt (b : Block) (n : Nat) : List Nat :=
  ((List.range b.groups.length).map (fun i =>
    match b.groups[i]? with
    | some g => ((List.range 32).filter (g.waitingAt n).contains).map (fun l => 32 * i + l)
    | none => [])).foldl (· ++ ·) []

/-- The offset of the bar.sync at which a thread of a block waits at barrier `n`. -/
def Block.waitPc (b : Block) (n u : Nat) : Option Nat :=
  (b.groups[u / 32]?).bind (fun g => (g.parked.find? (fun k => match k.kind with
    | .bar m _ => decide (m = n) && k.waiting.contains (u % 32)
    | .wait _ _ _ => false)).map (·.path.pc))

/-- A barrier use that has reached its limit: reported once; with bar_action 1 the block is stopped. -/
def wdBarrier (s : State) (t : Nat) (b : Block) (n : Nat) : State :=
  match b.bars[n]? with
  | none => s
  | some x =>
    match x.since with
    | none => s
    | some s0 =>
      if x.reported || decide (s.ref < s0 + x.limit) then s
      else
        let waiting := b.waitingAt n
        let missing := b.live.filter (fun u => decide (x.count u = 0))
        let s1 := s.modBlock t b.id (fun b => { b with bars := lmod (fun x => { x with reported := true }) b.bars n })
        let s2 := stallReport s1 t 0 n 0 b.index b.launch.queue waiting missing
        if s.rdB (pTile t) 0x104 0 then
          let who := (waiting.head?).getD (((x.pcs.map (·.1)).foldl (fun m u => match m with | none => some u | some v => some (if u < v then u else v)) none).getD 0)
          let g := who / 32
          let pc := (b.waitPc n who).getD (((x.pcs.find? (fun y => decide (y.1 = who))).map (·.2)).getD 0)
          blockFault s2 t b 0x13 g (maskOf ((waiting.filter (fun u => decide (u / 32 = g))).map (· % 32))) pc 0
        else s2

/-- A parked signal wait that has reached its limit; with wait_action 1 the block is stopped. -/
def wdWait (s : State) (t : Nat) (b : Block) (grp k : Nat) : State :=
  match (b.groups[grp]?).bind (fun g => g.parked[k]?) with
  | none => s
  | some p =>
    match p.kind with
    | .bar _ _ => s
    | .wait _ _ ls =>
      if p.reported || p.ok || !s.rdB (pTile t) 0x104 2 || decide (s.ref < p.since + p.limit) then s
      else
        let word := ((ls.filter (fun y => y.got.isNone)).head?.map (·.word)).getD 0
        let s1 := s.modBlock t b.id (fun b => { b with groups := lmod (fun g => { g with parked := lmod (fun p => { p with reported := true }) g.parked k }) b.groups grp })
        let s2 := stallReport s1 t 1 0 word b.index b.launch.queue (p.waiting.map (fun l => 32 * grp + l)) []
        if s.rdB (pTile t) 0x104 1 then blockFault s2 t b 0x14 grp p.path.lanes p.path.pc (sigOff word) else s2

/-- The wait of an engine's head that has reached the watchdog limit (06 R191). -/
def engWaitLate (s : State) (d : Desc) : Bool :=
  match d.wait with
  | some (s0, lim) => decide (s0 + lim ≤ s.ref)
  | none => false

/-- WATCHDOG_EXPIRY: a barrier use, a parked wait or the wait of an engine's head descriptor has reached its limit. -/
def execWatchdogExpiry (t : Nat) (w : WdTarget) (s : State) : Out :=
  onUnit (decide (t < 160))
    (if !tileOn s t then s
     else match w with
     | .barrier blk n => match (s.tile t).block blk with | some b => wdBarrier s t b n | none => s
     | .wait blk grp k => match (s.tile t).block blk with | some b => wdWait s t b grp k | none => s
     | .mx =>
       match (s.tile t).mx.intake with
       | d :: _ =>
         if engWaitLate s d && d.checked && s.rdB (pTile t) 0x104 2 then
           mxAbortWaiting (mxFailHead (stallReport s t 1 0 (d.bf 0x58 0 12) d.iss.index d.iss.queue [] []) t d 0x14 0 0) t
         else s
       | [] => s
     | .vx =>
       match (s.tile t).vx.intake with
       | d :: _ =>
         if engWaitLate s d && d.checked && s.rdB (pTile t) 0x104 2 then
           vxAbortWaiting (vxFailHead (stallReport s t 1 0 (d.bf 0x14 0 12) d.iss.index d.iss.queue [] []) t d 0x14 0 0) t
         else s
       | [] => s
     | .dma =>
       match (s.tile t).dma.intake with
       | d :: _ =>
         if engWaitLate s d && d.checked && s.rdB (pTile t) 0x104 2 then
           dmaAbortWaiting (dmaFailHead (stallReport s t 1 0 (d.bf 0x58 0 12) d.iss.index d.iss.queue [] []) t d 0x14 0 0 0) t
         else s
       | [] => s)

end Sys2Proof.Machine
end

