-- ==== Sys2Proof/Machine/Xlat.lean ====
section
/-! DEFINITION. Translation at submission: page-table walks, contexts, handler requests, extents and the extent pool (10_translation.md R304-R316, R326, 13_binding_and_jobs.md R410). -/

namespace Sys2Proof.Machine

open Sys2Proof

/-- A base held in a low word and a high byte of a page. -/
def State.base (s : State) (p : Page) (off : Nat) : Nat := s.rd p off + 2 ^ 32 * s.rdF p (off + 4) 0 8

/-! Regions (R408, R410). -/

/-- RGN_CTL.state of a region: 0 UNBOUND, 1 SCRUBBING, 2 BOUND, 3 RELEASING. -/
def rgnState (s : State) (r : Nat) : Nat := s.rdF pHoist (0x408 + 16 * r) 20 2
def rgnBase (s : State) (r : Nat) : Nat := s.rdF pHoist (0x400 + 16 * r) 0 19 * 2 ^ 21
def rgnLen (s : State) (r : Nat) : Nat := s.rdF pHoist (0x404 + 16 * r) 0 19 * 2 ^ 21
def rgnSlot (s : State) (r : Nat) : Nat := s.rdF pHoist (0x408 + 16 * r) 0 4
/-- JOB_GEN of a slot. -/
def jobGen (s : State) (j : Nat) : Nat := s.rd pHoist (0x300 + 16 * j)

/-- The regions bound to a job generation. -/
def rgnsOf (s : State) (gen : Nat) : List Nat :=
  (List.range 32).filter (fun r => decide (rgnState s r = 2) && decide (jobGen s (rgnSlot s r) = gen))

/-- Every byte of a local range lies in the regions bound to a job (R410): each step passes to the end of a region. -/
def inRegions (s : State) (gen : Nat) : Nat → Nat → Nat → Bool
  | 0, a, e => decide (e ≤ a)
  | f + 1, a, e =>
    if e ≤ a then true
    else match (rgnsOf s gen).find? (fun r => decide (rgnBase s r ≤ a ∧ a < rgnBase s r + rgnLen s r)) with
    | some r => inRegions s gen f (rgnBase s r + rgnLen s r) e
    | none => false

/-! The walk (R304-R306). -/

/-- What a walk ends in: a leaf entry with its level, a miss with cause and level, an entry that points outside enabled HBM, uncorrectable data at an address, a failed stack, or memory that holds its requests. -/
inductive WRes where
  | leaf (pte level : Nat)
  | miss (cause level : Nat)
  | outside
  | unc (a : Nat)
  | down
  | later
deriving DecidableEq, Repr

/-- Bytes that a walk reads, or what stops it. -/
def walkRead (s : State) (a n : Nat) : Except WRes Nat :=
  if !inHbm s a n then .error .outside
  else if memHeld s .xlat a n then .error .later
  else match memFault s a n with
  | some f => .error (if f.1 = 0x10 then .unc f.2 else .down)
  | none => .ok (s.hnat a n)

/-- The slices serve a walk's read where it is made (11 R334, R353). -/
def walkTouch (s : State) (a n : Nat) : State :=
  match walkRead s a n with
  | .ok _ => sliceTouch s .xlat a n false
  | .error _ => s

/-- The page number field of an entry. -/
def ptePpn (pte : Nat) : Nat := bits pte 10 44

/-- The entry is no leaf. -/
def pteNonLeaf (pte : Nat) : Bool := decide (bits pte 1 3 = 0)

/-- The entry counts as not valid: V = 0 or a reserved encoding (R304, R305). -/
def pteInvalid (pte level : Nat) : Bool :=
  !bit pte 0 || (bit pte 2 && !bit pte 1) || decide (bits pte 58 3 ≠ 0)
  || (if pteNonLeaf pte then
        bit pte 4 || bit pte 6 || bit pte 7 || bit pte 63 || decide (bits pte 54 4 ≠ 0) || decide (bits (ptePpn pte) 28 16 ≠ 0) || decide (level = 0)
      else
        decide (2 < level) || (bit pte 63 && (decide (level ≠ 0) || decide (ptePpn pte % 16 ≠ 8)))
        || decide (ptePpn pte % 2 ^ (9 * level) ≠ 0))

/-- What a leaf lacks for an access kind (1 read, 2 write, 4 atomic): 1 permission, 2 accessed, 3 dirty (R304, R306). -/
def leafMiss (pte kind : Nat) : Option Nat :=
  if !bit pte 4 || (kind ≠ 2 && !bit pte 1) || (kind ≠ 1 && !bit pte 2) then some 1
  else if !bit pte 6 then some 2
  else if kind ≠ 1 && !bit pte 7 then some 3
  else none

/-- The access kinds that a perm field names. -/
def kindsOf (perm : Nat) : List Nat := [1, 2, 4].filter (fun k => decide (perm &&& k ≠ 0))

/-- What is used where a cached entry and the one in memory may differ (R308): either of them, by a free value. -/
def eitherOf {α : Type} [DecidableEq α] (s : State) (old : Option α) (new : Except WRes α) : State × Except WRes α :=
  match old, new with
  | none, _ => (s, new)
  | some e, .ok x => if x = e then (s, new) else (s.freeNext, if freeVal s % 2 = 0 then .ok e else new)
  | some e, .error _ => (s.freeNext, if freeVal s % 2 = 0 then .ok e else new)

/-- A non-leaf entry enters the cache of 1 024 non-leaf entries. -/
def ptePut (s : State) (e : PteEnt) : State :=
  { s with xlat := { s.xlat with
    ptes := (e :: s.xlat.ptes.filter (fun x => decide ((x.ctx, x.gen, x.level, x.tag) ≠ (e.ctx, e.gen, e.level, e.tag)))).take 1024 } }

/-- The cached non-leaf entry of a level for an address. -/
def pteHit (s : State) (ctx gen level va : Nat) : Option Nat :=
  (s.xlat.ptes.find? (fun e => decide (e.ctx = ctx ∧ e.gen = gen ∧ e.level = level ∧ e.tag = va / 2 ^ (12 + 9 * level)))).map (·.pte)

/-- A walk from a table: one level for each remaining step. Valid non-leaf entries are cached, and an entry that is cached is not read again by the count of the slices. -/
def walkFrom (ctx gen va : Nat) : Nat → Nat → State → State × WRes
  | 0, _, s => (s, .miss 0 0)
  | l + 1, table, s0 =>
    let a := table + 8 * bits va (12 + 9 * l) 9
    let old := pteHit s0 ctx gen l va
    let s := if old.isSome then s0 else walkTouch s0 a 8
    match eitherOf s old (walkRead s a 8) with
    | (s1, .error e) => (s1, e)
    | (s1, .ok pte) =>
      if pteInvalid pte l then (s1, .miss 0 l)
      else if pteNonLeaf pte then
        walkFrom ctx gen va l (bits (ptePpn pte) 0 28 * 4096) (ptePut s1 ⟨ctx, gen, l, va / 2 ^ (12 + 9 * l), pte⟩)
      else (s1, .leaf pte l)

/-- log2 of the size that a leaf maps, and the global address of its first byte (R305). -/
def leafLog (pte level : Nat) : Nat := if bit pte 63 then 16 else 12 + 9 * level
def leafGa (pte level : Nat) : Nat :=
  (bits pte 54 4 * 2 ^ 56 + ptePpn pte * 4096) / 2 ^ leafLog pte level * 2 ^ leafLog pte level

/-- The two words of a context entry (R307). -/
def ctxWords (s : State) (ctx : Nat) : Except WRes (Nat × Nat) :=
  let a := s.base pXlat 0x108 + 16 * ctx
  match walkRead s a 8, walkRead s (a + 8) 8 with
  | .error e, _ => .error e
  | _, .error e => .error e
  | .ok w0, .ok w1 => .ok (w0, w1)

/-- What a context entry gives a queue of generation `gen` (R307, R308): root table and levels, or the cause that it is refused with. -/
def ctxCheck (gen : Nat) (w : Nat × Nat) : Except Nat (Nat × Nat) :=
  if (bits w.1 0 4 ≠ 9 ∧ bits w.1 0 4 ≠ 10) ∨ bits w.1 4 12 ≠ 0 ∨ bits w.1 44 20 ≠ 0 ∨ bits w.2 0 32 ≠ 0 then .error 3
  else if bits w.2 32 32 ≠ gen then .error 4
  else .ok (bits w.1 16 28 * 4096, if bits w.1 0 4 = 9 then 4 else 5)

/-- A context read from its table: root table and levels, or the cause that it is refused with. -/
def ctxEntry (s : State) (ctx gen : Nat) : Except (Nat ⊕ WRes) (Nat × Nat) :=
  if !s.enabled pXlat then .error (.inl 3)
  else match ctxWords s ctx with
  | .error e => .error (.inr e)
  | .ok w => match ctxCheck gen w with
    | .error c => .error (.inl c)
    | .ok x => .ok x

/-- A context as a translation takes it: from its table or from the cache (R308). Entries that serve a translation are cached. -/
def ctxUse (s : State) (ctx gen : Nat) : State × Except (Nat ⊕ WRes) (Nat × Nat) :=
  if !s.enabled pXlat then (s, .error (.inl 3))
  else match eitherOf (walkTouch s (s.base pXlat 0x108 + 16 * ctx) 16) ((s.xlat.ctxs.find? (fun e => decide (e.ctx = ctx))).map (fun e => (e.w0, e.w1))) (ctxWords s ctx) with
  | (s1, .error e) => (s1, .error (.inr e))
  | (s1, .ok w) => match ctxCheck gen w with
    | .error c => (s1, .error (.inl c))
    | .ok x => ({ s1 with xlat := { s1.xlat with ctxs := ⟨ctx, w.1, w.2⟩ :: s1.xlat.ctxs.filter (fun e => decide (e.ctx ≠ ctx)) } }, .ok x)

/-! A range (R285, R306, R310). -/

/-- What the translation of a range ends in: its leaves (virtual address, log2 size, global address), a fault (code, cause, address), a miss (page, kind, cause, level), or a wait. -/
inductive XRes where
  | ok (l : List (Nat × Nat × Nat))
  | fault (code cause va : Nat)
  | miss (page kind cause level : Nat)
  | held
  | later
deriving DecidableEq, Repr

/-- A walk that stopped, as the fault of its command. -/
def walkFault (va : Nat) : WRes → XRes
  | .unc _ => .fault 0x35 6 va
  | .outside => .fault 0x35 8 va
  | .down => .fault 0x11 0 va
  | .later => .later
  | .leaf _ _ => .later
  | .miss c l => .miss (va / 4096) 1 c l

/-- The cached leaf that covers an address and permits every kind (R308). -/
def tlbHit (s : State) (ctx gen va : Nat) (kinds : List Nat) : Option TlbEnt :=
  s.xlat.tlb.find? (fun e => decide (e.ctx = ctx ∧ e.gen = gen ∧ e.va ≤ va ∧ va < e.va + 2 ^ e.log)
    && kinds.all (fun k => (leafMiss e.pte k).isNone))

/-- A leaf enters the cache of 8 192 leaf entries. -/
def tlbPut (s : State) (e : TlbEnt) : State :=
  { s with xlat := { s.xlat with tlb := (e :: s.xlat.tlb.filter (fun x => decide (x ≠ e))).take 8192 } }

/-- One page of a range: the leaf that maps it. Where a cached entry differs from the table, either may be used (R308): a free value picks. -/
def xlatPage (s0 : State) (ctx gen root levels va : Nat) (kinds : List Nat) : State × Except XRes (Nat × Nat × Nat) :=
  let (s, w) := walkFrom ctx gen va levels root s0
  let fresh (s : State) : State × Except XRes (Nat × Nat × Nat) :=
    match w with
    | .leaf pte l =>
      (match kinds.findSome? (fun k => (leafMiss pte k).map (fun c => (k, c))) with
      | some (k, c) => (s, .error (.miss (va / 4096) k c l))
      | none =>
        let e : TlbEnt := ⟨ctx, gen, va / 2 ^ leafLog pte l * 2 ^ leafLog pte l, leafLog pte l, pte⟩
        (tlbPut s e, .ok (e.va, e.log, leafGa pte l)))
    | .miss c l => (s, .error (.miss (va / 4096) ((kinds.head?).getD 1) c l))
    | .unc a => (ueEvent s .xlat a, .error (walkFault va (.unc a)))
    | _ => (s, .error (walkFault va w))
  match tlbHit s ctx gen va kinds with
  | none => fresh s
  | some e =>
    let old := (e.va, e.log, leafGa e.pte ((e.log - 12) / 9))
    match w with
    | .leaf pte _ => if pte = e.pte then (s, .ok old) else if freeVal s % 2 = 0 then (s.freeNext, .ok old) else fresh s.freeNext
    | _ => if freeVal s % 2 = 0 then (s.freeNext, .ok old) else fresh s.freeNext

/-- The pages of a range in ascending order. -/
def xlatPages (ctx gen root levels : Nat) (kinds : List Nat) (hi : Nat) : Nat → Nat → State → State × XRes
  | 0, _, s => (s, .ok [])
  | f + 1, va, s =>
    if hi ≤ va then (s, .ok [])
    else match xlatPage s ctx gen root levels va kinds with
    | (s1, .error e) => (s1, e)
    | (s1, .ok x) =>
      match xlatPages ctx gen root levels kinds hi f (x.1 + 2 ^ x.2.1) s1 with
      | (s2, .ok l) => (s2, .ok (x :: l))
      | r => r

/-- Leaf by leaf, the first part of a range that is unmapped or outside the job's regions (R285, R410). -/
def xlatPlace (s : State) (gen va len : Nat) (l : List (Nat × Nat × Nat)) : Option XRes :=
  l.findSome? (fun x =>
    let lo := if x.1 < va then va else x.1
    let hi := if x.1 + 2 ^ x.2.1 < va + len then x.1 + 2 ^ x.2.1 else va + len
    let ga := x.2.2 + (lo - x.1)
    match locate s ga (hi - lo) with
    | .unmapped => some (.fault 0x07 0 lo)
    | .loc a => if inRegions s gen 33 a (a + (hi - lo)) then none else some (.fault 0x35 9 lo)
    | .remote _ _ => none)

/-- The migration in progress holds a range of a context (R321). -/
def migHolds (s : State) (ctx va len : Nat) : Bool :=
  match s.xlat.mig with
  | some m => decide (m.ctx = ctx ∧ va < m.va + m.pages * 4096 ∧ m.va < va + len)
  | none => false

/-- The translation of `len` bytes at `va` for the kinds of `perm` in context `ctx` of a job. -/
def xlatRange (s : State) (ctx gen va len perm : Nat) : State × XRes :=
  if 2 ^ 60 ≤ va then (s, .fault 0x3A 0 va)
  else match ctxUse s ctx gen with
  | (s, .error (.inl c)) => (s, .fault 0x35 c va)
  | (s, .error (.inr (.unc a))) => (ueEvent s .xlat a, walkFault va (.unc a))
  | (s, .error (.inr w)) => (s, walkFault va w)
  | (s, .ok (root, levels)) =>
    if 2 ^ (11 + 9 * levels) < va + len then (s, .fault 0x35 7 va)
    else if migHolds s ctx va len then (s, .held)
    else match xlatPages ctx gen root levels (kindsOf perm) (va + len) (len / 4096 + 2) va s with
    | (s1, .ok l) => (s1, (xlatPlace s1 gen va len l).getD (.ok l))
    | r => r

/-! Extents (R309-R311). -/

/-- A translated range before its run list has a place: virtual address, length, perm, leaves. -/
structure XRange where
  va : Nat
  len : Nat
  perm : Nat
  leaves : List (Nat × Nat × Nat)
deriving DecidableEq, Repr

/-- The leaves map to consecutive global addresses. -/
def XRange.single : List (Nat × Nat × Nat) → Bool
  | [] => true
  | [_] => true
  | x :: y :: r => decide (x.2.2 + 2 ^ x.2.1 = y.2.2) && XRange.single (y :: r)

/-- The granularity code of the smallest leaf. -/
def XRange.gran (x : XRange) : Nat :=
  let m := x.leaves.foldl (fun m y => if y.2.1 < m then y.2.1 else m) 30
  if m = 12 then 0 else if m = 16 then 1 else if m = 21 then 2 else 3

/-- The run entries: each leaf of the range contributes all its pages of that size, so the first entry is the start of the first leaf, and byte 0 is counted from there (R310; DEDUCED, log 47). -/
def XRange.runs (x : XRange) : List Nat :=
  if XRange.single x.leaves then []
  else
    let g := granLog x.gran
    (x.leaves.map (fun y => (List.range (2 ^ (y.2.1 - g))).map (fun i => y.2.2 + i * 2 ^ g))).foldl (· ++ ·) []

/-- The offset of byte 0 from the first run page. -/
def XRange.firstOff (x : XRange) : Nat := x.va - ((x.leaves.head?).map (·.1)).getD x.va

/-- The extent of a range whose run list lies at `at_`. -/
def XRange.extent (x : XRange) (at_ : Nat) : Extent :=
  if XRange.single x.leaves then
    match x.leaves with
    | y :: _ => ⟨x.len, x.perm, 0, 0, y.2.2 + (x.va - y.1), 0, 0⟩
    | [] => ⟨x.len, x.perm, 0, 0, 0, 0, 0⟩
  else ⟨x.len, x.perm, x.gran, 1, at_, x.firstOff, x.runs.length⟩

/-- The extents of a command's ranges, their run lists packed from `at_` on. -/
def placeRanges : Nat → List XRange → List Extent
  | _, [] => []
  | at_, x :: r => x.extent at_ :: placeRanges (at_ + 8 * x.runs.length) r

/-- The pool units that commands hold. -/
def poolHeld (s : State) : List (Nat × Nat) := s.cmds.filterMap (·.pool)

/-- POOL_USED follows the units held. -/
def poolUsed (s : State) : State := s.wr pXlat 0x218 (lsum ((poolHeld s).map (·.2)))

/-- The lowest free run of `n` pool units. -/
def poolFit (s : State) (n : Nat) : Option Nat :=
  (List.range (s.rdF pXlat 0x118 0 16 + 1 - n)).find? (fun u =>
    (poolHeld s).all (fun h => decide (u + n ≤ h.1 ∨ h.1 + h.2 ≤ u)))

/-- XLAT_FAULT is latched in XF or counted, and flagged (R326). -/
def xlatFault (s : State) (cause ctx va q : Nat) : State :=
  let p := pXlat
  let info := cause + ctx * 2 ^ 16 + 2 ^ 31
  let s1 := if s.rdB p 0x220 31 then s.inc p 0x234 1 else ((s.wr p 0x220 info).wr64 p 0x228 va).wr p 0x230 q
  raise s1 p 9 0x35 q va [info, va, va / 2 ^ 32, q]

/-! Handler requests (R313). -/

/-- Entries of the handler ring. -/
def hreqEntries (s : State) : Nat := 2 ^ s.rdF pXlat 0x124 0 4

/-- The handler ring has no room. -/
def hreqFull (s : State) : Bool := decide (diff32 (s.rd pXlat 0x200) (s.rd pXlat 0x204) = hreqEntries s)

/-- The address of the next record of the handler ring. -/
def hreqAt (s : State) : Nat := s.base pXlat 0x11C + 32 * (s.rd pXlat 0x200 % hreqEntries s)

/-- No record can be written now: the ring is full, or memory holds the write (01 R22). -/
def hreqBlocked (s : State) : Bool := hreqFull s || memHeld s .xlat (hreqAt s) 32

/-- A record is written into the handler ring, and HREQ_TAIL moves on. -/
def hreqWrite (s : State) (rest : List Byte) : State :=
  let seq := (s.rd pXlat 0x200 + 1) % 2 ^ 32
  let a := hreqAt s
  (tagRelease (memWrite s .xlat a (toLE 4 seq ++ rest)).1 a 32 3 nodeTag).wr pXlat 0x200 seq

/-- Outstanding requests change; MISS_PEND follows. -/
def setReqs (s : State) (l : List MissReq) : State := ({ s with xlat := { s.xlat with reqs := l } }).wr pXlat 0x210 l.length

/-- A miss of queue `q` at position `pos`: it joins the request outstanding for the same page and kind, posts one, or waits for a record slot. -/
def postMiss (s : State) (ctx page kind cause level q pos : Nat) : State × HWait :=
  match s.xlat.reqs.find? (fun r => decide (r.ctx = ctx ∧ r.page = page ∧ r.kind = kind)) with
  | some r =>
    (setReqs s (lupdate (fun x => decide (x.seq = r.seq)) (fun x => { x with queues := x.queues ++ [q] }) s.xlat.reqs), .miss r.seq)
  | none =>
    if hreqBlocked s || decide (256 ≤ s.xlat.reqs.length) then (s, .ring)
    else
      let s1 := hreqWrite s (toLE 1 (16 * cause) ++ toLE 1 (kind + 8 * level) ++ toLE 2 ctx ++ toLE 8 (page * 4096)
        ++ toLE 4 q ++ toLE 4 pos ++ toLE 8 0)
      let seq := s1.rd pXlat 0x200
      (raise (setReqs s1 (s1.xlat.reqs ++ [⟨seq, ctx, page, kind, [q], s.ref⟩])) pXlat 8, .miss seq)

end Sys2Proof.Machine
end

