-- ==== Sys2Proof/Machine/Rails.lean ====
section
/-! DEFINITION. The tile rails: voltage, speed factor, switching on and off (14_power_thermal.md R439, R464, 01_architecture.md R32). -/

namespace Sys2Proof.Machine

open Sys2Proof

def State.modPower (s : State) (f : PowerSt → PowerSt) : State := { s with power := f s.power }

/-- A number kept within bounds. -/
def clamp (lo hi x : Nat) : Nat := if x < lo then lo else if hi < x then hi else x

/-! Tile rails (R439-R441, R464). -/

/-- DIE.TEMP_MAX.temp, and THERM_CFG.tj_target, in sixteenths of a degree. -/
def dieHot (s : State) (d : Nat) : Nat := s.rdF (pDie d) 0x214 0 16
def dieTarget (s : State) (d : Nat) : Nat := 16 * s.rdF (pDie d) 0x104 0 8

/-- STATUS.tripped and STATUS.emergency. -/
def dieTripped (s : State) (d : Nat) : Bool := s.rdB (pDie d) 0x14 16
def dieEmergency (s : State) (d : Nat) : Bool := s.rdB (pDie d) 0x14 17

/-- The rail of a die is switched on, and its voltage in mV. -/
def railOn (s : State) (d : Nat) : Bool := s.power.rails.contains d
def railMv (s : State) (d : Nat) : Nat := fget (fun _ => 0) s.power.rail d

/-- The factor s at a rail column in 1/100 (01_architecture.md R32): row by voltage step, column by temperature step. -/
def speedCell (row col : Nat) : Nat :=
  let t : List (List Nat) := [[74, 72, 70, 68], [84, 82, 80, 78], [94, 92, 90, 88], [104, 102, 100, 98], [113, 111, 109, 107], [122, 120, 117, 115]]
  ((t[row]?).bind (fun r => r[col]?)).getD 0

/-- The factor s in units of 1/0x4000, interpolated linearly in voltage (mV) and temperature (1/16 degree), rounded down (01 R32). -/
def speedFactor (mv temp : Nat) : Nat :=
  let v := clamp 600 850 mv - 600
  let t := clamp 720 1680 temp - 720
  let r := if v / 50 < 5 then v / 50 else 4
  let c := if t / 320 < 3 then t / 320 else 2
  let dv := v - 50 * r
  let dt := t - 320 * c
  let n := (50 - dv) * ((320 - dt) * speedCell r c + dt * speedCell r (c + 1)) + dv * ((320 - dt) * speedCell (r + 1) c + dt * speedCell (r + 1) (c + 1))
  0x4000 * n / (100 * 50 * 320)

/-- RAIL.meas and S_NOW follow the rail and the temperature. -/
def railRegs (s : State) (d : Nat) : State :=
  (s.wrF (pDie d) 0x200 16 10 (railMv s d)).wr (pDie d) 0x210 (if railOn s d then speedFactor (railMv s d) (dieHot s d) else 0)

/-- A rail takes a voltage. -/
def setRail (s : State) (d mv : Nat) : State := railRegs (s.modPower (fun w => { w with rail := fset (fun _ => 0) w.rail d mv })) d

/-- A rail is switched off. -/
def railOff (s : State) (d : Nat) : State :=
  setRail ((s.modPower (fun w => { w with rails := sremove d w.rails })).wrF (pDie d) 0x200 0 10 0) d 0

/-- A rail is switched on at 0.60 V. -/
def railStart (s : State) (d : Nat) : State :=
  setRail ((s.modPower (fun w => { w with rails := sinsert d w.rails })).wrF (pDie d) 0x200 0 10 600) d 600

/-- Every rail is switched off. -/
def railsOff (s : State) : State := (List.range 4).foldl railOff s

end Sys2Proof.Machine
end

