-- ==== Sys2Proof/Machine/Bind.lean ====
section
/-! DEFINITION. Binding of tiles, queues and connections: BIND_REQ with its outcomes, held binds, job slot states, quarantine (13_binding_and_jobs.md R402-R407, R413-R415), and ungating (16_bringup_errors_test.md R509). -/

namespace Sys2Proof.Machine

open Sys2Proof

def State.modBind (s : State) (f : BindSt → BindSt) : State := { s with bind := f s.bind }

/-! Job slots (R402). -/

/-- JOB_STATE.state of a slot: 0 FREE, 1 PREPARING, 2 READY, 3 STARTED, 4 TEARDOWN. -/
def jobState (s : State) (j : Nat) : Nat := s.rdF pHoist (0x308 + 16 * j) 0 3
def setJobState (s : State) (j v : Nat) : State := s.wrF pHoist (0x308 + 16 * j) 0 3 v

/-- The slot that holds a generation. -/
def slotOf (s : State) (gen : Nat) : Option Nat :=
  if gen = 0 then none else (List.range 16).find? (fun j => decide (jobState s j ≠ 0) && decide (jobGen s j = gen))

/-- The state of the slot that holds a generation; FREE where none does. -/
def genState (s : State) (gen : Nat) : Nat := match slotOf s gen with | some j => jobState s j | none => 0

/-- Some bind of the job is held (R405), region binds included: from their request until the region is BOUND (R409). -/
def genHeld (s : State) (gen : Nat) : Bool :=
  s.bind.holds.any (fun h => decide (h.gen = gen))
  || (List.range 32).any (fun r => decide (jobGen s (rgnSlot s r) = gen) &&
      (decide (rgnState s r = 1) || s.bind.rgnHeld.any (fun x => decide (x.1 = r))))

/-- A slot follows its held binds: READY goes back to PREPARING; PREPARING with ready written goes on to READY (R402). -/
def slotSettle (s : State) (j : Nat) : State :=
  if jobState s j = 2 ∧ genHeld s (jobGen s j) = true then setJobState s j 1
  else if jobState s j = 1 ∧ s.bind.ready.contains j = true ∧ genHeld s (jobGen s j) = false then setJobState s j 2
  else s

/-- The slot of a generation follows its held binds. -/
def genSettle (s : State) (gen : Nat) : State := match slotOf s gen with | some j => slotSettle s j | none => s

/-! Working states (R407, R412). -/

/-- The first binding flag of a page: BIND_DONE, then BIND_REFUSED, QUARANTINE and UNBOUND (R406). -/
def bindFlag (p : Page) : Nat := if p.blk = .tile then 21 else 16

/-- STATUS.state of a queue (09_command_queues.md R274): 0 UNBOUND, 1 IDLE, 2 ARMED, 3 STOPPED, 4 FROZEN, 5 DRAINING. -/
def qState (s : State) (q : Nat) : Nat := s.rdF (pQueue q) 0x14 16 3

/-- A queue enters a state; QENG.ARMED_Q counts the armed queues, and leaving ARMED ends a fetch in progress (09 R275, R279). -/
def setQState (s : State) (q st : Nat) : State :=
  let s1 := if qState s q = 2 ∧ st ≠ 2 then
      ({ s with qs := fset (fun _ => QSt.init) s.qs q { fget (fun _ => QSt.init) s.qs q with torn := none, held := none, poolAt := none } }).wr pQeng 0x200 (s.rd pQeng 0x200 - 1)
    else if qState s q ≠ 2 ∧ st = 2 then s.inc pQeng 0x200 1
    else s
  s1.wrF (pQueue q) 0x14 16 3 st

/-- Per-tile bytes all zero. -/
def scrubTile (s : State) (t : Nat) : State :=
  { s with
    tmem := s.tmem.filter (fun x => decide (x.1 / 2 ^ 32 ≠ t))
    traw := s.traw.filter (fun b => decide (64 * b / 2 ^ 32 ≠ t)) }

/-- The working state of a resource as a bind leaves it (R407). -/
def resetWork (s : State) (p : Page) : State :=
  match p.blk with
  | .tile => (scrubTile s p.inst).setTile p.inst Tile.init
  | .queue =>
    let s1 := [0x200, 0x204, 0x208, 0x20C, 0x210].foldl (fun s o => s.wr p o 0) (setQState s p.inst 1)
    poolUsed { s1 with qs := fset (fun _ => QSt.init) s1.qs p.inst QSt.init, cmds := s1.cmds.filter (fun c => decide (c.queue ≠ p.inst)) }
  | .conn => ((setConnState (s.setConn p.inst ConnSt.init) p.inst 1).wr p 0x208 0).wr p 0x20C 0
  | _ => s

/-- The watched doorbell blocks follow a queue's active set and binding (09 R287). -/
def rewatch (s : State) (q : Nat) : State :=
  let p := pQueue q
  let rest := s.mem.watch.filter (fun w => decide (w.1 ≠ q))
  { s with mem := { s.mem with
      watch := if s.rdB p 0x104 6 && decide (bstate s p ≠ 0) then rest ++ [(q, s.base p 0x118 / 64)] else rest } }

/-- bstate of a resource. -/
def setBstate (s : State) (p : Page) (v : Nat) : State :=
  let s1 := s.wrF p 0x608 0 3 v
  if p.blk = .queue then rewatch s1 p.inst else s1

/-- A tile whose power is off (14_power_thermal.md R452, 16 R509). -/
def gated (s : State) (p : Page) : Bool := decide (p.blk = .tile) && !tilePowered s p.inst

/-! Binds (R405). -/

/-- A bind is refused with a result code. -/
def bindRefuse (s : State) (p : Page) (code : Nat) : State := raise (s.wrF p 0x608 4 4 code) p (bindFlag p + 1)

/-- A bind takes effect: epoch and generation, BOUND, a fresh working state, BIND_DONE. -/
def bindApply (s : State) (p : Page) (epoch gen : Nat) : State :=
  let s1 := ((s.wr p 0x28 epoch).wr p 0x2C gen).wrF p 0x14 2 1 0
  let s2 := resetWork ((setBstate s1 p 2).wrF p 0x608 4 4 1) p
  raise (s2.modBind (fun b => { b with bound := (b.bound.filter (fun x => decide (x ≠ p))) ++ [p] })) p (bindFlag p)

/-- The resource is in teardown. -/
def tearing (s : State) (p : Page) : Bool := s.bind.tds.any (fun d => d.pages.contains p)

/-- The epoch is not newer than the one that a resource holds (R405). -/
def epochOld (new old : Nat) : Bool := decide (diff32 new old = 0 ∨ 2 ^ 31 ≤ diff32 new old)

/-- A bind request, first of a write or again when a hold ends: the rows of R405 in order. -/
def bindTry (s : State) (p : Page) (epoch gen : Nat) : State :=
  if !s.rdB p 0x10 0 then bindRefuse s p 6
  else if epochOld epoch (s.rd p 0x28) then bindRefuse s p 2
  else if genState s gen = 0 ∨ genState s gen = 4 then bindRefuse s p 3
  else if s.bind.holds.any (fun h => decide (h.page = p)) then bindRefuse s p 5
  else if tearing s p || gated s p then
    let s1 := (s.modBind (fun b => { b with holds := b.holds ++ [⟨p, epoch, gen, bstate s p⟩] })).wrF p 0x608 3 1 1
    genSettle (if tearing s p then s1 else setBstate s1 p 1) gen
  else if bstate s p = 2 ∧ s.quarantined p = false then bindRefuse s p 4
  else bindApply s p epoch gen

/-- A held bind is checked again once its resource is UNBOUND or ungated; held then clears. -/
def holdApply (s : State) (p : Page) : State :=
  match s.bind.holds.find? (fun h => decide (h.page = p)) with
  | none => s
  | some h =>
    let s1 := (s.modBind (fun b => { b with holds := b.holds.filter (fun x => decide (x.page ≠ p)) })).wrF p 0x608 3 1 0
    let s2 := if bstate s p = 1 then setBstate s1 p h.prior else s1
    genSettle (bindTry s2 p h.epoch h.gen) h.gen

/-- BIND_REQ: CTRL.bind_req takes BIND_ARG as it stands (R404, R405). -/
def execBindReq (p : Page) (s : State) : Out :=
  onUnit (pageOk p && (p.blk = .tile || p.blk = .queue || p.blk = .conn))
    (if reached s p then bindTry s p (s.rd p 0x600) (s.rd p 0x604) else s)

/-- A resource becomes UNBOUND: generation 0, the epoch kept, UNBOUND flagged, a held bind applied (R403, R406, R416). -/
def unbind (s : State) (p : Page) : State :=
  let s0 := match p.blk with
    | .queue =>
      let s1 := setQState s p.inst 0
      setReqs s1 ((s1.xlat.reqs.map (fun r : MissReq => { r with queues := r.queues.filter (fun q => decide (q ≠ p.inst)) })).filter (fun r => decide (r.queues ≠ [])))
    | .conn => setConnState s p.inst 0
    | _ => s
  let s1 := setBstate ((s0.wr p 0x2C 0).wrF p 0x14 2 1 0) p 0
  let s2 := s1.modBind (fun b => { b with bound := b.bound.filter (fun x => decide (x ≠ p)) })
  holdApply (raise s2 p (bindFlag p + 3)) p

/-! Quarantine (R413, R414). -/

/-- A unit whose working state may be stale: bound, it enters quarantine; unbound, it is scrubbed. The storage is scrubbed and the working state starts anew in both cases. -/
def quarantine (s : State) (p : Page) : State :=
  if bstate s p = 2 then
    let s1 := resetWork ((setBstate s p 4).wrF p 0x14 2 1 1) p
    raise s1 p (bindFlag p + 2)
  else if bstate s p = 0 then
    match p.blk with
    | .tile => (scrubTile s p.inst).setTile p.inst Tile.init
    | .queue => setQState (resetWork s p) p.inst 0
    | .conn => setConnState (resetWork s p) p.inst 0
    | _ => s
  else if p.blk = .tile then (scrubTile s p.inst).setTile p.inst Tile.init
  else s

/-- A tile is powered again (16 R509, 14 R452): what was BOUND is quarantined, then a held bind is checked again. -/
def ungate (s : State) (t : Nat) : State :=
  let p := pTile t
  let s1 := match s.bind.holds.find? (fun h => decide (h.page = p)) with
    | some h => if bstate s p = 1 then setBstate s p h.prior else s
    | none => s
  holdApply (quarantine s1 p) p

/-- Tiles that hold anything: bound, with a held bind, or with bytes or work. -/
def busyTiles (s : State) : List Nat :=
  (List.range 160).filter (fun t => decide (bstate s (pTile t) ≠ 0) || decide (s.tile t ≠ Tile.init) || s.tmem.any (fun x => decide (x.1 / 2 ^ 32 = t)))

/-- Rails of the dies that have not tripped are switched on. -/
def railsOn (s : State) : State := (List.range 4).foldl (fun s d => if dieTripped s d then s else railStart s d) s

/-- The module leaves P1 for P0: the rails are on again and every tile is ungated (16 R509). -/
def leaveP1 (s : State) : State :=
  if powerState s = 1 then
    let s1 := railsOn (s.wrF pErrlog 0x220 4 2 0)
    (busyTiles s1).foldl (fun s t => if tilePowered s t then ungate s t else s) s1
  else s

end Sys2Proof.Machine
end

