-- ==== Sys2Proof/Machine/Regions.lean ====
section
/-! DEFINITION. HBM regions: scrubs one at a time in CACHE 0, binds and releases (13_binding_and_jobs.md R408-R411, 11_memory_system.md R359). -/

namespace Sys2Proof.Machine

open Sys2Proof

/-! Scrubs (R359). -/

/-- A region scrub of a range begins, for a region of the HOIST page or for software. -/
def scrubStart (s : State) (base len : Nat) (region : Option Nat) : State :=
  (opStart s (pCache 0) 0 0).modMem (fun m => { m with scrub := some ⟨base, len, region⟩ })

/-- All bytes of a range are zero, with valid check bits. -/
def zeroRange (s : State) (base len : Nat) : State :=
  let s1 := { s with
    hbm := s.hbm.filter (fun x => decide (x.1 < base ∨ base + len ≤ x.1))
    raw := s.raw.filter (fun b => decide (64 * b < base ∨ base + len ≤ 64 * b)) }
  if len = 0 then s1 else dropTags (ringBlocks s1 base len) base len

/-- The next region that waits for CACHE 0 is scrubbed once it is free (R409). -/
def scrubNext (s : State) : State :=
  match s.mem.scrub, s.mem.scrubWait with
  | none, r :: w => scrubStart (s.modMem (fun m => { m with scrubWait := w })) (rgnBase s r) (rgnLen s r) (some r)
  | _, _ => s

/-- A region waits for its scrub. -/
def scrubRequest (s : State) (r : Nat) : State := scrubNext (s.modMem (fun m => { m with scrubWait := m.scrubWait ++ [r] }))

/-! Binds (R409). -/

def setRgn (s : State) (r st : Nat) : State := s.wrF pHoist (0x408 + 16 * r) 20 2 st
def setRgnResult (s : State) (r v : Nat) : State := s.wrF pHoist (0x408 + 16 * r) 24 4 v

/-- Two regions share a byte. -/
def rgnMeets (s : State) (r k : Nat) : Bool :=
  decide (rgnBase s r < rgnBase s k + rgnLen s k ∧ rgnBase s k < rgnBase s r + rgnLen s r)

/-- A region bind is refused with a result. -/
def rgnRefuse (s : State) (r result : Nat) : State := raise (setRgnResult s r result) pHoist 17 0 0xFFFF (rgnBase s r) [r, result, 0, 0]

/-- A bind on an UNBOUND region: refused, held behind releasing regions, or accepted and to be scrubbed. -/
def rgnTry (s : State) (r epoch : Nat) : State :=
  let gen := jobGen s (rgnSlot s r)
  let st := jobState s (rgnSlot s r)
  let others := (List.range 32).filter (fun k => decide (k ≠ r) && rgnMeets s r k)
  let s0 := s.modBind (fun b => { b with rgnHeld := b.rgnHeld.filter (fun x => decide (x.1 ≠ r)) })
  let s1 :=
    if rgnLen s r = 0 || !inHbm s (rgnBase s r) (rgnLen s r) then rgnRefuse s0 r 3
    else if st = 0 ∨ st = 4 then rgnRefuse s0 r 4
    else if epochOld epoch (s.rd pHoist (0x40C + 16 * r)) then rgnRefuse s0 r 5
    else if others.any (fun k => decide (rgnState s k = 1 ∨ rgnState s k = 2) || s0.bind.rgnHeld.any (fun x => decide (x.1 = k))) then rgnRefuse s0 r 2
    else if others.any (fun k => decide (rgnState s k = 3)) then
      setRgnResult (s0.modBind (fun b => { b with rgnHeld := b.rgnHeld ++ [(r, epoch)] })) r 6
    else scrubRequest (setRgn (s0.wr pHoist (0x40C + 16 * r) epoch) r 1) r
  genSettle s1 gen

/-- REGION_BIND: RGN_CTL.bind on an UNBOUND region with no bind held; the epoch is RBIND_EPOCH. -/
def execRegionBind (r : Nat) (s : State) : Out :=
  onUnit (decide (r < 32))
    (if served s && decide (rgnState s r = 0) && !s.bind.rgnHeld.any (fun x => decide (x.1 = r)) then rgnTry s r (s.rd pHoist 0x600) else s)

/-! Releases (R411). -/

/-- The accepted commands of a job that have not completed. -/
def jobCmds (s : State) (gen : Nat) : List Nat := (s.cmds.filter (fun c => decide (s.rd (pQueue c.queue) 0x2C = gen))).map (·.uid)

/-- Releasing regions whose commands have all completed are scrubbed. -/
def rgnDrained (s : State) : State :=
  let ready := s.bind.rgnDrain.filter (fun x => s.cmds.all (fun c => !x.2.contains c.uid))
  ready.foldl (fun s x => scrubRequest s x.1)
    (s.modBind (fun b => { b with rgnDrain := b.rgnDrain.filter (fun x => !ready.contains x) }))

/-- A BOUND region is released. -/
def rgnRelease (s : State) (r : Nat) : State :=
  let s1 := setRgn s r 3
  rgnDrained (s1.modBind (fun b => { b with rgnDrain := b.rgnDrain ++ [(r, jobCmds s (jobGen s (rgnSlot s r)))] }))

/-- REGION_RELEASE: RGN_CTL.teardown on a BOUND region. -/
def execRegionRelease (r : Nat) (s : State) : Out :=
  onUnit (decide (r < 32)) (if served s && decide (rgnState s r = 2) then rgnRelease s r else s)

end Sys2Proof.Machine
end

