-- ==== Sys2Proof/Machine/Queue.lean ====
section
/-! DEFINITION. The command queues: doorbells, states, fetch and seal, the checks and translation of a command, its acceptance, the start and completion order, and completion records (09_command_queues.md R272-R294, R296, 10_translation.md R311). -/

namespace Sys2Proof.Machine

open Sys2Proof

def State.q (s : State) (q : Nat) : QSt := fget (fun _ => QSt.init) s.qs q
def State.setQ (s : State) (q : Nat) (x : QSt) : State := { s with qs := fset (fun _ => QSt.init) s.qs q x }

/-- Ring entries, completion entries. -/
def qEntries (s : State) (q : Nat) : Nat := 2 ^ s.rdF (pQueue q) 0x104 8 5
def cqEntries (s : State) (q : Nat) : Nat := 2 ^ s.rdF (pQueue q) 0x104 16 5

/-- The job generation that a queue is bound to. -/
def qGen (s : State) (q : Nat) : Nat := s.rd (pQueue q) 0x2C

/-- QF is latched while it is free (R278). -/
def latchQF (s : State) (q code pos detail : Nat) : State :=
  let p := pQueue q
  if s.rdB p 0x220 31 then s.inc p 0x22C 1 else ((s.wr p 0x220 (code + 2 ^ 31)).wr p 0x224 pos).wr p 0x228 detail

/-- With stop_on_fault, a fault stops an armed queue (R275, R296). -/
def faultStop (s : State) (q : Nat) : State :=
  if s.rdB (pQueue q) 0x104 5 && decide (qState s q = 2) then raise (setQState s q 3) (pQueue q) 10 0 q else s

/-! Doorbells (R274, R286, R287). -/

/-- A doorbell value reaches a queue. -/
def ringQueue (s : State) (q d : Nat) : State :=
  let p := pQueue q
  let b := s.rd p 0x200
  let h := s.rd p 0x204
  if qState s q = 0 ∨ s.quarantined p = true then s.inc p 0x708 1
  else if qState s q = 5 then s
  else if diff32 d b = 0 then s
  else if 2 ^ 31 ≤ diff32 d b then s.inc p 0x21C 1
  else if qEntries s q < diff32 d h then
    let s1 := raise (latchQF s q 0x37 h 0) p 13 0x37 q h [0x37 + 2 ^ 31, h, 0, 0]
    if qState s q = 2 then setQState s1 q 3 else s1
  else s.wr p 0x200 d

/-- DOORBELL: a write to QUEUE.DOORBELL. -/
def execDoorbell (q : Nat) (d : BitVec 32) (s : State) : Out :=
  onUnit (decide (q < 16384)) (if served s then ringQueue s q d.toNat else s)

/-- DOORBELL_BLOCK_WRITE: the engine reads a watched block that has been written and applies its first 4 bytes; uncorrectable data rings nothing. -/
def execDoorbellBlockWrite (q : Nat) (s : State) : Out :=
  onUnit (decide (q < 16384))
    (match s.mem.watch.find? (fun w => decide (w.1 = q)) with
     | none => s
     | some w =>
       if !alive s || !s.mem.dbWritten.contains q || memHeld s .qeng (64 * w.2) 4 then s
       else
         let s1 := { s with mem := { s.mem with dbWritten := sremove q s.mem.dbWritten } }
         match memRead s1 .qeng (64 * w.2) 4 with
         | (s2, .error _) => s2
         | (s2, .ok l) => ringQueue s2 q (leNat l))

/-! Arm and stop (R275, R276). -/

/-- An arm: from IDLE, STOPPED or FROZEN, enabled, with no swap pending. A failed write of the time before counts no longer (DEDUCED, log 61). -/
def armQueue (s : State) (q : Nat) : State :=
  let p := pQueue q
  if (qState s q = 1 ∨ qState s q = 3 ∨ qState s q = 4) ∧ s.rdB p 0x10 0 = true ∧ s.swapPending p = false then
    let pos := s.rd p 0x210
    let s0 := s.setQ q { s.q q with held := none, torn := none, poolAt := none, lost := none }
    let s1 := s0.wr p 0x204 pos
    setQState (if qEntries s q < diff32 (s.rd p 0x200) pos then s1.wr p 0x200 pos else s1) q 2
  else raise s p 14 0 q

/-- QUEUE_ARM: CTRL.arm; an arm also wakes the module from P1 (16_bringup_errors_test.md R509). -/
def execQueueArm (q : Nat) (s : State) : Out :=
  onUnit (decide (q < 16384))
    (if served s then
       let s1 := armQueue s q
       if qState s1 q = 2 then leaveP1 s1 else s1
     else s)

/-- QUEUE_STOP: CTRL.stop, without effect outside ARMED. -/
def execQueueStop (q : Nat) (s : State) : Out :=
  onUnit (decide (q < 16384)) (if served s && decide (qState s q = 2) then setQState s q 3 else s)

/-- CQ_HEAD_WRITE: records consumed; a value ahead of CQ_TAIL is discarded (R278). -/
def execCqHeadWrite (q : Nat) (v : BitVec 32) (s : State) : Out :=
  onUnit (decide (q < 16384))
    (let p := pQueue q
     if !served s then s
     else if 1 ≤ diff32 v.toNat (s.rd p 0x20C) ∧ diff32 v.toNat (s.rd p 0x20C) ≤ 2 ^ 31 then illegalWrite s p
     else s.wr p 0x208 v.toNat)

/-! The bytes of a command (R280-R282). -/

def cmdLe (b : List Byte) (off n : Nat) : Nat := leAt b off n
def cmdBf (b : List Byte) (off lo len : Nat) : Nat := bits (leAt b off 4) lo len

/-- CRC-16 of R281: polynomial 0x1021, initial value 0xFFFF, no reflection, no final XOR. -/
def crc16 (l : List Byte) : Nat :=
  l.foldl (fun c b => (List.range 8).foldl (fun c _ => if 0x8000 ≤ c then ((2 * c) ^^^ 0x1021) % 2 ^ 16 else 2 * c) (c ^^^ (b.toNat * 256))) 0xFFFF

/-- The seal in the last 8 bytes fits the position, and the bytes where crc_en is set (R281). -/
def sealOk (b : List Byte) (pos : Nat) (crcEn : Bool) : Bool :=
  let e := b.length - 8
  decide (leAt b e 4 = pos) && decide (leAt b (e + 6) 2 = 2 ^ 16 - 1 - pos % 2 ^ 16) && (!crcEn || decide (leAt b (e + 4) 2 = crc16 (b.take e)))

/-- Read the slots of the command at a position, wrapping at the ring's end, each as an acquire at node scope (03 R80); none where a slot cannot be read (R280, R288). -/
def readSlots (q pos : Nat) : Nat → Nat → State → State × Option (List Byte)
  | 0, _, s => (s, some [])
  | n + 1, i, s =>
    let a := s.base (pQueue q) 0x108 + 64 * ((pos + i) % 2 ^ 32 % qEntries s q)
    match memRead s .qeng a 64 with
    | (s1, .error _) => (s1, none)
    | (s1, .ok l) =>
      match readSlots q pos n (i + 1) (acquireCheck s1 a 64 3 qengTag) with
      | (s2, some r) => (s2, some (l ++ r))
      | (s2, none) => (s2, none)

/-- The command at HEAD as the engine reads it: all its slots. -/
def readCmd (s : State) (q : Nat) : State × Option (List Byte) :=
  let pos := s.rd (pQueue q) 0x204
  match readSlots q pos 1 0 s with
  | (s1, none) => (s1, none)
  | (s1, some l) =>
    match readSlots q pos (leAt l 2 1 % 64) 1 s1 with
    | (s2, some r) => (s2, some (l ++ r))
    | (s2, none) => (s2, none)

/-- Range entries of a command: offset of the first, and their number (R284). -/
def cmdRanges (b : List Byte) : Nat × Nat :=
  match cmdLe b 1 1 with
  | 1 => (0x68, if 1 ≤ cmdBf b 0x24 0 5 ∧ cmdBf b 0x24 0 5 ≤ 16 then cmdBf b 0x24 0 5 else 0)
  | 2 => (0x98, if cmdBf b 0x11 0 5 ≤ 16 then cmdBf b 0x11 0 5 else 16)
  | _ => (0, 0)

/-- Bytes that a command needs before its seal. -/
def cmdEnd (b : List Byte) : Nat :=
  match cmdLe b 1 1 with
  | 1 | 2 => (cmdRanges b).1 + 16 * (cmdRanges b).2
  | 3 => 0x30 + (if cmdLe b 0x18 2 ≤ 4040 then cmdLe b 0x18 2 else 4040)
  | 4 => 0x20
  | 5 => 0x48
  | 6 => 0x28
  | 8 => 0x20
  | _ => 0x10

/-- Reserved bits and values of a body, each with the offset of its field (R284, R455); the flag says that the field is an ORD byte. -/
def bodyBads (b : List Byte) : List (Bool × Nat × Bool) :=
  let f (off lo len : Nat) : Nat := cmdBf b off lo len
  let nz (off lo len at_ : Nat) : Bool × Nat × Bool := (decide (f off lo len ≠ 0), at_, false)
  let v1 := decide (cmdLe b 0 1 = 1)
  match cmdLe b 1 1 with
  | 1 =>
    [(decide (160 < cmdLe b 0x10 1 + cmdLe b 0x11 1), 0x10, false),
     (decide (cmdLe b 0x11 1 = 0) || decide (160 < cmdLe b 0x11 1), 0x11, false), nz 0x12 0 16 0x12,
     (decide (f 0x24 0 5 = 0) || decide (16 < f 0x24 0 5), 0x24, false)]
  | 2 => [(decide (159 < cmdLe b 0x10 1), 0x10, false), (decide (16 < f 0x11 0 5), 0x11, false), nz 0x11 5 3 0x11,
      (decide (cmdLe b 0x12 6 ≠ 0), 0x12, false)]
  | 3 =>
    [(decide (4040 < cmdLe b 0x18 2), 0x18, false)]
    ++ (if v1 then [nz 0x1A 0 8 0x1A, nz 0x1B 0 1 0x1B] else
      [(if f 0x1B 0 1 = 1 then ordBad (cmdLe b 0x1A 1) [0, 2] [1, 2, 3, 4] else ordBad (cmdLe b 0x1A 1) [0, 1, 2, 3] [0, 1, 2, 3, 4], 0x1A, true)])
    ++ [nz 0x1B 1 7 0x1B, nz 0x1C 14 18 0x1D]
    ++ (if v1 then [(decide (cmdLe b 0x20 8 ≠ 0), 0x20, false), (decide (cmdLe b 0x28 8 ≠ 0), 0x28, false)]
        else [(f 0x1B 0 1 = 1 && decide (cmdLe b 0x20 8 % 8 ≠ 0), 0x20, false)])
  | 4 => [(decide (159 < cmdLe b 0x10 1), 0x10, false), (decide (f 0x11 0 2 = 3), 0x11, false), nz 0x11 3 5 0x11,
      (ordBad (cmdLe b 0x12 1) [2] [1, 2, 3, 4], 0x12, true), nz 0x13 0 8 0x13, nz 0x14 12 4 0x15, nz 0x16 14 2 0x17]
  | 5 =>
    let aop := f 0x10 0 4
    let w := f 0x10 4 2
    [(decide (w = 3) || (decide (w = 2) && decide (aop ≠ 9)) || (decide (0xA ≤ aop) && decide (w ≠ 0)), 0x10, false), nz 0x10 6 2 0x10,
     ((if aop ≤ 9 then decide (f 0x11 0 4 ≠ 9) else decide (1 < f 0x11 0 4)), 0x11, false), nz 0x11 4 4 0x11,
     (ordBad (cmdLe b 0x12 1) [0, 1, 2, 3] [0, 1, 2, 3, 4], 0x12, true), nz 0x13 1 7 0x13, nz 0x14 14 18 0x15]
  | 6 => [(decide (cmdLe b 0x10 8 % 8 ≠ 0), 0x10, false), nz 0x18 2 6 0x18, (ordBad (cmdLe b 0x19 1) [1] [0, 1, 2, 3, 4], 0x19, true),
      (decide (cmdLe b 0x1A 6 ≠ 0), 0x1A, false)]
  | 8 => [(decide (4 < f 0x10 0 4), 0x10, false), nz 0x10 4 4 0x10, (decide (160 < cmdLe b 0x11 1 + cmdLe b 0x12 1), 0x11, false),
      (decide (cmdLe b 0x12 1 = 0), 0x12, false), nz 0x13 0 8 0x13, (decide (cmdLe b 0x14 4 = 0), 0x14, false),
      (decide (cmdLe b 0x18 4 = 0), 0x18, false), (decide (100 < cmdLe b 0x1C 1), 0x1C, false), nz 0x1D 0 24 0x1D]
  | _ => []

/-- The operations of a command version (R282). -/
def verOps (v : Nat) : List Nat := if v = 1 then [1, 2, 3, 4, 7, 9] else if v = 2 then [1, 2, 3, 4, 5, 6, 7, 9] else [1, 2, 3, 4, 5, 6, 7, 8, 9]

/-- Header and range entries, and with them the whole list of R283 step 3. -/
def cmdBads (b : List Byte) : List (Bool × Nat × Bool) :=
  let v1 := decide (cmdLe b 0 1 = 1)
  let opOk := (verOps (cmdLe b 0 1)).contains (cmdLe b 1 1)
  [(!opOk, 1, false), (opOk && decide (b.length - 8 < cmdEnd b), 2, false),
   (v1 && (decide (15 < cmdBf b 2 0 6) || decide (cmdBf b 2 6 1 ≠ 0)), 2, false), (decide (cmdLe b 3 1 ≠ 0), 3, false),
   (v1 && decide (cmdLe b 6 2 ≠ 0), 6, false), (v1 && decide (cmdLe b 8 8 ≠ 0), 8, false)]
  ++ (if opOk then bodyBads b ++
      ((List.range (cmdRanges b).2).map (fun i =>
        let o := (cmdRanges b).1 + 16 * i
        [(decide (cmdLe b (o + 8) 5 = 0), o + 8, false), (decide (cmdBf b (o + 13) 0 24 % 8 = 0) || decide (8 ≤ cmdBf b (o + 13) 0 24), o + 13, false)])).foldl (· ++ ·) []
    else [])

/-- The first offending field in byte order: code and offset (R283). -/
def firstCmdBad (b : List Byte) : Option (Nat × Nat) :=
  ((cmdBads b).filter (·.1)).foldl (fun m x =>
    let y := (if x.2.2 then 0x0A else 0x32, x.2.1)
    match m with
    | none => some y
    | some z => if y.2 < z.2 then some y else some z) none

/-- The target tiles of a command on this module. -/
def cmdTiles (b : List Byte) : List Nat :=
  match cmdLe b 1 1 with
  | 1 => (List.range (cmdLe b 0x11 1)).map (cmdLe b 0x10 1 + ·)
  | 8 => (List.range (cmdLe b 0x12 1)).map (cmdLe b 0x11 1 + ·)
  | 2 => [cmdLe b 0x10 1]
  | 4 => if cmdBf b 0x11 2 1 = 1 then [] else [cmdLe b 0x10 1]
  | _ => []

/-- A tile that a queue may feed: in TILE_MASK and bound to its job (R283 step 5). -/
def tileFed (s : State) (q t : Nat) : Bool := s.rdB (pQueue q) (0x124 + 4 * (t / 32)) (t % 32) && boundTo s (pTile t) (qGen s q)

/-- Bytes that an ATOMIC returns. -/
def atomRet (b : List Byte) : Nat := if cmdBf b 0x10 0 4 ≤ 9 then 4 * 2 ^ cmdBf b 0x10 4 2 else if cmdBf b 0x11 0 4 = 0 then 8 else 4

/-- The addresses that a command names: field offset, address, length, access kinds (R284, R306). -/
def cmdDirect (b : List Byte) : List (Nat × Nat × Nat × Nat) :=
  match cmdLe b 1 1 with
  | 3 => (if cmdLe b 0x18 2 = 0 then [] else [(0x10, cmdLe b 0x10 8, cmdLe b 0x18 2, 2)])
      ++ (if cmdBf b 0x1B 0 1 = 1 then [(0x20, cmdLe b 0x20 8, 8, 2)] else [])
  | 5 => [(0x18, cmdLe b 0x18 8, atomSize (cmdBf b 0x10 0 4) (cmdBf b 0x10 4 2) (cmdBf b 0x11 0 4), 4)]
      ++ (if cmdBf b 0x13 0 1 = 1 then [(0x40, cmdLe b 0x40 8, atomRet b, 2)] else [])
  | 6 => [(0x10, cmdLe b 0x10 8, 8, 1)]
  | _ => []

/-- Every range to translate, in order: field offset, address, length, access kinds. -/
def cmdAddrs (b : List Byte) : List (Nat × Nat × Nat × Nat) :=
  (List.range (cmdRanges b).2).map (fun i =>
    let o := (cmdRanges b).1 + 16 * i
    (o, cmdLe b o 8, cmdLe b (o + 8) 5, cmdBf b (o + 13) 0 3))
  ++ cmdDirect b

/-! Acceptance (R283, R285, R311). -/

/-- What the translation of a command ends in. -/
inductive CRes where
  | ok (l : List (Nat × XRange))
  | stop (off : Nat) (r : XRes)

/-- Translate the addresses of a command in order. -/
def xlatAll (ctx gen : Nat) : List (Nat × Nat × Nat × Nat) → State → State × CRes
  | [], s => (s, .ok [])
  | (o, va, len, perm) :: r, s =>
    match xlatRange s ctx gen va len perm with
    | (s1, .ok l) =>
      match xlatAll ctx gen r s1 with
      | (s2, .ok xs) => (s2, .ok ((o, ⟨va, len, perm, l⟩) :: xs))
      | x => x
    | (s1, e) => (s1, .stop o e)

/-- A command taken from the ring; HEAD passes it. -/
def takeCmd (s : State) (q : Nat) (c : Cmd) (nslots : Nat) : State :=
  let p := pQueue q
  let s1 := s.wr p 0x204 (s.rd p 0x204 + nslots)
  { s1 with
      cmds := s.cmds ++ [c], nextUid := s.nextUid + 1,
      qs := fset (fun _ => QSt.init) s.qs q { s.q q with held := none, torn := none, poolAt := none } }

/-- The command as read, before its translation. -/
def newCmd (s : State) (q : Nat) (b : List Byte) (known bad : Bool) (f : Option CmdFault) : Cmd :=
  ⟨s.nextUid, q, s.rd (pQueue q) 0x204, b, if known then cmdLe b 1 1 else 0, known && decide (cmdBf b 2 6 1 = 1) && decide (cmdLe b 0 1 ≠ 1),
    known && decide (cmdBf b 2 7 1 = 1), if known && decide (cmdLe b 0 1 ≠ 1) then cmdLe b 8 8 else 0, s.rdF (pQueue q) 0x120 0 12, [], [], none, [],
    bad, false, 0, 0, s.ref, none, f⟩

/-- A command fails a check: it is not executed and owes its record; the queue goes on behind it, or stops under stop_on_fault. -/
def failCheck (s : State) (q : Nat) (b : List Byte) (known : Bool) (code off : Nat) : State :=
  faultStop (takeCmd s q (newCmd s q b known true (some ⟨code, 0, 0xFF, off⟩)) (cmdBf b 2 0 6 + 1)) q

/-- The command stays at HEAD and waits. -/
def holdCmd (s : State) (q : Nat) (b : List Byte) (w : HWait) : State := s.setQ q { s.q q with held := some (b, w), torn := none }

/-- The first range that has a run list: the offset of its field and its address. -/
def firstRun (l : List (Nat × XRange)) : Nat × Nat :=
  match l.find? (fun x => decide (x.2.runs ≠ [])) with
  | some x => (x.1, x.2.va)
  | none => (0, 0)

/-- Where the run lists of a command go, and their bytes. -/
def poolAddr (s : State) (unit : Nat) : Nat := s.base pXlat 0x110 + 65536 * unit
def runBytes (l : List (Nat × XRange)) : List Byte :=
  (l.map (fun x => (x.2.runs.map (fun e => toLE 8 e)).foldl (· ++ ·) [])).foldl (· ++ ·) []

/-- The command is accepted, its run lists standing in the pool units it takes (R311). -/
def acceptCmd (s : State) (q : Nat) (b : List Byte) (l : List (Nat × XRange)) (pool : Option (Nat × Nat)) : State :=
  let es := placeRanges (poolAddr s ((pool.map (·.1)).getD 0)) (l.map (·.2))
  let nr := (cmdRanges b).2
  let c0 := newCmd s q b true false none
  let c := { c0 with
             extents := es.take nr, direct := ((l.map (·.1)).drop nr).zip (es.drop nr), pool := pool,
                     targets := (cmdTiles b).map (fun t => (t, s.rd (pTile t) 0x28)) }
  poolUsed ((takeCmd s q c (cmdBf b 2 0 6 + 1)).inc pQeng 0x204 1)

/-- The run lists are written before the command is accepted; a write that fails fails the command, and held memory keeps it waiting (01 R22). -/
def acceptRuns (s : State) (q : Nat) (b : List Byte) (l : List (Nat × XRange)) (pool : Nat × Nat) : State :=
  let runs := runBytes l
  let a := poolAddr s pool.1
  if memHeld s .qeng a runs.length then holdCmd s q b .again
  else match memWrite s .qeng a runs with
  | (s1, some f) => failCheck s1 q b true f.1 (firstRun l).1
  | (s1, none) => acceptCmd s1 q b l (some pool)

/-- The command waits for pool space, in the place it took when it first waited (R311). -/
def holdPool (s : State) (q : Nat) (b : List Byte) : State :=
  match (s.q q).poolAt with
  | some m => holdCmd s q b (.pool m)
  | none =>
    let m := s.xlat.poolNext
    holdCmd ({ s with xlat := { s.xlat with poolNext := m + 1 } }.setQ q { s.q q with poolAt := some m }) q b (.pool m)

/-- A command of another queue waits before this one; a command that has not waited stands behind none (R311). -/
def poolBehind (s : State) (q : Nat) : Bool :=
  match (s.q q).poolAt with
  | none => false
  | some m => s.qs.any (fun x => decide (x.1 ≠ q) && x.2.poolAt.any (fun k => decide (k < m)))

/-- Translated ranges take their pool space, or wait for it in order (R311). -/
def placeCmd (s : State) (q : Nat) (b : List Byte) (l : List (Nat × XRange)) : State :=
  let n := lsum (l.map (fun x => 8 * x.2.runs.length))
  let units := ceilDiv n 65536
  if n = 0 then acceptCmd s q b l none
  else if s.rdF pXlat 0x118 0 16 < units then
    failCheck (xlatFault s 5 (s.rdF (pQueue q) 0x120 0 12) (firstRun l).2 q) q b true 0x35 (firstRun l).1
  else match poolFit s units with
  | some u => if poolBehind s q then holdPool s q b else acceptRuns s q b l (u, units)
  | none => holdPool s q b

/-- Every piece of a WAIT's word lies on this module (R284). -/
def waitLocal (s : State) (b : List Byte) (l : List (Nat × XRange)) : Bool :=
  decide (cmdLe b 1 1 ≠ 6) || l.all (fun x => match x.2.leaves with
    | y :: _ => (match locate s (y.2.2 + (x.2.va - y.1)) 8 with | .loc _ => true | _ => false)
    | [] => true)

/-- The checks of R283 from step 2 on, over a command whose seal fits; `since` is that of a wait for a migration in progress. -/
def tryAccept (s : State) (q : Nat) (b : List Byte) (since : Option Nat) : State :=
  let p := pQueue q
  let v := cmdLe b 0 1
  if v < s.rdF p 0x104 0 2 ∨ s.rdF p 0x104 2 2 < v ∨ v = 0 ∨ 3 < v then failCheck s q b false 0x31 0
  else match firstCmdBad b with
  | some (c, o) => failCheck s q b true c o
  | none =>
    let ep := s.rd p 0x28
    if (if v = 1 then decide (cmdLe b 4 2 ≠ ep % 2 ^ 16) else decide (cmdLe b 4 4 ≠ ep)) then failCheck (s.inc p 0x708 1) q b true 0x33 4
    else if (cmdTiles b).any (fun t => !tileFed s q t) then failCheck s q b true 0x34 (if cmdLe b 1 1 = 8 then 0x11 else 0x10)
    else
      let ctx := s.rdF p 0x120 0 12
      match xlatAll ctx (qGen s q) (cmdAddrs b) s with
      | (s1, .ok l) =>
        if waitLocal s1 b l then placeCmd s1 q b l else failCheck s1 q b true 0x32 0x10
      | (s1, .stop o (.fault code cause va)) =>
        failCheck (if code = 0x35 then xlatFault s1 cause ctx va q else s1) q b true code o
      | (s1, .stop _ (.miss page kind cause level)) =>
        let r := postMiss s1 ctx page kind cause level q (s.rd p 0x204)
        holdCmd r.1 q b r.2
      | (s1, .stop _ .held) => holdCmd s1 q b (.mig (since.getD s.ref))
      | (s1, .stop _ _) => holdCmd s1 q b .again

/-- The queue's fetches run: an armed, enabled queue with work, not quarantined, and the engine on. -/
def fetchOn (s : State) (q : Nat) : Bool :=
  let p := pQueue q
  alive s && !s.paused && decide (powerState s ≤ 1) && s.enabled pQeng && s.enabled p && decide (qState s q = 2) && !s.quarantined p
  && decide (s.rd p 0x204 ≠ s.rd p 0x200) && !s.stalls.contains pQeng

/-- The ring slots of the command at HEAD are served. -/
def ringHeld (s : State) (q : Nat) : Bool :=
  memHeld s .qeng (s.base (pQueue q) 0x108 + 64 * (s.rd (pQueue q) 0x204 % qEntries s q)) 64

/-- A seal mismatch at the last permitted read (R288): the queue stops with TORN_COMMAND, HEAD stays, a record is owed. -/
def tornCmd (s : State) (q : Nat) (b : List Byte) : State :=
  let pos := s.rd (pQueue q) 0x204
  let c := { newCmd s q b false true (some ⟨0x30, 0, 0xFF, 0⟩) with op := cmdLe b 1 1 }
  let s1 := (setQState s q 3).inc pQeng 0x208 1
  let s2 := raise s1 (pQueue q) 8 0x30 q pos [0x30 + 2 ^ 31, pos, 0, 0]
  { s2 with cmds := s2.cmds ++ [c], nextUid := s2.nextUid + 1 }

/-- A queue has a fetch to make now. -/
def fetchReady (s : State) (q : Nat) : Bool :=
  fetchOn s q && (s.q q).torn.isNone && !s.stalls.contains pXlat
  && (match (s.q q).held with
      | some (_, .miss _) => false
      | some _ => true
      | none => !ringHeld s q)

/-- The engine's next fetch is this queue's: no other queue with a fetch to make comes before it in the round that follows the last turn (R289). -/
def fetchIsNext (s : State) (q : Nat) : Bool :=
  let after (x : Nat) : Nat := (x + 16384 - s.fetchTurn - 1) % 16384
  s.bind.bound.all (fun p => decide (p.blk ≠ .queue) || decide (after q ≤ after p.inst) || !fetchReady s p.inst)

/-- COMMAND_FETCH: in the queue's turn, the command at HEAD is read, or one that waits is tried again (R285, R288, R289). -/
def execCommandFetch (q : Nat) (s0 : State) : Out :=
  onUnit (decide (q < 16384))
    (if !fetchReady s0 q || !fetchIsNext s0 q then s0
     else
       let s := { s0 with fetchTurn := q }
       match (s.q q).held with
     | some (b, .mig t) => tryAccept s q b (some t)
     | some (b, _) => tryAccept s q b none
     | none =>
       match readCmd s q with
       | (s1, some b) =>
         if sealOk b (s.rd (pQueue q) 0x204) (s.rdB (pQueue q) 0x104 4) then tryAccept s1 q b none
         else s1.setQ q { s1.q q with torn := some (s.ref, s.ref, 0) }
       | (s1, none) => s1.setQ q { s1.q q with torn := some (s.ref, s.ref, 0) })

/-- COMMAND_REFETCH: 1.5 µs after the last read the command is read again; 64 refetches or 100 µs end it. -/
def execCommandRefetch (q : Nat) (s : State) : Out :=
  onUnit (decide (q < 16384))
    (match (s.q q).torn with
     | none => s
     | some (t0, t1, n) =>
       if !fetchOn s q || decide (s.ref < t1 + 150) || ringHeld s q then s
       else
         let s0 := s.inc (pQueue q) 0x218 1
         let r := readCmd s0 q
         let good := match r.2 with
           | some b => sealOk b (s.rd (pQueue q) 0x204) (s.rdB (pQueue q) 0x104 4)
           | none => false
         if good then tryAccept (r.1.setQ q { r.1.q q with torn := none }) q (r.2.getD []) none
         else if 64 ≤ n + 1 ∨ t0 + 10000 ≤ s.ref then tornCmd r.1 q (r.2.getD [])
         else r.1.setQ q { r.1.q q with torn := some (t0, s.ref, n + 1) })

/-! Start and completion order (R71, R72, R290-R292). -/

/-- Work of a command on the tiles: launches arriving or taken, resident blocks, descriptors not completed. -/
def Tile.works (T : Tile) (uid : Nat) : Bool :=
  T.arriving.any (fun a => decide (a.uid = uid)) || T.launches.any (fun l => decide (l.cmd = uid)) || T.blocks.any (fun b => decide (b.launch.cmd = uid))
  || (T.mx.intake ++ T.vx.intake ++ T.dma.intake ++ T.mx.jobs.map (·.d) ++ T.vx.jobs.map (·.d) ++ T.dma.jobs.map (·.d)).any (fun d => decide (d.iss.cmd = uid))

/-- A command has completed (R72): all it does is performed, its remote parts are acknowledged, and no tile works for it. -/
def cmdDone (s : State) (c : Cmd) : Bool :=
  c.begun && decide (c.stage = 2) && decide (c.remote = 0) && !s.tiles.any (fun x => x.2.works c.uid)

/-- The earlier commands of the same queue that R71 orders against: PENNANTs are transparent (R291), and a command that failed its check is not executed. -/
def cmdBefore (s : State) (c : Cmd) : List Cmd :=
  (s.cmds.takeWhile (fun x => decide (x.uid ≠ c.uid))).filter (fun x => decide (x.queue = c.queue ∧ x.op ≠ 8) && !x.bad)

/-- A completion record can still be reserved (R292). -/
def cqRoom (s : State) (q : Nat) : Bool :=
  let p := pQueue q
  let r := (s.cmds.filter (fun c => decide (c.queue = q) && c.begun)).length
  decide (diff32 ((s.rd p 0x20C + r) % 2 ^ 32) (s.rd p 0x208) < cqEntries s q)

/-- The command holds later ones back until it completes: a FENCE, a WAIT, an ATOMIC with an acquire half. -/
def cmdHolds (c : Cmd) : Bool := decide (c.op = 7 ∨ c.op = 6) || (decide (c.op = 5) && ordAcq (cmdLe c.bytes 0x12 1))

/-- The command holds later ones back: until it completes, or for an ATOMIC until its value has returned (R290). -/
def stillHolds (s : State) (c : Cmd) : Bool := cmdHolds c && !cmdDone s c && !(decide (c.op = 5) && decide (1 ≤ c.stage))

/-- The command may begin. -/
def mayBegin (s : State) (c : Cmd) : Bool :=
  let l := cmdBefore s c
  cqRoom s c.queue &&
  (decide (c.op = 8) ||
    (l.all (·.begun) && l.all (fun x => !stillHolds s x)
     && (if c.op = 7 then l.all (cmdDone s)
         else c.relaxed || (match l.getLast? with | some x => cmdDone s x | none => true))))

/-- The codes of a command whose write failed: memory, link, target or plane (R296, 08 R261). -/
def lostCodes : List Nat := [0x07, 0x10, 0x11, 0x12, 0x2C, 0x38, 0x39]

/-- The failed write of a command: the code that it failed with. -/
def Cmd.lostWrite (c : Cmd) : Option Nat := if c.bad then none else c.fault.bind (fun f => if lostCodes.contains f.code then some f.code else none)

/-- A release of the queue would cover a write that failed, with this code: it fails with it (03 R82; DEDUCED, log 61). -/
def releaseLost (s : State) (c : Cmd) : Option Nat := (cmdBefore s c).findSome? Cmd.lostWrite <|> (s.q c.queue).lost

/-- Every earlier command of the queue has completed (R290). -/
def earlierDone (s : State) (c : Cmd) : Bool := (cmdBefore s c).all (cmdDone s)

def State.modCmd (s : State) (uid : Nat) (f : Cmd → Cmd) : State :=
  { s with cmds := lupdate (fun c => decide (c.uid = uid)) f s.cmds }

/-- The accepted command of a queue at a position with an operation code. -/
def cmdAt (s : State) (q pos op : Nat) : Option Cmd :=
  s.cmds.find? (fun c => decide (c.queue = q ∧ c.pos = pos ∧ c.op = op) && !c.bad)

/-- An operation of the queue engine: the command begins as soon as it may, and goes on from where it stands. -/
def runCmd (q : Nat) (pos : BitVec 32) (op : Nat) (s : State) (f : Cmd → State → State) : Out :=
  onUnit (decide (q < 16384))
    (if !alive s || decide (1 < powerState s) then s
     else match cmdAt s q pos.toNat op with
     | none => s
     | some c =>
       if c.begun then (if c.stage = 2 then s else f c s)
       else if mayBegin s c then
         let c' := { c with begun := true, since := s.ref }
         f c' (s.modCmd c.uid (fun _ => c'))
       else s)

/-- All that the queue engine does for a command is performed. -/
def cmdEnd2 (s : State) (uid : Nat) : State := s.modCmd uid (fun c => { c with stage := 2 })

/-- A command fails in the queue engine. -/
def cmdFail (s : State) (c : Cmd) (code detail : Nat) : State := cmdEnd2 (cmdFault s c.uid ⟨code, 0, 0xFF, detail⟩) c.uid

/-- COMPLETION_RECORD: the record of a completed command, or of one that failed its check, is written; CQ_TAIL moves on; a fault latches QF, a lost record with the code of its write; pool space is free (R293, R294, R296, R311). -/
def execCompletionRecord (q : Nat) (pos : BitVec 32) (s : State) : Out :=
  onUnit (decide (q < 16384))
    (match s.cmds.find? (fun c => decide (c.queue = q ∧ c.pos = pos.toNat) && (if c.bad then cqRoom s q else cmdDone s c)) with
     | none => s
     | some c =>
       let p := pQueue q
       let seq := (s.q q).seq + 1
       let a := s.base p 0x110 + 32 * ((seq - 1) % cqEntries s q)
       if !alive s || memHeld s .qeng a 32 then s
       else
         let f := c.fault.getD ⟨0, 0, 0xFF, 0⟩
         let rec32 := toLE 8 seq ++ toLE 8 c.tag ++ toLE 4 c.pos ++ toLE 4 (s.rd p 0x204) ++ toLE 1 f.code ++ toLE 1 f.unit
           ++ toLE 1 f.tile ++ toLE 1 c.op ++ toLE 4 f.detail
         let w := memWrite s .qeng a rec32
         let lost := w.2.isSome
         let s0 := if lost then w.1 else tagRelease w.1 a 32 3 qengTag
         let s1 := ((s0.setQ q { s0.q q with seq := seq, lost := (s0.q q).lost <|> c.lostWrite }).wr p 0x20C seq)
         let s2 := { s1 with cmds := lremoveFirst (fun x => decide (x.uid = c.uid)) s1.cmds }
         let s3 := rgnDrained (poolUsed s2)
         let code := match w.2 with | some e => e.1 | none => f.code
         let detail := if lost then 0 else f.detail
         let s4 := if code = 0 then s3
           else faultStop (raise (latchQF s3 q code c.pos detail) p 9 code q c.pos [code + 2 ^ 31, c.pos, detail, 0]) q
         if c.notify then raise s4 p 12 0 q else s4)

end Sys2Proof.Machine
end

