-- ==== Sys2Proof/Machine/Operands.lean ====
section
/-! DEFINITION. The operand forms of thread instructions (05_thread_groups.md R542): registers, pairs and runs, the immediate that takes an operand's place, and the static checks of the classes that write registers. -/

namespace Sys2Proof.Machine

open Sys2Proof

/-- Registers that a value of a format occupies: FP64 a pair, all others one (R141, R542). -/
def fmtRegs (fmt : Nat) : Nat := if fmt = 0 then 2 else 1

/-- The second source: register b, or the immediate that takes its place (R542). -/
def srcB (tc : TC) (lane n : Nat) : Nat :=
  if tc.x.wide then tc.x.imm.toNat % 2 ^ (32 * n) else tc.get lane tc.x.b n

/-- The immediate took b's place and b is not zero (R542). -/
def badImmB (tc : TC) : Bool := tc.x.wide && tc.x.b ≠ 0

/-- The instruction's format code. -/
def TC.fmt (tc : TC) : Nat := tc.x.fmt.toNat

/-- The instruction's CVT byte. -/
def TC.cvt (tc : TC) : Nat := tc.x.mod.toNat

/-- The rounding of an instruction of a lane; under rnd = 4 the seed is the block index and the index is given (R542). -/
def TC.rnd (tc : TC) (idx : Nat) : Rnd := rndOf tc.cvt tc.blk.index idx

/-- Checks of a class 0 operation of two operands and a result of `n` registers (R542). -/
def checks2 (n : Nat) (tc : TC) : List (Bool × Nat) :=
  illegalCommon tc.x 1 true false ++
  [(badImmB tc, 1), (decide (tc.fmt ≠ 9), 0x0B),
   (tc.badR tc.x.dst n || tc.badR tc.x.a n || (!tc.x.wide && tc.badR tc.x.b n), 2)]

/-- Checks of a class 0 operation of one operand. -/
def checks1 (tc : TC) : List (Bool × Nat) :=
  illegalCommon tc.x 0 true false ++
  [(decide (tc.fmt ≠ 9), 0x0B), (tc.badR tc.x.dst 1 || tc.badR tc.x.a 1, 2)]

/-- Checks of a class 1 operation of `k` operands (R148, R542). -/
def checksFp (k : Nat) (tc : TC) : List (Bool × Nat) :=
  let n := fmtRegs tc.fmt
  illegalCommon tc.x 1 true true ++
  [(badImmB tc, 1), (decide (2 ≤ tc.fmt), 0x0B), (cvtBad tc.cvt tc.fmt, 0x0C),
   (tc.badR tc.x.dst n || tc.badR tc.x.a n || (decide (2 ≤ k) && !tc.x.wide && tc.badR tc.x.b n)
     || (decide (3 ≤ k) && tc.badR tc.x.c n), 2)]

/-- Checks of a comparison (R148, R542): any element format, FP64 in pairs. -/
def checksCmp (tc : TC) : List (Bool × Nat) :=
  let n := fmtRegs tc.fmt
  illegalCommon tc.x 1 true false ++
  [(badImmB tc, 1), (!isElemFmt tc.fmt, 0x0B), (tc.badR tc.x.a n || (!tc.x.wide && tc.badR tc.x.b n), 2)]

/-- Checks of a predicate operation; `two` says that p[b] is read. -/
def checksPred (two : Bool) (tc : TC) : List (Bool × Nat) :=
  illegalCommon tc.x 0 false false ++ [(two && decide (8 ≤ tc.x.b.toNat), 1)]

/-- A predicate that a field names by its low three bits. -/
def TC.predOf (tc : TC) (f : BitVec 8) (lane : Nat) : Bool := tc.grp.pred (f.toNat % 8) lane

/-- The destination predicate. -/
def TC.dstPred (tc : TC) : Nat := tc.x.dst.toNat % 8

/-- A result of `n` registers in register dst. -/
def TC.put (tc : TC) (lane n v : Nat) : List (Nat × Nat) := putN lane tc.x.dst.toNat n v

/-- Elements that one packed register holds (R151). -/
def packN (fmt : Nat) : Option Nat :=
  match fmt with
  | 4 => some 4 | 5 => some 4 | 10 => some 4
  | 6 => some 5 | 7 => some 5
  | 8 => some 8 | 11 => some 8
  | _ => none

/-- The unpacked form of a packed format: INT32 for the integers, FP32 otherwise (R151). -/
def unpackTo (fmt : Nat) : Nat := if fmt = 10 ∨ fmt = 11 then 9 else 1

/-- An operation of class 0 over two 32-bit operands. -/
def intOp2 (gr : GRef) (x : TInstr) (s : State) (f : Nat → Nat → Nat) : Out :=
  laneOp gr x s (checks2 1) (fun tc l => (tc.put l 1 (f (tc.get l tc.x.a 1) (srcB tc l 1)), .zero))

/-- An operation of class 0 over one 32-bit operand. -/
def intOp1 (gr : GRef) (x : TInstr) (s : State) (f : Nat → Nat) : Out :=
  laneOp gr x s checks1 (fun tc l => (tc.put l 1 (f (tc.get l tc.x.a 1)), .zero))

/-- A class 1 operation of one operand: its result and events from the format, the CVT byte, the rounding and the operand's bits. -/
def fpOp1 (gr : GRef) (x : TInstr) (s : State) (f : Nat → Nat → Rnd → Nat → Nat × NEv) : Out :=
  laneOp gr x s (checksFp 1) (fun tc l =>
    let n := fmtRegs tc.fmt
    let r := f tc.fmt tc.cvt (tc.rnd (tc.tid l)) (tc.get l tc.x.a n)
    (tc.put l n r.1, r.2))

/-- A class 1 operation of two operands on exact values. -/
def fpOp2 (gr : GRef) (x : TInstr) (s : State) (f : Bool → FV → FV → FV) : Out :=
  laneOp gr x s (checksFp 2) (fun tc l =>
    let n := fmtRegs tc.fmt
    let a := decodeFV tc.fmt (tc.get l tc.x.a n)
    let b := decodeFV tc.fmt (srcB tc l n)
    let r := finish tc.fmt (tc.rnd (tc.tid l)) (a.isNan || b.isNan) (f (decide (tc.cvt % 8 = 2)) a b)
    (tc.put l n r.1, r.2))

/-- An instruction that writes predicate dst of the active lanes. -/
def predOp (gr : GRef) (x : TInstr) (s : State) (checks : TC → List (Bool × Nat)) (f : TC → Nat → Bool) : Out :=
  runThread gr x s (fun tc s => guarded tc s (checks tc) (commitPred tc s tc.dstPred (tc.maskWhere (f tc))))

/-- A comparison of a with b in the instruction's format (R542). -/
def cmpOp (gr : GRef) (x : TInstr) (s : State) (f : FV → FV → Bool) : Out :=
  predOp gr x s checksCmp (fun tc l =>
    let n := fmtRegs tc.fmt
    f (decodeFV tc.fmt (tc.get l tc.x.a n)) (decodeFV tc.fmt (srcB tc l n)))

/-- A comparison that a NaN makes false (07_vector_engine.md R211). -/
def ordered (f : Ordering → Bool) (a b : FV) : Bool := !(a.isNan || b.isNan) && f (fcmp a b)

end Sys2Proof.Machine
end

