-- ==== Sys2Proof/Machine/ThreadMem.lean ====
section
/-! DEFINITION. Memory access by a group: per-tile access, global access, atomics and the return of outstanding accesses: classes 0x5, 0x6 and 0x7 of 05_thread_groups.md (R148, R149, R157-R163, R178, R542). -/

namespace Sys2Proof.Machine

open Sys2Proof

/-- Bytes of a width code, and registers that hold them (R148, R542). -/
def wBytes (w : Nat) : Nat := 2 ^ w
def wRegs (w : Nat) : Nat := if w ≤ 2 then 1 else 2 ^ (w - 2)

/-! Class 5: per-tile access. -/

/-- What a thread may do to a region of its tile (03 R63, R64): the fault of an access by offset. `st` says that it stores. -/
def tileFault (off n : Nat) (st : Bool) : Option Nat :=
  match regionOf off with
  | none => some 5
  | some r =>
    if !inRegion r off n then some 5
    else if r = .sig ∨ (st = true ∧ r = .acc) then some 6
    else if off % n ≠ 0 then some 3
    else none

/-- The first fault among per-tile accesses, with its offset. -/
def firstTileFault (l : List (Nat × Nat)) (f : Nat → Option Nat) : Option (Nat × Nat) :=
  l.findSome? (fun x => (f x.2).map (fun c => (c, x.2)))

/-- Store lane values, ascending lanes, so that the highest lane wins a byte (R158). -/
def tileStores (s : State) (t : Nat) (l : List (Nat × List Byte)) : State := l.foldl (fun s x => s.twr t x.1 x.2) s

/-- The bytes of a lane's store data. -/
def TC.data (tc : TC) (l w : Nat) : List Byte := toLE (wBytes w) (tc.get l tc.x.dst (wRegs w))

/-- A per-tile access of lanes at offsets: faults first, then the load or the store of every lane. -/
def tileAccess (tc : TC) (s : State) (w : Nat) (st : Bool) (offs : List (Nat × Nat)) (fault : Nat → Option Nat) : State :=
  match firstTileFault offs fault with
  | some (c, a) => threadFault tc s c a
  | none =>
    if st then commit tc (tileStores s tc.gr.tile (offs.map (fun x => (x.2, tc.data x.1 w)))) [] .zero
    else commit tc s ((offs.map (fun x => tc.put x.1 (wRegs w) (s.tnat tc.gr.tile x.2 (wBytes w)))).foldl (· ++ ·) []) .zero

/-- Static checks of class 5: widths 5-7 reserved (R148). -/
def checksTile (tc : TC) (aUsed : Bool) : List (Bool × Nat) :=
  illegalCommon tc.x 0 false true ++
  [(decide (5 ≤ tc.x.mod.toNat), 1),
   (tc.badR tc.x.dst (wRegs tc.x.mod.toNat) || (aUsed && tc.badR tc.x.a 1), 2)]

/-- The offsets in register a of the active lanes. -/
def TC.offs (tc : TC) : List (Nat × Nat) := tc.act.map (fun l => (l, tc.get l tc.x.a 1))

/-- ld.sp: reads scratchpad, accumulator store or exchange registers at the offset in a (R63, R157). -/
def execLdSp (gr : GRef) (x : TInstr) (s : State) : Out :=
  runThread gr x s (fun tc s => guarded tc s (checksTile tc true)
    (tileAccess tc s tc.x.mod.toNat false tc.offs (fun o => tileFault o (wBytes tc.x.mod.toNat) false)))

/-- st.sp: a store into the accumulator store is denied (R157). -/
def execStSp (gr : GRef) (x : TInstr) (s : State) : Out :=
  runThread gr x s (fun tc s => guarded tc s (checksTile tc true)
    (tileAccess tc s tc.x.mod.toNat true tc.offs (fun o => tileFault o (wBytes tc.x.mod.toNat) true)))

/-- Checks of ld.acc. -/
def checksAcc (tc : TC) : List (Bool × Nat) := (decide (tc.x.mod.toNat < 2), 1) :: checksTile tc true

/-- ld.acc: 4, 8 or 16 bytes of the accumulator store (R163). -/
def execLdAcc (gr : GRef) (x : TInstr) (s : State) : Out :=
  runThread gr x s (fun tc s => guarded tc s (checksAcc tc)
    (tileAccess tc s tc.x.mod.toNat false tc.offs (fun o =>
      if inRegion .acc o (wBytes tc.x.mod.toNat) then tileFault o (wBytes tc.x.mod.toNat) false else some 5)))

/-- The offset of a row of an exchange register (R161). -/
def xrowOff (tc : TC) : Nat := 0x1900000 + tc.x.b.toNat * 0x1000 + tc.x.c.toNat % 32 * 128

/-- The access would pass row 31 (R161). -/
def xrowPast (tc : TC) : Bool := decide (4096 < tc.x.c.toNat % 32 * 128 + 32 * wBytes tc.x.mod.toNat)

/-- Checks of ld.x and st.x. -/
def checksX (tc : TC) : List (Bool × Nat) := (decide (32 ≤ tc.x.c.toNat), 1) :: checksTile tc false

/-- ld.x and st.x: lane l at 2^w x l behind the start of the row (R161). The rule does not say whose bytes count for the end of row 31: the model judges the bytes of all 32 lanes, whatever lanes are active (DESIGN CHOICE, log entry 155). -/
def xAccess (tc : TC) (s : State) (st : Bool) : State :=
  guarded tc s (checksX tc)
    (if xrowPast tc then threadFault tc s 5 (xrowOff tc)
     else tileAccess tc s tc.x.mod.toNat st (tc.act.map (fun l => (l, xrowOff tc + wBytes tc.x.mod.toNat * l))) (fun _ => none))

/-- ld.x. -/
def execLdX (gr : GRef) (x : TInstr) (s : State) : Out := runThread gr x s (fun tc s => xAccess tc s false)
/-- st.x. -/
def execStX (gr : GRef) (x : TInstr) (s : State) : Out := runThread gr x s (fun tc s => xAccess tc s true)

/-- ld.arg: the launch's argument bytes; offset plus width at most 64, naturally aligned (R542). -/
def execLdArg (gr : GRef) (x : TInstr) (s : State) : Out :=
  runThread gr x s (fun tc s => guarded tc s (checksTile tc true)
    (let n := wBytes tc.x.mod.toNat
     match firstTileFault tc.offs (fun o => if 64 < o + n then some 5 else if o % n ≠ 0 then some 3 else none) with
     | some (c, a) => threadFault tc s c a
     | none => commit tc s ((tc.offs.map (fun x => tc.put x.1 (wRegs tc.x.mod.toNat)
         (leAt tc.blk.launch.args x.2 n))).foldl (· ++ ·) []) .zero))

/-! Global addresses of lanes. -/

/-- A lane's resolved access: extent offset, global address, local address or the connection it leaves by. -/
structure LaneAcc where
  lane : Nat
  off : Nat
  ga : Nat
  place : Nat ⊕ (Nat × Nat)
deriving DecidableEq, Repr

/-- Resolve a lane's access of `n` bytes that needs `perm` (1 read, 2 write, 4 atomic) and alignment `al`, whose failure is `alCode`; a fault carries its address (R157, R177, 12 R379). -/
def resolveLane (tc : TC) (s : State) (l n perm al alCode : Nat) : Except (Nat × Nat) LaneAcc :=
  let o := tc.get l tc.x.a 2
  match tc.blk.launch.extents[tc.x.b.toNat % 16]? with
  | none => .error (4, o)
  | some e =>
    if e.len < o + n then .error (4, o)
    else if e.perm &&& perm ≠ perm then .error (6, o)
    else match extFault s e o with
      | some f => .error f
      | none =>
        let ga := extAddr s e o
        if ga % al ≠ 0 then .error (alCode, o)
        else match locate s ga n with
          | .unmapped => .error (7, o)
          | .loc a => .ok ⟨l, o, ga, .inl a⟩
          | .remote node _ =>
            match dfltConn s (s.rd (pTile tc.gr.tile) 0x2C) node with
            | some c => .ok ⟨l, o, ga, .inr (c, node)⟩
            | none => .error (0x2A, o)

/-- Resolve every active lane, in ascending order; the first fault stops. -/
def resolveAll (tc : TC) (s : State) (n perm al alCode : Nat) : List Nat → Except (Nat × Nat) (List LaneAcc)
  | [] => .ok []
  | l :: r =>
    match resolveLane tc s l n perm al alCode with
    | .error f => .error f
    | .ok x =>
      match resolveAll tc s n perm al alCode r with
      | .error f => .error f
      | .ok xs => .ok (x :: xs)

/-- The local accesses, lane and local address, and the remote ones, lane access, connection and node. -/
def localOf (l : List LaneAcc) : List (Nat × Nat) :=
  l.filterMap (fun x => match x.place with | .inl a => some (x.lane, a) | .inr _ => none)
def remoteOf (l : List LaneAcc) : List (LaneAcc × Nat × Nat) :=
  l.filterMap (fun x => match x.place with | .inl _ => none | .inr c => some (x, c.1, c.2))

/-- A fault at an address met by a thread: an uncorrectable block is an event of its slice (11 R344). -/
def gFault (tc : TC) (s : State) (f : Nat × Nat) : State :=
  threadFault tc (afterFault s (.thread tc.gr.tile) f) f.1 f.2

/-- Without repeats, first occurrences kept. -/
def nub {α : Type} [DecidableEq α] (l : List α) : List α :=
  l.foldl (fun acc x => if acc.contains x then acc else acc ++ [x]) []

/-- The faults that local accesses meet, each once; every uncorrectable block is an event (11 R344). -/
def localFaults (s : State) (l : List (Nat × Nat)) (n : Nat) : List (Nat × Nat) := nub (l.filterMap (fun x => memFault s x.2 n))

/-- A thread access goes outstanding: the group goes on with instructions that it lets issue (R178). `ndst` registers from dst wait for it; `store` says that it only writes memory, `acq` that it is an acquire. -/
def outstanding (tc : TC) (s : State) (writes : List (Nat × Nat)) (fault : Option (Nat × Nat)) (remote ndst : Nat) (store acq : Bool) : State :=
  s.modGroup tc.gr (fun g =>
    let a : Access := ⟨g.nextId, tc.path.pc, tc.mask, writes.map (fun w => (w.1, BitVec.ofNat 32 w.2)), fault, remote, tc.x.dst.toNat, ndst, store, acq⟩
    { g.advance tc.len with outst := g.outst ++ [a], nextId := g.nextId + 1 })

/-- Send remote parts, each with its connection, global address and size, counting them (10 R318). -/
def sendParts (s : State) (l : List (Nat × Nat × Nat × OutReq)) : State :=
  l.foldl (fun s x => connSend (countAccess s 0 x.2.1 x.2.2.1) x.1 x.2.2.2) s

/-- The register bytes that an answer fills: of lane `l`, `n` bytes from offset `o` of the answer. -/
def fillOf (dst l o n : Nat) : List (Nat × Nat × Nat) :=
  (List.range (ceilDiv n 4)).map (fun j => (32 * (dst + j) + l, o + 4 * j, if n < 4 then n else 4))

/-! Class 6. -/

/-- Static checks of class 6: b[7:4] and c[7:3] reserved, widths 5-7 reserved; ORD for ld.g.acq and st.g.rel. -/
def checksGlobal (ord : Bool) (tc : TC) : List (Bool × Nat) :=
  let w := tc.x.c.toNat
  illegalCommon tc.x 0 false ord ++
  [(decide (16 ≤ tc.x.b.toNat), 1), (decide (5 ≤ w), 1),
   (ord && ordBad tc.x.mod.toNat [0, 1, 2, 3] [0, 1, 2, 3, 4], 0x0A),
   (tc.badR tc.x.a 2 || tc.badR tc.x.dst (wRegs w), 2),
   (decide (tc.blk.launch.extents.length ≤ tc.x.b.toNat), 4)]

/-- The RD requests of a load: one for each 64-byte block that lanes touch (R158). -/
def readParts (tc : TC) (w id : Nat) (l : List (LaneAcc × Nat × Nat)) : List (Nat × Nat × Nat × OutReq) :=
  (nub (l.map (fun x => x.1.ga / 64))).filterMap (fun b =>
    let mine := l.filter (fun x => decide (x.1.ga / 64 = b))
    match mine with
    | [] => none
    | y :: _ =>
      let lo := mine.foldl (fun m x => if x.1.ga < m then x.1.ga else m) y.1.ga
      let hi := mine.foldl (fun m x => if m < x.1.ga + wBytes w then x.1.ga + wBytes w else m) y.1.ga
      let fill := (mine.map (fun x => fillOf tc.x.dst.toNat x.1.lane (x.1.ga - lo) (wBytes w))).foldl (· ++ ·) []
      some (y.2.1, lo, hi - lo, ⟨2, 0, hi - lo, tc.gr.tile, 1, y.2.2, lo % 2 ^ 40, [], .thread tc.gr id fill⟩))

/-- A global load (R158): local data is read now and reaches the registers with the response; remote blocks are asked for. -/
def globalLoad (tc : TC) (s : State) (acq : Bool) : State :=
  let w := tc.x.c.toNat
  let n := wBytes w
  if tc.act = [] then s.modGroup tc.gr (fun g => g.advance tc.len)
  else match resolveAll tc s n 1 n 3 tc.act with
  | .error f => gFault tc s f
  | .ok las =>
    let loc := localOf las
    if loc.any (fun x => memHeld s (.thread tc.gr.tile) x.2 n) then s
    else
      let isAcq := acq && ordAcq tc.x.mod.toNat
      let bad := localFaults s loc n
      let s1 := bad.foldl (fun s f => afterFault s (.thread tc.gr.tile) f) s
      match bad with
      | f :: _ => outstanding tc s1 [] (some f) 0 (wRegs w) false isAcq
      | [] =>
        let writes := (loc.map (fun x => tc.put x.1 (wRegs w) (s.hnat x.2 n))).foldl (· ++ ·) []
        let s2 := (nub (loc.map (fun x => x.2 / 64))).foldl (fun s b => sliceTouch s (.thread tc.gr.tile) (64 * b) 64 false) s1
        let s3 := if isAcq then
            loc.foldl (fun s x => acquireCheck s x.2 n (ordScope tc.x.mod.toNat) (threadTag tc.gr.tile (tc.gr.blk * 32 + tc.gr.grp))) s2
          else s2
        let parts := readParts tc w tc.grp.nextId (remoteOf las)
        sendParts (outstanding tc s3 writes none parts.length (wRegs w) false isAcq) parts

/-- ld.g. -/
def execLdG (gr : GRef) (x : TInstr) (s : State) : Out :=
  runThread gr x s (fun tc s => guarded tc s (checksGlobal false tc) (globalLoad tc s false))
/-- ld.g.acq: with the acquire of its ORD (03 R78). -/
def execLdGAcq (gr : GRef) (x : TInstr) (s : State) : Out :=
  runThread gr x s (fun tc s => guarded tc s (checksGlobal true tc) (globalLoad tc s true))

/-- The bytes of a store by address, the highest lane winning (R158). -/
def storeMap (l : List (Nat × List Byte)) : FMap Byte :=
  l.foldl (fun m x => (List.range x.2.length).foldl (fun m i =>
    finsert (ferase m (x.1 + i)) (x.1 + i) ((x.2[i]?).getD 0)) m) []

/-- Runs of consecutive bytes, each within one 64-byte block. -/
def runsOf : FMap Byte → List (Nat × List Byte)
  | [] => []
  | (k, v) :: r =>
    match runsOf r with
    | [] => [(k, [v])]
    | (j, l) :: rest => if j = k + 1 ∧ j % 64 ≠ 0 then (k, v :: l) :: rest else (k, [v]) :: (j, l) :: rest

/-- What stops a store before any of it is performed: a failed stack, or a raw block covered only in part (R177, 11 R344). -/
def storeFault (s : State) (r : Nat × List Byte) : Option (Nat × Nat) :=
  if s.mem.failed.contains (sliceOf s r.1) then some (0x11, r.1)
  else if s.raw.contains (r.1 / 64) && decide (r.2.length < 64) then some (0x10, r.1 / 64 * 64)
  else none

/-- A global store (R158): local blocks are written at once, remote ones go out. -/
def globalStore (tc : TC) (s : State) (rel : Bool) : State :=
  let w := tc.x.c.toNat
  let n := wBytes w
  match resolveAll tc s n 2 n 3 tc.act with
  | .error f => gFault tc s f
  | .ok las =>
    let loc := runsOf (storeMap ((localOf las).map (fun x => (x.2, tc.data x.1 w))))
    if loc.any (fun x => memHeld s (.thread tc.gr.tile) x.1 1) then s
    else match loc.findSome? (storeFault s) with
    | some f => gFault tc s f
    | none =>
      let s1 := loc.foldl (fun s x => (memWrite s (.thread tc.gr.tile) x.1 x.2).1) s
      let ord := tc.x.mod.toNat
      let isRel := rel && ordRel ord
      let s2 := if isRel then
          (localOf las).foldl (fun s x => tagRelease s x.2 n (ordScope ord) (threadTag tc.gr.tile (tc.gr.blk * 32 + tc.gr.grp))) s1
        else s1
      let rem := remoteOf las
      let rr := runsOf (storeMap (rem.map (fun x => (x.1.ga, tc.data x.1.lane w))))
      let parts := rr.filterMap (fun x =>
        (rem.find? (fun y => decide (y.1.ga / 64 = x.1 / 64))).map (fun y =>
          (y.2.1, x.1, x.2.length, (⟨1, if isRel then 2 + 4 * ordScope ord else 0, x.2.length, tc.gr.tile, 1, y.2.2, x.1 % 2 ^ 40, x.2,
            .thread tc.gr tc.grp.nextId []⟩ : OutReq))))
      match parts with
      | [] => commit tc s2 [] .zero
      | _ => sendParts (outstanding tc s2 [] none parts.length 0 true false) parts

/-- st.g. -/
def execStG (gr : GRef) (x : TInstr) (s : State) : Out :=
  runThread gr x s (fun tc s => guarded tc s (checksGlobal false tc) (globalStore tc s false))
/-- st.g.rel: with the release of its ORD (03 R77). -/
def execStGRel (gr : GRef) (x : TInstr) (s : State) : Out :=
  runThread gr x s (fun tc s => guarded tc s (checksGlobal true tc) (globalStore tc s true))

/-! The response. -/

/-- A faulting access stops the block at its own pc (R178); otherwise its results reach the registers. -/
def accessReturn (s : State) (gr : GRef) (b : Block) (a : Access) : State :=
  match a.fault with
  | some f => blockFault s gr.tile b f.1 gr.grp a.lanes a.pc f.2
  | none =>
    s.modGroup gr (fun g =>
      { g.applyWrites (a.writes.map (fun w => (w.1, w.2.toNat))) with outst := g.outst.filter (fun y => decide (y.id ≠ a.id)) })

/-- GLOBAL_ACCESS_RESPONSE: the responses of an outstanding access have all arrived (R178). -/
def execGlobalAccessResponse (gr : GRef) (id : Nat) (s : State) : Out :=
  onUnit (decide (gr.tile < 160))
    (match (s.tile gr.tile).block gr.blk with
     | none => s
     | some b =>
       match b.groups[gr.grp]? with
       | none => s
       | some g =>
         match g.outst.find? (fun a => decide (a.id = id) && decide (a.remote = 0)) with
         | none => s
         | some a => if tileOn s gr.tile then accessReturn s gr b a else s)

/-! Class 7: atomics. -/

/-- Width code of an integer atomic from c (R148, R149). -/
def atomW (x : TInstr) : Nat := if bit x.c.toNat 1 then 1 else 0

/-- Registers of an atomic's operand. -/
def atomRegs (aop width fmt : Nat) : Nat := atomBits aop width fmt / 32

/-- Static checks of class 7 (R148, R149, R542): `cas128` says that the instruction is the cas of 128 bits, which c[2] selects. -/
def checksAtom (aop : Nat) (cas128 : Bool) (tc : TC) : List (Bool × Nat) :=
  let c := tc.x.c.toNat
  let width := if cas128 then 2 else atomW tc.x
  let n := atomRegs aop width tc.fmt
  illegalCommon tc.x 0 true true ++
  [(decide (16 ≤ tc.x.b.toNat), 1),
   (if isCell aop then decide (2 ≤ c) || (decide (aop ≠ 0xE) && bit c 0) else decide (c % 2 = 1) || decide (8 ≤ c) || (cas128 && bit c 1) || (!cas128 && bit c 2), 1),
   (if aop ≤ 9 then decide (tc.fmt ≠ 9) else decide (2 ≤ tc.fmt), 0x0B),
   (ordBad tc.x.mod.toNat [0, 1, 2, 3] [0, 1, 2, 3, 4], 0x0A),
   (tc.badR tc.x.a 2 || (decide (aop ≠ 0xF) && tc.badR tc.x.dst n) || (decide (aop = 9) && decide (tc.nregs < tc.x.dst.toNat + 2 * n)), 2),
   (decide (tc.blk.launch.extents.length ≤ tc.x.b.toNat), 4)]

/-- The operand and the comparand of a lane: for cas the comparand from dst and the new value behind it (R542). -/
def atomOperands (tc : TC) (aop n l : Nat) : Nat × Nat :=
  if aop = 9 then (tc.grp.getN l (tc.x.dst.toNat + n) n, tc.get l tc.x.dst n)
  else if aop = 0xE ∨ aop = 0xF then (0, 0) else (tc.get l tc.x.dst n, 0)

/-- The operation returns a value. -/
def atomReturns (aop : Nat) : Bool := decide (aop ≠ 0xD ∧ aop ≠ 0xF)

/-- The body of an ATOM packet (12 R375); a cell read-and-clear is told by operand bit 0 (DESIGN CHOICE, log entry 13). -/
def atomBody (aop width fmt v cmp : Nat) (ret clear : Bool) : List Byte :=
  toLE 1 (aop + 16 * width) ++ toLE 1 fmt ++ toLE 1 (b2n ret) ++ List.replicate 13 0
    ++ toLE 16 (if aop = 0xE then b2n clear else v) ++ toLE 16 cmp

/-- Local atomics in ascending lane order (R159): the state and the old values. -/
def atomLocals (tc : TC) (aop width : Nat) (clear : Bool) : List (Nat × Nat) → State → List (Nat × Nat) → State × List (Nat × Nat)
  | [], s, w => (s, w)
  | (l, a) :: r, s, w =>
    let n := atomRegs aop width tc.fmt
    let v := atomOperands tc aop n l
    let me := threadTag tc.gr.tile (tc.gr.blk * 32 + tc.gr.grp)
    let sz := atomSize aop width tc.fmt
    let s0 := if ordAcq tc.x.mod.toNat then acquireCheck s a sz (ordScope tc.x.mod.toNat) me else s
    let x := memAtomic s0 (.thread tc.gr.tile) a aop width tc.fmt v.1 v.2 clear
    match x.2 with
    | .ok old =>
      let s2 := if ordRel tc.x.mod.toNat && atomWrites aop old v.2 clear then tagRelease x.1 a sz (ordScope tc.x.mod.toNat) me else x.1
      atomLocals tc aop width clear r s2 (if atomReturns aop then w ++ tc.put l n old else w)
    | .error _ => atomLocals tc aop width clear r x.1 w

/-- An atomic of a group (R90-R95, R159): faults before any lane acts (R177), then lanes in ascending order. -/
def atomOp (tc : TC) (s : State) (aop width : Nat) (clear : Bool) : State :=
  let fmt := tc.fmt
  let n := atomRegs aop width fmt
  let sz := atomSize aop width fmt
  match resolveAll tc s sz 4 (atomAlign aop width fmt) 9 tc.act with
  | .error f => gFault tc s f
  | .ok las =>
    let loc := localOf las
    let rem := remoteOf las
    if loc.any (fun x => memHeld s (.thread tc.gr.tile) x.2 sz) then s
    else match localFaults s loc sz with
    | f :: _ => gFault tc s f
    | [] =>
      if rem.any (fun x => !verCarries (s.rdF (pConn x.2.1) 0x200 0 4) 3 48 aop width) then threadFault tc s 0x2A 0
      else
        let r := atomLocals tc aop width clear loc s []
        let parts := rem.map (fun x =>
          let v := atomOperands tc aop n x.1.lane
          (x.2.1, x.1.ga, sz, (⟨3, tc.x.mod.toNat, 48, tc.gr.tile, 1, x.2.2, x.1.ga % 2 ^ 40,
            atomBody aop width fmt v.1 v.2 (atomReturns aop) clear,
            .thread tc.gr tc.grp.nextId (if atomReturns aop then fillOf tc.x.dst.toNat x.1.lane 0 (4 * n) else [])⟩ : OutReq)))
        match r.2, parts with
        | [], [] => commit tc r.1 [] .zero
        | w, p => sendParts (outstanding tc r.1 w none p.length (if atomReturns aop then n else 0) (!atomReturns aop) (ordAcq tc.x.mod.toNat)) p

/-- An atomic instruction. -/
def atomInstr (gr : GRef) (x : TInstr) (s : State) (aop : Nat) (cas128 clear : Bool) : Out :=
  runThread gr x s (fun tc s => guarded tc s (checksAtom aop cas128 tc)
    (atomOp tc s aop (if cas128 then 2 else if aop ≤ 9 then atomW tc.x else 0) clear))

/-- Integer add. -/
def execAtomAdd (gr : GRef) (x : TInstr) (s : State) : Out := atomInstr gr x s 0 false false
/-- And. -/
def execAtomAnd (gr : GRef) (x : TInstr) (s : State) : Out := atomInstr gr x s 1 false false
/-- Or. -/
def execAtomOr (gr : GRef) (x : TInstr) (s : State) : Out := atomInstr gr x s 2 false false
/-- Xor. -/
def execAtomXor (gr : GRef) (x : TInstr) (s : State) : Out := atomInstr gr x s 3 false false
/-- Signed min. -/
def execAtomMinS (gr : GRef) (x : TInstr) (s : State) : Out := atomInstr gr x s 4 false false
/-- Signed max. -/
def execAtomMaxS (gr : GRef) (x : TInstr) (s : State) : Out := atomInstr gr x s 5 false false
/-- Unsigned min. -/
def execAtomMinU (gr : GRef) (x : TInstr) (s : State) : Out := atomInstr gr x s 6 false false
/-- Unsigned max. -/
def execAtomMaxU (gr : GRef) (x : TInstr) (s : State) : Out := atomInstr gr x s 7 false false
/-- Swap. -/
def execAtomSwap (gr : GRef) (x : TInstr) (s : State) : Out := atomInstr gr x s 8 false false
/-- Compare-and-swap: c[2] selects the one of 128 bits (R149). -/
def execAtomCas (gr : GRef) (x : TInstr) (s : State) : Out := atomInstr gr x s 9 (bit x.c.toNat 2) false
/-- Compare-and-swap of 128 bits (R149): the same operation, of 128 bits where c[2] selects it. -/
def execAtomCas128 (gr : GRef) (x : TInstr) (s : State) : Out := atomInstr gr x s 9 (bit x.c.toNat 2) false
/-- Plain FP add (R91, 04 R123). -/
def execAtomFadd (gr : GRef) (x : TInstr) (s : State) : Out := atomInstr gr x s 0xA false false
/-- FP min. -/
def execAtomFmin (gr : GRef) (x : TInstr) (s : State) : Out := atomInstr gr x s 0xB false false
/-- FP max. -/
def execAtomFmax (gr : GRef) (x : TInstr) (s : State) : Out := atomInstr gr x s 0xC false false
/-- Exact-sum add (04 R133). -/
def execCellAdd (gr : GRef) (x : TInstr) (s : State) : Out := atomInstr gr x s 0xD false false
/-- Cell read, rounded once (04 R134): c[0] selects read-and-clear (R148). -/
def execCellRead (gr : GRef) (x : TInstr) (s : State) : Out := atomInstr gr x s 0xE false (bit x.c.toNat 0)
/-- Cell read-and-clear (03 R94): the same operation, clearing where c[0] selects it. -/
def execCellReadAndClear (gr : GRef) (x : TInstr) (s : State) : Out := atomInstr gr x s 0xE false (bit x.c.toNat 0)
/-- Cell clear. -/
def execCellClear (gr : GRef) (x : TInstr) (s : State) : Out := atomInstr gr x s 0xF false false

end Sys2Proof.Machine
end

