-- ==== Sys2Proof/Machine/Cmds.lean ====
section
/-! DEFINITION. The operations of the command queues: LAUNCH, DMA, WRITE_INLINE, SIGNAL, ATOMIC, WAIT, FENCE, PENNANT and NOP (09_command_queues.md R284, R290, R291, R296, 14_power_thermal.md R455). -/

namespace Sys2Proof.Machine

open Sys2Proof

/-! Remote accesses of the queue engine (R290, 12_krovmo_fabric.md R379, R386). -/

/-- An access of a command: offset in its data, global address and length. -/
structure CPiece where
  off : Nat
  ga : Nat
  n : Nat
deriving DecidableEq, Repr

/-- The runs of an extent, each of at most `lim` bytes and within one page; the fault of a run entry that cannot be read. -/
def cmdPieces (s : State) (e : Extent) (lim : Nat) : Nat → Nat → Except (Nat × Nat) (List CPiece)
  | 0, _ => .ok []
  | f + 1, o =>
    if e.len ≤ o then .ok []
    else match extFault s e o with
    | some x => .error x
    | none =>
      let page := if e.kind = 0 then e.len - o else 2 ^ granLog e.gran - (e.firstOff + o) % 2 ^ granLog e.gran
      let n := [page, lim, e.len - o].foldl (fun m x => if x < m then x else m) page
      match cmdPieces s e lim f (o + n) with
      | .error x => .error x
      | .ok r => .ok (⟨o, extAddr s e o, n⟩ :: r)

/-- The extent of the address in a field of a command. -/
def Cmd.dir (c : Cmd) (off : Nat) : Option Extent := (c.direct.find? (fun x => decide (x.1 = off))).map (·.2)

/-- The pieces of a command's directly named access; none where the command names none. -/
def dirPieces (s : State) (c : Cmd) (off lim : Nat) : Except (Nat × Nat) (List CPiece) :=
  match c.dir off with
  | some e => cmdPieces s e lim 64 0
  | none => .ok []

/-- The piece lies on another module. -/
def CPiece.far (s : State) (x : CPiece) : Bool := match locate s x.ga x.n with | .remote _ _ => true | _ => false
/-- The local address of a piece; addresses of other modules keep their low 40 bits. -/
def CPiece.a (x : CPiece) : Nat := x.ga % 2 ^ 40
/-- Some local piece lies where memory holds its requests. -/
def piecesHeld (s : State) (l : List CPiece) : Bool := l.any (fun x => !x.far s && memHeld s .qeng x.a x.n)

/-- A connection that a command may use: bound to the job of its queue, its peer the module of every remote piece (R290). -/
def cmdConnOk (s : State) (c : Cmd) (conn : Nat) (l : List CPiece) : Bool :=
  boundTo s (pConn conn) (qGen s c.queue) && l.all (fun x => !x.far s || decide (bits x.ga 40 20 = s.rdF (pConn conn) 0x108 0 20))

/-- Write a command's pieces: local ones at once, remote ones as parts from number `part` on; the first failure is the command's fault (R86, R296). -/
def writePieces (c : Cmd) (conn ord part : Nat) (data : List Byte) : List CPiece → State → State × Option (Nat × Nat)
  | [], s => (s, none)
  | x :: r, s =>
    let b := slice data x.off x.n
    if x.far s then
      let s1 := connSend (countAccess (s.modCmd c.uid (fun k => { k with remote := k.remote + 1 })) 0 x.ga x.n) conn
        ⟨1, ord, x.n, 0, 3, bits x.ga 40 20, x.a, b, .cmd c.uid part⟩
      writePieces c conn ord part data r s1
    else
      let w := memWrite s .qeng x.a b
      let z := writePieces c conn ord part data r w.1
      (z.1, w.2 <|> z.2)

/-! LAUNCH and DMA. -/

/-- LAUNCH: the descriptor goes out to every named tile. -/
def execLaunch (q : Nat) (pos : BitVec 32) (s : State) : Out :=
  runCmd q pos 1 s (fun c s =>
    let gen := qGen s q
    let send (s : State) (x : Nat × (Nat × Nat)) : State :=
      let base := cmdLe c.bytes 0x1C 4 + x.1 * cmdLe c.bytes 0x14 4
      s.modTile x.2.1 (fun T => { T with arriving := T.arriving ++ [⟨c.uid, q, gen, x.2.2, base, slice c.bytes 0x18 80, c.extents⟩] })
    cmdEnd2 (((List.range c.targets.length).zip c.targets).foldl send s) c.uid)

/-- DMA: the descriptor enters the tile's intake when there is room; a tile no longer bound refuses it (R283). -/
def execDma (q : Nat) (pos : BitVec 32) (s : State) : Out :=
  runCmd q pos 2 s (fun c s =>
    match c.targets with
    | [] => s
    | (t, epoch) :: _ =>
      if !tilePowered s t then s
      else if !boundUnder s (pTile t) (qGen s q) epoch then cmdEnd2 (cmdFault s c.uid ⟨0x34, 0, t, 0x10⟩) c.uid
      else if intakeCap s t ≤ (s.tile t).dma.intake.length then s
      else
        let d : Desc := ⟨(s.tile t).nextId, slice c.bytes 0x18 128, 0xFFFFFFFF, ⟨q, c.uid, none, 0⟩, c.extents, none, false, none⟩
        cmdEnd2 (s.modTile t (fun T => { T with dma := { T.dma with intake := T.dma.intake ++ [d] }, nextId := T.nextId + 1 })) c.uid)

/-! What earlier commands of the queue still have to perform (R67, R71). -/

/-- The accesses of a begun command that the engine itself makes and has not performed, as far as they can be named. -/
def cmdOpen (s : State) (c : Cmd) : List CPiece :=
  let get (off lim : Nat) : List CPiece := match dirPieces s c off lim with | .ok l => l | .error _ => []
  let out := decide (c.remote ≠ 0)
  match c.op with
  | 3 =>
    let lim := connLen s (cmdBf c.bytes 0x1C 0 14)
    (if c.stage = 0 ∨ out = true then get 0x10 lim else []) ++ (if c.stage ≠ 2 ∨ out = true then get 0x20 lim else [])
  | 5 => (if c.got.isNone && decide (c.stage ≠ 2) then get 0x18 4096 else []) ++ (if c.stage ≠ 2 ∨ out = true then get 0x40 16 else [])
  | _ => []

/-- Accesses of a command wait for those of earlier commands of its queue to the same bytes, also where the command is relaxed (R67, R71). -/
def cmdOverlaps (s : State) (c : Cmd) (l : List CPiece) : Bool :=
  (cmdBefore s c).any (fun x => x.begun && (cmdOpen s x).any (fun y => l.any (fun z => decide (y.ga < z.ga + z.n ∧ z.ga < y.ga + y.n))))

/-- Accesses of a command that are made now: memory does not hold them, the connection of a remote one is OPEN, and no earlier command is in their way. -/
def piecesReady (s : State) (c : Cmd) (conn : Nat) (l : List CPiece) : Bool :=
  !piecesHeld s l && (!l.any (CPiece.far s) || decide (connState s conn = 3)) && !cmdOverlaps s c l

/-! WRITE_INLINE. -/

/-- The pieces of the data and of the flag of a WRITE_INLINE. -/
def inlinePieces (s : State) (c : Cmd) : Except (Nat × Nat) (List CPiece × List CPiece) :=
  let lim := connLen s (cmdBf c.bytes 0x1C 0 14)
  match dirPieces s c 0x10 lim, dirPieces s c 0x20 lim with
  | .ok d, .ok f => .ok (d, f)
  | .error x, _ => .error x
  | _, .error x => .error x

/-- The flag of a WRITE_INLINE. -/
def inlineFlag (s : State) (c : Cmd) (f : List CPiece) : State :=
  let b := c.bytes
  let ord := cmdLe b 0x1A 1
  let rel := ordRel ord
  let r := writePieces c (cmdBf b 0x1C 0 14) (if rel then ord else 0) 1 (slice b 0x28 8) f s
  let s1 := match r.2 with | some x => cmdFault r.1 c.uid ⟨x.1, 0, 0xFF, 0x20⟩ | none => r.1
  if rel then f.foldl (fun s x => if x.far s then s else tagRelease s x.a x.n (ordScope ord) qengTag) s1 else s1

/-- WRITE_INLINE: the data, then the flag under flag_ord: sem 0 with the data, sem 2 after the data and every earlier command, failing with a write that it would cover (R290, 03 R82). -/
def execWriteInline (q : Nat) (pos : BitVec 32) (s : State) : Out :=
  runCmd q pos 3 s (fun c s =>
    let b := c.bytes
    let conn := cmdBf b 0x1C 0 14
    match inlinePieces s c with
    | .error x => cmdFail s c x.1 0x10
    | .ok (d, f) =>
      let all := d ++ f
      let far := all.any (CPiece.far s)
      if c.stage = 0 then
        if far && !cmdConnOk s c conn all then cmdFail s c 0x2A 0x1C
        else if !piecesReady s c conn all then s
        else
          let r := writePieces c conn 0 0 (b.drop 0x30) d s
          let s1 := match r.2 with | some x => cmdFault r.1 c.uid ⟨x.1, 0, 0xFF, 0x10⟩ | none => r.1
          if f = [] then cmdEnd2 s1 c.uid
          else if ordRel (cmdLe b 0x1A 1) then s1.modCmd c.uid (fun k => { k with stage := 1 })
          else cmdEnd2 (inlineFlag s1 c f) c.uid
      else if c.remote ≠ 0 ∨ earlierDone s c = false then s
      else if c.fault.isSome then cmdEnd2 s c.uid
      else if (releaseLost s c).isSome then cmdFail s c ((releaseLost s c).getD 0) 0x1A
      else if f.any (CPiece.far s) && !cmdConnOk s c conn f then cmdFail s c 0x2A 0x1C
      else if !piecesReady s c conn f then s
      else cmdEnd2 (inlineFlag s c f) c.uid)

/-! SIGNAL. -/

/-- SIGNAL: after every earlier command, a release on a word of a tile of this module or of the peer of conn (R284, R290, R98). -/
def execSignal (q : Nat) (pos : BitVec 32) (s : State) : Out :=
  runCmd q pos 4 s (fun c s =>
    let b := c.bytes
    let t := cmdLe b 0x10 1
    let sop := cmdBf b 0x11 0 2
    let word := cmdBf b 0x14 0 12
    let ord := cmdLe b 0x12 1
    let conn := cmdBf b 0x16 0 14
    if cmdBf b 0x11 2 1 = 1 && !cmdConnOk s c conn [] then cmdFail s c 0x2A 0x16
    else if !earlierDone s c then s
    else if (releaseLost s c).isSome then cmdFail s c ((releaseLost s c).getD 0) 0x12
    else if cmdBf b 0x11 2 1 = 1 then
      if connState s conn ≠ 3 then s
      else
        let s1 := s.modCmd c.uid (fun k => { k with remote := 1, stage := 2 })
        connSend s1 conn ⟨4, ord, 8, 0, 3, s.rdF (pConn conn) 0x108 0 20, t + 256 * word + 2 ^ 20 * sop, slice b 0x18 8, .cmd c.uid 0⟩
    else if !tilePowered s t then s
    else match c.targets with
    | (_, epoch) :: _ =>
      if boundUnder s (pTile t) (qGen s q) epoch then cmdEnd2 (sigRelease s t word sop (cmdLe b 0x18 8) (ordScope ord) qengTag) c.uid
      else cmdEnd2 (cmdFault s c.uid ⟨0x34, 0, t, 0x10⟩) c.uid
    | [] => cmdEnd2 s c.uid)

/-! ATOMIC. -/

/-- The value that an ATOMIC returned is written at ret_va; a failure is RETURN_FAILED (R296). -/
def atomicReturn (s : State) (c : Cmd) (old : Nat) : State :=
  let b := c.bytes
  let conn := cmdBf b 0x14 0 14
  match dirPieces s c 0x40 16 with
  | .error _ => cmdFail s c 0x39 0x40
  | .ok l =>
    let far := l.any (CPiece.far s)
    if far && !cmdConnOk s c conn l then cmdFail s c 0x39 0x40
    else if !piecesReady s c conn l then s
    else match writePieces c conn 0 1 (toLE 16 old) l s with
    | (s1, some _) => cmdFail s1 c 0x39 0x40
    | (s1, none) => cmdEnd2 s1 c.uid

/-- The atomic of an ATOMIC has been performed and has returned `old`: the return value is owed where ret_en asks for it; what a cell add or clear returns is open, one value for each operation and format (log 58). -/
def atomicDone (s : State) (c : Cmd) (old : Nat) : State :=
  let aop := cmdBf c.bytes 0x10 0 4
  if cmdBf c.bytes 0x13 0 1 = 0 then cmdEnd2 s c.uid
  else if atomReturns aop then s.modCmd c.uid (fun k => { k with stage := 1, got := some old })
  else s.modCmd c.uid (fun k => { k with stage := 1, got := some (Config.cellReturn aop (cmdBf c.bytes 0x11 0 4)) })

/-- ATOMIC: one atomic in the owning slice, then its return value at ret_va (R90-R95, R290). -/
def execAtomic (q : Nat) (pos : BitVec 32) (s : State) : Out :=
  runCmd q pos 5 s (fun c s =>
    let b := c.bytes
    let aop := cmdBf b 0x10 0 4
    let width := cmdBf b 0x10 4 2
    let fmt := cmdBf b 0x11 0 4
    let ord := cmdLe b 0x12 1
    let conn := cmdBf b 0x14 0 14
    match c.got with
    | some old => if c.remote = 0 then atomicReturn s c old else s
    | none =>
      if c.remote ≠ 0 then s
      else match dirPieces s c 0x18 4096, dirPieces s c 0x40 16 with
      | .error x, _ => cmdFail s c x.1 0x18
      | .ok _, .error x => cmdFail s c x.1 0x40
      | .ok l, .ok ret =>
        let far := l.any (CPiece.far s)
        let fars := (l ++ ret).any (CPiece.far s)
        if fars && (!cmdConnOk s c conn (l ++ ret) || (far && decide (connState s conn = 3) && !verCarries (s.rdF (pConn conn) 0x200 0 4) 3 48 aop width)) then cmdFail s c 0x2A 0x14
        else if cmdLe b 0x18 8 % atomAlign aop width fmt ≠ 0 then cmdFail s c 0x09 0x18
        else if ordRel ord && !earlierDone s c then s
        else if ordRel ord && (releaseLost s c).isSome then cmdFail s c ((releaseLost s c).getD 0) 0x12
        else if !piecesReady s c conn l then s
        else match l with
        | [] => cmdEnd2 s c.uid
        | x :: _ =>
          if far then
            connSend (countAccess (s.modCmd c.uid (fun k => { k with remote := 1 })) 0 x.ga x.n) conn
              ⟨3, ord, 48, 0, 3, bits x.ga 40 20, x.a,
                atomBody aop width fmt (cmdLe b 0x20 (atomRet b)) (cmdLe b 0x30 (atomRet b)) (cmdBf b 0x13 0 1 = 1 && atomReturns aop) false, .cmd c.uid 0⟩
          else
            let s0 := if ordAcq ord then acquireCheck s x.a x.n (ordScope ord) qengTag else s
            match memAtomic s0 .qeng x.a aop width fmt (cmdLe b 0x20 (atomRet b)) (cmdLe b 0x30 (atomRet b)) false with
            | (s1, .error e) => cmdFail s1 c e.1 0x18
            | (s1, .ok old) => atomicDone (if ordRel ord && atomWrites aop old (cmdLe b 0x30 (atomRet b)) false then tagRelease s1 x.a x.n (ordScope ord) qengTag else s1) c old)

/-! Answers from the fabric (12 R383). -/

/-- A remote part of a command is answered: the value of its atomic arrives with part 0. -/
def cmdPartDone (s : State) (uid part : Nat) (body : List Byte) : State :=
  match s.cmds.find? (fun c => decide (c.uid = uid)) with
  | none => s
  | some c =>
    let s1 := s.modCmd uid (fun k => { k with remote := k.remote - 1 })
    if c.op = 5 ∧ part = 0 then atomicDone s1 c (leAt body 0 16) else s1

/-- A remote part of a command fails with a fault code; the detail is the field that named its address. -/
def cmdPartFail (s : State) (uid part code : Nat) : State :=
  match s.cmds.find? (fun c => decide (c.uid = uid)) with
  | none => s
  | some c =>
    let s1 := s.modCmd uid (fun k => { k with remote := k.remote - 1 })
    match c.op, part with
    | 3, 0 => cmdFault s1 uid ⟨code, 0, 0xFF, 0x10⟩
    | 3, _ => cmdFault s1 uid ⟨code, 0, 0xFF, 0x20⟩
    | 4, _ => cmdFault s1 uid ⟨code, 0, 0xFF, 0x16⟩
    | 5, 0 => cmdFail s1 c code 0x18
    | _, _ => cmdFault s1 uid ⟨0x39, 0, 0xFF, 0x40⟩

/-! WAIT. -/

/-- WAIT: the command begins, and waits for its word. -/
def execWait (q : Nat) (pos : BitVec 32) (s : State) : Out :=
  runCmd q pos 6 s (fun c s => s.modCmd c.uid (fun k => { k with stage := 1 }))

/-- The condition of a WAIT command (R284): at least, equal, not equal, some common bit. -/
def waitCond (cond word value : Nat) : Bool :=
  match cond with
  | 0 => decide (value ≤ word)
  | 1 => decide (word = value)
  | 2 => decide (word ≠ value)
  | _ => decide (word &&& value ≠ 0)

/-- WAIT_CONDITION_MET: the word meets the condition, read as an acquire; a word that cannot be read fails the command. -/
def execWaitConditionMet (q : Nat) (pos : BitVec 32) (s : State) : Out :=
  onUnit (decide (q < 16384))
    (match cmdAt s q pos.toNat 6 with
     | none => s
     | some c =>
       if !alive s || decide (c.stage ≠ 1) then s
       else match dirPieces s c 0x10 8 with
       | .error x => cmdFail s c x.1 0x10
       | .ok l =>
         match l with
         | [] => s
         | x :: _ =>
           if !piecesReady s c 0 l then s
           else match memRead s .qeng x.a 8 with
           | (s1, .error e) => cmdFail s1 c e.1 0x10
           | (s1, .ok w) =>
             if waitCond (cmdBf c.bytes 0x18 0 2) (leNat w) (cmdLe c.bytes 0x20 8) then
               cmdEnd2 (acquireCheck s1 x.a 8 (ordScope (cmdLe c.bytes 0x19 1)) qengTag) c.uid
             else s)

/-- WAIT_TIMEOUT: a WAIT has waited for WAIT_CFG.limit_ms, where that is not 0 (R296). -/
def execWaitTimeout (q : Nat) (pos : BitVec 32) (s : State) : Out :=
  onUnit (decide (q < 16384))
    (match cmdAt s q pos.toNat 6 with
     | none => s
     | some c =>
       let lim := s.rdF (pQueue q) 0x138 0 16
       if alive s && decide (c.stage = 1 ∧ lim ≠ 0 ∧ c.since + 100000 * lim ≤ s.ref) then cmdFail s c 0x36 0 else s)

/-! FENCE, NOP, PENNANT. -/

/-- FENCE: begins when every earlier command of the queue has completed, and then completes (R71). -/
def execFenceCommand (q : Nat) (pos : BitVec 32) (s : State) : Out := runCmd q pos 7 s (fun c s => cmdEnd2 s c.uid)

/-- NOP completes. -/
def execNopCommand (q : Nat) (pos : BitVec 32) (s : State) : Out := runCmd q pos 9 s (fun c s => cmdEnd2 s c.uid)

/-- PENNANT: active on its tiles from now to the end of its duration, in place of earlier ones of the queue (R291, 14 R455). -/
def execPennant (q : Nat) (pos : BitVec 32) (s : State) : Out :=
  runCmd q pos 8 s (fun c s =>
    let b := c.bytes
    let tiles := cmdTiles b
    let old := (s.pennants.map (fun p : Pennant => if p.queue = q then { p with tiles := p.tiles.filter (fun t => !tiles.contains t) } else p)).filter
      (fun p => decide (p.tiles ≠ []))
    let n : Pennant := ⟨q, tiles, cmdLe b 0x12 1, cmdLe b 0x14 4, cmdLe b 0x18 4, cmdLe b 0x1C 1, s.ref + 100 * cmdLe b 0x14 4⟩
    cmdEnd2 { s with pennants := old ++ [n] } c.uid)

/-- PENNANT_EXPIRY: the `k`th active PENNANT of a queue has reached its end (R455). -/
def execPennantExpiry (q k : Nat) (s : State) : Out :=
  onUnit (decide (q < 16384))
    (match (s.pennants.filter (fun p => decide (p.queue = q)))[k]? with
     | none => s
     | some p => if p.stop ≤ s.ref then { s with pennants := lremoveFirst (fun x => decide (x = p)) s.pennants } else s)

end Sys2Proof.Machine
end

