-- ==== Sys2Proof/Machine/Handler.lean ====
section
/-! DEFINITION. The miss handler, invalidation, access counters and page migration (10_translation.md R314, R315, R317-R323). -/

namespace Sys2Proof.Machine

open Sys2Proof

/-! Responses (R314, R315). -/

/-- The queues whose held command waits on a request. -/
def missWaiters (s : State) (n : Nat) : List (Nat × List Byte) :=
  s.qs.filterMap (fun x => match x.2.held with
    | some (b, .miss k) => if k = n then some (x.1, b) else none
    | _ => none)

/-- The field of a command that names a page for an access kind. -/
def missField (b : List Byte) (page kind : Nat) : Nat :=
  match (cmdAddrs b).find? (fun x => decide (x.2.1 / 4096 ≤ page ∧ page ≤ (x.2.1 + x.2.2.1 - 1) / 4096) && decide (x.2.2.2 &&& kind ≠ 0)) with
  | some x => x.1
  | none => 0

/-- The command that a queue holds fails with XLAT_FAULT. -/
def failHeld (s : State) (q : Nat) (b : List Byte) (cause va off : Nat) : State :=
  failCheck (xlatFault s cause (s.rdF (pQueue q) 0x120 0 12) va q) q b true 0x35 off

/-- Every command that waits on a request fails; the request is no longer outstanding. -/
def failReq (s : State) (r : MissReq) (cause : Nat) : State :=
  let w := missWaiters s r.seq
  let s1 := setReqs s (s.xlat.reqs.filter (fun x => decide (x.seq ≠ r.seq)))
  w.foldl (fun s x => failHeld s x.1 x.2 cause (r.page * 4096) (missField x.2 r.page r.kind)) s1

/-- A response that names no outstanding request (R314). -/
def staleResp (s : State) : State := raise s pXlat 12

/-- MISS_RESP_RETRY: the commands that waited are translated again. -/
def execMissRespRetry (n : BitVec 32) (s : State) : Out :=
  .next (if !served s then s else match s.xlat.reqs.find? (fun r => decide (r.seq = n.toNat)) with
    | none => staleResp s
    | some r =>
      let w := missWaiters s r.seq
      let s1 := setReqs s (s.xlat.reqs.filter (fun x => decide (x.seq ≠ r.seq)))
      w.foldl (fun s x => if fetchOn s x.1 then tryAccept s x.1 x.2 none else holdCmd s x.1 x.2 .again) s1)

/-- MISS_RESP_REFUSE: the commands that waited fail, cause REFUSED. -/
def execMissRespRefuse (n : BitVec 32) (s : State) : Out :=
  .next (if !served s then s else match s.xlat.reqs.find? (fun r => decide (r.seq = n.toNat)) with
    | none => staleResp s
    | some r => failReq s r 1)

/-- Ticks of XCFG.miss_limit_ms. -/
def missLimit (s : State) : Nat := 100000 * s.rdF pXlat 0x104 0 16

/-- The first address of a queue's command that the migration in progress holds: its field and the address. -/
def migAddr (s : State) (q : Nat) (b : List Byte) : Option (Nat × Nat) :=
  ((cmdAddrs b).find? (fun y => migHolds s (s.rdF (pQueue q) 0x120 0 12) y.2.1 y.2.2.1)).map (fun y => (y.1, y.2.1))

/-- Commands that the migration in progress has held for the miss limit fail, cause TIMEOUT, with the address of theirs that it holds (R315). -/
def migTimeouts (s : State) : State :=
  let w := s.qs.filterMap (fun x => match x.2.held with
    | some (b, .mig t) => if t + missLimit s ≤ s.ref then (migAddr s x.1 b).map (fun y => (x.1, b, y)) else none
    | _ => none)
  w.foldl (fun s x => failHeld s x.1 x.2.1 2 x.2.2.2 x.2.2.1) s

/-- MISS_TIMEOUT: request `n` has been outstanding for the limit; `n` = 0 stands beside for the commands held by a migration (log 49). -/
def execMissTimeout (n : BitVec 32) (s : State) : Out :=
  .next (if !alive s then s
    else
      let s1 := match s.xlat.reqs.find? (fun r => decide (r.seq = n.toNat)) with
        | none => s
        | some r => if r.since + missLimit s ≤ s.ref then failReq s r 2 else s
      if n = 0 then migTimeouts s1 else s1)

/-- HREQ_HEAD_WRITE: records consumed by software; a value ahead of HREQ_TAIL is discarded (R325). -/
def execHreqHeadWrite (v : BitVec 32) (s : State) : Out :=
  .next (if !served s then s
    else if 1 ≤ diff32 v.toNat (s.rd pXlat 0x200) ∧ diff32 v.toNat (s.rd pXlat 0x200) ≤ 2 ^ 31 then illegalWrite s pXlat
    else s.wr pXlat 0x204 v.toNat)

/-! Invalidation (R317). -/

/-- A cached leaf lies in what an invalidation names. -/
def invHits (mode ctx va pages : Nat) (e : TlbEnt) : Bool :=
  match mode with
  | 0 => true
  | 1 => decide (e.ctx = ctx)
  | 2 => decide (e.ctx = ctx ∧ e.va < va + 4096 * pages ∧ va < e.va + 2 ^ e.log)
  | _ => false

/-- Cached entries go: the leaves named, the non-leaf entries of the context or of every context, and in modes 0 and 1 the context entries. -/
def tlbDrop (s : State) (mode ctx va pages : Nat) : State :=
  { s with xlat := { s.xlat with
    tlb := s.xlat.tlb.filter (fun e => !invHits mode ctx va pages e)
    ptes := s.xlat.ptes.filter (fun e => !(decide (mode = 0) || (decide (mode ≤ 2) && decide (e.ctx = ctx))))
    ctxs := s.xlat.ctxs.filter (fun e => !(decide (mode = 0) || (decide (mode = 1) && decide (e.ctx = ctx)))) } }

/-- The accepted commands of a context, or of every context. -/
def ctxCmds (s : State) (every : Bool) (ctx : Nat) : List Nat :=
  (s.cmds.filter (fun c => !c.bad && (every || decide (c.ctx = ctx)))).map (·.uid)

/-- Commands have all completed. -/
def cmdsDone (s : State) (l : List Nat) : Bool :=
  s.cmds.all (fun c => !l.contains c.uid || cmdDone s c)

/-- A write of INV_CTRL with go: an invalidation begins, or is discarded while one runs. -/
def invGo (s : State) (mode : Nat) (w : Bool) : State :=
  if !served s then s
  else
    let s1 := s.wr pXlat 0x340 (2 * mode + 8 * b2n w)
    match s.xlat.inv with
    | some _ => s1.wrF pXlat 0x354 1 1 1
    | none =>
      let ctx := s.rdF pXlat 0x344 0 12
      let op : InvOp := ⟨mode, ctx, s.rd64 pXlat 0x348, s.rd pXlat 0x350, if w then ctxCmds s (mode = 0) ctx else []⟩
      ({ s1 with xlat := { s1.xlat with inv := some op } }).wr pXlat 0x354 1

/-- INV_ALL: mode 0. -/
def execInvAll (w : Bool) (s : State) : Out := .next (invGo s 0 w)
/-- INV_CTX: mode 1. -/
def execInvCtx (w : Bool) (s : State) : Out := .next (invGo s 1 w)
/-- INV_PAGES: mode 2. -/
def execInvPages (w : Bool) (s : State) : Out := .next (invGo s 2 w)

/-- INV_END: the entries are gone; busy clears once the commands it waits for have completed. -/
def execInvEnd (s : State) : Out :=
  .next (match s.xlat.inv with
    | none => s
    | some i =>
      if !alive s then s
      else
        let s1 := tlbDrop s i.mode i.ctx i.va i.pages
        if cmdsDone s i.waits then
          (({ s1 with xlat := { s1.xlat with inv := none } }).wrF pXlat 0x354 0 1 0).inc pXlat 0x358 1
        else { s1 with xlat := { s1.xlat with inv := some { i with mode := 3 } } })

/-! Access counters (R318, R319). -/

/-- A hot record is posted, or dropped where the ring is full. -/
def hotRecord (s : State) (r i v : Nat) : State :=
  if hreqFull s then raise (s.inc pXlat 0x214 1) pXlat 11
  else
    let g := granLog (s.rdF pXlat (0x148 + 16 * r) 18 2)
    let ga := s.rd64 pXlat (0x140 + 16 * r) + i * 2 ^ g
    raise (hreqWrite s (toLE 1 (1 + 16 * r) ++ toLE 1 0 ++ toLE 2 0 ++ toLE 8 ga ++ toLE 8 0 ++ toLE 4 v ++ toLE 4 0)) pXlat 10 0 0xFFFF ga

/-- ACCESS_COUNT_UPDATE: the oldest counted access is added to its counter, which stops at its greatest value. -/
def execAccessCountUpdate (s : State) : Out :=
  .next (match s.mem.counted with
    | [] => s
    | (r, i, n) :: rest =>
      let a := s.base pXlat 0x128 + r * 2 ^ 20 + 4 * i
      if !alive s || memHeld s .hostDie a 4 then s
      else
        let s0 := { s with mem := { s.mem with counted := rest } }
        match memFault s0 a 4 with
        | some f => afterFault s0 .hostDie f
        | none =>
          let old := s0.hnat a 4
          let new := if 2 ^ 32 - 1 < old + n then 2 ^ 32 - 1 else old + n
          let th := s0.rd pXlat (0x14C + 16 * r)
          let s1 := slicePut ((sliceTouch s0 .hostDie a 4 true).inc (pCache (sliceOf s0 a)) 0x20C 1) a (toLE 4 new)
          let hot := decide (old < th ∧ th ≤ new)
          if hot && !hreqFull s && hreqBlocked s then s else if hot then hotRecord s1 r i new else s1)

/-! Migration (R320-R323). -/

/-- The leaf entry that maps an address: where it lies, the entry, its level; or what stops the walk. -/
def leafAt (s : State) (va : Nat) : Nat → Nat → Except WRes (Nat × Nat × Nat)
  | 0, _ => .error (.miss 0 0)
  | l + 1, table =>
    let a := table + 8 * bits va (12 + 9 * l) 9
    match walkRead s a 8 with
    | .error e => .error e
    | .ok pte =>
      if pteInvalid pte l then .error (.miss 0 l)
      else if pteNonLeaf pte then leafAt s va l (bits (ptePpn pte) 0 28 * 4096)
      else .ok (a, pte, l)

/-- The leaf of a context that maps an address. -/
def ctxLeaf (s : State) (ctx va : Nat) : Except WRes (Nat × Nat × Nat) :=
  match walkRead s (s.base pXlat 0x108 + 16 * ctx + 12) 4 with
  | .error e => .error e
  | .ok gen =>
    match ctxEntry s ctx gen with
    | .error (.inr w) => .error w
    | .error (.inl _) => .error (.miss 0 0)
    | .ok (root, levels) => if 2 ^ (11 + 9 * levels) ≤ va then .error (.miss 0 0) else leafAt s va levels root

/-- The leaves of a range from an address on, each wholly inside it: address, log2 size, global address. -/
def migLeaves (s : State) (ctx hi : Nat) : Nat → Nat → Except WRes (List (Nat × Nat × Nat))
  | 0, _ => .ok []
  | f + 1, va =>
    if hi ≤ va then .ok []
    else match ctxLeaf s ctx va with
    | .error e => .error e
    | .ok (_, pte, l) =>
      let log := leafLog pte l
      if va % 2 ^ log ≠ 0 ∨ hi < va + 2 ^ log then .error (.miss 0 l)
      else match migLeaves s ctx hi f (va + 2 ^ log) with
      | .error e => .error e
      | .ok r => .ok ((va, log, leafGa pte l) :: r)

/-- The cause in MIG_RESULT of a walk that stopped: NOT_LEAF, UNCORRECTABLE or HBM_UNAVAILABLE; none where memory holds its requests. -/
def migWalkCause : WRes → Option Nat
  | .unc _ => some 6
  | .down => some 7
  | .later => none
  | _ => some 2

/-- A migration is refused (R320). -/
def migRefuse (s : State) (cause : Nat) : State := raise (s.wr pXlat 0x320 cause) pXlat 7

/-- The nodes other than this module that a list of ranges lies on; none in place of the list where a range lies nowhere. -/
def migNodes (s : State) : List (Nat × Nat) → Option (List Nat)
  | [] => some []
  | (ga, n) :: r =>
    match locate s ga n, migNodes s r with
    | .unmapped, _ => none
    | _, none => none
    | .loc _, some l => some l
    | .remote node _, some l => some (node :: l)

/-- What refuses a migration of `leaves`, in the order of R320. -/
def migBad (s : State) (dst len conn : Nat) (leaves : List (Nat × Nat × Nat)) : Option Nat :=
  let big := leaves.foldl (fun m x => if m < x.2.1 then x.2.1 else m) 12
  let dstOk := decide (dst % 2 ^ big = 0) && decide (dst % 2 ^ 40 + len ≤ 2 ^ 40) && decide (dst < 2 ^ 60)
  match migNodes s (leaves.map (fun x => (x.2.2, 2 ^ x.2.1))), migNodes s [(dst, len)] with
  | none, _ => some 2
  | some _, none => some 3
  | some a, some b =>
    if !dstOk then some 3
    else if (a ++ b).all (fun n => decide (bstate s (pConn conn) = 2) && decide (n = s.rdF (pConn conn) 0x108 0 20)) then none
    else some 4

/-- MIGRATION_GO: refused, discarded while another runs, or begun: new translations of the range are held from now on (R321). -/
def execMigrationGo (s : State) : Out :=
  .next (if !served s then s
    else match s.xlat.mig with
    | some _ => raise (s.wr pXlat 0x320 1) pXlat 13
    | none =>
      let ctx := s.rdF pXlat 0x300 0 12
      let conn := s.rdF pXlat 0x300 16 14
      let va := s.rd64 pXlat 0x308
      let dst := s.rd64 pXlat 0x310
      let pages := s.rdF pXlat 0x318 0 24
      if pages = 0 ∨ va % 4096 ≠ 0 then migRefuse s 2
      else match migLeaves s ctx (va + 4096 * pages) (pages + 1) va with
      | .error e => (match migWalkCause e with | some c => migRefuse s c | none => s)
      | .ok leaves =>
        match migBad s dst (4096 * pages) conn leaves with
        | some c => migRefuse s c
        | none =>
          let m : Mig := ⟨s.nextUid, ctx, conn, va, dst, pages, 0, ctxCmds s false ctx, 0, false⟩
          let s1 := tlbDrop (opStart (s.wr pXlat 0x320 0) pXlat 0 0) 2 ctx va pages
          { s1 with nextUid := s1.nextUid + 1, xlat := { s1.xlat with mig := some m } })

def setMig (s : State) (m : Option Mig) : State := { s with xlat := { s.xlat with mig := m } }

/-- The migration stops with a cause (R323); its hold is released. -/
def migFail (s : State) (cause : Nat) : State := opFail ((setMig s none).wr pXlat 0x320 cause) pXlat

/-- Bytes of stacked memory copied from one range to another: cells of the source shifted. -/
def copyCells (m : List Host.Cell) (src dst n : Nat) : List Host.Cell :=
  let keep := m.filter (fun x => decide (x.1 < dst ∨ dst + n ≤ x.1))
  (m.filter (fun x => decide (src ≤ x.1 ∧ x.1 < src + n))).foldl (fun k x => fset byte0 k (x.1 - src + dst) x.2) keep

/-- A whole range of blocks copied within this module. -/
def copyLocal (s0 : State) (src dst n : Nat) : State :=
  let s := sliceTouch (sliceTouch s0 .hostDie src n false) .hostDie dst n true
  dropTags (ringBlocks { s with
    hbm := copyCells s.hbm src dst n
    raw := s.raw.filter (fun b => decide (64 * b < dst ∨ dst + n ≤ 64 * b)) } dst n) dst n

/-- The cause of a memory fault. -/
def migMemCause (f : Nat × Nat) : Nat := if f.1 = 0x10 then 6 else 7

/-- The leaf's entries are rewritten to the new address: PPN and gext, 16 entries where the leaf is of 64 KiB (R305, R321). -/
def migRewrite (s : State) (a pte ga : Nat) : State × Option (Nat × Nat) :=
  let n := if bit pte 63 then 16 else 1
  let a0 := a / (8 * n) * (8 * n)
  match memFault s a0 (8 * n) with
  | some f => (afterFault s .hostDie f, some f)
  | none =>
    let one (s : State) (i : Nat) : State :=
      let old := s.hnat (a0 + 8 * i) 8
      let ppn := bits ga 12 44 + (if bit old 63 then 8 else 0)
      (memWrite s .hostDie (a0 + 8 * i) (toLE 8 (putBits (putBits old 10 44 ppn) 54 4 (bits ga 56 4)))).1
    ((List.range n).foldl one s, none)

/-- A leaf has been copied: its entries are rewritten, and the position moves; with the last leaf the migration completes. -/
def migLeafDone (s : State) (m : Mig) (a pte log : Nat) : State :=
  match migRewrite s a pte (m.dst + 4096 * m.pos) with
  | (s1, some f) => migFail s1 (migMemCause f)
  | (s1, none) =>
    let s2 := tlbDrop s1 2 m.ctx (m.va + 4096 * m.pos) (2 ^ log / 4096)
    let pos := m.pos + 2 ^ log / 4096
    if m.pages ≤ pos then opDone (setMig s2 none) pXlat m.pages 1
    else opProgress (setMig s2 (some { m with pos := pos, parts := 0, sent := false })) pXlat pos m.pages 1

/-- The parts of a remote leaf: every `lim` bytes, one request. -/
def migSend (s : State) (m : Mig) (log src : Nat) (rd : Bool) : State :=
  let lim := connLen s m.conn
  let off := 4096 * m.pos
  let dst := m.dst + off
  let k := ceilDiv (2 ^ log) lim
  let s1 := setMig s (some { m with parts := k, sent := true })
  (List.range k).foldl (fun s i =>
    let o := lim * i
    let n := if 2 ^ log - o < lim then 2 ^ log - o else lim
    let r : OutReq := if rd then ⟨2, 0, n, 0, 0, bits src 40 20, (src + o) % 2 ^ 40, [], .mig m.uid (off + o) false⟩
      else ⟨1, 0, n, 0, 0, bits dst 40 20, (dst + o) % 2 ^ 40, s.hrd ((src + o) % 2 ^ 40) n, .mig m.uid (off + o) true⟩
    connSend s m.conn r) s1

/-- MIGRATION_LEAF: once the commands accepted before have completed, the next leaf is copied and its entries rewritten; a remote side is reached over the connection first (R321), and one whose connection is down, draining or unbound fails the migration with LINK_DOWN (R323). -/
def execMigrationLeaf (s : State) : Out :=
  .next (match s.xlat.mig with
    | none => s
    | some m =>
      let off := decide (connState s m.conn = 0 ∨ connState s m.conn = 4 ∨ connState s m.conn = 5)
      if !alive s || !cmdsDone s m.waits || decide (m.parts ≠ 0) || s.stalls.contains pXlat then s
      else match ctxLeaf s m.ctx (m.va + 4096 * m.pos) with
      | .error e => (match migWalkCause e with | some c => migFail s c | none => s)
      | .ok (a, pte, l) =>
        let log := leafLog pte l
        let n := 2 ^ log
        let src := leafGa pte l
        let dst := m.dst + 4096 * m.pos
        if memHeld s .hostDie (a / 128 * 128) 128 then s
        else if (m.va + 4096 * m.pos) % n ≠ 0 ∨ m.pages < m.pos + n / 4096 then migFail s 2
        else if m.sent then migLeafDone s m a pte log
        else match locate s src n, locate s dst n with
        | .loc x, .loc y =>
          if memHeld s .hostDie x n || memHeld s .hostDie y n then s
          else (match memFault s x n with
            | some f => migFail (afterFault s .hostDie f) (migMemCause f)
            | none => if (failedAt s y n).isSome then migFail s 7 else migLeafDone (copyLocal s x y n) m a pte log)
        | .loc x, .remote _ _ =>
          if off then migFail s 5
          else if memHeld s .hostDie x n || decide (connState s m.conn ≠ 3) then s
          else (match memFault s x n with
            | some f => migFail (afterFault s .hostDie f) (migMemCause f)
            | none => migSend s m log src false)
        | .remote _ _, .unmapped => migFail s 2
        | .remote _ _, _ => if off then migFail s 5 else if connState s m.conn ≠ 3 then s else migSend s m log src true
        | .unmapped, _ => migFail s 2
        | .loc _, .unmapped => migFail s 2)

/-- An answer for the migration arrives: data read is written to its destination, and a write's acknowledgement ends its part. -/
def migPartDone (s : State) (uid off : Nat) (write : Bool) (body : List Byte) : State :=
  match s.xlat.mig with
  | none => s
  | some m =>
    if m.uid ≠ uid then s
    else if write then setMig s (some { m with parts := m.parts - 1 })
    else match locate s (m.dst + off) body.length with
    | .loc y =>
      (match memWrite s .hostDie y body with
       | (s1, some f) => migFail s1 (migMemCause f)
       | (s1, none) => setMig s1 (some { m with parts := m.parts - 1 }))
    | _ =>
      connSend s m.conn ⟨1, 0, body.length, 0, 0, bits m.dst 40 20, (m.dst + off) % 2 ^ 40, body, .mig uid off true⟩

/-- A part of the migration fails with a fault code (R323). -/
def migPartFail (s : State) (uid code : Nat) : State :=
  match s.xlat.mig with
  | none => s
  | some m =>
    if m.uid ≠ uid then s
    else migFail s (match code with | 0x12 => 5 | 0x10 => 6 | 0x11 => 7 | _ => 8)

end Sys2Proof.Machine
end

