-- ==== Sys2Proof/Machine/Slices.lean ====
section
/-! DEFINITION. The cache slices and the memory controllers: requests, fills, rank-ordered rounds, row repair and retirement, map-out, patrol, throttling, heavy requesters and region scrubs (11_memory_system.md R334-R362), loss and return of a PHY's lock (01_architecture.md R22). -/

namespace Sys2Proof.Machine

open Sys2Proof

/-! Frames and rows (R328, R333). -/

/-- Address frames of a pseudo-channel, and frames of its reserve. -/
def addrFrames : Nat := 4394532
def allFrames : Nat := 4718592

/-- Pseudo-channel `pc` of a stack is mapped out. -/
def mappedOut (s : State) (st pc : Nat) : Bool := bit (s.rd64 (pHbmc st) 0x230) pc

/-- Pseudo-channel and frame that hold a granule. -/
def frameOf (s : State) (g : Nat) : Nat × Nat :=
  let f := fget (fun _ => 0) s.mem.fold g
  if f = 0 then (homePc (mapKey s) g, g / 768) else (f / 2 ^ 23 % 64, f % 2 ^ 23)

/-- A row by number: stack, pseudo-channel, bank, row. -/
def rowKey (st pc bank row : Nat) : Nat := ((st * 64 + pc) * 16 + bank) * 73728 + row

/-- The row that holds an address. -/
def hbmRowOf (s : State) (a : Nat) : Nat :=
  let f := frameOf s (a / 256)
  rowKey (sliceOf s a) f.1 (f.2 / 4 % 16) (f.2 / 64)

/-- A row is failing (R346). -/
def rowFails (s : State) (k : Nat) : State := s.modMem (fun m => { m with failing := sinsert k m.failing })

/-- One more correctable error of a row; 4 096 rows a stack are tracked, the least forgotten. -/
def hbmRowCe (s : State) (st k : Nat) : State :=
  let n := fget (fun _ => 0) s.mem.rowCe k + 1
  let mine := s.mem.rowCe.filter (fun x => decide (x.1 / (64 * 16 * 73728) = st))
  let m := if n = 1 ∧ 4096 ≤ mine.length then
      (match mine with
       | [] => s.mem.rowCe
       | y :: r => ferase s.mem.rowCe (r.foldl (fun b x => if x.2 < b.2 then x else b) y).1)
    else s.mem.rowCe
  let s1 := s.modMem (fun z => { z with rowCe := fset (fun _ => 0) m k n })
  if s.rdF (pHbmc st) 0x108 0 8 ≤ n then rowFails s1 k else s1

/-- A correctable error found in a frame (R343). -/
def ceEvent (s : State) (a : Nat) : State :=
  let st := sliceOf s a
  hbmRowCe (raise (s.inc (pHbmc st) 0x220 1) (pHbmc st) 8 0 0xFFFF (a / 64 * 64)) st (hbmRowOf s a)

/-- Uncorrectable data found in a frame: the block is kept raw, its row fails (R344, R346). -/
def ueFound (s : State) (a : Nat) : State :=
  let st := sliceOf s a
  let s1 := { s with raw := sinsert (a / 64) s.raw }
  rowFails (raise (s1.inc (pHbmc st) 0x224 1) (pHbmc st) 9 0 0xFFFF (a / 64 * 64)) (hbmRowOf s a)

/-- A block is dirty in its slice. -/
def dirtyBlock (s : State) (b : Nat) : State := s.modMem (fun m => placeBlock (mapKey s) 2 m b)

/-- What the check bits of a block show when it is read from its frame or its slice: the corrected block is dirty (R343); a double-bit error in the slice's SRAM leaves the block raw and is no error of its row (R344). -/
def eccRead (s : State) (a : Nat) (e : Ecc) : State :=
  match e with
  | .clean => s
  | .corrected => dirtyBlock (ceEvent s a) (a / 64)
  | .sramCorrected =>
    let p := pCache (sliceOf s a)
    dirtyBlock (raise (s.inc p 0x210 1) p 8 0 0xFFFF (a / 64 * 64)) (a / 64)
  | .uncorrectable => ueFound s a
  | .sramUncorrectable => { s with raw := sinsert (a / 64) s.raw }

/-- The check bits show data past correction, which counts before the read, or an error that the read corrects, which counts after it. -/
def Ecc.bad : Ecc → Bool
  | .uncorrectable => true
  | .sramUncorrectable => true
  | _ => false
def eccBefore (s : State) (a : Nat) (e : Ecc) : State := if Ecc.bad e then eccRead s a e else s
def eccAfter (s : State) (a : Nat) (e : Ecc) : State := if Ecc.bad e then s else eccRead s a e

/-! Requests (R18, R334, R335). -/

/-- A request can be served now: not held, and of a hart only while it runs. -/
def sliceOpen (s : State) (r : Requester) (a n : Nat) : Bool :=
  alive s && decide (0 < n) && !memHeld s r a n && (match r with | .hart h _ => hartRuns s h | _ => true)

/-- A host store that meets a raw block covered in part or a failed stack is lost (R345). -/
def hostStoreLost (s : State) (a : Nat) (f : Nat × Nat) : State :=
  let p := pCache (sliceOf s a)
  raise (s.inc p 0x21C 1) p 10 f.1 0xFFFF f.2

/-- A write reaches its slice: merged, or failed back; of a hart it is lost. -/
def sliceMerge (s : State) (r : Requester) (a : Nat) (data : List Byte) : State :=
  let w := memWrite s r a data
  match w.2, r with
  | some f, .hart _ _ => hostStoreLost w.1 a f
  | _, _ => w.1

/-- A write covers part of a block that its slice does not hold (R335). -/
def needsFill (s : State) (a n : Nat) : Bool :=
  (blocksOf a n).any (fun b => decide (¬ (a ≤ 64 * b ∧ 64 * b + 64 ≤ a + n)) && decide (fget (fun _ => 0) s.mem.sectors b = 0))

/-- Writes that wait for fills and meet a range are merged, in the order in which they came: what fills the range serves them first. -/
def fillDrain (s : State) (a n : Nat) : State :=
  let meets (w : FillWait) : Bool := decide (w.addr / 64 ≤ (a + n - 1) / 64 ∧ a / 64 ≤ (w.addr + w.data.length - 1) / 64)
  (s.mem.fillWait.filter meets).foldl (fun s w => sliceMerge s w.req w.addr w.data)
    (s.modMem (fun m => { m with fillWait := m.fillWait.filter (fun w => !meets w) }))

/-! The host caches (01_architecture.md R17, 03_memory_model.md R101-R103). -/

/-- The write-back of a line of the host caches reaches its slice as one block (03 R88); the line is clean, or gone. -/
def lineBack (s : State) (n b : Nat) (drop : Bool) : State :=
  let bytes := (List.range 64).map (fun i => fget byte0 s.hcache.bytes (64 * b + i))
  let s1 := fillDrain s (64 * b) 64
  let s2 := if inHbm s (64 * b) 64 then sliceMerge s1 (.hart n .evict) (64 * b) bytes else s1
  { s2 with hcache := { s2.hcache with
      lines := if drop then ferase s2.hcache.lines b else fset (fun _ => 0) s2.hcache.lines b 1
      bytes := if drop then s2.hcache.bytes.filter (fun x => decide (x.1 / 64 ≠ b)) else s2.hcache.bytes } }

/-- The write-backs that waited reach memory, as far as it takes them now. -/
def hostDrain (s : State) : State :=
  s.hcache.wait.foldl (fun s w =>
    if memHeld s (.hart w.1 .evict) (64 * w.2.1) 64 then { s with hcache := { s.hcache with wait := s.hcache.wait ++ [w] } }
    else lineBack s w.1 w.2.1 w.2.2) { s with hcache := { s.hcache with wait := [] } }

/-- A hart's cache operations on lines are still on their way: its later stores wait for them (03 R102). -/
def hostOwes (s : State) (n : Nat) : Bool := s.hcache.wait.any (fun w => decide (w.1 = n))

/-- A line leaves the host caches with nothing written back. -/
def lineDrop (s : State) (b : Nat) : State :=
  { s with hcache := { s.hcache with
      lines := ferase s.hcache.lines b
      bytes := s.hcache.bytes.filter (fun x => decide (x.1 / 64 ≠ b))
      wait := s.hcache.wait.filter (fun w => decide (w.2.1 ≠ b)) } }

/-- cbo.clean, cbo.flush, cbo.inval or an eviction of the lines of a range (03 R102, 09_command_queues.md R271): dirty lines are written back, but for cbo.inval, and all but cleaned ones leave. -/
def cboRange (s : State) (n : Nat) (how : HartAcc) (a len : Nat) : State :=
  hostDrain ((blocksOf a len).foldl (fun s b =>
    let v := fget (fun _ => 0) s.hcache.lines b
    if v = 2 ∧ how ≠ .inval then { s with hcache := { s.hcache with wait := s.hcache.wait ++ [(n, b, decide (how ≠ .clean))] } }
    else if v = 0 ∨ how = .clean then s
    else lineDrop s b) s)

/-- Lines that the host caches lack are filled from their slices; an uncorrectable or failed block, or one past the end of HBM, is the hart's access fault (R345). -/
def hostFill (n a : Nat) (store : Bool) : List Nat → State → State × Bool
  | [], s => (s, true)
  | b :: r, s =>
    if fget (fun _ => 0) s.hcache.lines b ≠ 0 then hostFill n a store r s
    else match memRead (fillDrain s (64 * b) 64) (.hart n .pma) (64 * b) 64 with
    | (s1, .error _) => (hartFault s1 n a store, false)
    | (s1, .ok l) =>
      hostFill n a store r { s1 with hcache := { s1.hcache with
        lines := fset (fun _ => 0) s1.hcache.lines b 1, bytes := writeCells s1.hcache.bytes (64 * b) l } }

/-- The lines of a range that a hart's access has to fill. -/
def hostMisses (s : State) (a n : Nat) : List Nat := (blocksOf a n).filter (fun b => decide (fget (fun _ => 0) s.hcache.lines b = 0))

/-- The hart's access stands on its way to memory (09 R299). -/
def hartWaits (s : State) (n a : Nat) (store : Bool) : State := s.modHart n (fun h => { h with wait := some (a, store) })

/-- A hart's access through the host caches (03 R101): the lines it lacks are filled, then `f` acts on the caches. -/
def hostAccess (s : State) (n a len : Nat) (store : Bool) (e : Ecc) (f : State → State) : State :=
  let miss := hostMisses s a len
  let first := match miss with | b :: _ => 64 * b | [] => a
  if miss.any (fun b => memHeld s (.hart n .pma) (64 * b) 64) then hartWaits s n a store
  else
    let s1 := s.modHart n (fun h => { h with wait := none })
    match hostFill n a store miss (if miss = [] then s1 else eccBefore s1 first e) with
    | (s2, true) => f (if miss = [] then s2 else eccAfter s2 first e)
    | (s2, false) => s2

/-- Bytes stored into the host caches: their lines are dirty. -/
def hostStore (s : State) (a : Nat) (data : List Byte) : State :=
  { s with hcache := { s.hcache with
      lines := (blocksOf a data.length).foldl (fun m b => fset (fun _ => 0) m b 2) s.hcache.lines
      bytes := writeCells s.hcache.bytes a data } }

/-- A request of a hart that does not go past the caches to a slice: `cached` acts for a PMA mapping, the cache operations act on their range, and LR or SC to an NC or IO mapping raises an access fault (03 R101); none where the request goes on to the slice. -/
def hostRequest (s : State) (n : Nat) (how : HartAcc) (a len : Nat) (store : Bool) (e : Ecc) (cached : State → State) : Option State :=
  if !alive s || !hartRuns s n || decide (len = 0) then some s
  else match how with
  | .nc => if memEnd s < a + len then some (hartFault s n a store) else none
  | .pma => some (if memEnd s < a + len then hartFault s n a store else hostAccess s n a len store e cached)
  | .lrsc => some (hartFault s n a store)
  | how => some (cboRange s n how a len)

/-! The requests of SLICE_READ, SLICE_WRITE and SLICE_ATOMIC. -/

/-- A read served by the slices; a hart's fault is its access fault. -/
def sliceRead (s : State) (r : Requester) (addr len : Nat) (e : Ecc) : State :=
  if !inHbm s addr len then s
  else if !sliceOpen s r addr len then (match r with | .hart n _ => if alive s && hartRuns s n then hartWaits s n addr false else s | _ => s)
  else
    let x := memRead (eccBefore (fillDrain s addr len) addr e) r addr len
    let t := eccAfter x.1 addr e
    match r, x.2 with
    | .hart n _, .ok _ => t.modHart n (fun h => { h with wait := none })
    | .hart n _, .error _ => hartFault t n addr false
    | _, _ => t

/-- SLICE_READ: a read is served; uncorrectable data is an event of the slice and stops its reader (R344, R345). -/
def execSliceRead (r : Requester) (addr len : Nat) (e : Ecc) (s : State) : Out :=
  .next (match r with
    | .hart n how => (hostRequest (hostDrain s) n how addr len false e id).getD (sliceRead (hostDrain s) r addr len e)
    | _ => sliceRead s r addr len e)

/-- A write served by the slices: merged, or waiting for the fill of a block that it covers in part (R335). -/
def sliceWrite (s : State) (r : Requester) (addr : Nat) (data : List Byte) : State :=
  let n := data.length
  if !sliceOpen s r addr n || !inHbm s addr n then s
  else if needsFill s addr n then s.modMem (fun m => { m with fillWait := m.fillWait ++ [⟨r, addr, data⟩] })
  else sliceMerge (fillDrain s addr n) r addr data

/-- SLICE_WRITE: a write is merged; a hart store that meets a raw block covered in part is lost (R345), and one behind the hart's cache operations waits for them (03 R102). -/
def execSliceWrite (r : Requester) (addr : Nat) (data : List Byte) (s : State) : Out :=
  .next (match r with
    | .hart n how =>
      let s0 := hostDrain s
      if hostOwes s0 n && decide (how = .nc ∨ how = .pma) then s0
      else (hostRequest s0 n how addr data.length true .clean (fun s => hostStore s addr data)).getD (sliceWrite s0 r addr data)
    | _ => sliceWrite s r addr data)

/-- The release tag of a requester. -/
def reqTag : Requester → RelTag
  | .thread t => ⟨0, 0, 0, some t, false, none⟩
  | .dma t => engineTag t
  | .qeng => qengTag
  | .krovmo => remoteTag
  | _ => nodeTag

/-- The operands of an atomic that its width or format takes. -/
def atomOperandsOf (y : AtomArg) : Nat × Nat :=
  let m := 2 ^ (8 * atomArg y.aop.toNat y.width.toNat y.fmt.toNat)
  (y.operand.toNat % m, y.comparand.toNat % m)

/-- An atomic or cell operation executes in its slice, with the halves of its ORD; a hart's fault is its access fault. -/
def sliceAtomic (s : State) (r : Requester) (addr : Nat) (y : AtomArg) (o : Nat) : State :=
  let aop := y.aop.toNat
  let n := atomSize aop y.width.toNat y.fmt.toNat
  let clear := decide (aop = 0xE) && bit y.operand.toNat 0
  if !inHbm s addr n then s
  else if !sliceOpen s r addr n then (match r with | .hart k _ => if alive s && hartRuns s k then hartWaits s k addr true else s | _ => s)
  else
    let s0 := fillDrain s addr n
    let s1 := if ordAcq o then acquireCheck s0 addr n (ordScope o) (reqTag r) else s0
    match memAtomic s1 r addr aop y.width.toNat y.fmt.toNat (atomOperandsOf y).1 (atomOperandsOf y).2 clear, r with
    | (s2, .ok old), r =>
      let s3 := if ordRel o && atomWrites aop old (atomOperandsOf y).2 clear then tagRelease s2 addr n (ordScope o) (reqTag r) else s2
      (match r with | .hart k _ => s3.modHart k (fun h => { h with wait := none }) | _ => s3)
    | (s2, .error _), .hart k _ => hartFault s2 k addr true
    | (s2, .error _), _ => s2

/-- An AMO on the host caches (03 R101): integer operations on 4 or 8 bytes. -/
def hostAmo (s : State) (addr : Nat) (y : AtomArg) : State :=
  let n := atomSize y.aop.toNat y.width.toNat y.fmt.toNat
  let old := leNat ((List.range n).map (fun i => fget byte0 s.hcache.bytes (addr + i)))
  hostStore s addr (toLE n (atomNew y.aop.toNat y.width.toNat y.fmt.toNat old (atomOperandsOf y).1 (atomOperandsOf y).2).1)

/-- SLICE_ATOMIC: an atomic of any requester; a hart's AMO through a PMA mapping executes in the host caches (03 R90, R101). -/
def execSliceAtomic (r : Requester) (addr : Nat) (y : AtomArg) (ord : BitVec 8) (s : State) : Out :=
  .next
    (let aop := y.aop.toNat
     let n := atomSize aop y.width.toNat y.fmt.toNat
     let o := ord.toNat
     if decide (addr % atomAlign aop y.width.toNat y.fmt.toNat ≠ 0) || ordBad o [0, 1, 2, 3] [0, 1, 2, 3, 4] then s
     else match r with
     | .hart k how =>
       let s0 := hostDrain s
       if hostOwes s0 k && decide (how = .nc ∨ how = .pma) then s0
       else (hostRequest s0 k how addr n true .clean (fun s => if aop ≤ 9 ∧ y.width.toNat ≤ 1 then hostAmo s addr y else s)).getD (sliceAtomic s0 r addr y o)
     | _ => sliceAtomic s r addr y o)

/-- SECTOR_FILL: a block comes from its frame into its slice, and the writes that waited for it are merged (R335). -/
def execSectorFill (blk : Nat) (e : Ecc) (s : State) : Out :=
  .next (if !sliceOpen s .misc (64 * blk) 64 || !inHbm s (64 * blk) 64 then s
    else if fget (fun _ => 0) s.mem.sectors blk ≠ 0 then s
    else fillDrain (eccRead (s.modMem (fun m => placeBlock (mapKey s) 1 m blk)) (64 * blk) e) (64 * blk) 64)

/-! Rank-ordered rounds (R339-R342). -/

/-- The header of a round holds a reserved value. -/
def orwBad (h : List Byte) : Bool :=
  let fmt := bits (leAt h 0xC 1) 4 4
  let size := if fmt = 0 then 8 else 4
  let n := leAt h 8 4
  let elems := leAt h 0x1C 2
  decide (n = 0 ∨ 65536 < n) || decide (3 < leAt h 0xC 1 % 16) || !([0, 1, 9].contains fmt)
  || (if fmt = 9 then decide (leAt h 0xD 1 ≠ 0) else cvtBad (leAt h 0xD 1) fmt)
  || ordBad (leAt h 0xE 1) [2] [3, 4] || decide (leAt h 0xF 1 ≠ 0) || decide (leAt h 0x10 8 % 64 ≠ 0)
  || decide (leAt h 0x18 4 % 64 ≠ 0) || decide (leAt h 0x18 4 < elems * size) || decide (elems = 0 ∨ 16384 < elems)
  || decide (leAt h 0x1E 2 ≠ 0) || decide (leAt h 0x20 8 % 64 ≠ 0) || !allZero ((h.drop 0x2C).take 20)

/-- One combining step of a round: sum, product, min or max of two elements. -/
def orwStep (op fmt : Nat) (r : Rnd) (a b : Nat) : Nat × NEv :=
  if fmt = 9 then
    (match op with
     | 0 => (a + b) % 2 ^ 32
     | 1 => a * b % 2 ^ 32
     | 2 => if sint 32 b < sint 32 a then b else a
     | _ => if sint 32 a < sint 32 b then b else a, .zero)
  else
    let x := decodeFV fmt a
    let y := decodeFV fmt b
    finish fmt r (x.isNan || y.isNan) (match op with
      | 0 => fadd (decide (r.rnd = 2)) x y
      | 1 => fmul x y
      | 2 => fminV x y
      | _ => fmaxV x y)

/-- Combine the later ranks' elements into the first, in rank order. -/
def orwFold (op fmt : Nat) (r : Rnd) : List Nat → Nat × NEv → Nat × NEv
  | [], x => x
  | b :: l, (a, e) =>
    let y := orwStep op fmt r a b
    orwFold op fmt r l (y.1, e.add y.2)

/-- The end of a round: cause and saturations, then done as a release, and the latch of a failure (R340, R342). -/
def orwEnd (s : State) (d : OrwRound) (cause sat : Nat) : State :=
  let done := s.hnat (d.addr + 4) 4
  let s1 := slicePut s (d.addr + 0x28) (toLE 4 (cause + 256 * (if 0xFFFFFF < sat then 0xFFFFFF else sat)))
  let s2 := slicePut s1 (d.addr + 4) (toLE 4 ((done + 1) % 2 ^ 31 + (if cause = 0 then 0 else 2 ^ 31)))
  let p := pCache d.c
  let s3 := (tagRelease s2 (d.addr + 4) 4 (ordScope (leAt d.hdr 0xE 1)) nodeTag).inc p 0x218 1
  if cause = 0 then s3
  else
    raise (if s3.rdB p 0x230 31 then s3 else s3.wr p 0x230 (d.j + 2 ^ 16 * cause + 2 ^ 31)) p 11 0 0xFFFF d.addr [d.j, cause, 0, 0]

/-- What a round reads and writes beside its header: the slots and the result, as address and length (R339). -/
def orwRanges (h : List Byte) : List (Nat × Nat) :=
  let bytes := leAt h 0x1C 2 * (if bits (leAt h 0xC 1) 4 4 = 0 then 8 else 4)
  (List.range (leAt h 8 4)).map (fun k => (leAt h 0x10 8 + leAt h 0x18 4 * k, bytes)) ++ [(leAt h 0x20 8, bytes)]

/-- Memory holds a round: its header, or a slot or the result of one that it can run (01 R22). -/
def orwHeld (s : State) (d : OrwRound) : Bool :=
  memHeld s .misc d.addr 64 || (!orwBad d.hdr && (orwRanges d.hdr).any (fun x => inHbm s x.1 x.2 && memHeld s .misc x.1 x.2))

/-- A round in rank order over the header as it was read at its start; the seed of stochastic rounding is a constant with no body, so that equal data gives equal results (03 R105). -/
def orwRun (s : State) (d : OrwRound) : State :=
  let h := d.hdr
  let op := leAt h 0xC 1 % 16
  let fmt := bits (leAt h 0xC 1) 4 4
  let cvt := leAt h 0xD 1
  let size := if fmt = 0 then 8 else 4
  let n := leAt h 8 4
  let elems := leAt h 0x1C 2
  let base := leAt h 0x10 8
  let stride := leAt h 0x18 4
  let res := leAt h 0x20 8
  if orwBad h then orwEnd s d 2 0
  else if !inHbm s (base + stride * (n - 1)) (elems * size) || !inHbm s res (elems * size) then orwEnd s d 3 0
  else match (List.range n).findSome? (fun k => memFault s (base + stride * k) (elems * size)) with
  | some f => orwEnd (afterFault s .misc f) d 1 0
  | none =>
    let seed := Config.roundSeed
    let s1 := (List.range n).foldl (fun s k => sliceTouch s .misc (base + stride * k) (elems * size) false) s
    let l := (List.range elems).map (fun i =>
      let v := (List.range n).map (fun k => s.hnat (base + stride * k + size * i) size)
      orwFold op fmt (rndOf cvt seed i) v.tail ((v.head?).getD 0, .zero))
    let w := (memWrite s1 .misc res ((l.map (fun x => toLE size x.1)).foldl (· ++ ·) [])).1
    orwEnd w d 0 (lsum (l.map (·.2.sat)))

/-- ORW_ROUND: the oldest round of header `j` of a slice. -/
def execOrwRound (c j : Nat) (s : State) : Out :=
  onUnit (decide (c < 12))
    (match s.mem.rounds.find? (fun d => decide (d.c = c ∧ d.j = j)) with
     | none => s
     | some d =>
       if !alive s || orwHeld s d then s
       else orwRun (s.modMem (fun m => { m with rounds := lremoveFirst (fun x => decide (x = d)) m.rounds })) d)

/-! Repair and retirement (R346-R349, R351). -/

/-- The granules below E that a row's frames hold (R328, R333). -/
def rowGranules (s : State) (st pc bank row : Nat) : List Nat :=
  let one (c : Nat) : Option Nat :=
    let f := row * 64 + bank * 4 + c
    let g := if f < addrFrames && !mappedOut s st pc then some (granuleAt (mapKey s) st pc f)
      else (s.mem.fold.find? (fun x => decide (x.2 = 2 ^ 23 * (64 * st + pc) + f))).map (·.1)
    match g with
    | some g => if g * 256 < memEnd s then some g else none
    | none => none
  (List.range 4).filterMap one

/-- The pages that hold a granule in a frame of a row (R348). -/
def rowPages (s : State) (st pc bank row : Nat) : List Nat :=
  (rowGranules s st pc bank row).foldl (fun l g => let x := g * 256 / 4096 * 4096; if l.contains x then l else l ++ [x]) []

/-- A row as it is retired now: the interleave key in use and the pages it lists are kept with the record. -/
def retRow (s : State) (st pc bank row reason : Nat) : RetRow := ⟨st, pc, bank, row, reason, mapKey s, rowPages s st pc bank row⟩

/-- The address of the next record of a stack's retirement ring. -/
def retAt (s : State) (st : Nat) : Nat := s.base (pHbmc st) 0x10C + 64 * (s.rd (pHbmc st) 0x240 % 2 ^ s.rdF (pHbmc st) 0x114 0 4)

/-- The retirement ring of a stack takes no record now: it is full, or memory holds the write (01 R22). -/
def retFull (s : State) (st : Nat) : Bool :=
  decide (2 ^ s.rdF (pHbmc st) 0x114 0 4 ≤ diff32 (s.rd (pHbmc st) 0x240) (s.rd (pHbmc st) 0x244)) || memHeld s .misc (retAt s st) 64

/-- The 64 bytes of a retirement record (R348): the pages kept with it, or, where the interleave key has changed since, those that the row holds now. -/
def retBytes (s : State) (seq : Nat) (r : RetRow) : List Byte :=
  let pg := if r.key = mapKey s then r.pages else rowPages s r.st r.pc r.bank r.row
  toLE 4 seq ++ toLE 1 r.st ++ toLE 1 r.pc ++ toLE 1 r.bank ++ toLE 1 r.reason ++ toLE 4 r.row ++ toLE 4 pg.length
    ++ slice ((pg.map (toLE 8)).foldl (· ++ ·) []) 0 32 ++ List.replicate 16 0

/-- A retirement record is written into its ring (R348). -/
def retWrite (s : State) (r : RetRow) : State :=
  let p := pHbmc r.st
  let seq := (s.rd p 0x240 + 1) % 2 ^ 32
  let a := retAt s r.st
  let w := (memWrite s .misc a (retBytes s seq r)).1
  (tagRelease w a 64 3 nodeTag).wr p 0x240 seq

/-- A record goes to its ring, waits there for room among at most 64, or is dropped; before the ring is first configured only Palur keeps it. -/
def retPost (s : State) (r : RetRow) : State :=
  if !s.mem.retOpen.contains r.st then s
  else
    let w := s.mem.retWait.filter (fun x => decide (x.1 = r.st))
    if w = [] && !retFull s r.st then retWrite s r
    else if w.length < 64 then s.modMem (fun m => { m with retWait := m.retWait ++ [(r.st, r)] })
    else raise s (pHbmc r.st) 16 0 0xFFFF ((r.pages.head?).getD 0) [r.pc, r.bank, r.row, r.reason]

/-- Waiting records of a stack are written while the ring has room. -/
def retDrain : Nat → Nat → State → State
  | 0, _, s => s
  | n + 1, st, s =>
    if retFull s st then s
    else match s.mem.retWait.find? (fun x => decide (x.1 = st)) with
    | none => s
    | some x => retDrain n st (retWrite (s.modMem (fun m => { m with retWait := lremoveFirst (fun y => decide (y = x)) m.retWait })) x.2)

/-- The ring of a stack is configured for the first time since bring-up: every stored record goes into it with reason 2. -/
def retConfigured (s : State) (st : Nat) : State :=
  if s.mem.retOpen.contains st then retDrain 64 st s
  else
    (s.mem.retired.filter (fun r => decide (r.st = st))).foldl (fun s r => retPost s { r with reason := 2 })
      (s.modMem (fun m => { m with retOpen := sinsert st m.retOpen }))

/-- A row is retired (R348), and its pseudo-channel may be due for a map-out (R349). -/
def retireRow (s : State) (r : RetRow) : State :=
  let p := pHbmc r.st
  let off := 0x300 + 4 * (r.pc / 4)
  let n := s.rdF p off (8 * (r.pc % 4)) 8
  let n' := if n = 255 then 255 else n + 1
  let s0 := { s with store := { s.store with retCounts := fset (fun _ => 0) s.store.retCounts (64 * r.st + r.pc) n' } }
  let s1 := ((s0.modMem (fun m => { m with retired := m.retired ++ [r] })).wrF p off (8 * (r.pc % 4)) 8 n').inc p 0x22C 1
  let s2 := raise (retPost s1 r) p 11 0 0xFFFF ((r.pages.head?).getD 0) [r.pc, r.bank, r.row, r.reason]
  if s.rdF p 0x108 8 8 < n' && !mappedOut s r.st r.pc && !s.rdB p 0x238 31 then
    raise (s2.wr p 0x238 (r.pc + 2 ^ 31)) p 12 0 0xFFFF r.pc
  else s2

/-- The copies of a range's raw blocks that a repair or a map-out makes: each is an uncorrectable event with its record, stopping no one (R345). -/
def rawCopied (s : State) (a n : Nat) : State :=
  ueEvents s .misc (s.raw.filter (fun b => decide (a / 64 ≤ b ∧ b ≤ (a + n - 1) / 64)))

/-- ROW_REPAIR: a failing row takes a spare, or is retired after two repairs, without a spare, or where its repair fails (R347). -/
def execRowRepair (st pc bank row : Nat) (ok : Bool) (s : State) : Out :=
  onUnit (decide (st < 12) && decide (pc < 64) && decide (bank < 16) && decide (row < 73728))
    (let k := rowKey st pc bank row
     let b := (st * 64 + pc) * 16 + bank
     if !alive s || phyHeld s st || !s.mem.failing.contains k then s
     else
       let s1 := s.modMem (fun m => { m with failing := sremove k m.failing, rowCe := ferase m.rowCe k })
       if s.mem.retired.any (fun r => decide (r.st = st ∧ r.pc = pc ∧ r.bank = bank ∧ r.row = row)) then s1
       else if 2 ≤ fget (fun _ => 0) s.mem.rowRep k ∨ 2 ≤ fget (fun _ => 0) s.mem.bankSpare b then retireRow s1 (retRow s1 st pc bank row 0)
       else
         let s0 := (rowGranules s1 st pc bank row).foldl (fun s g => rawCopied s (g * 256) (if g * 256 + 256 ≤ memEnd s then 256 else memEnd s - g * 256)) s1
         if !ok then retireRow s0 (retRow s0 st pc bank row 1)
         else
         let s2 := s0.modMem (fun m => { m with
           rowRep := fset (fun _ => 0) m.rowRep k (fget (fun _ => 0) m.rowRep k + 1)
           bankSpare := fset (fun _ => 0) m.bankSpare b (fget (fun _ => 0) m.bankSpare b + 1) })
         raise (s2.inc (pHbmc st) 0x228 1) (pHbmc st) 10 0 0xFFFF 0 [pc, bank, row, 0])

/-- RET_HEAD_WRITE: retirement records consumed; a value ahead of RET_TAIL is discarded (R362). -/
def execRetHeadWrite (st : Nat) (v : BitVec 32) (s : State) : Out :=
  onUnit (decide (st < 12))
    (let p := pHbmc st
     if !reached s p then s
     else if 1 ≤ diff32 v.toNat (s.rd p 0x240) ∧ diff32 v.toNat (s.rd p 0x240) ≤ 2 ^ 31 then illegalWrite s p
     else retDrain 64 st (s.wr p 0x244 v.toNat))

/-! Map-out (R349, R350). -/

/-- Bytes of one pseudo-channel. -/
def pcBytes : Nat := 1125000000

/-- The fold table with the count of reserve frames that each pseudo-channel gives it: frames that it no longer names are in the reserve again (R350). -/
def setFold (m : MemSys) (fold : FMap Nat) : MemSys := { m with fold := fold, foldUsed := fold.foldl (fun u x => bump u (x.2 / 2 ^ 23)) [] }

/-- The lowest reserve frame of a pseudo-channel that holds no granule. -/
def freeFrame (m : MemSys) (k : Nat) : Option Nat :=
  let used := (m.fold.filter (fun x => decide (x.2 / 2 ^ 23 = k))).map (fun x => x.2 % 2 ^ 23)
  ((List.range (used.length + 1)).find? (fun u => !used.contains (addrFrames + u))).bind
    (fun u => if addrFrames + u < allFrames then some (addrFrames + u) else none)

/-- Bytes of a granule below E. -/
def granuleBytes (s : State) (g : Nat) : Nat := if g * 256 + 256 ≤ memEnd s then 256 else memEnd s - g * 256

/-- Bytes that a map-out copies in all: the granules whose home its pseudo-channel is, and those folded into it. -/
def mapoutTotal (s : State) (st pc : Nat) : Nat :=
  let key := mapKey s
  let full := memEnd s / 196608
  full * 256 + (List.range 2).foldl (fun t i =>
    let a := granuleAt key st pc (full + i) * 256
    t + (if a + 256 ≤ memEnd s then 256 else memEnd s - a)) 0
  + lsum ((s.mem.fold.filter (fun x => decide (x.2 / 2 ^ 23 = 64 * st + pc))).map (fun x => granuleBytes s x.1))

/-- A map-out starts: E falls and what lies at and above it is gone; granules folded there drop out, and their frames return to the reserve. -/
def mapoutStart (s : State) (st : Nat) : State :=
  let e := memEnd s - pcBytes
  let pc := s.rdF (pHbmc st) 0x238 0 6
  let s1 := (List.range 12).foldl (fun s n => s.wr64 (pHbmc n) 0x248 e) (opStart s (pHbmc st) 0 0)
  let s2 := { s1 with hbm := s1.hbm.filter (fun x => decide (x.1 < e)), raw := s1.raw.filter (fun b => decide (64 * b < e)) }
  let s3 := s2.modMem (fun m => { setFold m (m.fold.filter (fun x => decide (x.1 * 256 < e))) with
    sectors := m.sectors.filter (fun x => decide (x.1 * 64 < e)), mapWait := sremove st m.mapWait })
  s3.modMem (fun m => { m with mapout := some ⟨st, pc, 0, 0, mapoutTotal s3 st pc⟩ })

/-- MAPOUT_DUE names a pseudo-channel of a stack whose retired rows have passed the limit while another was named, if there is one from `from` on (R349). -/
def nameDue (s : State) (st lo : Nat) : State :=
  let p := pHbmc st
  match (List.range 64).find? (fun pc => decide (lo ≤ pc) && !mappedOut s st pc
      && decide (s.rdF p 0x108 8 8 < s.rdF p (0x300 + 4 * (pc / 4)) (8 * (pc % 4)) 8)) with
  | some pc => raise (s.wr p 0x238 (pc + 2 ^ 31)) p 12 0 0xFFFF pc
  | none => s

/-- Consent for a due map-out: it starts, is refused beyond four pseudo-channels of a stack, or waits, with its consent, for another to complete. -/
def mapoutConsent (s : State) (st : Nat) : State :=
  let p := pHbmc st
  let pc := s.rdF p 0x238 0 6
  if !s.rdB p 0x238 31 then s
  else if s.mem.mapout.isSome || s.opBusy p then s.modMem (fun m => { m with mapWait := sinsert st m.mapWait })
  else if 4 ≤ popc 64 (s.rd64 p 0x230) then
    nameDue (raise ((s.modMem (fun m => { m with mapWait := sremove st m.mapWait })).wrF p 0x238 31 1 0) p 18 0 0xFFFF pc) st (pc + 1)
  else mapoutStart s st

/-- Map-outs that have their consent go on once none runs. -/
def mapoutKick (s : State) : State := s.mem.mapWait.foldl (fun s st => if s.mem.mapout.isSome then s else mapoutConsent s st) s

/-- MAPOUT_GO: CTRL.mapout_go. -/
def execMapoutGo (st : Nat) (s : State) : Out := onUnit (decide (st < 12)) (if reached s (pHbmc st) then mapoutConsent s st else s)

/-- No region bound to a job overlaps the range that a map-out drops (R349). -/
def dropFree (s : State) : Bool :=
  let e := memEnd s
  (List.range 32).all (fun r => decide (s.rdF pHoist (0x408 + 16 * r) 20 2 = 0)
    || decide (s.rdF pHoist (0x400 + 16 * r) 0 19 * 2 ^ 21 + s.rdF pHoist (0x404 + 16 * r) 0 19 * 2 ^ 21 ≤ e - pcBytes))

/-- MAPOUT_AUTO: with auto_mapout, at a re-bind point. -/
def execMapoutAuto (st : Nat) (s : State) : Out :=
  onUnit (decide (st < 12)) (if alive s && s.rdB (pHbmc st) 0x108 16 && dropFree s && s.mem.mapout.isNone then mapoutConsent s st else s)

/-- The next granule that a map-out displaces: one whose home it is below E, from frame `q` on, then one folded into it; with the frame to go on from. -/
def mapoutNext (s : State) (m : Mapout) : Option (Nat × Nat) :=
  let q1 := if m.q < addrFrames then m.q else addrFrames
  if q1 < addrFrames ∧ granuleAt (mapKey s) m.st m.pc q1 * 256 < memEnd s then some (granuleAt (mapKey s) m.st m.pc q1, q1 + 1)
  else (s.mem.fold.find? (fun x => decide (x.2 / 2 ^ 23 = 64 * m.st + m.pc))).map (fun x => (x.1, addrFrames))

/-- Pseudo-channels of a stack that take fold frames, from the next in turn on. -/
def foldPcs (s : State) (m : Mapout) : List Nat :=
  let n := fget (fun _ => 0) s.mem.foldNext m.st
  ((List.range 64).map (fun i => (n + i) % 64)).filter (fun pc =>
    !mappedOut s m.st pc && decide (pc ≠ m.pc) && (freeFrame s.mem (64 * m.st + pc)).isSome)

/-- MAPOUT_COPY: the next displaced granule goes to its fold frame; after the last the pseudo-channel is mapped out. -/
def execMapoutCopy (st : Nat) (s : State) : Out :=
  onUnit (decide (st < 12))
    (match s.mem.mapout with
     | none => s
     | some m =>
       let p := pHbmc st
       if m.st ≠ st ∨ alive s = false then s
       else match mapoutNext s m, foldPcs s m with
       | some (g, q), pc :: _ =>
         let k := 64 * st + pc
         let n := granuleBytes s g
         if memHeld s .misc (g * 256) n then s
         else
           let s1 := (rawCopied s (g * 256) n).modMem (fun z => { setFold z (fset (fun _ => 0) z.fold g (2 ^ 23 * k + (freeFrame z k).getD addrFrames)) with
             foldNext := fset (fun _ => 0) z.foldNext st ((pc + 1) % 64)
             mapout := some { m with q := q, copied := m.copied + n } })
           opProgress s1 p (m.copied + n) m.total (2 ^ 26)
       | some _, [] => s
       | none, _ =>
         let s0 := { s with store := { s.store with mapped := sinsert (64 * st + m.pc) s.store.mapped } }
         let s1 := ((s0.modMem (fun z => { z with mapout := none })).wr64 p 0x230 (s.rd64 p 0x230 ||| 2 ^ m.pc)).wrF p 0x238 31 1 0
         mapoutKick (nameDue (opDone (raise s1 p 13 0 0xFFFF m.pc) p m.copied (2 ^ 26)) st 0))

/-! PHY (R22, R356, R357). -/

/-- HBM_RETRAIN: CTRL.retrain, while no long operation runs: the PHY retrains, as a long operation of its HBMC (DESIGN CHOICE, log 72); the stack's accesses wait until HBM_PHY_RELOCK, and data is kept. -/
def execHbmRetrain (st : Nat) (s : State) : Out :=
  onUnit (decide (st < 12))
    (if reached s (pHbmc st) && s.enabled (pHbmc st) && !s.opBusy (pHbmc st) && !s.mem.retrain.contains st then
       (opStart s (pHbmc st) 0 0).modMem (fun m => { m with retrain := sinsert st m.retrain })
     else s)

/-- PHY_RECALIBRATE: 100 ms after the last, or after a change of 5 degrees, the PHY has recalibrated. -/
def execPhyRecalibrate (st : Nat) (s : State) : Out :=
  onUnit (decide (st < 12))
    (let t := s.rdF (pHbmc st) 0x200 0 16
     let t0 := fget (fun _ => 0) s.mem.recalTemp st
     let due := decide (fget (fun _ => 0) s.mem.recal st + 10000000 ≤ s.ref) || decide (t0 + 80 ≤ t) || decide (t + 80 ≤ t0)
     if alive s && due then
       s.modMem (fun m => { m with recal := fset (fun _ => 0) m.recal st s.ref, recalTemp := fset (fun _ => 0) m.recalTemp st t })
     else s)

/-- Retirement records that wait are written where memory takes them again. -/
def retDrainAll (s : State) : State := (List.range 12).foldl (fun s st => retDrain 64 st s) s

/-- A retrain by CTRL.retrain ends. -/
def retrainEnd (s : State) (st : Nat) : State :=
  if s.mem.retrain.contains st then opDone (s.modMem (fun m => { m with retrain := sremove st m.retrain })) (pHbmc st) 0 1 else s

/-- HBM_PHY_RELOCK: within 10 ms of its loss the lock is back, or a retrain of the PHY has ended, and held requests go on (R22, R356). -/
def execHbmPhyRelock (st : Nat) (s : State) : Out :=
  onUnit (decide (st < 12))
    (if !s.up then s
     else match s.mem.phyLost.find? (fun x => decide (x.1 = st)) with
     | none => if s.mem.retrain.contains st then mapoutKick (retDrainAll (retrainEnd s st)) else s
     | some x =>
       if s.ref ≤ x.2 + 1000000 then
         mapoutKick (retDrainAll (retrainEnd (s.modMem (fun m => { m with phyLost := m.phyLost.filter (fun y => decide (y.1 ≠ st)) })) st))
       else s)

/-- HBM_RELOCK_TIMEOUT: after 10 ms the stack is failed until the next bring-up; requests to it fail with HBM_UNAVAILABLE (R22). -/
def execHbmRelockTimeout (st : Nat) (s : State) : Out :=
  onUnit (decide (st < 12))
    (match s.mem.phyLost.find? (fun x => decide (x.1 = st)) with
     | none => s
     | some x =>
       if x.2 + 1000000 ≤ s.ref then
         let s1 := if s.mem.retrain.contains st then opFail s (pHbmc st) else s
         raise (s1.modMem (fun m => { m with phyLost := m.phyLost.filter (fun y => decide (y.1 ≠ st)), retrain := sremove st m.retrain, failed := sinsert st m.failed })) (pHbmc st) 17
       else s)

/-! Patrol (R358). -/

/-- The stripes of the address space below E. -/
def stripes (s : State) : Nat := ceilDiv (memEnd s) 196608

/-- The granule of patrol position `i` of a stack, where its frame is in use: address frames below E, then fold frames. -/
def patrolGranule (s : State) (st i : Nat) : Option Nat :=
  if i < 64 * stripes s then
    let g := granuleAt (mapKey s) st (i % 64) (i / 64)
    if mappedOut s st (i % 64) || decide (memEnd s ≤ g * 256) then none else some g
  else ((s.mem.fold.filter (fun x => decide (x.2 / 2 ^ 29 = st)))[i - 64 * stripes s]?).map (·.1)

/-- Patrol positions of a stack. -/
def patrolEnd (s : State) (st : Nat) : Nat := 64 * stripes s + (s.mem.fold.filter (fun x => decide (x.2 / 2 ^ 29 = st))).length

/-- PATROL_READ: the next in-use frame is read and its error handled; which of its four blocks holds it is a free value. -/
def execPatrolRead (st : Nat) (e : Ecc) (s : State) : Out :=
  onUnit (decide (st < 12))
    (if !alive s || !s.rdB (pHbmc st) 0x104 0 || s.mem.failed.contains st then s
     else
       let i0 := fget (fun _ => 0) s.mem.patrol st
       match (List.range 260).findSome? (fun d => (patrolGranule s st (i0 + d)).map (fun g => (i0 + d, g))) with
       | none => (s.modMem (fun m => { m with patrol := fset (fun _ => 0) m.patrol st 0 })).inc (pHbmc st) 0x260 1
       | some (i, g) =>
         if memHeld s .misc (g * 256) (granuleBytes s g) then s
         else
         let a := g * 256 + 64 * (freeVal s % 4)
         let s1 := match e with
           | .clean => s
           | .sramCorrected => s
           | .sramUncorrectable => s
           | .corrected => dirtyBlock (ceEvent s.freeNext a) (a / 64)
           | .uncorrectable => ueEvent (ueFound s.freeNext a) .misc a
         let s2 := s1.modMem (fun m => { m with patrol := fset (fun _ => 0) m.patrol st (if i + 1 < patrolEnd s st then i + 1 else 0) })
         if i + 1 < patrolEnd s st then s2 else s2.inc (pHbmc st) 0x260 1)

/-! Throttling and heavy requesters (R352, R353). -/

/-- The condition on which a level is entered, and left, by temperatures in sixteenths of a degree. -/
def thrEnter (n stack base : Nat) : Bool :=
  match n with
  | 1 => decide (1472 ≤ base) | 2 => decide (1488 ≤ base) | 3 => decide (1504 ≤ base ∨ 1504 ≤ stack) | 4 => decide (1520 ≤ stack) | _ => true
def thrLeave (n stack base : Nat) : Bool :=
  match n with
  | 1 => decide (base < 1440) | 2 => decide (base < 1456) | 3 => decide (base < 1472 ∧ stack < 1472) | 4 => decide (stack < 1488) | _ => false

/-- The level from the level before. -/
def thrLevel (old stack base : Nat) : Nat :=
  (List.range 5).foldl (fun m n => if thrEnter n stack base || (decide (n ≤ old) && !thrLeave n stack base) then n else m) 0

/-- Admission in per cent of a level. -/
def thrAdmit (n : Nat) : Nat := match n with | 0 => 100 | 1 => 75 | 2 => 50 | 3 => 25 | _ => 0

/-- The base supply: 0.75 V, and 0.70 V while any HBMC is at level 3 (R352, 01_architecture.md R12); off as long as it has not been turned on. -/
def baseSupply (s : State) : State :=
  let hot := (List.range 12).any (fun st => decide (s.rdF (pHbmc st) 0x204 0 3 = 3))
  { s with power := { s.power with baseMv := if s.power.baseMv = 0 then 0 else if hot then 700 else 750 } }

/-- THROTTLE_LEVEL: a temperature reading sets the level and the admission of an HBMC. -/
def execThrottleLevel (st stackT baseT : Nat) (s : State) : Out :=
  onUnit (decide (st < 12))
    (if !s.up then s
     else
       let p := pHbmc st
       let old := s.rdF p 0x204 0 3
       let n := thrLevel old stackT baseT
       let s0 := { s with power := { s.power with
         lvl4 := if n ≠ 4 then ferase s.power.lvl4 st else if old = 4 then s.power.lvl4 else fset (fun _ => 0) s.power.lvl4 st (s.ref + 1) } }
       let s1 := baseSupply ((s0.wr p 0x200 (stackT % 2 ^ 16 + 2 ^ 16 * (baseT % 2 ^ 16))).wr p 0x204 (n + 256 * thrAdmit n))
       let s2 := if old < n then raise s1 p 14 0 0xFFFF 0 [n, stackT, baseT, 0] else s1
       if n = 4 ∧ old < 4 then raise s2 p 15 0 0xFFFF 0 [n, stackT, baseT, 0] else s2)

/-- HEAVY_WINDOW: at the end of a 100 µs window, requesters with more than 2/161 of the slice's requests are heavy for the next. -/
def execHeavyWindow (st : Nat) (s : State) : Out :=
  onUnit (decide (st < 12))
    (let mine := s.mem.reqs.filter (fun x => decide (x.1 / 256 = st))
     let total := lsum (mine.map (·.2))
     let heavy := (mine.filter (fun x => decide (2 * total < 161 * x.2))).map (fun x => x.1 % 256)
     let p := pHbmc st
     if !alive s then s
     else
       let s1 := (List.range 5).foldl (fun s w => s.wr p (0x208 + 4 * w) (maskOf ((heavy.filter (fun t => decide (t < 160 ∧ t / 32 = w))).map (· % 32)))) s
       (s1.wr p 0x21C (b2n (heavy.contains 160))).modMem (fun m => { m with reqs := m.reqs.filter (fun x => decide (x.1 / 256 ≠ st)) }))

/-! Scrubs (R359) and the scope detector's last pair (R84). -/

/-- SCRUB_GO: CACHE 0 CTRL.scrub_go, refused while a scrub runs or for a range not below E. -/
def execScrubGo (s : State) : Out :=
  .next
    (let p := pCache 0
     let base := s.rd64 p 0x240
     let len := s.rd64 p 0x248
     if !reached s p then s
     else if s.mem.scrub.isSome then raise (s.wr p 0x250 1) p 12 0 0xFFFF base
     else if !inHbm s base len || decide (base % 4096 ≠ 0 ∨ len % 4096 ≠ 0) then raise (s.wr p 0x250 2) p 12 0 0xFFFF base
     else scrubStart (s.wr p 0x250 0) base len none)

/-- SCOPE_CLEAR_LAST: SCOPE_LAST.valid clears (R84). -/
def execScopeClearLast (p : Page) (s : State) : Out :=
  onUnit (pageOk p && (p.blk = .tile || p.blk = .cache)) (if reached s p then s.wrF p 0x6FC 31 1 0 else s)

end Sys2Proof.Machine
end

