-- ==== Sys2Proof/Machine/Links.lean ====
section
/-! DEFINITION. Connections going DOWN with their accesses, and the links: training, retraining, flits, retry and credits, cuts (12_krovmo_fabric.md R366-R373, R377, R378, R380, R391, R392). -/

namespace Sys2Proof.Machine

open Sys2Proof

/-! Answers to the agents of this module (R380, R383). -/

/-- The global address of a request. -/
def OutReq.ga (r : OutReq) : Nat := r.node * 2 ^ 40 + r.target % 2 ^ 40

/-- Change an outstanding access of a group. -/
def modAccess (s : State) (gr : GRef) (id : Nat) (f : Access → Access) : State :=
  s.modGroup gr (fun g => { g with outst := lupdate (fun a => decide (a.id = id)) f g.outst })

/-- An access is answered with its data. -/
def ctxDone (s : State) (c : PCtx) (body : List Byte) : State :=
  match c with
  | .thread gr id fill =>
    modAccess s gr id (fun a => { a with
      remote := a.remote - 1
      writes := a.writes ++ fill.map (fun x => (x.1, BitVec.ofNat 32 (leAt body x.2.1 x.2.2))) })
  | .dma t uid part => dmaPartDone s t uid part body
  | .cmd uid part => cmdPartDone s uid part body
  | .mig uid off w => migPartDone s uid off w body

/-- An access fails back to its issuing context with a fault code and an address. -/
def ctxFail (s : State) (c : PCtx) (code addr : Nat) : State :=
  match c with
  | .thread gr id _ => modAccess s gr id (fun a => { a with remote := a.remote - 1, fault := a.fault <|> some (code, addr) })
  | .dma t uid part => dmaPartFail s t uid part code addr
  | .cmd uid part => cmdPartFail s uid part code
  | .mig uid _ _ => migPartFail s uid code

/-- Outstanding packets of a connection change; OUTSTANDING and RETRY_USED follow. -/
def setOut (s : State) (c : Nat) (l : List OutPkt) : State :=
  let s1 := (s.modConn c (fun k => { k with out := l })).wr (pConn c) 0x210 l.length
  s1.wr pFabric 0x228 (retryUsed s1)

/-- Every outstanding and waiting access of a connection fails back with a code, and its retry copies are free for others (R380). -/
def connFailAll (s : State) (c code : Nat) : State :=
  let k := s.conn c
  let s1 := setOut (s.modConn c (fun k => { k with wait := [] })) c []
  repump (decide (65536 ≤ retryUsed s)) (((k.out.map (·.req)) ++ k.wait).foldl (fun s r => ctxFail s r.ctx code r.ga) s1)

/-- A connection enters DOWN with a cause: 1 link, 2 silent, 3 open timeout, 4 version, 5 refused by the peer (R380, R393). Requests that it has accepted are still performed, without an answer (R378, R380). -/
def connDown (s : State) (c cause : Nat) : State :=
  let s1 := (setConnState s c 5).modConn c (fun k => { k with openSince := none, closing := false, peerClosed := false, mute := k.held.length })
  connFailAll (raise (s1.wr (pConn c) 0x21C cause) (pConn c) 9 0 0xFFFF 0 [connPort s c, c, s.rdF (pConn c) 0x108 0 20, cause]) c
    (if cause = 5 then 0x2C else 0x12)

/-- The connections bound and configured on a port. -/
def portConns (s : State) (l : Nat) : List Nat :=
  (s.bind.bound.filter (fun p => decide (p.blk = .conn) && decide (connPort s p.inst = l))).map (·.inst)

/-- A connection whose link goes down or dark is DOWN (R366, R369, R378). -/
def connLinkDown (s : State) (c : Nat) : State :=
  match connState s c with
  | 1 | 2 | 3 | 4 => connDown s c 1
  | _ => s

/-! Link states (R366-R370, R392). -/

/-- A link enters a state; FABRIC.PORTS_UP follows. -/
def setLinkState (s : State) (l st : Nat) : State := (s.wrF (pLink l) 0x14 16 3 st).wrF pFabric 0x204 l 1 (b2n (decide (st = 2)))

/-- A link enters DOWN with a cause; its connections go DOWN (R99, R369, R370). -/
def linkDown (s : State) (l cause : Nat) : State :=
  let p := pLink l
  let s0 := if s.opBusy p then opFail s p else s
  let s1 := ((setLinkState s0 l 4).wr p 0x220 cause).modLink l (fun k => { k with downAt := s.ref, retrainFrom := none, retry := [], replayDue := false, ctl := [] })
  (portConns s1 l).foldl connLinkDown (raise s1 p 10 0 0xFFFF 0 [l, cause, 0, 0])

/-- A full training begins (R367): flit numbers, credits and buffers start anew. The lasers are on at once, which is its first step (DESIGN CHOICE, log entry 162). -/
def startTraining (s : State) (l : Nat) : State :=
  let s1 := setLinkState (opProgress (opStart s (pLink l) 0 0) (pLink l) 1 5 1) l 1
  let k := s.link l
  s1.setLink l { LinkSt.init with step := 1, since := s.ref, downAt := k.downAt, lastAuto := k.lastAuto, line := k.line }

/-- A link-control flit is sent as soon as the link may (R371, R372). -/
def sendControl (s : State) (l : Nat) (payload : List Byte) : State :=
  linkGo l (s.modLink l (fun k => { k with ctl := k.ctl ++ [payload] }))

/-- The receive buffers granted to the partner: VC0 less what an armed disturbance withholds (R373, 16_bringup_errors_test.md R524). -/
def linkBufs (s : State) (l : Nat) : List Nat := [1024 - creditHold s l, 1024, 64]

/-- The capability flit of this side. -/
def capFlit (s : State) (l lanes : Nat) : List Byte :=
  toLE 1 1 ++ toLE 1 1 ++ List.replicate 6 0 ++ toLE 3 (nodeId s) ++ toLE 1 l
    ++ toLE 1 (s.rdF pFabric 0x108 0 2 + 16 * s.rdF pFabric 0x108 2 2) ++ toLE 1 lanes ++ List.replicate 2 0
    ++ ((linkBufs s l).map (toLE 2)).foldl (· ++ ·) []

/-- The credit grant flit. -/
def grantFlit (s : State) (l : Nat) : List Byte :=
  toLE 1 3 ++ toLE 1 1 ++ List.replicate 14 0 ++ ((linkBufs s l).map (toLE 2)).foldl (· ++ ·) []

/-- A link that is UP retrains (R369): its lanes lock anew; the partner is asked to when `ask`. -/
def startRetrain (s : State) (l : Nat) (ask : Bool) : State :=
  if linkState s l ≠ 2 then s
  else
    let s0 := if ask then sendControl s l (toLE 1 2 ++ toLE 1 1) else s
    raise (((setLinkState s0 l 3).modLink l (fun k => { k with step := 1, since := s.ref, lanes := 0, retrainFrom := some s.ref })).inc (pLink l) 0x214 1) (pLink l) 9 0 0xFFFF 0 [l, 0, 0, 0]

/-- The port emits: both its enables are set and in effect (R366; a cleared one darkens it before its block is inert), its engine is below 90 degrees (14_power_thermal.md R451), and the module is in P0 or P1 (16_bringup_errors_test.md R510). -/
def portLit (s : State) (l : Nat) : Bool :=
  [pOe (l / 8), pLink l].all (fun p => s.enabled p && s.rdB p 0x10 0) && decide (s.rdF (pOe (l / 8)) 0x204 0 16 < 1440) && decide (powerState s ≤ 1)

/-- A port goes dark (R366): its link enters DARK, its connections go DOWN. -/
def goDark (s : State) (l : Nat) : State :=
  let s1 := s.wrF (pOe (l / 8)) 0x200 (l % 8) 1 0
  if linkState s l = 0 then s1
  else
    let s2 := if s1.opBusy (pLink l) then opFail s1 (pLink l) else s1
    let s3 := ((setLinkState s2 l 0).wr (pLink l) 0x220 6).modLink l (fun k => { LinkSt.init with line := k.line })
    (portConns s3 l).foldl connLinkDown s3

/-- What lets a port emit has changed: it trains once it may, and goes dark when it may not (R366). -/
def portChange (s : State) (l : Nat) : State :=
  if portLit s l then
    let s1 := s.wrF (pOe (l / 8)) 0x200 (l % 8) 1 1
    if linkState s l = 0 then startTraining s1 l else s1
  else goDark s l

/-- Lanes that make a width: 8, 4 on one fibre, lanes 0-3 preferred, or none (R368); a port with a failed laser trains at width 4 at most (R391). -/
def linkLanes (s : State) (l mine theirs : Nat) (narrow : Bool) : Option Nat :=
  let both := mine &&& theirs
  let x4 := s.rdB (pLink l) 0x104 1
  if both % 256 = 0xFF ∧ narrow = false ∧ s.rdB (pOe (l / 8)) 0x208 (l % 8) = false then some 0xFF
  else if x4 && decide (both &&& 0x0F = 0x0F) then some 0x0F
  else if x4 && decide (both &&& 0xF0 = 0xF0) then some 0xF0
  else none

/-- The width in use takes effect. -/
def setWidth (s : State) (l lanes : Nat) : State :=
  let p := pLink l
  let was := s.rdB p 0x14 19
  let x4 := decide (lanes ≠ 0xFF)
  let s1 := (s.wrF p 0x14 19 1 (b2n x4)).wrF p 0x204 8 8 lanes
  if x4 && !was then raise s1 p 11 0 0xFFFF 0 [l, lanes, 0, 0] else s1

/-- Enough lanes for a width have trained. -/
def lanesEnough (m : Nat) : Bool := decide (m &&& 0x0F = 0x0F) || decide (m &&& 0xF0 = 0xF0)

/-- A step of a training is complete: the position of the long operation counts it (R367). A retrain is no long operation. -/
def trainStep (s : State) (l n : Nat) : State :=
  let s1 := if linkState s l = 1 then opProgress s (pLink l) n 5 1 else s
  s1.modLink l (fun k => { k with step := n })

/-- PARTNER_LIGHT: receivers lock on lanes that are offered; with enough of them step 2 is complete (R367). -/
def execPartnerLight (l : Nat) (lanes : BitVec 8) (s : State) : Out :=
  onUnit (decide (l < 32))
    (if !alive s || !portLit s l || !(decide (linkState s l = 1 ∨ linkState s l = 3)) || decide (2 < (s.link l).step) then s
     else
       let m := (s.link l).lanes ||| (lanes.toNat &&& s.rdF (pLink l) 0x110 0 8)
       let s1 := s.modLink l (fun k => { k with lanes := m })
       if lanesEnough m then trainStep s1 l 2 else s1)

/-- FEC alignment and lane deskew follow the lock: step 3 is complete, and the capability flit goes out (R367, R368). No command tells of it: it is complete at the next tick, or when the partner's flit is heard before (DESIGN CHOICE, log entry 162). -/
def align (s : State) (l : Nat) : State :=
  if (s.link l).step = 2 ∧ (linkState s l = 1 ∨ linkState s l = 3) then
    let s1 := trainStep s l 3
    sendControl s1 l (capFlit s1 l (s1.link l).lanes)
  else s

/-- The number of the last link-control flit accepted advances. -/
def ctlAccept (s : State) (l : Nat) : State := s.modLink l (fun k => { k with accepted := (k.accepted + 1) % 4096 })

/-- The capability exchange is decided (R368): version, partner and width; in a retrain the version stays and the width never grows. -/
def decideCapability (s : State) (l node port oldest newest lanes : Nat) : State :=
  let p := pLink l
  let k := s.link l
  let retrain := decide (linkState s l = 3)
  let lo := s.rdF pFabric 0x108 0 2
  let hi := s.rdF pFabric 0x108 2 2
  let v := if newest < hi then newest else hi
  let expect := s.rdF p 0x108 0 20
  if !retrain && decide (v < lo ∨ v < oldest) then raise (linkDown s l 3) p 12 0 0xFFFF 0 [l, oldest, newest, 0]
  else if expect ≠ 0xFFFFF ∧ node ≠ 0xFFFFF ∧ expect ≠ node then raise (linkDown s l 4) p 13 0 0xFFFF 0 [l, node, 0, 0]
  else match linkLanes s l k.lanes lanes (retrain && s.rdB p 0x14 19) with
  | none => linkDown s l 2
  | some m =>
    let s1 := (setWidth s l m).wr p 0x200 (node + 2 ^ 20 * port)
    let s2 := if retrain then s1 else (s1.wrF p 0x204 0 4 v).modLink l (fun k => { k with kept := creditHold s1 l })
    sendControl (trainStep s2 l 4) l (grantFlit s2 l)

/-- A capability flit that has been accepted. -/
def capArrives (s0 : State) (l node port oldest newest lanes : Nat) : State :=
  let s := align s0 l
  if (linkState s l = 1 ∨ linkState s l = 3) ∧ (s.link l).step = 3 then decideCapability s l node port oldest newest lanes else s

/-- A retrain is complete: the link is UP, its timers go on from where they stopped, and the retry buffer is replayed. -/
def retrainDone (s : State) (l : Nat) : State :=
  let k := s.link l
  let d := s.ref - k.retrainFrom.getD s.ref
  let s1 := (setLinkState s l 2).setLink l { k with
    step := 5, retrainFrom := none, ackAt := k.ackAt + d, replayDue := true, tx := k.tx.map (fun v => { v with lastAt := v.lastAt + d }),
    rx := k.rx.map (fun v => { v with lastAt := v.lastAt + d }) }
  let s2 := (portConns s1 l).foldl (fun s c => s.modConn c (fun k => { k with
    out := k.out.map (fun o => { o with sentAt := o.sentAt + d }), heard := k.heard + d, silentFrom := k.silentFrom + d })) s1
  linkGo l (s2.inc (pLink l) 0x210 k.retry.length)

/-- Initial credits have been granted by the partner: in a training the link comes UP (R367 step 5); in a retrain credits are kept. -/
def grantArrives (s : State) (l b0 b1 b2 : Nat) : State :=
  if linkState s l = 1 ∧ (s.link l).step = 4 then
    let k := s.link l
    let s1 := (setLinkState s l 2).setLink l { k with
      step := 5, tx := (k.tx.zip [b0, b1, b2]).map (fun x => { x.1 with credits := x.2 }) }
    linkGo l (opDone (raise s1 (pLink l) 8 0 0xFFFF 0 [l, 0, 0, 0]) (pLink l) 5 1)
  else s

/-- The link receives: its enables are set and it trains, retrains or is UP. -/
def linkHears (s : State) (l : Nat) : Bool := alive s && portLit s l && decide (linkState s l ≠ 0 ∧ linkState s l ≠ 4)

/-- CAPABILITY: a capability flit in sequence. -/
def execCapability (l : Nat) (k : CapInfo) (s : State) : Out :=
  onUnit (decide (l < 32))
    (if linkHears s l then
       linkAnswer (s.link l) l (capArrives (ctlAccept s l) l k.node.toNat k.port.toNat k.oldest.toNat k.newest.toNat k.lanes.toNat)
     else s)

/-- RETRAIN_REQUEST: the partner asks for a retrain. -/
def execRetrainRequest (l : Nat) (s : State) : Out :=
  onUnit (decide (l < 32)) (if linkHears s l then linkAnswer (s.link l) l (startRetrain (ctlAccept s l) l false) else s)

/-- CREDIT_GRANT: the partner grants its buffers. -/
def execCreditGrant (l b0 b1 b2 : Nat) (s : State) : Out :=
  onUnit (decide (l < 32)) (if linkHears s l then linkAnswer (s.link l) l (grantArrives (ctlAccept s l) l b0 b1 b2) else s)

/-- TRAINING_TIMEOUT: step 2 has not completed within 100 ms. -/
def execTrainingTimeout (l : Nat) (s : State) : Out :=
  onUnit (decide (l < 32))
    (if alive s && decide (linkState s l = 1 ∧ (s.link l).step < 2 ∧ (s.link l).since + 10000000 ≤ s.ref) then linkDown s l 2 else s)

/-- LANE_SIGNAL_LOSS: a lane in use loses signal or lock. -/
def execLaneSignalLoss (l lane : Nat) (s : State) : Out :=
  onUnit (decide (l < 32) && decide (lane < 8))
    (if alive s && decide (linkState s l = 2) && bit (s.rdF (pLink l) 0x204 8 8) lane then
       startRetrain s l true
     else s)

/-- RETRAIN_COMPLETE: a retrain ends with the lanes that both sides have trained; too few put the link into DOWN. -/
def execRetrainComplete (l : Nat) (lanes : BitVec 8) (s : State) : Out :=
  onUnit (decide (l < 32))
    (if alive s && decide (linkState s l = 3) then
       match linkLanes s l (lanes.toNat &&& s.rdF (pLink l) 0x110 0 8) lanes.toNat (s.rdB (pLink l) 0x14 19) with
       | some m => retrainDone ((setWidth s l m).modLink l (fun k => { k with lanes := lanes.toNat })) l
       | none => linkDown s l 2
     else s)

/-- RETRAIN_TIMEOUT: a retrain has not completed 10 ms after it began (R369). -/
def execRetrainTimeout (l : Nat) (s : State) : Out :=
  onUnit (decide (l < 32))
    (match (s.link l).retrainFrom with
     | some t => if alive s && decide (linkState s l = 3 ∧ t + 1000000 ≤ s.ref) then linkDown s l 1 else s
     | none => s)

/-- LINK_TRAIN: CTRL.train: a full training from DOWN, a retrain from UP. -/
def execLinkTrain (l : Nat) (s : State) : Out :=
  onUnit (decide (l < 32))
    (if !served s || !portLit s l then s
     else if linkState s l = 4 then startTraining s l
     else startRetrain s l true)

/-- LINK_FORCE_DOWN: CTRL.down, for a link that is UP or retrains. -/
def execLinkForceDown (l : Nat) (s : State) : Out :=
  onUnit (decide (l < 32)) (if served s && decide (linkState s l = 2 ∨ linkState s l = 3) then linkDown s l 5 else s)

/-- AUTO_TRAIN: 1 s after DOWN, and then every second. -/
def execAutoTrain (l : Nat) (s : State) : Out :=
  onUnit (decide (l < 32))
    (let k := s.link l
     if alive s && portLit s l && decide (linkState s l = 4) && s.rdB (pLink l) 0x104 0 && decide (k.downAt + 100000000 ≤ s.ref ∧ k.lastAuto + 100000000 ≤ s.ref) then
       startTraining (s.modLink l (fun k => { k with lastAuto := s.ref })) l
     else s)

/-- LASER_FAILURE: a laser of the port has failed (R391). -/
def execLaserFailure (l : Nat) (s : State) : Out :=
  onUnit (decide (l < 32))
    (if !s.up then s else raise (s.wrF (pOe (l / 8)) 0x208 (l % 8) 1 1) (pOe (l / 8)) 8 0 0xFFFF 0 [l, 0, 0, 0])

/-! Flits (R371, R372). -/

/-- The retry buffer is replayed from ack + 1; one flit replayed more than nak_limit times within 100 µs makes the link retrain (R369, R372). -/
def replay (s : State) (l : Nat) : State :=
  let k := s.link l
  match k.retry with
  | [] => s
  | f :: _ =>
    let again := k.retry.map (fun x => { x with times := s.ref :: x.times.filter (fun t => decide (s.ref ≤ t + 10000)) })
    let worst := again.foldl (fun n x => if n < x.times.length then x.times.length else n) 0
    let s1 := s.setLink l { k with retry := again, replayDue := true, ackAt := s.ref }
    let s2 := raise (s1.inc (pLink l) 0x210 k.retry.length) (pLink l) 14 0 0xFFFF 0 [l, f.seq, worst, 0]
    linkGo l (if s.rdF (pLink l) 0x114 0 8 < worst then startRetrain s2 l true else s2)

/-- The flits that an ack leaves unacknowledged. -/
def unacked (ack : Nat) (l : List TxFlit) : List TxFlit := l.filter (fun x => decide (2048 ≤ (ack + 4096 - x.seq) % 4096))

/-- The ack, the nak and the credits of a flit that checks. -/
def flitAck (s : State) (l : Nat) (f : Flit) : State :=
  let k := s.link l
  let rest := unacked f.ack.toNat k.retry
  let tx := (k.tx.zip [f.cr0.toNat, f.cr1.toNat, f.cr2.toNat]).map (fun x => { x.1 with credits := x.1.credits + x.2 })
  let s1 := s.setLink l { k with retry := rest, tx := tx, ackAt := if rest.length < k.retry.length then s.ref else k.ackAt }
  linkGo l (if f.nak then replay s1 l else s1)

/-- Bytes that the packet at the front of a buffer occupies; none before its header is whole. -/
def frontSize (b : List Byte) : Option Nat :=
  if b.length < 32 then none
  else some (if leAt b 0 1 / 16 = 2 then 40 else 40 + leAt b 2 2 % 8192)

/-- Whole packets leave the receive buffer, with the bytes of the one in progress; a zero byte where a header would begin is padding (R374). -/
def rxSplit : Nat → List Byte → List (List Byte) × List Byte
  | 0, b => ([], b)
  | n + 1, b =>
    match b with
    | [] => ([], [])
    | x :: _ =>
      if x = 0 then ([], [])
      else match frontSize b with
      | none => ([], b)
      | some z =>
        if b.length < z then ([], b)
        else
          let r := rxSplit n (b.drop z)
          (b.take z :: r.1, r.2)

/-- The flits that the bytes of a packet in progress occupy: the last of them ends with a flit. -/
def rxFlits (b : List Byte) : Nat := ceilDiv b.length 240

/-- An answer to a request of a peer (R383): status, and a body. -/
def answer (s : State) (l : Nat) (ver gen dst src node seq status : Nat) (body : List Byte) : State :=
  linkSend s l (mkPacket s ver 5 0 body.length dst src 0 gen (s.rd (pConn src) 0x204) 0 0 (node * 2 ^ 40 + status * 2 ^ 32 + seq) body)

/-- A packet in progress on a virtual channel is truncated and answered, and the credits of its flits are returned (R377). -/
def truncateRx (s : State) (l vc : Nat) (buf : List Byte) (drop : Bool) : State :=
  let s1 := s.modLink l (fun k => { k with rx := lmod (fun v => { v with buf := [], dropping := drop, owed := v.owed + rxFlits v.buf }) k.rx vc })
  let s2 := raise ((s1.inc (pLink l) 0x218 1).inc pFabric 0x220 1) (pLink l) 15 0 0xFFFF 0 [l, vc, 0, 0]
  if vc = 0 ∧ 32 ≤ buf.length then
    answer s2 l (leAt buf 0 1 % 16) (leAt buf 0xC 4) (leAt buf 6 2 % 2 ^ 14) (leAt buf 4 2 % 2 ^ 14) (leAt buf 0x14 4 % 2 ^ 20) (leAt buf 8 4) 10 []
  else s2

/-- The payload of an accepted flit goes behind the bytes of its virtual channel; with the packets it completes. Flits whose bytes have left the buffer are freed (R373, R374, R377). -/
def rxTake (s : State) (l vc : Nat) (cut : Bool) (payload : List Byte) : State × List (List Byte) :=
  match (s.link l).rx[vc]? with
  | none => (s, [])
  | some v =>
    if v.dropping && !cut then (s.modLink l (fun k => { k with rx := lmod (fun v => { v with owed := v.owed + 1 }) k.rx vc }), [])
    else
      let s1 := if cut && !v.dropping && decide (v.buf ≠ []) then truncateRx s l vc v.buf false else s
      let old := if cut then [] else v.buf
      let r := rxSplit 8 (old ++ payload)
      (s1.modLink l (fun k => { k with rx := lmod (fun v => ⟨r.2, s.ref, false, v.owed + (rxFlits old + 1 - rxFlits r.2)⟩) k.rx vc }), r.1)

/-- A link-control flit that has been accepted: known codes act, others are counted in REPLAYS (R371). -/
def linkControl (s : State) (l : Nat) (b : List Byte) : State :=
  if leAt b 1 1 ≠ 1 then s.inc (pLink l) 0x210 1
  else match leAt b 0 1 with
  | 1 => capArrives s l (leAt b 8 3 % 2 ^ 20) (leAt b 0xB 1 % 32) (leAt b 0xC 1 % 16) (leAt b 0xC 1 / 16) (leAt b 0xD 1)
  | 2 => startRetrain s l false
  | 3 => grantArrives s l (leAt b 0x10 2) (leAt b 0x12 2) (leAt b 0x14 2)
  | _ => s.inc (pLink l) 0x210 1

/-- What an arriving flit does to a link, with the packets it completes: a flit in sequence is accepted; one that fails its crc or is ahead is answered with a nak; one already accepted is discarded (R372). -/
def flitArrives (s : State) (l : Nat) (f : Flit) : State × List (List Byte) :=
  if !flitOk f then (s.modLink l (fun k => { k with nakDue := true }), [])
  else
    let k := s.link l
    let d := (f.seq.toNat + 4096 - (k.accepted + 1) % 4096) % 4096
    if d = 0 then
      let s1 := flitAck (s.modLink l (fun k => { k with accepted := f.seq.toNat, nakDue := false })) l f
      if f.ftype.toNat = 1 then rxTake s1 l f.vc.toNat f.cut f.payload else (linkControl s1 l f.payload, [])
    else if d < 2048 then ((flitAck s l f).modLink l (fun k => { k with nakDue := true }), [])
    else (flitAck s l f, [])

/-- A payload or link-control flit is heard: link control while the link trains, retrains or is UP, payload while it is UP. -/
def flitHeard (s : State) (l : Nat) (f : Flit) : Bool :=
  linkHears s l && (decide (f.ftype.toNat = 2) || (decide (f.ftype.toNat = 1) && decide (linkState s l = 2)))

/-- IDLE_FLIT: only ack, nak and credits. -/
def execIdleFlit (l : Nat) (f : Flit) (s : State) : Out :=
  onUnit (decide (l < 32)) (if linkHears s l && decide (f.ftype.toNat = 0) && flitOk f then flitAck s l f else s)

/-- ACK_TIMEOUT: no ack has advanced for ack_us while flits are unacknowledged (R372). -/
def execAckTimeout (l : Nat) (s : State) : Out :=
  onUnit (decide (l < 32))
    (let k := s.link l
     if alive s && decide (linkState s l = 2 ∧ k.retry ≠ [] ∧ k.ackAt + 100 * s.rdF (pLink l) 0x114 8 8 ≤ s.ref) then replay s l else s)

/-- SENDER_CUT: 40 µs without a flit of the packet in progress: it is marked, to be begun again whole behind a cut (R377). -/
def execSenderCut (l vc : Nat) (s : State) : Out :=
  onUnit (decide (l < 32) && decide (vc < 3))
    (match (s.link l).tx[vc]? with
     | none => s
     | some v =>
       if alive s && decide (linkState s l = 2 ∧ v.rest ≠ [] ∧ v.lastAt + 4000 ≤ s.ref) && !v.cutDue then
         linkGo l (s.modLink l (fun k => { k with tx := lmod (fun v => { v with cutDue := true }) k.tx vc }))
       else s)

/-- RECEIVER_TRUNCATE: 50 µs without a flit while a packet is in progress: its bytes are discarded, and all that follows until a cut (R377). -/
def execReceiverTruncate (l vc : Nat) (s : State) : Out :=
  onUnit (decide (l < 32) && decide (vc < 3))
    (match (s.link l).rx[vc]? with
     | none => s
     | some v =>
       if alive s && decide (linkState s l = 2 ∧ v.buf ≠ [] ∧ v.lastAt + 5000 ≤ s.ref) then linkAnswer (s.link l) l (truncateRx s l vc v.buf true) else s)

end Sys2Proof.Machine
end

