-- ==== Sys2Proof/Machine/Fabric.lean ====
section
/-! DEFINITION. The transport of the Krovmo fabric: opening and closing connections, the ingress checks, requests performed at the target, answers, timers (12_krovmo_fabric.md R378-R387, R393). -/

namespace Sys2Proof.Machine

open Sys2Proof

/-! Sending on VC2 (R378, R379). -/

/-- A packet of a connection that is no request: version, type, body, own or peer's epoch, and the low 40 bits of its target. -/
def sendPlain (s : State) (l c ver ptype epoch target : Nat) (body : List Byte) : State :=
  let p := pConn c
  linkSend s l (mkPacket s ver ptype 0 body.length (s.rdF p 0x104 18 14) c 0 (s.rd p 0x2C) epoch 0 0
    (s.rdF p 0x108 0 20 * 2 ^ 40 + target) body)

/-- The version of a link. -/
def linkVer (s : State) (l : Nat) : Nat := s.rdF (pLink l) 0x204 0 4

/-- The versions that this side offers. -/
def verMin (s : State) : Nat := s.rdF pFabric 0x108 0 2
def verMax (s : State) : Nat := s.rdF pFabric 0x108 2 2

/-- OPEN is sent. -/
def sendOpen (s : State) (c : Nat) : State :=
  let l := connPort s c
  sendPlain (s.modConn c (fun k => { k with lastOpen := s.ref })) l c (linkVer s l) 7 (s.rd (pConn c) 0x28) 0 (toLE 8 (verMin s + 16 * verMax s))

/-- Another connection of the same job and peer node has dflt = 1 and is not UNBOUND (R378). -/
def dfltConflict (s : State) (c : Nat) : Bool :=
  s.rdB (pConn c) 0x104 5 &&
  s.bind.bound.any (fun p => decide (p.blk = .conn ∧ p.inst ≠ c) && s.rdB p 0x104 5 && decide (connState s p.inst ≠ 0)
    && decide (s.rd p 0x2C = s.rd (pConn c) 0x2C ∧ s.rdF p 0x108 0 20 = s.rdF (pConn c) 0x108 0 20))

/-- CONN_OPEN: CTRL.open from IDLE or DOWN, or refused (R378). -/
def execConnOpen (c : Nat) (s : State) : Out :=
  onUnit (decide (c < 16384))
    (if !served s then s
     else
     let p := pConn c
     let st := connState s c
     let who := [connPort s c, c, s.rdF p 0x108 0 20, 0]
     if (st ≠ 1 ∧ st ≠ 5) ∨ bstate s p ≠ 2 ∨ nodeId s = 0xFFFFF ∨ linkState s (connPort s c) ≠ 2 then raise s p 11 0 0xFFFF 0 who
     else if dfltConflict s c then raise (raise s p 11 0 0xFFFF 0 who) p 12 0 0xFFFF 0 who
     else sendOpen ((setConnState s c 2).modConn c (fun k => { k with openSince := some s.ref, closing := false, peerClosed := false })) c)

/-- A connection that closes, or whose peer has closed, enters IDLE once nothing of its own is outstanding (R378). -/
def closeIfDone (s : State) (c : Nat) : State :=
  let k := s.conn c
  if connState s c = 3 ∧ k.out = [] ∧ (k.closing = true ∨ k.peerClosed = true) then
    let l := connPort s c
    let s1 := if k.closing then sendPlain s l c (s.rdF (pConn c) 0x200 0 4) 9 (s.rd (pConn c) 0x204) 0 [] else s
    (setConnState s1 c 1).modConn c (fun k => { k with closing := false, peerClosed := false })
  else s

/-- CONN_CLOSE: CTRL.close in OPEN stops new sends. -/
def execConnClose (c : Nat) (s : State) : Out :=
  onUnit (decide (c < 16384))
    (if served s && decide (connState s c = 3) then closeIfDone (s.modConn c (fun k => { k with closing := true })) c else s)

/-- The link of a connection is UP: its timers run (R369). -/
def connRuns (s : State) (c : Nat) : Bool := alive s && s.enabled pFabric && decide (linkState s (connPort s c) = 2)

/-- OPEN_RESEND: an opening connection sends OPEN every 100 µs. -/
def execOpenResend (c : Nat) (s : State) : Out :=
  onUnit (decide (c < 16384))
    (if connRuns s c && decide (connState s c = 2 ∧ (s.conn c).lastOpen + 10000 ≤ s.ref) then sendOpen s c else s)

/-- OPEN_TIMEOUT: open_ms has passed while opening. -/
def execOpenTimeout (c : Nat) (s : State) : Out :=
  onUnit (decide (c < 16384))
    (match (s.conn c).openSince with
     | some t => if alive s && decide (connState s c = 2 ∧ t + 100000 * s.rdF pFabric 0x10C 16 16 ≤ s.ref) then connDown s c 3 else s
     | none => s)

/-- RTO_RESEND: a packet with neither an RSP nor a HOLD is resent whole rto_us after it was sent (R380). -/
def execRtoResend (c : Nat) (n : BitVec 32) (s : State) : Out :=
  onUnit (decide (c < 16384))
    (match (s.conn c).out.find? (fun o => decide (o.seq = n.toNat)) with
     | none => s
     | some o =>
       if connRuns s c && decide (connState s c = 3 ∨ connState s c = 4) && !o.covered && decide (o.sentAt + 100 * s.rdF pFabric 0x10C 0 16 ≤ s.ref) then
         let s1 := s.modConn c (fun k => { k with out := lupdate (fun x => decide (x.seq = o.seq)) (fun x => { x with sentAt := s.ref }) k.out })
         linkSend ((s1.inc (pConn c) 0x214 1).inc pFabric 0x224 1) (connPort s c) (pktOf s c o.req o.seq)
       else s)

/-- CONN_SILENT: packets outstanding and nothing heard for 10 ms (R380). -/
def execConnSilent (c : Nat) (s : State) : Out :=
  onUnit (decide (c < 16384))
    (let k := s.conn c
     let t := if k.heard < k.silentFrom then k.silentFrom else k.heard
     if connRuns s c && decide ((connState s c = 3 ∨ connState s c = 4) ∧ k.out ≠ [] ∧ t + 1000000 ≤ s.ref) then
       connDown s c 2
     else s)

/-! The ingress checks (R382). -/

/-- The length of a packet's body. -/
def bodyLen (p : Packet) : Nat := if p.ptype.toNat = 2 then 0 else p.len.toNat

/-- An ATOM body holds a reserved bit or a combination that no atomic has (R284, R375, R386), or its address is off its alignment. -/
def atomBodyBad (v a : Nat) (b : List Byte) : Bool :=
  let aop := leAt b 0 1 % 16
  let width := bits (leAt b 0 1) 4 2
  let fmt := leAt b 1 1
  decide (64 ≤ leAt b 0 1) || decide (width = 3) || (decide (width = 2) && decide (aop ≠ 9)) || (decide (0xA ≤ aop) && decide (width ≠ 0))
  || (if aop ≤ 9 then decide (fmt ≠ 9) else decide (1 < fmt)) || decide (1 < leAt b 2 1) || !allZero ((b.drop 3).take 13)
  || !verCarries v 3 48 aop width || decide (a % atomAlign aop width fmt ≠ 0)

/-- Check 3: a reserved type or bit, or a length outside its range. -/
def packetBad (p : Packet) : Bool :=
  let v := p.ver.toNat
  let t := p.ptype.toNat
  let ord := p.ord.toNat
  let len := p.len.toNat
  let maxLen := if v = 1 then 1024 else 4096
  let rel := bit ord 1 && [1, 3, 4].contains t
  let low := p.target.toNat % 2 ^ 40
  decide (t = 0 ∨ 0xA < t) || (decide (v = 1) && decide (t = 6 ∨ t = 0xA)) || decide (p.rsvd.toNat ≠ 0) || decide (2 ^ 60 ≤ p.target.toNat)
  || (match t with
      | 1 => decide (len = 0 ∨ maxLen < len) || ordBad ord [0, 2] [0, 1, 2, 3, 4]
      | 2 => decide (len = 0 ∨ maxLen < len) || decide (ord ≠ 0)
      | 3 => decide (len ≠ 48) || ordBad ord [0, 1, 2, 3] [0, 1, 2, 3, 4] || atomBodyBad v low p.body
      | 4 => decide (len ≠ 8) || ordBad ord [2] [0, 1, 2, 3, 4] || decide (bits low 20 2 = 3) || decide (2 ^ 22 ≤ low)
      | 5 => decide (maxLen < len) || decide (ord ≠ 0)
      | 6 => decide (len ≠ 0 ∨ ord ≠ 0 ∨ 2 ^ 32 ≤ low)
      | 7 => decide (len ≠ 8 ∨ ord ≠ 0 ∨ low ≠ 0) || decide (256 ≤ leAt p.body 0 8)
      | 8 => decide (len ≠ 8 ∨ ord ≠ 0 ∨ low % 2 ^ 32 ≠ 0) || decide (16 ≤ leAt p.body 0 8)
      | 9 => decide (len ≠ 0 ∨ ord ≠ 0 ∨ low ≠ 0)
      | _ => decide (ord ≠ 0))
  || (decide (v = 1) && decide (4 ≤ ord)) || (decide (4 < t) && decide (p.seq.toNat ≠ 0))
  || (!(decide (v = 3) && rel) && decide (p.relTile.toNat ≠ 0 ∨ p.relUnit.toNat ≠ 0)) || decide (3 < p.relUnit.toNat)
  || decide (p.body.length ≠ bodyLen p)

/-- A request is answered with a status and a body. -/
def respond (s : State) (l : Nat) (p : Packet) (status : Nat) (body : List Byte) : State :=
  answer s l p.ver.toNat p.gen.toNat p.srcConn.toNat p.dstConn.toNat p.srcNode.toNat p.seq.toNat status body

/-- The packet is answered when it is refused: a request, or of no known type. -/
def answerable (p : Packet) : Bool := decide (p.ptype.toNat < 5 ∨ 0xA < p.ptype.toNat)

/-- The detail words of a record of the fabric: port with the status above it, connection, peer node and seq (R394; the packing is a DESIGN CHOICE, log entry 163). -/
def pktDetail (l c node seq status : Nat) : List Nat := [l + 2 ^ 8 * status, c, node, seq]

/-- A refusal is counted and flagged. -/
def refuseCount (s : State) (l : Nat) (p : Packet) (status : Nat) : State :=
  raise (s.inc pFabric (if status = 4 ∧ packetBad p = true then 0x218 else 0x21C) 1) pFabric 10 0 0xFFFF 0
    (pktDetail l p.dstConn.toNat p.srcNode.toNat p.seq.toNat status)

/-- A refusal: counted, flagged, and answered with its status. -/
def refusePkt (s : State) (l : Nat) (p : Packet) (status : Nat) : State :=
  let s1 := refuseCount s l p status
  if answerable p then respond s1 l p status [] else s1

/-- A stale packet also counts in its connection (R382). -/
def stalePkt (s : State) (l : Nat) (p : Packet) : State := refusePkt (s.inc (pConn p.dstConn.toNat) 0x708 1) l p 1

/-- Checks 1 to 4, which every packet passes. -/
def ingress4 (s : State) (l : Nat) (p : Packet) (k : State → State) : State :=
  if p.check.toNat ≠ packetCheck p then raise (s.inc pFabric 0x210 1) pFabric 9 0 0xFFFF 0 [l, 0, 0, 0]
  else if p.ver = 0 ∨ 3 < p.ver.toNat ∨ linkVer s l < p.ver.toNat then raise (s.inc pFabric 0x214 1) pFabric 8 0 0xFFFF 0 [l, p.ver.toNat, 0, 0]
  else if packetBad p then refusePkt s l p 4
  else if bits p.target.toNat 40 20 ≠ nodeId s ∨ nodeId s = 0xFFFFF then refusePkt s l p 3
  else k s

/-- Checks 5 to 8, which packets other than those of VC2 pass. -/
def ingress8 (s : State) (l : Nat) (p : Packet) (k : State → State) : State :=
  ingress4 s l p (fun s =>
    let c := p.dstConn.toNat
    let q := pConn c
    if (connState s c ≠ 3 ∧ connState s c ≠ 4) ∨ s.quarantined q = true then stalePkt s l p
    else if p.gen.toNat ≠ s.rd q 0x2C ∨ p.epoch.toNat ≠ s.rd q 0x28 then stalePkt s l p
    else if p.srcNode.toNat ≠ s.rdF q 0x108 0 20 ∨ p.srcConn.toNat ≠ s.rdF q 0x104 18 14 then refusePkt s l p 3
    else if p.ver.toNat ≠ s.rdF q 0x200 0 4 then refusePkt s l p 4
    else k (s.modConn c (fun k => { k with heard := s.ref })))

/-- A packet arrives on a port that is UP. -/
def onPort (l : Nat) (s : State) (k : State) : Out :=
  onUnit (decide (l < 32)) (if alive s && s.enabled pFabric && decide (linkState s l = 2) then k else s)

/-! Requests at the target (R384, R385). -/

/-- The bytes of memory that a request names. -/
def reqSpan (p : Packet) : Nat × Nat :=
  let a := p.target.toNat % 2 ^ 40
  match p.ptype.toNat with
  | 1 | 2 => (a, p.len.toNat)
  | 3 => (a, atomSize (leAt p.body 0 1 % 16) (bits (leAt p.body 0 1) 4 2) (leAt p.body 1 1))
  | _ => (0, 0)

/-- The request waits: its memory holds its requests, or its tile is not powered. -/
def reqHeld (s : State) (p : Packet) : Bool :=
  if p.ptype.toNat = 4 then !tilePowered s (p.target.toNat % 256)
  else memHeld s .krovmo (reqSpan p).1 (reqSpan p).2

/-- Checks 11 to 13: the status that refuses an accepted request. -/
def reqRefused (s : State) (p : Packet) : Option Nat :=
  let x := reqSpan p
  let gen := s.rd (pConn p.dstConn.toNat) 0x2C
  if p.ptype.toNat = 4 then
    let t := p.target.toNat % 256
    if t < 160 ∧ boundTo s (pTile t) gen = true then none else some 7
  else if !inHbm s x.1 x.2 then some 5
  else if !inRegions s gen 33 x.1 (x.1 + x.2) then some 6
  else none

/-- The scope of a release that arrives: system in version 1 (R386). -/
def pktScope (p : Packet) : Nat := if p.ver.toNat = 1 then 4 else ordScope p.ord.toNat

/-- The agent of a release that arrives, for the scope detector (R84, R386): remote. -/
def pktTag (p : Packet) : RelTag := ⟨0, 0, 0, if p.ver.toNat = 3 ∧ p.relUnit.toNat ≠ 0 then some p.relTile.toNat else none, true, none⟩

/-- The status and body of a memory fault (R383). -/
def faultStatus (a : Nat) (f : Nat × Nat) : Nat × List Byte := if f.1 = 0x10 then (8, toLE 8 (f.2 - a)) else (9, [])

/-- A request is performed: the state, its status, the body of its answer, and the old value kept for a duplicate. -/
def perform (s : State) (p : Packet) : State × Nat × List Byte × Nat :=
  let x := reqSpan p
  let rel := bit p.ord.toNat 1
  match p.ptype.toNat with
  | 1 =>
    (match memWrite (countAccess s 1 (nodeId s * 2 ^ 40 + x.1) x.2) .krovmo x.1 p.body with
     | (s1, some f) => (s1, (faultStatus x.1 f).1, (faultStatus x.1 f).2, f.2 - x.1)
     | (s1, none) => (if rel then tagRelease s1 x.1 x.2 (pktScope p) (pktTag p) else s1, 0, [], 0))
  | 2 =>
    (match memRead (countAccess s 1 (nodeId s * 2 ^ 40 + x.1) x.2) .krovmo x.1 x.2 with
     | (s1, .error f) => (s1, (faultStatus x.1 f).1, (faultStatus x.1 f).2, 0)
     | (s1, .ok b) => (s1, 0, b, 0))
  | 3 =>
    let aop := leAt p.body 0 1 % 16
    let width := bits (leAt p.body 0 1) 4 2
    let fmt := leAt p.body 1 1
    let clear := aop = 0xE && bit (leAt p.body 0x10 1) 0
    let comparand := leAt p.body 0x20 (atomArg aop width fmt)
    (match memAtomic (countAccess s 1 (nodeId s * 2 ^ 40 + x.1) x.2) .krovmo x.1 aop width fmt (leAt p.body 0x10 (atomArg aop width fmt)) comparand clear with
     | (s1, .error f) => (s1, (faultStatus x.1 f).1, (faultStatus x.1 f).2, f.2 - x.1)
     | (s1, .ok old) =>
       (if rel && atomWrites aop old comparand clear then tagRelease s1 x.1 x.2 (pktScope p) (pktTag p) else s1, 0,
         if leAt p.body 2 1 = 1 then toLE 16 old else [], old))
  | _ =>
    let low := p.target.toNat
    (sigRelease s (low % 256) (bits low 8 12) (bits low 20 2) (leAt p.body 0 8) (pktScope p) (pktTag p), 0, [], 0)

/-- The answer to a request is kept among the last 64 of its connection, with what a duplicate is answered from (R381). -/
def keepAnswer (s : State) (p : Packet) (status old : Nat) : State :=
  s.modConn p.dstConn.toNat (fun k => { k with
    answers := ((p.seq.toNat, status, p.ptype.toNat, old) :: k.answers.filter (fun a => decide (a.1 ≠ p.seq.toNat))).take 64 })

/-- A request is performed or refused, its answer kept and, where its connection still sends, sent (R378, R385). -/
def serve (s : State) (l : Nat) (p : Packet) (sends : Bool) : State :=
  match reqRefused s p with
  | some st =>
    let s1 := refuseCount ((keepAnswer s p st 0).inc (pConn p.dstConn.toNat) 0x218 1) l p st
    if sends then respond s1 l p st [] else s1
  | none =>
    let r := perform s p
    let s1 := keepAnswer r.1 p r.2.1 r.2.2.2
    if sends then respond s1 l p r.2.1 r.2.2.1 else s1

/-- An accepted request waits: nothing refuses it, and its memory or its tile holds it. -/
def reqWaits (s : State) (p : Packet) : Bool := (reqRefused s p).isNone && reqHeld s p

/-- Accepted requests of a connection are performed in order while nothing holds the first; those accepted before it went DOWN get no answer (R378, R380, R384). -/
def heldRun : Nat → Nat → State → State
  | 0, _, s => s
  | n + 1, c, s =>
    match (s.conn c).held with
    | [] => s
    | p :: r =>
      if reqWaits s p then s
      else
        heldRun n c (serve (s.modConn c (fun k => { k with held := r, mute := k.mute - 1 })) (connPort s c) p (decide ((s.conn c).mute = 0)))

/-- An accepted request joins those of its connection, which are performed as far as they can be. -/
def takeRequest (s : State) (p : Packet) : State :=
  heldRun 64 p.dstConn.toNat (s.modConn p.dstConn.toNat (fun k => { k with held := k.held ++ [p] }))

/-- The body with which a duplicate is answered: the same old value, or the same offset (R381, R383). -/
def againBody (p : Packet) (status old : Nat) : List Byte :=
  if status = 8 then toLE 8 old
  else if p.ptype.toNat = 3 ∧ status = 0 ∧ leAt p.body 2 1 = 1 then toLE 16 old
  else []

/-- A duplicate of a performed request is answered again; a read is performed again. One whose original has not been performed yet is answered with it (R381). -/
def duplicate (s : State) (l : Nat) (p : Packet) : State :=
  match (s.conn p.dstConn.toNat).answers.find? (fun a => decide (a.1 = p.seq.toNat)) with
  | none => s
  | some (_, status, _, old) => if p.ptype.toNat = 2 then takeRequest s p else respond s l p status (againBody p status old)

/-- A request arrives: the checks from 9 on and the order of its connection (R381, R382). One older than the last 64 is discarded and counted in REFUSED (DESIGN CHOICE of the count, log entry 164). -/
def requestIn (l : Nat) (p : Packet) (s : State) : State :=
  ingress8 s l p (fun s =>
    let c := p.dstConn.toNat
    if connState s c = 4 then refusePkt s l p 2
    else
      let e := s.rd (pConn c) 0x20C
      let d := diff32 p.seq.toNat e
      if d = 0 then takeRequest (s.wr (pConn c) 0x20C (e + 1)) p
      else if d < 2 ^ 31 then respond s l p 10 []
      else if 2 ^ 32 - 64 ≤ d then duplicate s l p
      else s.inc pFabric 0x21C 1)

/-- A request packet arrives on a port. -/
def request (l : Nat) (p : Packet) (s : State) : Out := onPort l s (requestIn l p s)

/-- WR. -/
def execWr (l : Nat) (p : Packet) (s : State) : Out := request l { p with ptype := 1 } s
/-- RD. -/
def execRd (l : Nat) (p : Packet) (s : State) : Out := request l { p with ptype := 2 } s
/-- ATOM. -/
def execAtom (l : Nat) (p : Packet) (s : State) : Out := request l { p with ptype := 3 } s
/-- SIG. -/
def execSig (l : Nat) (p : Packet) (s : State) : Out := request l { p with ptype := 4 } s

/-- HOLD_SEND: accepted requests are performed where they can be; while some remain, a HOLD is sent from version 2 on (R380, R386). -/
def execHoldSend (c : Nat) (s : State) : Out :=
  onUnit (decide (c < 16384))
    (if !connRuns s c || decide (connState s c ≠ 3 ∧ connState s c ≠ 4 ∧ connState s c ≠ 5) then s
     else
       let s1 := heldRun 64 c s
       let ver := s.rdF (pConn c) 0x200 0 4
       if (s1.conn c).held = [] ∨ ver < 2 ∨ connState s c = 5 then s1
       else sendPlain (s1.modConn c (fun k => { k with holdAt := s.ref })) (connPort s c) c ver 6 (s.rd (pConn c) 0x204)
         ((s.rd (pConn c) 0x20C + 2 ^ 32 - 1) % 2 ^ 32) [])

/-! Answers to this module's requests (R380, R383). -/

/-- A HOLD arrives: every packet up to h is covered. -/
def holdIn (l : Nat) (p : Packet) (s : State) : State :=
  ingress8 s l p (fun s =>
    s.modConn p.dstConn.toNat (fun k => { k with
      out := k.out.map (fun o => if diff32 (p.target.toNat % 2 ^ 32) o.seq < 2 ^ 31 then { o with covered := true } else o) }))

/-- HOLD. -/
def execHold (l : Nat) (p : Packet) (s : State) : Out := onPort l s (holdIn l { p with ptype := 6 } s)

/-- A packet is no longer outstanding: capacity is free, and a close may complete. -/
def outDone (s : State) (c seq : Nat) : State :=
  setOut s c ((s.conn c).out.filter (fun o => decide (o.seq ≠ seq)))

/-- The packet with a seq is in progress on VC0 of a port: what follows of it is a cut (R377). -/
def inProgress (s : State) (l c seq : Nat) : Bool :=
  match (s.link l).tx[0]? with
  | some v => decide (v.rest ≠ [] ∧ leAt v.whole 6 2 % 2 ^ 14 = c ∧ leAt v.whole 8 4 = seq)
  | none => false

/-- A TRUNCATED answer: ignored where the packet has been begun again since its cut; a packet still in progress is begun again by its cut; otherwise it is resent whole (R377, R383). -/
def truncated (s : State) (c : Nat) (o : OutPkt) : State :=
  let q := pConn c
  let port := connPort s c
  let change (f : OutPkt → OutPkt) : State := s.modConn c (fun k => { k with out := lupdate (fun x => decide (x.seq = o.seq)) f k.out })
  if 0 < o.cuts then change (fun x => { x with cuts := x.cuts - 1 })
  else if inProgress s port c o.seq then
    linkGo port ((change (fun x => { x with cuts := x.cuts - 1 })).modLink port (fun k => { k with tx := lmod (fun v => { v with cutDue := true }) k.tx 0 }))
  else linkSend (((change (fun x => { x with sentAt := s.ref })).inc q 0x214 1).inc pFabric 0x224 1) port (pktOf s c o.req o.seq)

/-- An RSP arrives: the access completes, fails, is sent again, or the connection goes DOWN. -/
def rspIn (l : Nat) (p : Packet) (s : State) : State :=
  ingress8 s l p (fun s =>
    let c := p.dstConn.toNat
    let q := pConn c
    let seq := p.target.toNat % 2 ^ 32
    let status := bits p.target.toNat 32 8
    match (s.conn c).out.find? (fun o => decide (o.seq = seq)) with
    | none => s
    | some o =>
      let full := decide (65536 ≤ retryUsed s)
      let next (s : State) : State := closeIfDone (repump full (connPump 64 c s)) c
      let refused : State := raise (outDone s c seq) q 10 0 0xFFFF 0 (pktDetail l c p.srcNode.toNat seq status)
      match status with
      | 0 => next (ctxDone (outDone s c seq) o.req.ctx p.body)
      | 5 | 6 | 7 => next (ctxFail refused o.req.ctx 0x2C o.req.ga)
      | 8 => next (ctxFail refused o.req.ctx 0x10 (o.req.ga + leAt p.body 0 8))
      | 9 => next (ctxFail refused o.req.ctx 0x11 o.req.ga)
      | 10 => truncated s c o
      | _ => connDown s c 5)

/-- RSP. -/
def execRsp (l : Nat) (p : Packet) (s : State) : Out := onPort l s (rspIn l { p with ptype := 5 } s)

/-! OPEN, OPEN_ACK and CLOSE at this side (R378, R379). -/

/-- The status and version with which an OPEN is answered. -/
def openStatus (s : State) (p : Packet) : Nat × Nat :=
  let c := p.dstConn.toNat
  let q := pConn c
  let lo := leAt p.body 0 1 % 16
  let hi := leAt p.body 0 1 / 16
  let v := if hi < verMax s then hi else verMax s
  if connState s c = 0 ∨ connState s c = 4 ∨ bstate s q ≠ 2 ∨ p.gen.toNat ≠ s.rd q 0x2C ∨ p.srcNode.toNat ≠ s.rdF q 0x108 0 20
    ∨ p.srcConn.toNat ≠ s.rdF q 0x104 18 14 then (12, 0)
  else if v < lo ∨ v < verMin s then (11, 0)
  else (0, v)

/-- An OPEN arrives: answered; with status 0 the sender's epoch is recorded, with VERSION the connection goes DOWN. -/
def openIn (l : Nat) (p : Packet) (s : State) : State :=
  ingress4 s l p (fun s =>
    let c := p.dstConn.toNat
    let q := pConn c
    let r := openStatus s p
    let s1 := linkSend s l (mkPacket s (linkVer s l) 8 0 8 p.srcConn.toNat c 0 p.gen.toNat (s.rd q 0x28) 0 0
      (p.srcNode.toNat * 2 ^ 40 + r.1 * 2 ^ 32) (toLE 8 r.2))
    if r.1 = 0 then (s1.wr q 0x204 p.epoch.toNat).wr q 0x200 r.2
    else if r.1 = 11 then connDown s1 c 4
    else s1)

/-- OPEN. -/
def execOpenPkt (l : Nat) (p : Packet) (s : State) : Out := onPort l s (openIn l { p with ptype := 7 } s)

/-- An OPEN_ACK arrives: status 0 opens the connection, VERSION puts it into DOWN, NOT_BOUND leaves it opening. -/
def openAckIn (l : Nat) (p : Packet) (s : State) : State :=
  ingress4 s l p (fun s =>
    let c := p.dstConn.toNat
    let q := pConn c
    if connState s c ≠ 2 ∨ p.gen.toNat ≠ s.rd q 0x2C ∨ p.srcNode.toNat ≠ s.rdF q 0x108 0 20 ∨ p.srcConn.toNat ≠ s.rdF q 0x104 18 14 then s
    else match bits p.target.toNat 32 8 with
    | 0 =>
      let s1 := ((((setConnState s c 3).wr q 0x200 (leAt p.body 0 1 % 16)).wr q 0x204 p.epoch.toNat).wr q 0x208 1).wr q 0x20C 1
      let s2 := (s1.wr q 0x21C 0).modConn c (fun k => { k with openSince := none, heard := s.ref, answers := [], out := [], mute := k.held.length })
      connPump 64 c (raise s2 q 8 0 0xFFFF 0 [l, c, p.srcNode.toNat, 0])
    | 12 => s
    | 11 => connDown s c 4
    | _ => connDown s c 5)

/-- OPEN_ACK. -/
def execOpenAck (l : Nat) (p : Packet) (s : State) : Out := onPort l s (openAckIn l { p with ptype := 8 } s)

/-- A CLOSE arrives: an OPEN connection enters IDLE once its own packets are answered; in a teardown the peer's CLOSE ends the exchange (R378, 13_binding_and_jobs.md R416). -/
def closeIn (l : Nat) (p : Packet) (s : State) : State :=
  ingress4 s l p (fun s =>
    let c := p.dstConn.toNat
    let q := pConn c
    if (connState s c ≠ 3 ∧ connState s c ≠ 4) ∨ p.gen.toNat ≠ s.rd q 0x2C ∨ p.epoch.toNat ≠ s.rd q 0x28 ∨ p.srcNode.toNat ≠ s.rdF q 0x108 0 20
      ∨ p.srcConn.toNat ≠ s.rdF q 0x104 18 14 then s
    else closeIfDone (s.modConn c (fun k => { k with peerClosed := true })) c)

end Sys2Proof.Machine
end

