-- ==== Sys2Proof/Machine/Jobs.lean ====
section
/-! DEFINITION. Job slots, teardowns and the ends of region scrubs (13_binding_and_jobs.md R402, R411, R416-R419, R429). -/

namespace Sys2Proof.Machine

open Sys2Proof

/-! Job slots (R402). -/

/-- JOB_GEN_WRITE: a generation into a FREE slot; refused while another slot holds it, or while the slot is not FREE. -/
def execJobGenWrite (j : Nat) (v : BitVec 32) (s : State) : Out :=
  onUnit (decide (j < 16))
    (if !served s then s
     else if jobState s j ≠ 0 then raise s pHoist 14 0 0xFFFF 0 [j, v.toNat, 0, 0]
     else if v = 0 then s
     else if (slotOf s v.toNat).isSome then raise s pHoist 14 0 0xFFFF 0 [j, v.toNat, 0, 0]
     else (s.wr pHoist (0x300 + 16 * j) v.toNat).wr pHoist (0x308 + 16 * j) 1)

/-- JOB_READY: ready in PREPARING; the slot goes on to READY when no bind of its job is held. -/
def execJobReady (j : Nat) (s : State) : Out :=
  onUnit (decide (j < 16))
    (if served s && decide (jobState s j = 1) then slotSettle (s.modBind (fun b => { b with ready := sinsert j b.ready })) j else s)

/-- The queues bound to a generation. -/
def jobQueues (s : State) (gen : Nat) : List Nat :=
  (s.bind.bound.filter (fun p => decide (p.blk = .queue) && boundTo s p gen)).map (·.inst)

/-! The stall windows of a disturbance, and their end (02_register_pages.md R44, 15_security_firmware.md R496, 16_bringup_errors_test.md R524). -/

/-- The number of a page. -/
def pageNo (p : Page) : Nat := pageBase p / 4096

/-- DISTURB.arm, and the period and length of the stall windows in ticks. -/
def armed (s : State) (p : Page) : Bool := s.rdB p 0x34 31
def winPeriod (s : State) (p : Page) : Nat := 100 * s.rd p 0x38
def winLength (s : State) (p : Page) : Nat := 100 * s.rd p 0x3C

/-- Ticks since the moment from which the windows are phased. -/
def sincePhase (s : State) (p : Page) : Nat := s.ref - (fget (fun _ => 0) s.phase (pageNo p) - 1)

/-- A stall window ends; the intervals of a torn command do not count the time of a QENG window (16 R524). -/
def closeWindow (s : State) (p : Page) : State :=
  if !s.stalls.contains p then s
  else
    let w := s.ref - (if winPeriod s p = 0 then 0 else sincePhase s p % winPeriod s p)
    let skip (a : Nat) : Nat := a + (s.ref - (if a < w then w else a))
    let s1 := { s with stalls := s.stalls.filter (fun x => decide (x ≠ p)) }
    if p.blk = .qeng then
      { s1 with qs := s1.qs.map (fun x => (x.1, { x.2 with torn := x.2.torn.map (fun t => (skip t.1, skip t.2.1, t.2.2)) })) }
    else s1

/-- The register at a word index of the register space is a DISTURB or DISTURB_WIN. -/
def disturbWord (k : Nat) : Bool := decide (0x30 ≤ 4 * k % 0x1000 ∧ 4 * k % 0x1000 < 0x40)

/-- Every DISTURB and DISTURB_WIN clears, and with them every stall window. -/
def clearDisturb (s : State) : State :=
  let s1 := closeWindow s pQeng
  { s1 with regs := s1.regs.filter (fun x => !disturbWord x.1), stalls := [], phase := [] }

/-- The page at a page number is that of a gated tile. -/
def gatedPage (s : State) (n : Nat) : Bool :=
  match pageOf (4096 * n) with
  | some (p, _) => gated s p
  | none => false

/-- A gated tile permits no disturbance: its registers clear, and its stall window ends. -/
def clearGated (s : State) : State :=
  { s with
    regs := s.regs.filter (fun x => !(disturbWord x.1 && gatedPage s (4 * x.1 / 4096)))
    stalls := s.stalls.filter (fun p => !gated s p)
    phase := s.phase.filter (fun x => !gatedPage s x.1) }

/-- A READY slot starts: STARTED, and every IDLE queue of its job is armed (R429); a state TOKEN-LIMITED permits no disturbance from then on (15 R496). -/
def startSlot (s : State) (j : Nat) : State :=
  if jobState s j ≠ 2 then s
  else
    let s1 := if debugState s = 1 then clearDisturb s else s
    (jobQueues s1 (jobGen s1 j)).foldl (fun s q => if qState s q = 1 then armQueue s q else s) (leaveP1 (setJobState s1 j 3))

/-- The PACE registers of a slot that becomes FREE return to their reset values (14_power_thermal.md R460). -/
def paceReset (s : State) (j : Nat) : State :=
  let p := (List.range 8).foldl (fun s k => s.wr pPower (0x400 + 32 * j + 4 * k) (fget regDefault [] (regKey pPower (0x400 + 32 * j + 4 * k))).toNat) s
  { p with power := { p.power with paceHi := ferase p.power.paceHi j, paceLo := ferase p.power.paceLo j, paceWait := ferase p.power.paceWait j, paceAll := ferase p.power.paceAll j, straggled := sremove j p.power.straggled } }

/-- JOB_START: JOB_CTL.start in READY. -/
def execJobStart (j : Nat) (s : State) : Out := onUnit (decide (j < 16)) (if served s then startSlot s j else s)

/-! Teardowns (R416-R419). -/

/-- A resource takes in nothing more (R416 step 1). -/
def stopIntake (s : State) (p : Page) : State :=
  let s1 := setBstate s p 3
  match p.blk with
  | .queue => { setQState s1 p.inst 5 with pennants := s1.pennants.filter (fun x => decide (x.queue ≠ p.inst)) }
  | .conn => setConnState (s1.modConn p.inst (fun k => { k with closing := decide (connState s p.inst = 3) })) p.inst 4
  | _ => s1

/-- Position and step of a teardown (R416); PROGRESS follows the one started most recently, also when it has ended (R430). -/
def tdProgress (s : State) (d : Teardown) (step pos : Nat) : State :=
  let w := progressWord pos 5 1
  let s1 := match d.target with
    | .slot j => (s.wr pHoist (0x30C + 16 * j) w).wrF pHoist (0x308 + 16 * j) 4 3 step
    | .page _ => s
  if s.bind.newest = some d.target then s1.wr pHoist 0x20 w else s1

/-- A teardown begins with its first step, and drains. That step takes no time here: its bound is 10 µs at most (R416, log entry 65). -/
def tdStart (s : State) (target : TdTarget) (gen : Nat) (pages : List Page) : State :=
  let quar := pages.filter (fun p => decide (bstate s p = 4))
  let rest := pages.filter (fun p => decide (bstate s p ≠ 4))
  let s1 := quar.foldl unbind s
  let s2 := rest.foldl stopIntake s1
  let d : Teardown := ⟨target, gen, rest, 2, s.ref, false⟩
  tdProgress (opStart (s2.modBind (fun b => { b with tds := b.tds ++ [d], newest := some target })) pHoist 0 0) d 2 1

/-- JOB_TEARDOWN: JOB_CTL.teardown from PREPARING, READY or STARTED. -/
def execJobTeardown (j : Nat) (s : State) : Out :=
  onUnit (decide (j < 16))
    (if !served s || decide (jobState s j = 0 ∨ jobState s j = 4) then s
     else
       let gen := jobGen s j
       tdStart (setJobState s j 4) (.slot j) gen (s.bind.bound.filter (fun p => decide (s.rd p 0x2C = gen))))

/-- RESOURCE_TEARDOWN: CTRL.teardown on a BOUND resource; a quarantined one becomes UNBOUND at once (R415, R419). -/
def execResourceTeardown (p : Page) (s : State) : Out :=
  onUnit (pageOk p && (p.blk = .tile || p.blk = .queue || p.blk = .conn))
    (if !reached s p then s
     else if bstate s p = 4 then unbind s p
     else if bstate s p = 2 then tdStart s (.page p) (s.rd p 0x2C) [p]
     else s)

/-- A resource has drained: its commands have their records, its descriptors and blocks have ended, its accepted requests are performed and its own packets answered. -/
def drained (s : State) (p : Page) : Bool :=
  match p.blk with
  | .queue => s.cmds.all (fun c => decide (c.queue ≠ p.inst))
  | .tile =>
    let T := s.tile p.inst
    decide (T.blocks = [] ∧ T.launches = [] ∧ T.arriving = [] ∧ T.mx.intake = [] ∧ T.mx.jobs = [] ∧ T.vx.intake = [] ∧ T.vx.jobs = []
      ∧ T.dma.intake = [] ∧ T.dma.jobs = [])
  | .conn => decide ((s.conn p.inst).held = [] ∧ (s.conn p.inst).out = [] ∧ (s.conn p.inst).wait = [])
  | _ => true

/-- Step 5: the resources are UNBOUND with their held binds applied, and a slot is FREE. -/
def tdFinish (s : State) (d : Teardown) : State :=
  let s0 := tdProgress s d 0 5
  let last := decide (s.bind.newest = some d.target)
  let s1 := s0.modBind (fun b => { b with tds := b.tds.filter (fun x => decide (x.target ≠ d.target)) })
  let s2 := d.pages.foldl (fun s p => unbind (resetWork s p) p) s1
  let s3 := match d.target with
    | .slot j =>
      let s4 := (paceReset ((setJobState s2 j 0).wr pHoist (0x300 + 16 * j) 0) j).modBind (fun b => { b with ready := sremove j b.ready })
      raise s4 pHoist 13 0 0xFFFF 0 [j, d.gen, 0, 0]
    | .page _ => s2
  if last then raise (s3.wrF pHoist 0x14 3 1 0) pHoist 6 else s3

/-- The regions of a slot. -/
def slotRgns (s : State) (j : Nat) : List Nat := (List.range 32).filter (fun r => decide (rgnState s r ≠ 0 ∧ rgnSlot s r = j))

/-- A teardown in its fourth step ends once its regions are UNBOUND. -/
def tdCheck (s : State) : State :=
  let ready := s.bind.tds.filter (fun d => decide (d.step = 4) && (match d.target with
    | .slot j => decide (slotRgns s j = [])
    | .page _ => true))
  ready.foldl tdFinish s

/-- A connection exchanges CLOSE: it was OPEN when its teardown began, and has not gone DOWN since (R416 step 3). -/
def exchanges (s : State) (p : Page) : Bool := decide (p.blk = .conn ∧ connState s p.inst = 4) && (s.conn p.inst).closing

/-- A connection of a teardown sends CLOSE. -/
def tdClose (s : State) (p : Page) : State :=
  if exchanges s p then sendPlain s (connPort s p.inst) p.inst (s.rdF p 0x200 0 4) 9 (s.rd p 0x204) 0 [] else s

/-- A teardown enters a step. -/
def tdStep (s : State) (t : Teardown) (step pos : Nat) : State :=
  tdProgress (s.modBind (fun b => { b with tds := lupdate (fun x => decide (x.target = t.target)) (fun x => { x with step := step, since := s.ref }) b.tds })) t step pos

/-- The fence is complete: every CLOSE sent has met the peer's, or the peer has been silent for 10 ms. Every write of the job has been performed or failed back by then, so that the release at node scope, which names no location, has nothing to wait for. -/
def fenced (s : State) (t : Teardown) : Bool :=
  decide (t.since + 1000000 ≤ s.ref) || t.pages.all (fun p => !exchanges s p || (s.conn p.inst).peerClosed)

/-- Step 4: the regions of a job's slot are released; without any, the report follows (R416). -/
def tdScrub (s : State) (t : Teardown) : State :=
  let s1 := tdStep s t 4 3
  tdCheck (match t.target with
    | .slot j => (slotRgns s1 j).foldl (fun s r => if rgnState s r = 2 then rgnRelease s r else if rgnState s r = 1 then setRgn s r 3 else s) s1
    | .page _ => s1)

/-- A teardown in its fence goes on once that is complete. -/
def tdFence (s : State) (d : TdTarget) : State :=
  match s.bind.tds.find? (fun x => decide (x.target = d)) with
  | none => s
  | some t => if t.step = 3 ∧ fenced s t = true then tdScrub s t else s

/-- TEARDOWN_DRAIN_END: the drain is complete: the fence with its exchange of CLOSE, scrubs with the release of the job's regions, then the report (R416). Where a peer's CLOSE is awaited, the command that comes after it, or after 10 ms, goes on. -/
def execTeardownDrainEnd (d : TdTarget) (s : State) : Out :=
  .next (match s.bind.tds.find? (fun x => decide (x.target = d)) with
    | none => s
    | some t =>
      if !alive s then s
      else if t.step = 2 ∧ t.pages.all (drained s) = true then tdFence (t.pages.foldl tdClose (tdStep s t 3 2)) d
      else tdFence s d)

/-- CLOSE: a teardown that waits for it goes on. -/
def execClosePkt (l : Nat) (p : Packet) (s : State) : Out :=
  onPort l s
    (let s1 := closeIn l { p with ptype := 9 } s
     (s1.bind.tds.map (·.target)).foldl tdFence s1)

/-- A block is stopped with JOB_TEARDOWN (R417). -/
def stopBlock (t : Nat) (s : State) (b : Block) : State := blockFault s t b 0x3B 0 0 0 0

/-- The blocks of a tile that a late drain stops. -/
def stopTile (s : State) (t : Nat) (which : Launch → Bool) : State :=
  let T := s.tile t
  let s1 := (T.blocks.filter (fun b => which b.launch)).foldl (stopBlock t) s
  let s2 := (T.launches.filter which).foldl (fun s l => cmdFault s l.cmd ⟨0x3B, 1, t, 0⟩) s1
  s2.modTile t (fun T => { T with launches := T.launches.filter (fun l => !which l) })

/-- A WAIT ends with JOB_TEARDOWN: one in progress fails, one that has not begun is not executed (R417). -/
def endWait (s : State) (c : Cmd) : State :=
  if c.begun then cmdFail s c 0x3B 0 else s.modCmd c.uid (fun c => { c with bad := true, fault := some ⟨0x3B, 0, 0xFF, 0⟩ })

/-- What a late drain does to one resource. -/
def forceDrain (s : State) (p : Page) : State :=
  match p.blk with
  | .tile => stopTile s p.inst (fun _ => true)
  | .queue =>
    let s1 := (s.cmds.filter (fun c => decide (c.queue = p.inst ∧ c.op = 6 ∧ c.stage ≠ 2) && !c.bad)).foldl endWait s
    (s1.tiles.map (·.1)).foldl (fun s t => stopTile s t (fun l => decide (l.queue = p.inst))) s1
  | .conn => connDown s p.inst 1
  | _ => s

/-- DRAIN_TIMEOUT: the drain has lasted HCFG.drain_ms (R417). -/
def execDrainTimeout (d : TdTarget) (s : State) : Out :=
  .next (match s.bind.tds.find? (fun x => decide (x.target = d)) with
    | none => s
    | some t =>
      if !alive s || decide (t.step ≠ 2) || t.forced || decide (s.ref < t.since + 100000 * s.rdF pHoist 0x104 16 16) then s
      else
        let s1 := s.modBind (fun b => { b with tds := lupdate (fun x => decide (x.target = d)) (fun x => { x with forced := true }) b.tds })
        t.pages.foldl forceDrain (raise s1 pHoist 15 0 0xFFFF 0 [t.gen, 0, 0, 0]))

/-! The end of a region scrub (R359, R409, R411). -/

/-- Binds held behind releasing regions are tried again. -/
def rgnRetry (s : State) : State := s.bind.rgnHeld.foldl (fun s x => rgnTry s x.1 x.2) s

/-- A scrubbed region becomes BOUND or UNBOUND. -/
def rgnScrubbed (s : State) (r : Nat) : State :=
  if rgnState s r = 1 then
    let s1 := raise (setRgnResult (setRgn s r 2) r 1) pHoist 16 0 0xFFFF (rgnBase s r) [r, 0, 0, 0]
    genSettle s1 (jobGen s1 (rgnSlot s1 r))
  else tdCheck (rgnRetry (setRgn s r 0))

/-- SCRUB_DONE: the scrub in progress ends, its range is zero; its region follows, and the next one waiting begins. -/
def execScrubDone (s : State) : Out :=
  .next (match s.mem.scrub with
    | none => s
    | some x =>
      if !alive s then s
      else
        let s1 := opDone (zeroRange (s.modMem (fun m => { m with scrub := none })) x.base x.len) (pCache 0) x.len (2 ^ 16)
        scrubNext (match x.region with | some r => rgnScrubbed s1 r | none => s1))

end Sys2Proof.Machine
end

