-- ==== Sys2Proof/Machine/Hoist.lean ====
section
/-! DEFINITION. The Hoist: broadcasts of a job start down the tree, their reports and aborts (13_binding_and_jobs.md R420-R431). -/

namespace Sys2Proof.Machine

open Sys2Proof

/-! Neighbours (R420). -/

/-- A neighbour entry: node and port, where it is valid. -/
def nbr (s : State) (off : Nat) : Option (Nat × Nat) :=
  if s.rdB pHoist off 31 then some (s.rdF pHoist off 0 20, s.rdF pHoist off 20 5) else none
def parentOf (s : State) (i : Nat) : Option (Nat × Nat) := nbr s (0x10C + 4 * i)
def childOf (s : State) (c : Nat) : Option (Nat × Nat) := nbr s (0x114 + 4 * c)

/-- A node is a configured parent; a configured child. -/
def isParent (s : State) (n : Nat) : Bool := (List.range 2).any (fun i => (parentOf s i).map (·.1) = some n)
def childIx (s : State) (n : Nat) : Option Nat := (List.range 16).find? (fun c => (childOf s c).map (·.1) = some n)

/-- The parent entry of a node (R420). -/
def parentEntry (s : State) (n : Nat) : Option (Nat × Nat) := (List.range 2).findSome? (fun i => (parentOf s i).filter (fun e => decide (e.1 = n)))

/-- A Hoist packet to a neighbour over its port, where the link is UP at version 2 or above; otherwise it is not sent. -/
def sendHoist (s : State) (dst : Nat × Nat) (gen kind : Nat) (body : List Byte) : State :=
  if linkState s dst.2 = 2 ∧ 2 ≤ linkVer s dst.2 then
    linkSend s dst.2 (mkPacket s (linkVer s dst.2) 10 0 body.length 0 0 0 gen 0 0 0 (dst.1 * 2 ^ 40 + kind) body)
  else s

/-! Contexts (R422). -/

def ctxAt (s : State) (k : Nat) : Option HCtx := ((s.hoist)[k]?).getD none

/-- A context changes; CTX_GEN and CTX_ST follow (R431). -/
def setCtx (s : State) (k : Nat) (x : HCtx) : State :=
  (({ s with hoist := lset s.hoist k (some x) }).wr pHoist (0x220 + 8 * k) x.gen).wr pHoist (0x224 + 8 * k) ((if x.taken then 2 else 1) + 16 * x.status)

/-- A context is free; its registers read the state it ended in. -/
def freeCtx (s : State) (k st : Nat) : State :=
  ({ s with hoist := lset s.hoist k none }).wr pHoist (0x224 + 8 * k) (st + if st = 0 then 0 else s.rdF pHoist (0x224 + 8 * k) 4 4 * 16)

/-- The context that holds a generation. -/
def ctxOf (s : State) (gen : Nat) : Option (Nat × HCtx) :=
  (List.range 4).findSome? (fun k => match ctxAt s k with | some x => if x.gen = gen then some (k, x) else none | none => none)

/-- The START body of a context (R421). -/
def startBody (x : HCtx) : List Byte :=
  toLE 8 x.time ++ toLE 8 x.deadline ++ toLE 4 (x.root + 2 ^ 24 * x.policy) ++ toLE 4 x.members ++ List.replicate 8 0

/-- The entries of a REPORT body. -/
def reportBody (l : List (Nat × Nat)) : List Byte :=
  toLE 2 l.length ++ List.replicate 6 0 ++ (l.map (fun e => toLE 4 (e.1 + 2 ^ 20 * e.2))).foldl (· ++ ·) []

/-- START goes to one child, and its next START is due 1 ms later while it has not answered. -/
def sendStart (s : State) (k c : Nat) : State :=
  match ctxAt s k, childOf s c with
  | some x, some dst =>
    setCtx (sendHoist s dst x.gen 1 (startBody x)) k { x with kids := lmod (fun d => { d with nextAt := some (s.ref + 100000) }) x.kids c }
  | _, _ => s

/-- A status byte of a node in the context's part of the work area; how the byte spells it is a free value (R425). -/
def workByte (s : State) (k node : Nat) : State :=
  (memWrite s .hostDie (s.base pHoist 0x154 + 2 ^ 20 * k + node) [Config.freeByte s.free node]).1.freeNext

/-- An origin's status: kept, and sent to both parents when it has changed; the root only keeps it (R425). -/
def noteStatus (s : State) (k node status : Nat) : State :=
  match ctxAt s k with
  | none => s
  | some x =>
    if fget (fun _ => 0) x.known node = status + 1 then s
    else
      let x1 := { x with known := fset (fun _ => 0) x.known node (status + 1) }
      if x.here then workByte (setCtx s k x1) k node
      else workByte (setCtx s k { x1 with pend := x.pend.map (fun p => (p.1 ++ [(node, status)], p.2)) }) k node

/-! The start (R423, R429). -/

/-- The evaluation of a start: the first row that applies. -/
def evalStart (s : State) (gen : Nat) : Nat :=
  let st := s.rdF pTime 0x210 0 2
  if st ≠ 2 ∧ st ≠ 3 then 4
  else match slotOf s gen with
  | none => 3
  | some j =>
    match jobState s j with
    | 1 => if (List.range 16).any (fun i => decide (jobState s i = 4)) then 1 else 2
    | 2 => 0
    | _ => 3

/-- A start is evaluated for a context: taken and armed, or refused. -/
def takeStart (s : State) (k : Nat) : State :=
  match ctxAt s k with
  | none => s
  | some x =>
    let e := evalStart s x.gen
    raise (setCtx s k { x with status := e, taken := decide (e = 0) }) pHoist (if e = 0 then 8 else 9) 0 0xFFFF 0 [x.gen, e, 0, 0]

/-- A START copy: the first is forwarded to every child, evaluated and answered with `answer`; later ones are evaluated and answered; LATE and NO_CONTEXT are only answered. -/
def takeCopy (s : State) (x : HCtx) (answer : State → Nat → State) : State :=
  match ctxOf s x.gen with
  | some (k, y) =>
    if x.deadline ≤ s.ptp then answer s 5
    else if y.taken then answer (s.inc pHoist 0x244 1) 0
    else
      let s1 := takeStart s k
      answer s1 (match ctxAt s1 k with | some z => z.status | none => 3)
  | none =>
    if x.deadline ≤ s.ptp then answer s 5
    else match (List.range 4).find? (fun k => (ctxAt s k).isNone) with
    | none => answer (raise s pHoist 18 0 0xFFFF 0 [x.gen, 0, 0, 0]) 6
    | some k =>
      let s1 := setCtx { s with aborted := sremove x.gen s.aborted } k { x with kids := List.replicate 16 ⟨none, none, 5000⟩, known := [], pend := [([], 0), ([], 0)] }
      let s2 := takeStart ((List.range 16).foldl (fun s c => sendStart s k c) s1) k
      let e := match ctxAt s2 k with | some z => z.status | none => 3
      answer (if x.here then noteStatus s2 k (nodeId s) e else s2) e

/-- A Hoist packet after checks 1-4 (R421): its kind and body are sound and its sender is a neighbour of the right side. -/
def hoistOk (s : State) (p : Packet) (kind : Nat) : Bool :=
  let b := p.body
  let low := p.target.toNat % 2 ^ 40
  s.rdB pHoist 0x104 0 && decide (low = kind) && decide (p.dstConn = 0 ∧ p.srcConn = 0 ∧ p.epoch = 0) && decide (p.gen ≠ 0)
  && (match kind with
      | 1 => decide (b.length = 32) && isParent s p.srcNode.toNat && decide (leAt b 0x10 4 % 2 ^ 24 < 2 ^ 20 ∧ leAt b 0x13 1 ≤ 1)
        && decide (1 ≤ leAt b 0x14 4 ∧ leAt b 0x14 4 ≤ 1048560) && decide (leAt b 0x18 8 = 0)
      | 2 => decide (1 ≤ leAt b 0 2 ∧ leAt b 0 2 ≤ 1022) && decide (b.length = 8 + 4 * leAt b 0 2) && decide (leAt b 2 6 = 0) && (childIx s p.srcNode.toNat).isSome
        && (List.range (leAt b 0 2)).all (fun i => decide (leAt b (8 + 4 * i) 4 < 7 * 2 ^ 20))
      | _ => decide (b.length = 8) && isParent s p.srcNode.toNat && decide (leAt b 0 8 < 2 ^ 20))

/-- A Hoist packet of a kind arrives: checks 1-4, then its own (R421). -/
def hoistIn (l : Nat) (p : Packet) (kind : Nat) (s : State) (k : State → State) : State :=
  ingress4 s l p (fun s => if hoistOk s p kind then k s else s.inc pHoist 0x24C 1)

/-- A START copy arrives from a parent; the answer goes to that parent's configured port (R420, R423). -/
def startIn (l : Nat) (p : Packet) (s : State) : State :=
  hoistIn l p 1 s (fun s =>
    let b := p.body
    let x : HCtx := ⟨p.gen.toNat, leAt b 0 8, leAt b 8 8, leAt b 0x10 4 % 2 ^ 20, bits (leAt b 0x10 4) 24 1, leAt b 0x14 4, false, 0, false, [], [], [], false⟩
    takeCopy (s.inc pHoist 0x240 1) x (fun s e => match parentEntry s p.srcNode.toNat with
      | some dst => sendHoist s dst x.gen 2 (reportBody [(nodeId s, e)])
      | none => s))

/-- HOIST_START. -/
def execHoistStart (l : Nat) (p : Packet) (s : State) : Out := onPort l s (startIn l { p with ptype := 10 } s)

/-- HOIST_TX_GO: a write of TX_CTL with go at the root (R426). -/
def execHoistTxGo (policy : Bool) (s : State) : Out :=
  .next
    (if !served s then s
     else
       let s0 := s.wrF pHoist 0x214 1 1 (b2n policy)
       let time := s.rd64 pHoist 0x200
       let deadline := s.rd64 pHoist 0x208
       let n := s.rdF pHoist 0x218 0 20
       let res (v : Nat) : State := s0.wr pHoist 0x21C v
       if s.rdF pHoist 0x104 0 2 ≠ 3 then res 2
       else if time < deadline + 1000 * s.rdF pHoist 0x108 0 16 ∨ deadline ≤ s.ptp then res 3
       else if (ctxOf s (s.rd pHoist 0x210)).isNone && (List.range 4).all (fun k => (ctxAt s k).isSome) then res 4
       else if n = 0 || !inHbm s (s.base pHoist 0x164) (4 * n) then res 5
       else takeCopy (res 1) ⟨s.rd pHoist 0x210, time, deadline, nodeId s, b2n policy, n, true, 0, false, [], [], [], false⟩ (fun s _ => s))

/-- The start armed for a slot is made once PTP time has reached its time (R429). -/
def startDue (s : State) (j : Nat) : State :=
  match ctxOf s (jobGen s j) with
  | some (_, x) => if x.taken && decide (jobState s j = 2 ∧ x.time ≤ s.ptp) then startSlot s j else s
  | none => s

/-- HOIST_START_TIME: PTP time has reached the start time armed for a slot (R429). -/
def execHoistStartTime (j : Nat) (s : State) : Out := onUnit (decide (j < 16)) (if alive s then startDue s j else s)

/-- HOIST_CONTEXT_RELEASE: 10 ms after the start time (R422). -/
def execHoistContextRelease (k : Nat) (s : State) : Out :=
  onUnit (decide (k < 4))
    (match ctxAt s k with
     | some x => if alive s && decide (x.time + 10000000 ≤ s.ptp) then (freeCtx s k 0).wr pHoist (0x220 + 8 * k) 0 else s
     | none => s)

/-! Retries and reports (R424, R425). -/

/-- HOIST_RETRY: a child's timer expires before the deadline: the START goes to it again. -/
def execHoistRetry (k ch : Nat) (s : State) : Out :=
  onUnit (decide (k < 4) && decide (ch < 16))
    (match ctxAt s k, childOf s ch with
     | some x, some dst =>
       match x.kids[ch]? with
       | none => s
       | some d =>
         if alive s && (match d.nextAt with | some t => decide (t ≤ s.ref) | none => false) && decide (s.ptp < x.deadline) then
           let g := if d.status.isNone then 100000 else if 160000 < 2 * d.gap then 160000 else 2 * d.gap
           let d' : Kid := ⟨d.status, some (s.ref + g), if d.status.isNone then d.gap else g⟩
           (setCtx (sendHoist s dst x.gen 1 (startBody x)) k { x with kids := lset x.kids ch d' }).inc pHoist 0x248 1
         else s
     | _, _ => s)

/-- A child's own entry (R424): TAKEN and LATE end the retries; another status starts them 50 µs later, or leaves them as they run. -/
def kidAnswer (d : Kid) (status now : Nat) : Kid :=
  if status = 0 ∨ status = 5 then ⟨some status, none, d.gap⟩
  else if d.status.isSome ∧ d.nextAt.isSome then { d with status := some status }
  else ⟨some status, some (now + 5000), 5000⟩

/-- An entry that reaches the root between deadline and start time (R427): TAKEN sets late_taken on the member's entry of the report. -/
def lateEntry (s : State) (k node : Nat) : State :=
  match ctxAt s k with
  | none => s
  | some x =>
    let a := s.base pHoist 0x15C + 2 ^ 22 * k
    match (List.range (s.hnat (a + 8) 4)).find? (fun i => decide (s.hnat (a + 0x40 + 4 * i) 4 % 2 ^ 20 = node)) with
    | none => s
    | some i =>
      let e := s.hnat (a + 0x40 + 4 * i) 4
      if x.here = false ∨ x.reported = false ∨ x.time ≤ s.ptp ∨ bit e 31 = true then s
      else
        let s1 := (memWrite s .hostDie (a + 0x40 + 4 * i) (toLE 4 (putBits e 31 1 1))).1
        (tagRelease (memWrite s1 .hostDie (a + 0x10) (toLE 4 (s1.hnat (a + 0x10) 4 + 1))).1 (a + 0x10) 4 3 nodeTag).inc pHoist 0x250 1

/-- One entry of a report from a child. -/
def takeEntry (s : State) (k node status : Nat) : State :=
  let s1 := match ctxAt s k, childIx s node with
    | some x, some c => setCtx s k { x with kids := lmod (fun d => kidAnswer d status s.ref) x.kids c }
    | _, _ => s
  let s2 := if status = 0 then lateEntry s1 k node else s1
  noteStatus s2 k node status

/-! Aborts and the root's report (R427, R428). -/

/-- ABORT goes to every configured child, once for a generation (R428). -/
def sendAborts (s : State) (gen root : Nat) : State :=
  if s.aborted.contains gen then s
  else
    (List.range 16).foldl (fun s c => match childOf s c with | some dst => sendHoist s dst gen 3 (toLE 8 root) | none => s)
      { s with aborted := sinsert gen s.aborted }

/-- An ABORT is taken for a context: forwarded to the children; the start disarmed before its time, the job's armed queues stopped after it. -/
def takeAbort (s : State) (k : Nat) : State :=
  match ctxAt s k with
  | none => s
  | some x =>
    let s2 := freeCtx (sendAborts s x.gen x.root) k 3
    if s.ptp < x.time then
      let s3 := match slotOf s2 x.gen with | some j => s2.wrF pHoist (0x308 + 16 * j) 8 1 1 | none => s2
      raise s3 pHoist 11 0 0xFFFF 0 [x.gen, 0, 0, 0]
    else
      let s3 := (jobQueues s2 x.gen).foldl (fun s q => if qState s q = 2 then setQState s q 3 else s) s2
      raise s3 pHoist 12 0 0xFFFF 0 [x.gen, 0, 0, 0]

/-- An ABORT arrives from a parent: taken for the context of its generation; where no context holds it, the first copy is only forwarded (R428). -/
def abortIn (l : Nat) (p : Packet) (s : State) : State :=
  hoistIn l p 3 s (fun s => match ctxOf s p.gen.toNat with | some (k, _) => takeAbort s k | none => sendAborts s p.gen.toNat (leAt p.body 0 8))

/-- HOIST_ABORT. -/
def execHoistAbort (l : Nat) (p : Packet) (s : State) : Out := onPort l s (abortIn l { p with ptype := 10 } s)

/-- The members whose last entry was not TAKEN, with their status, in list order. -/
def missing (s : State) (x : HCtx) : List (Nat × Nat) :=
  (List.range x.members).filterMap (fun i =>
    let n := s.hnat (s.base pHoist 0x164 + 4 * i) 4 % 2 ^ 20
    match fget (fun _ => 0) x.known n with
    | 0 => some (n, 7)
    | 1 => none
    | e => some (n, e - 1))

/-- The report of a context: its address and its bytes, the ABORT that follows it (R427, R428). -/
def reportOf (s : State) (k : Nat) (x : HCtx) : Nat × List Byte × Bool :=
  let m := missing s x
  let ab := decide (x.policy = 1 ∧ m ≠ [])
  (s.base pHoist 0x15C + 2 ^ 22 * k,
   toLE 4 x.gen ++ toLE 4 x.members ++ toLE 4 m.length ++ toLE 4 (x.policy + 256 * b2n ab) ++ List.replicate 48 0
     ++ (m.map (fun e => toLE 4 (e.1 + 2 ^ 20 * e.2))).foldl (· ++ ·) [], ab)

/-- At the deadline the root owes a report. -/
def reportDue (s : State) (x : HCtx) : Bool := x.here && !x.reported && decide (x.deadline ≤ s.ptp)

/-- The root writes its report, as a release at node scope; under policy 1 with members missing it sends ABORT. -/
def writeReport (s : State) (k : Nat) (x : HCtx) : State :=
  let r := reportOf s k x
  let s1 := tagRelease (memWrite s .hostDie r.1 r.2.1).1 r.1 r.2.1.length 3 nodeTag
  let s2 := raise (setCtx s1 k { x with reported := true }) pHoist 10 0 0xFFFF r.1 [x.gen, x.members, (missing s x).length, 0]
  if r.2.2 then takeAbort s2 k else s2

/-- HOIST_DEADLINE: at the deadline the root writes the report; under policy 1 with members missing it sends ABORT. -/
def execHoistDeadline (k : Nat) (s : State) : Out :=
  onUnit (decide (k < 4))
    (match ctxAt s k with
     | none => s
     | some x => if alive s && reportDue s x && !memHeld s .hostDie (reportOf s k x).1 (reportOf s k x).2.1.length then writeReport s k x else s)

/-! Reports (R425, R427). -/

/-- The root's report lies in memory whose requests are held. -/
def reportHeld (s : State) (gen : Nat) : Bool :=
  match ctxOf s gen with
  | some (k, x) => x.here && decide (x.deadline ≤ s.ptp) && memHeld s .hostDie (reportOf s k x).1 (reportOf s k x).2.1.length
  | none => false

/-- Entries arrive from a child. At the root a report that is due is written first, from what came before the deadline (R427). -/
def reportIn (l : Nat) (p : Packet) (s : State) : State :=
  hoistIn l p 2 s (fun s =>
    match ctxOf s p.gen.toNat with
    | none => s
    | some (k, x) =>
      (List.range (leAt p.body 0 2)).foldl (fun s i =>
        let e := leAt p.body (8 + 4 * i) 4
        takeEntry s k (e % 2 ^ 20) (bits e 20 4)) (if reportDue s x then writeReport s k x else s))

/-- HOIST_REPORT. -/
def execHoistReport (l : Nat) (p : Packet) (s : State) : Out :=
  onPort l s (if reportHeld s p.gen.toNat then s else reportIn l { p with ptype := 10 } s)

/-- HOIST_REPORT_BATCH: up to 1 022 entries to a parent, at most every 10 µs. -/
def execHoistReportBatch (k par : Nat) (s : State) : Out :=
  onUnit (decide (k < 4) && decide (par < 2))
    (match ctxAt s k, parentOf s par with
     | some x, some dst =>
       match x.pend[par]? with
       | none => s
       | some (l, t) =>
         if alive s && decide (l ≠ [] ∧ (t = 0 ∨ t + 1000 ≤ s.ref)) then
           setCtx (sendHoist s dst x.gen 2 (reportBody (l.take 1022))) k { x with pend := lset x.pend par (l.drop 1022, s.ref) }
         else s
     | _, _ => s)

end Sys2Proof.Machine
end

