-- ==== Sys2Proof/Machine/Ingress.lean ====
section
/-! DEFINITION. Packets out of the flits of a port, on their way to the ingress (12_krovmo_fabric.md R371-R375, R382). -/

namespace Sys2Proof.Machine

open Sys2Proof

/-- The packet that some bytes spell (R374). -/
def parsePacket (b : List Byte) : Packet :=
  let n := b.length - 40
  { ver := BitVec.ofNat 4 (leAt b 0 1), ptype := BitVec.ofNat 4 (leAt b 0 1 / 16), ord := BitVec.ofNat 8 (leAt b 1 1), len := BitVec.ofNat 13 (leAt b 2 2),
    dstConn := BitVec.ofNat 14 (leAt b 4 2), srcConn := BitVec.ofNat 14 (leAt b 6 2),
    rsvd := BitVec.ofNat 7 (leAt b 2 2 / 2 ^ 13 + 2 ^ 3 * (leAt b 4 2 / 2 ^ 14) + 2 ^ 5 * (leAt b 6 2 / 2 ^ 14)),
    seq := BitVec.ofNat 32 (leAt b 8 4), gen := BitVec.ofNat 32 (leAt b 0xC 4), epoch := BitVec.ofNat 32 (leAt b 0x10 4),
    srcNode := BitVec.ofNat 20 (leAt b 0x14 4), relTile := BitVec.ofNat 8 (leAt b 0x14 4 / 2 ^ 20), relUnit := BitVec.ofNat 4 (leAt b 0x14 4 / 2 ^ 28),
    target := BitVec.ofNat 64 (leAt b 0x18 8), body := slice b 32 n, check := BitVec.ofNat 64 (leAt b (32 + n) 8) }

/-- A packet reaches what its type names; one of a reserved type meets check 3, and a HOIST packet of a reserved kind is foreign (R375, R382, 13_binding_and_jobs.md R421). -/
def packetIn (l : Nat) (s : State) (p : Packet) : State :=
  match p.ptype.toNat with
  | 5 => rspIn l p s
  | 6 => holdIn l p s
  | 7 => openIn l p s
  | 8 => openAckIn l p s
  | 9 => (let s1 := closeIn l p s; (s1.bind.tds.map (·.target)).foldl tdFence s1)
  | 10 =>
    (match p.target.toNat % 2 ^ 40 with
     | 1 => startIn l p s
     | 2 => reportIn l p s
     | 3 => abortIn l p s
     | kind => hoistIn l p kind s (fun s => s.inc pHoist 0x24C 1))
  | _ => requestIn l p s

/-- A packet waits before it is taken in: a Hoist report whose memory is held. -/
def packetHeld (s : State) (p : Packet) : Bool :=
  decide (p.ptype.toNat = 10 ∧ p.target.toNat % 2 ^ 40 = 2) && reportHeld s p.gen.toNat

/-- PAYLOAD_FLIT: a payload or link-control flit arrives; the packets it completes go to the ingress, while the fabric is enabled, and the link answers (R372, R374). A flit whose packet must wait stays outside. -/
def execPayloadFlit (l : Nat) (f : Flit) (s : State) : Out :=
  onUnit (decide (l < 32))
    (if !flitHeard s l f then s
     else
       let r := flitArrives s l f
       let ps := r.2.map parsePacket
       if ps.any (packetHeld s) then s
       else linkAnswer (s.link l) l (ps.foldl (fun s p => if s.enabled pFabric then packetIn l s p else s) r.1))

end Sys2Proof.Machine
end

