-- ==== Sys2Proof/Machine/Time.lean ====
section
/-! DEFINITION. PTP time: the IEEE 1588 messages, lock, holdover and steps (12_krovmo_fabric.md R397, 13_binding_and_jobs.md R432-R435). -/

namespace Sys2Proof.Machine

open Sys2Proof

def State.modServo (s : State) (f : Ptp → Ptp) : State := { s with servo := f s.servo }

/-- TIME.STATE: 0 FREE, 1 ACQUIRING, 2 LOCKED, 3 HOLDOVER (R433). -/
def timeState (s : State) : Nat := s.rdF pTime 0x210 0 2

/-- The management port is up. -/
def portUp (s : State) : Bool := s.up && s.rdB pMgmt 0x208 0

/-- The selected master. -/
def master (s : State) : Option Nat := s.servo.best.map (fun b => b.master.toNat)

/-- The transport of a PTP message is enabled (R397, R399). -/
def ptpOn (s : State) (n : PtpNet) : Bool := s.rdB pMgmt 0x108 (match n with | .ether => 9 | .udp4 => 10 | .udp6 => 11)

/-- No Announce of the selected master has come for three of its Announce intervals: it is selected no longer (IEEE 1588-2019; PRESUMED, log entry 165). -/
def dropSilent (s : State) : State :=
  match s.servo.best with
  | none => s
  | some b =>
    if s.servo.announceAt + 3 * b.announce ≤ s.ref then (s.wr64 pTime 0x220 0).modServo (fun v => { v with best := none }) else s

/-- A PTP message arrives at the port: one of a transport that is not enabled, or of another domain, is discarded and counted (R396, R397). -/
def ptpArrives (s : State) (n : PtpNet) (domain : Nat) (k : State → State) : State :=
  if !portUp s then s
  else
    let s0 := s.inc pMgmt 0x210 1
    if !ptpOn s n then s0.inc pMgmt 0x214 1
    else if domain ≠ s.rdF pMgmt 0x108 0 8 then s0
    else k (dropSilent s0)

/-- LOCKED is left for HOLDOVER. -/
def toHoldover (s : State) : State :=
  if timeState s = 2 then
    raise (((s.wrF pTime 0x210 0 2 3).inc pTime 0x22C 1).modServo (fun v => { v with holdFrom := s.ref, good := 0 })) pTime 9
  else s

/-- PTP time is set to the master's, `off` nanoseconds earlier; the starts whose time it passes are armed at the step (R434). -/
def stepPtp (s : State) (off : Int) : State :=
  (List.range 16).foldl startDue { s with ptp := ((s.ptp : Int) - off).toNat }

/-- A measured offset (R433, R434): the first in ACQUIRING steps the time; one beyond step_us steps it again; otherwise the time slews at a rate of at most 200 ppm, which is a free value; 16 in a row within 500 ns lock. -/
def takeOffset (s : State) (off : Int) : State :=
  let s1 := s.wr pTime 0x214 (uimg 32 off)
  let lim : Int := 1000 * (s.rdF pTime 0x104 16 16 : Nat)
  if timeState s = 1 && !s.servo.stepped then (stepPtp s1 off).modServo (fun v => { v with stepped := true, good := 0 })
  else if lim < off ∨ off < -lim then
    raise (((stepPtp s1 off).inc pTime 0x228 1).modServo (fun v => { v with good := 0 })) pTime 10 0 0xFFFF 0 [uimg 32 off, 0, 0, 0]
  else
    let good := if off ≤ 500 ∧ -500 ≤ off then s.servo.good + 1 else 0
    let rate : Int := (freeVal s % 400001 : Nat) - 200000
    let s2 := (s1.freeNext.wr pTime 0x218 (uimg 32 rate)).modServo (fun v => { v with good := good })
    if 16 ≤ good ∧ timeState s ≠ 2 then raise (s2.wrF pTime 0x210 0 2 2) pTime 8 else s2

/-- A Sync has been received from the selected master: FREE becomes ACQUIRING (R433). -/
def syncHeard (s : State) : State :=
  (if timeState s = 0 then (s.wrF pTime 0x210 0 2 1).modServo (fun v => { v with stepped := false, good := 0 }) else s).modServo
    (fun v => { v with lastSync := s.ref })

/-- The origin and receive time of a Sync give an offset: receive time less origin, path delay and asymmetry (R397). -/
def syncDone (s : State) (origin received : Nat) : State :=
  let asym := sint 16 (s.rdF pMgmt 0x108 16 16)
  takeOffset (s.modServo (fun v => { v with last := some (origin, received), sync := none }))
    ((received : Int) - (origin : Int) - (s.servo.delay + asym))

/-- PTP_SYNC: from the selected master in the configured domain; a two-step Sync waits for its Follow_Up. -/
def execPtpSync (y : PtpSyncMsg) (s : State) : Out :=
  .next (ptpArrives s y.net y.domain.toNat (fun s =>
    if master s ≠ some y.master.toNat then s
    else if y.twoStep then (syncHeard s).modServo (fun v => { v with sync := some (y.n, y.received) })
    else syncDone (syncHeard s) y.origin y.received))

/-- PTP_FOLLOW_UP: the origin time of the Sync that waits for it. -/
def execPtpFollowUp (y : PtpFollowMsg) (n origin : Nat) (s : State) : Out :=
  .next (ptpArrives s y.net y.domain.toNat (fun s =>
    match s.servo.sync with
    | some (k, received) => if k = n ∧ master s = some y.master.toNat then syncDone s origin received else s
    | none => s))

/-- The data sets that the default best master clock algorithm compares, the lesser being the better. -/
def announceKey (y : PtpAnnounceMsg) : List Nat :=
  [y.priority1.toNat, y.clockClass.toNat, y.accuracy.toNat, y.variance.toNat, y.priority2.toNat, y.master.toNat]

/-- A list of numbers comes before another. -/
def listLt : List Nat → List Nat → Bool
  | a :: r, b :: t => decide (a < b) || (decide (a = b) && listLt r t)
  | _, _ => false

/-- PTP_ANNOUNCE: the better of the announced masters is selected; MASTER names it. -/
def execPtpAnnounce (y : PtpAnnounceMsg) (s : State) : Out :=
  .next (ptpArrives s y.net y.domain.toNat (fun s =>
    let take := match s.servo.best with
      | none => true
      | some b => decide (b.master = y.master) || listLt (announceKey y) (announceKey b)
    if take then (s.wr64 pTime 0x220 y.master.toNat).modServo (fun v => { v with best := some y, announceAt := s.ref }) else s))

/-- PTP_DELAY_REQ_SEND: a Delay_Req or Pdelay_Req goes out; its number and time are kept. -/
def execPtpDelayReqSend (s : State) : Out :=
  .next
    (if portUp s && (s.servo.best.isSome || s.rdB pMgmt 0x108 8) then s.modServo (fun v => { v with req := some (v.reqNum + 1, s.ptp), reqNum := v.reqNum + 1 }) else s)

/-- The path delay that a response gives, `t4` being when the request was received there: with delay request-response, half of what the last Sync and the request took; peer to peer, half of the round trip less the peer's turnaround. None without the last Sync that the first needs. -/
def pathDelay (s : State) (y : PtpDelayMsg) (t4 sent : Nat) : Option Int :=
  if y.peer then some (((y.received : Int) - sent - ((y.origin : Int) - t4)) / 2)
  else s.servo.last.map (fun x => ((x.2 : Int) - x.1 + ((t4 : Int) - sent)) / 2)

/-- PTP_DELAY_RESP: the response to the last request gives the path delay, where it is of the mechanism in use (R397, R399). -/
def execPtpDelayResp (y : PtpDelayMsg) (t4 : Nat) (s : State) : Out :=
  .next (ptpArrives s y.net y.domain.toNat (fun s =>
    match s.servo.req with
    | some (k, sent) =>
      if k = y.n ∧ y.peer = s.rdB pMgmt 0x108 8 then
        (match pathDelay s y t4 sent with
         | some d => s.modServo (fun v => { v with delay := d, req := none })
         | none => s)
      else s
    | none => s))

/-- PTP_SYNC_TIMEOUT: no Sync for three Sync intervals while LOCKED. -/
def execPtpSyncTimeout (s : State) : Out :=
  .next
    (let i := match s.servo.best with | some b => b.interval | none => 0
     let s := if alive s then dropSilent s else s
     if alive s && decide (timeState s = 2 ∧ s.servo.lastSync + 3 * i ≤ s.ref) then toHoldover s else s)

/-- HOLDOVER_EXPIRY: holdover_s has passed in HOLDOVER. -/
def execHoldoverExpiry (s : State) : Out :=
  .next
    (if alive s && decide (timeState s = 3 ∧ s.servo.holdFrom + 100000000 * s.rdF pTime 0x104 0 16 ≤ s.ref) then
       ((s.wrF pTime 0x210 0 2 0).wr pTime 0x218 0).modServo (fun v => { v with good := 0 })
     else s)

/-- TIME_SNAP: CTRL.snap captures both clocks (R435). -/
def execTimeSnap (s : State) : Out :=
  .next (if served s then (s.wr64 pTime 0x230 s.ref).wr64 pTime 0x238 s.ptp else s)

end Sys2Proof.Machine
end

