-- ==== Sys2Proof/Machine/Errlog.lean ====
section
/-! DEFINITION. Error records and the fatal state (16_bringup_errors_test.md R516-R522). -/

namespace Sys2Proof.Machine

open Sys2Proof

def State.modLog (s : State) (f : Log → Log) : State := { s with log := f s.log }

/-- The 64 bytes of a record (R517). -/
def recBytes (seq : Nat) (r : Rec) : List Byte :=
  toLE 4 seq ++ toLE 1 r.cls ++ toLE 1 (typeCode r.page.blk) ++ toLE 2 r.page.inst ++ toLE 1 r.flag ++ toLE 1 r.code ++ toLE 2 r.queue
    ++ toLE 4 r.count ++ toLE 8 r.ref ++ toLE 8 r.ptp ++ toLE 8 r.addr ++ slice ((r.detail.map (toLE 4)).foldl (· ++ ·) []) 0 16
    ++ toLE 4 r.gen ++ toLE 4 r.epoch

/-- The last `n` elements of a list. -/
def lastN {α : Type} (n : Nat) (l : List α) : List α := l.drop (l.length - n)

/-- A class 3 record goes to the store, which keeps the last 64 (R521). -/
def storeClass3 (s : State) (seq : Nat) (b : List Byte) : State :=
  { s with store := { s.store with class3 := lastN 64 (s.store.class3 ++ [(seq, b)]) } }

/-- log2 of the ring's entries; 0 for none (R519). -/
def logLog (s : State) : Nat := s.rdF pErrlog 0x10C 0 5

/-- The ring is full for a record (R520). -/
def logFull (s : State) (seq : Nat) : Bool := decide (2 ^ logLog s < diff32 seq (s.rd pErrlog 0x204))

/-- The slot of a record in the ring. -/
def logSlot (s : State) (seq : Nat) : Nat := s.base pErrlog 0x104 + 64 * ((seq + 2 ^ 32 - 1) % 2 ^ 32 % 2 ^ logLog s)

/-- A record cannot be written yet: the ring is full, or the requests of its slot are held (01_architecture.md R22). -/
def logWaits (s : State) (seq : Nat) : Bool := logFull s seq || memHeld s .hostDie (logSlot s seq) 64

/-- A record goes to its slot as one access under a release at node scope, then TAIL follows (R519). -/
def logWrite (s : State) (seq : Nat) (b : List Byte) : State :=
  (tagRelease (memWrite s .hostDie (logSlot s seq) b).1 (logSlot s seq) 64 3 nodeTag).wr pErrlog 0x200 seq

/-- Waiting records move on while the ring has room; without a ring they are given up, as the class filter does (R520). -/
def logDrain : Nat → State → State
  | 0, s => s
  | n + 1, s =>
    if logLog s = 0 then s.modLog (fun l => { l with waiting := [] })
    else match s.log.waiting with
    | [] => s
    | (seq, b) :: r => if logWaits s seq then s else logDrain n (logWrite (s.modLog (fun l => { l with waiting := r })) seq b)

/-- Records that the flag of a record has posted in its second. -/
def logRate (s : State) (r : Rec) : Nat :=
  match s.log.rates.find? (fun x => decide (x.1 = pageBase r.page * 32 + r.flag ∧ x.2.1 = r.ref / 100000000)) with
  | some x => x.2.2
  | none => 0

/-- One more record in its second; earlier seconds are forgotten. -/
def countRate (s : State) (r : Rec) : State :=
  let k := pageBase r.page * 32 + r.flag
  let sec := r.ref / 100000000
  let n := logRate s r + 1
  s.modLog (fun l => { l with rates := l.rates.filter (fun x => decide (x.1 ≠ k ∧ x.2.1 = sec)) ++ [(k, sec, n)] })

/-- MODULE_FATAL's own record, which the rate limit never holds back (R516). -/
def isFatalRec (r : Rec) : Bool := decide (r.page.blk = .errlog ∧ r.flag = 10)

/-- A record that is posted: numbered, counted by class, kept by Palur, and written to the ring, kept waiting, or lost (R519-R521). -/
def logRecord (s : State) (r : Rec) : State :=
  let seq := (s.log.seq + 1) % 2 ^ 32
  let b := recBytes seq r
  let s1 := ((countRate s r).modLog (fun l => { l with seq := seq, recent := lastN 1024 (l.recent ++ [(seq, b)]) })).inc pErrlog (0x210 + 4 * r.cls) 1
  let s2 := if r.cls = 3 then storeClass3 s1 seq b else s1
  if logLog s2 = 0 || decide (r.cls < s2.rdF pErrlog 0x10C 5 2) || !s2.enabled pErrlog then s2
  else if s2.log.waiting = [] && !logWaits s2 seq then logWrite s2 seq b
  else if s2.log.waiting.length < 256 then s2.modLog (fun l => { l with waiting := l.waiting ++ [(seq, b)] })
  else setFlag (s2.inc pErrlog 0x208 1) pErrlog 8

/-- ERROR_RECORD_POST: the oldest event that has no record yet, behind the records that wait; a flag beyond its rate is only counted (R520). -/
def execErrorRecordPost (s0 : State) : Out :=
  .next (
    let s := if s0.up then logDrain 256 s0 else s0
    match s.log.posted with
    | [] => s
    | r :: rest =>
      if !s.up then s
      else
        let s1 := s.modLog (fun l => { l with posted := rest })
        if !isFatalRec r && decide (s.rdF pErrlog 0x10C 16 16 ≤ logRate s r) then setFlag (s1.inc pErrlog 0x20C 1) pErrlog 9
        else logRecord s1 r)

/-- ERRLOG_HEAD_WRITE: records consumed; a value ahead of TAIL is discarded (R519). -/
def execErrlogHeadWrite (v : BitVec 32) (s : State) : Out :=
  .next (
    if !served s then s
    else if 1 ≤ diff32 v.toNat (s.rd pErrlog 0x200) ∧ diff32 v.toNat (s.rd pErrlog 0x200) ≤ 2 ^ 31 then illegalWrite s pErrlog
    else logDrain 256 (s.wr pErrlog 0x204 v.toNat))

/-- MODULE_FATAL with its cause (R522). -/
def moduleFatal (s : State) (cause : Nat) : State :=
  raise ((s.wrF pErrlog 0x220 0 2 2).wrF pErrlog 0x220 8 8 cause) pErrlog 10 0 0xFFFF 0 [cause, 0, 0, 0]

/-- Before Palur stops, its class 3 records reach the store (R437, R469). -/
def flushClass3 (s : State) : State :=
  (s.log.posted.filter (fun r => decide (r.cls = 3))).foldl (fun s r =>
    let seq := (s.log.seq + 1) % 2 ^ 32
    storeClass3 (s.modLog (fun l => { l with seq := seq })) seq (recBytes seq r)) s

end Sys2Proof.Machine
end

