-- ==== Sys2Proof/Machine/Power.lean ====
section
/-! DEFINITION. Power, heat and pace: the 50 V input, tile rails, estimator and measurement, the cap controller, thermal protection and pace follow (14_power_thermal.md R436-R464). -/

namespace Sys2Proof.Machine

open Sys2Proof

/-! The 50 V input (R436, R437). -/

/-- The cap in force in W (R436, R445). -/
def capInForce (s : State) : Nat :=
  let c := s.rdF pPower 0x104 0 13
  if s.power.low && decide (3000 < c) then 3000 else c

/-- What power loss leaves: the store and the repairs in the stacks. A record that Palur holds of a class 3 event is stored first; PTP time, bindings and contents are gone (R437, 15_security_firmware.md R469). -/
def powerDown (s : State) (bySleep : Bool) : State :=
  let f := flushClass3 s
  { State.reset with
    pending := s.pending
    free := s.free
    mem := { MemSys.init with retired := s.mem.retired, rowRep := s.mem.rowRep, bankSpare := s.mem.bankSpare }
    store := f.store
    palur := { PalurSt.init with draws := s.palur.draws }
    power := { PowerSt.init with sleepOff := bySleep } }

/-- The power-loss record that Palur writes (R437), class 3 (16_bringup_errors_test.md R518). -/
def lossRecord (s : State) : Rec := ⟨3, pPower, 14, 0, 0xFFFF, s.rd pPower (0x780 + 56), s.ref, recPtp s, 0, [], 0, 0⟩

/-- POWER_LOSS: below 42 V for 20 µs. -/
def execPowerLoss (s : State) : Out :=
  .next (
    if !s.up then s
    else
      let s1 := powerDown (s.modLog (fun l => { l with posted := l.posted ++ [lossRecord s] })) false
      { s1 with store := { s1.store with lastLoss := 1, lossDue := true } })

/-- INPUT_OVERVOLTAGE: above 56 V for 10 µs. -/
def execInputOvervoltage (s : State) : Out :=
  .next (
    if !s.up then s
    else
      let s1 := powerDown s false
      { s1 with store := { s1.store with lastLoss := 2 } })

/-- INPUT_RANGE_CHANGE: the input is at `mv`; entering 42-46 V or 54-56 V is flagged, and below 40 V a module put into P3 by SLEEP_ENTER may power up again (R436). -/
def execInputRangeChange (mv : Nat) (s : State) : Out :=
  .next (
    if !s.up then (if mv < 40000 then s.modPower (fun w => { w with sleepOff := false }) else s)
    else
      let low := decide (42000 ≤ mv ∧ mv < 46000)
      let high := decide (54000 < mv ∧ mv ≤ 56000)
      let s1 := if low && !s.power.low then raise s pPower 12 else s
      let s2 := if high && !s.power.high then raise s1 pPower 13 else s1
      s2.modPower (fun w => { w with low := low, high := high }))

/-! Rails, droop (R439, R440). -/

/-- RAIL_SLEW_STEP: each rail moves by at most 25 mV toward its set point; the fast limiter keeps the rails while it acts. -/
def execRailSlewStep (s : State) : Out :=
  .next (
    if !s.up || s.power.limiter then s
    else s.power.rails.foldl (fun s d =>
      let v := railMv s d
      let set := s.rdF (pDie d) 0x200 0 10
      setRail s d (if v < set then (if set < v + 25 then set else v + 25) else if v < set + 25 then set else v - 25)) s)

/-- DROOP: the rail has been more than 30 mV below its set point for 1 µs. -/
def execDroop (d mv : Nat) (s : State) : Out :=
  onUnit (decide (d < 4))
    (if s.up && railOn s d && decide (mv + 30 < s.rdF (pDie d) 0x200 0 10) then
       raise (s.inc (pDie d) 0x218 1) (pDie d) 11 0 0xFFFF 0 [mv, s.rdF (pDie d) 0x200 0 10, 0, 0]
     else s)

/-! Trips (R451-R453). -/

/-- The work on a tile ends without further writes, each command with its part in it failed with THERMAL_TRIP; launches that have not arrived wait. Its DMA slots are empty, and a window operation ends with err 2, as the tile is gated (08_tile_data_movement.md R265, R266). -/
def tripTile (s : State) (t : Nat) : State :=
  let T := s.tile t
  let f (unit : Nat) : CmdFault := ⟨0x3C, unit, t, 0⟩
  let s1 := T.blocks.foldl (fun s b => cmdFault s b.launch.cmd ⟨0x3C, 1, t, b.index⟩) s
  let s2 := T.launches.foldl (fun s l => cmdFault s l.cmd (f 1)) s1
  let s3 := (T.mx.intake ++ T.mx.jobs.map (·.d)).foldl (fun s d => cmdFault s d.iss.cmd (f 2)) s2
  let s4 := (T.vx.intake ++ T.vx.jobs.map (·.d)).foldl (fun s d => cmdFault s d.iss.cmd (f 3)) s3
  let s5 := (T.dma.intake ++ T.dma.jobs.map (·.d)).foldl (fun s d => cmdFault s d.iss.cmd (f 4)) s4
  let p := pTile t
  let s6 := (List.range 4).foldl (fun s n => s.wrF p (0x518 + 16 * n) 0 2 0) (s5.setTile t { Tile.init with arriving := T.arriving, nextId := T.nextId })
  if T.win.isSome then raise (s6.wrF p 0x588 0 4 4) p 20 else s6

/-- A die trips (R452). -/
def tripDie (s : State) (d : Nat) : State :=
  if dieTripped s d then s
  else
    let s1 := (clearGated ((railOff s d).wrF (pDie d) 0x14 16 1 1)).inc (pDie d) 0x21C 1
    raise ((List.range 40).foldl (fun s n => tripTile s (40 * d + n)) s1) (pDie d) 10 0x3C 0xFFFF 0 [dieHot s d, 0, 0, 0]

/-- BROWNOUT: the rail is below 0.45 V (R440). -/
def execBrownout (d mv : Nat) (s : State) : Out :=
  onUnit (decide (d < 4)) (if s.up && railOn s d && decide (mv < 450) then tripDie (raise s (pDie d) 12 0 0xFFFF 0 [mv, 0, 0, 0]) d else s)

/-- THERMAL_EMERGENCY: the hottest sensor of the die is at 102 degrees: 0.60 V and duty 50 per cent. -/
def execThermalEmergency (d : Nat) (s : State) : Out :=
  onUnit (decide (d < 4))
    (if s.up && railOn s d && decide (1632 ≤ dieHot s d) && !dieEmergency s d then
       let s1 := (((s.wrF (pDie d) 0x14 17 1 1).wrF (pDie d) 0x200 0 10 600).wrF (pDie d) 0x20C 0 3 2).wrF (pDie d) 0x20C 8 7 50
       raise s1 (pDie d) 9 0 0xFFFF 0 [dieHot s d, 0, 0, 0]
     else s)

/-- DIE_TRIP: some sensor of the die has been at 105 degrees for 1 ms. -/
def execDieTrip (d : Nat) (s : State) : Out :=
  onUnit (decide (d < 4))
    (if s.up && s.power.hotSince.any (fun x => decide (x.1 / 48 = d ∧ x.2 + 100000 ≤ s.ref + 1)) then tripDie s d else s)

/-- DIE_RECOVER: CTRL.recover; above 85 degrees it is discarded. -/
def execDieRecover (d : Nat) (s : State) : Out :=
  onUnit (decide (d < 4))
    (if !reached s (pDie d) then s
     else if 1360 ≤ dieHot s d then illegalWrite s (pDie d)
     else if !dieTripped s d then s
     else
       let s1 := (if powerState s = 0 then railStart s d else s).wrF (pDie d) 0x14 16 1 0
       (busyTiles s1).foldl (fun s t => if dieOf t = d ∧ tilePowered s t = true then ungate s t else s) s1)

/-- MODULE_THERMAL_TRIP: a stack at level 4 for 1 s or at 98 degrees, or the host die at 105: rails off, lasers dark, stacks in self-refresh, the fatal state, which reports it (R453, 16 R522). -/
def execModuleThermalTrip (s : State) : Out :=
  .next (
    let due := s.power.lvl4.any (fun x => decide (x.2 + 100000000 ≤ s.ref + 1))
      || (List.range 12).any (fun st => decide (1568 ≤ s.rdF (pHbmc st) 0x200 0 16)) || decide (1680 ≤ s.rdF pPower 0x230 0 16)
    if alive s && due then moduleFatal (((List.range 32).foldl goDark (railsOff s)).modMem (fun m => { m with selfRefresh := true })) 5 else s)

/-- The hottest sensor of a die, lowest number first: 40 tile sensors, then eight others. -/
def hottest (s : State) (d : Nat) : Nat × Nat :=
  (List.range 48).foldl (fun m n =>
    let v := if n < 40 then s.rdF (pDie d) (0x300 + 4 * n) 0 16 else fget (fun _ => 0) s.power.others (8 * d + (n - 40))
    if m.1 < v then (v, n) else m) (0, 0)

/-- A sensor of a compute die has a new reading: the hottest sensor, the moment since which one is at 105 degrees, and the end of an emergency below the target (R451). -/
def dieSensor (s : State) (d n temp : Nat) : State :=
  let k := 48 * d + n
  let s1 := s.modPower (fun w => { w with
    hotSince := if temp < 1680 then ferase w.hotSince k else if fget (fun _ => 0) w.hotSince k = 0 then fset (fun _ => 0) w.hotSince k (s.ref + 1) else w.hotSince })
  let h := hottest s1 d
  let s2 := railRegs (s1.wr (pDie d) 0x214 (h.1 + h.2 * 2 ^ 16)) d
  if dieEmergency s2 d && decide (h.1 < dieTarget s2 d) then (s2.wrF (pDie d) 0x14 17 1 0).wrF (pDie d) 0x20C 8 7 100 else s2

/-- TEMPERATURE_CHANGE: a sensor reads `temp` sixteenths of a degree. -/
def execTemperatureChange (y : Sensor) (temp : Nat) (s : State) : Out :=
  let v := temp % 2 ^ 16
  match y with
  | .tile n => onUnit (decide (n < 160)) (if s.up then dieSensor (s.wr (pDie (n / 40)) (0x300 + 4 * (n % 40)) v) (n / 40) (n % 40) v else s)
  | .dieOther d k =>
    onUnit (decide (d < 4 ∧ k < 8))
      (if s.up then dieSensor (s.modPower (fun w => { w with others := fset (fun _ => 0) w.others (8 * d + k) v })) d (40 + k) v else s)
  | .host =>
    .next (
      if !s.up then s
      else
        let s1 := s.wr pPower 0x230 v
        if 1600 ≤ v ∧ s.rdF pPower 0x230 0 16 < 1600 then raise s1 pPower 16 0 0xFFFF 0 [v, 0, 0, 0] else s1)
  | .oe n =>
    onUnit (decide (n < 4))
      (if !s.up then s
       else
         let old := s.rdF (pOe n) 0x204 0 16
         let s1 := s.wr (pOe n) 0x204 v
         let s2 := if 1280 ≤ v ∧ old < 1280 then raise s1 (pOe n) 9 0 0xFFFF 0 [v, 0, 0, 0] else s1
         if decide (1440 ≤ v) != decide (1440 ≤ old) then (List.range 8).foldl (fun s i => portChange s (8 * n + i)) s2 else s2)

/-! The control period (R439, R446, R449-R451, R457). -/

/-- PACEj_CEIL: 850 mV while pace follow is off (R460). -/
def paceCeil (s : State) (j : Nat) : Nat := if s.rdB pPower (0x400 + 32 * j) 0 then s.rdF pPower (0x408 + 32 * j) 0 10 else 850

/-- V_pace of a die: the highest ceiling among the jobs with a bound tile on it; 0.85 V with none. -/
def paceTerm (s : State) (d : Nat) : Nat :=
  let gens := ((s.bind.bound.filter (fun p => decide (p.blk = .tile ∧ dieOf p.inst = d))).map (fun p => s.rd p 0x2C))
  if gens = [] then 850
  else gens.foldl (fun m g => let c := match slotOf s g with | some j => paceCeil s j | none => 850
                              if m < c then c else m) 0

/-- V_therm after a control period, and whether it was lowered (R451); it stays within the range of the rails. -/
def thermStep (s : State) (d : Nat) : Nat × Bool :=
  let v := fget (fun _ => 850) s.power.vtherm d
  if dieTarget s d < dieHot s d then (clamp 600 850 (v - 5), true)
  else if dieHot s d + 32 ≤ dieTarget s d then (clamp 600 850 (v + 5), false)
  else (v, false)

/-- The gains are frozen: the cap controller uses measurement (R444). -/
def frozen (s : State) : Bool := s.rdB pPower 0x218 8

/-- The powers of the dies that the cap controller uses in W: estimate with gain, or measurement (R442, R444). -/
def diePowers (s : State) : List Nat :=
  (List.range 4).map (fun d => if frozen s then s.rdF (pDie d) 0x208 0 16 else s.rdF (pDie d) 0x208 16 16)

/-- The power in mW that the controller plans for each tile at least: of the active PENNANTs that name it, the greatest intensity % of the cap divided by 160 (R446). -/
def tilePlan (s : State) : List Nat :=
  (List.range 160).map (fun t => capInForce s * 10 * ((s.pennants.filter (fun p => decide (s.ref < p.stop) && p.tiles.contains t)).foldl (fun m p => max m p.intensity) 0) / 160)

/-- The operand gives what the controller works out for the cap in force, the powers in use and the tiles' plan; given for another cap, source or plan, V_cap and duty are what Config leaves open (R436, R444, R445, R446; DESIGN CHOICE, log entry 96). -/
def capApplies (s : State) (y : ControlIn) : Bool := decide (y.cap = capInForce s) && decide (y.measured = frozen s) && decide (y.plan = tilePlan s)

/-- V_cap of a die: 0.60-0.85 V in 5 mV steps (01_architecture.md R12). -/
def capTerm (s : State) (y : ControlIn) (d : Nat) : Nat :=
  let v := clamp 600 850 (if capApplies s y then (y.vcap[d]?).getD 850 else Config.capVolts (capInForce s) (frozen s) (tilePlan s) s.power.hist (diePowers s) d)
  v - v % 5

/-- The duty that the controller gives a die whose budget the rails do not meet (R449). -/
def capDuty (s : State) (y : ControlIn) (d : Nat) : Nat :=
  clamp 10 100 (if capApplies s y then (y.duty[d]?).getD 100 else Config.capDuty (capInForce s) (frozen s) (tilePlan s) s.power.hist (diePowers s) d)

/-- One die in a control period: V_therm, the set point with the term that sets it, and duty. -/
def controlDie (y : ControlIn) (s : State) (d : Nat) : State :=
  let th := thermStep s d
  let s1 := s.modPower (fun w => { w with vtherm := fset (fun _ => 850) w.vtherm d th.1 })
  let s2 := if th.2 then raise s1 (pDie d) 8 0 0xFFFF 0 [dieHot s d, 0, 0, 0] else s1
  if !railOn s2 d || s2.paused then s2
  else
    let on := s2.enabled pPower
    let vcap := capTerm s2 y d
    let vpace := paceTerm s2 d
    let set := if dieEmergency s2 d || !on then 600 else [vcap, th.1, vpace].foldl (fun m v => if v < m then v else m) 850
    let floor := (List.range 4).all (fun n => decide (capTerm s2 y n = 600))
    let term := if dieEmergency s2 d then 2 else if !on then 5 else if set = 850 then 0 else if vcap = set then 1 else if th.1 = set then 2 else 3
    let duty := if dieEmergency s2 d then 50 else if on && floor then capDuty s2 y d else 100
    (((s2.modPower (fun w => { w with vcap := fset (fun _ => 850) w.vcap d vcap })).wrF (pDie d) 0x200 0 10 set).wrF (pDie d) 0x20C 0 3
      (if s2.power.limiter then 4 else term)).wrF (pDie d) 0x20C 8 7 (if s2.power.limiter then s2.rdF (pDie d) 0x20C 8 7 else duty)

/-- The headroom of each die for the period: a budget of the cap controller less an estimate, which the spec gives no formula for (R446, R457). -/
def newHeadroom (s : State) (d : Nat) : State :=
  { s.freeNext with headroom := fset (fun _ => 0) s.headroom d (sint 64 (freeVal s)) }

/-- A committed calibration set comes into use (15_security_firmware.md R486). -/
def calTake (s : State) : State :=
  match s.palur.calDue with
  | none => s
  | some c => { s with store := { s.store with calib := c }, palur := { s.palur with calDue := none } }

/-- What a control period does (R445-R449, R457). -/
def controlPeriod (y : ControlIn) (s : State) : State :=
  if !alive s then s
  else
    let s1 := (List.range 4).foldl (controlDie y) (calTake s)
    let s2 := (List.range 4).foldl newHeadroom s1
    let s3 := if s.enabled pPower && !s.paused && (List.range 4).any (fun d => railOn s2 d && decide (s2.rdF (pDie d) 0x20C 0 3 = 1)) then raise s2 pPower 8 else s2
    if s.enabled pPower && y.unreachable then raise s3 pPower 9 else s3

/-- FAST_LIMITER: above 6.0 kW every rail falls by 25 mV, and at 0.60 V the duty by 10 points; at or below it the limiter stops and sets FAST_LIMIT (R448). -/
def execFastLimiter (avgW : Nat) (s : State) : Out :=
  .next (
    if !s.up then s
    else if avgW ≤ 6000 then
      if s.power.limiter then raise (s.modPower (fun w => { w with limiter := false })) pPower 11 0 0xFFFF 0 [avgW, 0, 0, 0] else s
    else
      let s1 := s.modPower (fun w => { w with limiter := true })
      s1.power.rails.foldl (fun s d =>
        let s2 := s.wrF (pDie d) 0x20C 0 3 4
        if 600 < railMv s d then setRail s2 d (clamp 600 1023 (railMv s d - 25))
        else
          let du := s.rdF (pDie d) 0x20C 8 7
          s2.wrF (pDie d) 0x20C 8 7 (if du < 20 then 10 else du - 10)) s1)

/-! Estimate and measurement (R442-R444). -/

/-- GAINd. -/
def gain (s : State) (d : Nat) : Nat := s.rdF pPower (0x220 + 4 * d) 0 16

/-- The power formed in one period: of a die from its activity, its rail and its hottest temperature, of the rest (4) from its activity, under the calibration set in use (R442). -/
def formed (s : State) (y : EstimateIn) (d : Nat) : Nat :=
  if d = 4 then Config.otherPower s.store.calib y.other else Config.diePower s.store.calib ((y.die[d]?).getD []) (railMv s d) (dieHot s d)

/-- ESTIMATOR_PERIOD: the powers formed in 10 µs, before the learned gain, join the window. -/
def execEstimatorPeriod (y : EstimateIn) (s : State) : Out :=
  .next (
    if !s.up then s
    else s.modPower (fun w => { w with
      estN := w.estN + 1
      est := (List.range 5).foldl (fun e d => fset (fun _ => 0) e d (fget (fun _ => 0) e d + formed s y d)) w.est }))

/-- The average of the window's estimates of a die (4 for the rest) before its gain, in W. -/
def estRaw (s : State) (d : Nat) : Nat := if s.power.estN = 0 then 0 else fget (fun _ => 0) s.power.est d / s.power.estN

/-- The same with its gain. -/
def estDie (s : State) (d : Nat) : Nat := if d = 4 then estRaw s 4 else estRaw s d * gain s d / 0x4000

/-- P_EST of the window in W. -/
def estTotal (s : State) : Nat := lsum ((List.range 5).map (estDie s))

/-- A gain moves toward the ratio of measured to estimated power by at most 1 per cent, within 0.80 and 1.25 (R443); how far is a free value. -/
def learnDie (s : State) (d measured : Nat) : State :=
  let e := estRaw s d
  if e = 0 then s
  else
    let g := gain s d
    let want := clamp 13108 20480 (0x4000 * measured / e)
    let far := if want < g then g - want else want - g
    let lim := if far < g / 100 then far else g / 100
    let m := freeVal s % (lim + 1)
    s.freeNext.wr pPower (0x220 + 4 * d) (if want < g then g - m else g + m)

/-- Every gain is 1.000, and the gains are not frozen (R444). -/
def relearnNow (s : State) : State :=
  let s1 := (List.range 4).foldl (fun s d => s.wr pPower (0x220 + 4 * d) 0x4000) s
  if s.rdB pPower 0x218 8 then s1.wr pPower 0x218 0 else s1

/-- RELEARN: CTRL.relearn; where the window may end a third divergent one, its end decides (R444). -/
def execRelearn (s : State) : Out :=
  .next (
    if !served s then s
    else if !s.rdB pPower 0x218 8 && decide (s.rdF pPower 0x218 0 2 = 2) then s.modPower (fun w => { w with relearn := true })
    else relearnNow s)

/-- The measured averages of a window into their registers (R442, R463, R464). -/
def measureRegs (y : MeasureIn) (s : State) : State :=
  let uw := y.mv * y.ma
  let w := uw / 1000000
  let e := s.power.frac + uw
  let h := lastN (100 * s.rdF pPower 0x104 16 5) (s.power.hist ++ [w])
  let s1 := ((((s.wrF pPower 0x200 0 16 y.mv).wrF pPower 0x204 0 18 y.ma).wr pPower 0x208 (w % 2 ^ 16 + estTotal s % 2 ^ 16 * 2 ^ 16)).wr pPower 0x20C (lsum h / h.length)).wr64 pPower 0x210
    ((s.rd64 pPower 0x210 + e / 100000) % 2 ^ 64)
  let s2 := s1.modPower (fun p => { p with hist := h, frac := e % 100000 })
  (List.range 4).foldl (fun s d =>
    let mv := (y.railMv[d]?).getD 0
    let ma := (y.railMa[d]?).getD 0
    ((s.wrF (pDie d) 0x204 0 20 ma).wr (pDie d) 0x208 (mv * ma / 1000000 % 2 ^ 16 + estDie s d % 2 ^ 16 * 2 ^ 16)).wrF (pDie d) 0x200 16 10 mv) s2

/-- MEASUREMENT_WINDOW: the end of a 10 ms window: measured values, learning, and divergence (R442-R444). -/
def execMeasurementWindow (y : MeasureIn) (s : State) : Out :=
  .next (
    if !s.up then s
    else
      let pin := y.mv * y.ma / 1000000
      let pest := estTotal s
      let s1 := measureRegs y s
      let diff := if pin < pest then pest - pin else pin - pest
      let frozen := s.rdB pPower 0x218 8
      let streak := s.rdF pPower 0x218 0 2
      let s2 :=
        if frozen then s1
        else if 15 * pin < 100 * diff then
          if 2 ≤ streak then
            let s3 := raise ((s1.wr pPower 0x218 (3 + 256)).inc pPower 0x21C 1) pPower 10 0 0xFFFF 0 [pin, pest, 0, 0]
            if s.power.relearn then raise s3 pPower 17 else s3
          else s1.wrF pPower 0x218 0 2 (streak + 1)
        else s1.wrF pPower 0x218 0 2 0
      let s4 :=
        if s2.rdB pPower 0x218 8 then s2
        else if s.power.relearn then relearnNow s2
        else if s.rdB pPower 0x110 0 then
          (List.range 4).foldl (fun s d => learnDie s d ((y.railMv[d]?).getD 0 * (y.railMa[d]?).getD 0 / 1000000)) s2
        else s2
      s4.modPower (fun w => { w with relearn := false, est := [], estN := 0 }))

/-! Pace follow (R458-R460). -/

/-- The tiles bound to the job of a slot. -/
def slotTiles (s : State) (j : Nat) : List Nat :=
  if jobState s j = 0 then [] else (s.bind.bound.filter (fun p => decide (p.blk = .tile) && boundTo s p (jobGen s j))).map (·.inst)

/-- A pending acquire at system scope on a tile: a parked signal wait, the wait of an engine's head, or a WAIT command of a queue that names the tile (R458). -/
def systemWait (s : State) (t : Nat) : Bool :=
  let T := s.tile t
  let head (l : List Desc) (off : Nat) : Bool := match l with
    | d :: _ => d.wait.isSome && decide (ordScope (d.le off 1) = 4)
    | [] => false
  T.blocks.any (fun b => b.groups.any (fun g => g.parked.any (fun k => match k.kind with
    | .wait _ ord _ => ordAcq ord && decide (ordScope ord = 4)
    | .bar _ _ => false)))
  || head T.mx.intake 0x5A || head T.vx.intake 0x16 || head T.dma.intake 0x5A
  || s.cmds.any (fun c => decide (c.op = 6 ∧ c.stage = 1) && decide (ordScope (cmdLe c.bytes 0x19 1) = 4) && s.rdB (pQueue c.queue) (0x124 + 4 * (t / 32)) (t % 32))

/-- A tile is waiting at a collective (R458). -/
def tileWaits (s : State) (t : Nat) : Bool :=
  let T := s.tile t
  systemWait s t && T.blocks.all (fun b => b.groups.all (fun g => g.run.isNone && decide (g.ready = []))) && decide (T.mx.jobs = []) && decide (T.vx.jobs = [])

/-- Every bound tile of a slot is waiting (R459). -/
def allWait (s : State) (j : Nat) : Bool := decide (slotTiles s j ≠ []) && (slotTiles s j).all (tileWaits s)

/-- What a tick adds to a slot's waiting (R459): one tile-tick for each of its tiles that waits, and a tick of the interval in which all of them do, or the end of that interval. -/
def paceTick (s : State) (j : Nat) : State :=
  let n := ((slotTiles s j).filter (tileWaits s)).length
  let all := allWait s j
  s.modPower (fun w => { w with
    paceWait := fset (fun _ => 0) w.paceWait j (fget (fun _ => 0) w.paceWait j + n)
    paceAll := if all then fset (fun _ => 0) w.paceAll j (fget (fun _ => 0) w.paceAll j + 1) else ferase w.paceAll j
    straggled := if all then w.straggled else sremove j w.straggled })

/-- The ceiling after a window with a share: counts of windows in each band, and a step after pace_n of them (R460). -/
def paceEval (s : State) (j share : Nat) : State :=
  let o := 0x400 + 32 * j
  let restart (s : State) : State := s.modPower (fun w => { w with paceHi := ferase w.paceHi j, paceLo := ferase w.paceLo j })
  if !s.rdB pPower o 0 then (restart s).wr pPower (o + 8) 850
  else if slotTiles s j = [] then restart s
  else
    let ceil := s.rdF pPower (o + 8) 0 10
    let n := s.rdF pPower 0x10C 12 4
    let floor := 600 + 5 * s.rdF pPower o 24 8
    if 10 * s.rdF pPower o 8 7 < share then
      let k := fget (fun _ => 0) s.power.paceHi j + 1
      if n ≤ k then raise ((restart s).wr pPower (o + 8) (if ceil < floor + 25 then floor else ceil - 25)) pPower 15 0 0xFFFF 0 [j, share, 0, 0]
      else s.modPower (fun w => { w with paceHi := fset (fun _ => 0) w.paceHi j k, paceLo := ferase w.paceLo j })
    else if share < 10 * s.rdF pPower o 16 7 then
      let k := fget (fun _ => 0) s.power.paceLo j + 1
      if n ≤ k then (restart s).wr pPower (o + 8) (if 825 < ceil then 850 else ceil + 25)
      else s.modPower (fun w => { w with paceLo := fset (fun _ => 0) w.paceLo j k, paceHi := ferase w.paceHi j })
    else restart s

/-- PACE_WINDOW: a pace window of slot `j` ends, in which its bound tiles have waited in the ticks it held, and `waitUs` tile-microseconds more while commands ran (R459, R460; log entry 105). -/
def execPaceWindow (j waitUs : Nat) (s : State) : Out :=
  onUnit (decide (j < 16))
    (if !alive s || decide (jobState s j = 0) then s
     else
       let o := 0x400 + 32 * j
       let n := (slotTiles s j).length
       let full := n * 1000 * s.rdF pPower 0x10C 0 10
       let acc := fget (fun _ => 0) s.power.paceWait j / 100 + waitUs
       let wait := if acc < full then acc else full
       let s := s.modPower (fun w => { w with paceWait := ferase w.paceWait j })
       let share := if full = 0 then 0 else 1000 * wait / full
       paceEval (((s.wr pPower (o + 4) share).wr64 pPower (o + 0x10) ((s.rd64 pPower (o + 0x10) + wait) % 2 ^ 64)).inc pPower (o + 0x1C) 1) j share)

/-- STRAGGLER_INTERVAL: every bound tile of slot `j` has been waiting for the ticks of the interval and `us` microseconds while commands ran, which reaches PACEj_STRAG_US; an interval counts once (R459; log entry 105). -/
def execStragglerInterval (j us : Nat) (s : State) : Out :=
  onUnit (decide (j < 16))
    (if alive s && allWait s j && !s.power.straggled.contains j && decide (s.rd pPower (0x40C + 32 * j) ≤ fget (fun _ => 0) s.power.paceAll j / 100 + us) then
       (s.inc pPower (0x418 + 32 * j) 1).modPower (fun w => { w with straggled := sinsert j w.straggled })
     else s)

end Sys2Proof.Machine
end

