-- ==== Sys2Proof/Machine/Hostc.lean ====
section
/-! DEFINITION. The host complex: software interrupts, host-complex resets, the links of the crossings (09_command_queues.md R271-R273, R297-R299, 16_bringup_errors_test.md R507), loss of lock of an island (01_architecture.md R22), and the management port's link (12_krovmo_fabric.md R399). -/

namespace Sys2Proof.Machine

open Sys2Proof

/-- A block is enabled or disabled: CTRL.enable and STATUS.enabled. -/
def setEnabled (s : State) (p : Page) (v : Bool) : State := (s.wrF p 0x10 0 1 (b2n v)).wrF p 0x14 0 1 (b2n v)

/-! Software interrupts and host-complex resets. -/

/-- The external interrupt to the host cores (02_register_pages.md R55). -/
def hostIrq (s : State) : Bool := decide (s.rd pBunt 0x180 &&& s.rd pBunt 0x104 ≠ 0)

/-- Supervisor external interrupt pending in a hart: the interrupt condition holds and IRQ_HARTS names it (R272). -/
def hartSeip (s : State) (n : Nat) : Bool := hostIrq s && bit (s.rd pHostc (0x104 + 4 * (n / 32))) (n % 32)

/-- A control and status register of a hart as it reads (R270-R272): mhartid, the reference timebase, and the pending interrupts mip and sip with SEIP, SSIP and the Sstc comparison (numbers and bit places PRESUMED of the RISC-V privileged architecture, log entry 152); any other as it is stored. -/
def hartCsr (s : State) (n c : Nat) : Nat :=
  let h := s.hart n
  let mip := (h.c 0x344 - (h.c 0x344 &&& 0x222)) + 2 * b2n (bit s.ssip n) + 512 * b2n (hartSeip s n)
    + 32 * b2n (bit (h.c 0x30A) 63 && decide (h.c 0x14D ≤ s.ref))
  match c with
  | 0xF14 => n
  | 0xC01 => s.ref
  | 0x344 => mip
  | 0x144 => mip &&& h.c 0x303
  | _ => h.c c

/-- IPI_SET: SSIP of the named harts (R272). -/
def execIpiSet (w : Nat) (v : BitVec 32) (s : State) : Out :=
  onUnit (decide (w < 3)) (if served s && s.enabled pHostc then { s with ssip := s.ssip ||| v.toNat * 2 ^ (32 * w) } else s)

/-- The queues in use: bound ones in their order. -/
def boundQueues (s : State) : List Nat := (s.bind.bound.filter (fun p => decide (p.blk = .queue))).map (·.inst)

/-- A request comes from a hart. -/
def ofHart : Requester → Bool
  | .hart _ _ => true
  | _ => false

/-- The harts halt (R297): stores not yet performed are lost, and every line of their caches goes without being written back; their registers start over (log entry 152). -/
def hostStop (s : State) : State :=
  { s with
    hartsOn := 0
    ssip := 0
    harts := []
    hcache := ⟨[], [], []⟩
    mem := { s.mem with fillWait := s.mem.fillWait.filter (fun w => !ofHart w.req) } }

/-- A host-complex reset (R297): the harts halt, every request to the translation handler is withdrawn (10_translation.md R314), ARMED queues freeze, MBX_OWNER clears. -/
def hostReset (s : State) (cause : Nat) : State :=
  let s0 := setReqs (hostStop s) []
  let s1 := ((s0.inc pHostc 0x210 1).wr pHostc 0x214 cause).wr pPalur 0x300 0
  let s2 := (boundQueues s1).foldl (fun s q => if qState s q = 2 then raise (setQState s q 4) (pQueue q) 11 0 q else s) s1
  raise (raise s2 pQeng 8) pHostc 8 0 0xFFFF 0 [cause, 0, 0, 0]

/-- CTRL_HOST_RESET: HOSTC.CTRL.host_reset. -/
def execCtrlHostReset (s : State) : Out := .next (if served s && s.enabled pHostc then hostReset s 1 else s)

/-- The image of the active bank. -/
def activeImage (s : State) : Option Image := (s.store.banks[s.store.active]?).getD none

/-- Hart 0 starts in machine mode at an address, the others held (16_bringup_errors_test.md R507, R511). -/
def startHart0 (s : State) (entry : Nat) : State :=
  { s.setHart 0 { Hart.init with pc := entry } with hartsOn := 1, palur := { s.palur with entry := entry } }

/-- The host firmware component of the active image, as much of it as its region holds (16 R507). -/
def hostFw (s : State) : List Byte := match activeImage s with | some x => (Config.hostFirmware x.bytes).take (2 ^ 28) | none => []

/-- Palur writes the host firmware component to its region and starts hart 0 (16 R507). -/
def startHost (s : State) (entry : Nat) : State := startHart0 (memWrite s .hostDie 0 (hostFw s)).1 entry

/-- HART_RESTART: after a host-complex reset, once memory takes the component (01_architecture.md R22). -/
def execHartRestart (s : State) : Out :=
  .next (
    if alive s && s.palur.taken && decide (s.rdF pErrlog 0x220 0 2 = 0) && decide (powerState s ≤ 1) && decide (s.hartsOn = 0) && !memHeld s .hostDie 0 (hostFw s).length
    then startHost s 0 else s)

/-! Crossing links (R298, R299). -/

/-- The number of a crossing link, its page, its up register and bit; none for one that does not exist. -/
def xcNum : XC → Option (Nat × Page × Nat × Nat)
  | .xc1 d c => if d < 4 ∧ c < 16 then some (16 * d + c, pNet, 0x200 + 4 * (d / 2), 16 * (d % 2) + c) else none
  | .xc3 b c => if b < 12 ∧ c < 4 then some (64 + 4 * b + c, pNet, 0x208 + 4 * (b / 8), 4 * (b % 8) + c) else none
  | .xc4 c => if c < 16 then some (112 + c, pHostc, 0x218, c) else none

/-- The crossing link exists. -/
def xcOk (k : XC) : Bool := (xcNum k).isSome

/-- XC_LINK_ERROR: an up link retrains (R298). -/
def execXcLinkError (k : XC) (s : State) : Out :=
  onUnit (xcOk k)
    (match xcNum k with
     | none => s
     | some (n, p, off, b) =>
       if !alive s || !s.rdB p off b || s.xc.any (fun x => decide (x.1 = n)) then s
       else
         let s1 := { s with xc := s.xc ++ [(n, s.ref)] }
         if p.blk = .hostc then raise (s1.inc pHostc 0x21C 1) pHostc 9 0 0xFFFF 0 [n, 0, 0, 0]
         else raise (s1.inc pNet 0x210 1) pNet 8 0 0xFFFF 0 [n, 0, 0, 0])

/-- XC_RETRAIN_COMPLETE: the link carries traffic again; what it held is performed once. -/
def execXcRetrainComplete (k : XC) (s : State) : Out :=
  onUnit (xcOk k) (match xcNum k with | none => s | some (n, _) => { s with xc := s.xc.filter (fun x => decide (x.1 ≠ n)) })

/-- A queue-engine write held by an XC4 link that goes down fails its command (R299); which commands had one there is a free value for each that has begun or may begin and has not performed its writes. -/
def xc4FailCmd (s : State) (c : Cmd) : State :=
  if (c.op = 3 ∨ c.op = 4 ∨ c.op = 5) ∧ c.stage < 2 ∧ (c.begun || mayBegin s c) = true then
    let s1 := s.freeNext
    if freeVal s % 2 = 1 then
      raise (cmdFail (s1.modCmd c.uid (fun k => { k with begun := true })) c 0x38 0) (pQueue c.queue) 15 0x38 c.queue
    else s1
  else s

/-- Hart stores held by the link are lost (R299): how many, up to 64, and the address of the last are free values. -/
def xc4LoseStores (s : State) : State :=
  let n := freeVal s % 65
  let a := freeVal s.freeNext % 2 ^ 40
  let s1 := s.freeNext.freeNext
  if n = 0 then s1
  else (List.range n).foldl (fun s _ => raise s pHostc 11 0 0xFFFF a) ((s1.inc pHostc 0x220 n).wr64 pHostc 0x228 a)

/-- Hart loads and AMOs that wait on their way may be held by the link: a free value says for each whether it raises an access fault (R299). -/
def xc4FaultHarts (s : State) : State :=
  (List.range 96).foldl (fun s n =>
    match (s.hart n).wait with
    | some (a, st) => if freeVal s % 2 = 1 then hartFault s.freeNext n a st else s.freeNext
    | none => s) s

/-- A write of a block of a tile held by an XC1 or XC3 link that goes down fails back with HBM_UNAVAILABLE; whether a block had one there, and which, are free values. -/
def xcFailBlock (s : State) (t : Nat) (b : Block) : State :=
  let s1 := s.freeNext.freeNext.freeNext.freeNext
  if freeVal s % 2 = 1 then
    blockFault s1 t b 0x11 (freeVal s / 2 % 32) (freeVal s.freeNext % 2 ^ 32) (freeVal s.freeNext.freeNext % 2 ^ 64)
      (freeVal s.freeNext.freeNext.freeNext % 2 ^ 60)
  else s1

def xcFailBlocks (s : State) (t : Nat) : State := (s.tile t).blocks.foldl (fun s b => xcFailBlock s t b) s

/-- A tile DMA access held by an XC1 or XC3 link that goes down fails back with HBM_UNAVAILABLE; whether a transfer had one there, and whether it was a write, which later signals of its block would cover, are free values. -/
def xcFailDma (s : State) (t : Nat) : State :=
  (s.tile t).dma.jobs.foldl (fun s j =>
    if j.fail.isSome then s
    else if freeVal s % 2 = 1 then
      dmaFailJob (if freeVal s / 2 % 2 = 1 then dmaWriteLost s.freeNext t j.d 0x11 else s.freeNext) t j 0x11 0 0 0
    else s.freeNext) s

/-- XC_RETRAIN_TIMEOUT: 10 ms after its retrain began the link is declared down (R298, R299). -/
def execXcRetrainTimeout (k : XC) (s : State) : Out :=
  onUnit (xcOk k)
    (match xcNum k with
     | none => s
     | some (n, p, off, b) =>
       match s.xc.find? (fun x => decide (x.1 = n)) with
       | none => s
       | some x =>
         if !alive s || decide (s.ref < x.2 + 1000000) then s
         else
           let s1 := ({ s with xc := s.xc.filter (fun y => decide (y.1 ≠ n)) }.wrF p off b 1 0)
           if p.blk = .hostc then
             let s2 := raise (raise s1 pHostc 10 0 0xFFFF 0 [n, 0, 0, 0]) pNet 10 0 0xFFFF 0 [n, 0, 0, 0]
             let s3 := xc4FaultHarts (xc4LoseStores (s2.cmds.foldl xc4FailCmd s2))
             if s3.rdF pHostc 0x218 0 16 = 0 then moduleFatal s3 3 else s3
           else
             let s2 := raise (raise (s1.inc pNet 0x214 1) pNet 9 0 0xFFFF 0 [n, 0, 0, 0]) pNet 10 0 0xFFFF 0 [n, 0, 0, 0]
             let ts := match k with
               | .xc1 d _ => (List.range 40).map (fun i => 40 * d + i)
               | _ => List.range 160
             ts.foldl (fun s t => xcFailBlocks (xcFailDma s t) t) s2)

/-! Loss of lock, and the management port's link. -/

/-- The management port sends a frame, tagged with vlan_id where vlan_en is set (R399). -/
def mgmtSend (s : State) (f : MgmtFrame) : State :=
  { s with mgmt := { s.mgmt with sent := some (if s.rdB pMgmt 0x104 2 then some (s.rdF pMgmt 0x104 4 12) else none, f) } }

/-- The DHCPv4 client starts, if PORT_CFG.dhcp4 selects it: DISCOVER under a free transaction number (12_krovmo_fabric.md R396; RFC 2131, PRESUMED, log entry 166). -/
def dhcpStart (s : State) : State :=
  let s1 := { s with mgmt := { s.mgmt with dhcp := 0, lease := none } }
  if s1.rdB pMgmt 0x104 16 then
    let xid := freeVal s1 % 2 ^ 32
    mgmtSend { s1.freeNext with mgmt := { s1.mgmt with dhcp := 1, xid := xid } } (.discover xid)
  else s1

/-- A lease that has run out ends, and the client starts over. -/
def dhcpExpire (s : State) : State :=
  match s.mgmt.lease with
  | some (_, _, _, e) => if e ≤ s.ref ∧ s.rdB pMgmt 0x208 0 = true then dhcpStart s else s
  | none => s

/-- The management port goes down: PORT_DOWN, and PTP time enters HOLDOVER if LOCKED (R399, 13_binding_and_jobs.md R433). -/
def mgmtDown (s : State) : State :=
  if s.rdB pMgmt 0x208 0 then toHoldover (raise (s.wr pMgmt 0x208 0) pMgmt 9) else s

/-- MGMT_PORT_UP: the port's link comes up, the port being enabled; a DHCPv4 client starts. -/
def execMgmtPortUp (s : State) : Out :=
  .next (
    if s.up && s.enabled pMgmt && !s.rdB pMgmt 0x208 0 then dhcpStart (raise (s.wr pMgmt 0x208 (1 + 2 * s.rdF pMgmt 0x104 0 1)) pMgmt 8) else s)

/-- MGMT_PORT_DOWN. -/
def execMgmtPortDown (s : State) : Out := .next (if s.up then mgmtDown s else s)

/-- PLL_LOCK_LOSS: CLOCK_LOSS of the island's block, and the outcome of R22. -/
def execPllLockLoss (i : Island) (s : State) : Out :=
  match i with
  | .net => .next (if s.up then { moduleFatal (raise s pNet 5) 1 with netHalted := true } else s)
  | .phy st =>
    onUnit (decide (st < 12))
      (if !s.up then s
       else
         let s1 := raise s (pHbmc st) 5
         if s.mem.phyLost.any (fun x => decide (x.1 = st)) || s.mem.failed.contains st then s1
         else s1.modMem (fun m => { m with phyLost := m.phyLost ++ [(st, s.ref)] }))
  | .oe n =>
    onUnit (decide (n < 4))
      (if s.up then (List.range 8).foldl (fun s k => startRetrain s (8 * n + k) true) (raise s (pOe n) 5) else s)
  | .mgmt => .next (if s.up then mgmtDown (raise s pMgmt 5) else s)
  | .timebase => .next (if s.up then { moduleFatal (raise s pTime 5) 2 with refStopped := true } else s)

/-- RNG_HEALTH_FAIL: MODULE_FATAL; from then on every request that needs a random value is answered FAILED (15_security_firmware.md R467). -/
def execRngHealthFail (s : State) : Out := .next (if s.up then moduleFatal s 4 else s)

/-- PALUR_CHECK_FAILED (16 R522). -/
def execPalurCheckFailed (s : State) : Out := .next (if s.up then moduleFatal s 6 else s)

end Sys2Proof.Machine
end

