-- ==== Sys2Proof/Machine/Palur.lean ====
section
/-! DEFINITION. Palur: stage A and module reset (15_security_firmware.md R465, 16_bringup_errors_test.md R499, R508), stored settings (15 R483), the queue of requests with the mailbox and management sessions (09_command_queues.md R300-R303, 12_krovmo_fabric.md R396-R398, 15 R494), and the requests that read what Palur holds (GET_INFO, GET_RESULT, ERRLOG_READ). -/

namespace Sys2Proof.Machine

open Sys2Proof

def State.modStore (s : State) (f : Store → Store) : State := { s with store := f s.store }
def State.modPalur (s : State) (f : PalurSt → PalurSt) : State := { s with palur := f s.palur }

/-! Images (R470-R475). -/

/-- Fields of an image header by byte offset. -/
def Image.le (x : Image) (off n : Nat) : Nat := leAt x.bytes off n
/-- hdr_len of a sound image. -/
def hdrLen (b : List Byte) : Nat := if leAt b 4 1 = 1 then 256 else 512
/-- Version, class, svn, newest settings and calibration layouts, with what R472 takes for a version 1 header. -/
def Image.version (x : Image) : Nat := x.le 0x10 3
def Image.class (x : Image) : Nat := x.le 5 1
def Image.svn (x : Image) : Nat := if x.le 4 1 = 1 then 0 else x.le 0x14 4
def Image.setLay (x : Image) : Nat := if x.le 4 1 = 1 then 1 else x.le 0x70 2
def Image.calLay (x : Image) : Nat := if x.le 4 1 = 1 then 1 else x.le 0x72 2
def Image.build (x : Image) : Nat := if x.le 4 1 = 1 then 0 else x.le 0x78 8

/-- The bank that is not active, and its image. -/
def otherBank (s : State) : Nat := 1 - s.store.active
def stagedImage (s : State) : Option Image := (s.store.banks[otherBank s]?).getD none

/-- Engineering images are permitted (R495). -/
def engOk (s : State) : Bool := decide (debugState s = 2)

/-- The class of an image is permitted in the current state. -/
def classOk (s : State) (x : Image) : Bool := decide (x.class = 0) || engOk s

/-- A key slot is revoked. -/
def keyRevoked (s : State) (slot : Nat) : Bool := bit s.store.revoked slot

/-- What a check of an image in a bank finds at a start or an activation (R465, R475, R481): 0, or its result code. -/
def startCheck (s : State) (x : Image) : Nat :=
  if !classOk s x then 5 else if keyRevoked s (x.le 0xC 1) then 7 else if !x.sound then 8 else if x.svn < s.store.minSvn then 6 else 0

/-! Stored settings (R483, R497, R399). -/

/-- Words written into both sets of a page. -/
def loadSets (s : State) (p : Page) (l : List Nat) : State :=
  (List.range l.length).foldl (fun s i => (s.wr p (0x100 + 4 * i) ((l[i]?).getD 0)).wr p (0x900 + 4 * i) ((l[i]?).getD 0)) s

/-- The active set of a page. -/
def activeSet (s : State) (p : Page) : List Nat := (List.range (caps p.blk).words).map (fun i => s.rd p (0x100 + 4 * i))

/-- MGMT and PALUR take their stored sets. -/
def loadStored (s : State) : State := loadSets (loadSets s pMgmt s.store.mgmtSet) pPalur s.store.palurSet

/-- The settings records by number, in record order: 0 the MGMT set, 1 the PALUR set, 2 mapped-out pseudo-channels and retired rows, 3 the calibration set. -/
def recOf (s : State) : Nat → KeptRec
  | 0 => ⟨s.store.mgmtLay, s.store.mgmtSet, [], [], []⟩
  | 1 => ⟨s.store.palurLay, s.store.palurSet, [], [], []⟩
  | 2 => ⟨s.store.rowsLay, s.store.mapped, s.store.retCounts, s.mem.retired, []⟩
  | _ => ⟨leAt s.store.calib 0 2, [], [], [], s.store.calib⟩

/-- A record is written. -/
def putRec (s : State) (k : Nat) (r : KeptRec) : State :=
  match k with
  | 0 => s.modStore (fun x => { x with mgmtSet := r.words, mgmtLay := r.lay })
  | 1 => s.modStore (fun x => { x with palurSet := r.words, palurLay := r.lay })
  | 2 => { s.modStore (fun x => { x with mapped := r.words, retCounts := r.counts, rowsLay := r.lay }) with mem := { s.mem with retired := r.rows } }
  | _ => s.modStore (fun x => { x with calib := r.calib })

/-- What a module is shipped with of a record: no pseudo-channel mapped out and no row retired. -/
def shippedRec : Nat → KeptRec
  | 0 => ⟨3, shippedMgmt, [], [], []⟩
  | 1 => ⟨3, shippedPalur, [], [], []⟩
  | 2 => ⟨3, [], [], [], []⟩
  | _ => ⟨1, [], [], [], factoryCal⟩

/-- A record in another layout: its values stay, a calibration set's layout field and CRC follow. -/
def toLay (k n : Nat) (r : KeptRec) : KeptRec :=
  let c := putBytes r.calib 0 (toLE 2 n)
  { r with lay := n, calib := if k < 3 then r.calib else putBytes c 0x1FFC (toLE 4 (crc32 (c.take 0x1FFC))) }

/-- A record of an older layout is migrated; with the modified flag clear the factory CRC follows the calibration set (R483, R486). -/
def migrateRec (s : State) (k n : Nat) : State :=
  let r := toLay k n (recOf s k)
  let s1 := putRec s k r
  raise (if k = 3 ∧ s.store.modified = false then s1.modStore (fun x => { x with factoryCrc := leAt r.calib 0x1FFC 4, crcLayout := n }) else s1) pPalur 18

/-- A record kept aside whose layout is implemented again is the record again. -/
def reuseRec (s : State) (k n : Nat) : State :=
  match s.store.kept.find? (fun y => decide (y.1 = k ∧ y.2.lay ≤ n)) with
  | some y => putRec (s.modStore (fun x => { x with kept := lremoveFirst (fun z => decide (z = y)) x.kept })) k y.2
  | none => s

/-- How an image treats one record (R483): a record kept aside is used again where its layout is implemented; one whose own check fails is replaced with shipped values; a newer one is kept unchanged and not used; an older one is migrated. While the module runs (`live`), mapped-out pseudo-channels and retired rows stay in use as they are. -/
def settleRec (x : Image) (live : Bool) (s : State) (k : Nat) : State :=
  let n := if k = 3 then x.calLay else x.setLay
  if live ∧ k = 2 then
    if n < s.store.rowsLay then raise s pPalur 19 else if s.store.rowsLay < n then migrateRec s k n else s
  else
    let s1 := reuseRec s k n
    let ship := toLay k n (shippedRec k)
    if s1.store.badRecs.contains k then raise (putRec (s1.modStore (fun r => { r with badRecs := sremove k r.badRecs })) k ship) pPalur 20
    else if n < (recOf s1 k).lay then raise (putRec (s1.modStore (fun r => { r with kept := (k, recOf s1 k) :: r.kept })) k ship) pPalur 19
    else if (recOf s1 k).lay < n then migrateRec s1 k n
    else s1

/-- The records as an image treats them. -/
def settleRecs (x : Image) (live : Bool) (s : State) : State := (List.range 4).foldl (settleRec x live) s

/-- A page takes its stored set where it differs from the active one. -/
def refreshSet (s : State) (p : Page) (l : List Nat) : State := if activeSet s p = l then s else loadSets s p l

/-- An activation's new image treats the records (R479); MGMT and PALUR take what it changes of their sets. -/
def settleLive (s : State) (x : Image) : State :=
  let s1 := settleRecs x true s
  refreshSet (refreshSet s1 pMgmt s1.store.mgmtSet) pPalur s1.store.palurSet

/-- A start of an image treats the records, and MGMT and PALUR take their stored sets. -/
def settle (s : State) (x : Image) : State := loadStored (settleRecs x false s)

/-! Stage A (R499, R500) and module reset (R508). -/

/-- The persistent registers of the stacks, and MEM_END as the stored map-outs leave it (11_memory_system.md R332, R351, R362). -/
def loadStacks (s : State) : State :=
  let s0 := (List.range 12).foldl (fun s st => s.wr64 (pHbmc st) 0x248 ((768 - s.store.mapped.length) * pcBytes)) s
  let s1 := s0.store.mapped.foldl (fun s n => s.wr64 (pHbmc (n / 64)) 0x230 (s.rd64 (pHbmc (n / 64)) 0x230 ||| 2 ^ (n % 64))) s
  s1.store.retCounts.foldl (fun s x => s.wrF (pHbmc (x.1 / 64)) (0x300 + 4 * (x.1 % 64 / 4)) (8 * (x.1 % 4)) 8 x.2) s1

/-- The end of stage A: the base and host supplies are on (01_architecture.md R12), the register space is served, the blocks of R500 enabled, a loss of power flagged. -/
def stageEnd (s : State) (rom : Bool) : State :=
  let s1 := ({ s with up := true, power := { s.power with baseMv := 750, hostMv := 750 } }).modPalur (fun k => { k with rom := rom, stageAt := s.ref })
  let s2 := [pPalur, pTime, pBunt, pErrlog].foldl (fun s p => setEnabled s p true) (loadStacks s1)
  let s3 := if s2.rdB pMgmt 0x104 1 then setEnabled s2 pMgmt true else s2
  if s3.store.lossDue then (raise s3 pPower 14).modStore (fun r => { r with lossDue := false }) else s3

/-- Stage A from step 2 (R465, R499): the active bank starts, or the other with FW_REVERTED, or Palur stays in ROM recovery. -/
def stageA (s : State) : State :=
  let a := activeImage s
  let b := stagedImage s
  match a.map (startCheck s), b.map (startCheck s) with
  | some 0, _ => match a with | some x => stageEnd (settle s x) false | none => s
  | _, some 0 =>
    match b with
    | some x => raise (stageEnd (settle (s.modStore (fun r => { r with active := 1 - r.active, staged := false, stagedBad := true })) x) false) pPalur 12
    | none => s
  | _, _ => stageEnd (loadStored s) true

/-- INPUT_QUALIFIED: the input has qualified for 100 ms; the reference timebase starts from zero (R436, R499). -/
def execInputQualified (s : State) : Out :=
  .next (if s.up || s.power.sleepOff then s else stageA { s with ref := 0 })

/-- A module reset (R508): every block at its reset values, contents and bindings lost, the store kept; stage A from step 2. The timebase counts on. -/
def moduleReset (s : State) : State :=
  let f := flushClass3 s
  stageA { State.reset with
    pending := s.pending
    free := s.free
    ref := s.ref
    mem := { MemSys.init with retired := s.mem.retired, rowRep := s.mem.rowRep, bankSpare := s.mem.bankSpare }
    store := f.store
    palur := { PalurSt.init with draws := s.palur.draws, reports := s.palur.reports }
    power := { PowerSt.init with low := s.power.low, high := s.power.high } }

/-- A module reset ends a debug state, which DEBUG_ENDED shows after it (15 R493). -/
def resetEndsDebug (s : State) : State :=
  if s.palur.debug = 0 then moduleReset s else raise (moduleReset s) pPalur 15

/-! Requests (R301-R303). -/

/-- Fields of a request. -/
def PReq.le (r : PReq) (off n : Nat) : Nat := leAt r.msg off n
def PReq.cmd (r : PReq) : Nat := r.le 1 1
def PReq.len (r : PReq) : Nat := r.le 2 1
def PReq.arg (r : PReq) : Nat := r.le 8 1

/-- The lowest bits of the byte at 0x08 select among the rows of some commands; those that have one of their own. -/
def hasSub (cmd : Nat) : Bool := [0x11, 0x20, 0x30, 0x31, 0x50, 0x71].contains cmd

/-- The row of a request: command and selector. -/
def PReq.row (r : PReq) : Nat := 256 * r.cmd + (if hasSub r.cmd then r.arg else 0)

/-- The payload bytes that the fields of a request reach. -/
def needLen (r : PReq) : Nat :=
  match r.cmd with
  | 0x10 => 12
  | 0x11 => if r.arg = 2 then 16 else 1
  | 0x20 => if r.arg = 0 then 20 else if r.arg = 1 then 8 + r.le 0xA 2 else 1
  | 0x21 => 1
  | 0x30 => if r.arg < 2 then 28 else 1
  | 0x31 => if r.arg = 0 then (if r.le 9 1 = 0 then 21 else 9 + r.le 0xB 2) else if r.arg = 3 then 40 else 1
  | 0x50 => if r.arg = 0 then 56 else 8
  | 0x60 => 8
  | 0x70 => 8
  | 0x71 => if r.arg = 0 then 8 + r.le 0xA 2 else if r.arg = 1 then 8 else 1
  | _ => 0

/-- A reserved bit or value is set in the payload. -/
def badPayload (r : PReq) : Bool :=
  let n := r.le 0xA 2
  let badN := decide (n = 0 ∨ 240 < n)
  match r.cmd with
  | 0x10 => decide (1 < r.le 0x10 4)
  | 0x11 => decide (r.arg = 0 ∨ 3 < r.arg)
  | 0x20 => decide (2 < r.arg) || (decide (r.arg = 1) && (decide (1 < r.le 9 1) || badN))
  | 0x21 => decide (1 < r.arg)
  | 0x30 => decide (2 < r.arg)
  | 0x31 => decide (4 < r.arg) || (decide (r.arg = 0) && (decide (1 < r.le 9 1) || (decide (r.le 9 1 = 1) && (decide (1 < r.le 0xA 1) || decide (r.le 0xB 2 = 0 ∨ 240 < r.le 0xB 2)))))
  | 0x50 => decide (2 < r.arg) || (decide (r.arg ≠ 0) && badN)
  | 0x60 => decide (2 < r.le 8 4)
  | 0x70 => decide (1 < r.arg) || badN
  | 0x71 => decide (2 < r.arg) || (decide (r.arg = 0) && badN)
  | _ => false

/-- The commands of R302. -/
def knownCmd (c : Nat) : Bool := [1, 2, 0x10, 0x11, 0x12, 0x20, 0x21, 0x30, 0x31, 0x40, 0x41, 0x50, 0x60, 0x70, 0x71].contains c

/-- The answer to a request that no command takes: BAD_VERSION, BAD_LEN or UNKNOWN_CMD with its payload (R301). -/
def malformed (r : PReq) : Option (Nat × List Byte) :=
  if r.le 0 1 ≠ 1 then some (6, [1, 1])
  else if r.le 5 3 ≠ 0 ∨ 248 < r.len then some (3, [])
  else if !knownCmd r.cmd then some (2, [])
  else if r.len < needLen r ∨ badPayload r = true then some (3, [])
  else none

/-- The response message (R301). -/
def rspMsg (r : PReq) (status : Nat) (payload : List Byte) : List Byte :=
  toLE 1 1 ++ toLE 1 r.cmd ++ toLE 1 payload.length ++ toLE 2 (r.le 3 2) ++ toLE 1 status ++ [0, 0] ++ payload

/-- The key of a management session (R494). -/
def sessKey (s : State) (σ : Nat) : List Byte := (Config.sha384 (s.store.mgmtKey.getD [] ++ toLE 4 σ ++ (s.store.burgee.drop 8).take 8)).take 32

/-- A datagram of a session with its envelope (12_krovmo_fabric.md R398). -/
def datagram (s : State) (kind σ seq : Nat) (msg : List Byte) : List Byte :=
  let env := toLE 1 1 ++ toLE 1 kind ++ toLE 2 msg.length ++ toLE 4 σ ++ toLE 8 seq
  env ++ Config.gcmSeal (sessKey s σ) (toLE 4 σ ++ toLE 8 seq) env msg

/-- A request is answered: in MBX_RSP with busy clear and MBX_DONE, or by a datagram (R303, R398). -/
def reply (s : State) (r : PReq) (status : Nat) (payload : List Byte := []) : State :=
  let m := rspMsg r status payload
  match r.session with
  | none =>
    let b := slice m 0 256
    raise (((List.range 64).foldl (fun s i => s.wr pPalur (0x500 + 4 * i) (leAt b (4 * i) 4)) s).wrF pPalur 0x308 0 1 0) pPalur 8
  | some (σ, seq) => s.modPalur (fun k => { k with sent := datagram s 1 σ (seq + 2 ^ 63) m })

/-- What GET_RESULT reads from now on: a code and an image offset (R475). -/
def setResult (s : State) (code off : Nat) : State := s.modPalur (fun k => { k with result := toLE 1 code ++ toLE 4 off })

/-- A request is answered FAILED with a result code. -/
def failed (s : State) (r : PReq) (code : Nat) : State := reply (setResult s code 0) r 7

/-- Palur can take the request: not during an activation's pause, the mailbox in P0 and P1 only (R480, R495). -/
def canServe (s : State) (r : PReq) : Bool := s.up && !s.paused && (r.session.isSome || decide (powerState s ≤ 1))

/-- Malformed requests at the head are answered, as many as there are. -/
def serveBad : Nat → State → State
  | 0, s => s
  | n + 1, s =>
    match s.palur.reqs with
    | [] => s
    | r :: rest =>
      match malformed r with
      | some (st, pl) => if canServe s r then serveBad n (reply (s.modPalur (fun k => { k with reqs := rest })) r st pl) else s
      | none => s

/-- Requests at the head that no command takes are answered now. -/
def serveRest (s : State) : State := serveBad s.palur.reqs.length s

/-- The request at the head, where it is of a row and Palur can take it. -/
def headReq (s : State) (row : Nat) : Option PReq :=
  match s.palur.reqs with
  | r :: _ => if canServe s r && (malformed r).isNone && decide (r.row = row) then some r else none
  | [] => none

/-- The commands served in the fatal state (R522), in ROM recovery (R465), and after a failed bring-up (R505). -/
def fatalServes (c : Nat) : Bool := [1, 2, 0x41, 0x50, 0x60].contains c
def romServes (c : Nat) : Bool := [1, 2, 0x20, 0x21, 0x50].contains c
def failedServes (c : Nat) : Bool := [1, 2, 0x20, 0x21, 0x41, 0x50, 0x60].contains c

/-- The function is denied by the state table (R495): over the management port without its SEC_CFG bit, in P2, in ROM recovery, after a failed bring-up. -/
def denied (s : State) (r : PReq) : Bool :=
  let sec (b : Nat) : Bool := r.session.isSome && !s.rdB pPalur 0x104 b
  (s.palur.rom && !romServes r.cmd)
  || (decide (s.rdF pErrlog 0x220 0 2 = 1) && !failedServes r.cmd && decide (r.cmd ≠ 0x10))
  || ((decide (r.cmd = 0x20) || decide (r.cmd = 0x21)) && sec 0)
  || (decide (r.cmd = 0x71) && sec 1)
  || (decide (r.cmd = 0x31) && sec 2)
  || ((decide (r.cmd = 0x21) || decide (r.cmd = 0x31)) && decide (2 ≤ powerState s))

/-- Palur takes the request at the head if it is of the row: answered for the fatal state, denied, or served by `f`; then requests that no command takes are answered. -/
def serveReq (row : Nat) (s : State) (f : PReq → State → State) : Out :=
  .next (
    match headReq s row with
    | none => s
    | some r =>
      let s1 := s.modPalur (fun k => { k with reqs := k.reqs.tail })
      serveRest (
        if s.rdF pErrlog 0x220 0 2 = 2 ∧ fatalServes r.cmd = false then failed s1 r 0x1E
        else if denied s1 r then reply s1 r 4
        else f r s1))

/-- A request that starts a long operation: BUSY while another runs (R301). -/
def serveLong (row : Nat) (s : State) (f : PReq → State → State) : Out :=
  serveReq row s (fun r s => if s.palur.long.isSome then reply s r 5 else f r s)

/-- Palur's long operation starts, with its unit (R497). -/
def longStart (s : State) (x : LongOp) (unit shift : Nat) : State := (opStart s pPalur unit shift).modPalur (fun k => { k with long := some x })

/-- It completes at a position. -/
def longDone (s : State) (pos : Nat) : State := opDone (s.modPalur (fun k => { k with long := none })) pPalur pos 1

/-- It fails with a result. -/
def longFail (s : State) (code off : Nat) : State := opFail ((setResult s code off).modPalur (fun k => { k with long := none })) pPalur

/-! The mailbox and the management port (R300, R396-R398, R494). -/

/-- MBX_OWNER_WRITE: 1-96 takes a free mailbox, 0 frees it; other values are reserved (R300). -/
def execMbxOwnerWrite (v : BitVec 8) (s : State) : Out :=
  .next (
    if !served s then s
    else if 96 < v.toNat then illegalWrite s pPalur
    else if v = 0 ∨ s.rd pPalur 0x300 = 0 then s.wr pPalur 0x300 v.toNat
    else s)

/-- MBX_GO: the request buffer is submitted, or the go discarded with go_refused. -/
def execMbxGo (s : State) : Out :=
  .next (
    if !served s then s
    else if s.rd pPalur 0x300 = 0 ∨ s.rdB pPalur 0x308 0 = true then s.wrF pPalur 0x308 1 1 1
    else
      let m := ((List.range 64).map (fun i => toLE 4 (s.rd pPalur (0x400 + 4 * i)))).foldl (· ++ ·) []
      serveRest ((s.wr pPalur 0x308 1).modPalur (fun k => { k with reqs := k.reqs ++ [⟨none, m⟩] })))

/-- The management port takes frames: enabled and up. -/
def mgmtHears (s : State) : Bool := s.up && s.enabled pMgmt && s.rdB pMgmt 0x208 0

/-- A datagram that is not authentic is discarded and counted. -/
def authFail (s : State) : State := raise (s.inc pMgmt 0x218 1) pMgmt 10

/-- An authentic request: replayed, or accepted into the queue; a session may open with it, closing the oldest of nine (R494). -/
def acceptDatagram (s : State) (σ seq : Nat) (msg : List Byte) : State :=
  let old := s.palur.sessions.find? (fun x => decide (x.1 = σ))
  match old with
  | some x =>
    if seq ≤ x.2 then raise (s.inc pMgmt 0x21C 1) pMgmt 11
    else serveRest ((s.inc pMgmt 0x220 1).modPalur (fun k => { k with
      sessions := lupdate (fun y : Nat × Nat => decide (y.1 = σ)) (fun _ => (σ, seq)) k.sessions
      reqs := k.reqs ++ [⟨some (σ, seq), slice msg 0 256⟩] }))
  | none =>
    let s1 := s.modStore (fun r => { r with sessHigh := σ })
    serveRest ((s1.inc pMgmt 0x220 1).modPalur (fun k => { k with
      sessions := lastN 8 (k.sessions ++ [(σ, seq)])
      reqs := k.reqs ++ [⟨some (σ, seq), slice msg 0 256⟩] }))

/-- MGMT_DATAGRAM: a datagram to UDP port 47 421 (R398). -/
def execMgmtDatagram (d : List Byte) (s : State) : Out :=
  .next (
    if !mgmtHears s then s
    else
      let s1 := s.inc pMgmt 0x210 1
      let σ := leAt d 4 4
      let seq := leAt d 8 8
      if s.store.mgmtKey.isNone then authFail s1
      else if d.length < 16 then authFail s1
      else if leAt d 0 1 ≠ 1 then
        s1.modPalur (fun k => { k with sent := toLE 1 1 ++ toLE 1 2 ++ toLE 2 2 ++ toLE 4 σ ++ toLE 8 seq ++ [1, 1] })
      else if leAt d 1 1 ≠ 0 ∨ 2 ^ 63 ≤ seq ∨ d.length ≠ leAt d 2 2 + 32 ∨ leAt d 2 2 < 8 ∨ 256 < leAt d 2 2 then authFail s1
      else if σ ≤ s.store.sessHigh ∧ (s.palur.sessions.any (fun x => decide (x.1 = σ))) = false then authFail s1
      else match Config.openSealed (sessKey s σ) (toLE 4 σ ++ toLE 8 seq) (d.take 16) ((d.drop 16).take (leAt d 2 2)) (d.drop (16 + leAt d 2 2)) with
        | none => authFail s1
        | some m => acceptDatagram s1 σ seq m)

/-- The port's MAC address (15_security_firmware.md R487). -/
def portMac (s : State) : Nat := leAt s.store.burgee 0x10 6

/-- The port's IPv4 address: of the lease, or static. -/
def portIp4 (s : State) : Option Nat :=
  if s.rdB pMgmt 0x104 16 then s.mgmt.lease.map (·.1) else some (s.rd pMgmt 0x10C)

/-- The link-local address with the modified EUI-64 of the MAC address (R396; the MAC's most significant byte is its first octet, log entry 166). -/
def linkLocal (s : State) : Nat :=
  0xFE80 * 2 ^ 112 + ((portMac s / 2 ^ 24) ^^^ 0x020000) * 2 ^ 40 + 0xFFFE * 2 ^ 24 + portMac s % 2 ^ 24

/-- The static IPv6 address, word 0 least significant (R399). -/
def staticIp6 (s : State) : Nat := s.rd64 pMgmt 0x118 + 2 ^ 64 * s.rd64 pMgmt 0x120

/-- An IPv6 address of the port. -/
def ownIp6 (s : State) (a : Nat) : Bool := decide (a = linkLocal s) || (decide (a = staticIp6 s) && decide (a ≠ 0))

/-- A message to the DHCPv4 client (RFC 2131, PRESUMED, log entry 166): an offer is requested, an acknowledgement gives the lease, a refusal starts over; anything else is passed over. -/
def dhcpHears (s : State) (kind : DhcpKind) (xid addr server plen gateway secs : Nat) : State :=
  if s.rdB pMgmt 0x104 16 = false ∨ xid ≠ s.mgmt.xid then s
  else match kind with
  | .offer => if s.mgmt.dhcp = 1 then mgmtSend { s with mgmt := { s.mgmt with dhcp := 2 } } (.request xid addr server) else s
  | .ack =>
    if s.mgmt.dhcp = 2 then { s with mgmt := { s.mgmt with dhcp := 3, lease := some (addr, plen, gateway, s.ref + 100000000 * secs) } } else s
  | .nak => if s.mgmt.dhcp = 2 then dhcpStart s else s

/-- What the port does with a frame that is none of its datagrams or PTP messages (R396): it answers what asks for one of its addresses, and discards and counts any other frame. -/
def frameHeard (k : FrameKind) (s : State) : State :=
  match k with
  | .other => s.inc pMgmt 0x214 1
  | .arp request mac _ target => if request && decide (portIp4 s = some target.toNat) then mgmtSend s (.arp target.toNat (portMac s) mac.toNat) else s
  | .ndp solicit source target => if solicit && ownIp6 s target.toNat then mgmtSend s (.ndp target.toNat (portMac s) source.toNat) else s
  | .icmp v6 request source target data =>
    if request && (if v6 then ownIp6 s target.toNat else decide (portIp4 s = some target.toNat)) then
      mgmtSend s (.echo v6 target.toNat source.toNat data)
    else s
  | .dhcp kind xid addr server plen gateway secs => dhcpHears s kind xid.toNat addr.toNat server.toNat plen gateway.toNat secs

/-- MGMT_FRAME: a frame other than a datagram or a PTP message (R396). -/
def execMgmtFrame (k : FrameKind) (s : State) : Out :=
  .next (if !mgmtHears s then s else frameHeard k (s.inc pMgmt 0x210 1))

/-! What Palur tells (R302, R303, R521). -/

/-- GET_INFO: the versions of firmware, image header, command format and Krovmo protocol, and the build; how they are laid out is a free value. -/
def execGetInfo (s : State) : Out :=
  serveReq 0x0100 s (fun r s =>
    let x := activeImage s
    reply s r 0 ((Config.infoBytes [(x.map Image.version).getD 0, 1, 2, 1, 3, 1, 3, (x.map Image.build).getD 0]).take 248))

/-- GET_RESULT: the result of the last long operation. -/
def execGetResult (s : State) : Out := serveReq 0x0200 s (fun r s => reply s r 0 s.palur.result)

/-- The retirement records that Palur keeps, numbered from 1. -/
def retList (s : State) : List (Nat × List Byte) :=
  (List.range s.mem.retired.length).filterMap (fun i => (s.mem.retired[i]?).map (fun x => (i + 1, retBytes s (i + 1) x)))

/-- ERRLOG_READ: up to three records of a list, from a seq on. -/
def execErrlogRead (s : State) : Out :=
  serveReq 0x6000 s (fun r s =>
    let l := match r.arg with | 0 => s.log.recent | 1 => s.store.class3 | _ => retList s
    let first := r.le 0xC 4
    let found := (l.filter (fun x => decide (first ≤ x.1))).take 3
    let next := match found.getLast? with | some x => (x.1 + 1) % 2 ^ 32 | none => first
    reply s r 0 (toLE 4 found.length ++ toLE 4 next ++ (found.map (·.2)).foldl (· ++ ·) []))

/-- HOST_RESET: answered OK, then the reset begins (R302). -/
def execHostReset (s : State) : Out :=
  serveReq 0x4000 s (fun r s => hostReset (reply s r 0) (if r.session.isSome then 3 else 2))

/-- MODULE_RESET: answered OK, then the reset begins (R508). -/
def execModuleReset (s : State) : Out := serveReq 0x4100 s (fun r s => resetEndsDebug (reply s r 0))

end Sys2Proof.Machine
end

