-- ==== Sys2Proof/Machine/Firmware.lean ====
section
/-! DEFINITION. Palur's requests about firmware, tokens, attestation and calibration (15_security_firmware.md R475-R496). -/

namespace Sys2Proof.Machine

open Sys2Proof

/-! Checking an image (R471-R475). -/

/-- A reserved bit or value of a header, with the offset concerned; hdr_len and body_len with it (R471, R472). -/
def hdrInvalid (b : List Byte) : Option Nat :=
  let v1 := decide (leAt b 4 1 = 1)
  let zero (off n : Nat) : Bool := allZero (slice b off n)
  if leAt b 6 2 ≠ hdrLen b then some 6
  else if (v1 && decide (leAt b 5 1 ≠ 0)) || decide (1 < leAt b 5 1) then some 5
  else if 3 < leAt b 0xC 1 then some 0xC
  else if !zero 0xD 3 then some 0xD
  else if !zero 0x13 1 then some 0x13
  else if v1 && !zero 0x14 4 then some 0x14
  else if leAt b 0x18 8 = 0 ∨ 67091744 < leAt b 0x18 8 then some 0x18
  else if !zero 0x2C 4 then some 0x2C
  else if v1 && !zero 0x70 4 then some 0x70
  else if !zero 0x74 4 then some 0x74
  else if v1 && !zero 0x78 8 then some 0x78
  else if !zero 0x80 (hdrLen b - 0x80) then some 0x80
  else none

/-- A vendor signature pair over a message (R473): 0, or SIG_RSA or SIG_SLH. -/
def sigCheck (slot : Nat) (msg rsa slh : List Byte) : Nat :=
  if !Config.sigOk (Config.vendorKey 0 slot) msg rsa then 8 else if !Config.sigOk (Config.vendorKey 1 slot) msg slh then 9 else 0

/-- Checks 1-9 of R475: result code and image offset. -/
def headerCheck (s : State) (b : List Byte) : Nat × Nat :=
  let h := hdrLen b
  let x : Image := ⟨b, false⟩
  if leAt b 0 4 ≠ 0x4B414E52 then (1, 0)
  else if leAt b 4 1 ≠ 1 ∧ leAt b 4 1 ≠ 2 then (2, 4)
  else match hdrInvalid b with
    | some o => (3, o)
    | none =>
      if leAt b 8 4 ≠ 0x9740 then (4, 8)
      else if !classOk s x then (5, 5)
      else if keyRevoked s (leAt b 0xC 1) then (7, 0xC)
      else
        let g := sigCheck (leAt b 0xC 1) (b.take h) (slice b h 384) (slice b (h + 384) 16224)
        if g = 8 then (8, h) else if g = 9 then (9, h + 384)
        else if x.svn < s.store.minSvn then (6, 0x14) else (0, 0)

/-- The whole file: the header's checks, then the body's (R474, R475). -/
def imageCheck (s : State) (b : List Byte) : Nat × Nat :=
  let h := hdrLen b
  if b.length < h + 16608 then (0xA, b.length)
  else match headerCheck s b with
    | (0, _) =>
      let n := leAt b 0x18 8
      if b.length < h + 16608 + n then (0xA, b.length)
      else
        let body := slice b (h + 16608) n
        if Config.sha384 body ≠ slice b 0x40 48 then (0xB, 0x40)
        else if (Config.openSealed Config.imageKey (slice b 0x20 12) (b.take h) body (slice b 0x30 16)).isNone then (0xC, 0x30)
        else (0, 0)
    | e => e

/-- A file in host memory (R476): its bytes, or SOURCE where it is misplaced, or SOURCE_UNCORRECTABLE. -/
def readFile (s : State) (a n : Nat) : State × Except (Nat × Nat) (List Byte) :=
  let bound := (List.range 32).any (fun r => decide (rgnState s r = 2) &&
    (let lo := s.rdF pHoist (0x400 + 16 * r) 0 19 * 2 ^ 21
     let len := s.rdF pHoist (0x404 + 16 * r) 0 19 * 2 ^ 21
     decide (lo < a + n ∧ a < lo + len)))
  if a % 64 ≠ 0 ∨ memEnd s < a + n ∨ bound = true then (s, .error (0xA, 0))
  else match memRead s .hostDie a n with
    | (s1, .ok l) => (s1, .ok l)
    | (s1, .error f) => (s1, .error (if f.1 = 0x10 then 0xD else 0xA, f.2 - a))

/-! Staging (R476-R478). -/

/-- The staging bank takes what it is given. -/
def setStaged (s : State) (x : Option Image) : State := s.modStore (fun r => { r with banks := lset r.banks (1 - r.active) x, staged := x.isSome, stagedBad := false })

/-- A staging starts: the staging bank is empty from then on. -/
def stageStart (s : State) (x : LongOp) : State := longStart (setStaged s none) x 1 16

/-- A staging fails: FW_REFUSED and OP_FAILED. -/
def stageFail (s : State) (code off : Nat) : State := longFail (raise s pPalur 10) code off

/-- FW_STAGE_HOST: form 0. -/
def execFwStageHost (s : State) : Out :=
  serveLong 0x2000 s (fun r s => stageStart (reply s r 1) (.stage (some (r.le 0x10 5, r.le 0x18 4)) [] s.ref false))

/-- PROGRESS of a chunked staging: 64 KiB units of the file. -/
def chunkProgress (s : State) (got : List Byte) : State :=
  let h := hdrLen got
  if got.length < h then s else opProgress s pPalur got.length (h + 16608 + leAt got 0x18 8) 65536

/-- A chunk of a staging in progress, or the first: `got` is what came before (R476). -/
def takeChunk (r : PReq) (got : List Byte) (s : State) : State :=
  let b := got ++ (r.msg.drop 0x10).take (r.le 0xA 2)
  let last := bit (r.le 9 1) 0
  let h := hdrLen b + 16608
  let crossing := decide (got.length < h ∧ h ≤ b.length)
  let e := if crossing then headerCheck s b else (0, 0)
  let s1 := chunkProgress (s.modPalur (fun k => { k with long := some (.stage none b s.ref last) })) b
  if e.1 ≠ 0 then stageFail (reply s1 r 7) e.1 e.2
  else reply s1 r (if last then 1 else 0)

/-- FW_STAGE_CHUNK: form 1. -/
def execFwStageChunk (s : State) : Out :=
  serveReq 0x2001 s (fun r s =>
    match s.palur.long with
    | none => if r.le 0xC 4 = 0 then takeChunk r [] (stageStart s (.stage none [] s.ref false)) else failed s r 0xA
    | some (.stage none got _ false) =>
      if r.le 0xC 4 = got.length then takeChunk r got s else stageFail (reply s r 7) 0xA got.length
    | some _ => reply s r 5)

/-- FW_STAGE_ABORT: form 2 ends a staging in progress with SOURCE. -/
def execFwStageAbort (s : State) : Out :=
  serveReq 0x2002 s (fun r s =>
    match s.palur.long with
    | some (.stage _ _ _ _) => stageFail (reply s r 0) 0xA 0
    | _ => reply s r 0)

/-- The file that a staging or a presentation checks, once it is all there. -/
def longSource (s : State) : State × Option (Except (Nat × Nat) (List Byte)) :=
  match s.palur.long with
  | some (.stage (some (a, n)) _ _ _) => match readFile s a n with | (s1, e) => (s1, some e)
  | some (.stage none got _ true) => (s, some (.ok got))
  | some (.token (some (a, n)) _ _ _) => match readFile s a n with | (s1, e) => (s1, some e)
  | some (.token none got _ true) => (s, some (.ok got))
  | _ => (s, none)

/-- Palur stages an image or checks a token. -/
def staging (s : State) : Bool := match s.palur.long with | some (.stage _ _ _ _) => true | _ => false
def presenting (s : State) : Bool := match s.palur.long with | some (.token _ _ _ _) => true | _ => false

/-- The file lies in memory that takes no request now, for which Palur waits (01_architecture.md R22, R468). -/
def sourceHeld (s : State) : Bool :=
  match s.palur.long with
  | some (.stage (some (a, n)) _ _ _) => inHbm s a n && memHeld s .hostDie a n
  | some (.token (some (a, n)) _ _ _) => inHbm s a n && memHeld s .hostDie a n
  | _ => false

/-- FW_STAGE_COMPLETE: the checks of R475 end; `storeOk` says that the store's write succeeded. -/
def execFwStageComplete (storeOk : Bool) (s : State) : Out :=
  .next (
    if !s.up || s.paused || !staging s || sourceHeld s then s
    else match longSource s with
      | (_, none) => s
      | (s1, some (.error e)) => stageFail s1 e.1 e.2
      | (s1, some (.ok b)) =>
        match imageCheck s1 b with
        | (0, _) =>
          if storeOk then
            let n := hdrLen b + 16608 + leAt b 0x18 8
            let s2 := (setResult (setStaged s1 (some ⟨b.take n, true⟩)) 0 0).modPalur (fun k => { k with long := none })
            opDone (raise s2 pPalur 9) pPalur n 65536
          else stageFail s1 0xE 0
        | (c, o) => stageFail s1 c o)

/-- STAGING_CHUNK_TIMEOUT: 60 s without a chunk end a chunked staging or presentation with SOURCE. -/
def execStagingChunkTimeout (s : State) : Out :=
  .next (
    match s.palur.long with
    | some (.stage none got t false) => if t + 6000000000 ≤ s.ref then stageFail s 0xA got.length else s
    | some (.token none got t false) => if t + 6000000000 ≤ s.ref then longFail s 0xA got.length else s
    | _ => s)

/-! Activation (R479-R482). -/

/-- FW_ACTIVATE: refused without a sound staged image or for its class; otherwise checked again, and command fetch pauses. -/
def execFwActivate (s : State) : Out :=
  serveLong 0x2100 s (fun r s =>
    match stagedImage s with
    | none => failed s r 0xF
    | some x =>
      if !s.store.staged || s.store.stagedBad then failed s r 0xF
      else if !classOk s x then failed s r 5
      else
        let s1 := longStart (reply s r 1) (.activate (bit r.arg 0)) 5 0
        let e := startCheck s1 x
        if e ≠ 0 then longFail s1 e 0 else { opProgress s1 pPalur 2 7 1 with paused := true })

/-- FW_ACTIVATE_COMPLETE: the new image is in use, or the previous one restored; the pause has lasted `pauseUs`. -/
def execFwActivateComplete (ok : Bool) (pauseUs : Nat) (s : State) : Out :=
  .next (
    match s.palur.long, stagedImage s with
    | some (.activate hr), some x =>
      let s0 := { s.modPalur (fun k => { k with pauseUs := pauseUs % 2 ^ 16 }) with paused := false }
      serveRest (
        if ok then
          let s1 := s0.modStore (fun r => { r with
            active := 1 - r.active, staged := false, stagedBad := false, minSvn := if r.minSvn < x.svn then x.svn else r.minSvn })
          let s2 := longDone (raise (setResult (settleLive s1 x) 0 0) pPalur 11) 7
          if hr then hostReset s2 2 else s2
        else longFail (raise (s0.modStore (fun r => { r with stagedBad := true })) pPalur 12) 0x10 0)
    | _, _ => s)

/-! Tokens and the debug state (R489-R493, R496). -/

/-- DISTURB is permitted (R495): in P0 and P1, under TOKEN-FULL, or under TOKEN-LIMITED while no job slot is STARTED. -/
def disturbOk (s : State) : Bool :=
  decide (powerState s ≤ 1) && (decide (debugState s = 2) ||
    (decide (debugState s = 1) && (List.range 16).all (fun j => decide (jobState s j ≠ 3))))

/-- A state that permits less clears the disturbances (R496). -/
def lessDisturb (s : State) : State := if disturbOk s then s else clearDisturb s

/-- The debug state returns to LOCKED (R493). -/
def endDebug (s : State) : State :=
  if s.palur.debug = 0 then s else raise (lessDisturb (s.modPalur (fun k => { k with debug := 0, debugEnd := 0 }))) pPalur 15

/-- The kinds of token a state accepts (R495). -/
def tokenKinds (s : State) : List Nat :=
  match s.store.lifecycle with | 0 => [3] | 1 => [1, 2, 4, 6] | 2 => [1, 4, 6] | _ => [2, 5, 6]

/-- The check of a token (R491, R492): 0 or its result. -/
def tokenCheck (s : State) (b : List Byte) : Nat :=
  let kind := leAt b 1 1
  let slot := leAt b 2 1
  let arg := leAt b 3 1
  let dur := leAt b 0x30 4
  let dbg := decide (kind = 1 ∨ kind = 2)
  if b.length < 16864 then 0xA
  else if leAt b 0 1 ≠ 1 ∨ kind = 0 ∨ 6 < kind ∨ 3 < slot ∨ (kind ≠ 6 ∧ arg ≠ 0) ∨ 3 < arg
      ∨ (dbg = true ∧ (dur = 0 ∨ 86400 < dur)) ∨ (dbg = false ∧ dur ≠ 0) ∨ allZero (slice b 0x34 204) = false then 0x11
  else if leAt b 4 4 ≠ 0x9740 ∨ leAt b 8 8 ≠ leAt s.store.burgee 8 8 then 0x12
  else if (match s.palur.challenge with | some c => decide (c.1 ≠ slice b 0x10 32) || decide (c.2 + 60000000000 ≤ s.ref) | none => true) then 0x13
  else if keyRevoked s slot then 7
  else
    let g := sigCheck slot (b.take 256) (slice b 256 384) (slice b 640 16224)
    if g ≠ 0 then g
    else if !(tokenKinds s).contains kind then 0x14
    else if kind = 6 ∧ (arg = slot ∨ (s.store.revoked ||| 2 ^ arg) % 16 = 15) then 0x14
    else 0

/-- A lifecycle transition: stored, then a module reset, then LIFECYCLE_CHANGED (R489). -/
def toLifecycle (s : State) (n : Nat) : State := raise (resetEndsDebug (s.modStore (fun r => { r with lifecycle := n }))) pPalur 16

/-- What an accepted token does (R489, R491, R493). -/
def tokenEffect (s : State) (b : List Byte) : State :=
  match leAt b 1 1 with
  | 1 => lessDisturb (s.modPalur (fun k => { k with debug := 1, debugEnd := s.ref + 100000000 * leAt b 0x30 4 }))
  | 2 => lessDisturb (s.modPalur (fun k => { k with debug := 2, debugEnd := s.ref + 100000000 * leAt b 0x30 4 }))
  | 3 => toLifecycle s 1
  | 4 => toLifecycle (s.modStore (fun r => { r with mgmtKey := none, mgmtSet := shippedMgmt, palurSet := shippedPalur, kept := r.kept.filter (fun y => decide (2 ≤ y.1)) })) 3
  | 5 => toLifecycle s 1
  | _ => s.modStore (fun r => { r with revoked := r.revoked ||| 2 ^ leAt b 3 1 })

/-- DEBUG_TOKEN_PRESENT: op 0, its source in host memory or in chunks, every field one byte further than in FW_STAGE (R490). -/
def execDebugTokenPresent (s : State) : Out :=
  serveReq 0x3100 s (fun r s =>
    let last := bit (r.le 0xA 1) 0
    let data := (r.msg.drop 0x11).take (r.le 0xB 2)
    if r.le 9 1 = 0 then
      if s.palur.long.isSome then reply s r 5 else longStart (reply s r 1) (.token (some (r.le 0x11 5, r.le 0x19 4)) [] s.ref false) 5 0
    else match s.palur.long with
      | none =>
        if r.le 0xD 4 = 0 then longStart (reply s r (if last then 1 else 0)) (.token none data s.ref last) 5 0 else failed s r 0xA
      | some (.token none got _ false) =>
        if r.le 0xD 4 = got.length then (reply s r (if last then 1 else 0)).modPalur (fun k => { k with long := some (.token none (got ++ data) s.ref last) })
        else longFail (reply s r 7) 0xA got.length
      | some _ => reply s r 5)

/-- TOKEN_VERIFY_COMPLETE: the token takes effect or is refused; the challenge is used up (R492). -/
def execTokenVerifyComplete (s : State) : Out :=
  .next (
    if !s.up || s.paused || !presenting s || sourceHeld s then s
    else match longSource s with
      | (_, none) => s
      | (s1, some (.error e)) => longFail (raise (s1.modPalur (fun k => { k with challenge := none })) pPalur 14) e.1 e.2
      | (s1, some (.ok b)) =>
        let c := tokenCheck s1 b
        let s2 := s1.modPalur (fun k => { k with challenge := none })
        if c = 0 then tokenEffect (longDone (raise (setResult s2 0 0) pPalur 13) 1) b
        else longFail (raise s2 pPalur 14) c 0)

/-- Random bytes, eight at a draw (R467). -/
def drawBytes (s : State) (n : Nat) : State × List Byte :=
  (s.modPalur (fun k => { k with draws := k.draws + n }),
   ((List.range n).map (fun i => toLE 8 (Config.randomWord (s.palur.draws + i)).toNat)).foldl (· ++ ·) [])

/-- DEBUG_TOKEN_CHALLENGE: op 1 returns a fresh challenge, which replaces any earlier one. -/
def execDebugTokenChallenge (s : State) : Out :=
  serveReq 0x3101 s (fun r s =>
    match drawBytes s 4 with
    | (s1, c) => reply (s1.modPalur (fun k => { k with challenge := some (c, s.ref) })) r 0 c)

/-- CHALLENGE_LAPSE: 600 s after its issue. -/
def execChallengeLapse (s : State) : Out :=
  .next (
    match s.palur.challenge with
    | some c => if c.2 + 60000000000 ≤ s.ref then s.modPalur (fun k => { k with challenge := none }) else s
    | none => s)

/-- DEBUG_TOKEN_DEPLOY: op 2, from the mailbox in PROVISIONED (R489). -/
def execDebugTokenDeploy (s : State) : Out :=
  serveReq 0x3102 s (fun r s =>
    if r.session.isSome || decide (s.store.lifecycle ≠ 1) then reply s r 4 else toLifecycle (reply s r 0) 2)

/-- DEBUG_TOKEN_MGMT_KEY: op 3 installs or replaces the management key; every session closes (R494). -/
def execDebugTokenMgmtKey (s : State) : Out :=
  serveReq 0x3103 s (fun r s =>
    let ok := if r.session.isSome then decide (s.store.lifecycle = 2) else decide (s.store.lifecycle = 1 ∨ s.store.lifecycle = 2)
    if ok then
      ((reply s r 0).modStore (fun k => { k with mgmtKey := some (slice r.msg 0x10 32) })).modPalur (fun k => { k with sessions := [] })
    else reply s r 4)

/-- DEBUG_TOKEN_END: op 4. -/
def execDebugTokenEnd (s : State) : Out := serveReq 0x3104 s (fun r s => endDebug (reply s r 0))

/-- DEBUG_EXPIRY: the duration of the token has run out. -/
def execDebugExpiry (s : State) : Out := .next (if s.up && decide (s.palur.debug ≠ 0 ∧ s.palur.debugEnd ≤ s.ref) then endDebug s else s)

/-! Attestation (R487, R488). -/

/-- The stored settings records as bytes, in record order (R483): the sets of MGMT and PALUR, mapped-out pseudo-channels and retired rows, with their layouts and what is kept aside; the calibration set. Their form is a free value. -/
def settingsBytes (s : State) : List Byte :=
  Config.recordBytes
    ([s.store.mgmtLay, s.store.palurLay, s.store.rowsLay] ++ s.store.mgmtSet ++ s.store.palurSet ++ s.store.mapped ++ (retList s).map (fun x => leNat x.2)
      ++ (s.store.kept.map (fun y => y.1 :: y.2.lay :: y.2.words)).flatten) s.store.calib

/-- CAL_STATE.match and the current CRC (R486). -/
def calCrc (s : State) : Nat := leAt s.store.calib 0x1FFC 4
def calMatch (s : State) : Bool := decide (calCrc s = s.store.factoryCrc)

/-- The 512 bytes of a report (R488). -/
def reportBytes (s : State) (nonce : List Byte) : List Byte :=
  let hdr (x : Option Image) : List Byte := match x with | some x => slice (Config.sha384 (x.bytes.take (hdrLen x.bytes))) 0 48 | none => List.replicate 48 0
  let a := activeImage s
  toLE 1 1 ++ toLE 1 s.store.lifecycle ++ toLE 1 (debugState s) ++ toLE 1 (powerState s) ++ toLE 4 (s.palur.reports + 1) ++ slice nonce 0 48
    ++ slice (Config.sha384 (s.store.burgee.take 512)) 0 48 ++ hdr a ++ toLE 4 ((a.map Image.version).getD 0) ++ toLE 4 ((a.map Image.svn).getD 0)
    ++ toLE 4 s.store.minSvn ++ toLE 4 (b2n s.store.staged) ++ hdr (if s.store.staged then stagedImage s else none)
    ++ slice (Config.sha384 (settingsBytes s)) 0 48 ++ toLE 4 (b2n s.store.modified + 2 * b2n (calMatch s)) ++ toLE 4 s.store.factoryCrc ++ toLE 4 (calCrc s)
    ++ toLE 4 (s.store.revoked % 16 + 256 * b2n s.store.mgmtKey.isSome) ++ toLE 8 s.ptp ++ toLE 8 s.ref ++ toLE 4 (timeState s)
    ++ toLE 4 s.store.mapped.length ++ toLE 4 (nodeId s) ++ List.replicate 204 0

/-- ATTEST_REPORT: op 0, every value taken now. -/
def execAttestReport (s : State) : Out :=
  serveLong 0x5000 s (fun r s =>
    (longStart (reply s r 1) (.attest (reportBytes s (slice r.msg 0x10 48))) 5 0).modPalur (fun k => { k with report := none, reports := k.reports + 1 }))

/-- ATTEST_SIGN_COMPLETE: the report is signed with both device keys and readable. -/
def execAttestSignComplete (s : State) : Out :=
  .next (
    match s.palur.long with
    | some (.attest b) =>
      if !s.up || s.paused then s
      else longDone ((setResult s 0 0).modPalur (fun k => { k with
        report := some (b ++ slice (Config.sigOf (Config.deviceKey 0) b) 0 384 ++ slice (Config.sigOf (Config.deviceKey 1) b) 0 16224) })) 1
    | _ => s)

/-- A piece of a byte string as the request names it (n at 0x0A, offset at 0x0C); BAD_LEN beyond its end. -/
def readPiece (s : State) (r : PReq) (b : List Byte) : State :=
  if b.length < r.le 0xC 4 + r.le 0xA 2 then reply s r 3 else reply s r 0 (slice b (r.le 0xC 4) (r.le 0xA 2))

/-- ATTEST_READ: op 1; BUSY while a report is being signed. -/
def execAttestRead (s : State) : Out :=
  serveReq 0x5001 s (fun r s =>
    match s.palur.long, s.palur.report with
    | some (.attest _), _ => reply s r 5
    | _, some b => readPiece s r b
    | _, none => reply s r 7)

/-- ATTEST_BURGEE: op 2. -/
def execAttestBurgee (s : State) : Out := serveReq 0x5002 s (fun r s => readPiece s r s.store.burgee)

/-! Calibration (R484-R486). -/

/-- CAL_WRITE is permitted (R495): everywhere but in RETURNED and LOCKED; in P2 from the management port. -/
def calOk (s : State) (r : PReq) : Bool :=
  (decide (s.store.lifecycle ≠ 3) || decide (debugState s = 2)) && (decide (powerState s ≤ 1) || r.session.isSome)

/-- CAL_READ: of the current set or of the pending copy. -/
def execCalRead (s : State) : Out :=
  serveReq 0x7000 s (fun r s =>
    if r.arg = 0 then readPiece s r s.store.calib
    else match s.palur.calPend with
      | some b => readPiece s r b
      | none => reply s r 7)

/-- CAL_WRITE_DATA: op 0 writes into the pending copy, made from the current set at the first such write. -/
def execCalWriteData (s : State) : Out :=
  serveReq 0x7100 s (fun r s =>
    if !calOk s r then reply s r 4
    else if 8192 < r.le 0xC 4 + r.le 0xA 2 then reply s r 3
    else
      let b := putBytes (s.palur.calPend.getD s.store.calib) (r.le 0xC 4) ((r.msg.drop 0x10).take (r.le 0xA 2))
      reply (s.modPalur (fun k => { k with calPend := some b })) r 0)

/-- A pending copy that a commit refuses (R485). -/
def calBad (s : State) (b : List Byte) (crc : Nat) : Bool :=
  decide (crc32 (b.take 0x1FFC) ≠ crc) || decide (leAt b 0 2 ≠ ((activeImage s).map Image.calLay).getD 1) || decide (leAt b 4 4 ≠ 8192)
  || decide (leAt b 2 2 ≠ 0) || !allZero (slice b 0x1800 0x7FC)
  || (List.range 1534).any (fun i => decide (leAt b (8 + 4 * i) 4 / 2 ^ 23 % 256 = 255))

/-- CAL_COMMIT: op 1; the set is used from the next control period (R486). -/
def execCalCommit (s : State) : Out :=
  serveReq 0x7101 s (fun r s =>
    if !calOk s r then reply s r 4
    else match s.palur.calPend with
      | none => reply s r 7
      | some b =>
        if calBad s b (r.le 0xC 4) then reply s r 7
        else
          let s1 := (s.modPalur (fun k => { k with calPend := none, calDue := some (putBytes b 0x1FFC (toLE 4 (r.le 0xC 4))) })).modStore (fun k => { k with modified := true })
          raise (reply s1 r 0) pPalur 17)

/-- CAL_DISCARD: op 2. -/
def execCalDiscard (s : State) : Out :=
  serveReq 0x7102 s (fun r s => if calOk s r then reply (s.modPalur (fun k => { k with calPend := none })) r 0 else reply s r 4)

end Sys2Proof.Machine
end

