-- ==== Sys2Proof/Machine/Bringup.lean ====
section
/-! DEFINITION. Bring-up, sleep states and self-test (16_bringup_errors_test.md R501-R514). -/

namespace Sys2Proof.Machine

open Sys2Proof

/-! Bring-up (R501-R507). Each step of R504 is one function of the state. -/

/-- Crossing numbers of the links that are down in a map of up links. -/
def downLinks (first n up : Nat) : List Nat := ((List.range n).filter (fun i => !up.testBit i)).map (first + ·)

/-- Step 1: the network is locked and the crossings trained; what stays down is flagged. -/
def bringNet (env : BringupEnv) (s : State) : State :=
  let s1 := ((s.wr64 pNet 0x200 env.xc1.toNat).wr64 pNet 0x208 env.xc3.toNat).wr pHostc 0x218 env.xc4.toNat
  let down := downLinks 0 64 env.xc1.toNat ++ downLinks 64 48 env.xc3.toNat ++ downLinks 112 16 env.xc4.toNat
  down.foldl (fun s n => raise s pNet 10 0 0xFFFF 0 [n, 0, 0, 0]) (setEnabled (setEnabled s1 pNet true) pHostc true)

/-- The minimum of R505: some XC4 link, an XC1 link of every compute die, an XC3 link of every base die. -/
def netEnough (env : BringupEnv) : Bool :=
  decide (env.xc4.toNat ≠ 0) && (List.range 4).all (fun d => decide (bits env.xc1.toNat (16 * d) 16 ≠ 0))
  && (List.range 12).all (fun b => decide (bits env.xc3.toNat (4 * b) 4 ≠ 0))

/-- A pseudo-channel fails its training: TRAIN_FAIL, PC_TRAIN_FAIL (11_memory_system.md R354, R362). -/
def trainFail (s : State) (n : Nat) : State :=
  let p := pHbmc (n / 64)
  let w := s.rd64 p 0x258 ||| 2 ^ (n % 64)
  raise (s.wr64 p 0x258 w) p 19 0 0xFFFF (n % 64) [w % 2 ^ 32, w / 2 ^ 32, 0, 0]

/-- The pseudo-channels that fail, in order. -/
def pcFails (env : BringupEnv) : List Nat := (List.range 768).filter (fun n => env.pcFail.contains n)

/-- Step 2: the stacks train, each its HBMC's long operation (R354). -/
def bringTrain (env : BringupEnv) (s : State) : State :=
  let s1 := (List.range 12).foldl (fun s st => opStart s (pHbmc st) 0 0) s
  let s2 := (pcFails env).foldl trainFail s1
  (List.range 12).foldl (fun s st => opDone s (pHbmc st) 1152 1) s2

/-- The pseudo-channels mapped out from now on: stored ones and failed ones (R351). -/
def bringMapped (env : BringupEnv) (s : State) : List Nat := (pcFails env).foldl (fun l n => sinsert n l) s.store.mapped

/-- The stacks that would need more than four map-outs. -/
def stacksOver (l : List Nat) : List Nat := (List.range 12).filter (fun st => decide (4 < (l.filter (fun n => decide (n / 64 = st))).length))

/-- The granules of a mapped-out pseudo-channel below E move to fold frames, in turn over the stack's other pseudo-channels (R333, R350). -/
def foldPc (s : State) (n : Nat) : State :=
  let st := n / 64
  (List.range addrFrames).foldl (fun s q =>
    let g := granuleAt (mapKey s) st (n % 64) q
    if memEnd s ≤ g * 256 then s
    else match foldPcs s ⟨st, n % 64, q, 0, 0⟩ with
      | [] => s
      | pc :: _ =>
        let k := 64 * st + pc
        s.modMem (fun z => { setFold z (fset (fun _ => 0) z.fold g (2 ^ 23 * k + (freeFrame z k).getD addrFrames)) with
          foldNext := fset (fun _ => 0) z.foldNext st ((pc + 1) % 64) })) s

/-- Step 3: map-outs, E, the interleave key and the fold tables (R331-R333, R351). -/
def bringMap (key : Nat) (l : List Nat) (s : State) : State :=
  let s0 := if key = 0 then s.modPalur (fun k => { k with draws := k.draws + 1 }) else s
  let k := if key = 0 then (Config.randomWord s.palur.draws).toNat else key
  let e := (768 - l.length) * pcBytes
  let s1 := (List.range 12).foldl (fun s st => (s.wr64 (pHbmc st) 0x248 e).wr64 (pHbmc st) 0x250 k) (s0.modStore (fun r => { r with mapped := l }))
  let s2 := l.foldl (fun s n => s.wr64 (pHbmc (n / 64)) 0x230 (s.rd64 (pHbmc (n / 64)) 0x230 ||| 2 ^ (n % 64))) s1
  l.foldl foldPc (s2.modMem (fun m => { setFold m [] with foldNext := [], failed := [], phyLost := [], retrain := [], selfRefresh := false }))

/-- The frames of a stack that initialisation writes: the address frames that hold a granule below E, of the pseudo-channels not mapped out, and the reserve frames of the fold tables, whose number is free (R333, R355). -/
def initFrames (s : State) (st : Nat) : Nat :=
  let full := memEnd s / 196608
  let pcs := (List.range 64).filter (fun pc => !s.store.mapped.contains (64 * st + pc))
  lsum (pcs.map (fun pc => full + b2n (decide (granuleAt (mapKey s) st pc full * 256 < memEnd s)))) + Config.foldTable s.store.mapped st

/-- Step 4: every stack is initialised to zero, each its HBMC's second long operation (R355). -/
def bringInit (s : State) : State :=
  let s1 := { s with hbm := [], raw := [] }
  (List.range 12).foldl (fun s st => opDone (opStart s (pHbmc st) 0 0) (pHbmc st) (256 * initFrames s st) (2 ^ 26)) s1

/-- Step 5: slices, memory controllers and dies are enabled. -/
def bringEnable (s : State) : State :=
  let s1 := (List.range 12).foldl (fun s n => setEnabled (setEnabled s (pCache n) true) (pHbmc n) true) s
  (List.range 4).foldl (fun s d => setEnabled s (pDie d) true) s1

/-- Step 6: the rails are on at 0.60 V and every per-tile byte is zero. -/
def bringTiles (s : State) : State := { railsOn s with tmem := [], traw := [] }

/-- A tile that fails a self-test is disabled until the next bring-up (R514). -/
def tileFails (s : State) (t : Nat) : State := (setEnabled s (pTile t) false).wrF pErrlog (0x230 + 4 * (t / 32)) (t % 32) 1 1

/-- Step 7: the self-test, where asked for. -/
def bringTest (env : BringupEnv) (bist : Bool) (s : State) : State :=
  if bist then ((List.range 160).filter (fun t => env.tileFail.contains t)).foldl tileFails s else s

/-- Bring-up fails at a step (R505). -/
def bringFail (s : State) (code : Nat) : State := opFail (setResult (s.wrF pErrlog 0x220 0 2 1) code 0) pPalur

/-- The progress of bring-up. -/
def bringAt (s : State) (n : Nat) : State := opProgress s pPalur n 8 1

/-- BRINGUP_RUN's steps in order (R504, R505). -/
def bringUp (env : BringupEnv) (key : Nat) (bist : Bool) (s : State) : State :=
  let s0 := opStart (s.modPalur (fun k => { k with taken := true })) pPalur 5 0
  let s1 := bringNet env s0
  if !netEnough env then bringFail s1 0x19
  else
    let s2 := bringAt (bringTrain env (bringAt s1 1)) 2
    let l := bringMapped env s2
    if stacksOver l ≠ [] then bringFail ((stacksOver l).foldl (fun s st => raise s (pHbmc st) 17) s2) 0x1A
    else
      let s3 := bringTiles (bringEnable (bringInit (bringMap key l s2)))
      opDone (startHost (setResult (bringTest env bist s3) 0 0) 0) pPalur 8 1

/-- BRINGUP_RUN: taken once after each stage A (R501, R502). -/
def execBringupRun (env : BringupEnv) (s : State) : Out :=
  serveLong 0x1000 s (fun r s =>
    if s.palur.taken then failed s r 0x18 else bringUp env (r.le 8 8) (bit (r.le 0x10 1) 0) (reply s r 1))

/-- BRINGUP_AUTO: 5 s after stage A with no BRINGUP_RUN, with key 0 and bist 0. -/
def execBringupAuto (env : BringupEnv) (s : State) : Out :=
  .next (if alive s && !s.palur.rom && !s.palur.taken && decide (s.palur.stageAt + 500000000 ≤ s.ref) then bringUp env 0 false s else s)

/-! Sleep states (R509-R512). -/

/-- A block of a tile resident, or a descriptor in an intake. -/
def tileBusy (s : State) : Bool :=
  s.tiles.any (fun x => decide (x.2.blocks ≠ [] ∨ x.2.mx.intake ≠ [] ∨ x.2.vx.intake ≠ [] ∨ x.2.dma.intake ≠ []))

/-- The conditions of R509. -/
def sleepReady (s : State) : Bool :=
  (List.range 16).all (fun j => decide (jobState s j ≠ 3)) && (boundQueues s).all (fun q => decide (qState s q ≠ 2)) && !tileBusy s

/-- A long operation runs in some block. -/
def anyBusy (s : State) : Bool :=
  s.palur.long.isSome || [pPalur, pXlat, pHoist].any (s.opBusy ·) || (List.range 12).any (fun n => s.opBusy (pCache n) || s.opBusy (pHbmc n))
  || (List.range 32).any (fun l => s.opBusy (pLink l)) || (List.range 160).any (fun t => s.opBusy (pTile t))

/-- The further conditions of R510. -/
def sleepDeep (s : State) : Bool :=
  sleepReady s && (s.bind.bound.all (fun p => decide (p.blk ≠ .conn) || !([2, 3, 4].contains (connState s p.inst))))
  && (List.range 32).all (fun r => decide (rgnState s r ≠ 1 ∧ rgnState s r ≠ 3)) && s.xlat.mig.isNone && !anyBusy s

/-- A power state is reported. -/
def setPower (s : State) (n : Nat) : State := s.wrF pErrlog 0x220 4 2 n

/-- A long operation of Palur from start to end. -/
def longAll (s : State) (n : Nat) : State := opDone (setResult s 0 0) pPalur n 1

/-- SLEEP_ENTER_P1: rails off, tiles gated, their disturbances cleared; or SLEEP_BUSY (R509). -/
def execSleepEnterP1 (s : State) : Out :=
  serveLong 0x1101 s (fun r s =>
    if powerState s ≠ 0 then failed s r 0x1D
    else if !sleepReady s then failed s r 0x1C
    else longAll (clearGated (setPower (railsOff (opStart (reply s r 1) pPalur 5 0)) 1)) 1)

/-- The host caches are written back and the harts halt (R510). -/
def hostFlush (s : State) : State :=
  let s1 := hostDrain s
  let s2 := (s1.hcache.lines.filter (fun x => decide (x.2 = 2))).foldl (fun s x => lineBack s 0 x.1 true) s1
  { s2 with hartsOn := 0, hcache := ⟨[], [], []⟩ }

/-- The slices write their dirty sectors back, and hold none from then on (R510, R511, 11_memory_system.md R361). -/
def emptySlices (key : Nat) (m : MemSys) : MemSys := { (m.sectors.map (fun x => x.1 / 4)).dedup.foldl (fun m g => dropLine m (homeStack key g) g) m with sectors := [] }

/-- SLEEP_ENTER_P2: rails off, caches written back and harts halted, lasers dark, stacks in self-refresh, disturbances cleared; or SLEEP_BUSY (R510, 15 R496). -/
def execSleepEnterP2 (s : State) : Out :=
  serveLong 0x1102 s (fun r s =>
    if powerState s = 2 then failed s r 0x1D
    else if !sleepDeep s then failed s r 0x1C
    else
      let s1 := railsOff (opStart (reply s r 1) pPalur 5 0)
      let s2 := hostFlush { s1 with palur := { s1.palur with resume := r.le 0x10 8 } }
      let s3 := (List.range 32).foldl portChange (lessDisturb (setPower s2 2))
      longAll (s3.modMem (fun m => { emptySlices (mapKey s3) m with selfRefresh := true })) 5)

/-- SLEEP_ENTER_P3: as a power loss, LAST_LOSS unchanged (R512). -/
def execSleepEnterP3 (s : State) : Out :=
  serveLong 0x1103 s (fun r s => powerDown ((reply s r 1).modLog (fun l => { l with posted := l.posted ++ [lossRecord s] })) true)

/-- A unit whose working state may be stale: what a connection still has out is failed back, then it is quarantined, or scrubbed if unbound (13_binding_and_jobs.md R413). -/
def staleUnit (s : State) (p : Page) : State := quarantine (if p.blk = .conn then connFailAll s p.inst 0x12 else s) p

/-- Leaving P2 (R511): stacks and slices are back, bound units are quarantined and unbound ones scrubbed, hart 0 starts at the resume address, ports train. -/
def leaveP2 (s : State) : State :=
  let s1 := railsOn ((setPower s 0).modMem (fun m => { m with selfRefresh := false }))
  let s2 := (busyTiles s1).foldl (fun s t => if tilePowered s t then ungate s t else s) s1
  let s3 := ((List.range 16384).map pQueue ++ (List.range 16384).map pConn).foldl staleUnit s2
  let s4 := startHart0 s3 s3.palur.resume
  logDrain 256 ((List.range 32).foldl portChange s4)

/-- SLEEP_EXIT: from P1, or from P2 over the management port. -/
def execSleepExit (s : State) : Out :=
  serveLong 0x1200 s (fun r s =>
    match powerState s with
    | 1 => longAll (leaveP1 (opStart (reply s r 1) pPalur 5 0)) 1
    | 2 => longAll (leaveP2 (opStart (reply s r 1) pPalur 5 0)) 5
    | _ => failed s r 0x1D)

/-! Self-test (R513, R514). -/

/-- A tile failed a self-test since bring-up. -/
def tileFailed (s : State) (t : Nat) : Bool := s.rdB pErrlog (0x230 + 4 * (t / 32)) (t % 32)

/-- The tiles that a request names. -/
def testTiles (r : PReq) : List Nat := setBits 160 (r.le 0x10 20)

/-- A tile cannot be tested: bound, gated or disabled. -/
def testBarred (s : State) (t : Nat) : Bool := decide (bstate s (pTile t) ≠ 0) || !tilePowered s t || !railOn s (dieOf t) || tileFailed s t

/-- A self-test of tiles starts. -/
def tileTest (kind : Nat) (r : PReq) (s : State) : State :=
  if (testTiles r).any (testBarred s) then failed s r 0x1D else longStart (reply s r 1) (.selfTest kind (testTiles r)) 5 0

/-- SELF_TEST_TILE_LOGIC: kind 0. -/
def execSelfTestTileLogic (s : State) : Out := serveLong 0x3000 s (fun r s => tileTest 0 r s)

/-- SELF_TEST_STORAGE: kind 1. -/
def execSelfTestStorage (s : State) : Out := serveLong 0x3001 s (fun r s => tileTest 1 r s)

/-- SELF_TEST_LOOPBACK: kind 2, with no job slot STARTED. -/
def execSelfTestLoopback (s : State) : Out :=
  serveLong 0x3002 s (fun r s =>
    if (List.range 16).any (fun j => decide (jobState s j = 3)) then failed s r 0x1D else longStart (reply s r 1) (.selfTest 2 []) 5 0)

/-- A crossing that fails its loopback is left down. -/
def crossFails (s : State) (n : Nat) : State :=
  let s1 := { s with xc := s.xc.filter (fun x => decide (x.1 ≠ n)) }
  if n < 64 then s1.wrF pNet (0x200 + 4 * (n / 32)) (n % 32) 1 0
  else if n < 112 then s1.wrF pNet (0x208 + 4 * ((n - 64) / 32)) ((n - 64) % 32) 1 0
  else s1.wrF pHostc 0x218 (n - 112) 1 0

/-- What GET_RESULT returns of a test of tiles: its code and the mask of the failing ones. -/
def testResult (fails : List Nat) : List Byte := toLE 1 (if fails = [] then 0 else 0x1B) ++ toLE 20 (maskOf fails)

/-- SELF_TEST_COMPLETE: `fails` lists the tiles or crossings that failed; tested tiles hold zero bytes. -/
def execSelfTestComplete (fails : List Nat) (s : State) : Out :=
  .next (
    match s.palur.long with
    | some (.selfTest 2 _) =>
      if !s.up || s.paused then s
      else
        let bad := (List.range 128).filter fails.contains
        let s1 := longDone (setResult (bad.foldl crossFails s) (if bad = [] then 0 else 0x1B) 0) 128
        if s1.rdF pHostc 0x218 0 16 = 0 then moduleFatal s1 3 else s1
    | some (.selfTest _ tiles) =>
      if !s.up || s.paused then s
      else
        let bad := tiles.filter fails.contains
        let s1 := bad.foldl tileFails (tiles.foldl (fun s t => (scrubTile s t).setTile t Tile.init) s)
        longDone (s1.modPalur (fun k => { k with result := testResult bad })) tiles.length
    | _ => s)

end Sys2Proof.Machine
end

