-- ==== Sys2Proof/Machine/Pages.lean ====
section
/-! DEFINITION. What every register page does (02_register_pages.md R35-R61): reads and plain writes, enable, swap, shadow load, version, flags, disturbance (with 16_bringup_errors_test.md R524, R525), and the Bunting summary. -/

namespace Sys2Proof.Machine

open Sys2Proof

/-! Field lists. -/

/-- An encoding is legal: within bounds, or aligned where the field is the low half of a base (its `max` lies below its `min`, the alignment). -/
def fldLegal (f : Fld) (x : Nat) : Bool :=
  if f.max < f.min then decide (x % 2 ^ f.min = 0) else decide (f.min ≤ x ∧ x ≤ f.max)

/-- The bits of a field. -/
def fldMask (f : Fld) : Nat := (2 ^ f.len - 1) * 2 ^ f.lo

/-- The bits that some field of a list covers. -/
def covered (fs : List Fld) : Nat := fs.foldl (fun m f => m ||| fldMask f) 0

/-- The bits of `v` outside `m`. -/
def without (v m : Nat) : Nat := v - (v &&& m)

/-! Reads (R36, R38, R41): what a register holds, and what is worked out when it is read. -/

/-- FLAGS AND FLAG_MASK, which STATUS.flags_pending and Bunting report (R41, R51). -/
def flagsPending (s : State) (p : Page) : Bool := decide (s.rd p 0x18 &&& s.rd p 0x100 ≠ 0)

/-- The state permits disturbance of a page (R44, 15_security_firmware.md R495). -/
def disturbAllowed (s : State) (p : Page) : Bool := disturbOk s && !gated s p

/-- A descriptor at the head of an intake waits. -/
def headWaits (l : List Desc) : Bool := match l with | d :: _ => d.wait.isSome | [] => false

/-- The version of an image, none being 0. -/
def versionOf (x : Option Image) : Nat := match x with | some i => i.version | none => 0

/-- The words of the PALUR page that report what Palur holds (15 R498). -/
def palurView (s : State) (off : Nat) : Option Nat :=
  let a := activeImage s
  match off with
  | 0x200 => some s.store.lifecycle
  | 0x204 => some (debugState s)
  | 0x208 => some (if s.palur.debugEnd ≤ s.ref then 0 else ceilDiv (s.palur.debugEnd - s.ref) 100000000)
  | 0x210 => some (versionOf a)
  | 0x214 => some (if s.store.staged then versionOf (stagedImage s) else 0)
  | 0x218 => some (match a with | some x => x.svn | none => 0)
  | 0x21C => some s.store.minSvn
  | 0x220 => some (s.store.active + 2 * b2n s.store.staged + 4 * b2n s.store.stagedBad + 8 * (match a with | some x => x.class | none => 0))
  | 0x224 => some s.palur.pauseUs
  | 0x228 => some (b2n s.store.modified + 2 * b2n (calMatch s) + 4 * b2n s.palur.calPend.isSome + s.store.crcLayout * 2 ^ 16)
  | 0x22C => some s.store.factoryCrc
  | 0x230 => some (calCrc s)
  | 0x234 => some (match a with | some x => x.setLay | none => s.store.palurLay)
  | 0x238 => some (s.store.revoked % 16 + 256 * b2n s.store.mgmtKey.isSome)
  | 0x23C => some s.store.sessHigh
  | _ => none

/-- The words of a TILE page that report its work (05_thread_groups.md R176, 06_matrix_engine.md R208, 07_vector_engine.md R242, 08_tile_data_movement.md R265). -/
def tileView (s : State) (t off : Nat) : Option Nat :=
  let T := s.tile t
  match off with
  | 0x200 => some (lsum (T.blocks.map (fun b => b.groups.length)) + 2 ^ 16 * T.blocks.length)
  | 0x400 => some (T.mx.intake.length + 256 * b2n T.mx.arr0.isSome + 512 * b2n T.mx.arr1.isSome + 1024 * b2n (headWaits T.mx.intake))
  | 0x480 => some (T.vx.intake.length + 256 * b2n (T.vx.jobs.any (fun j => decide (j.items ≠ []) && j.fail.isNone)) + 512 * b2n (headWaits T.vx.intake))
  | 0x500 =>
    let has (n : Nat) (j : DmaJob) : Bool := decide (j.slot = some n)
    some (T.dma.intake.length + lsum ((List.range 4).map (fun n => 2 ^ (8 + n) * b2n (T.dma.jobs.any (has n))
      + 2 ^ (12 + n) * b2n (T.dma.jobs.any (fun j => has n j && j.stalled)))) + 2 ^ 16 * b2n (headWaits T.dma.intake))
  | _ => none

/-- The completion ring of a queue has no free record beside those reserved (09_command_queues.md R292). -/
def cqFull (s : State) (q : Nat) : Bool := !cqRoom s q

/-- The words of a QUEUE page that report its work (09 R278). -/
def queueView (s : State) (q off : Nat) : Option Nat :=
  let mine := s.cmds.filter (fun c => decide (c.queue = q))
  match off with
  | 0x14 => some (s.rd (pQueue q) 0x14 + 2 ^ 19 * b2n (cqFull s q)
      + 2 ^ 20 * b2n (mine.any (fun c => decide (c.op = 6) && decide (c.stage = 1))) + 2 ^ 21 * b2n (s.q q).torn.isSome)
  | 0x214 =>
    let n := (mine.filter (fun c => !c.bad && !cmdDone s c)).length
    some (if n < 65535 then n else 65535)
  | _ => none

/-- The counts of a CACHE page (11_memory_system.md R361). -/
def cacheView (s : State) (c off : Nat) : Option Nat :=
  match off with
  | 0x200 => some (fget (fun _ => 0) s.mem.hits c)
  | 0x204 => some (fget (fun _ => 0) s.mem.misses c)
  | 0x208 => some (fget (fun _ => 0) s.mem.wbacks c)
  | _ => none

/-- The FEC counts of a LINK page (12_krovmo_fabric.md R392): of a port that has sent flits, what its optics saw, which is free; else 0. -/
def linkView (s : State) (l off : Nat) : Option Nat :=
  if (s.link l).line = [] then none
  else match off with
  | 0x208 => some (Config.fecCount false l s.ref)
  | 0x20C => some (Config.fecCount true l s.ref)
  | _ => none

/-- The words of the POWER page that report what is measured: the last loss, and the waiting of a slot with that of its current window (14 R459, R463). -/
def powerView (s : State) (off : Nat) : Option Nat :=
  if off = 0x238 then some s.store.lastLoss
  else if 0x400 ≤ off ∧ off < 0x600 ∧ (off % 32 = 16 ∨ off % 32 = 20) then
    let j := (off - 0x400) / 32
    let v := s.rd64 pPower (0x410 + 32 * j) + fget (fun _ => 0) s.power.paceWait j / 100
    some (if off % 32 = 16 then v else v / 2 ^ 32)
  else none

/-- The words of a page that are worked out when read. -/
def pageView (s : State) (p : Page) (off : Nat) : Option Nat :=
  match p.blk with
  | .palur => palurView s off
  | .tile => tileView s p.inst off
  | .queue => queueView s p.inst off
  | .cache => cacheView s p.inst off
  | .link => linkView s p.inst off
  | .mgmt => match off with
    | 0x200 => some (leAt s.store.burgee 0x10 4)
    | 0x204 => some (leAt s.store.burgee 0x14 2)
    | _ => none
  | .time => match off with
    | 0x200 => some s.ref | 0x204 => some (s.ref / 2 ^ 32)
    | 0x208 => some s.ptp | 0x20C => some (s.ptp / 2 ^ 32)
    | _ => none
  | .power => powerView s off
  | _ => none

/-- A 32-bit word of a page as a read returns it (R37, R38, R41). -/
def readWord (s : State) (p : Page) (off : Nat) : Nat :=
  let v := ((pageView s p off).getD (s.rd p off)) % 2 ^ 32
  if off = 0x14 then v + 16 * b2n (flagsPending s p)
  else if 0x30 ≤ off ∧ off < 0x40 ∧ disturbAllowed s p = false then 0
  else v

/-- A register read at a local address: none where it is refused or, for a host hart, raises an access fault; it changes nothing (R36-R38). -/
def readReg (s : State) (who : Agent) (addr size : Nat) : Option Nat :=
  if !(match who with | .host _ => served s | .palur => s.up) then none
  else match pageOf addr with
  | none => match who with | .host _ => none | .palur => some 0
  | some (p, off) =>
    if size = 4 ∧ off % 4 = 0 then some (readWord s p off)
    else if size = 8 ∧ off % 8 = 0 then
      match regAt p off with
      | some (r, false) => if r.wide then some (readWord s p off + 2 ^ 32 * readWord s p (off + 4)) else none
      | _ => none
    else none

/-! Plain writes (R37, R45, R49, R58). -/

/-- A write to a word of the shadow set: discarded while a swap is pending; reserved words and bits are refused, reserved encodings stored. -/
def shadowWrite (s : State) (p : Page) (off v : Nat) : State :=
  if s.swapPending p then raise s p 1
  else match regAt p (off - 0x800) with
  | none => illegalWrite s p
  | some (r, _) =>
    let s1 := s.wr p off (v &&& covered r.fs)
    if without v (covered r.fs) = 0 then s1 else illegalWrite s1 p

/-- RW fields of a register whose bits a write reaches: a legal encoding is stored, a reserved one leaves the field as it was and is reported. -/
def mergeField (hm v : Nat) (x : Nat × Bool) (f : Fld) : Nat × Bool :=
  if f.acc = .rw ∧ fldMask f &&& hm ≠ 0 then
    let m := fldMask f &&& hm
    let y := without x.1 m + (v &&& m)
    if fldLegal f (bits y f.lo f.len) then (y, x.2) else (x.1, true)
  else x

/-- Where a write to a register is tied to a state: an HBM region's registers are writable only while it is UNBOUND (13_binding_and_jobs.md R408), and a pace setting whose share_lo is not below its share_hi is discarded whole (14_power_thermal.md R463). -/
def writeBarred (s : State) (p : Page) (off old new : Nat) : Bool :=
  match p.blk with
  | .hoist =>
    decide (0x400 ≤ off ∧ off < 0x600 ∧ rgnState s ((off - 0x400) / 16) ≠ 0) &&
      (decide (off % 16 < 8) || (decide (off % 16 = 8) && decide (new % 16 ≠ old % 16)))
  | .power => decide (0x400 ≤ off ∧ off < 0x600 ∧ off % 32 = 0 ∧ bits new 8 7 ≤ bits new 16 7)
  | _ => false

/-- What a plain write brings about: a job's pace ceiling is 850 mV while pace follow is off (14 R460). -/
def writeEffect (s : State) (p : Page) (off : Nat) : State :=
  if p.blk = .power ∧ 0x400 ≤ off ∧ off < 0x600 ∧ off % 32 = 0 ∧ s.rdB p off 0 = false then
    let j := (off - 0x400) / 32
    (s.wr p (off + 8) 850).modPower (fun w => { w with paceHi := ferase w.paceHi j, paceLo := ferase w.paceLo j })
  else s

/-- A write of the bits `hm` of a register outside the configuration sets; `off` is the register's offset. -/
def opWrite (s : State) (p : Page) (off : Nat) (r : Reg) (hm v : Nat) : State :=
  let old := if r.wide then s.rd64 p off else s.rd p off
  let touched := r.fs.filter (fun f => decide (fldMask f &&& hm ≠ 0) && decide (f.acc ≠ .ro))
  if touched = [] then illegalWrite s p
  else
    let x := r.fs.foldl (mergeField hm v) (old, false)
    if writeBarred s p off old (without old hm + (v &&& hm)) then illegalWrite s p
    else
      let s1 := writeEffect (if r.wide then s.wr64 p off x.1 else s.wr p off x.1) p off
      if x.2 || decide (without (v &&& hm) (covered r.fs) ≠ 0) then illegalWrite s1 p else s1

/-! Swap points (R47 and each block's chapter). -/

/-- A group or the head of an intake waits on a signal. -/
def signalWaits (T : Tile) : Bool :=
  T.blocks.any (fun b => b.groups.any (fun g => g.parked.any (fun k => match k.kind with | .wait _ _ _ => true | .bar _ _ => false)))
  || headWaits T.mx.intake || headWaits T.vx.intake || headWaits T.dma.intake

/-- A barrier use of a tile is being timed or, where TG_CFG.wait_wdog has them timed, a signal wait (05 R174). -/
def tileTimed (s : State) (t : Nat) : Bool :=
  (s.tile t).blocks.any (fun b => b.bars.any (fun x => x.since.isSome)) || (s.rdB (pTile t) 0x104 2 && signalWaits (s.tile t))

/-- An enabled block is at a swap point (R174, R277, R361, R392, R393, R430, R497); POWER and DIE are at the start of a control period only (14_power_thermal.md R462, R464), where CONTROL_PERIOD finds them. -/
def busySwapPoint (s : State) (p : Page) : Bool :=
  match p.blk with
  | .tile => !tileTimed s p.inst
  | .queue => decide (qState s p.inst ≠ 2)
  | .conn => decide (connState s p.inst = 0 ∨ connState s p.inst = 1 ∨ connState s p.inst = 5)
  | .link => decide (linkState s p.inst = 0 ∨ linkState s p.inst = 4) ||
      (decide (linkState s p.inst = 1 ∨ linkState s p.inst = 3) && decide ((s.link p.inst).step ≤ 1))
  | .cache => !s.mem.rounds.any (fun d => decide (d.c = p.inst))
  | .hoist => s.hoist.all (fun x => x.isNone) &&
      (match s.mem.scrub with | some x => x.region.isNone | none => true)
  | .power => false
  | .die => false
  | .palur => s.palur.long.isNone
  | _ => true

/-- A block is at a swap point: disabled and not power-gated, or enabled and where its chapter says (R47). -/
def atSwapPoint (s : State) (p : Page) : Bool := !gated s p && (!s.enabled p || busySwapPoint s p)

/-! The check of a shadow set (R48). -/

/-- A word of the shadow set. -/
def State.sh (s : State) (p : Page) (off : Nat) : Nat := s.rd p (off + 0x800)
def State.shF (s : State) (p : Page) (off lo len : Nat) : Nat := s.rdF p (off + 0x800) lo len
def State.shBase (s : State) (p : Page) (off : Nat) : Nat := s.base p (off + 0x800)

/-- Words that hold a reserved encoding: reason 1. -/
def reservedWords (s : State) (p : Page) : List (Nat × Nat) :=
  (List.range (caps p.blk).words).filterMap (fun i =>
    let off := 0x100 + 4 * i
    match regAt p off with
    | some (r, _) => if r.fs.all (fun f => fldLegal f (s.shF p off f.lo f.len)) then none else some (off, 1)
    | none => none)

/-- The offending pairs of a list of conditions. -/
def offending (l : List (Bool × Nat × Nat)) : List (Nat × Nat) := (l.filter (·.1)).map (·.2)

/-- QUEUE (09 R277). -/
def queueCheck (s : State) (p : Page) : List (Nat × Nat) :=
  offending [
    (decide (s.shF p 0x104 2 2 < s.shF p 0x104 0 2), 0x104, 2),
    (!inHbm s (s.shBase p 0x108) (64 * 2 ^ s.shF p 0x104 8 5), 0x108, 3),
    (!inHbm s (s.shBase p 0x110) (32 * 2 ^ s.shF p 0x104 16 5), 0x110, 3),
    (!inHbm s (s.shBase p 0x118) 64, 0x118, 3)]

/-- FABRIC (12_krovmo_fabric.md R390). -/
def fabricCheck (s : State) (p : Page) : List (Nat × Nat) :=
  offending [
    (decide (s.sh p 0x104 ≠ s.rd p 0x104) && (List.range 16384).any (fun c => decide (2 ≤ connState s c ∧ connState s c ≤ 4)), 0x104, 2),
    (decide (s.shF p 0x108 2 2 < s.shF p 0x108 0 2), 0x108, 2)]

/-- The words that a swap of XLAT may change only while nothing uses them (10_translation.md R324). -/
def xlatFixed : List Nat := [0x108, 0x10C, 0x110, 0x114, 0x118, 0x11C, 0x120, 0x124, 0x128, 0x12C]

/-- A command holds pool space, a request is outstanding, or a migration runs. -/
def xlatBusy (s : State) : Bool := decide (poolHeld s ≠ []) || decide (s.xlat.reqs ≠ []) || s.xlat.mig.isSome

/-- The regions that a shadow set enables. -/
def shRegions (s : State) (p : Page) : List Nat := (List.range 8).filter (fun r => bit (s.sh p (0x148 + 16 * r)) 21)

/-- XLAT (10 R324). -/
def xlatCheck (s : State) (p : Page) : List (Nat × Nat) :=
  (if xlatBusy s then (xlatFixed.filter (fun o => decide (s.sh p o ≠ s.rd p o))).map (fun o => (o, 2)) else [])
  ++ offending (
    [(!inHbm s (s.shBase p 0x108) 65536, 0x108, 3),
     (decide (s.shF p 0x118 0 16 ≠ 0) && !inHbm s (s.shBase p 0x110) (65536 * s.shF p 0x118 0 16), 0x110, 3),
     (!inHbm s (s.shBase p 0x11C) (32 * 2 ^ s.shF p 0x124 0 4), 0x11C, 3),
     (bit (s.sh p 0x104) 16 && (shRegions s p).any (fun r => !inHbm s (s.shBase p 0x128 + 2 ^ 20 * r) (4 * s.shF p (0x148 + 16 * r) 0 18)), 0x128, 3)])
  ++ ((shRegions s p).map (fun r => offending [
    (decide (s.sh p (0x140 + 16 * r) % 2 ^ granLog (s.shF p (0x148 + 16 * r) 18 2) ≠ 0), 0x140 + 16 * r, 1),
    (decide (s.shF p (0x148 + 16 * r) 0 18 = 0), 0x148 + 16 * r, 1),
    (decide (s.sh p (0x14C + 16 * r) = 0), 0x14C + 16 * r, 1)])).flatten

/-- HOIST (13 R430). -/
def hoistCheck (s : State) (p : Page) : List (Nat × Nat) :=
  offending [
    (!inHbm s (s.shBase p 0x154) (2 ^ 22), 0x154, 3),
    (!inHbm s (s.shBase p 0x15C) (2 ^ 24), 0x15C, 3),
    (!inHbm s (s.shBase p 0x164) 4, 0x164, 3)]

/-- A range lies in part in a BOUND region. -/
def inBoundRgn (s : State) (a n : Nat) : Bool :=
  (List.range 32).any (fun r => decide (rgnState s r = 2) &&
    (let lo := s.rdF pHoist (0x400 + 16 * r) 0 19 * 2 ^ 21
     decide (lo < a + n ∧ a < lo + s.rdF pHoist (0x404 + 16 * r) 0 19 * 2 ^ 21)))

/-- ERRLOG (16 R519). -/
def errlogCheck (s : State) (p : Page) : List (Nat × Nat) :=
  let log := s.shF p 0x10C 0 5
  let a := s.shBase p 0x104
  offending [
    (decide (log ≠ 0) && (!inHbm s a (64 * 2 ^ log) || inBoundRgn s a (64 * 2 ^ log)), 0x104, 3),
    (decide (1 ≤ log ∧ log ≤ 5), 0x10C, 1)]

/-- MGMT: a VLAN tag needs an identifier of 1-4094 (12 R399). -/
def mgmtCheck (s : State) (p : Page) : List (Nat × Nat) :=
  offending [(bit (s.sh p 0x104) 2 && decide (s.shF p 0x104 4 12 = 0 ∨ s.shF p 0x104 4 12 = 4095), 0x104, 2)]

/-- What a block's chapter adds to the check. -/
def blockCheck (s : State) (p : Page) : List (Nat × Nat) :=
  match p.blk with
  | .queue => queueCheck s p
  | .fabric => fabricCheck s p
  | .xlat => xlatCheck s p
  | .hoist => hoistCheck s p
  | .errlog => errlogCheck s p
  | .mgmt => mgmtCheck s p
  | _ => []

/-- The first offending word in the order of offsets, with its reason. -/
def swapCheck (s : State) (p : Page) : Option (Nat × Nat) :=
  (reservedWords s p ++ blockCheck s p).foldl (fun m x =>
    match m with | none => some x | some y => if x.1 < y.1 then some x else some y) none

/-! The swap (R46, R48). -/

/-- The words of one set copied to the other. -/
def copySet (s : State) (p : Page) (src dst : Nat) : State :=
  (List.range (caps p.blk).words).foldl (fun s i => s.wr p (dst + 4 * i) (s.rd p (src + 4 * i))) s

/-- Some word of the active set differs between two states. -/
def setMoved (old new : State) (p : Page) (offs : List Nat) : Bool := offs.any (fun o => decide (old.rd p o ≠ new.rd p o))

/-- What a completed swap brings about: the node ID takes effect and the links retrain (12 R390), a retirement ring (11_memory_system.md R351) or handler ring (10 R313) that is placed or resized begins, the doorbell blocks follow (09 R287), waiting records move on (16 R520), Palur stores its own set and the port's (12 R399, 15 R497). -/
def afterSwap (old s : State) (p : Page) : State :=
  match p.blk with
  | .fabric =>
    let n := s.rdF p 0x104 0 20
    if n = nodeId s then s
    else (List.range 32).foldl (fun s l => startRetrain s l true) (raise (s.wr p 0x200 n) p 11 0 0xFFFF 0 [n, 0, 0, 0])
  | .hbmc => if setMoved old s p [0x10C, 0x110, 0x114] then retConfigured s p.inst else s
  | .xlat => if setMoved old s p [0x11C, 0x120, 0x124] then (s.wr p 0x200 0).wr p 0x204 0 else s
  | .queue => rewatch s p.inst
  | .errlog => logDrain 256 s
  | .mgmt =>
    let s1 := s.modStore (fun r => { r with mgmtSet := activeSet s p, mgmtLay := (match activeImage s with | some x => x.setLay | none => r.mgmtLay) })
    if old.rdB p 0x104 16 ≠ s.rdB p 0x104 16 ∧ s.rdB p 0x208 0 = true then dhcpStart s1 else s1
  | .palur => s.modStore (fun r => { r with palurSet := activeSet s p, palurLay := (match activeImage s with | some x => x.setLay | none => r.palurLay) })
  | _ => s

/-- A pending swap is performed or refused. -/
def performSwap (s : State) (p : Page) : State :=
  match swapCheck s p with
  | some (off, reason) => raise ((s.wr p 0x700 (off + 4096 * reason)).wrF p 0x14 1 1 0) p 0 0 0xFFFF off
  | none => afterSwap s (((copySet s p 0x900 0x100).inc p 0x704 1).wrF p 0x14 1 1 0) p

/-! Enable (R41, R43). -/

/-- The optical ports that a page takes part in. -/
def portsOf (p : Page) : List Nat :=
  match p.blk with
  | .oe => (List.range 8).map (fun k => 8 * p.inst + k)
  | .link => [p.inst]
  | _ => []

/-- CTRL.enable of a tile, queue or connection is set again after being cleared: its state may be stale (13_binding_and_jobs.md R413). -/
def renewed (s : State) (p : Page) : State := if p.blk = .tile ∨ p.blk = .queue ∨ p.blk = .conn then staleUnit s p else s

/-- STATUS.enabled follows CTRL.enable: an enabled resource whose state may be stale is quarantined or scrubbed (13 R413), ports train or go dark (12 R366), the management port goes down. -/
def settleEnable (s : State) (p : Page) : State :=
  let on := s.rdB p 0x10 0
  if on = s.enabled p then s
  else
    let s1 := (portsOf p).foldl portChange (setEnabled s p on)
    if on then renewed s1 p
    else if p.blk = .mgmt then mgmtDown s1 else s1

/-- A swap is requested; a second request has no effect (R49). -/
def requestSwap (s : State) (p : Page) : State := s.wrF p 0x14 1 1 1

/-- A shadow load, or SHADOW_LOCKED while a swap is pending (R46, R49). -/
def loadShadow (s : State) (p : Page) : State := if s.swapPending p then raise s p 1 else copySet s p 0x100 0x900

/-- The swap and shadow_load bits of a write to CTRL (R43). -/
def ctrlSets (s : State) (p : Page) (swp load : Bool) : State :=
  let s1 := if swp then requestSwap s p else s
  if load then loadShadow s1 p else s1

/-- What a block does at its swap point: the requested swap, then a change of enable that waits. -/
def pointReached (s : State) (p : Page) : State := settleEnable (if s.swapPending p then performSwap s p else s) p
def atPoint (s : State) (p : Page) : State := if atSwapPoint s p then pointReached s p else s

/-- CTRL.enable, swap and shadow_load are written: setting enable together with swap swaps first; clearing it darkens the optical ports at once (12 R366) and waits for the swap point; set again before that, it renews the unit; a tile that failed its test stays disabled (R43, 16 R514). -/
def enableWrite (s : State) (p : Page) (on swp load : Bool) : State :=
  let s1 := ctrlSets s p swp load
  if on && decide (p.blk = .tile) && tileFailed s p.inst then illegalWrite s1 p
  else
    let s2 := s1.wrF p 0x10 0 1 (b2n on)
    if on then
      let s3 := if s.enabled p && !s.rdB p 0x10 0 then renewed ((portsOf p).foldl portChange s2) p else s2
      if swp then atPoint s3 p else settleEnable s3 p
    else atPoint ((portsOf p).foldl portChange s2) p

/-- CTRL.ver_sel is written: every block implements major version 1 only (R60). -/
def verWrite (s : State) (p : Page) (v : Nat) : State := if v = 1 then s.wrF p 0x10 4 4 1 else raise s p 3

/-- The next state of a command's meaning. -/
def nextOf (s : State) (o : Out) : State := match o with | .next t => t | _ => s

/-- A block's own CTRL bit is written 1: what the command of that write does. -/
def ctrlAct (p : Page) (s : State) (b : Nat) : State :=
  nextOf s (
    match p.blk, b with
    | .hostc, _ => execCtrlHostReset s
    | .cache, _ => execScrubGo s
    | .time, _ => execTimeSnap s
    | .power, _ => execRelearn s
    | .die, _ => execDieRecover p.inst s
    | .queue, 16 => execQueueArm p.inst s
    | .queue, 17 => execQueueStop p.inst s
    | .conn, 16 => execConnOpen p.inst s
    | .conn, 17 => execConnClose p.inst s
    | .hbmc, 16 => execMapoutGo p.inst s
    | .hbmc, _ => execHbmRetrain p.inst s
    | .link, 16 => execLinkTrain p.inst s
    | .link, _ => execLinkForceDown p.inst s
    | _, 20 => execBindReq p s
    | _, _ => execResourceTeardown p s)

/-- CTRL is written whole: each assigned bit has its effect, and a reserved one is reported (R43, R58). -/
def ctrlWrite (s : State) (p : Page) (v : Nat) : State :=
  let s1 := enableWrite (verWrite s p (bits v 4 4)) p (bit v 0) (bit v 1) (bit v 2)
  let s2 := ((ctrlBits p).filter (bit v)).foldl (ctrlAct p) s1
  if without v (0xF7 + maskOf (ctrlBits p)) = 0 then s2 else illegalWrite s2 p

/-- ENABLE. -/
def execEnable (p : Page) (on swp load : Bool) (s : State) : Out :=
  onUnit (pageOk p) (if reached s p then enableWrite s p on swp load else s)

/-- CONTROL_PERIOD: at its start POWER and the dies are at their swap points (14_power_thermal.md R445, R462, R464). -/
def execControlPeriod (y : ControlIn) (s : State) : Out :=
  .next (
    if !alive s then s
    else controlPeriod y ((pPower :: (List.range 4).map pDie).foldl (fun s p => if gated s p then s else pointReached s p) s))

/-! REGISTER_WRITE (R36, R37, R58). -/

/-- A 32-bit write to a page (R37, R45, R58). -/
def write32 (s : State) (p : Page) (off v : Nat) : State :=
  if off = 0x10 then ctrlWrite s p v
  else if inActive p off then illegalWrite s p
  else if inShadow p off then shadowWrite s p off v
  else match regAt p off with
  | none => illegalWrite s p
  | some (r, false) => opWrite s p off r (2 ^ 32 - 1) v
  | some (r, true) => opWrite s p (off - 4) r ((2 ^ 32 - 1) * 2 ^ 32) (v * 2 ^ 32)

/-- A 64-bit write to a page: whole 64-bit registers take it, 32-bit ones do not (R37). -/
def write64 (s : State) (p : Page) (off v : Nat) : Option State :=
  if inActive p off || inShadow p off then none
  else match regAt p off with
  | none => some (illegalWrite s p)
  | some (r, hi) => if r.wide && !hi then some (opWrite s p off r (2 ^ 64 - 1) v) else none

/-- A write that its page takes: none where the width or alignment is of no register (R37). -/
def pageWrite (s : State) (p : Page) (off size v : Nat) : Option State :=
  if size = 4 ∧ off % 4 = 0 then some (write32 s p off (v % 2 ^ 32))
  else if size = 8 ∧ off % 8 = 0 then write64 s p off v
  else none

/-- A write that no page takes: a store access fault of the hart, and of Palur nothing (R36, R37). -/
def writeRefused (s : State) (who : Agent) (addr : Nat) : State :=
  match who with
  | .host n => hartFault s n addr true
  | .palur => s

/-- A register write of an agent can be made now: the register space is served, and a hart's lines on their way to memory, which its later stores follow, have arrived (03_memory_model.md R102). -/
def writeOpen (s : State) (who : Agent) : Bool :=
  match who with
  | .host n => served s && !hostOwes s n
  | .palur => s.up

/-- REGISTER_WRITE. A write over a halted network waits (01_architecture.md R22). -/
def execRegisterWrite (who : Agent) (addr size : Nat) (v : BitVec 64) (s : State) : Out :=
  .next (
    if !writeOpen s who then s
    else match pageOf addr with
    | none => writeRefused s who addr
    | some (p, off) =>
      if s.netHalted && farPage p then s
      else (pageWrite s p off size v.toNat).getD (writeRefused s who addr))

/-! The other commands of CTRL (R43, R46, R60). -/

/-- CTRL_SWAP: swap is requested, with or without shadow_load. -/
def execCtrlSwap (p : Page) (load : Bool) (s : State) : Out :=
  onUnit (pageOk p) (if reached s p then ctrlSets s p true load else s)

/-- SHADOW_LOAD. -/
def execShadowLoad (p : Page) (s : State) : Out := onUnit (pageOk p) (if reached s p then loadShadow s p else s)

/-- VER_SEL (R60). -/
def execVerSel (p : Page) (v : BitVec 4) (s : State) : Out :=
  onUnit (pageOk p) (if reached s p then verWrite s p v.toNat else s)

/-- SWAP: the block is at a swap point. -/
def execSwap (p : Page) (s : State) : Out := onUnit (pageOk p) (if s.up then atPoint s p else s)

/-! Flags (R52, R58). -/

/-- FLAG_CLEAR: a write of 1 to FLAGS bits or to a latched valid bit. -/
def execFlagClear (p : Page) (off : Nat) (mask : BitVec 32) (s : State) : Out :=
  onUnit (pageOk p)
    (if !reached s p then s
     else match regAt p off with
     | some (r, false) =>
       let ones := covered (r.fs.filter (fun f => decide (f.acc = .w1c)))
       if ones = 0 then s
       else
         let s1 := s.wr p off (without (s.rd p off) (mask.toNat &&& ones))
         if without mask.toNat (covered r.fs) = 0 then s1 else illegalWrite s1 p
     | _ => s)

/-! Disturbance (R44, 16 R524). -/

/-- The moment `s.ref` lies in a stall window. -/
def inWindow (s : State) (p : Page) : Bool :=
  armed s p && decide (winPeriod s p ≠ 0) && decide (sincePhase s p % winPeriod s p < winLength s p)

/-- A stall window opens. -/
def openWindow (s : State) (p : Page) : State := if s.stalls.contains p then s else { s with stalls := s.stalls ++ [p] }

/-- The windows are phased from this moment: a window in progress ends, and the first one opens. -/
def startPhase (s : State) (p : Page) : State :=
  let s1 := { s with phase := fset (fun _ => 0) s.phase (pageNo p) (s.ref + 1) }
  if winPeriod s p ≠ 0 ∧ winLength s p ≠ 0 then openWindow s1 p else s1

/-- A window ends: a link that it held sends what waits (12_krovmo_fabric.md R392, 16 R524). -/
def windowEnds (s : State) (p : Page) : State :=
  let s1 := closeWindow s p
  if p.blk = .link then linkGo p.inst s1 else s1

/-- The value of a 64-bit register after a write to a part of it. -/
def mergeHalf (h : Half) (old v : Nat) : Nat :=
  match h with
  | .whole => v
  | .low => old / 2 ^ 32 * 2 ^ 32 + v % 2 ^ 32
  | .high => old % 2 ^ 32 + v % 2 ^ 32 * 2 ^ 32

/-- The bits that a write reaches. -/
def halfMask : Half → Nat
  | .whole => 2 ^ 64 - 1
  | .low => 2 ^ 32 - 1
  | .high => (2 ^ 32 - 1) * 2 ^ 32

/-- The value written, in its place. -/
def halfValue (h : Half) (v : Nat) : Nat :=
  match h with
  | .whole => v
  | .low => v % 2 ^ 32
  | .high => v % 2 ^ 32 * 2 ^ 32

/-- The bits of DISTURB that are no field (R41). -/
def disturbFields : Nat := 0x3FF + 0x7F * 2 ^ 16 + 0xFF * 2 ^ 24 + 2 ^ 63

/-- credit_hold must be zero (16 R524). -/
def noCreditHold (p : Page) : Bool := decide (p.blk = .hbmc ∨ p.blk = .qeng ∨ p.blk = .xlat)

/-- A write to DISTURB or DISTURB_WIN that the page or the state does not take. -/
def disturbGate (s : State) (p : Page) (k : State) : State :=
  if !reached s p then s
  else if !hasDisturb p then illegalWrite s p
  else if !disturbAllowed s p then raise s p 4
  else k

/-- DISTURB_WRITE. -/
def execDisturbWrite (p : Page) (h : Half) (v : BitVec 64) (s : State) : Out :=
  onUnit (pageOk p)
    (disturbGate s p (
      let new := mergeHalf h (s.rd64 p 0x30) (v.toNat) &&& disturbFields
      let was := armed s p
      if 1000 < bits new 0 10 ∨ 100 < bits new 16 7 ∨ (noCreditHold p = true ∧ bits new 24 8 ≠ 0) then illegalWrite s p
      else
        let s1 := s.wr64 p 0x30 new
        let s2 := if bit new 63 && !was then startPhase s1 p
          else if !bit new 63 && was then { windowEnds s1 p with phase := ferase s1.phase (pageNo p) } else s1
        if without (halfValue h v.toNat) disturbFields = 0 then s2 else illegalWrite s2 p))

/-- DISTURB_WIN_WRITE. -/
def execDisturbWinWrite (p : Page) (h : Half) (v : BitVec 64) (s : State) : Out :=
  onUnit (pageOk p)
    (disturbGate s p (
      let new := mergeHalf h (s.rd64 p 0x38) v.toNat
      if new % 2 ^ 32 ≠ 0 ∧ new % 2 ^ 32 ≤ new / 2 ^ 32 then illegalWrite s p
      else if armed s p then startPhase ((windowEnds s p).wr64 p 0x38 new) p
      else s.wr64 p 0x38 new))

/-- STALL_WINDOW_OPEN: the timebase reaches the start of a window. -/
def execStallWindowOpen (p : Page) (s : State) : Out :=
  onUnit (pageOk p) (if s.up && hasDisturb p && inWindow s p then openWindow s p else s)

/-- STALL_WINDOW_CLOSE: a window reaches its length. -/
def execStallWindowClose (p : Page) (s : State) : Out :=
  onUnit (pageOk p) (if s.up && !inWindow s p then windowEnds s p else s)

/-! Bunting (R53-R55). -/

/-- The summary word and bit of a page; a QUEUE or CONN bit stands for 32 pages. -/
def sumPlace (p : Page) : Nat × Nat :=
  match p.blk with
  | .die => (0x188, p.inst)
  | .oe => (0x18C, p.inst)
  | .link => (0x190, p.inst)
  | .cache => (0x194, p.inst)
  | .hbmc => (0x198, p.inst)
  | .tile => (0x1A0 + 4 * (p.inst / 32), p.inst % 32)
  | .queue => (0x200 + 4 * (p.inst / 1024), p.inst / 32 % 32)
  | .conn => (0x240 + 4 * (p.inst / 1024), p.inst / 32 % 32)
  | b => (0x184, typeCode b - 1)

/-- The pages that a page's summary bit stands for. -/
def sumSources (p : Page) : List Page :=
  if p.blk = .queue ∨ p.blk = .conn then (List.range 32).map (fun i => ⟨p.blk, p.inst / 32 * 32 + i⟩) else [p]

/-- SUM_TOP from the words below it. -/
def sumTop (s : State) : Nat :=
  let any (off n : Nat) : Bool := (List.range n).any (fun w => decide (s.rd pBunt (off + 4 * w) ≠ 0))
  maskOf ((List.range 9).filter (fun b =>
    match b with | 6 => any 0x1A0 5 | 7 => any 0x200 16 | 8 => any 0x240 16 | b => any (0x184 + 4 * b) 1))

/-- SUMMARY_UPDATE: the summary bit of a page, and SUM_TOP, follow the masked flags beneath them. While BUNT itself is disabled its words keep their values, and the interrupt the level they give: R54 does not say what they read then (DESIGN CHOICE, log entry 168). -/
def execSummaryUpdate (p : Page) (s : State) : Out :=
  onUnit (pageOk p)
    (if s.up && s.enabled pBunt then
       let s1 := s.wrF pBunt (sumPlace p).1 (sumPlace p).2 1 (b2n ((sumSources p).any (flagsPending s)))
       s1.wr pBunt 0x180 (sumTop s1)
     else s)

end Sys2Proof.Machine
end

