-- ==== Sys2Proof/Machine/ThreadAlu.lean ====
section
/-! DEFINITION. Thread instructions that compute on registers and predicates: classes 0x0 to 0x3, 0xA and 0xD of 05_thread_groups.md R148 with the operand forms of R542. -/

namespace Sys2Proof.Machine

open Sys2Proof

/-! Class 0: integer. -/

/-- add: dst = a + b, modulo 2^32. -/
def execIadd (gr : GRef) (x : TInstr) (s : State) : Out := intOp2 gr x s (fun a b => a + b)
/-- sub. -/
def execIsub (gr : GRef) (x : TInstr) (s : State) : Out := intOp2 gr x s (fun a b => a + 2 ^ 32 - b)
/-- mul_lo: the low 32 bits of the product. -/
def execMulLo (gr : GRef) (x : TInstr) (s : State) : Out := intOp2 gr x s (fun a b => a * b)
/-- and. -/
def execIand (gr : GRef) (x : TInstr) (s : State) : Out := intOp2 gr x s (fun a b => a &&& b)
/-- or. -/
def execIor (gr : GRef) (x : TInstr) (s : State) : Out := intOp2 gr x s (fun a b => a ||| b)
/-- xor. -/
def execIxor (gr : GRef) (x : TInstr) (s : State) : Out := intOp2 gr x s (fun a b => a ^^^ b)
/-- shl: a shifted left by b AND 31. -/
def execShl (gr : GRef) (x : TInstr) (s : State) : Out := intOp2 gr x s (fun a b => a * 2 ^ (b % 32))
/-- shr: zeros come in. -/
def execShr (gr : GRef) (x : TInstr) (s : State) : Out := intOp2 gr x s (fun a b => a / 2 ^ (b % 32))
/-- sar: copies of bit 31 come in. -/
def execSar (gr : GRef) (x : TInstr) (s : State) : Out :=
  intOp2 gr x s (fun a b => uimg 32 (sint 32 a / ((2 ^ (b % 32) : Nat) : Int)))
/-- min of INT32 values. -/
def execImin (gr : GRef) (x : TInstr) (s : State) : Out := intOp2 gr x s (fun a b => if sint 32 b < sint 32 a then b else a)
/-- max of INT32 values. -/
def execImax (gr : GRef) (x : TInstr) (s : State) : Out := intOp2 gr x s (fun a b => if sint 32 a < sint 32 b then b else a)
/-- popc: the count of ones. -/
def execPopc (gr : GRef) (x : TInstr) (s : State) : Out := intOp1 gr x s (fun a => Sys2Proof.Machine.popc 32 a)
/-- clz: the count of leading zeros. -/
def execClz (gr : GRef) (x : TInstr) (s : State) : Out :=
  intOp1 gr x s (fun a => if a = 0 then 32 else 31 - Nat.log2 a)

/-- Checks of mul_hi: c[7:1] reserved. -/
def checksMulHi (tc : TC) : List (Bool × Nat) := (decide (2 ≤ tc.x.c.toNat), 1) :: checks2 1 tc

/-- mul_hi: bits [63:32] of the product, signed or (c[0]) unsigned; c[7:1] reserved. -/
def execMulHi (gr : GRef) (x : TInstr) (s : State) : Out :=
  laneOp gr x s checksMulHi (fun tc l =>
    let a := tc.get l tc.x.a 1
    let b := srcB tc l 1
    (tc.put l 1 (if tc.x.c.toNat = 1 then a * b / 2 ^ 32 else uimg 64 (sint 32 a * sint 32 b) / 2 ^ 32), .zero))

/-- add64: pairs, modulo 2^64. -/
def execAdd64 (gr : GRef) (x : TInstr) (s : State) : Out :=
  laneOp gr x s (checks2 2) (fun tc l => (tc.put l 2 (tc.get l tc.x.a 2 + srcB tc l 2), .zero))

/-- Registers that mov moves: one, or with c[1] a pair. -/
def movRegs (x : TInstr) : Nat := if bit x.c.toNat 1 then 2 else 1

/-- Checks of mov (R542). -/
def checksMov (tc : TC) : List (Bool × Nat) :=
  illegalCommon tc.x 1 true false ++
  [(decide (tc.x.c ≠ 0 ∧ tc.x.c ≠ 2), 1), (tc.x.wide && tc.x.a ≠ 0, 1), (decide (tc.fmt ≠ 9), 0x0B),
   (tc.badR tc.x.dst (movRegs tc.x) || (!tc.x.wide && tc.badR tc.x.a (movRegs tc.x)), 2)]

/-- mov: dst = a, or the immediate; c[0] and c[7:2] reserved. -/
def execMov (gr : GRef) (x : TInstr) (s : State) : Out :=
  laneOp gr x s checksMov
    (fun tc l =>
      let n := movRegs tc.x
      (tc.put l n (if tc.x.wide then tc.x.imm.toNat else tc.get l tc.x.a n), .zero))

/-! Class 1: floating point (R150). -/

/-- FP add, correctly rounded. -/
def execFpAdd (gr : GRef) (x : TInstr) (s : State) : Out := fpOp2 gr x s fadd
/-- FP sub. -/
def execFpSub (gr : GRef) (x : TInstr) (s : State) : Out := fpOp2 gr x s (fun d a b => fadd d a (fneg b))
/-- FP mul. -/
def execFpMul (gr : GRef) (x : TInstr) (s : State) : Out := fpOp2 gr x s (fun _ a b => fmul a b)
/-- FP min: the non-NaN operand, -0 below +0. -/
def execFpMin (gr : GRef) (x : TInstr) (s : State) : Out := fpOp2 gr x s (fun _ a b => fminV a b)
/-- FP max. -/
def execFpMax (gr : GRef) (x : TInstr) (s : State) : Out := fpOp2 gr x s (fun _ a b => fmaxV a b)
/-- FP div, correctly rounded. -/
def execFpDiv (gr : GRef) (x : TInstr) (s : State) : Out := fpOp2 gr x s (fun _ a b => fdiv a b)

/-- fma: a x b + c with one rounding (R150). -/
def execFpFma (gr : GRef) (x : TInstr) (s : State) : Out :=
  laneOp gr x s (checksFp 3) (fun tc l =>
    let n := fmtRegs tc.fmt
    let a := decodeFV tc.fmt (tc.get l tc.x.a n)
    let b := decodeFV tc.fmt (srcB tc l n)
    let c := decodeFV tc.fmt (tc.get l tc.x.c n)
    let r := finish tc.fmt (tc.rnd (tc.tid l)) (a.isNan || b.isNan || c.isNan)
      (fadd (decide (tc.cvt % 8 = 2)) (fmul a b) c)
    (tc.put l n r.1, r.2))

/-- A function of one exact value. -/
def fpExact (f : FV → FV) (fmt _cvt : Nat) (r : Rnd) (a : Nat) : Nat × NEv :=
  finish fmt r (decodeFV fmt a).isNan (f (decodeFV fmt a))

/-- abs. -/
def execFpAbs (gr : GRef) (x : TInstr) (s : State) : Out := fpOp1 gr x s (fpExact fabs)
/-- neg. -/
def execFpNeg (gr : GRef) (x : TInstr) (s : State) : Out := fpOp1 gr x s (fpExact fneg)
/-- sqrt, correctly rounded. -/
def execFpSqrt (gr : GRef) (x : TInstr) (s : State) : Out := fpOp1 gr x s (fpExact fsqrt)
/-- rcp, within 1 ulp, special values of R211. -/
def execFpRcp (gr : GRef) (x : TInstr) (s : State) : Out := fpOp1 gr x s (mathFn 0x30)
/-- rsqrt, within 1 ulp. -/
def execFpRsqrt (gr : GRef) (x : TInstr) (s : State) : Out := fpOp1 gr x s (mathFn 0x31)
/-- exp2, within 2 ulp. -/
def execFpExp2 (gr : GRef) (x : TInstr) (s : State) : Out := fpOp1 gr x s (mathFn 0x34)
/-- log2, within 2 ulp. -/
def execFpLog2 (gr : GRef) (x : TInstr) (s : State) : Out := fpOp1 gr x s (mathFn 0x36)
/-- sin, within 2 ulp. -/
def execFpSin (gr : GRef) (x : TInstr) (s : State) : Out := fpOp1 gr x s (mathFn 0x3B)
/-- cos, within 2 ulp. -/
def execFpCos (gr : GRef) (x : TInstr) (s : State) : Out := fpOp1 gr x s (mathFn 0x3C)

/-! Class 2: conversion. -/

/-- Checks of cvt (R119, R542). -/
def checksCvt (tc : TC) : List (Bool × Nat) :=
  illegalCommon tc.x 0 true true ++
  [(decide (16 ≤ tc.x.c.toNat), 1), (!isElemFmt tc.fmt || !isElemFmt tc.x.c.toNat, 0x0B), (cvtBad tc.cvt tc.fmt, 0x0C),
   (tc.badR tc.x.dst (fmtRegs tc.fmt) || tc.badR tc.x.a (fmtRegs tc.x.c.toNat), 2)]

/-- cvt: register a from format c[3:0] to format fmt (R119). -/
def execCvt (gr : GRef) (x : TInstr) (s : State) : Out :=
  laneOp gr x s checksCvt
    (fun tc l =>
      let r := convert tc.x.c.toNat tc.fmt (tc.rnd (tc.tid l)) (tc.get l tc.x.a (fmtRegs tc.x.c.toNat))
      (tc.put l (fmtRegs tc.fmt) r.1, r.2))

/-- The elements of a packed register, each converted (R151): the register and the events. -/
def packRegs (tc : TC) (l n : Nat) : Nat × NEv :=
  (List.range n).foldl (fun (acc : Nat × NEv) j =>
    let r := convert tc.x.c.toNat tc.fmt (tc.rnd (n * tc.tid l + j)) (tc.grp.reg l (tc.x.a.toNat + j))
    (acc.1 + r.1 % 2 ^ fmtBits tc.fmt * 2 ^ (fmtBits tc.fmt * j), acc.2.add r.2)) (0, .zero)

/-- Checks of cvt.pack (R151). -/
def checksPack (tc : TC) : List (Bool × Nat) :=
  illegalCommon tc.x 0 true true ++
  [(decide (16 ≤ tc.x.c.toNat), 1), (decide (tc.x.b ≠ 0), 1),
   ((packN tc.fmt).isNone || !(tc.x.c = 1 || tc.x.c = 9), 0x0B), (cvtBad tc.cvt tc.fmt, 0x0C),
   (tc.badR tc.x.dst 1 || tc.badRun tc.x.a ((packN tc.fmt).getD 1), 2)]

/-- cvt.pack (R151). -/
def execCvtPack (gr : GRef) (x : TInstr) (s : State) : Out :=
  laneOp gr x s checksPack
    (fun tc l =>
      let r := packRegs tc l ((packN tc.fmt).getD 1)
      (tc.put l 1 r.1, r.2))

/-- Checks of cvt.unpack (R151). -/
def checksUnpack (tc : TC) : List (Bool × Nat) :=
  illegalCommon tc.x 0 true true ++
  [(decide (16 ≤ tc.x.c.toNat), 1), (decide (tc.x.b ≠ 0), 1),
   ((packN tc.x.c.toNat).isNone || tc.fmt ≠ unpackTo tc.x.c.toNat, 0x0B), (cvtBad tc.cvt tc.fmt, 0x0C),
   (tc.badR tc.x.a 1 || tc.badRun tc.x.dst ((packN tc.x.c.toNat).getD 1), 2)]

/-- cvt.unpack (R151): each element exactly. -/
def execCvtUnpack (gr : GRef) (x : TInstr) (s : State) : Out :=
  laneOp gr x s checksUnpack
    (fun tc l =>
      let src := tc.x.c.toNat
      let w := fmtBits src
      let rs := (List.range ((packN src).getD 1)).map (fun j =>
        let r := convert src tc.fmt (tc.rnd (tc.tid l)) (bits (tc.get l tc.x.a 1) (w * j) w)
        ([(32 * (tc.x.dst.toNat + j) + l, r.1)], r.2))
      gather rs)

/-! Class 3: compare and predicate. -/

/-- eq. -/
def execCmpEq (gr : GRef) (x : TInstr) (s : State) : Out := cmpOp gr x s (ordered (fun o => o = .eq))
/-- ne: true of a NaN. -/
def execCmpNe (gr : GRef) (x : TInstr) (s : State) : Out := cmpOp gr x s (fun a b => !ordered (fun o => o = .eq) a b)
/-- lt. -/
def execCmpLt (gr : GRef) (x : TInstr) (s : State) : Out := cmpOp gr x s (ordered (fun o => o = .lt))
/-- le. -/
def execCmpLe (gr : GRef) (x : TInstr) (s : State) : Out := cmpOp gr x s (ordered (fun o => o ≠ .gt))
/-- gt. -/
def execCmpGt (gr : GRef) (x : TInstr) (s : State) : Out := cmpOp gr x s (ordered (fun o => o = .gt))
/-- ge. -/
def execCmpGe (gr : GRef) (x : TInstr) (s : State) : Out := cmpOp gr x s (ordered (fun o => o ≠ .lt))
/-- unordered: an operand is a NaN. -/
def execUnordered (gr : GRef) (x : TInstr) (s : State) : Out := cmpOp gr x s (fun a b => a.isNan || b.isNan)

/-- Checks of select: c[7:3] reserved. -/
def checksSelect (tc : TC) : List (Bool × Nat) :=
  (decide (8 ≤ tc.x.c.toNat), 1) :: checksCmp tc ++ [(tc.badR tc.x.dst (fmtRegs tc.fmt), 2)]

/-- select: dst = a where p[c[2:0]] is true, otherwise b; c[7:3] reserved. -/
def execSelect (gr : GRef) (x : TInstr) (s : State) : Out :=
  laneOp gr x s checksSelect
    (fun tc l =>
      let n := fmtRegs tc.fmt
      (tc.put l n (if tc.predOf tc.x.c l then tc.get l tc.x.a n else srcB tc l n), .zero))

/-- pand. -/
def execPand (gr : GRef) (x : TInstr) (s : State) : Out :=
  predOp gr x s (checksPred true) (fun tc l => tc.predOf tc.x.a l && tc.predOf tc.x.b l)
/-- por. -/
def execPor (gr : GRef) (x : TInstr) (s : State) : Out :=
  predOp gr x s (checksPred true) (fun tc l => tc.predOf tc.x.a l || tc.predOf tc.x.b l)
/-- pxor. -/
def execPxor (gr : GRef) (x : TInstr) (s : State) : Out :=
  predOp gr x s (checksPred true) (fun tc l => tc.predOf tc.x.a l != tc.predOf tc.x.b l)
/-- pnot. -/
def execPnot (gr : GRef) (x : TInstr) (s : State) : Out :=
  predOp gr x s (checksPred false) (fun tc l => !tc.predOf tc.x.a l)

/-! Class A: group (R172). -/

/-- Checks of a shuffle. -/
def checksShfl (tc : TC) : List (Bool × Nat) :=
  illegalCommon tc.x 0 false false ++ [(tc.badR tc.x.dst 1 || tc.badR tc.x.a 1 || tc.badR tc.x.b 1, 2)]

/-- A shuffle: register a of the source lane; an inactive lane or an index outside 0-31 yields the reading lane's own. -/
def shflOp (gr : GRef) (x : TInstr) (s : State) (f : Nat → Nat → Option Nat) : Out :=
  laneOp gr x s checksShfl
    (fun tc l =>
      let src := match f l (tc.get l tc.x.b 1) with
        | some k => if tc.act.contains k then k else l
        | none => l
      (tc.put l 1 (tc.get src tc.x.a 1), .zero))

/-- shfl.idx: source lane b. -/
def execShflIdx (gr : GRef) (x : TInstr) (s : State) : Out := shflOp gr x s (fun _ b => some b)
/-- shfl.up: source lane - b. -/
def execShflUp (gr : GRef) (x : TInstr) (s : State) : Out := shflOp gr x s (fun l b => if b ≤ l then some (l - b) else none)
/-- shfl.down: source lane + b. -/
def execShflDown (gr : GRef) (x : TInstr) (s : State) : Out := shflOp gr x s (fun l b => some (l + b))
/-- shfl.xor: source lane XOR b. -/
def execShflXor (gr : GRef) (x : TInstr) (s : State) : Out := shflOp gr x s (fun l b => some (l ^^^ b))

/-- Checks of votes and ballot: c[7:3] reserved. -/
def checksVote (tc : TC) : List (Bool × Nat) := illegalCommon tc.x 0 false false ++ [(decide (8 ≤ tc.x.c.toNat), 1)]

/-- vote.any: some active lane's predicate is true. -/
def execVoteAny (gr : GRef) (x : TInstr) (s : State) : Out :=
  predOp gr x s checksVote (fun tc _ => tc.act.any (tc.predOf tc.x.c))
/-- vote.all: every active lane's predicate is true. -/
def execVoteAll (gr : GRef) (x : TInstr) (s : State) : Out :=
  predOp gr x s checksVote (fun tc _ => tc.act.all (tc.predOf tc.x.c))
/-- Checks of ballot. -/
def checksBallot (tc : TC) : List (Bool × Nat) := checksVote tc ++ [(tc.badR tc.x.dst 1, 2)]

/-- ballot: the mask of the active lanes whose predicate is true. -/
def execBallot (gr : GRef) (x : TInstr) (s : State) : Out :=
  laneOp gr x s checksBallot
    (fun tc l => (tc.put l 1 (tc.maskWhere (tc.predOf tc.x.c)), .zero))

/-! Class D: special read. -/

/-- Checks of a special read of `n` registers. -/
def checksRead (n : Nat) (tc : TC) : List (Bool × Nat) := illegalCommon tc.x 0 false false ++ [(tc.badR tc.x.dst n, 2)]

/-- A special read of `n` registers. -/
def readOp (gr : GRef) (x : TInstr) (s : State) (n : Nat) (f : TC → Nat → Nat) : Out :=
  laneOp gr x s (checksRead n)
    (fun tc l => (tc.put l n (f tc l), .zero))

/-- The lane number. -/
def execReadLane (gr : GRef) (x : TInstr) (s : State) : Out := readOp gr x s 1 (fun _ l => l)
/-- The group within its block. -/
def execReadGroup (gr : GRef) (x : TInstr) (s : State) : Out := readOp gr x s 1 (fun tc _ => tc.gr.grp)
/-- The block index. -/
def execReadBlockIndex (gr : GRef) (x : TInstr) (s : State) : Out := readOp gr x s 1 (fun tc _ => tc.blk.index)
/-- The tile number. -/
def execReadTileNumber (gr : GRef) (x : TInstr) (s : State) : Out := readOp gr x s 1 (fun tc _ => tc.gr.tile)
/-- The node ID in effect. -/
def execReadNodeId (gr : GRef) (x : TInstr) (s : State) : Out := readOp gr x s 1 (fun _ _ => nodeId s)
/-- The reference timebase, to a pair. -/
def execReadTime (gr : GRef) (x : TInstr) (s : State) : Out := readOp gr x s 2 (fun _ _ => s.ref)
/-- The launch's number of blocks on this tile. -/
def execReadNblocks (gr : GRef) (x : TInstr) (s : State) : Out := readOp gr x s 1 (fun tc _ => tc.blk.launch.nblocks)

end Sys2Proof.Machine
end

