-- ==== Sys2Proof/Machine/ThreadCtl.lean ====
section
/-! DEFINITION. Thread control instructions: class 0x4 (05_thread_groups.md R148, R152-R156, R542). -/

namespace Sys2Proof.Machine

open Sys2Proof

/-- The branch target and the reconvergence point of word 2. -/
def ctlTarget (x : TInstr) : Nat := x.imm.toNat % 2 ^ 32
def ctlRecon (x : TInstr) : Nat := x.imm.toNat / 2 ^ 32

/-- Length of extent 0, which holds the program. -/
def TC.progLen (tc : TC) : Nat := match tc.blk.launch.extents with | e :: _ => e.len | [] => 0

/-- Checks of a control target (R542): a multiple of 8, inside extent 0. -/
def badTarget (tc : TC) (t : Nat) : List (Bool × Nat) := [(decide (t % 8 ≠ 0), 3), (decide (tc.progLen ≤ t), 4)]

/-- The lanes for which the condition of bra or bra.div holds: p[c[2:0]], negated by c[3]. -/
def TC.condMask (tc : TC) : Nat := tc.maskWhere (fun l => tc.predOf tc.x.c l != bit tc.x.c.toNat 3)

/-- The group moves on behind the instruction. -/
def stepOn (tc : TC) (s : State) : State := s.modGroup tc.gr (fun g => g.advance tc.len)

/-- The running path goes on at a target. -/
def jumpTo (tc : TC) (s : State) (t : Nat) : State :=
  s.modGroup tc.gr (fun g => { g with run := g.run.map (fun p => { p with pc := t }) })

/-- The first control target that is at fault: the address that the fault concerns (R176). -/
def badTargetAddr (tc : TC) (ts : List Nat) : Nat := (ts.find? (fun t => decide (t % 8 ≠ 0 ∨ tc.progLen ≤ t))).getD 0

/-- Continue unless a check fails; MISALIGNED and EXTENT_BOUND concern a target among `ts`. -/
def guardedCtl (tc : TC) (s : State) (checks : List (Bool × Nat)) (ts : List Nat) (k : State) : State :=
  match firstBad checks with
  | some c => threadFault tc s c (if c = 3 ∨ c = 4 then badTargetAddr tc ts else 0)
  | none => k

/-- A control instruction: static checks, nothing more where no lane is active (R152), else its effect. -/
def ctlOp (gr : GRef) (x : TInstr) (s : State) (checks : TC → List (Bool × Nat)) (ts : List Nat) (f : TC → State → State) : Out :=
  runThread gr x s (fun tc s => guardedCtl tc s (checks tc) ts (if tc.act = [] then stepOn tc s else f tc s))

/-- Checks of bra, bra.div and call (R542). -/
def checksBra (tc : TC) : List (Bool × Nat) :=
  illegalCommon tc.x 2 false false ++ [(decide (16 ≤ tc.x.c.toNat), 1), (decide (ctlRecon tc.x ≠ 0), 1)] ++ badTarget tc (ctlTarget tc.x)
def checksBraDiv (tc : TC) : List (Bool × Nat) :=
  illegalCommon tc.x 2 false false ++ [(decide (16 ≤ tc.x.c.toNat), 1)] ++ badTarget tc (ctlTarget tc.x) ++ badTarget tc (ctlRecon tc.x)
def checksCall (tc : TC) : List (Bool × Nat) :=
  illegalCommon tc.x 2 false false ++ [(decide (ctlRecon tc.x ≠ 0), 1)] ++ badTarget tc (ctlTarget tc.x)

/-- bra: the path goes on at the target where the condition holds for every active lane, and falls through where it holds for none (R154). -/
def execBra (gr : GRef) (x : TInstr) (s : State) : Out :=
  ctlOp gr x s checksBra [ctlTarget x]
    (fun tc s =>
      if tc.condMask = 0 then stepOn tc s
      else if tc.condMask = tc.mask then jumpTo tc s (ctlTarget tc.x)
      else threadFault tc s 1 0)

/-- bra.div: the path splits where some of its lanes take the branch and some do not (R153). -/
def execBraDiv (gr : GRef) (x : TInstr) (s : State) : Out :=
  runThread gr x s (fun tc s =>
    guardedCtl tc s (checksBraDiv tc) [ctlTarget x, ctlRecon x]
      (if tc.condMask = 0 then stepOn tc s
       else if tc.condMask = tc.path.lanes then jumpTo tc s (ctlTarget tc.x)
       else if 32 < tc.grp.depth + 2 then threadFault tc s 0x0E 0
       else s.modGroup tc.gr (fun g =>
         g.split tc.path tc.condMask (ctlTarget tc.x) (ctlRecon tc.x) (tc.path.pc + tc.len))))

/-- Checks of a control instruction with no operands. -/
def checksPlain (tc : TC) : List (Bool × Nat) := illegalCommon tc.x 0 false false

/-- The active lanes of a path reach join: they wait in their split, lanes whose guard is false stay in the path, and a path with no lanes left gives way to the next entry (R152, R153). -/
def Group.joinLanes (g : Group) (p : Path) (id mask n : Nat) : Group :=
  let g1 := { g with splits := lupdate (fun y => decide (y.id = id)) (fun y => { y with joined := y.joined ||| mask }) g.splits }
  let left := p.lanes &&& (allLanes ^^^ mask)
  if left = 0 then g1.next else { g1 with run := some { p with lanes := left, pc := p.pc + n } }

/-- join: ends the path (R153); with no split to close it is illegal (R154). -/
def execJoin (gr : GRef) (x : TInstr) (s : State) : Out :=
  ctlOp gr x s checksPlain [] (fun tc s =>
    match tc.path.frames with
    | .split id :: _ => s.modGroup tc.gr (fun g => g.joinLanes tc.path id tc.mask tc.len)
    | _ => threadFault tc s 1 0)

/-- call: pushes the return point, pc + 16, with the path's lanes, and goes on at the target (R154, R542). -/
def execCall (gr : GRef) (x : TInstr) (s : State) : Out :=
  ctlOp gr x s checksCall [ctlTarget x]
    (fun tc s =>
      if 32 < tc.grp.depth + 1 then threadFault tc s 0x0E 0
      else s.modGroup tc.gr (fun g =>
        { g with run := some { tc.path with pc := ctlTarget tc.x, frames := .call (tc.path.pc + 16) tc.path.lanes :: tc.path.frames } }))

/-- ret: pops the call entry; its lanes that have not exited go on at its return point (R154). -/
def execRet (gr : GRef) (x : TInstr) (s : State) : Out :=
  ctlOp gr x s checksPlain [] (fun tc s =>
    match tc.path.frames with
    | .call r lanes :: f =>
      s.modGroup tc.gr (fun g => { g with run := some ⟨lanes &&& (allLanes ^^^ g.exited), r, f⟩ })
    | _ => threadFault tc s 1 0)

/-- Lanes of the running path leave for good (R156). -/
def Group.exitLanes (g : Group) (mask n : Nat) : Group :=
  let g1 := { g with exited := g.exited ||| mask }
  match g.run with
  | none => g1
  | some p =>
    let left := p.lanes &&& (allLanes ^^^ mask)
    if left = 0 then g1.next else { g1 with run := some { p with lanes := left, pc := p.pc + n } }

/-- Every group of the block has ended (R143). -/
def Block.ended (b : Block) : Bool := b.groups.all (fun g => decide (g.exited = allLanes))

/-- After exits: barriers that are complete complete (R165), and a block whose groups have all ended ends (R143). -/
def afterExit (s : State) (t id : Nat) : State :=
  let s1 := s.modBlock t id (fun b => b.barSettleAll)
  match (s1.tile t).block id with
  | some b => if b.ended then endBlock s1 t id else s1
  | none => s1

/-- exit: removes the active lanes from the group for good (R156). -/
def execExit (gr : GRef) (x : TInstr) (s : State) : Out :=
  ctlOp gr x s checksPlain [] (fun tc s =>
    afterExit (s.modGroup tc.gr (fun g => g.exitLanes tc.mask tc.len)) tc.gr.tile tc.blk.id)

/-- nop. -/
def execNop (gr : GRef) (x : TInstr) (s : State) : Out := ctlOp gr x s checksPlain [] stepOn

/-- trap: the block stops with TRAP (R177). -/
def execTrap (gr : GRef) (x : TInstr) (s : State) : Out := ctlOp gr x s checksPlain [] (fun tc s => threadFault tc s 0x0F 0)

end Sys2Proof.Machine
end

