-- ==== Sys2Proof/Machine/ThreadSync.lean ====
section
/-! DEFINITION. Signals, waits, barriers and fences of threads: classes 0x8 and 0x9 of 05_thread_groups.md (R148, R164-R169, R542), updates from outside and the resumption of parked paths. -/

namespace Sys2Proof.Machine

open Sys2Proof

/-! Class 8. -/

/-- Static checks of class 8: `val` says that pair a is read, `ret` that pair dst is written. -/
def checksSig (val ret : Bool) (tc : TC) : List (Bool × Nat) :=
  illegalCommon tc.x 0 false true ++
  [(ordBad tc.x.mod.toNat [0, 1, 2, 3] [0, 1, 2, 3, 4], 0x0A),
   ((val && tc.badR tc.x.a 2) || tc.badR tc.x.b 1 || (ret && tc.badR tc.x.dst 2), 2)]

/-- The offset that a lane's register b names, and its fault: outside the signal words, or off an 8-byte boundary. -/
def sigFault (off : Nat) : Option Nat :=
  if !inRegion .sig off 8 then some 5 else if off % 8 ≠ 0 then some 3 else none

/-- The signal word of a lane. -/
def TC.word (tc : TC) (l : Nat) : Nat := (tc.get l tc.x.b 1 - 0x1A00000) / 8

/-- The agent of the group, for release tags. -/
def TC.agent (tc : TC) : RelTag := threadTag tc.gr.tile (tc.gr.blk * 32 + tc.gr.grp)

/-- The acquire half of an instruction's ORD on a signal word. -/
def TC.sigAcq (tc : TC) (s : State) (w : Nat) : State :=
  if ordAcq tc.x.mod.toNat then sigAcquire s tc.gr.tile w (ordScope tc.x.mod.toNat) tc.agent else s

/-- Lanes perform a signal operation in ascending order (R159, R168): the state and the old words; operation 3 changes nothing. -/
def sigLanes (tc : TC) (op : Nat) : List Nat → State → List (Nat × Nat) → State × List (Nat × Nat)
  | [], s, w => (s, w)
  | l :: r, s, w =>
    let k := tc.word l
    let old := s.sig tc.gr.tile k
    let s1 := tc.sigAcq s k
    let v := tc.get l tc.x.a 2
    let s2 := if op = 3 then s1
      else if ordRel tc.x.mod.toNat then sigRelease s1 tc.gr.tile k op v (ordScope tc.x.mod.toNat) tc.agent
      else sigPlain s1 tc.gr.tile k op v
    sigLanes tc op r s2 (if op = 0 then w else w ++ tc.put l 2 old)

/-- The first lane whose word offset is at fault. -/
def TC.sigBad (tc : TC) : Option (Nat × Nat) :=
  tc.act.findSome? (fun l => (sigFault (tc.get l tc.x.b 1)).map (fun c => (c, tc.get l tc.x.b 1)))

/-- A signal operation on the group's own tile. -/
def sigOp (gr : GRef) (x : TInstr) (s : State) (op : Nat) : Out :=
  runThread gr x s (fun tc s => guarded tc s (checksSig (decide (op ≠ 3)) (decide (op ≠ 0)) tc)
    (match tc.sigBad with
     | some f => threadFault tc s f.1 f.2
     | none => let r := sigLanes tc op tc.act s []; commit tc r.1 r.2 .zero))

/-- sig.st: word = value. -/
def execSigSt (gr : GRef) (x : TInstr) (s : State) : Out := sigOp gr x s 0
/-- sig.add: returns the old word. -/
def execSigAdd (gr : GRef) (x : TInstr) (s : State) : Out := sigOp gr x s 1
/-- sig.or. -/
def execSigOr (gr : GRef) (x : TInstr) (s : State) : Out := sigOp gr x s 2
/-- sig.ld: returns the word. -/
def execSigLd (gr : GRef) (x : TInstr) (s : State) : Out := sigOp gr x s 3

/-- The running path parks and the next one runs (R166). -/
def Group.park (g : Group) (k : Park) : Group := Group.next { g with parked := g.parked ++ [k] }

/-- The waits of the active lanes, those whose condition holds already satisfied. -/
def laneWaits (tc : TC) (s : State) (op : Nat) : List LaneWait :=
  tc.act.map (fun l =>
    let v := s.sig tc.gr.tile (tc.word l)
    let a := tc.get l tc.x.a 2
    ⟨l, tc.word l, op, a, if waitHolds op v a then some v else none⟩)

/-- The acquires of lanes already satisfied. -/
def acquireMet (tc : TC) (ls : List LaneWait) (s : State) : State :=
  ls.foldl (fun s y => if y.got.isSome then tc.sigAcq s y.word else s) s

/-- Register writes of satisfied lanes: each receives the word value that satisfied it. -/
def waitWrites (dst : Nat) (ls : List LaneWait) : List (Nat × Nat) :=
  (ls.map (fun y => putN y.lane dst 2 (y.got.getD 0))).foldl (· ++ ·) []

/-- A signal wait (R168): completes at once where every lane's condition holds, and parks the path otherwise. -/
def waitOp (gr : GRef) (x : TInstr) (s : State) (op : Nat) : Out :=
  runThread gr x s (fun tc s => guarded tc s (checksSig true true tc)
    (match tc.sigBad with
     | some f => threadFault tc s f.1 f.2
     | none =>
       let ls := laneWaits tc s op
       let s1 := acquireMet tc ls s
       if ls.all (fun y => y.got.isSome) then commit tc s1 (waitWrites tc.x.dst.toNat ls) .zero
       else s1.modGroup tc.gr (fun g =>
         g.park ⟨tc.path, .wait tc.x.dst.toNat tc.x.mod.toNat ls, s.ref, wdLimit s tc.gr.tile, false⟩)))

/-- wait.ge: word ≥ value, unsigned. -/
def execWaitGe (gr : GRef) (x : TInstr) (s : State) : Out := waitOp gr x s 0
/-- wait.eq. -/
def execWaitEq (gr : GRef) (x : TInstr) (s : State) : Out := waitOp gr x s 1
/-- wait.ne. -/
def execWaitNe (gr : GRef) (x : TInstr) (s : State) : Out := waitOp gr x s 2
/-- wait.any: (word AND value) ≠ 0. -/
def execWaitAny (gr : GRef) (x : TInstr) (s : State) : Out := waitOp gr x s 3

/-- The number of a signal operation. -/
def sigOpNum : SigOp → Nat
  | .st => 0 | .add => 1 | .or => 2

/-- SIGNAL_WORD_UPDATE: an update of a word by an engine, the queue engine or a remote signal, seen as a release (R169). The row names no agent and no scope: the model takes an engine of the tile and system scope, a pair that the detector never counts (DESIGN CHOICE, log entry 14). -/
def execSignalWordUpdate (t word : Nat) (op : SigOp) (v : BitVec 64) (s : State) : Out :=
  onUnit (decide (t < 160 ∧ word < 4096))
    (if tilePowered s t then sigRelease s t word (sigOpNum op) v.toNat 4 (engineTag t) else s)

/-! Class 9. -/

/-- Checks of a barrier: c[7:3] reserved, sem 0 or 3, a scope of tile or wider (R167). -/
def checksBar (tc : TC) : List (Bool × Nat) :=
  illegalCommon tc.x 0 false true ++
  [(decide (8 ≤ tc.x.c.toNat), 1), (ordBad tc.x.mod.toNat [0, 3] [1, 2, 3, 4], 0x0A)]

/-- The threads of the active lanes. -/
def TC.threads (tc : TC) : List Nat := tc.act.map tc.tid

/-- The completions that each arriving lane waits for: those of its arrivals not yet used up. -/
def barNeed (tc : TC) (b : Block) (n : Nat) : List (Nat × Nat) :=
  match b.bars[n]? with
  | some x => tc.act.map (fun l => (l, x.count (tc.tid l)))
  | none => []

/-- A parked path of a group that is satisfied and was parked last goes on at once; otherwise the next path runs. -/
def Group.barGo (g : Group) (n : Nat) : Group :=
  match g.parked.getLast? with
  | some k => if k.ok then { g with parked := g.parked.dropLast, run := some { k.path with pc := k.path.pc + n } } else g.next
  | none => g

/-- bar.sync: the active lanes arrive and wait; a completion releases every waiting lane (R165). -/
def execBarSync (gr : GRef) (x : TInstr) (s : State) : Out :=
  runThread gr x s (fun tc s => guarded tc s (checksBar tc)
    (if tc.act = [] then s.modGroup tc.gr (fun g => g.advance tc.len)
     else
       let n := tc.x.c.toNat % 8
       let lim := wdLimit s tc.gr.tile
       s.modBlock tc.gr.tile tc.blk.id (fun b =>
         let b1 := b.arrive n tc.path.pc s.ref lim tc.threads
         let k : Park := ⟨tc.path, .bar n (barNeed tc b1 n), s.ref, lim, false⟩
         let b2 := { b1 with groups := lmod (fun g => { g with run := none, parked := g.parked ++ [k] }) b1.groups tc.gr.grp }
         let b3 := b2.barSettle n 1025
         { b3 with groups := lmod (fun g => g.barGo tc.len) b3.groups tc.gr.grp })))

/-- bar.arrive: the active lanes arrive without waiting. -/
def execBarArrive (gr : GRef) (x : TInstr) (s : State) : Out :=
  runThread gr x s (fun tc s => guarded tc s (checksBar tc)
    (let n := tc.x.c.toNat % 8
     let lim := wdLimit s tc.gr.tile
     (s.modBlock tc.gr.tile tc.blk.id (fun b => (b.arrive n tc.path.pc s.ref lim tc.threads).barSettle n 1025)).modGroup
       tc.gr (fun g => g.advance tc.len)))

/-- Checks of a fence: any sem but relaxed. -/
def checksFence (tc : TC) : List (Bool × Nat) :=
  illegalCommon tc.x 0 false true ++ [(ordBad tc.x.mod.toNat [1, 2, 3] [0, 1, 2, 3, 4], 0x0A)]

/-- fence: memory takes accesses in the order of the commands, so the fence only checks its ORD and moves on (03 R75, R79). -/
def execFence (gr : GRef) (x : TInstr) (s : State) : Out :=
  runThread gr x s (fun tc s => guarded tc s (checksFence tc)
    (s.modGroup tc.gr (fun g => g.advance tc.len)))

/-- PATH_RESUME: a satisfied parked path goes on while the group runs no other path; waited words reach the registers (R166, R168). -/
def execPathResume (gr : GRef) (k : Nat) (s : State) : Out :=
  onUnit (decide (gr.tile < 160))
    (if tileOn s gr.tile then
      s.modGroup gr (fun g =>
        match g.run, g.parked[k]? with
        | none, some p =>
          if p.ok then
            let g1 := match p.kind with
              | .wait d _ ls => g.applyWrites (waitWrites d ls)
              | .bar _ _ => g
            { g1 with run := some { p.path with pc := p.path.pc + 8 }, parked := g1.parked.eraseIdx k }
          else g
        | _, _ => g)
     else s)

end Sys2Proof.Machine
end

