-- ==== Sys2Proof/Machine/Dispatch.lean ====
section
/-! DEFINITION. The one dispatch from commands to their meanings. -/

namespace Sys2Proof.Machine

open Sys2Proof

/-- The effect of a command on everything but the queue of waiting commands. -/
def exec (i : Instr) (s : State) : Host.Outcome State Fault Refusal :=
  match i with
  | .registerWrite who addr size v => Sys2Proof.Machine.execRegisterWrite who addr size v s
  | .enable p on swp load => Sys2Proof.Machine.execEnable p on swp load s
  | .ctrlSwap p load => Sys2Proof.Machine.execCtrlSwap p load s
  | .shadowLoad p => Sys2Proof.Machine.execShadowLoad p s
  | .verSel p v => Sys2Proof.Machine.execVerSel p v s
  | .swap p => Sys2Proof.Machine.execSwap p s
  | .flagClear p off mask => Sys2Proof.Machine.execFlagClear p off mask s
  | .disturbWrite p h v => Sys2Proof.Machine.execDisturbWrite p h v s
  | .disturbWinWrite p h v => Sys2Proof.Machine.execDisturbWinWrite p h v s
  | .stallWindowOpen p => Sys2Proof.Machine.execStallWindowOpen p s
  | .stallWindowClose p => Sys2Proof.Machine.execStallWindowClose p s
  | .summaryUpdate p => Sys2Proof.Machine.execSummaryUpdate p s
  | .errorRecordPost => Sys2Proof.Machine.execErrorRecordPost s
  | .errlogHeadWrite v => Sys2Proof.Machine.execErrlogHeadWrite v s
  | .pllLockLoss isl => Sys2Proof.Machine.execPllLockLoss isl s
  | .hbmPhyRelock st => Sys2Proof.Machine.execHbmPhyRelock st s
  | .hbmRelockTimeout st => Sys2Proof.Machine.execHbmRelockTimeout st s
  | .iadd gr x => Sys2Proof.Machine.execIadd gr x s
  | .isub gr x => Sys2Proof.Machine.execIsub gr x s
  | .mulLo gr x => Sys2Proof.Machine.execMulLo gr x s
  | .mulHi gr x => Sys2Proof.Machine.execMulHi gr x s
  | .iand gr x => Sys2Proof.Machine.execIand gr x s
  | .ior gr x => Sys2Proof.Machine.execIor gr x s
  | .ixor gr x => Sys2Proof.Machine.execIxor gr x s
  | .shl gr x => Sys2Proof.Machine.execShl gr x s
  | .shr gr x => Sys2Proof.Machine.execShr gr x s
  | .sar gr x => Sys2Proof.Machine.execSar gr x s
  | .imin gr x => Sys2Proof.Machine.execImin gr x s
  | .imax gr x => Sys2Proof.Machine.execImax gr x s
  | .popc gr x => Sys2Proof.Machine.execPopc gr x s
  | .clz gr x => Sys2Proof.Machine.execClz gr x s
  | .add64 gr x => Sys2Proof.Machine.execAdd64 gr x s
  | .mov gr x => Sys2Proof.Machine.execMov gr x s
  | .fpAdd gr x => Sys2Proof.Machine.execFpAdd gr x s
  | .fpSub gr x => Sys2Proof.Machine.execFpSub gr x s
  | .fpMul gr x => Sys2Proof.Machine.execFpMul gr x s
  | .fpFma gr x => Sys2Proof.Machine.execFpFma gr x s
  | .fpMin gr x => Sys2Proof.Machine.execFpMin gr x s
  | .fpMax gr x => Sys2Proof.Machine.execFpMax gr x s
  | .fpAbs gr x => Sys2Proof.Machine.execFpAbs gr x s
  | .fpNeg gr x => Sys2Proof.Machine.execFpNeg gr x s
  | .fpDiv gr x => Sys2Proof.Machine.execFpDiv gr x s
  | .fpSqrt gr x => Sys2Proof.Machine.execFpSqrt gr x s
  | .fpRcp gr x => Sys2Proof.Machine.execFpRcp gr x s
  | .fpRsqrt gr x => Sys2Proof.Machine.execFpRsqrt gr x s
  | .fpExp2 gr x => Sys2Proof.Machine.execFpExp2 gr x s
  | .fpLog2 gr x => Sys2Proof.Machine.execFpLog2 gr x s
  | .fpSin gr x => Sys2Proof.Machine.execFpSin gr x s
  | .fpCos gr x => Sys2Proof.Machine.execFpCos gr x s
  | .cvt gr x => Sys2Proof.Machine.execCvt gr x s
  | .cvtPack gr x => Sys2Proof.Machine.execCvtPack gr x s
  | .cvtUnpack gr x => Sys2Proof.Machine.execCvtUnpack gr x s
  | .cmpEq gr x => Sys2Proof.Machine.execCmpEq gr x s
  | .cmpNe gr x => Sys2Proof.Machine.execCmpNe gr x s
  | .cmpLt gr x => Sys2Proof.Machine.execCmpLt gr x s
  | .cmpLe gr x => Sys2Proof.Machine.execCmpLe gr x s
  | .cmpGt gr x => Sys2Proof.Machine.execCmpGt gr x s
  | .cmpGe gr x => Sys2Proof.Machine.execCmpGe gr x s
  | .unordered gr x => Sys2Proof.Machine.execUnordered gr x s
  | .select gr x => Sys2Proof.Machine.execSelect gr x s
  | .pand gr x => Sys2Proof.Machine.execPand gr x s
  | .por gr x => Sys2Proof.Machine.execPor gr x s
  | .pxor gr x => Sys2Proof.Machine.execPxor gr x s
  | .pnot gr x => Sys2Proof.Machine.execPnot gr x s
  | .bra gr x => Sys2Proof.Machine.execBra gr x s
  | .braDiv gr x => Sys2Proof.Machine.execBraDiv gr x s
  | .join gr x => Sys2Proof.Machine.execJoin gr x s
  | .call gr x => Sys2Proof.Machine.execCall gr x s
  | .ret gr x => Sys2Proof.Machine.execRet gr x s
  | .exit gr x => Sys2Proof.Machine.execExit gr x s
  | .nop gr x => Sys2Proof.Machine.execNop gr x s
  | .trap gr x => Sys2Proof.Machine.execTrap gr x s
  | .ldSp gr x => Sys2Proof.Machine.execLdSp gr x s
  | .stSp gr x => Sys2Proof.Machine.execStSp gr x s
  | .ldAcc gr x => Sys2Proof.Machine.execLdAcc gr x s
  | .ldX gr x => Sys2Proof.Machine.execLdX gr x s
  | .stX gr x => Sys2Proof.Machine.execStX gr x s
  | .ldArg gr x => Sys2Proof.Machine.execLdArg gr x s
  | .ldG gr x => Sys2Proof.Machine.execLdG gr x s
  | .stG gr x => Sys2Proof.Machine.execStG gr x s
  | .ldGAcq gr x => Sys2Proof.Machine.execLdGAcq gr x s
  | .stGRel gr x => Sys2Proof.Machine.execStGRel gr x s
  | .globalAccessResponse gr id => Sys2Proof.Machine.execGlobalAccessResponse gr id s
  | .atomAdd gr x => Sys2Proof.Machine.execAtomAdd gr x s
  | .atomAnd gr x => Sys2Proof.Machine.execAtomAnd gr x s
  | .atomOr gr x => Sys2Proof.Machine.execAtomOr gr x s
  | .atomXor gr x => Sys2Proof.Machine.execAtomXor gr x s
  | .atomMinS gr x => Sys2Proof.Machine.execAtomMinS gr x s
  | .atomMaxS gr x => Sys2Proof.Machine.execAtomMaxS gr x s
  | .atomMinU gr x => Sys2Proof.Machine.execAtomMinU gr x s
  | .atomMaxU gr x => Sys2Proof.Machine.execAtomMaxU gr x s
  | .atomSwap gr x => Sys2Proof.Machine.execAtomSwap gr x s
  | .atomCas gr x => Sys2Proof.Machine.execAtomCas gr x s
  | .atomCas128 gr x => Sys2Proof.Machine.execAtomCas128 gr x s
  | .atomFadd gr x => Sys2Proof.Machine.execAtomFadd gr x s
  | .atomFmin gr x => Sys2Proof.Machine.execAtomFmin gr x s
  | .atomFmax gr x => Sys2Proof.Machine.execAtomFmax gr x s
  | .cellAdd gr x => Sys2Proof.Machine.execCellAdd gr x s
  | .cellRead gr x => Sys2Proof.Machine.execCellRead gr x s
  | .cellReadAndClear gr x => Sys2Proof.Machine.execCellReadAndClear gr x s
  | .cellClear gr x => Sys2Proof.Machine.execCellClear gr x s
  | .sigSt gr x => Sys2Proof.Machine.execSigSt gr x s
  | .sigAdd gr x => Sys2Proof.Machine.execSigAdd gr x s
  | .sigOr gr x => Sys2Proof.Machine.execSigOr gr x s
  | .sigLd gr x => Sys2Proof.Machine.execSigLd gr x s
  | .waitGe gr x => Sys2Proof.Machine.execWaitGe gr x s
  | .waitEq gr x => Sys2Proof.Machine.execWaitEq gr x s
  | .waitNe gr x => Sys2Proof.Machine.execWaitNe gr x s
  | .waitAny gr x => Sys2Proof.Machine.execWaitAny gr x s
  | .signalWordUpdate t word op v => Sys2Proof.Machine.execSignalWordUpdate t word op v s
  | .pathResume gr k => Sys2Proof.Machine.execPathResume gr k s
  | .barSync gr x => Sys2Proof.Machine.execBarSync gr x s
  | .barArrive gr x => Sys2Proof.Machine.execBarArrive gr x s
  | .fence gr x => Sys2Proof.Machine.execFence gr x s
  | .shflIdx gr x => Sys2Proof.Machine.execShflIdx gr x s
  | .shflUp gr x => Sys2Proof.Machine.execShflUp gr x s
  | .shflDown gr x => Sys2Proof.Machine.execShflDown gr x s
  | .shflXor gr x => Sys2Proof.Machine.execShflXor gr x s
  | .voteAny gr x => Sys2Proof.Machine.execVoteAny gr x s
  | .voteAll gr x => Sys2Proof.Machine.execVoteAll gr x s
  | .ballot gr x => Sys2Proof.Machine.execBallot gr x s
  | .issueMx gr x => Sys2Proof.Machine.execIssueMx gr x s
  | .issueVx gr x => Sys2Proof.Machine.execIssueVx gr x s
  | .issueDma gr x => Sys2Proof.Machine.execIssueDma gr x s
  | .mmaRR gr x => Sys2Proof.Machine.execMmaRR gr x s
  | .mmaRS gr x => Sys2Proof.Machine.execMmaRS gr x s
  | .mmaSS gr x => Sys2Proof.Machine.execMmaSS gr x s
  | .accClr gr x => Sys2Proof.Machine.execAccClr gr x s
  | .readLane gr x => Sys2Proof.Machine.execReadLane gr x s
  | .readGroup gr x => Sys2Proof.Machine.execReadGroup gr x s
  | .readBlockIndex gr x => Sys2Proof.Machine.execReadBlockIndex gr x s
  | .readTileNumber gr x => Sys2Proof.Machine.execReadTileNumber gr x s
  | .readNodeId gr x => Sys2Proof.Machine.execReadNodeId gr x s
  | .readTime gr x => Sys2Proof.Machine.execReadTime gr x s
  | .readNblocks gr x => Sys2Proof.Machine.execReadNblocks gr x s
  | .watchdogExpiry t w => Sys2Proof.Machine.execWatchdogExpiry t w s
  | .launchDelivery t => Sys2Proof.Machine.execLaunchDelivery t s
  | .blockStart t pass => Sys2Proof.Machine.execBlockStart t pass s
  | .mxDescCheck t => Sys2Proof.Machine.execMxDescCheck t s
  | .mxWaitSatisfied t => Sys2Proof.Machine.execMxWaitSatisfied t s
  | .mxBlockStart t arr => Sys2Proof.Machine.execMxBlockStart t arr s
  | .mxBlockDone t arr => Sys2Proof.Machine.execMxBlockDone t arr s
  | .mxOperandsRead t => Sys2Proof.Machine.execMxOperandsRead t s
  | .mxCompletion t => Sys2Proof.Machine.execMxCompletion t s
  | .vxDescCheck t => Sys2Proof.Machine.execVxDescCheck t s
  | .vxWaitSatisfied t => Sys2Proof.Machine.execVxWaitSatisfied t s
  | .vxVector t => Sys2Proof.Machine.execVxVector t s
  | .vxInputsRead t => Sys2Proof.Machine.execVxInputsRead t s
  | .vxCompletion t => Sys2Proof.Machine.execVxCompletion t s
  | .dmaDescCheck t => Sys2Proof.Machine.execDmaDescCheck t s
  | .dmaWaitSatisfied t => Sys2Proof.Machine.execDmaWaitSatisfied t s
  | .dmaSlotStart t => Sys2Proof.Machine.execDmaSlotStart t s
  | .dmaAccessPerformed t n => Sys2Proof.Machine.execDmaAccessPerformed t n s
  | .dmaSourceRead t n => Sys2Proof.Machine.execDmaSourceRead t n s
  | .dmaSignalSend t n => Sys2Proof.Machine.execDmaSignalSend t n s
  | .dmaCompletion t => Sys2Proof.Machine.execDmaCompletion t s
  | .dmaStallReport t n cause => Sys2Proof.Machine.execDmaStallReport t n cause s
  | .winRead t inc => Sys2Proof.Machine.execWinRead t inc s
  | .winWrite t inc => Sys2Proof.Machine.execWinWrite t inc s
  | .winOpEnd t => Sys2Proof.Machine.execWinOpEnd t s
  | .ipiSet w v => Sys2Proof.Machine.execIpiSet w v s
  | .ctrlHostReset => Sys2Proof.Machine.execCtrlHostReset s
  | .hartRestart => Sys2Proof.Machine.execHartRestart s
  | .doorbell q d => Sys2Proof.Machine.execDoorbell q d s
  | .doorbellBlockWrite q => Sys2Proof.Machine.execDoorbellBlockWrite q s
  | .queueArm q => Sys2Proof.Machine.execQueueArm q s
  | .queueStop q => Sys2Proof.Machine.execQueueStop q s
  | .cqHeadWrite q v => Sys2Proof.Machine.execCqHeadWrite q v s
  | .commandFetch q => Sys2Proof.Machine.execCommandFetch q s
  | .commandRefetch q => Sys2Proof.Machine.execCommandRefetch q s
  | .launch q pos => Sys2Proof.Machine.execLaunch q pos s
  | .dma q pos => Sys2Proof.Machine.execDma q pos s
  | .writeInline q pos => Sys2Proof.Machine.execWriteInline q pos s
  | .signal q pos => Sys2Proof.Machine.execSignal q pos s
  | .atomic q pos => Sys2Proof.Machine.execAtomic q pos s
  | .wait q pos => Sys2Proof.Machine.execWait q pos s
  | .waitConditionMet q pos => Sys2Proof.Machine.execWaitConditionMet q pos s
  | .waitTimeout q pos => Sys2Proof.Machine.execWaitTimeout q pos s
  | .fenceCommand q pos => Sys2Proof.Machine.execFenceCommand q pos s
  | .pennant q pos => Sys2Proof.Machine.execPennant q pos s
  | .pennantExpiry q k => Sys2Proof.Machine.execPennantExpiry q k s
  | .nopCommand q pos => Sys2Proof.Machine.execNopCommand q pos s
  | .completionRecord q pos => Sys2Proof.Machine.execCompletionRecord q pos s
  | .missRespRetry n => Sys2Proof.Machine.execMissRespRetry n s
  | .missRespRefuse n => Sys2Proof.Machine.execMissRespRefuse n s
  | .missTimeout n => Sys2Proof.Machine.execMissTimeout n s
  | .hreqHeadWrite v => Sys2Proof.Machine.execHreqHeadWrite v s
  | .invAll waitCmds => Sys2Proof.Machine.execInvAll waitCmds s
  | .invCtx waitCmds => Sys2Proof.Machine.execInvCtx waitCmds s
  | .invPages waitCmds => Sys2Proof.Machine.execInvPages waitCmds s
  | .invEnd => Sys2Proof.Machine.execInvEnd s
  | .accessCountUpdate => Sys2Proof.Machine.execAccessCountUpdate s
  | .migrationGo => Sys2Proof.Machine.execMigrationGo s
  | .migrationLeaf => Sys2Proof.Machine.execMigrationLeaf s
  | .sliceRead r addr len e => Sys2Proof.Machine.execSliceRead r addr len e s
  | .sliceWrite r addr data => Sys2Proof.Machine.execSliceWrite r addr data s
  | .sliceAtomic r addr y ord => Sys2Proof.Machine.execSliceAtomic r addr y ord s
  | .sectorFill blk e => Sys2Proof.Machine.execSectorFill blk e s
  | .orwRound c j => Sys2Proof.Machine.execOrwRound c j s
  | .rowRepair st pc bank row ok => Sys2Proof.Machine.execRowRepair st pc bank row ok s
  | .retHeadWrite st v => Sys2Proof.Machine.execRetHeadWrite st v s
  | .mapoutGo st => Sys2Proof.Machine.execMapoutGo st s
  | .mapoutAuto st => Sys2Proof.Machine.execMapoutAuto st s
  | .mapoutCopy st => Sys2Proof.Machine.execMapoutCopy st s
  | .hbmRetrain st => Sys2Proof.Machine.execHbmRetrain st s
  | .phyRecalibrate st => Sys2Proof.Machine.execPhyRecalibrate st s
  | .patrolRead st e => Sys2Proof.Machine.execPatrolRead st e s
  | .scrubGo => Sys2Proof.Machine.execScrubGo s
  | .scrubDone => Sys2Proof.Machine.execScrubDone s
  | .throttleLevel st stackT baseT => Sys2Proof.Machine.execThrottleLevel st stackT baseT s
  | .heavyWindow st => Sys2Proof.Machine.execHeavyWindow st s
  | .scopeClearLast p => Sys2Proof.Machine.execScopeClearLast p s
  | .partnerLight l lanes => Sys2Proof.Machine.execPartnerLight l lanes s
  | .capability l k => Sys2Proof.Machine.execCapability l k s
  | .retrainRequest l => Sys2Proof.Machine.execRetrainRequest l s
  | .creditGrant l b0 b1 b2 => Sys2Proof.Machine.execCreditGrant l b0 b1 b2 s
  | .trainingTimeout l => Sys2Proof.Machine.execTrainingTimeout l s
  | .laneSignalLoss l lane => Sys2Proof.Machine.execLaneSignalLoss l lane s
  | .retrainComplete l lanes => Sys2Proof.Machine.execRetrainComplete l lanes s
  | .retrainTimeout l => Sys2Proof.Machine.execRetrainTimeout l s
  | .linkTrain l => Sys2Proof.Machine.execLinkTrain l s
  | .linkForceDown l => Sys2Proof.Machine.execLinkForceDown l s
  | .autoTrain l => Sys2Proof.Machine.execAutoTrain l s
  | .payloadFlit l f => Sys2Proof.Machine.execPayloadFlit l f s
  | .idleFlit l f => Sys2Proof.Machine.execIdleFlit l f s
  | .ackTimeout l => Sys2Proof.Machine.execAckTimeout l s
  | .senderCut l vc => Sys2Proof.Machine.execSenderCut l vc s
  | .receiverTruncate l vc => Sys2Proof.Machine.execReceiverTruncate l vc s
  | .wr l p => Sys2Proof.Machine.execWr l p s
  | .rd l p => Sys2Proof.Machine.execRd l p s
  | .atom l p => Sys2Proof.Machine.execAtom l p s
  | .sig l p => Sys2Proof.Machine.execSig l p s
  | .rsp l p => Sys2Proof.Machine.execRsp l p s
  | .hold l p => Sys2Proof.Machine.execHold l p s
  | .openPkt l p => Sys2Proof.Machine.execOpenPkt l p s
  | .openAck l p => Sys2Proof.Machine.execOpenAck l p s
  | .closePkt l p => Sys2Proof.Machine.execClosePkt l p s
  | .connOpen c => Sys2Proof.Machine.execConnOpen c s
  | .connClose c => Sys2Proof.Machine.execConnClose c s
  | .openResend c => Sys2Proof.Machine.execOpenResend c s
  | .openTimeout c => Sys2Proof.Machine.execOpenTimeout c s
  | .rtoResend c n => Sys2Proof.Machine.execRtoResend c n s
  | .holdSend c => Sys2Proof.Machine.execHoldSend c s
  | .connSilent c => Sys2Proof.Machine.execConnSilent c s
  | .xcLinkError k => Sys2Proof.Machine.execXcLinkError k s
  | .xcRetrainComplete k => Sys2Proof.Machine.execXcRetrainComplete k s
  | .xcRetrainTimeout k => Sys2Proof.Machine.execXcRetrainTimeout k s
  | .mbxOwnerWrite v => Sys2Proof.Machine.execMbxOwnerWrite v s
  | .mbxGo => Sys2Proof.Machine.execMbxGo s
  | .mgmtDatagram d => Sys2Proof.Machine.execMgmtDatagram d s
  | .mgmtFrame k => Sys2Proof.Machine.execMgmtFrame k s
  | .getInfo => Sys2Proof.Machine.execGetInfo s
  | .getResult => Sys2Proof.Machine.execGetResult s
  | .bringupRun env => Sys2Proof.Machine.execBringupRun env s
  | .bringupAuto env => Sys2Proof.Machine.execBringupAuto env s
  | .sleepEnterP1 => Sys2Proof.Machine.execSleepEnterP1 s
  | .sleepEnterP2 => Sys2Proof.Machine.execSleepEnterP2 s
  | .sleepEnterP3 => Sys2Proof.Machine.execSleepEnterP3 s
  | .sleepExit => Sys2Proof.Machine.execSleepExit s
  | .fwStageHost => Sys2Proof.Machine.execFwStageHost s
  | .fwStageChunk => Sys2Proof.Machine.execFwStageChunk s
  | .fwStageAbort => Sys2Proof.Machine.execFwStageAbort s
  | .fwStageComplete storeOk => Sys2Proof.Machine.execFwStageComplete storeOk s
  | .stagingChunkTimeout => Sys2Proof.Machine.execStagingChunkTimeout s
  | .fwActivate => Sys2Proof.Machine.execFwActivate s
  | .selfTestTileLogic => Sys2Proof.Machine.execSelfTestTileLogic s
  | .selfTestStorage => Sys2Proof.Machine.execSelfTestStorage s
  | .selfTestLoopback => Sys2Proof.Machine.execSelfTestLoopback s
  | .selfTestComplete fails => Sys2Proof.Machine.execSelfTestComplete fails s
  | .debugTokenPresent => Sys2Proof.Machine.execDebugTokenPresent s
  | .tokenVerifyComplete => Sys2Proof.Machine.execTokenVerifyComplete s
  | .debugTokenChallenge => Sys2Proof.Machine.execDebugTokenChallenge s
  | .challengeLapse => Sys2Proof.Machine.execChallengeLapse s
  | .debugTokenDeploy => Sys2Proof.Machine.execDebugTokenDeploy s
  | .debugTokenMgmtKey => Sys2Proof.Machine.execDebugTokenMgmtKey s
  | .debugTokenEnd => Sys2Proof.Machine.execDebugTokenEnd s
  | .debugExpiry => Sys2Proof.Machine.execDebugExpiry s
  | .hostReset => Sys2Proof.Machine.execHostReset s
  | .moduleReset => Sys2Proof.Machine.execModuleReset s
  | .attestReport => Sys2Proof.Machine.execAttestReport s
  | .attestSignComplete => Sys2Proof.Machine.execAttestSignComplete s
  | .attestRead => Sys2Proof.Machine.execAttestRead s
  | .attestBurgee => Sys2Proof.Machine.execAttestBurgee s
  | .errlogRead => Sys2Proof.Machine.execErrlogRead s
  | .calRead => Sys2Proof.Machine.execCalRead s
  | .calWriteData => Sys2Proof.Machine.execCalWriteData s
  | .calCommit => Sys2Proof.Machine.execCalCommit s
  | .calDiscard => Sys2Proof.Machine.execCalDiscard s
  | .rngHealthFail => Sys2Proof.Machine.execRngHealthFail s
  | .ptpSync y => Sys2Proof.Machine.execPtpSync y s
  | .ptpFollowUp y n origin => Sys2Proof.Machine.execPtpFollowUp y n origin s
  | .ptpAnnounce y => Sys2Proof.Machine.execPtpAnnounce y s
  | .ptpDelayResp y t4 => Sys2Proof.Machine.execPtpDelayResp y t4 s
  | .ptpDelayReqSend => Sys2Proof.Machine.execPtpDelayReqSend s
  | .ptpSyncTimeout => Sys2Proof.Machine.execPtpSyncTimeout s
  | .holdoverExpiry => Sys2Proof.Machine.execHoldoverExpiry s
  | .timeSnap => Sys2Proof.Machine.execTimeSnap s
  | .jobGenWrite j v => Sys2Proof.Machine.execJobGenWrite j v s
  | .jobReady j => Sys2Proof.Machine.execJobReady j s
  | .jobStart j => Sys2Proof.Machine.execJobStart j s
  | .jobTeardown j => Sys2Proof.Machine.execJobTeardown j s
  | .teardownDrainEnd d => Sys2Proof.Machine.execTeardownDrainEnd d s
  | .drainTimeout d => Sys2Proof.Machine.execDrainTimeout d s
  | .bindReq p => Sys2Proof.Machine.execBindReq p s
  | .resourceTeardown p => Sys2Proof.Machine.execResourceTeardown p s
  | .regionBind r => Sys2Proof.Machine.execRegionBind r s
  | .regionRelease r => Sys2Proof.Machine.execRegionRelease r s
  | .hoistTxGo policy => Sys2Proof.Machine.execHoistTxGo policy s
  | .hoistStart l p => Sys2Proof.Machine.execHoistStart l p s
  | .hoistReport l p => Sys2Proof.Machine.execHoistReport l p s
  | .hoistAbort l p => Sys2Proof.Machine.execHoistAbort l p s
  | .hoistRetry k ch => Sys2Proof.Machine.execHoistRetry k ch s
  | .hoistReportBatch k par => Sys2Proof.Machine.execHoistReportBatch k par s
  | .hoistDeadline k => Sys2Proof.Machine.execHoistDeadline k s
  | .hoistStartTime j => Sys2Proof.Machine.execHoistStartTime j s
  | .hoistContextRelease k => Sys2Proof.Machine.execHoistContextRelease k s
  | .inputQualified => Sys2Proof.Machine.execInputQualified s
  | .powerLoss => Sys2Proof.Machine.execPowerLoss s
  | .inputOvervoltage => Sys2Proof.Machine.execInputOvervoltage s
  | .inputRangeChange mv => Sys2Proof.Machine.execInputRangeChange mv s
  | .controlPeriod y => Sys2Proof.Machine.execControlPeriod y s
  | .railSlewStep => Sys2Proof.Machine.execRailSlewStep s
  | .estimatorPeriod y => Sys2Proof.Machine.execEstimatorPeriod y s
  | .measurementWindow y => Sys2Proof.Machine.execMeasurementWindow y s
  | .relearn => Sys2Proof.Machine.execRelearn s
  | .fastLimiter avgW => Sys2Proof.Machine.execFastLimiter avgW s
  | .droop d mv => Sys2Proof.Machine.execDroop d mv s
  | .brownout d mv => Sys2Proof.Machine.execBrownout d mv s
  | .thermalEmergency d => Sys2Proof.Machine.execThermalEmergency d s
  | .dieTrip d => Sys2Proof.Machine.execDieTrip d s
  | .moduleThermalTrip => Sys2Proof.Machine.execModuleThermalTrip s
  | .temperatureChange y temp => Sys2Proof.Machine.execTemperatureChange y temp s
  | .dieRecover d => Sys2Proof.Machine.execDieRecover d s
  | .paceWindow j waitUs => Sys2Proof.Machine.execPaceWindow j waitUs s
  | .stragglerInterval j us => Sys2Proof.Machine.execStragglerInterval j us s
  | .mgmtPortUp => Sys2Proof.Machine.execMgmtPortUp s
  | .mgmtPortDown => Sys2Proof.Machine.execMgmtPortDown s
  | .laserFailure l => Sys2Proof.Machine.execLaserFailure l s
  | .palurCheckFailed => Sys2Proof.Machine.execPalurCheckFailed s
  | .fwActivateComplete ok pauseUs => Sys2Proof.Machine.execFwActivateComplete ok pauseUs s

end Sys2Proof.Machine
end

