-- ==== Sys2Proof/Machine/Tick.lean ====
section
/-! DEFINITION. What a tick of the reference timebase does when no command waits (01_architecture.md R19, R21, R22, 13_binding_and_jobs.md R433, R434, 14_power_thermal.md R459; log entry 2). -/

namespace Sys2Proof.Machine

open Sys2Proof

/-- PTP time counts 10 ns for a tick, corrected by TIME.RATE in parts per 10^9; the rest of a nanosecond is carried in the servo. -/
def tickPtp (s : State) : State :=
  let n := (s.servo.frac : Int) + 10000000000 + 10 * sint 32 (s.rd pTime 0x218)
  { s with
    ptp := (s.ptp + (n / 1000000000).toNat) % 2 ^ 64
    servo := { s.servo with frac := (n % 1000000000).toNat } }

/-- Ports whose lanes have locked align (12_krovmo_fabric.md R367; log entry 162). -/
def alignLinks (s : State) : State := s.links.foldl (fun s x => if x.2.step = 2 then align s x.1 else s) s

/-- One tick of 10 ns: the reference timebase counts, PTP time with it, and the waiting of each job slot's tiles; locked ports align, and a lease that has run out ends. Without power nothing happens, and after the timebase has lost lock neither clock moves. -/
def tick (s : State) : State :=
  if !s.up then s
  else
    let s1 := if s.refStopped then s else (List.range 16).foldl paceTick (tickPtp { s with ref := (s.ref + 1) % 2 ^ 64 })
    dhcpExpire (alignLinks s1)

end Sys2Proof.Machine
end

