-- ==== Sys2Proof/Safety.lean ====
section
/-! DEFINITION. What a safe step and a safe state are, and what a command leaves unchanged, in the terms the statements use. -/

namespace Sys2Proof.Machine

open Sys2Proof

/-- The step answers a next state: neither a fault nor a refusal. -/
def Steps (s t : State) : Prop := step s = .next t

/-- The command answers a next state for which `P` holds. -/
def Completes (c : Instr) (s : State) (P : State → Prop) : Prop := ∃ t, exec c s = .next t ∧ P t

/-- The address spaces of the module are in their canonical form: keys rising, nothing listed at its default. -/
def Canonical (s : State) : Prop :=
  fwf regDefault s.regs = true ∧ fwf byte0 s.hbm = true ∧ fwf byte0 s.tmem = true

/-- Every register word reads as before, but for those listed by page and offset. -/
def RegsKept (s t : State) (but : List (Page × Nat)) : Prop :=
  ∀ k, k ∉ but.map (fun x => regKey x.1 x.2) → fget regDefault t.regs k = fget regDefault s.regs k

/-- The words that a set event of a flag changes: FLAGS, FLAG_EVENTS and the flag's count. -/
def flagWords (p : Page) (n : Nat) : List (Page × Nat) := [(p, 0x18), (p, 0x1C), (p, 0x780 + 4 * n)]

/-- FLAGS bit `n` has had one set event: it reads 1, both its counters have advanced by one, the other flags are as before, and one event awaits its record, except for RECORD_LOST and RECORD_SUPPRESSED. -/
def Flagged (s t : State) (p : Page) (n : Nat) : Prop :=
  t.rd p 0x18 = s.rd p 0x18 ||| 2 ^ n ∧ t.rd p 0x1C = (s.rd p 0x1C + 1) % 2 ^ 32
    ∧ t.rd p (0x780 + 4 * n) = (s.rd p (0x780 + 4 * n) + 1) % 2 ^ 32
    ∧ ((p.blk = .errlog ∧ (n = 8 ∨ n = 9)) ∨
        ∃ r : Rec, r.page = p ∧ r.flag = n ∧ r.ref = s.ref ∧ t.log = { s.log with posted := s.log.posted ++ [r] })

/-- Nothing but registers changed. -/
def OnlyRegs (s t : State) : Prop := t = { s with regs := t.regs }

/-- Nothing but registers and the error log changed. -/
def OnlyRegsLog (s t : State) : Prop := t = { s with regs := t.regs, log := t.log }

/-- Of the registers only the listed words changed, and nothing else. -/
def OnlyWords (s t : State) (ws : List (Page × Nat)) : Prop := RegsKept s t ws ∧ OnlyRegs s t

/-- The listed words changed and FLAGS bit `n` had a set event, whose record may be posted; nothing else changed. -/
def WordsAndFlag (s t : State) (ws : List (Page × Nat)) (p : Page) (n : Nat) : Prop :=
  Flagged s t p n ∧ RegsKept s t (ws ++ flagWords p n) ∧ OnlyRegsLog s t

/-- A set event of FLAGS bit `n` and nothing else. -/
def OneFlag (s t : State) (p : Page) (n : Nat) : Prop := WordsAndFlag s t [] p n

/-- The command changes nothing. -/
def Idle (c : Instr) (s : State) : Prop := exec c s = .next s

/-- The module has become fatal with a cause (16_bringup_errors_test.md R522). -/
def BecameFatal (s t : State) (cause : Nat) : Prop :=
  WordsAndFlag s t [(pErrlog, 0x220)] pErrlog 10 ∧ t.rdF pErrlog 0x220 0 2 = 2 ∧ t.rdF pErrlog 0x220 8 8 = cause

/-- A measured offset of PTP time has been taken (13_binding_and_jobs.md R433, R434): OFFSET holds it; the first one after FREE sets the time; one beyond step_us sets it again and is counted; any other leaves the time to slew at no more than 200 ppm, and the sixteenth in a row within 500 ns locks. -/
def OffsetTaken (s t : State) (off : Int) : Prop :=
  let first : Prop := timeState s = 0 ∨ (timeState s = 1 ∧ s.servo.stepped = false)
  let lim : Int := 1000 * (s.rdF pTime 0x104 16 16 : Nat)
  BitVec.ofNat 32 (t.rd pTime 0x214) = BitVec.ofInt 32 off
  ∧ (first → t.ptp = ((s.ptp : Int) - off).toNat ∧ timeState t = 1 ∧ t.servo.stepped = true ∧ t.servo.good = 0 ∧ t.log = s.log)
  ∧ (¬ first → lim < off ∨ off < -lim →
      t.ptp = ((s.ptp : Int) - off).toNat ∧ t.rd pTime 0x228 = (s.rd pTime 0x228 + 1) % 2 ^ 32 ∧ t.servo.good = 0 ∧ timeState t = timeState s ∧ Flagged s t pTime 10)
  ∧ (¬ first → ¬ (lim < off ∨ off < -lim) →
      t.ptp = s.ptp ∧ -200000 ≤ (BitVec.ofNat 32 (t.rd pTime 0x218)).toInt ∧ (BitVec.ofNat 32 (t.rd pTime 0x218)).toInt ≤ 200000
      ∧ t.servo.good = (if off ≤ 500 ∧ -500 ≤ off then s.servo.good + 1 else 0)
      ∧ (16 ≤ t.servo.good ∧ timeState s ≠ 2 → timeState t = 2 ∧ Flagged s t pTime 8)
      ∧ (t.servo.good < 16 ∨ timeState s = 2 → timeState t = timeState s ∧ t.log = s.log))
  ∧ RegsKept s t ([(pMgmt, 0x210), (pTime, 0x210), (pTime, 0x214), (pTime, 0x218), (pTime, 0x228)] ++ flagWords pTime 8 ++ flagWords pTime 10)
  ∧ t = { s with regs := t.regs, ptp := t.ptp, servo := t.servo, log := t.log, free := t.free }

/-- A hart takes an access fault of a load, or of a store or AMO, at an address (02_register_pages.md R36, R37, 03_memory_model.md R101): what it waited for is given up, and it traps; its own registers are as before, and so is everything else. The trap's registers are those of the RISC-V privileged architecture (PRESUMED, log entry 152). -/
def HartFaulted (s t : State) (n addr : Nat) (store : Bool) : Prop :=
  let h := s.hart n
  let cause : Nat := if store then 7 else 5
  (t.hart n).wait = none ∧ (t.hart n).x = h.x ∧ (t.hart n).f = h.f ∧ (t.hart n).v = h.v
  ∧ (h.priv = 3 ∨ bit (h.c 0x302) cause = false → (t.hart n).priv = 3 ∧ (t.hart n).pc = h.c 0x305 / 4 * 4
      ∧ (t.hart n).c 0x341 = h.pc % 2 ^ 64 ∧ (t.hart n).c 0x342 = cause ∧ (t.hart n).c 0x343 = addr % 2 ^ 64)
  ∧ (h.priv ≠ 3 → bit (h.c 0x302) cause = true → (t.hart n).priv = 1 ∧ (t.hart n).pc = h.c 0x105 / 4 * 4
      ∧ (t.hart n).c 0x141 = h.pc % 2 ^ 64 ∧ (t.hart n).c 0x142 = cause ∧ (t.hart n).c 0x143 = addr % 2 ^ 64)
  ∧ (∀ m, m ≠ n → t.hart m = s.hart m) ∧ t = { s with harts := t.harts }

/-! Thread instructions. -/

/-- A group after an instruction that writes a value of `n` registers to register dst of each active lane: those registers hold it, every other register and every predicate is as before, and the path has moved on. -/
def Wrote (tc : TC) (n : Nat) (v : Nat → Nat) (g : Group) : Prop :=
  (∀ l, l < 32 → ∀ r, g.reg l r =
    if l ∈ tc.act ∧ tc.x.dst.toNat ≤ r ∧ r < tc.x.dst.toNat + n then v l / 2 ^ (32 * (r - tc.x.dst.toNat)) % 2 ^ 32 else tc.grp.reg l r)
  ∧ g = { tc.grp with regs := g.regs, run := some { tc.path with pc := tc.path.pc + tc.len } }

/-- The command completes with a value of `n` registers in each active lane and numeric events `e`; nothing else changes. -/
def LaneResult (c : Instr) (s : State) (tc : TC) (n : Nat) (v : Nat → Nat) (e : NEv) : Prop :=
  Completes c s (fun t => ∃ f : Group → Group, Wrote tc n v (f tc.grp) ∧ t = (tileNum s tc.gr.tile e).modGroup tc.gr f)

/-- The command completes with predicate dst holding `v` in each active lane, p7 excepted; nothing else changes. -/
def PredResult (c : Instr) (s : State) (tc : TC) (v : Nat → Bool) : Prop :=
  Completes c s (fun t => ∃ f : Group → Group,
    (∀ p l, p < 8 → l < 32 → (f tc.grp).pred p l =
      if p ≠ 7 ∧ p = tc.x.dst.toNat % 8 ∧ l ∈ tc.act then v l else tc.grp.pred p l)
    ∧ f tc.grp = { tc.grp with preds := (f tc.grp).preds, run := some { tc.path with pc := tc.path.pc + tc.len } }
    ∧ t = s.modGroup tc.gr f)

/-- The numeric events of the active lanes together. -/
def TC.events (tc : TC) (e : Nat → NEv) : NEv := (tc.act.map e).foldl NEv.add .zero

/-- Registers a and b of a lane, or the immediate in the place of b, as 32-bit words. -/
def TC.a32 (tc : TC) (l : Nat) : Word := BitVec.ofNat 32 (tc.get l tc.x.a 1)
def TC.b32 (tc : TC) (l : Nat) : Word := BitVec.ofNat 32 (srcB tc l 1)

/-- An instruction `x` of group `gr` is about to run in context `tc`. -/
def ThreadAt (s : State) (gr : GRef) (x : TInstr) (tc : TC) : Prop := gr.tile < 160 ∧ threadCtx s gr x = some tc

/-- The command completes with the group changed as `P` says, and nothing else changed. -/
def GroupResult (c : Instr) (s : State) (tc : TC) (P : Group → Prop) : Prop :=
  Completes c s (fun t => ∃ f : Group → Group, P (f tc.grp) ∧ t = s.modGroup tc.gr f)

/-- The running path of a group goes on at `pc`, and nothing else of the group changed. -/
def GoesOn (tc : TC) (pc : Nat) (g : Group) : Prop := g = { tc.grp with run := some { tc.path with pc := pc } }

/-- The block of an instruction has been stopped by a fault: it is resident no more, TG_DONE counts it, GROUP_FAULT is set, the fault is latched where the latch was free and counted in GF_LOST where not, its command keeps its first fault, and no memory changed (05_thread_groups.md R176, R177). -/
def Stopped (s t : State) (tc : TC) (code addr : Nat) : Prop :=
  let p := pTile tc.gr.tile
  (t.tile tc.gr.tile).blocks = (s.tile tc.gr.tile).blocks.filter (fun b => decide (b.id ≠ tc.blk.id))
  ∧ t.rd p 0x204 = (s.rd p 0x204 + 1) % 2 ^ 32
  ∧ t.rdB p 0x18 8 = true
  ∧ (s.rdB p 0x210 31 = false →
      t.rd p 0x210 = (code + 256 * tc.gr.grp + 2 ^ 31) % 2 ^ 32 ∧ t.rd p 0x214 = tc.mask % 2 ^ 32 ∧ t.rd p 0x218 = tc.path.pc % 2 ^ 32
      ∧ t.rd p 0x21C = tc.blk.index % 2 ^ 32 ∧ t.rd64 p 0x220 = addr % 2 ^ 64 ∧ t.rd p 0x228 = tc.blk.launch.queue % 2 ^ 32)
  ∧ (s.rdB p 0x210 31 = true → t.rd p 0x210 = s.rd p 0x210 ∧ t.rd p 0x22C = (s.rd p 0x22C + 1) % 2 ^ 32)
  ∧ t.cmds = lupdate (fun c => decide (c.uid = tc.blk.launch.cmd))
      (fun c => { c with fault := c.fault <|> some ⟨code, 1, tc.gr.tile, tc.blk.index⟩ }) s.cmds
  ∧ t = { s with regs := t.regs, log := t.log, tiles := t.tiles, cmds := t.cmds }

/-- The atomic and cell instructions with their operation numbers (05 R149): number, compare-and-swap of 128 bits, which c[2] selects, and clearing read, which c[0] selects. -/
def atomTable (gr : GRef) (x : TInstr) : List (Instr × Nat × Bool × Bool) :=
  [(.atomAdd gr x, 0, false, false), (.atomAnd gr x, 1, false, false), (.atomOr gr x, 2, false, false), (.atomXor gr x, 3, false, false),
   (.atomMinS gr x, 4, false, false), (.atomMaxS gr x, 5, false, false), (.atomMinU gr x, 6, false, false), (.atomMaxU gr x, 7, false, false),
   (.atomSwap gr x, 8, false, false), (.atomCas gr x, 9, bit x.c.toNat 2, false), (.atomCas128 gr x, 9, bit x.c.toNat 2, false),
   (.atomFadd gr x, 0xA, false, false), (.atomFmin gr x, 0xB, false, false), (.atomFmax gr x, 0xC, false, false),
   (.cellAdd gr x, 0xD, false, false), (.cellRead gr x, 0xE, false, bit x.c.toNat 0), (.cellReadAndClear gr x, 0xE, false, bit x.c.toNat 0),
   (.cellClear gr x, 0xF, false, false)]

/-- A path parked at barrier `n` has had one completion more: each of its lanes needs one fewer. -/
def Park.released (k : Park) (n : Nat) : Park :=
  match k.kind with
  | .bar m need => if m = n then { k with kind := .bar m (need.map (fun y => (y.1, y.2 - 1))) } else k
  | .wait _ _ _ => k

/-- What updates of the signal words of tile `k` may touch: its bytes and release tags, the parked paths of its groups, and registers; registers, predicates and accesses of every group, the engines and the other tiles are as before. -/
def SignalOnly (s t : State) (k : Nat) : Prop :=
  t = { s with tmem := t.tmem, traw := t.traw, tiles := t.tiles, regs := t.regs }
  ∧ (∀ j, j ≠ k → t.tile j = s.tile j)
  ∧ (∃ (bs : List Block) (tg : List RelTag), t.tile k = { s.tile k with blocks := bs, tags := tg }
    ∧ bs.map (fun b => (b.id, b.bars, b.groups.map (fun g => (g.regs, g.preds, g.exited, g.run, g.outst))))
      = (s.tile k).blocks.map (fun b => (b.id, b.bars, b.groups.map (fun g => (g.regs, g.preds, g.exited, g.run, g.outst)))))

/-- Tile `t` has become `T`, and nothing else changed. -/
def TileBecame (s u : State) (t : Nat) (T : Tile) : Prop := u = s.setTile t T

/-- An engine has added `v` to a signal word of tile `t` and set `marks` in it, in one operation (06_matrix_engine.md R193). -/
def Signalled (s u : State) (t word v marks : Nat) : Prop :=
  u.sig t word = ((s.sig t word + v) % 2 ^ 64) ||| marks
  ∧ (∀ a, a < 0x1A00000 + 8 * word ∨ 0x1A00000 + 8 * word + 8 ≤ a → u.tb t a = s.tb t a)
  ∧ SignalOnly s u t

/-- A command keeps its first fault. -/
def CmdFaulted (s u : State) (uid : Nat) (f : CmdFault) : Prop :=
  u.cmds = lupdate (fun c => decide (c.uid = uid)) (fun c => { c with fault := c.fault <|> some f }) s.cmds

/-- A block of tile `t` has been stopped by a fault found outside its own instructions: it is resident no more, is counted, and its command keeps its first fault. -/
def BlockStopped (s u : State) (t : Nat) (b : Block) (code : Nat) : Prop :=
  (u.tile t).blocks.map (fun x => x.id) = ((s.tile t).blocks.map (fun x => x.id)).filter (fun i => decide (i ≠ b.id))
  ∧ u.rd (pTile t) 0x204 = (s.rd (pTile t) 0x204 + 1) % 2 ^ 32 ∧ u.rdB (pTile t) 0x18 8 = true
  ∧ CmdFaulted s u b.launch.cmd ⟨code, 1, t, b.index⟩
  ∧ (s.rdB (pTile t) 0x210 31 = false → u.rd (pTile t) 0x210 % 256 = code)
  ∧ u = { s with regs := u.regs, log := u.log, tiles := u.tiles, cmds := u.cmds } ∧ ∀ k, k ≠ t → u.tile k = s.tile k

/-- An engine of tile `t` has met the fault `code` of a descriptor (06_matrix_engine.md R205): flag `n` is set, the command keeps its first fault under the engine's unit, the registers take `words` where INFO at `info` is free, and the count at `lost` advances where it is not. -/
def EngineFaulted (s u : State) (t info lost n unit code : Nat) (d : Desc) (words : List (Nat × Nat)) : Prop :=
  let p := pTile t
  u.rdB p 0x18 n = true ∧ CmdFaulted s u d.iss.cmd ⟨code, unit, t, d.iss.index⟩
  ∧ (s.rdB p info 31 = false → ∀ w ∈ words, u.rd p w.1 = w.2 % 2 ^ 32)
  ∧ (s.rdB p info 31 = true → u.rd p info = s.rd p info ∧ u.rd p lost = (s.rd p lost + 1) % 2 ^ 32)
  ∧ u = { s with regs := u.regs, log := u.log, tiles := u.tiles, cmds := u.cmds } ∧ ∀ k, k ≠ t → u.tile k = s.tile k

/-- The head descriptor of the matrix engine has failed and waits for its completion (06 R205). -/
def MxFailed (s u : State) (t : Nat) (d : Desc) (code field addr : Nat) : Prop :=
  (∃ h r, u.tile t = { s.tile t with mx := { (s.tile t).mx with
    intake := (s.tile t).mx.intake.tail, halted := h, jobs := (s.tile t).mx.jobs ++ [⟨d, 0, 0, r, some code⟩] } })
  ∧ EngineFaulted s u t 0x410 0x430 12 2 code d
      [(0x410, code + 2 ^ 31), (0x414, d.off), (0x418, mxTag d), (0x41C, d.iss.index), (0x420, addr), (0x424, field), (0x428, d.iss.queue)]

/-- The head descriptor of the vector engine has failed (07_vector_engine.md R239). -/
def VxFailed (s u : State) (t : Nat) (d : Desc) (code field addr : Nat) : Prop :=
  (∃ h r, u.tile t = { s.tile t with vx := { (s.tile t).vx with
    intake := (s.tile t).vx.intake.tail, halted := h, jobs := (s.tile t).vx.jobs ++ [⟨d, false, 0, [], 0, 0, [], false, r, some code, [], []⟩] } })
  ∧ EngineFaulted s u t 0x490 0x4AC 14 3 code d
      [(0x490, code + 2 ^ 31), (0x494, d.off), (0x498, d.iss.index), (0x49C, addr), (0x4A0, field), (0x4A4, d.iss.queue)]

/-- The registers that a DMA fault latches (08_tile_data_movement.md R262, R265). -/
def dmaWords (d : Desc) (code field addr kind : Nat) : List (Nat × Nat) :=
  [(0x550, code + 256 * kind + 2 ^ 31), (0x554, d.off), (0x558, dmaTag d), (0x55C, d.iss.index), (0x560, addr), (0x564, addr / 2 ^ 32),
   (0x56C, field), (0x570, d.iss.queue)]

/-- The head descriptor of the DMA engine has failed. -/
def DmaFailed (s u : State) (t : Nat) (d : Desc) (code field addr kind : Nat) : Prop :=
  (∃ h j, u.tile t = { s.tile t with dma := { (s.tile t).dma with
    intake := (s.tile t).dma.intake.tail, halted := h, jobs := (s.tile t).dma.jobs ++ [j] } } ∧ j.d = d ∧ j.slot = none ∧ j.fail = some code)
  ∧ EngineFaulted s u t 0x550 0x574 17 4 code d (dmaWords d code field addr kind)

/-- A started DMA job has failed; what its block has lost of writes stays known, for the signals that would cover it. -/
def DmaJobFailed (s u : State) (t : Nat) (j : DmaJob) (code field addr kind : Nat) : Prop :=
  (∃ h l, u.tile t = { s.tile t with dma := { (s.tile t).dma.modJob j.d.uid (fun j => { j with fail := some code }) with halted := h, lost := l } }
    ∧ ∀ x ∈ (s.tile t).dma.lost, x ∈ l)
  ∧ EngineFaulted s u t 0x550 0x574 17 4 code j.d (dmaWords j.d code field addr kind)

/-- A command as its operation finds it: begun already, or beginning now. -/
def begunAs (s : State) (c k : Cmd) : Cmd := if c.begun then k else { c with begun := true, since := s.ref }

/-- The command `c` of the queue engine stands where `f` puts it; the other commands are as before. -/
def CmdMoved (s t : State) (c : Cmd) (f : Cmd → Cmd) : Prop :=
  t.cmds = lupdate (fun k => decide (k.uid = c.uid)) (fun k => f (begunAs s c k)) s.cmds

/-- The queue engine performs an operation of command `c` at a position of queue `q`: the module works, the command has been accepted, and it has begun and is not over, or may begin now (09_command_queues.md R290). -/
def CmdRuns (s : State) (q : Nat) (pos : BitVec 32) (op : Nat) (c : Cmd) : Prop :=
  q < 16384 ∧ alive s = true ∧ powerState s ≤ 1 ∧ cmdAt s q pos.toNat op = some c ∧ (c.begun = true ∧ c.stage ≠ 2 ∨ c.begun = false ∧ mayBegin s c = true)

/-- The command at HEAD of queue `q` has failed a check: it is not executed, owes a record with the fault, and HEAD has passed it; under stop_on_fault an armed queue stops (09 R283, R296). -/
def CheckFailed (s t : State) (q : Nat) (b : List Byte) (code off : Nat) : Prop :=
  (∃ c : Cmd, t.cmds = s.cmds ++ [c] ∧ c.queue = q ∧ c.pos = s.rd (pQueue q) 0x204 ∧ c.bytes = b ∧ c.bad = true ∧ c.fault = some ⟨code, 0, 0xFF, off⟩)
  ∧ t.rd (pQueue q) 0x204 = (s.rd (pQueue q) 0x204 + cmdBf b 2 0 6 + 1) % 2 ^ 32
  ∧ qState t q = (if s.rdB (pQueue q) 0x104 5 ∧ qState s q = 2 then 3 else qState s q)
  ∧ t = { s with regs := t.regs, log := t.log, cmds := t.cmds, nextUid := s.nextUid + 1, qs := t.qs }

/-- The connections on port `l` hold no access that is waiting or out. -/
def ConnsQuiet (s : State) (l : Nat) : Prop := ∀ c ∈ portConns s l, c < 16384 ∧ (s.conn c).out = [] ∧ (s.conn c).wait = []

/-- A link has entered DOWN with a cause (12_krovmo_fabric.md R369, R370, R392): its state, cause and flag, PORTS_UP, a long operation that failed, an empty retry buffer; its connections in IDLE, OPENING, OPEN or DRAINING are DOWN (R380). Other links are as before, unless all retry copies were in use and free ones let other connections send. -/
def LinkDowned (s t : State) (l cause : Nat) : Prop :=
  linkState t l = 4 ∧ t.rd (pLink l) 0x220 = cause ∧ t.rdB (pLink l) 0x18 10 = true ∧ t.rdB pFabric 0x204 l = false
  ∧ t.opBusy (pLink l) = false ∧ (s.opBusy (pLink l) = true → t.rdB (pLink l) 0x18 7 = true)
  ∧ (t.link l).retry = [] ∧ (t.link l).downAt = s.ref ∧ (t.link l).retrainFrom = none ∧ (retryUsed s < 65536 → ∀ m, m ≠ l → t.link m = s.link m)
  ∧ ∀ c ∈ portConns s l, connState t c = if 1 ≤ connState s c ∧ connState s c ≤ 4 then 5 else connState s c

/-- A full training of a link has begun (12 R367): its lasers are on, which is its first step; flit numbers, credits and buffers start anew. -/
def TrainBegun (s t : State) (l : Nat) : Prop :=
  linkState t l = 1 ∧ t.opBusy (pLink l) = true ∧ t.rd (pLink l) 0x20 = 1 + 20 * 2 ^ 24 ∧ t.rdB pFabric 0x204 l = false
  ∧ (t.link l).step = 1 ∧ (t.link l).since = s.ref ∧ (t.link l).retry = [] ∧ (t.link l).seqNext = 1 ∧ (t.link l).accepted = 0
  ∧ (t.link l).tx = LinkSt.init.tx ∧ (t.link l).rx = LinkSt.init.rx
  ∧ RegsKept s t [(pLink l, 0x14), (pLink l, 0x20), (pFabric, 0x204)] ∧ t = { s with regs := t.regs, links := t.links }

/-- A link has nothing to send. -/
def LinkSt.idle (k : LinkSt) : Prop := k.ctl = [] ∧ k.replayDue = false ∧ ∀ v ∈ k.tx, v.q = [] ∧ v.rest = [] ∧ v.cutDue = false

/-- A link has begun to retrain (12 R369): counted and flagged, its lanes locking anew and its retry buffer kept; when it asks its partner, one control flit goes out as soon as there is room for it and no disturbance bars it. -/
def RetrainBegun (s t : State) (l : Nat) (ask : Bool) : Prop :=
  linkState t l = 3 ∧ t.rdB pFabric 0x204 l = false ∧ t.rd (pLink l) 0x214 = (s.rd (pLink l) 0x214 + 1) % 2 ^ 32 ∧ t.rdB (pLink l) 0x18 9 = true
  ∧ (t.link l).retrainFrom = some s.ref ∧ (t.link l).step = 1 ∧ (t.link l).lanes = 0
  ∧ (∃ more, (t.link l).retry = (s.link l).retry ++ more)
  ∧ (ask = false → (t.link l).retry = (s.link l).retry ∧ (t.link l).rx = (s.link l).rx)
  ∧ (ask = false ∨ (s.link l).idle → (t.link l).tx = (s.link l).tx ∧ t = { s with regs := t.regs, log := t.log, links := t.links })
  ∧ (ask = true → (s.link l).idle → (s.link l).retry.length < 2048 → linkOpen s l = true →
      ∃ f : TxFlit, (t.link l).retry = (s.link l).retry ++ [f] ∧ f.ftype = 2 ∧ f.seq = (s.link l).seqNext ∧ leAt f.payload 0 1 = 2)

/-- What the ack and the credits of an accepted flit leave of a link (12 R371-R373): flits up to ack are kept no longer, each channel has its credits more. -/
def LinkSt.acked (k : LinkSt) (f : Flit) (now : Nat) : LinkSt :=
  let rest := k.retry.filter (fun x => decide (2048 ≤ (f.ack.toNat + 4096 - x.seq) % 4096))
  { k with
    retry := rest
    tx := (k.tx.zip [f.cr0.toNat, f.cr1.toNat, f.cr2.toNat]).map (fun x => { x.1 with credits := x.1.credits + x.2 })
    ackAt := if rest.length < k.retry.length then now else k.ackAt }

/-- A link that stood as `k` has answered with one idle flit (12 R371-R373): it carries the last seq accepted, the nak that was due and the credits returned, its crc checks, and nothing else of the link changed. -/
def IdleSent (k k' : LinkSt) (hold : Nat) : Prop :=
  ∃ f : Flit, k'.line = k.line ++ [f] ∧ f.ftype = 0 ∧ f.ack.toNat = k.accepted % 4096 ∧ f.nak = k.nakDue ∧ f.cut = false ∧ flitOk f = true
    ∧ [f.cr0.toNat, f.cr1.toNat, f.cr2.toNat] = (creditTurn k hold).1
    ∧ k' = { (creditTurn k hold).2 with line := k'.line, nakDue := false }

/-- Flits that a link has transmitted since it stood as `k`, by seq and payload. -/
def LinkSt.sentSince (k k' : LinkSt) : List (Nat × List Byte) := (k'.line.drop k.line.length).map (fun f => (f.seq.toNat, f.payload))

/-- The flits of a retry buffer as they are transmitted again. -/
def resent (r : List TxFlit) : List (Nat × List Byte) := r.map (fun x => (x.seq % 4096, slice x.payload 0 240))

/-- The retry buffer `r` of a link is replayed (12 R369, R372): counted and flagged, every flit of it transmitted again in order unless a disturbance bars it; the link retrains where one of its flits has now been replayed more than nak_limit times within 100 µs. -/
def Replayed (s t : State) (l : Nat) (r : List TxFlit) : Prop :=
  let p := pLink l
  let times (x : TxFlit) : Nat := 1 + (x.times.filter (fun m => decide (s.ref ≤ m + 10000))).length
  let often : Prop := ∃ x ∈ r, s.rdF p 0x114 0 8 < times x
  t.rd p 0x210 = (s.rd p 0x210 + r.length) % 2 ^ 32 ∧ t.rdB p 0x18 14 = true
  ∧ (∃ more, (t.link l).retry = r.map (fun x => { x with times := s.ref :: x.times.filter (fun m => decide (s.ref ≤ m + 10000)) }) ++ more)
  ∧ (linkOpen s l = true → ∃ more, (s.link l).sentSince (t.link l) = resent r ++ more)
  ∧ (¬ often → linkState t l = 2) ∧ (often → linkState t l = 3 ∧ t.rdB p 0x18 9 = true ∧ t.rd p 0x214 = (s.rd p 0x214 + 1) % 2 ^ 32)

/-- Only link `l` changed, and it is `k`. -/
def LinkBecame (s t : State) (l : Nat) (k : LinkSt) : Prop := t = s.setLink l k

/-- A packet passes the checks that every packet meets (12_krovmo_fabric.md R382): its check, a version the link has, no reserved value, and this node. -/
def PacketOk (s : State) (l : Nat) (p : Packet) : Prop :=
  p.check.toNat = packetCheck p ∧ 1 ≤ p.ver.toNat ∧ p.ver.toNat ≤ 3 ∧ p.ver.toNat ≤ linkVer s l ∧ packetBad p = false
  ∧ bits p.target.toNat 40 20 = nodeId s ∧ nodeId s ≠ 0xFFFFF

/-- A packet names a connection that stands with its peer: the checks of generation, epochs, peer and version. -/
def PacketOn (s : State) (p : Packet) : Prop :=
  let q := pConn p.dstConn.toNat
  (connState s p.dstConn.toNat = 3 ∨ connState s p.dstConn.toNat = 4) ∧ s.quarantined q = false
  ∧ p.gen.toNat = s.rd q 0x2C ∧ p.epoch.toNat = s.rd q 0x28 ∧ p.srcNode.toNat = s.rdF q 0x108 0 20 ∧ p.srcConn.toNat = s.rdF q 0x104 18 14
  ∧ p.ver.toNat = s.rdF q 0x200 0 4

/-- A port hears packets: the module works, the fabric is enabled and its link is UP. -/
def PortHears (s : State) (l : Nat) : Prop := l < 32 ∧ alive s = true ∧ s.enabled pFabric = true ∧ linkState s l = 2

/-- A refused packet: one more in a count of FABRIC and in the listed words, PACKET_REFUSED, its answer where it is a request, and no memory changed (12 R382, R383). -/
def PacketRefused (s t : State) (l : Nat) (p : Packet) (off status : Nat) (words : List (Page × Nat)) : Prop :=
  t.rd pFabric off = (s.rd pFabric off + 1) % 2 ^ 32 ∧ Flagged s t pFabric 10 ∧ RegsKept s t ((pFabric, off) :: words ++ flagWords pFabric 10)
  ∧ (∀ w ∈ words, t.rd w.1 w.2 = (s.rd w.1 w.2 + 1) % 2 ^ 32)
  ∧ ∃ u, u = { s with regs := t.regs, log := t.log } ∧ t = if p.ptype.toNat < 5 then respond u l p status [] else u

/-- A connection has entered DOWN with a cause (12 R380, R393). -/
def ConnDowned (t : State) (c cause : Nat) : Prop :=
  connState t c = 5 ∧ t.rd (pConn c) 0x21C = cause ∧ t.rdB (pConn c) 0x18 9 = true ∧ c ∉ t.openConns
  ∧ (t.conn c).out = [] ∧ (t.conn c).wait = [] ∧ (t.conn c).openSince = none ∧ (t.conn c).closing = false

/-- The list of bound resources names tiles, queues and connections that the module has. -/
def BoundOk (s : State) : Prop := ∀ p ∈ s.bind.bound, pageOk p = true ∧ (p.blk = .tile ∨ p.blk = .queue ∨ p.blk = .conn)

/-- The accesses of a connection that are waiting or out are those of thread instructions. -/
def ThreadOnly (s : State) (c : Nat) : Prop := ∀ r ∈ (s.conn c).out.map (fun o => o.req) ++ (s.conn c).wait, ∃ gr id fill, r.ctx = .thread gr id fill

/-- Palur finds the request `r` at the head of its queue, alone there, well formed, and of the row of a command; `s` is the state without it (09_command_queues.md R303). -/
def Taken (s0 s : State) (row : Nat) (r : PReq) : Prop :=
  s0.palur.reqs = [r] ∧ canServe s0 r = true ∧ malformed r = none ∧ r.row = row ∧ s = { s0 with palur := { s0.palur with reqs := [] } }

/-- The request is taken, and neither the fatal state nor the state table of 15 R495 denies it. -/
def Serves (s0 s : State) (row : Nat) (r : PReq) : Prop := Taken s0 s row r ∧ s.rdF pErrlog 0x220 0 2 ≠ 2 ∧ denied s r = false

/-- A request has been answered with a status and a payload (09 R301, R303, 12 R398): in MBX_RSP, with busy clear and MBX_DONE set, or in a datagram of its session. -/
def Replied (s t : State) (r : PReq) (status : Nat) (payload : List Byte) : Prop :=
  let m := rspMsg r status payload
  (r.session = none →
    (∀ i, i < 64 → t.rd pPalur (0x500 + 4 * i) = leAt (slice m 0 256) (4 * i) 4) ∧ t.rdB pPalur 0x308 0 = false
    ∧ WordsAndFlag s t ((pPalur, 0x308) :: (List.range 64).map (fun i => (pPalur, 0x500 + 4 * i))) pPalur 8)
  ∧ (∀ σ seq, r.session = some (σ, seq) → t = { s with palur := { s.palur with sent := datagram s 1 σ (seq + 2 ^ 63) m } })

/-- A request has been refused: FAILED, with a code that GET_RESULT returns from now on (15 R475). -/
def RequestFailed (s t : State) (r : PReq) (code : Nat) : Prop :=
  Replied { s with palur := { s.palur with result := toLE 1 code ++ toLE 4 0 } } t r 7 []

/-- Palur's long operation runs, and nothing but its registers changed (02_register_pages.md R56, 15 R497). -/
def LongBegun (s t : State) (x : LongOp) (unit shift : Nat) : Prop :=
  t.palur = { s.palur with long := some x } ∧ t.opBusy pPalur = true ∧ t.rd pPalur 0x20 = 0 ∧ t.rd pPalur 0x24 = shift + 256 * unit
  ∧ RegsKept s t [(pPalur, 0x14), (pPalur, 0x20), (pPalur, 0x24)] ∧ t = { s with regs := t.regs, palur := t.palur }

/-- Palur's long operation has ended without completing: its code and offset are the result. -/
def LongFailed (s t : State) (code off : Nat) : Prop :=
  t.palur = { s.palur with long := none, result := toLE 1 code ++ toLE 4 off } ∧ t.opBusy pPalur = false ∧ t.rdB pPalur 0x18 7 = true
  ∧ t.rd pPalur 0x20 = s.rd pPalur 0x20

/-- Palur's long operation has completed. -/
def LongEnded (t : State) : Prop := t.palur.long = none ∧ t.opBusy pPalur = false ∧ t.rdB pPalur 0x18 6 = true ∧ t.rd pPalur 0x20 / 2 ^ 24 = 100

/-- The commands that take a request of Palur, with the row of each and whether it begins a long operation. -/
def palurTable : List (Instr × Nat × Bool) :=
  [(.getInfo, 0x0100, false), (.getResult, 0x0200, false), (.sleepEnterP1, 0x1101, true), (.sleepEnterP2, 0x1102, true),
   (.sleepEnterP3, 0x1103, true), (.sleepExit, 0x1200, true), (.fwStageHost, 0x2000, true), (.fwStageChunk, 0x2001, false), (.fwStageAbort, 0x2002, false),
   (.fwActivate, 0x2100, true), (.selfTestTileLogic, 0x3000, true), (.selfTestStorage, 0x3001, true), (.selfTestLoopback, 0x3002, true),
   (.debugTokenPresent, 0x3100, false), (.debugTokenChallenge, 0x3101, false), (.debugTokenDeploy, 0x3102, false), (.debugTokenMgmtKey, 0x3103, false),
   (.debugTokenEnd, 0x3104, false), (.hostReset, 0x4000, false), (.moduleReset, 0x4100, false), (.attestReport, 0x5000, true), (.attestRead, 0x5001, false),
   (.attestBurgee, 0x5002, false), (.errlogRead, 0x6000, false), (.calRead, 0x7000, false), (.calWriteData, 0x7100, false), (.calCommit, 0x7101, false),
   (.calDiscard, 0x7102, false)]

/-- Bring-up has completed (16_bringup_errors_test.md R504, R507): crossings as found, every stack's end and interleave key alike, slices, controllers, dies and the network enabled, each stack's position at the bytes of its initialised frames (11_memory_system.md R355), the rails on at 0.60 V, memory zero behind the host firmware, per-tile bytes zero, failing tiles disabled where the self-test was asked for, hart 0 running from 0 in machine mode. -/
def BroughtUp (s t : State) (env : BringupEnv) (key : Nat) (bist : Bool) : Prop :=
  let l := bringMapped env s
  LongEnded t ∧ t.palur.taken = true ∧ t.palur.result = [0, 0, 0, 0, 0] ∧ t.palur.entry = 0 ∧ t.hartsOn = 1 ∧ t.hart 0 = { Hart.init with pc := 0 } ∧ t.store.mapped = l
  ∧ t.rd64 pNet 0x200 = env.xc1.toNat ∧ t.rd64 pNet 0x208 = env.xc3.toNat ∧ t.rd pHostc 0x218 = env.xc4.toNat ∧ t.enabled pNet = true ∧ t.enabled pHostc = true
  ∧ (∀ st, st < 12 → t.rd64 (pHbmc st) 0x248 = (768 - l.length) * 1125000000 ∧ t.rd64 (pHbmc st) 0x250 = (if key = 0 then (Config.randomWord s.palur.draws).toNat else key)
      ∧ t.enabled (pCache st) = true ∧ t.enabled (pHbmc st) = true ∧ t.opBusy (pHbmc st) = false ∧ t.rdB (pHbmc st) 0x18 6 = true
      ∧ t.rdF (pHbmc st) 0x20 0 24 = 256 * initFrames t st / 2 ^ 26 % 2 ^ 24)
  ∧ (∀ d, d < 4 → t.enabled (pDie d) = true ∧ railOn t d = (railOn s d || !dieTripped s d))
  ∧ (∀ a, 2 ^ 28 ≤ a → t.hb a = 0) ∧ (∀ k a, t.tb k a = 0) ∧ t.mem.failed = [] ∧ t.mem.phyLost = [] ∧ t.mem.selfRefresh = false
  ∧ (∀ k, k < 160 → bist = true → k ∈ env.tileFail → t.enabled (pTile k) = false ∧ t.rdB pErrlog (0x230 + 4 * (k / 32)) (k % 32) = true)

/-- Bring-up has failed at a step (16 R505): its result is the code, OP_FAILED is set, and no hart started. -/
def BringupFailed (s t : State) (code : Nat) : Prop :=
  t.rdF pErrlog 0x220 0 2 = 1 ∧ t.palur.taken = true ∧ t.palur.result = toLE 1 code ++ toLE 4 0 ∧ t.opBusy pPalur = false ∧ t.rdB pPalur 0x18 7 = true ∧ t.hartsOn = s.hartsOn

/-- The module without power (14_power_thermal.md R437, 16 R512): no supply is on, and nothing but the store and the repairs of the stacks is left. -/
def Dark (s t : State) : Prop :=
  t.up = false ∧ t.regs = [] ∧ t.hbm = [] ∧ t.tmem = [] ∧ t.cmds = [] ∧ t.bind.bound = [] ∧ t.hartsOn = 0 ∧ t.harts = [] ∧ t.ref = 0
  ∧ t.power.baseMv = 0 ∧ t.power.hostMv = 0
  ∧ t.mem = { MemSys.init with retired := s.mem.retired, rowRep := s.mem.rowRep, bankSpare := s.mem.bankSpare }
  ∧ t.store.banks = s.store.banks ∧ t.store.active = s.store.active ∧ t.store.lifecycle = s.store.lifecycle ∧ t.store.mgmtKey = s.store.mgmtKey
  ∧ t.store.mapped = s.store.mapped ∧ t.store.calib = s.store.calib ∧ t.pending = s.pending

/-- A die has tripped (14_power_thermal.md R452): its rail is off, STATUS.tripped, the count and the flag are set, and the work on its tiles is gone, launches on their way excepted: DMA slots read empty and a window operation has ended with err 2 (08_tile_data_movement.md R265, R266). -/
def DieTripped (s t : State) (d : Nat) : Prop :=
  railOn t d = false ∧ railMv t d = 0 ∧ dieTripped t d = true ∧ t.rd (pDie d) 0x21C = (s.rd (pDie d) 0x21C + 1) % 2 ^ 32 ∧ t.rdB (pDie d) 0x18 10 = true
  ∧ (∀ n, n < 40 → t.tile (40 * d + n) = { Tile.init with arriving := (s.tile (40 * d + n)).arriving, nextId := (s.tile (40 * d + n)).nextId }
      ∧ (∀ i, i < 4 → t.rdF (pTile (40 * d + n)) (0x518 + 16 * i) 0 2 = 0)
      ∧ ((s.tile (40 * d + n)).win.isSome = true → t.rdF (pTile (40 * d + n)) 0x588 0 4 = 4))
  ∧ (∀ k, k < 40 * d ∨ 40 * d + 40 ≤ k → t.tile k = s.tile k)
  ∧ (∀ n b, n < 40 → b ∈ (s.tile (40 * d + n)).blocks → ∀ c ∈ t.cmds, c.uid = b.launch.cmd → c.fault ≠ none)
  ∧ t.stalls = s.stalls.filter (fun p => !gated t p)
  ∧ t = { s with regs := t.regs, log := t.log, tiles := t.tiles, cmds := t.cmds, stalls := t.stalls, phase := t.phase, power := { s.power with rails := t.power.rails, rail := t.power.rail } }

end Sys2Proof.Machine
end

