-- ==== Sys2Proof/Certificates/Slice0/Obligations.lean ====
section
/-! DEFINITION. The statements for the provers. -/

open Sys2Proof Sys2Proof.Machine

/-! The machine as a whole. -/

/-- A step with a command waiting runs the command at the front of the queue with the queue's rest. -/
def Obligations.StepRunsFront : Prop :=
  ∀ (s : State) (c : Instr) (rest : List Instr), s.pending = c :: rest → step s = exec c { s with pending := rest }

/-- With no command waiting a step is one tick of 10 ns (the model's choice, log entry 2): the timebase counts one, PTP time advances by 10 ns corrected by the rate with the rest of a nanosecond carried, each tile that waits at a collective adds to the waiting of its job slot (14_power_thermal.md R459), a port whose lanes have locked then aligns, and a lease of the management port that has run out ends (log entries 162 and 166); nothing else changes. Without power nothing happens, and after the timebase has lost lock no clock moves. -/
def Obligations.IdleStepTicks : Prop :=
  ∀ s : State, s.pending = [] →
    (s.up = true ∧ s.refStopped = false →
      ∃ t, step s = .next (dhcpExpire (alignLinks t)) ∧ ((∀ x ∈ s.links, x.2.step ≠ 2) → s.mgmt.lease = none → step s = .next t)
        ∧ t.ref = (s.ref + 1) % 2 ^ 64
        ∧ (0 ≤ (s.servo.frac : Int) + 10000000000 + 10 * (BitVec.ofNat 32 (s.rd pTime 0x218)).toInt →
            ∃ ns : Nat, (ns : Int) * 1000000000 + t.servo.frac = s.servo.frac + 10000000000 + 10 * (BitVec.ofNat 32 (s.rd pTime 0x218)).toInt
              ∧ t.servo.frac < 1000000000 ∧ t.ptp = (s.ptp + ns) % 2 ^ 64)
        ∧ (∀ j, j < 16 → fget (fun _ => 0) t.power.paceWait j = fget (fun _ => 0) s.power.paceWait j + ((slotTiles s j).filter (tileWaits s)).length
            ∧ (allWait s j = true → fget (fun _ => 0) t.power.paceAll j = fget (fun _ => 0) s.power.paceAll j + 1 ∧ (j ∈ t.power.straggled ↔ j ∈ s.power.straggled))
            ∧ (allWait s j = false → fget (fun _ => 0) t.power.paceAll j = 0 ∧ j ∉ t.power.straggled))
        ∧ t = { s with ref := t.ref, ptp := t.ptp, servo := { s.servo with frac := t.servo.frac }
                       power := { s.power with paceWait := t.power.paceWait, paceAll := t.power.paceAll, straggled := t.power.straggled } })
    ∧ (s.up = false → step s = .next s)
    ∧ (s.up = true ∧ s.refStopped = true → step s = .next (dhcpExpire (alignLinks s)) ∧ ((∀ x ∈ s.links, x.2.step ≠ 2) → s.mgmt.lease = none → step s = .next s))

/-- At reset no command waits, no power is applied, nothing runs anywhere, no storage holds anything but its reset contents, and both configuration sets of every block are alike with CTRL.enable 0 (02_register_pages.md R50). -/
def Obligations.ResetState : Prop :=
  State.reset.pending = [] ∧ State.reset.up = false ∧ State.reset.cmds = [] ∧ State.reset.openConns = [] ∧ State.reset.hartsOn = 0
    ∧ State.reset.bind.bound = [] ∧ State.reset.ref = 0 ∧ State.reset.netHalted = false
    ∧ State.reset.hcache.lines = [] ∧ (∀ n, State.reset.hart n = Hart.init)
    ∧ (∀ t, State.reset.tile t = Tile.init) ∧ (∀ a, State.reset.hb a = 0) ∧ (∀ t a, State.reset.tb t a = 0)
    ∧ ∀ p : Page, pageOk p = true →
        State.reset.rdB p 0x10 0 = false ∧ State.reset.rdF p 0x10 4 4 = 1 ∧ State.reset.rd p 0x14 = 0 ∧ State.reset.rd p 0x100 = 0xFFFFFFFF
        ∧ ∀ i, i < (caps p.blk).words → State.reset.rd p (0x900 + 4 * i) = State.reset.rd p (0x100 + 4 * i)

/-- The address spaces are in their canonical form at reset. -/
def Obligations.CanonicalAtReset : Prop :=
Canonical State.reset

/-- Every step keeps the register space, stacked memory and per-tile memory in their canonical form, from every state that has it. -/
def Obligations.StepKeepsCanonical : Prop :=
∀ s t : State, Canonical s → step s = .next t → Canonical t

/-- No command of the table touches the queue of waiting commands, whatever else it does. -/
def Obligations.CommandsKeepQueue : Prop :=
∀ (c : Instr) (s t : State), exec c s = .next t → t.pending = s.pending

/-! Thread instructions. -/

/-- Integer instructions of two operands (05_thread_groups.md R542): each active lane's register dst takes the 32-bit result, shifts taking b AND 31; nothing else changes. The other integer instructions (05 R542): popc and clz, the high half of a signed or unsigned product, the sum of register pairs, and mov. -/
def Obligations.IntegerOps : Prop :=
  (
  ∀ (s : State) (gr : GRef) (x : TInstr) (tc : TC), ThreadAt s gr x tc → firstBad (checks2 1 tc) = none →
    LaneResult (.iadd gr x) s tc 1 (fun l => (tc.a32 l + tc.b32 l).toNat) .zero
    ∧ LaneResult (.isub gr x) s tc 1 (fun l => (tc.a32 l - tc.b32 l).toNat) .zero
    ∧ LaneResult (.mulLo gr x) s tc 1 (fun l => (tc.a32 l * tc.b32 l).toNat) .zero
    ∧ LaneResult (.iand gr x) s tc 1 (fun l => (tc.a32 l &&& tc.b32 l).toNat) .zero
    ∧ LaneResult (.ior gr x) s tc 1 (fun l => (tc.a32 l ||| tc.b32 l).toNat) .zero
    ∧ LaneResult (.ixor gr x) s tc 1 (fun l => (tc.a32 l ^^^ tc.b32 l).toNat) .zero
    ∧ LaneResult (.shl gr x) s tc 1 (fun l => (tc.a32 l <<< ((tc.b32 l).toNat % 32)).toNat) .zero
    ∧ LaneResult (.shr gr x) s tc 1 (fun l => (tc.a32 l >>> ((tc.b32 l).toNat % 32)).toNat) .zero
    ∧ LaneResult (.sar gr x) s tc 1 (fun l => ((tc.a32 l).sshiftRight ((tc.b32 l).toNat % 32)).toNat) .zero
    ∧ LaneResult (.imin gr x) s tc 1 (fun l => (if (tc.b32 l).slt (tc.a32 l) then tc.b32 l else tc.a32 l).toNat) .zero
    ∧ LaneResult (.imax gr x) s tc 1 (fun l => (if (tc.a32 l).slt (tc.b32 l) then tc.b32 l else tc.a32 l).toNat) .zero
  ) ∧ (
  ∀ (s : State) (gr : GRef) (x : TInstr) (tc : TC), ThreadAt s gr x tc →
    (firstBad (checks1 tc) = none →
      LaneResult (.popc gr x) s tc 1 (fun l => ((List.range 32).filter (fun i => (tc.a32 l).getLsbD i)).length) .zero
      ∧ ∃ v : Nat → Nat,
          (∀ l, (tc.a32 l = 0 → v l = 32) ∧ (tc.a32 l ≠ 0 → v l < 32 ∧ 2 ^ (31 - v l) ≤ (tc.a32 l).toNat ∧ (tc.a32 l).toNat < 2 ^ (32 - v l)))
          ∧ LaneResult (.clz gr x) s tc 1 v .zero)
    ∧ (firstBad (checksMulHi tc) = none →
        (x.c = 0 → LaneResult (.mulHi gr x) s tc 1 (fun l => (BitVec.ofInt 32 ((tc.a32 l).toInt * (tc.b32 l).toInt / 2 ^ 32)).toNat) .zero)
        ∧ (x.c = 1 → LaneResult (.mulHi gr x) s tc 1 (fun l => (tc.a32 l).toNat * (tc.b32 l).toNat / 2 ^ 32) .zero))
    ∧ (firstBad (checks2 2 tc) = none →
        LaneResult (.add64 gr x) s tc 2 (fun l => (BitVec.ofNat 64 (tc.get l x.a 2) + BitVec.ofNat 64 (srcB tc l 2)).toNat) .zero)
    ∧ (firstBad (checksMov tc) = none →
        LaneResult (.mov gr x) s tc (if x.c = 2 then 2 else 1)
          (fun l => if x.wide then x.imm.toNat else tc.get l x.a (if x.c = 2 then 2 else 1)) .zero)
  )

/-- Floating-point instructions of two and three operands (05 R150): each lane's result is the exact one of the operands' values, finished once in the format under the CVT byte; the events of the lanes are counted. Floating-point instructions of one operand (05 R150): abs, neg and sqrt are exact before one rounding; the functions take the value that the numeric library gives for their code, whose choice within the bound of ulps stays open. -/
def Obligations.FpOps : Prop :=
  (
  ∀ (s : State) (gr : GRef) (x : TInstr) (tc : TC), ThreadAt s gr x tc →
    let n := fmtRegs tc.fmt
    let a (l : Nat) : FV := decodeFV tc.fmt (tc.get l x.a n)
    let b (l : Nat) : FV := decodeFV tc.fmt (srcB tc l n)
    let c (l : Nat) : FV := decodeFV tc.fmt (tc.get l x.c n)
    let down : Bool := decide (tc.cvt % 8 = 2)
    let fin (l : Nat) (v : FV) : Nat × NEv := finish tc.fmt (tc.rnd (tc.tid l)) ((a l).isNan || (b l).isNan) v
    let res (i : Instr) (f : FV → FV → FV) : Prop :=
      LaneResult i s tc n (fun l => (fin l (f (a l) (b l))).1) (tc.events (fun l => (fin l (f (a l) (b l))).2))
    (firstBad (checksFp 2 tc) = none →
      res (.fpAdd gr x) (fadd down) ∧ res (.fpSub gr x) (fun u w => fadd down u (fneg w)) ∧ res (.fpMul gr x) fmul
      ∧ res (.fpMin gr x) fminV ∧ res (.fpMax gr x) fmaxV ∧ res (.fpDiv gr x) fdiv)
    ∧ (firstBad (checksFp 3 tc) = none →
        let r (l : Nat) : Nat × NEv :=
          finish tc.fmt (tc.rnd (tc.tid l)) ((a l).isNan || (b l).isNan || (c l).isNan) (fadd down (fmul (a l) (b l)) (c l))
        LaneResult (.fpFma gr x) s tc n (fun l => (r l).1) (tc.events (fun l => (r l).2)))
  ) ∧ (
  ∀ (s : State) (gr : GRef) (x : TInstr) (tc : TC), ThreadAt s gr x tc → firstBad (checksFp 1 tc) = none →
    let n := fmtRegs tc.fmt
    let a (l : Nat) : Nat := tc.get l x.a n
    let res (i : Instr) (f : Nat → Nat × NEv) : Prop := LaneResult i s tc n (fun l => (f l).1) (tc.events (fun l => (f l).2))
    let exact (f : FV → FV) (l : Nat) : Nat × NEv :=
      finish tc.fmt (tc.rnd (tc.tid l)) (decodeFV tc.fmt (a l)).isNan (f (decodeFV tc.fmt (a l)))
    let fn (code : Nat) (l : Nat) : Nat × NEv := mathFn code tc.fmt tc.cvt (tc.rnd (tc.tid l)) (a l)
    res (.fpAbs gr x) (exact fabs) ∧ res (.fpNeg gr x) (exact fneg) ∧ res (.fpSqrt gr x) (exact fsqrt)
    ∧ res (.fpRcp gr x) (fn 0x30) ∧ res (.fpRsqrt gr x) (fn 0x31) ∧ res (.fpExp2 gr x) (fn 0x34) ∧ res (.fpLog2 gr x) (fn 0x36)
    ∧ res (.fpSin gr x) (fn 0x3B) ∧ res (.fpCos gr x) (fn 0x3C)
  )

/-- Conversions (05 R151): cvt between element formats; cvt.pack puts the conversions of consecutive registers into one register, element j at bit j times its width; cvt.unpack writes each element of a register to a register of its own. -/
def Obligations.Conversions : Prop :=
  ∀ (s : State) (gr : GRef) (x : TInstr) (tc : TC), ThreadAt s gr x tc →
    (firstBad (checksCvt tc) = none →
      let r (l : Nat) : Nat × NEv := convert x.c.toNat tc.fmt (tc.rnd (tc.tid l)) (tc.get l x.a (fmtRegs x.c.toNat))
      LaneResult (.cvt gr x) s tc (fmtRegs tc.fmt) (fun l => (r l).1) (tc.events (fun l => (r l).2)))
    ∧ (firstBad (checksPack tc) = none →
        ∃ k, packN tc.fmt = some k ∧ ∃ v : Nat → Nat, ∃ e : NEv, LaneResult (.cvtPack gr x) s tc 1 v e
          ∧ ∀ l j, l ∈ tc.act → j < k →
              bits (v l) (fmtBits tc.fmt * j) (fmtBits tc.fmt)
                = (convert x.c.toNat tc.fmt (tc.rnd (k * tc.tid l + j)) (tc.grp.reg l (x.a.toNat + j))).1 % 2 ^ fmtBits tc.fmt)
    ∧ (firstBad (checksUnpack tc) = none →
        ∃ k, packN x.c.toNat = some k ∧ Completes (.cvtUnpack gr x) s (fun t => ∃ (e : NEv) (f : Group → Group),
          t = (tileNum s gr.tile e).modGroup gr f
          ∧ (∀ l j, l ∈ tc.act → j < k → (f tc.grp).reg l (x.dst.toNat + j)
              = (convert x.c.toNat tc.fmt (tc.rnd (tc.tid l)) (bits (tc.get l x.a 1) (fmtBits x.c.toNat * j) (fmtBits x.c.toNat))).1 % 2 ^ 32)
          ∧ (∀ l r, l < 32 → (l ∉ tc.act ∨ r < x.dst.toNat ∨ x.dst.toNat + k ≤ r) → (f tc.grp).reg l r = tc.grp.reg l r)
          ∧ f tc.grp = { tc.grp with regs := (f tc.grp).regs, run := some { tc.path with pc := tc.path.pc + tc.len } }))

/-- Comparisons and select (05 R542): a NaN makes every ordered comparison false and ne true; predicate dst of the active lanes takes the outcome, select copies one of its sources. -/
def Obligations.Comparisons : Prop :=
  ∀ (s : State) (gr : GRef) (x : TInstr) (tc : TC), ThreadAt s gr x tc →
    let n := fmtRegs tc.fmt
    let a (l : Nat) : FV := decodeFV tc.fmt (tc.get l x.a n)
    let b (l : Nat) : FV := decodeFV tc.fmt (srcB tc l n)
    let nan (l : Nat) : Bool := (a l).isNan || (b l).isNan
    (firstBad (checksCmp tc) = none →
      PredResult (.cmpEq gr x) s tc (fun l => !nan l && decide (fcmp (a l) (b l) = .eq))
      ∧ PredResult (.cmpNe gr x) s tc (fun l => nan l || decide (fcmp (a l) (b l) ≠ .eq))
      ∧ PredResult (.cmpLt gr x) s tc (fun l => !nan l && decide (fcmp (a l) (b l) = .lt))
      ∧ PredResult (.cmpLe gr x) s tc (fun l => !nan l && decide (fcmp (a l) (b l) ≠ .gt))
      ∧ PredResult (.cmpGt gr x) s tc (fun l => !nan l && decide (fcmp (a l) (b l) = .gt))
      ∧ PredResult (.cmpGe gr x) s tc (fun l => !nan l && decide (fcmp (a l) (b l) ≠ .lt))
      ∧ PredResult (.unordered gr x) s tc nan)
    ∧ (firstBad (checksSelect tc) = none →
        LaneResult (.select gr x) s tc n (fun l => if tc.grp.pred (x.c.toNat % 8) l then tc.get l x.a n else srcB tc l n) .zero)

/-- Predicate logic, votes and ballot (05 R172, R542). Shuffles and special reads (05 R172, R148): a lane takes register a of the source lane, its own where that lane is inactive or outside 0-31; the special values are those of the group, the block, the launch, the node and the timebase. -/
def Obligations.PredicatesAndShuffles : Prop :=
  (
  ∀ (s : State) (gr : GRef) (x : TInstr) (tc : TC), ThreadAt s gr x tc →
    let p (f : BitVec 8) (l : Nat) : Bool := tc.grp.pred (f.toNat % 8) l
    (firstBad (checksPred true tc) = none →
      PredResult (.pand gr x) s tc (fun l => p x.a l && p x.b l) ∧ PredResult (.por gr x) s tc (fun l => p x.a l || p x.b l)
      ∧ PredResult (.pxor gr x) s tc (fun l => xor (p x.a l) (p x.b l)))
    ∧ (firstBad (checksPred false tc) = none → PredResult (.pnot gr x) s tc (fun l => !p x.a l))
    ∧ (firstBad (checksVote tc) = none →
        PredResult (.voteAny gr x) s tc (fun _ => decide (∃ k ∈ tc.act, p x.c k = true))
        ∧ PredResult (.voteAll gr x) s tc (fun _ => decide (∀ k ∈ tc.act, p x.c k = true)))
    ∧ (firstBad (checksBallot tc) = none →
        ∃ m : Nat, LaneResult (.ballot gr x) s tc 1 (fun _ => m) .zero ∧ ∀ l, m.testBit l = decide (l ∈ tc.act ∧ p x.c l = true))
  ) ∧ (
  ∀ (s : State) (gr : GRef) (x : TInstr) (tc : TC), ThreadAt s gr x tc →
    let own (l : Nat) : Nat := tc.get l x.a 1
    let b (l : Nat) : Nat := tc.get l x.b 1
    (firstBad (checksShfl tc) = none →
      LaneResult (.shflIdx gr x) s tc 1 (fun l => if b l ∈ tc.act then own (b l) else own l) .zero
      ∧ LaneResult (.shflUp gr x) s tc 1 (fun l => if b l ≤ l ∧ l - b l ∈ tc.act then own (l - b l) else own l) .zero
      ∧ LaneResult (.shflDown gr x) s tc 1 (fun l => if l + b l ∈ tc.act then own (l + b l) else own l) .zero
      ∧ LaneResult (.shflXor gr x) s tc 1 (fun l => if (l ^^^ b l) ∈ tc.act then own (l ^^^ b l) else own l) .zero)
    ∧ (firstBad (checksRead 1 tc) = none →
        LaneResult (.readLane gr x) s tc 1 (fun l => l) .zero ∧ LaneResult (.readGroup gr x) s tc 1 (fun _ => gr.grp) .zero
        ∧ LaneResult (.readBlockIndex gr x) s tc 1 (fun _ => tc.blk.index) .zero
        ∧ LaneResult (.readTileNumber gr x) s tc 1 (fun _ => gr.tile) .zero
        ∧ LaneResult (.readNodeId gr x) s tc 1 (fun _ => s.rd pFabric 0x200) .zero
        ∧ LaneResult (.readNblocks gr x) s tc 1 (fun _ => tc.blk.launch.nblocks) .zero)
    ∧ (firstBad (checksRead 2 tc) = none → LaneResult (.readTime gr x) s tc 2 (fun _ => s.ref) .zero)
  )

/-- Control flow (05 R152-R154, R542): bra and bra.div fall through, jump or split; join ends the path in its split; call pushes pc + 16 with the path's lanes and ret pops it; nop moves on. Only the group changes. -/
def Obligations.ControlFlow : Prop :=
  ∀ (s : State) (gr : GRef) (x : TInstr) (tc : TC), ThreadAt s gr x tc →
    let next : Nat := tc.path.pc + tc.len
    let target : Nat := x.imm.toNat % 2 ^ 32
    let recon : Nat := x.imm.toNat / 2 ^ 32
    let taken (l : Nat) : Prop := tc.grp.pred (x.c.toNat % 8) l ≠ bit x.c.toNat 3
    (firstBad (checksBra tc) = none →
      ((∀ l ∈ tc.act, ¬ taken l) → GroupResult (.bra gr x) s tc (GoesOn tc next))
      ∧ (tc.act ≠ [] → (∀ l ∈ tc.act, taken l) → GroupResult (.bra gr x) s tc (GoesOn tc target)))
    ∧ (firstBad (checksBraDiv tc) = none →
        ((∀ l ∈ tc.act, ¬ taken l) → GroupResult (.braDiv gr x) s tc (GoesOn tc next))
        ∧ (tc.path.lanes < 2 ^ 32 → (∀ l, l < 32 → tc.path.lanes.testBit l = true → l ∈ tc.act ∧ taken l) → tc.path.lanes ≠ 0 →
            GroupResult (.braDiv gr x) s tc (GoesOn tc target))
        ∧ (tc.path.lanes < 2 ^ 32 → tc.grp.depth + 2 ≤ 32 → (∃ l ∈ tc.act, taken l) →
            (∃ l, l < 32 ∧ tc.path.lanes.testBit l = true ∧ ¬ (l ∈ tc.act ∧ taken l)) →
            GroupResult (.braDiv gr x) s tc (fun g => ∃ a b : Path,
              g.run = some a ∧ g.ready = b :: tc.grp.ready ∧ g.splits = ⟨tc.grp.nextId, recon, tc.path.lanes, 0, tc.path.frames⟩ :: tc.grp.splits
              ∧ g.regs = tc.grp.regs ∧ g.preds = tc.grp.preds ∧ g.exited = tc.grp.exited ∧ g.parked = tc.grp.parked
              ∧ (∀ l, l < 32 → (tc.path.lanes.testBit l = true ↔ (a.lanes.testBit l = true ∨ b.lanes.testBit l = true)))
              ∧ (∀ l, l < 32 → ¬ (a.lanes.testBit l = true ∧ b.lanes.testBit l = true))
              ∧ ((a.pc = target ∧ b.pc = next ∧ ∀ l, l < 32 → (a.lanes.testBit l = true ↔ l ∈ tc.act ∧ taken l))
                  ∨ (a.pc = next ∧ b.pc = target ∧ ∀ l, l < 32 → (b.lanes.testBit l = true ↔ l ∈ tc.act ∧ taken l)))
              ∧ ∃ m, m < 32 ∧ a.lanes.testBit m = true ∧ ∀ l, l < 32 → tc.path.lanes.testBit l = true → m ≤ l)))
    ∧ (firstBad (checksPlain tc) = none → tc.act ≠ [] → ∀ id rest, tc.path.frames = .split id :: rest →
        GroupResult (.join gr x) s tc (fun g => g = tc.grp.joinLanes tc.path id tc.mask tc.len))
    ∧ (firstBad (checksCall tc) = none → tc.act ≠ [] → tc.grp.depth + 1 ≤ 32 →
        GroupResult (.call gr x) s tc (fun g => g = { tc.grp with
          run := some { tc.path with pc := target, frames := .call (tc.path.pc + 16) tc.path.lanes :: tc.path.frames } }))
    ∧ (firstBad (checksPlain tc) = none → tc.act ≠ [] → ∀ r lanes rest, tc.path.frames = .call r lanes :: rest →
        GroupResult (.ret gr x) s tc (fun g => g = { tc.grp with run := some ⟨lanes &&& (allLanes ^^^ tc.grp.exited), r, rest⟩ }))
    ∧ (firstBad (checksPlain tc) = none → GroupResult (.nop gr x) s tc (GoesOn tc next))

/-- Exit, trap and faults (05 R143, R152, R156, R176, R177): exit takes the active lanes out of the group for good, and a block whose groups have all ended is counted and resident no more; trap stops the block with TRAP, a failed static check with its code, before any register or location changes. -/
def Obligations.ExitAndFaults : Prop :=
  ∀ (s : State) (gr : GRef) (x : TInstr) (tc : TC), ThreadAt s gr x tc →
    (firstBad (checksPlain tc) = none → tc.act ≠ [] →
      Completes (.exit gr x) s (fun t => ∃ f : Group → Group,
        t = afterExit (s.modGroup gr f) gr.tile tc.blk.id
        ∧ (f tc.grp).exited = tc.grp.exited ||| tc.mask ∧ (f tc.grp).regs = tc.grp.regs ∧ (f tc.grp).preds = tc.grp.preds
        ∧ (∀ b, (((s.modGroup gr f).modBlock gr.tile tc.blk.id (fun b => b.barSettleAll)).tile gr.tile).block tc.blk.id = some b →
            (b.groups.all (fun g => decide (g.exited = 2 ^ 32 - 1)) = true →
              t.rd (pTile gr.tile) 0x204 = (s.rd (pTile gr.tile) 0x204 + 1) % 2 ^ 32 ∧ (t.tile gr.tile).block tc.blk.id = none))
        ∧ t = { s with tiles := t.tiles, regs := t.regs })
      ∧ Completes (.trap gr x) s (fun t => Stopped s t tc 0x0F 0))
    ∧ (∀ code, firstBad (checksPlain tc) = some code →
        Completes (.exit gr x) s (fun t => Stopped s t tc code 0) ∧ Completes (.trap gr x) s (fun t => Stopped s t tc code 0)
        ∧ Completes (.nop gr x) s (fun t => Stopped s t tc code 0) ∧ Completes (.join gr x) s (fun t => Stopped s t tc code 0)
        ∧ Completes (.ret gr x) s (fun t => Stopped s t tc code 0))
    ∧ (∀ code, firstBad (checks2 1 tc) = some code → code ≠ 0x0B →
        Completes (.iadd gr x) s (fun t => Stopped s t tc code 0) ∧ Completes (.ixor gr x) s (fun t => Stopped s t tc code 0))

/-- Per-tile loads and stores (05 R157, R158, R161, R163, R542): a load gives each active lane the bytes at its place; a store writes them, the highest lane winning a byte; an access that faults stops the block with the code and offset of the first lane at fault, and nothing is written. -/
def Obligations.TileMemory : Prop :=
  ∀ (s : State) (gr : GRef) (x : TInstr) (tc : TC), ThreadAt s gr x tc →
    let w : Nat := x.mod.toNat
    let n : Nat := 2 ^ w
    let off (l : Nat) : Nat := tc.get l x.a 1
    let row : Nat := 0x1900000 + x.b.toNat * 0x1000 + x.c.toNat * 128
    let stored (t : State) (place : Nat → Nat) : Prop :=
      (∀ a, (∀ l ∈ tc.act, a < place l ∨ place l + n ≤ a) → t.tb gr.tile a = s.tb gr.tile a)
      ∧ (∀ l ∈ tc.act, ∀ i, i < n → (∀ k ∈ tc.act, l < k → ¬ (place k ≤ place l + i ∧ place l + i < place k + n)) →
          t.tb gr.tile (place l + i) = ((toLE n (tc.get l x.dst (wRegs w)))[i]?).getD 0)
      ∧ (∀ k a, k ≠ gr.tile → a < 2 ^ 32 → t.tb k a = s.tb k a)
      ∧ ∃ f : Group → Group, GoesOn tc (tc.path.pc + tc.len) (f tc.grp) ∧ t = ({ s with tmem := t.tmem, traw := t.traw } : State).modGroup gr f
    (firstBad (checksTile tc true) = none →
      ((∀ l ∈ tc.act, tileFault (off l) n false = none) →
        LaneResult (.ldSp gr x) s tc (wRegs w) (fun l => s.tnat gr.tile (off l) n) .zero)
      ∧ ((∀ l ∈ tc.act, tileFault (off l) n true = none) → Completes (.stSp gr x) s (fun t => stored t off))
      ∧ (∀ l code, l ∈ tc.act → tileFault (off l) n true = some code → (∀ k ∈ tc.act, k < l → tileFault (off k) n true = none) →
          Completes (.stSp gr x) s (fun t => Stopped s t tc code (off l)))
      ∧ ((∀ l ∈ tc.act, off l + n ≤ 64 ∧ off l % n = 0) →
          LaneResult (.ldArg gr x) s tc (wRegs w) (fun l => leAt tc.blk.launch.args (off l) n) .zero))
    ∧ (firstBad (checksAcc tc) = none → (∀ l ∈ tc.act, 0x1800000 ≤ off l ∧ off l + n ≤ 0x1900000 ∧ off l % n = 0) →
        LaneResult (.ldAcc gr x) s tc (wRegs w) (fun l => s.tnat gr.tile (off l) n) .zero)
    ∧ (firstBad (checksX tc) = none → x.c.toNat * 128 + 32 * n ≤ 4096 →
        LaneResult (.ldX gr x) s tc (wRegs w) (fun l => s.tnat gr.tile (row + n * l) n) .zero
        ∧ Completes (.stX gr x) s (fun t => stored t (fun l => row + n * l)))

/-- Global loads and stores (05 R157, R158, R178): with every address resolved and no access held or at fault, a load reads its local bytes and asks for the remote blocks, the access being outstanding until its response; a store writes exactly the bytes of its lanes, the highest lane winning; the response brings the values to the registers, or stops the block. -/
def Obligations.GlobalMemory : Prop :=
  ∀ (s : State) (gr : GRef) (x : TInstr) (tc : TC), ThreadAt s gr x tc →
    let w : Nat := x.c.toNat
    let n : Nat := 2 ^ w
    let loaded (t : State) (las : List LaneAcc) : Prop :=
      ∃ (u : State) (f : Group → Group) (a : Access), t = sendParts (u.modGroup gr f) (readParts tc w tc.grp.nextId (remoteOf las))
        ∧ u = { s with regs := u.regs, mem := u.mem }
        ∧ f tc.grp = { tc.grp with run := some { tc.path with pc := tc.path.pc + tc.len }, outst := tc.grp.outst ++ [a], nextId := tc.grp.nextId + 1 }
        ∧ a.id = tc.grp.nextId ∧ a.fault = none ∧ a.remote = (readParts tc w tc.grp.nextId (remoteOf las)).length
        ∧ ∀ p ∈ localOf las, ∀ j, j < wRegs w → (32 * (x.dst.toNat + j) + p.1, BitVec.ofNat 32 (s.hnat p.2 n / 2 ^ (32 * j) % 2 ^ 32)) ∈ a.writes
    let stored (t : State) (las : List LaneAcc) : Prop :=
      ∃ (u : State) (f : Group → Group), t = u.modGroup gr f ∧ GoesOn tc (tc.path.pc + tc.len) (f tc.grp)
        ∧ (∀ a, u.hb a = fget (fun k => s.hb k) (storeMap ((localOf las).map (fun p => (p.2, toLE n (tc.get p.1 x.dst (wRegs w)))))) a)
        ∧ u = { s with hbm := u.hbm, raw := u.raw, mem := u.mem }
    (∀ las, tc.act ≠ [] → resolveAll tc s n 1 n 3 tc.act = .ok las →
      (∀ p ∈ localOf las, memHeld s (.thread gr.tile) p.2 n = false ∧ memFault s p.2 n = none) →
      (firstBad (checksGlobal false tc) = none → Completes (.ldG gr x) s (fun t => loaded t las))
      ∧ (firstBad (checksGlobal true tc) = none → Completes (.ldGAcq gr x) s (fun t => loaded t las)))
    ∧ (∀ las, resolveAll tc s n 2 n 3 tc.act = .ok las → remoteOf las = [] →
        let runs := runsOf (storeMap ((localOf las).map (fun p => (p.2, toLE n (tc.get p.1 x.dst (wRegs w))))))
        (∀ r ∈ runs, memHeld s (.thread gr.tile) r.1 1 = false ∧ storeFault s r = none) →
        (firstBad (checksGlobal false tc) = none → Completes (.stG gr x) s (fun t => stored t las))
        ∧ (firstBad (checksGlobal true tc) = none → Completes (.stGRel gr x) s (fun t => stored t las)))

/-- The return of an outstanding access (05 R178): its values reach the group's registers and it is outstanding no more; a faulting one stops its block. -/
def Obligations.AccessReturns : Prop :=
  ∀ (s : State) (gr : GRef) (b : Block) (g : Group) (a : Access), gr.tile < 160 → tileOn s gr.tile = true →
    (s.tile gr.tile).block gr.blk = some b → b.groups[gr.grp]? = some g → a ∈ g.outst → (∀ y ∈ g.outst, y.id = a.id → y = a) → a.remote = 0 →
    (a.fault = none → Completes (.globalAccessResponse gr a.id) s (fun t => ∃ f : Group → Group,
      (f g).outst = g.outst.filter (fun y => decide (y.id ≠ a.id)) ∧ (∀ l r, l < 32 → (∀ p ∈ a.writes, p.1 ≠ 32 * r + l) → (f g).reg l r = g.reg l r)
      ∧ (∀ l r v, l < 32 → (a.writes.map (fun p => p.1)).Nodup → (32 * r + l, v) ∈ a.writes → (f g).reg l r = v.toNat)
      ∧ f g = { g with regs := (f g).regs, outst := (f g).outst } ∧ t = s.modGroup gr f))
    ∧ (∀ code addr, a.fault = some (code, addr) → Completes (.globalAccessResponse gr a.id) s (fun t =>
        (t.tile gr.tile).block b.id = none ∧ t.rdB (pTile gr.tile) 0x18 8 = true
        ∧ t.rd (pTile gr.tile) 0x204 = (s.rd (pTile gr.tile) 0x204 + 1) % 2 ^ 32
        ∧ t = { s with regs := t.regs, log := t.log, tiles := t.tiles, cmds := t.cmds }))

/-- Atomics on local memory (03_memory_model.md R90-R95, 04_number_formats.md R132-R134, 05 R159): the lanes act in ascending order; an operation that returns the old value is outstanding until its response; of one lane, memory takes the value that the operation gives for the old one, and every byte outside its operand is as before. Integer atomics (03 R91): what each leaves for an old value, an operand and a comparand of its width. -/
def Obligations.Atomics : Prop :=
  (
  ∀ (s : State) (gr : GRef) (x : TInstr) (tc : TC), ThreadAt s gr x tc →
    ∀ (i : Instr) (aop : Nat) (wide clear : Bool), (i, aop, wide, clear) ∈ atomTable gr x → firstBad (checksAtom aop wide tc) = none →
      let width : Nat := if wide then 2 else if aop ≤ 9 then atomW x else 0
      let sz : Nat := atomSize aop width tc.fmt
      ∀ las, resolveAll tc s sz 4 (atomAlign aop width tc.fmt) 9 tc.act = .ok las → remoteOf las = [] →
        (∀ p ∈ localOf las, memHeld s (.thread gr.tile) p.2 sz = false ∧ memFault s p.2 sz = none) →
        let r := atomLocals tc aop width clear (localOf las) s []
        Completes i s (fun t =>
          (r.2 = [] → ∃ f : Group → Group, GoesOn tc (tc.path.pc + tc.len) (f tc.grp) ∧ t = r.1.modGroup gr f)
          ∧ (r.2 ≠ [] → t = outstanding tc r.1 r.2 none 0 (if atomReturns aop then atomRegs aop width tc.fmt else 0) (!atomReturns aop) (ordAcq x.mod.toNat))
          ∧ ∀ l a, localOf las = [(l, a)] →
              let old := s.hnat a sz
              let v := (atomOperands tc aop (atomRegs aop width tc.fmt) l).1
              let cmp := (atomOperands tc aop (atomRegs aop width tc.fmt) l).2
              (∀ k, (k < a ∨ a + sz ≤ k) → t.hb k = s.hb k)
              ∧ (aop ≤ 0xC → (aop = 0 ∧ sz = 4 → orwIndex s (sliceOf s a) a = none) →
                  t.hnat a sz = (atomNew aop width tc.fmt old v cmp).1 % 2 ^ (8 * sz))
              ∧ (aop = 0xD → t.hnat a sz = (cellAddImg tc.fmt old v).1 % 2 ^ (8 * sz))
              ∧ (aop = 0xE → t.hnat a sz = if clear then 0 else old)
              ∧ (aop = 0xF → t.hnat a sz = 0)
              ∧ (atomReturns aop = true → r.2 = tc.put l (atomRegs aop width tc.fmt) (if aop = 0xE then (cellValue tc.fmt old).1 else old))
              ∧ (atomReturns aop = false → r.2 = []))
  ) ∧ (
  ∀ (width fmt old v cmp : Nat), width ≤ 2 →
    let n : Nat := 32 * 2 ^ width
    let x := BitVec.ofNat n old
    let y := BitVec.ofNat n v
    old < 2 ^ n → v < 2 ^ n →
    (atomNew 0 width fmt old v cmp).1 = (x + y).toNat ∧ (atomNew 1 width fmt old v cmp).1 = (x &&& y).toNat
    ∧ (atomNew 2 width fmt old v cmp).1 = (x ||| y).toNat ∧ (atomNew 3 width fmt old v cmp).1 = (x ^^^ y).toNat
    ∧ (atomNew 4 width fmt old v cmp).1 = (if y.slt x then y else x).toNat ∧ (atomNew 5 width fmt old v cmp).1 = (if x.slt y then y else x).toNat
    ∧ (atomNew 6 width fmt old v cmp).1 = (if y.ult x then y else x).toNat ∧ (atomNew 7 width fmt old v cmp).1 = (if x.ult y then y else x).toNat
    ∧ (atomNew 8 width fmt old v cmp).1 = v ∧ (atomNew 9 width fmt old v cmp).1 = if old = cmp then v else old
  )

/-- Signal operations of a group (05 R168, R169): sig.st, sig.add, sig.or and sig.ld complete wherever the words of the active lanes lie in the tile's signal words: the lanes act in ascending order, each on the word that the lanes before it have left; st leaves its value, add the sum modulo 2^64, or the union, ld the word as it was; add, or and ld give each lane the word it found; no byte outside the signal words changes. A word updated from outside a group, by an engine, the queue engine or a remote signal (05 R169): the word takes the value, the sum or the union, lanes parked on it whose condition it meets are satisfied with that value, and every other byte of the tile is as before. -/
def Obligations.SignalOps : Prop :=
  (
  ∀ (s : State) (gr : GRef) (x : TInstr) (tc : TC), ThreadAt s gr x tc →
    (∀ l ∈ tc.act, 0x1A00000 ≤ tc.get l x.b 1 ∧ tc.get l x.b 1 + 8 ≤ 0x1A08000 ∧ tc.get l x.b 1 % 8 = 0) →
    ∀ (i : Instr) (op : Nat), (i, op) ∈ [(.sigSt gr x, 0), (.sigAdd gr x, 1), (.sigOr gr x, 2), (.sigLd gr x, 3)] →
      firstBad (checksSig (decide (op ≠ 3)) (decide (op ≠ 0)) tc) = none →
      let word (l : Nat) : Nat := (tc.get l x.b 1 - 0x1A00000) / 8
      let after (old l : Nat) : Nat :=
        match op with | 0 => tc.get l x.a 2 | 1 => (old + tc.get l x.a 2) % 2 ^ 64 | 2 => old ||| tc.get l x.a 2 | _ => old
      let reach (k : Nat) (ls : List Nat) : Nat := (ls.filter (fun l => decide (word l = k))).foldl after (s.sig gr.tile k)
      Completes i s (fun t => ∃ (u : State) (f : Group → Group), t = u.modGroup gr f ∧ SignalOnly s u gr.tile
        ∧ (∀ k, k < 4096 → t.sig gr.tile k = reach k tc.act)
        ∧ (∀ a, a < 0x1A00000 ∨ 0x1A08000 ≤ a → t.tb gr.tile a = s.tb gr.tile a)
        ∧ (op = 0 → GoesOn tc (tc.path.pc + tc.len) (f tc.grp))
        ∧ (op ≠ 0 → Wrote tc 2 (fun l => reach (word l) (tc.act.takeWhile (fun k => decide (k ≠ l)))) (f tc.grp)))
  ) ∧ (
  ∀ (s : State) (t w : Nat) (op : SigOp) (v : BitVec 64), t < 160 → w < 4096 → tilePowered s t = true →
    Completes (.signalWordUpdate t w op v) s (fun u =>
      let new : Nat := match op with | .st => v.toNat | .add => (s.sig t w + v.toNat) % 2 ^ 64 | .or => s.sig t w ||| v.toNat
      u.sig t w = new
      ∧ (∀ a, a < 0x1A00000 + 8 * w ∨ 0x1A00000 + 8 * w + 8 ≤ a → u.tb t a = s.tb t a)
      ∧ (∀ b ∈ (u.tile t).blocks, ∀ g ∈ b.groups, ∀ k ∈ g.parked, ∀ d o ls, k.kind = .wait d o ls →
          ∀ y ∈ ls, y.word = w → waitHolds y.op new y.val = true → y.got.isSome = true)
      ∧ SignalOnly s u t)
  )

/-- Signal waits (05 R168, R166): where the condition of every active lane holds, each lane receives its word and the group moves on; otherwise the path parks with every active lane, those satisfied keeping the word that satisfied them. A satisfied path goes on, once the group runs no other, with the words that satisfied its lanes. -/
def Obligations.SignalWaits : Prop :=
  (∀ (s : State) (gr : GRef) (x : TInstr) (tc : TC), ThreadAt s gr x tc → tc.sigBad = none → firstBad (checksSig true true tc) = none →
    ∀ (i : Instr) (cond : Nat → Nat → Prop),
      (i = .waitGe gr x ∧ cond = fun word v => v ≤ word) ∨ (i = .waitEq gr x ∧ cond = fun word v => word = v)
        ∨ (i = .waitNe gr x ∧ cond = fun word v => word ≠ v) ∨ (i = .waitAny gr x ∧ cond = fun word v => word &&& v ≠ 0) →
      let word (l : Nat) : Nat := s.sig gr.tile ((tc.get l x.b 1 - 0x1A00000) / 8)
      ((∀ l ∈ tc.act, cond (word l) (tc.get l x.a 2)) →
        Completes i s (fun t => ∃ (u : State) (f : Group → Group), t = u.modGroup gr f ∧ u = { s with regs := u.regs } ∧ Wrote tc 2 word (f tc.grp)))
      ∧ ((∃ l ∈ tc.act, ¬ cond (word l) (tc.get l x.a 2)) →
        Completes i s (fun t => ∃ (u : State) (f : Group → Group), t = u.modGroup gr f ∧ u = { s with regs := u.regs }
          ∧ (f tc.grp).regs = tc.grp.regs
          ∧ ∃ k : Park, (f tc.grp).parked = tc.grp.parked ++ [k] ∧ k.path = tc.path ∧ k.since = s.ref ∧ k.limit = wdLimit s gr.tile
            ∧ k.reported = false ∧ (∀ l, l ∈ k.waiting ↔ l ∈ tc.act)
            ∧ ∃ ls, k.kind = .wait x.dst.toNat x.mod.toNat ls
              ∧ ∀ y ∈ ls, (cond (word y.lane) (tc.get y.lane x.a 2) → y.got = some (word y.lane)) ∧ (¬ cond (word y.lane) (tc.get y.lane x.a 2) → y.got = none))))
  ∧ (∀ (s : State) (gr : GRef) (k : Nat), gr.tile < 160 → tileOn s gr.tile = true →
      Completes (.pathResume gr k) s (fun t => ∃ f : Group → Group, t = s.modGroup gr f
        ∧ (∀ g p, g.run = none → g.parked[k]? = some p → p.ok = true →
            (f g).run = some { p.path with pc := p.path.pc + 8 } ∧ (f g).parked = g.parked.eraseIdx k
            ∧ (∀ n need, p.kind = .bar n need → (f g).regs = g.regs)
            ∧ (∀ d o l y, p.kind = .wait d o [y] → y.lane < 32 → l < 32 → ∀ r, (f g).reg l r =
                if l = y.lane ∧ (r = d ∨ r = d + 1) then (y.got.getD 0) / 2 ^ (32 * (r - d)) % 2 ^ 32 else g.reg l r))
        ∧ (∀ g, g.run.isSome = true ∨ g.parked[k]? = none → f g = g)))

/-- Barriers (05 R164, R165): bar.arrive and bar.sync record the arrival of each active thread; when every thread of the block that has not exited has arrived, the use is complete, takes one arrival of each and counts as one completion for every path that waits at the barrier. bar.arrive goes on. bar.sync goes on when each of its lanes has had as many completions as arrivals, and parks its path otherwise. Nothing but the block changes. A fence (R167) goes on and changes nothing else. -/
def Obligations.Barriers : Prop :=
  ∀ (s : State) (gr : GRef) (x : TInstr) (tc : TC), ThreadAt s gr x tc →
    (firstBad (checksBar tc) = none → ∀ bar, tc.blk.bars[x.c.toNat]? = some bar → (bar.arrivals.map (fun y => y.1)).Nodup → tc.blk.barDone x.c.toNat = false →
      let arrived (th : Nat) : Nat := bar.count th + (if th ∈ tc.threads then 1 else 0)
      let full : Bool := decide (tc.blk.live ≠ [] ∧ ∀ th ∈ tc.blk.live, 1 ≤ arrived th)
      let freed (k : Park) : Park := if full then k.released x.c.toNat else k
      let left (th : Nat) : Nat := if full then arrived th - 1 else arrived th
      let need : List (Nat × Nat) := tc.act.map (fun l => (l, left (tc.tid l)))
      let recorded (b : Block) : Prop := (∃ bar2, b.bars[x.c.toNat]? = some bar2 ∧ ∀ th, bar2.count th = left th)
        ∧ (∀ m, m ≠ x.c.toNat → b.bars[m]? = tc.blk.bars[m]?)
        ∧ ∀ i g, i ≠ gr.grp → tc.blk.groups[i]? = some g → b.groups[i]? = some { g with parked := g.parked.map freed }
      Completes (.barArrive gr x) s (fun t => ∃ h : Block → Block, t = s.modBlock gr.tile gr.blk h ∧ recorded (h tc.blk)
        ∧ (h tc.blk).groups[gr.grp]? = some { tc.grp with run := some { tc.path with pc := tc.path.pc + tc.len }, parked := tc.grp.parked.map freed })
      ∧ (tc.act = [] → GroupResult (.barSync gr x) s tc (GoesOn tc (tc.path.pc + tc.len)))
      ∧ (tc.act ≠ [] → Completes (.barSync gr x) s (fun t => ∃ h : Block → Block, t = s.modBlock gr.tile gr.blk h ∧ recorded (h tc.blk)
          ∧ ((∀ l ∈ tc.act, left (tc.tid l) = 0) → (h tc.blk).groups[gr.grp]? =
              some { tc.grp with run := some { tc.path with pc := tc.path.pc + tc.len }, parked := tc.grp.parked.map freed })
          ∧ ((∃ l ∈ tc.act, left (tc.tid l) ≠ 0) → (h tc.blk).groups[gr.grp]? =
              some (Group.next { tc.grp with run := none, parked := tc.grp.parked.map freed ++ [⟨tc.path, .bar x.c.toNat need, s.ref, wdLimit s gr.tile, false⟩] })))))
    ∧ (firstBad (checksFence tc) = none → GroupResult (.fence gr x) s tc (GoesOn tc (tc.path.pc + tc.len)))

/-! Register pages. -/

/-- Writes to a page (02_register_pages.md R36, R37, R45, R49, R58): the active set and reserved or read-only registers refuse with ILLEGAL_WRITE; the shadow set takes the defined bits, and while a swap is pending refuses with SHADOW_LOCKED; a field that is RW takes a legal encoding and keeps its value against a reserved one; CTRL is written whole, each of its bits with the effect of its own command, a reserved one reported. Palur's write to an unassigned page, or of a width that fits no register, has no effect; a hart's raises its store access fault. A write waits while the register space is not served, over a halted network (01_architecture.md R22), and behind a hart's own lines on their way to memory (03_memory_model.md R102). -/
def Obligations.RegisterWrites : Prop :=
  (∀ (s : State) (who : Agent) (p : Page) (off : Nat) (v : BitVec 64), writeOpen s who = true → (s.netHalted && farPage p) = false → pageOk p = true → off < 0x1000 → off % 4 = 0 →
    let w : Nat := v.toNat % 2 ^ 32
    let c : Instr := .registerWrite who (pageBase p + off) 4 v
    (inActive p off = true → Completes c s (fun t => OneFlag s t p 2))
    ∧ (inShadow p off = true → s.swapPending p = true → Completes c s (fun t => OneFlag s t p 1))
    ∧ (inShadow p off = true → s.swapPending p = false → regAt p (off - 0x800) = none → Completes c s (fun t => OneFlag s t p 2))
    ∧ (inShadow p off = true → s.swapPending p = false → ∀ r hi, regAt p (off - 0x800) = some (r, hi) →
        let m := covered r.fs
        Completes c s (fun t => t.rd p off = w &&& m
          ∧ (w &&& m = w → OnlyWords s t [(p, off)]) ∧ (w &&& m ≠ w → WordsAndFlag s t [(p, off)] p 2)))
    ∧ (inActive p off = false → inShadow p off = false →
        (regAt p off = none ∨ ∃ r hi, regAt p off = some (r, hi) ∧ ∀ f ∈ r.fs, f.acc = .ro) → Completes c s (fun t => OneFlag s t p 2))
    ∧ (inActive p off = false → inShadow p off = false → p.blk ≠ .power → p.blk ≠ .hoist →
        ∀ r f, regAt p off = some (r, false) → r.wide = false → r.fs = [f] → f.acc = .rw → 0 < f.len → f.lo + f.len ≤ 32 → w &&& fldMask f = w →
          (fldLegal f (bits w f.lo f.len) = true →
            Completes c s (fun t => bits (t.rd p off) f.lo f.len = bits w f.lo f.len ∧ OnlyWords s t [(p, off)]))
          ∧ (fldLegal f (bits w f.lo f.len) = false → Completes c s (fun t => OneFlag s t p 2))))
  ∧ (∀ (s : State) (who : Agent) (p : Page) (v : BitVec 64), writeOpen s who = true → (s.netHalted && farPage p) = false → pageOk p = true →
      s.enabled p = true → s.rdB p 0x10 0 = true → (p.blk = .tile → tileFailed s p.inst = false) → bits v.toNat 0 1 = 1 → bits v.toNat 1 3 = 0 →
      let c : Instr := .registerWrite who (pageBase p + 0x10) 4 v
      (bits v.toNat 4 28 = 1 → Completes c s (fun t => t.rdB p 0x10 0 = true ∧ t.rdF p 0x10 4 4 = 1 ∧ OnlyWords s t [(p, 0x10)]))
      ∧ (bits v.toNat 4 28 = 1 + 2 ^ 27 → Completes c s (fun t => t.rdF p 0x10 4 4 = 1 ∧ WordsAndFlag s t [(p, 0x10)] p 2))
      ∧ (p.blk = .queue → bits v.toNat 4 28 = 1 + 2 ^ 12 → ∃ u, OnlyWords s u [(p, 0x10)] ∧ exec c s = exec (.queueArm p.inst) u))
  ∧ (∀ (s : State) (who : Agent) (addr size : Nat) (v : BitVec 64),
      (writeOpen s who = false → Idle (.registerWrite who addr size v) s)
      ∧ (∀ p off, pageOf addr = some (p, off) → s.netHalted = true → farPage p = true → Idle (.registerWrite who addr size v) s)
      ∧ (writeOpen s who = true →
          (pageOf addr = none ∨ ∃ p off, pageOf addr = some (p, off) ∧ (s.netHalted && farPage p) = false ∧ ¬ (size = 4 ∧ off % 4 = 0) ∧ ¬ (size = 8 ∧ off % 8 = 0)) →
          (who = .palur → Idle (.registerWrite who addr size v) s)
          ∧ ∀ n, who = .host n → Completes (.registerWrite who addr size v) s (fun t => HartFaulted s t n addr true)))

/-- Swaps and shadow loads (02 R46-R49): a swap request is remembered in STATUS and a second one changes nothing; the swap is performed at a swap point only, refused with the first offending word and its reason where the check fails, and otherwise copies every word; a shadow load copies the other way, and is refused while a swap is pending. -/
def Obligations.SwapRules : Prop :=
  ∀ (s : State) (p : Page), pageOk p = true → reached s p = true →
    let words (b : Nat) : List (Page × Nat) := (List.range (caps p.blk).words).map (fun i => (p, b + 4 * i))
    (Completes (.ctrlSwap p false) s (fun t => t.swapPending p = true ∧ OnlyWords s t [(p, 0x14)] ∧ (s.swapPending p = true → ∀ a, t.rd p a = s.rd p a)))
    ∧ (Completes (.ctrlSwap p true) s (fun t => t.swapPending p = true ∧ WordsAndFlag s t [(p, 0x14)] p 1))
    ∧ (s.swapPending p = true → Completes (.shadowLoad p) s (fun t => OneFlag s t p 1))
    ∧ (s.swapPending p = false → Completes (.shadowLoad p) s (fun t =>
        OnlyWords s t (words 0x900) ∧ ∀ i, i < (caps p.blk).words → t.rd p (0x900 + 4 * i) = s.rd p (0x100 + 4 * i)))
    ∧ (atSwapPoint s p = true → s.swapPending p = true → swapCheck s p = none → Completes (.swap p) s (fun t =>
        ∀ i, i < (caps p.blk).words → t.rd p (0x100 + 4 * i) = s.rd p (0x900 + 4 * i) ∧ t.rd p (0x900 + 4 * i) = s.rd p (0x900 + 4 * i)))
    ∧ (atSwapPoint s p = false → Idle (.swap p) s)
    ∧ (atSwapPoint s p = true → s.rdB p 0x10 0 = s.enabled p →
        (s.swapPending p = false → Idle (.swap p) s)
        ∧ (s.swapPending p = true → ∀ off reason, swapCheck s p = some (off, reason) → Completes (.swap p) s (fun t =>
            t.rd p 0x700 = (off + 4096 * reason) % 2 ^ 32 ∧ t.swapPending p = false ∧ WordsAndFlag s t [(p, 0x700), (p, 0x14)] p 0))
        ∧ (s.swapPending p = true → swapCheck s p = none → ∃ u : State,
            OnlyWords s u (words 0x100 ++ [(p, 0x704), (p, 0x14)]) ∧ u.swapPending p = false ∧ u.rd p 0x704 = (s.rd p 0x704 + 1) % 2 ^ 32
            ∧ (∀ i, i < (caps p.blk).words → u.rd p (0x100 + 4 * i) = s.rd p (0x900 + 4 * i))
            ∧ (u.rdB p 0x10 0 = u.enabled p)
            ∧ Completes (.swap p) s (fun t => t = settleEnable (afterSwap s u p) p)
            ∧ (p.blk ∉ [.fabric, .hbmc, .xlat, .queue, .errlog, .mgmt, .palur] → Completes (.swap p) s (fun t => t = u))))

/-- ENABLE and VER_SEL (02 R43, R60, 13_binding_and_jobs.md R413, 16_bringup_errors_test.md R514): a set bit enables at once, and a resource BOUND before it is quarantined by it, as by a bit cleared and set again before its swap point (log entry 131); a cleared bit takes effect at the next swap point; a tile that failed its test stays disabled; version 1 only. -/
def Obligations.EnableRules : Prop :=
  ∀ (s : State) (p : Page), pageOk p = true → reached s p = true →
    (s.enabled p = true → (s.rdB p 0x10 0 = true ∨ p.blk ∉ [.tile, .queue, .conn, .oe, .link]) → (p.blk = .tile → tileFailed s p.inst = false) →
      Completes (.enable p true false false) s (fun t => t.rdB p 0x10 0 = true ∧ t.enabled p = true ∧ OnlyWords s t [(p, 0x10)]))
    ∧ (s.enabled p = false → p.blk ∉ [.tile, .queue, .conn, .oe, .link] →
        Completes (.enable p true false false) s (fun t => t.rdB p 0x10 0 = true ∧ t.enabled p = true ∧ OnlyWords s t [(p, 0x10), (p, 0x14)]))
    ∧ ((s.enabled p = false ∨ s.rdB p 0x10 0 = false) → p.blk = .tile ∨ p.blk = .queue ∨ p.blk = .conn → (p.blk = .tile → tileFailed s p.inst = false) → bstate s p = 2 →
        Completes (.enable p true false false) s (fun t => t.enabled p = true ∧ t.quarantined p = true ∧ bstate t p = 4))
    ∧ (p.blk = .tile → tileFailed s p.inst = true → Completes (.enable p true false false) s (fun t => OneFlag s t p 2))
    ∧ (s.enabled p = true → atSwapPoint s p = false → p.blk ∉ [.oe, .link] →
        Completes (.enable p false false false) s (fun t => t.rdB p 0x10 0 = false ∧ t.enabled p = true ∧ OnlyWords s t [(p, 0x10)]))
    ∧ (s.enabled p = true → atSwapPoint s p = true → s.swapPending p = false → p.blk ∉ [.oe, .link, .mgmt] →
        Completes (.enable p false false false) s (fun t => t.rdB p 0x10 0 = false ∧ t.enabled p = false ∧ OnlyWords s t [(p, 0x10), (p, 0x14)]))
    ∧ Completes (.verSel p 1) s (fun t => t.rdF p 0x10 4 4 = 1 ∧ OnlyWords s t [(p, 0x10)])
    ∧ (∀ v : BitVec 4, v ≠ 1 → Completes (.verSel p v) s (fun t => OneFlag s t p 3))

/-- Clearing flags (02 R52): exactly the bits written as 1 clear, and no counter changes. -/
def Obligations.FlagClears : Prop :=
  ∀ (s : State) (p : Page) (mask : BitVec 32), pageOk p = true → reached s p = true →
    (∀ n, mask.getLsbD n = true → flagAssigned p n = true) → (∃ n, flagAssigned p n = true ∧ n < 32) →
    Completes (.flagClear p 0x18 mask) s (fun t =>
      (∀ n, n < 32 → bit (t.rd p 0x18) n = (bit (s.rd p 0x18) n && !mask.getLsbD n)) ∧ OnlyWords s t [(p, 0x18)])

/-- Disturbance (02 R44, 16 R524): a state that does not permit it refuses with DISTURB_DENIED; a permitted write is stored, arming opens the first window where the page has a period and a length; windows open and close as the timebase passes, and a link that a window held sends what waits when it closes. -/
def Obligations.DisturbRules : Prop :=
  ∀ (s : State) (p : Page) (v : BitVec 64), pageOk p = true → reached s p = true →
    (hasDisturb p = false → Completes (.disturbWrite p .whole v) s (fun t => OneFlag s t p 2)
      ∧ Completes (.disturbWinWrite p .whole v) s (fun t => OneFlag s t p 2))
    ∧ (hasDisturb p = true → disturbAllowed s p = false → Completes (.disturbWrite p .whole v) s (fun t => OneFlag s t p 4)
      ∧ Completes (.disturbWinWrite p .whole v) s (fun t => OneFlag s t p 4))
    ∧ (hasDisturb p = true → disturbAllowed s p = true →
        (v.toNat &&& disturbFields = v.toNat → bits v.toNat 0 10 ≤ 1000 → bits v.toNat 16 7 ≤ 100 → (noCreditHold p = true → bits v.toNat 24 8 = 0) →
          (armed s p = bit v.toNat 63 → Completes (.disturbWrite p .whole v) s (fun t =>
            t.rd64 p 0x30 = v.toNat ∧ OnlyWords s t [(p, 0x30), (p, 0x34)]))
          ∧ (armed s p = false → bit v.toNat 63 = true → Completes (.disturbWrite p .whole v) s (fun t =>
            t.rd64 p 0x30 = v.toNat ∧ RegsKept s t [(p, 0x30), (p, 0x34)] ∧ t = { s with regs := t.regs, phase := t.phase, stalls := t.stalls }
            ∧ sincePhase t p = 0 ∧ (s.rd p 0x38 ≠ 0 → s.rd p 0x3C ≠ 0 → p ∈ t.stalls) ∧ (s.rd p 0x38 = 0 ∨ s.rd p 0x3C = 0 → t.stalls = s.stalls)))
          ∧ (armed s p = true → bit v.toNat 63 = false → p.blk ≠ .qeng → (p.blk = .link → (s.link p.inst).idle) → Completes (.disturbWrite p .whole v) s (fun t =>
            t.rd64 p 0x30 = v.toNat ∧ p ∉ t.stalls ∧ (∀ q, q ≠ p → (q ∈ t.stalls ↔ q ∈ s.stalls))
            ∧ RegsKept s t [(p, 0x30), (p, 0x34)] ∧ t = { s with regs := t.regs, phase := t.phase, stalls := t.stalls })))
        ∧ (armed s p = false → v.toNat % 2 ^ 32 = 0 ∨ v.toNat / 2 ^ 32 < v.toNat % 2 ^ 32 → Completes (.disturbWinWrite p .whole v) s (fun t =>
            t.rd64 p 0x38 = v.toNat ∧ OnlyWords s t [(p, 0x38), (p, 0x3C)]))
        ∧ (v.toNat % 2 ^ 32 ≠ 0 ∧ v.toNat % 2 ^ 32 ≤ v.toNat / 2 ^ 32 → Completes (.disturbWinWrite p .whole v) s (fun t => OneFlag s t p 2)))
    ∧ Completes (.stallWindowOpen p) s (fun t =>
        (hasDisturb p = true ∧ inWindow s p = true → p ∈ t.stalls) ∧ (∀ q, q ≠ p → (q ∈ t.stalls ↔ q ∈ s.stalls)) ∧ (p ∈ s.stalls → p ∈ t.stalls)
        ∧ (hasDisturb p = false ∨ inWindow s p = false → t = s) ∧ t = { s with stalls := t.stalls })
    ∧ Completes (.stallWindowClose p) s (fun t => ∃ u, (p.blk ≠ .link → t = u) ∧ (p.blk = .link → inWindow s p = false → t = linkGo p.inst u)
        ∧ (inWindow s p = false → p ∉ u.stalls) ∧ (inWindow s p = true → t = s ∧ u = s) ∧ (∀ q, q ≠ p → (q ∈ u.stalls ↔ q ∈ s.stalls))
        ∧ (p.blk ≠ .qeng → u = { s with stalls := u.stalls }) ∧ u = { s with stalls := u.stalls, qs := u.qs })

/-- The Bunting summary (02 R51, R53, R54): with Bunting enabled a page's summary bit is the OR of the masked flags of the pages it stands for, and SUM_TOP has bit k set where a word beneath it is not zero. -/
def Obligations.BuntingSummary : Prop :=
  ∀ (s : State) (p : Page), pageOk p = true → s.up = true → s.enabled pBunt = true →
    Completes (.summaryUpdate p) s (fun t =>
      (t.rdB pBunt (sumPlace p).1 (sumPlace p).2 = true ↔ ∃ q ∈ sumSources p, s.rd q 0x18 &&& s.rd q 0x100 ≠ 0)
      ∧ (∀ n, n < 32 → n ≠ (sumPlace p).2 → t.rdB pBunt (sumPlace p).1 n = s.rdB pBunt (sumPlace p).1 n)
      ∧ (∀ k, k < 6 → (t.rdB pBunt 0x180 k = true ↔ t.rd pBunt (0x184 + 4 * k) ≠ 0))
      ∧ (t.rdB pBunt 0x180 6 = true ↔ ∃ w, w < 5 ∧ t.rd pBunt (0x1A0 + 4 * w) ≠ 0)
      ∧ (t.rdB pBunt 0x180 7 = true ↔ ∃ w, w < 16 ∧ t.rd pBunt (0x200 + 4 * w) ≠ 0)
      ∧ (t.rdB pBunt 0x180 8 = true ↔ ∃ w, w < 16 ∧ t.rd pBunt (0x240 + 4 * w) ≠ 0)
      ∧ OnlyWords s t [(pBunt, (sumPlace p).1), (pBunt, 0x180)]
      ∧ (hostIrq t = true ↔ t.rd pBunt 0x180 &&& t.rd pBunt 0x104 ≠ 0))

/-! Errors, clocks, time, the host complex and its crossings. -/

/-- Error records (16_bringup_errors_test.md R516-R521): the oldest event is numbered, counted by its class and kept by Palur; the ring takes its 64 bytes and TAIL follows, where it is enabled, its class passes and it has room; a flag beyond its rate is only counted; records that wait for room go first; HEAD never passes TAIL. -/
def Obligations.ErrorRecords : Prop :=
  ∀ (s : State), s.up = true →
    let still : Prop := s.log.waiting = [] ∨ (logLog s ≠ 0 ∧ ∃ x rest, s.log.waiting = x :: rest ∧ logWaits s x.1 = true)
    (still → s.log.posted = [] → Idle .errorRecordPost s)
    ∧ (∀ x, s.log.waiting = [x] → s.log.posted = [] → logLog s ≠ 0 → logWaits s x.1 = false → memFault s (logSlot s x.1) 64 = none → x.2.length = 64 →
        Completes .errorRecordPost s (fun t => t.log.waiting = [] ∧ t.rd pErrlog 0x200 = x.1 % 2 ^ 32
          ∧ (∀ i, i < 64 → t.hb (logSlot s x.1 + i) = (x.2[i]?).getD 0) ∧ (∀ k, k < logSlot s x.1 ∨ logSlot s x.1 + 64 ≤ k → t.hb k = s.hb k)
          ∧ RegsKept s t [(pErrlog, 0x200)] ∧ t = { s with regs := t.regs, log := { s.log with waiting := [] }, hbm := t.hbm, mem := t.mem }))
    ∧ (still → ∀ r rest, s.log.posted = r :: rest →
        let seq : Nat := (s.log.seq + 1) % 2 ^ 32
        let b : List Byte := recBytes seq r
        let a : Nat := logSlot s seq
        let kept (t : State) : Prop := t.log.posted = rest ∧ t.log.seq = seq ∧ t.log.recent.getLast? = some (seq, b)
          ∧ t.rd pErrlog (0x210 + 4 * r.cls) = (s.rd pErrlog (0x210 + 4 * r.cls) + 1) % 2 ^ 32
          ∧ (r.cls = 3 → t.store.class3.getLast? = some (seq, b)) ∧ (r.cls ≠ 3 → t.store = s.store)
        (isFatalRec r = false → s.rdF pErrlog 0x10C 16 16 ≤ logRate s r → Completes .errorRecordPost s (fun t =>
          t.log = { s.log with posted := rest } ∧ t.rd pErrlog 0x20C = (s.rd pErrlog 0x20C + 1) % 2 ^ 32 ∧ t.rdB pErrlog 0x18 9 = true
          ∧ RegsKept s t ((pErrlog, 0x20C) :: flagWords pErrlog 9) ∧ OnlyRegsLog s t))
        ∧ ((isFatalRec r = true ∨ logRate s r < s.rdF pErrlog 0x10C 16 16) → r.cls < 4 →
            (logLog s = 0 ∨ r.cls < s.rdF pErrlog 0x10C 5 2 ∨ s.enabled pErrlog = false → Completes .errorRecordPost s (fun t =>
              kept t ∧ RegsKept s t [(pErrlog, 0x210 + 4 * r.cls)] ∧ t = { s with regs := t.regs, log := t.log, store := t.store }))
            ∧ (logLog s ≠ 0 → s.rdF pErrlog 0x10C 5 2 ≤ r.cls → s.enabled pErrlog = true →
                (s.log.waiting = [] → logWaits s seq = false → memFault s a 64 = none → Completes .errorRecordPost s (fun t =>
                  kept t ∧ t.rd pErrlog 0x200 = seq ∧ (∀ i, i < 64 → t.hb (a + i) = (b[i]?).getD 0) ∧ (∀ k, k < a ∨ a + 64 ≤ k → t.hb k = s.hb k)
                  ∧ RegsKept s t [(pErrlog, 0x210 + 4 * r.cls), (pErrlog, 0x200)]
                  ∧ t = { s with regs := t.regs, log := t.log, store := t.store, hbm := t.hbm, mem := t.mem }))
                ∧ ((s.log.waiting ≠ [] ∨ logWaits s seq = true) →
                    (s.log.waiting.length < 256 → Completes .errorRecordPost s (fun t =>
                      kept t ∧ t.log.waiting = s.log.waiting ++ [(seq, b)] ∧ t.hbm = s.hbm ∧ RegsKept s t [(pErrlog, 0x210 + 4 * r.cls)]))
                    ∧ (256 ≤ s.log.waiting.length → Completes .errorRecordPost s (fun t =>
                      kept t ∧ t.log.waiting = s.log.waiting ∧ t.hbm = s.hbm ∧ t.rdB pErrlog 0x18 8 = true
                      ∧ t.rd pErrlog 0x208 = (s.rd pErrlog 0x208 + 1) % 2 ^ 32))))))
    ∧ (∀ v : BitVec 32, served s = true →
        let d : Nat := diff32 v.toNat (s.rd pErrlog 0x200)
        (1 ≤ d ∧ d ≤ 2 ^ 31 → Completes (.errlogHeadWrite v) s (fun t => OneFlag s t pErrlog 2))
        ∧ (¬ (1 ≤ d ∧ d ≤ 2 ^ 31) → logLog s ≠ 0 → s.log.waiting = [] → Completes (.errlogHeadWrite v) s (fun t =>
            t.rd pErrlog 0x204 = v.toNat ∧ OnlyWords s t [(pErrlog, 0x204)])))

/-- Loss of lock, and what makes the module fatal (01_architecture.md R22, 16 R522): each island raises CLOCK_LOSS of its block; the network, which then carries nothing, and the timebase make the module fatal, a stack holds its requests for at most 10 ms and is failed after them, an optical engine's links retrain, the management port goes down. -/
def Obligations.ClockLoss : Prop :=
  ∀ (s : State), s.up = true →
    (Completes (.pllLockLoss .net) s (fun t => ∃ u v, OneFlag s u pNet 5 ∧ BecameFatal u v 1 ∧ t = { v with netHalted := true }))
    ∧ (s.netHalted = true → ∀ r a n, memHeld s r a n = true)
    ∧ (Completes (.pllLockLoss .timebase) s (fun t => ∃ u v, OneFlag s u pTime 5 ∧ BecameFatal u v 2 ∧ t = { v with refStopped := true }))
    ∧ (s.rdB pMgmt 0x208 0 = false → Completes (.pllLockLoss .mgmt) s (fun t => OneFlag s t pMgmt 5))
    ∧ (∀ n, n < 4 → (∀ l, l < 32 → l / 8 = n → linkState s l = 2 → (s.link l).idle) → Completes (.pllLockLoss (.oe n)) s (fun t => t.rdB (pOe n) 0x18 5 = true
        ∧ (∀ l, l < 32 → linkState t l = if l / 8 = n ∧ linkState s l = 2 then 3 else linkState s l)
        ∧ t = { s with regs := t.regs, log := t.log, links := t.links }))
    ∧ (∀ st, st < 12 →
        (Completes (.pllLockLoss (.phy st)) s (fun t => ∃ u, OneFlag s u (pHbmc st) 5
          ∧ (t = u ∨ t = { u with mem := { u.mem with phyLost := u.mem.phyLost ++ [(st, s.ref)] } })
          ∧ (st ∉ s.mem.failed → ∃ m, (st, m) ∈ t.mem.phyLost)))
        ∧ (∀ m, s.mem.phyLost = [(st, m)] →
            (s.ref ≤ m + 1000000 → st ∉ s.mem.retrain → s.mem.retWait = [] → s.mem.mapWait = [] → Completes (.hbmPhyRelock st) s (fun t => t = { s with mem := { s.mem with phyLost := [] } }))
            ∧ (m + 1000000 ≤ s.ref → st ∉ s.mem.retrain → Completes (.hbmRelockTimeout st) s (fun t => st ∈ t.mem.failed ∧ t.mem.phyLost = []
                ∧ (∀ k, k ≠ st → (k ∈ t.mem.failed ↔ k ∈ s.mem.failed)) ∧ Flagged s t (pHbmc st) 17 ∧ RegsKept s t (flagWords (pHbmc st) 17)
                ∧ t = { s with regs := t.regs, log := t.log, mem := t.mem })))
        ∧ ((∀ x ∈ s.mem.phyLost, x.1 ≠ st) → (st ∉ s.mem.retrain → Idle (.hbmPhyRelock st) s) ∧ Idle (.hbmRelockTimeout st) s))
    ∧ Completes .rngHealthFail s (fun t => BecameFatal s t 4)
    ∧ Completes .palurCheckFailed s (fun t => BecameFatal s t 6)

/-- The host complex (09_command_queues.md R272, R297, 16 R507): IPI_SET sets SSIP bits, a reset halts every hart with its caches and stores lost, withdraws every request to the translation handler (10_translation.md R314), freezes every ARMED queue and clears MBX_OWNER, and a restart starts hart 0 at 0 in machine mode. -/
def Obligations.HostComplex : Prop :=
  ∀ (s : State), served s = true → s.enabled pHostc = true →
    (∀ w v, w < 3 → Completes (.ipiSet w v) s (fun t =>
      (∀ i, t.ssip.testBit i = (s.ssip.testBit i || (decide (32 * w ≤ i) && v.getLsbD (i - 32 * w)))) ∧ t = { s with ssip := t.ssip }))
    ∧ ((∀ x ∈ s.bind.bound, pageOk x = true) → Completes .ctrlHostReset s (fun t =>
        t.hartsOn = 0 ∧ t.ssip = 0 ∧ (∀ n, t.hart n = Hart.init) ∧ t.xlat.reqs = [] ∧ t.rd pXlat 0x210 = 0 ∧ t.rd pHostc 0x210 = (s.rd pHostc 0x210 + 1) % 2 ^ 32 ∧ t.rd pHostc 0x214 = 1 ∧ t.rd pPalur 0x300 = 0
        ∧ t.rdB pHostc 0x18 8 = true ∧ t.rdB pQeng 0x18 8 = true
        ∧ (∀ q, q < 16384 → qState t q = if ⟨.queue, q⟩ ∈ s.bind.bound ∧ qState s q = 2 then 4 else qState s q)
        ∧ t = { s with hartsOn := 0, ssip := 0, harts := t.harts, hcache := ⟨[], [], []⟩,
                       mem := { s.mem with fillWait := s.mem.fillWait.filter (fun w => !ofHart w.req) },
                       xlat := { s.xlat with reqs := [] }, regs := t.regs, log := t.log, qs := t.qs }))
    ∧ (alive s = true → s.palur.taken = true → s.rdF pErrlog 0x220 0 2 = 0 → powerState s ≤ 1 → s.hartsOn = 0 → memHeld s .hostDie 0 (hostFw s).length = false →
        Completes .hartRestart s (fun t => t.hartsOn = 1 ∧ t.palur = { s.palur with entry := 0 } ∧ t.hart 0 = { Hart.init with pc := 0 } ∧ (∀ n, n ≠ 0 → t.hart n = s.hart n) ∧ (∀ k, 2 ^ 28 ≤ k → t.hb k = s.hb k)
          ∧ t = { s with hartsOn := 1, harts := t.harts, palur := t.palur, hbm := t.hbm, raw := t.raw, mem := t.mem, regs := t.regs, log := t.log }))
    ∧ (s.hartsOn ≠ 0 ∨ memHeld s .hostDie 0 (hostFw s).length = true → Idle .hartRestart s)

/-- Crossing links (09 R298, R299): an error of a link that is up starts its retrain and is counted and flagged; a retrain ends with the link up, or after 10 ms with the link down, whose losses among commands, transfers, thread stores and hart accesses stay open; with no XC4 link up the module is fatal. -/
def Obligations.Crossings : Prop :=
  ∀ (s : State) (k : XC) (n : Nat) (p : Page) (off b : Nat), xcNum k = some (n, p, off, b) → alive s = true →
    (s.rdB p off b = true → (∀ x ∈ s.xc, x.1 ≠ n) →
      Completes (.xcLinkError k) s (fun t => t.xc = s.xc ++ [(n, s.ref)] ∧ t = { s with regs := t.regs, log := t.log, xc := t.xc }
        ∧ (p = pNet → Flagged s t pNet 8 ∧ t.rd pNet 0x210 = (s.rd pNet 0x210 + 1) % 2 ^ 32 ∧ RegsKept s t ((pNet, 0x210) :: flagWords pNet 8))
        ∧ (p = pHostc → Flagged s t pHostc 9 ∧ t.rd pHostc 0x21C = (s.rd pHostc 0x21C + 1) % 2 ^ 32 ∧ RegsKept s t ((pHostc, 0x21C) :: flagWords pHostc 9))))
    ∧ (s.rdB p off b = false ∨ (∃ x ∈ s.xc, x.1 = n) → Idle (.xcLinkError k) s)
    ∧ Completes (.xcRetrainComplete k) s (fun t => (∀ x, x ∈ t.xc ↔ x ∈ s.xc ∧ x.1 ≠ n) ∧ t = { s with xc := t.xc })
    ∧ (∀ m, s.xc = [(n, m)] → s.ref < m + 1000000 → Idle (.xcRetrainTimeout k) s)
    ∧ (∀ m, s.xc = [(n, m)] → m + 1000000 ≤ s.ref → Completes (.xcRetrainTimeout k) s (fun t =>
        t.xc = [] ∧ t.rdB p off b = false ∧ t.rdB pNet 0x18 10 = true
        ∧ (p = pNet → t.rdB pNet 0x18 9 = true ∧ t.rd pNet 0x214 = (s.rd pNet 0x214 + 1) % 2 ^ 32
            ∧ ((∀ i, i < 160 → (s.tile i).dma.jobs = [] ∧ (s.tile i).blocks = []) → t = { s with xc := [], regs := t.regs, log := t.log })
            ∧ t = { s with xc := [], regs := t.regs, log := t.log, tiles := t.tiles, cmds := t.cmds, free := t.free })
        ∧ (p = pHostc → t.rdB pHostc 0x18 10 = true ∧ t.rdF pHostc 0x218 0 16 = s.rdF pHostc 0x218 0 16 - s.rdF pHostc 0x218 b 1 * 2 ^ b
            ∧ (t.rdF pHostc 0x218 0 16 = 0 → t.rdF pErrlog 0x220 0 2 = 2 ∧ t.rdF pErrlog 0x220 8 8 = 3)
            ∧ (∀ i, (s.hart i).wait = none → t.hart i = s.hart i)
            ∧ t = { s with xc := [], regs := t.regs, log := t.log, free := t.free, cmds := t.cmds, harts := t.harts })))

/-- Time (13_binding_and_jobs.md R432-R435, 12_krovmo_fabric.md R397): a message of a transport that is not enabled is discarded and counted; Sync, Follow_Up and the delay messages of either mechanism give the offset and the path delay, the first Sync entering ACQUIRING; the better master is selected, and one silent for three of its Announce intervals no longer (log entry 165); three intervals without Sync, or the loss of the port, mean HOLDOVER, and its limit FREE; a step of the time starts the jobs whose start time it passes; a snap reads both clocks at one moment. The management port (12 R396, R399, 13 R433): it comes up with its link and its FEC as configured, and its DHCPv4 client starts with a DISCOVER where PORT_CFG selects it (log entry 166); its loss means HOLDOVER for a LOCKED clock. -/
def Obligations.TimeAndManagement : Prop :=
  (
  ∀ (s : State),
    let asym : Int := (BitVec.ofNat 16 (s.rdF pMgmt 0x108 16 16)).toInt
    let counted (t : State) : Prop := t.rd pMgmt 0x210 = (s.rd pMgmt 0x210 + 1) % 2 ^ 32
    let mine (n : PtpNet) (d : BitVec 8) : Prop := ptpOn s n = true ∧ d.toNat = s.rdF pMgmt 0x108 0 8
    let noStart : Prop := ∀ j, j < 16 → jobState s j ≠ 2
    let heard : Prop := ∀ b, s.servo.best = some b → s.ref < s.servo.announceAt + 3 * b.announce
    (portUp s = true → ∀ (c : Instr) (n : PtpNet),
      (∃ y, c = .ptpSync y ∧ y.net = n) ∨ (∃ y k origin, c = .ptpFollowUp y k origin ∧ y.net = n) ∨ (∃ y t4, c = .ptpDelayResp y t4 ∧ y.net = n) ∨ (∃ y, c = .ptpAnnounce y ∧ y.net = n) →
      ptpOn s n = false → Completes c s (fun t => counted t ∧ t.rd pMgmt 0x214 = (s.rd pMgmt 0x214 + 1) % 2 ^ 32 ∧ OnlyWords s t [(pMgmt, 0x210), (pMgmt, 0x214)]))
    ∧ (portUp s = true → heard → ∀ b, s.servo.best = some b →
      (∀ y : PtpSyncMsg, y.master = b.master → mine y.net y.domain →
        (y.twoStep = true → Completes (.ptpSync y) s (fun t => counted t ∧ RegsKept s t [(pMgmt, 0x210), (pTime, 0x210)]
          ∧ timeState t = (if timeState s = 0 then 1 else timeState s)
          ∧ t = { s with regs := t.regs, servo :=
                  { (if timeState s = 0 then { s.servo with stepped := false, good := 0 } else s.servo) with sync := some (y.n, y.received), lastSync := s.ref } }))
        ∧ (y.twoStep = false → noStart → Completes (.ptpSync y) s (fun t => counted t ∧ t.servo.lastSync = s.ref
          ∧ t.servo.last = some (y.origin, y.received) ∧ OffsetTaken s t ((y.received : Int) - y.origin - (s.servo.delay + asym))))
        ∧ (y.twoStep = false → timeState s = 0 → Completes (.ptpSync y) s (fun t => ∀ j, j < 16 →
            (jobState t j = 3 ↔ jobState s j = 3 ∨ (jobState s j = 2 ∧ ∃ k x, ctxOf s (jobGen s j) = some (k, x) ∧ x.taken = true
              ∧ x.time ≤ ((s.ptp : Int) - ((y.received : Int) - y.origin - (s.servo.delay + asym))).toNat)))))
      ∧ (∀ (y : PtpFollowMsg) (k origin received : Nat), y.master = b.master → mine y.net y.domain → s.servo.sync = some (k, received) → timeState s ≠ 0 → noStart →
          Completes (.ptpFollowUp y k origin) s (fun t => counted t ∧ t.servo.sync = none ∧ t.servo.last = some (origin, received)
            ∧ OffsetTaken s t ((received : Int) - origin - (s.servo.delay + asym)))))
    ∧ (portUp s = true → s.servo.best.isSome = true ∨ s.rdB pMgmt 0x108 8 = true → Completes .ptpDelayReqSend s (fun t =>
          t = { s with servo := { s.servo with req := some (s.servo.reqNum + 1, s.ptp), reqNum := s.servo.reqNum + 1 } }))
    ∧ (portUp s = true → heard →
        ∀ (y : PtpDelayMsg) (t4 sent : Nat), s.servo.req = some (y.n, sent) → mine y.net y.domain → y.peer = s.rdB pMgmt 0x108 8 → ∀ trip : Int,
          (y.peer = false ∧ ∃ t1 t2 : Nat, s.servo.last = some (t1, t2) ∧ trip = (t2 : Int) - t1 + (t4 - sent))
            ∨ (y.peer = true ∧ trip = (y.received : Int) - sent - (y.origin - t4)) →
          Completes (.ptpDelayResp y t4) s (fun t => counted t ∧ RegsKept s t [(pMgmt, 0x210)] ∧ 2 * t.servo.delay ≤ trip ∧ trip < 2 * t.servo.delay + 2
            ∧ t = { s with regs := t.regs, servo := { s.servo with req := none, delay := t.servo.delay } }))
    ∧ (portUp s = true → ∀ y : PtpAnnounceMsg, mine y.net y.domain →
            (s.servo.best = none ∨ (∃ b, s.servo.best = some b ∧
                (s.servo.announceAt + 3 * b.announce ≤ s.ref ∨ b.master = y.master ∨ listLt (announceKey y) (announceKey b) = true)) →
              Completes (.ptpAnnounce y) s (fun t => counted t ∧ t.servo = { s.servo with best := some y, announceAt := s.ref } ∧ t.rd64 pTime 0x220 = y.master.toNat
                ∧ RegsKept s t [(pMgmt, 0x210), (pTime, 0x220), (pTime, 0x224)] ∧ t = { s with regs := t.regs, servo := t.servo }))
            ∧ (heard → ∀ b, s.servo.best = some b → b.master ≠ y.master → listLt (announceKey y) (announceKey b) = false →
              Completes (.ptpAnnounce y) s (fun t => counted t ∧ OnlyWords s t [(pMgmt, 0x210)])))
    ∧ (alive s = true → ∀ b, s.servo.best = some b →
        (heard → timeState s = 2 → s.servo.lastSync + 3 * b.interval ≤ s.ref →
          Completes .ptpSyncTimeout s (fun t => timeState t = 3 ∧ t.servo = { s.servo with holdFrom := s.ref, good := 0 }
            ∧ WordsAndFlag s { t with servo := s.servo } [(pTime, 0x210), (pTime, 0x22C)] pTime 9))
        ∧ (¬ heard → timeState s ≠ 2 → Completes .ptpSyncTimeout s (fun t => t.servo = { s.servo with best := none } ∧ t.rd64 pTime 0x220 = 0
            ∧ OnlyWords s { t with servo := s.servo } [(pTime, 0x220), (pTime, 0x224)])))
    ∧ (alive s = true → timeState s = 3 → s.servo.holdFrom + 100000000 * s.rdF pTime 0x104 0 16 ≤ s.ref →
        Completes .holdoverExpiry s (fun t => timeState t = 0 ∧ t.rd pTime 0x218 = 0 ∧ RegsKept s t [(pTime, 0x210), (pTime, 0x218)]
          ∧ t = { s with regs := t.regs, servo := { s.servo with good := 0 } }))
    ∧ (served s = true → s.ref < 2 ^ 64 → s.ptp < 2 ^ 64 → Completes .timeSnap s (fun t => t.rd64 pTime 0x230 = s.ref ∧ t.rd64 pTime 0x238 = s.ptp
        ∧ OnlyWords s t [(pTime, 0x230), (pTime, 0x234), (pTime, 0x238), (pTime, 0x23C)]))
  ) ∧ (
  ∀ (s : State), s.up = true →
    (s.enabled pMgmt = true → s.rdB pMgmt 0x208 0 = false → Completes .mgmtPortUp s (fun t =>
      ∃ u, t.rd pMgmt 0x208 = 1 + 2 * s.rdF pMgmt 0x104 0 1 ∧ WordsAndFlag s u [(pMgmt, 0x208)] pMgmt 8
        ∧ (s.rdB pMgmt 0x104 16 = false → t = { u with mgmt := { s.mgmt with dhcp := 0, lease := none } })
        ∧ (s.rdB pMgmt 0x104 16 = true → t.mgmt.dhcp = 1 ∧ t.mgmt.lease = none
            ∧ t.mgmt.sent = some (if s.rdB pMgmt 0x104 2 then some (s.rdF pMgmt 0x104 4 12) else none, .discover t.mgmt.xid)
            ∧ t = { u with mgmt := t.mgmt, free := s.free + 1 })))
    ∧ (s.enabled pMgmt = false ∨ s.rdB pMgmt 0x208 0 = true → Idle .mgmtPortUp s)
    ∧ (s.rdB pMgmt 0x208 0 = true → Completes .mgmtPortDown s (fun t => t.rd pMgmt 0x208 = 0 ∧ t.rdB pMgmt 0x18 9 = true
        ∧ (timeState s ≠ 2 → WordsAndFlag s t [(pMgmt, 0x208)] pMgmt 9)
        ∧ (timeState s = 2 → timeState t = 3 ∧ t.rdB pTime 0x18 9 = true ∧ t.servo = { s.servo with holdFrom := s.ref, good := 0 }
            ∧ t = { s with regs := t.regs, log := t.log, servo := t.servo })))
    ∧ (s.rdB pMgmt 0x208 0 = false → Idle .mgmtPortDown s)
  )

/-! The tile: issue, matrix engine, launches, watchdog. -/

/-- Issue instructions (05_thread_groups.md R171): the engine takes a copy of the descriptor that register a of the lowest active lane names, and the group moves on; with a full intake the issue waits, and a misaligned or outlying descriptor stops the block. -/
def Obligations.Issues : Prop :=
  ∀ (s : State) (gr : GRef) (x : TInstr) (tc : TC) (l : Nat) (ls : List Nat), ThreadAt s gr x tc → firstBad (checksIssue tc) = none → tc.act = l :: ls →
    let off : Nat := tc.get l x.a 1
    let T : Tile := s.tile gr.tile
    let issue (i : Instr) (n : Nat) (have_ : Nat) (push : Desc → Tile) : Prop :=
      (off % 64 = 0 → off + n ≤ 0x1800000 → have_ < intakeCap s gr.tile → Completes i s (fun t => ∃ (d : Desc) (f : Group → Group),
        d.bytes = s.trd gr.tile off n ∧ d.off = off ∧ d.uid = T.nextId ∧ d.checked = false ∧ d.wait = none ∧ d.extents = tc.blk.launch.extents
        ∧ d.iss = ⟨tc.blk.launch.queue, tc.blk.launch.cmd, some tc.blk.id, tc.blk.index⟩ ∧ d.raw = trawIn s gr.tile off n
        ∧ GoesOn tc (tc.path.pc + tc.len) (f tc.grp) ∧ t = (s.setTile gr.tile { push d with nextId := T.nextId + 1 }).modGroup gr f))
      ∧ (off % 64 = 0 → off + n ≤ 0x1800000 → intakeCap s gr.tile ≤ have_ → Idle i s)
      ∧ (off % 64 ≠ 0 → Completes i s (fun t => Stopped s t tc 3 off))
      ∧ (off % 64 = 0 → 0x1800000 < off + n → Completes i s (fun t => Stopped s t tc 5 off))
    issue (.issueMx gr x) 128 T.mx.intake.length (fun d => { T with mx := { T.mx with intake := T.mx.intake ++ [d] } })
    ∧ issue (.issueVx gr x) 256 T.vx.intake.length (fun d => { T with vx := { T.vx with intake := T.vx.intake ++ [d] } })
    ∧ issue (.issueDma gr x) 128 T.dma.intake.length (fun d => { T with dma := { T.dma with intake := T.dma.intake ++ [d] } })

/-- Register-form products and acc.clr (06_matrix_engine.md R196-R199): element (i, j) of C takes its old value or zero plus the products of row i of A and row j of B, rounded as R127 says, all operands read first; every byte outside C is as before. -/
def Obligations.RegisterProducts : Prop :=
  ∀ (s : State) (gr : GRef) (x : TInstr) (tc : TC), ThreadAt s gr x tc →
    let oc : Nat := tc.get 0 x.c 1
    let stored (t : State) (P : Prop) : Prop := P
      ∧ (∀ a, a < oc ∨ oc + 4096 ≤ a → t.tb gr.tile a = s.tb gr.tile a) ∧ (∀ k a, k ≠ gr.tile → a < 2 ^ 32 → t.tb k a = s.tb k a)
      ∧ ∃ (u : State) (f : Group → Group), t = u.modGroup gr f ∧ GoesOn tc (tc.path.pc + tc.len) (f tc.grp)
        ∧ u = { s with tmem := u.tmem, traw := u.traw, regs := u.regs }
    let product (i : Instr) (aReg bReg : Bool) : Prop := firstBad (checksMma aReg bReg tc s) = none → Completes i s (fun t => stored t
      (∀ m n, m < 32 → n < 32 →
        let a := mmaRow tc s aReg x.a m
        let b := mmaRow tc s bReg x.b n
        let ct : Nat := if isInt8 x.fmt.toNat then 9 else 1
        let c0 : Nat := if x.mod = 1 then s.tnat gr.tile (oc + 4 * (32 * m + n)) 4 else 0
        t.tnat gr.tile (oc + 4 * (32 * m + n)) 4 = (mxElement ct c0 (terms 0 32 a b [] []) (a.any FV.isNan || b.any FV.isNan) none).1 % 2 ^ 32))
    product (.mmaRR gr x) true true ∧ product (.mmaRS gr x) true false ∧ product (.mmaSS gr x) false false
    ∧ (firstBad (checksClr tc) = none → Completes (.accClr gr x) s (fun t => stored t (∀ a, oc ≤ a → a < oc + 4096 → t.tb gr.tile a = 0)))

/-- The matrix engine (06 R184-R194, R202-R205): the head of the intake fails, waits or starts; a free array takes the next block and computes it from the operands as they stand; a block done is written back; operands-read and completion signals add to their words, a failure marked in bit 63. -/
def Obligations.MatrixEngine : Prop :=
  ∀ (s : State) (t : Nat), t < 160 → tileOn s t = true →
    let T : Tile := s.tile t
    (∀ d rest, T.mx.intake = d :: rest → d.checked = false →
      (∀ c f a, mxCheck s t d = some (c, f, a) → Completes (.mxDescCheck t) s (fun u => MxFailed s u t d c f a))
      ∧ (mxCheck s t d = none → isHalted s t d T.mx.halted = true → Completes (.mxDescCheck t) s (fun u => MxFailed s u t d 0x22 0 0))
      ∧ (mxCheck s t d = none → isHalted s t d T.mx.halted = false →
          (mxWaitEn d = true → Completes (.mxDescCheck t) s (fun u => TileBecame s u t
            { T with mx := { T.mx with intake := { d with checked := true, wait := some (s.ref, wdLimit s t) } :: rest } }))
          ∧ (mxWaitEn d = false → Completes (.mxDescCheck t) s (fun u => TileBecame s u t
            { T with mx := { T.mx with intake := rest, jobs := T.mx.jobs ++ [⟨d, 0, 0, !mxRdEn d, none⟩] } }))))
    ∧ (∀ d rest, T.mx.intake = d :: rest → d.checked = true →
        (d.le 0x60 8 ≤ s.sig t (d.bf 0x58 0 12) → Completes (.mxWaitSatisfied t) s (fun u => ∃ w, OnlyRegs s w ∧ TileBecame w u t
          { T with mx := { T.mx with intake := rest, jobs := T.mx.jobs ++ [⟨d, 0, 0, !mxRdEn d, none⟩] } }))
        ∧ (s.sig t (d.bf 0x58 0 12) < d.le 0x60 8 → Idle (.mxWaitSatisfied t) s))
    ∧ (∀ n j, n < 2 → T.mx.arr n = none → mxNextJob T.mx = some j →
        (mxHazard T.mx j.d j.next = true → Idle (.mxBlockStart t n) s)
        ∧ (mxHazard T.mx j.d j.next = false → mxRaw s t j.d j.next = none → Completes (.mxBlockStart t n) s (fun u =>
            ∃ k : MxBlk, k.uid = j.d.uid ∧ k.num = j.next ∧ k.size = ctSize (mxCt j.d)
              ∧ TileBecame s u t { T with mx := (T.mx.modJob j.d.uid (fun j => { j with next := j.next + 1 })).setArr n (some k) }
              ∧ ∀ r c, r < (mxRows j.d j.next).2 → c < (mxCols j.d j.next).2 →
                  let row := (mxRows j.d j.next).1 + r
                  let col := (mxCols j.d j.next).1 + c
                  let A := mxRowA s t j.d row
                  let B := mxColB s t j.d col
                  let c0 : Nat := if mxAcc j.d then s.tnat t (mxCOff j.d row col) (ctSize (mxCt j.d)) else 0
                  let sc := if mxScale j.d then some (decodeFV 1 (j.d.le 0x30 4), decodeFV 1 (j.d.le 0x34 4)) else none
                  (mxCOff j.d row col, (mxElement (mxCt j.d) c0 (terms (mxPass j.d) (if mxCt j.d = 0 then 8 else 32) A.1 B.1 A.2 B.2)
                    (anyNanIn A || anyNanIn B) sc).1) ∈ k.out)))
    ∧ (∀ n k, n < 2 → T.mx.arr n = some k → k.out.Pairwise (fun x y => x.1 + k.size ≤ y.1 ∨ y.1 + k.size ≤ x.1) →
        Completes (.mxBlockDone t n) s (fun u =>
          (∀ x ∈ k.out, u.tnat t x.1 k.size = x.2 % 2 ^ (8 * k.size))
          ∧ (∀ a, (∀ x ∈ k.out, a < x.1 ∨ x.1 + k.size ≤ a) → u.tb t a = s.tb t a)
          ∧ u.rd (pTile t) 0x408 = (s.rd (pTile t) 0x408 + 1) % 2 ^ 32
          ∧ u.tile t = { T with mx := (T.mx.modJob k.uid (fun j => { j with done := j.done + 1 })).setArr n none } ∧ (∀ i, i ≠ t → u.tile i = s.tile i)
          ∧ RegsKept s u [(pTile t, 0x408), (pTile t, 0x6D0), (pTile t, 0x6D4), (pTile t, 0x6D8)]
          ∧ u = { s with tmem := u.tmem, traw := u.traw, regs := u.regs, tiles := u.tiles }))
    ∧ (∀ j, T.mx.jobs.find? (fun j => !j.rdSent && j.fail.isNone && decide (j.next = mxBlocks j.d)) = some j →
        Completes (.mxOperandsRead t) s (fun u => ∃ w, Signalled s w t (j.d.bf 0x48 0 12) (j.d.le 0x50 8) 0
          ∧ TileBecame w u t { w.tile t with mx := T.mx.modJob j.d.uid (fun j => { j with rdSent := true }) }))
    ∧ (∀ j rest, T.mx.jobs = j :: rest → (j.fail.isSome = true ∨ j.done = mxBlocks j.d) →
        Completes (.mxCompletion t) s (fun u => ∃ v w, (j.rdSent = true → v = s)
          ∧ (j.rdSent = false → Signalled s v t (j.d.bf 0x48 0 12) (j.d.le 0x50 8) 0)
          ∧ Signalled v w t (j.d.bf 0x3C 0 12) (j.d.le 0x40 8) (if j.fail.isSome then 2 ^ 63 else 0)
          ∧ u.rd (pTile t) 0x404 = (s.rd (pTile t) 0x404 + 1) % 2 ^ 32
          ∧ ∃ y, OnlyWords w y [(pTile t, 0x404)] ∧ TileBecame y u t { w.tile t with mx := { T.mx with jobs := rest } }))

/-- Launches on a tile (05 R142-R146, 14_power_thermal.md R454, R457): a delivered launch is taken, refused with LAUNCH_INVALID, or faulted where the binding has changed; a start takes the first launch that fits, with all its groups, every register zero and every lane at the entry point; a launch unable for 100 µs holds the others; in mode 1 a heavy launch beyond the headroom may be passed over within its bounds. -/
def Obligations.Launches : Prop :=
  ∀ (s : State) (t : Nat), t < 160 →
    let T : Tile := s.tile t
    (∀ a rest, T.arriving = a :: rest → alive s = true → tilePowered s t = true →
      (boundUnder s (pTile t) a.gen a.epoch = false → Completes (.launchDelivery t) s (fun u =>
        CmdFaulted s u a.uid ⟨0x34, 0, t, 0x10⟩ ∧ u.tile t = { T with arriving := rest } ∧ u = { s with tiles := u.tiles, cmds := u.cmds }))
      ∧ (boundUnder s (pTile t) a.gen a.epoch = true → launchBad a = true → Completes (.launchDelivery t) s (fun u =>
          Flagged s u (pTile t) 11 ∧ u.tile t = { T with arriving := rest }
          ∧ (∀ c ∈ u.cmds, c.uid = a.uid → ∃ f, c.fault = some f ∧ f.code = 0x15 ∧ f.tile ≤ t) ∧ (∀ c, c.uid ≠ a.uid → (c ∈ u.cmds ↔ c ∈ s.cmds))
          ∧ u = { s with tiles := u.tiles, cmds := u.cmds, regs := u.regs, log := u.log }))
      ∧ (boundUnder s (pTile t) a.gen a.epoch = true → launchBad a = false → Completes (.launchDelivery t) s (fun u => ∃ l : Launch,
          l.uid = T.nextId ∧ l.cmd = a.uid ∧ l.queue = a.queue ∧ l.nblocks = leAt a.bytes 0 2 ∧ l.groups = leAt a.bytes 2 1 % 64
          ∧ l.nregs = 8 * leAt a.bytes 3 1 ∧ l.blockBase = a.base ∧ l.entry = leAt a.bytes 8 4 ∧ l.maxResident = leAt a.bytes 0xD 1 % 64
          ∧ l.args = (a.bytes.drop 0x10).take 64 ∧ l.extents = a.extents ∧ l.started = 0
          ∧ TileBecame s u t { T with arriving := rest, launches := T.launches ++ [l], nextId := T.nextId + 1 })))
    ∧ ((alive s = false ∨ tilePowered s t = false) → Idle (.launchDelivery t) s)
    ∧ (∀ h rest l able, tileOn s t = true → T.launches = h :: rest → T.launches.filter (launchFits T) = l :: able →
        (launchFits T h = true ∨ s.ref < h.stuck + 10000) → Completes (.blockStart t false) s (fun u => ∃ b : Block,
          (u.tile t).blocks = T.blocks ++ [b] ∧ b.id = T.nextId ∧ b.index = l.blockBase + l.started ∧ b.launch = l ∧ b.groups.length = l.groups
          ∧ (∀ g ∈ b.groups, g.regs = [] ∧ g.preds = [] ∧ g.exited = 0 ∧ g.run = some ⟨allLanes, l.entry, []⟩ ∧ g.ready = [] ∧ g.parked = []
              ∧ g.splits = [] ∧ g.outst = [])
          ∧ (l.started + 1 < l.nblocks → ∃ y ∈ (u.tile t).launches, y = { l with started := l.started + 1, stuck := s.ref })
          ∧ (l.nblocks ≤ l.started + 1 → ∀ y ∈ (u.tile t).launches, y.uid ≠ l.uid)
          ∧ (heavyOf s t l = none → u.headroom = s.headroom)
          ∧ (∀ p, heavyOf s t l = some p → fget (fun _ => 0) u.headroom (dieOf t) = fget (fun _ => 0) s.headroom (dieOf t) - pennantDraw p)
          ∧ (∀ k, k ≠ t → u.tile k = s.tile k) ∧ u = { s with tiles := u.tiles, headroom := u.headroom }))
    ∧ (∀ h rest, T.launches = h :: rest → launchFits T h = false → h.stuck + 10000 ≤ s.ref → Idle (.blockStart t false) s)
    ∧ (∀ h rest l able, T.launches = h :: rest → T.launches.filter (launchFits T) = l :: able →
        (s.rdB pPower 0x108 0 = false ∨ s.rdF pPower 0x108 8 8 ≤ l.bypass ∨ l.since + 1000 * s.rdF pPower 0x108 16 16 ≤ s.ref
          ∨ heavyOf s t l = none) → Idle (.blockStart t true) s)
    ∧ (∀ h rest l able q x, tileOn s t = true → T.launches = h :: rest → T.launches.filter (launchFits T) = l :: able →
        (launchFits T h = true ∨ s.ref < h.stuck + 10000) → s.rdB pPower 0x108 0 = true → l.bypass < s.rdF pPower 0x108 8 8 →
        s.ref < l.since + 1000 * s.rdF pPower 0x108 16 16 → heavyOf s t l = some q → fget (fun _ => 0) s.headroom (dieOf t) < pennantDraw q →
        able.find? (fun y => (heavyOf s t y).isNone) = some x → x.uid ≠ l.uid → Completes (.blockStart t true) s (fun u => ∃ b : Block,
          (u.tile t).blocks = T.blocks ++ [b] ∧ b.launch = x ∧ b.index = x.blockBase + x.started ∧ b.groups.length = x.groups
          ∧ (∃ y ∈ (u.tile t).launches, y.uid = l.uid ∧ y.bypass = l.bypass + 1 ∨ y.uid = l.uid ∧ y.bypass = 0)
          ∧ u.headroom = s.headroom ∧ u = { s with tiles := u.tiles }))

/-- The watchdog (05 R173): a barrier use or a wait at its limit is reported once, with its registers latched where they are free, and stops its block where the action says so; an engine's late head descriptor fails with WAIT_STALL. -/
def Obligations.Watchdog : Prop :=
  ∀ (s : State) (t : Nat), t < 160 → tileOn s t = true →
    let p : Page := pTile t
    let T : Tile := s.tile t
    (∀ b n x s0, T.block b.id = some b → b.bars[n]? = some x → n < 8 → x.since = some s0 → x.reported = false → s0 + x.limit ≤ s.ref →
      (s.rdB p 0x104 0 = false → Completes (.watchdogExpiry t (.barrier b.id n)) s (fun u =>
        Flagged s u p 9 ∧ (s.rdB p 0x240 31 = false → u.rd p 0x240 = n + 2 ^ 31 ∧ u.rd p 0x244 = b.index % 2 ^ 32 ∧ u.rd p 0x248 = 0)
        ∧ (s.rdB p 0x240 31 = true → u.rd p 0x240 = s.rd p 0x240)
        ∧ (∃ c y, (u.tile t).block b.id = some c ∧ c.groups = b.groups ∧ c.bars[n]? = some y ∧ y = { x with reported := true })
        ∧ (∀ k, k ≠ t → u.tile k = s.tile k) ∧ u = { s with regs := u.regs, log := u.log, tiles := u.tiles }))
      ∧ (s.rdB p 0x104 0 = true → Completes (.watchdogExpiry t (.barrier b.id n)) s (fun u => u.rdB p 0x18 9 = true ∧ BlockStopped s u t b 0x13)))
    ∧ (∀ b g k w d o ls, T.block b.id = some b → ∀ gp, b.groups[g]? = some gp → gp.parked[k]? = some w → w.kind = .wait d o ls → w.reported = false → w.ok = false →
        s.rdB p 0x104 2 = true → w.since + w.limit ≤ s.ref →
        (s.rdB p 0x104 1 = false → Completes (.watchdogExpiry t (.wait b.id g k)) s (fun u => Flagged s u p 10
          ∧ (s.rdB p 0x240 31 = false → u.rd p 0x240 = 8 + 2 ^ 31)
          ∧ (∃ c gq v, (u.tile t).block b.id = some c ∧ c.groups[g]? = some gq ∧ gq.parked[k]? = some v ∧ v = { w with reported := true } ∧ gq.regs = gp.regs)
          ∧ (∀ k, k ≠ t → u.tile k = s.tile k) ∧ u = { s with regs := u.regs, log := u.log, tiles := u.tiles }))
        ∧ (s.rdB p 0x104 1 = true → Completes (.watchdogExpiry t (.wait b.id g k)) s (fun u => u.rdB p 0x18 10 = true ∧ BlockStopped s u t b 0x14)))
    ∧ (∀ d rest, T.mx.intake = d :: rest → d.checked = true → engWaitLate s d = true → s.rdB p 0x104 2 = true → rest = [] →
        Completes (.watchdogExpiry t .mx) s (fun u => u.rdB p 0x18 10 = true ∧ MxFailed s u t d 0x14 0 0))

/-- The vector engine (07_vector_engine.md R214, R223, R229-R239): the head of the intake fails, waits or starts; the first vector reads every input; where halt_on_fault is set, a failure fails what its block has behind it and not begun; each vector's items are stored as it passes, with the count of the empty outputs among them, and the last one brings the histogram; the signals add to their words, marked in bit 62 for an empty output and bit 63 for a failure. What a vector descriptor stores (07 R223-R225, 04_number_formats.md R121): an active element of an output without reduction and without block scales is its chain's value over the output's scale, rounded in the output's format, in its place, the inputs read as the descriptor finds them but where the output overlaps them (log entry 27); storing an item changes its bits and nothing else. -/
def Obligations.VectorEngine : Prop :=
  (
  ∀ (s : State) (t : Nat), t < 160 → tileOn s t = true →
    let T : Tile := s.tile t
    (∀ d rest, T.vx.intake = d :: rest → d.checked = false →
      (∀ c f a, vxCheck s t d = some (c, f, a) → Completes (.vxDescCheck t) s (fun u => VxFailed s u t d c f a))
      ∧ (vxCheck s t d = none → isHalted s t d T.vx.halted = true → Completes (.vxDescCheck t) s (fun u => VxFailed s u t d 0x27 0 0))
      ∧ (vxCheck s t d = none → isHalted s t d T.vx.halted = false →
          (vxWaitEn d = true → Completes (.vxDescCheck t) s (fun u => TileBecame s u t
            { T with vx := { T.vx with intake := { d with checked := true, wait := some (s.ref, wdLimit s t) } :: rest } }))
          ∧ (vxWaitEn d = false → Completes (.vxDescCheck t) s (fun u => TileBecame s u t
            { T with vx := { T.vx with intake := rest, jobs := T.vx.jobs ++ [⟨d, false, 0, [], 0, 0, [], false, !vxRdEn d, none, [], []⟩] } }))))
    ∧ (∀ d rest, T.vx.intake = d :: rest → d.checked = true →
        (d.le 0x20 8 ≤ s.sig t (d.bf 0x14 0 12) → Completes (.vxWaitSatisfied t) s (fun u => ∃ w, OnlyRegs s w ∧ TileBecame w u t
          { T with vx := { T.vx with intake := rest, jobs := T.vx.jobs ++ [⟨d, false, 0, [], 0, 0, [], false, !vxRdEn d, none, [], []⟩] } }))
        ∧ (s.sig t (d.bf 0x14 0 12) < d.le 0x20 8 → Idle (.vxWaitSatisfied t) s))
    ∧ (∀ j, vxRunning T.vx = some j →
        (∀ a, vxRaw s t j = some a → T.vx.intake = [] → (∀ k ∈ T.vx.jobs, k ≠ j → k.snap = true ∨ k.fail.isSome = true) → Completes (.vxVector t) s (fun u =>
          EngineFaulted s u t 0x490 0x4AC 14 3 0x23 j.d [(0x490, 0x23 + 2 ^ 31), (0x494, j.d.off), (0x49C, a), (0x4A8, j.stored)]
          ∧ ∃ h, u.tile t = { T with vx := { T.vx.modJob j.d.uid (fun j => { j with fail := some 0x23, items := [], events := [], emptyIdx := [] }) with halted := h } }))
        ∧ (∀ a k b, vxRaw s t j = some a → k ∈ T.vx.jobs → k ≠ j → k.snap = false → k.fail = none → s.rdB (pTile t) 0x110 2 = true →
            j.d.iss.blk = some b → k.d.iss.blk = some b → issuerLives s t j.d = true → issuerLives s t k.d = true →
            (∀ y ∈ T.vx.jobs, y.d.uid = k.d.uid → y = k) → Completes (.vxVector t) s (fun u =>
              ∃ y ∈ (u.tile t).vx.jobs, y.d = k.d ∧ y.snap = false ∧ y.fail = some 0x27))
        ∧ (vxRaw s t j = none →
            let items : List VxItem := if j.snap then j.items else (vxPlan s t j.d).items
            let emptyAt : List Nat := if j.snap then j.emptyIdx else (vxPlan s t j.d).empty
            let hi : Nat := vxEnd j.d j.pos
            let last : Bool := decide (hi = vxTotal j.d)
            let now := items.filter (fun x => last || decide (x.idx < hi))
            let empty : Nat := (emptyAt.filter (fun x => last || decide (x < hi))).length
            Completes (.vxVector t) s (fun u =>
              (∃ k : VxJob, k.d = j.d ∧ k.snap = true ∧ k.pos = hi ∧ k.items = items.filter (fun x => !(last || decide (x.idx < hi))) ∧ k.fin = last
                ∧ k.empty = j.empty + empty ∧ k.emptyIdx = emptyAt.filter (fun x => !(last || decide (x < hi))) ∧ k.stored = j.stored + (now.filter (·.elem)).length
                ∧ u.tile t = { T with vx := T.vx.modJob j.d.uid (fun _ => k) })
              ∧ (last = false ∨ vxHist j.d = false → u.tmem = (now.foldl (storeItem t) s).tmem)
              ∧ u.rd (pTile t) 0x488 = (s.rd (pTile t) 0x488 + (now.filter (·.elem)).length) % 2 ^ 32
              ∧ u.rd (pTile t) 0x48C = (s.rd (pTile t) 0x48C + empty) % 2 ^ 32 ∧ (empty ≠ 0 → j.empty = 0 → u.rdB (pTile t) 0x18 16 = true)
              ∧ (∀ k, k ≠ t → u.tile k = s.tile k)
              ∧ u = { s with tmem := u.tmem, traw := u.traw, regs := u.regs, tiles := u.tiles, log := u.log, free := u.free })))
    ∧ (∀ j, T.vx.jobs.find? (fun j => !j.rdSent && j.fail.isNone && vxAllRead s t j) = some j → Completes (.vxInputsRead t) s (fun u =>
        ∃ w, Signalled s w t (j.d.bf 0x30 0 12) (j.d.le 0x38 8) 0
          ∧ TileBecame w u t { w.tile t with vx := T.vx.modJob j.d.uid (fun j => { j with rdSent := true }) }))
    ∧ (∀ j rest, T.vx.jobs = j :: rest → (j.fail.isSome = true ∨ j.fin = true) → Completes (.vxCompletion t) s (fun u => ∃ v w,
        (j.rdSent = true → v = s) ∧ (j.rdSent = false → Signalled s v t (j.d.bf 0x30 0 12) (j.d.le 0x38 8) 0)
        ∧ Signalled v w t (j.d.bf 0x10 0 12) (j.d.le 0x18 8) ((if j.empty = 0 then 0 else 2 ^ 62) + (if j.fail.isSome then 2 ^ 63 else 0))
        ∧ u.rd (pTile t) 0x484 = (s.rd (pTile t) 0x484 + 1) % 2 ^ 32
        ∧ ∃ y, OnlyWords w y [(pTile t, 0x484)] ∧ TileBecame y u t { w.tile t with vx := { T.vx with jobs := rest } }))
  ) ∧ (
  ∀ (s : State) (t : Nat),
    (∀ (d : Desc) (n : Nat), vxReduce d = none → strMx d 3 = false → 0 < vxDim d 0 → n < vxTotal d →
      ∃ cur, (vxOpen d = false → cur = s) ∧ ((vxElement s cur t d n).2.2 = true →
      let o : OutVal := ⟨n, n, (vxElement s cur t d n).1, true⟩
      elItem d o (encodeFV (strFmt d 3) (vxRnd d n) (divScale d o.v)).1 ∈ (vxPlan s t d).items))
    ∧ (∀ x : VxItem, x.val < 2 ^ x.w →
        let o : Nat := x.off + x.bit / 8
        let b : Nat := x.bit % 8
        let k : Nat := ceilDiv (b + x.w) 8
        let u : State := storeItem t s x
        bits (u.tnat t o k) b x.w = x.val ∧ bits (u.tnat t o k) 0 b = bits (s.tnat t o k) 0 b
        ∧ bits (u.tnat t o k) (b + x.w) (8 * k - (b + x.w)) = bits (s.tnat t o k) (b + x.w) (8 * k - (b + x.w))
        ∧ (∀ a, a < o ∨ o + k ≤ a → u.tb t a = s.tb t a) ∧ u = { s with tmem := u.tmem, traw := u.traw })
  )

/-- The tile DMA engine, intake and slots (08_tile_data_movement.md R244, R251, R255, R257): the head of the intake fails, or waits for its word and for the lowest free slot, whose registers it takes; a slot that has not moved for stall_limit is reported once with its cause. The tile DMA engine, movement and end (08 R248-R254, R262): an access within the module takes the bytes of its source, or the fill's pattern, to its destination at once and the position moves on; where a copy's footprints overlap, what it reads of them is open (log entry 169); a remote access is handed to the connection, or fails with its connection; an access that is held changes nothing; signals go once what they cover is done, fail with a lost write that they cover, and add to their words, as completion does. -/
def Obligations.DmaEngine : Prop :=
  (
  ∀ (s : State) (t : Nat), t < 160 → tileOn s t = true →
    let T : Tile := s.tile t
    let p : Page := pTile t
    (∀ d rest, T.dma.intake = d :: rest → d.checked = false → (∀ e ∈ rest, e.checked = false) →
      (∀ c f a k, dmaCheck s t d = some (c, f, a, k) → Completes (.dmaDescCheck t) s (fun u => DmaFailed s u t d c f a k))
      ∧ (dmaCheck s t d = none → isHalted s t d T.dma.halted = true → Completes (.dmaDescCheck t) s (fun u => DmaFailed s u t d 0x2B 0 0 0))
      ∧ (dmaCheck s t d = none → isHalted s t d T.dma.halted = false → Completes (.dmaDescCheck t) s (fun u => TileBecame s u t
          { T with dma := { T.dma with intake :=
            { d with checked := true, wait := if dmaWaitEn d then some (s.ref, wdLimit s t) else none } :: rest } })))
    ∧ (∀ d rest w, T.dma.intake = d :: rest → d.checked = true → d.wait = some w →
        (d.le 0x60 8 ≤ s.sig t (d.bf 0x58 0 12) → Completes (.dmaWaitSatisfied t) s (fun u => ∃ v, OnlyRegs s v ∧ TileBecame v u t
          { T with dma := { T.dma with intake := { d with wait := none } :: rest } }))
        ∧ (s.sig t (d.bf 0x58 0 12) < d.le 0x60 8 → Idle (.dmaWaitSatisfied t) s) ∧ Idle (.dmaSlotStart t) s)
    ∧ (∀ d rest n, T.dma.intake = d :: rest → d.checked = true → d.wait = none → n < 4 → T.dma.inSlot n = none → (∀ k, k < n → T.dma.inSlot k ≠ none) →
        (∀ j ∈ T.dma.jobs, j.d.uid ≠ d.uid) → Completes (.dmaSlotStart t) s (fun u =>
          (∃ j : DmaJob, j.d = d ∧ j.slot = some n ∧ j.pos = 0 ∧ j.parts = [] ∧ j.since = s.ref ∧ j.stalled = false ∧ j.fail = none
            ∧ j.rdSent = !dmaRdEn d ∧ u.tile t = { T with dma := { T.dma with intake := rest, jobs := T.dma.jobs ++ [j] } })
          ∧ u.rd p (0x514 + 16 * n) = d.off % 2 ^ 32 ∧ u.rdB p (0x518 + 16 * n) 0 = true ∧ u.rdF p (0x518 + 16 * n) 16 16 = d.iss.queue % 2 ^ 16
          ∧ u.rd p (0x51C + 16 * n) = dmaTag d % 2 ^ 32 ∧ (dmaTotal d ≠ 0 → u.rd p (0x510 + 16 * n) = 0) ∧ (∀ k, k ≠ t → u.tile k = s.tile k)
          ∧ RegsKept s u [(p, 0x510 + 16 * n), (p, 0x514 + 16 * n), (p, 0x518 + 16 * n), (p, 0x51C + 16 * n)]
          ∧ u = { s with regs := u.regs, tiles := u.tiles }))
    ∧ (∀ n j (cause : BitVec 3), n < 4 → T.dma.inSlot n = some j → j.fail = none → j.stalled = false → (j.moved = false ∨ j.sig = 1) → j.since + j.limit ≤ s.ref →
        (cause.toNat < 6 → Completes (.dmaStallReport t n cause) s (fun u =>
          u.tile t = { T with dma := T.dma.modJob j.d.uid (fun j => { j with stalled := true }) } ∧ u.rdF p (0x518 + 16 * n) 1 4 = 1 + 2 * cause.toNat
          ∧ u.rd p 0x508 = (s.rd p 0x508 + 1) % 2 ^ 32 ∧ Flagged s u p 19 ∧ RegsKept s u ([(p, 0x518 + 16 * n), (p, 0x508)] ++ flagWords p 19)
          ∧ u = { s with regs := u.regs, tiles := u.tiles, log := u.log }))
        ∧ (6 ≤ cause.toNat → Idle (.dmaStallReport t n cause) s))
  ) ∧ (
  ∀ (s : State) (t n : Nat) (j : DmaJob), t < 160 → n < 4 → tileOn s t = true → (s.tile t).dma.inSlot n = some j → j.fail = none →
    let T : Tile := s.tile t
    let p : Page := pTile t
    (∀ w src, pTile t ∉ s.stalls → j.pos < dmaTotal j.d → dmaChunk s j.d j.pos = .ok (w, src) →
      let far : Prop := ∃ x ∈ w :: src, x.sp = 2
      let held : Prop := dmaHeld s (T.dma.before j.d.uid) src [w] = true ∨ ∃ x ∈ w :: src, x.sp = 1 ∧ memHeld s (.dma t) x.a x.n = true
      let ahead : Prop := j.low / 128 * 128 + 2 ^ 20 < j.pos + w.n
      (held → Idle (.dmaAccessPerformed t n) s)
      ∧ (¬ held →
          (∀ c f, dmaRemoteBad s t j.d w src = some (c, f) → T.dma.intake = [] → Completes (.dmaAccessPerformed t n) s (fun u => DmaJobFailed s u t j c f 0 0))
          ∧ (dmaRemoteBad s t j.d w src = none →
              (far → connState s (dmaConn j.d) = 5 → T.dma.intake = [] → Completes (.dmaAccessPerformed t n) s (fun u => DmaJobFailed s u t j 0x12 0 0 0))
              ∧ (far → connState s (dmaConn j.d) ≠ 3 → connState s (dmaConn j.d) ≠ 5 → Idle (.dmaAccessPerformed t n) s)
              ∧ (ahead → (far → connState s (dmaConn j.d) ≠ 5) → Idle (.dmaAccessPerformed t n) s)
              ∧ (¬ ahead → ∀ b, dmaReadAll s t src = .ok b →
                  let kept := dmaKeepOld s t j
                  let data : List Byte := if dmaOp j.d = 1 then dmaPattern j.d w.i w.n else dmaBytes s kept.2 w.i b
                  let moved (u : State) : Prop := (∃ k : DmaJob, k = { kept.2 with pos := j.pos + w.n, since := s.ref, limit := k.limit, stalled := false }
                      ∧ u.tile t = { T with dma := T.dma.modJob j.d.uid (fun _ => k) })
                    ∧ RegsKept s u [(p, 0x510 + 16 * n), (p, 0x518 + 16 * n)] ∧ (∀ k, k ≠ t → u.tile k = s.tile k)
                  (¬ far → w.sp = 0 → Completes (.dmaAccessPerformed t n) s (fun u => moved u
                    ∧ (∀ i, i < data.length → u.tb t (w.a + i) = (data[i]?).getD 0) ∧ (∀ a, a < w.a ∨ w.a + data.length ≤ a → u.tb t a = s.tb t a)
                    ∧ u = { s with tmem := u.tmem, traw := u.traw, regs := u.regs, tiles := u.tiles, mem := u.mem, free := u.free }))
                  ∧ (¬ far → w.sp = 1 → memFault s w.a data.length = none → Completes (.dmaAccessPerformed t n) s (fun u => moved u
                    ∧ (∀ i, i < data.length → u.hb (w.a + i) = (data[i]?).getD 0) ∧ (∀ a, a < w.a ∨ w.a + data.length ≤ a → u.hb a = s.hb a)
                    ∧ u = { s with hbm := u.hbm, raw := u.raw, mem := u.mem, regs := u.regs, tiles := u.tiles, free := u.free }))
                  ∧ (w.sp = 2 → connState s (dmaConn j.d) = 3 → Completes (.dmaAccessPerformed t n) s (fun u => ∃ v : State,
                      u = connSend v (dmaConn j.d) ⟨1, 0, w.n, t, 2, w.a / 2 ^ 40 % 2 ^ 20, w.a % 2 ^ 40, data, .dma t j.d.uid w.i⟩
                      ∧ (∃ k : DmaJob, k.pos = j.pos + w.n ∧ k.parts = j.parts ++ [⟨w.i, w.n, 1, [], true⟩] ∧ v.tile t = { T with dma := T.dma.modJob j.d.uid (fun _ => k) })
                      ∧ v = { s with regs := v.regs, tiles := v.tiles, mem := v.mem, free := v.free })))
              ∧ (∀ c a k, ¬ ahead → ¬ far → dmaReadAll s t src = .error (c, a, k) → T.dma.intake = [] → c ≠ 0x10 → Completes (.dmaAccessPerformed t n) s (fun u =>
                  DmaJobFailed s u t j c 0 (if k = 1 then nodeId s * 2 ^ 40 + a else a) k)))))
    ∧ (j.rdSent = false → j.readAll = true →
        (dmaEarlierDone s t j (ordScope (j.d.le 0x5E 1)) = true → Completes (.dmaSourceRead t n) s (fun u => ∃ w, Signalled s w t (j.d.bf 0x5C 0 12) (j.d.le 0x68 8) 0
          ∧ TileBecame w u t { w.tile t with dma := T.dma.modJob j.d.uid (fun j => { j with rdSent := true }) }))
        ∧ (dmaEarlierDone s t j (ordScope (j.d.le 0x5E 1)) = false → Idle (.dmaSourceRead t n) s))
    ∧ (j.sig = 0 → j.moved = true →
        (dmaEarlierDone s t j (ordScope (j.d.le 0x71 1)) = false → Idle (.dmaSignalSend t n) s)
        ∧ (dmaEarlierDone s t j (ordScope (j.d.le 0x71 1)) = true →
          (∀ c, dmaLost s t j.d = some c → T.dma.intake = [] → Completes (.dmaSignalSend t n) s (fun u => DmaJobFailed s u t j c 0 0 0))
          ∧ (dmaLost s t j.d = none →
            (dmaSigDst j.d = 1 → boundTo s (pTile (j.d.le 0x74 1)) (s.rd p 0x2C) = true → j.d.le 0x74 1 < 160 → Completes (.dmaSignalSend t n) s (fun u =>
              ∃ w, Signalled s w (j.d.le 0x74 1) (j.d.bf 0x70 16 12) (j.d.le 0x78 8) 0
                ∧ u.tile t = { w.tile t with dma := T.dma.modJob j.d.uid (fun j => { j with sig := 2 }) } ∧ (∀ k, k ≠ t → u.tile k = w.tile k)
                ∧ u = { w with tiles := u.tiles }))
            ∧ (dmaSigDst j.d = 1 → boundTo s (pTile (j.d.le 0x74 1)) (s.rd p 0x2C) = false → T.dma.intake = [] →
                Completes (.dmaSignalSend t n) s (fun u => DmaJobFailed s u t j 0x2C 0 0 0))
            ∧ (dmaSigDst j.d = 2 → dmaConnLive s t j.d = true →
                (connState s (dmaConn j.d) = 3 → Completes (.dmaSignalSend t n) s (fun u =>
                  u = connSend (s.setTile t { T with dma := T.dma.modJob j.d.uid (fun j => { j with sig := 1 }) }) (dmaConn j.d)
                    ⟨4, j.d.le 0x71 1, 8, t, 2, s.rdF (pConn (dmaConn j.d)) 0x108 0 20, j.d.le 0x74 1 + 256 * j.d.bf 0x70 16 12 + 2 ^ 20, toLE 8 (j.d.le 0x78 8),
                      .dma t j.d.uid (2 ^ 40)⟩))
                ∧ (connState s (dmaConn j.d) = 5 → T.dma.intake = [] → Completes (.dmaSignalSend t n) s (fun u => DmaJobFailed s u t j 0x12 0 0 0))
                ∧ (connState s (dmaConn j.d) ≠ 3 → connState s (dmaConn j.d) ≠ 5 → Idle (.dmaSignalSend t n) s)))))
    ∧ (∀ rest, T.dma.jobs = j :: rest → j.moved = true → j.sig = 2 → Completes (.dmaCompletion t) s (fun u => ∃ v w,
        (j.rdSent = true → v = s) ∧ (j.rdSent = false → Signalled s v t (j.d.bf 0x5C 0 12) (j.d.le 0x68 8) 0)
        ∧ Signalled v w t (j.d.bf 0x10 0 12) (j.d.le 0x18 8) 0 ∧ u.tile t = { w.tile t with dma := { T.dma with jobs := rest } }
        ∧ u.rd p 0x504 = (s.rd p 0x504 + 1) % 2 ^ 32 ∧ u.rdF p (0x518 + 16 * n) 0 2 = 0
        ∧ RegsKept w u [(p, 0x504), (p, 0x518 + 16 * n)] ∧ u = { w with regs := u.regs, tiles := u.tiles }))
    ∧ (∀ k rest f, T.dma.jobs = k :: rest → k.fail = some f → k.parts = [] → k.slot = none → Completes (.dmaCompletion t) s (fun u => ∃ v w,
        Signalled v w t (k.d.bf 0x10 0 12) (k.d.le 0x18 8) (2 ^ 63) ∧ (k.rdSent = true → v = s)
        ∧ u.tile t = { w.tile t with dma := { T.dma with jobs := rest } } ∧ u.rd p 0x504 = (s.rd p 0x504 + 1) % 2 ^ 32))
  )

/-- The register window of a tile (08 R266-R269): an operation reads or writes eight bytes where the state permits it, the address is fit and the tile is powered, and is refused with its code otherwise; a second go is discarded and changes nothing of the one in progress; at its end busy clears, the data and the result are there, and the address may move on. -/
def Obligations.RegisterWindow : Prop :=
  ∀ (s : State) (t : Nat) (inc : Bool), t < 160 → reached s (pTile t) = true →
    let p : Page := pTile t
    let T : Tile := s.tile t
    let off : Nat := s.rd p 0x580
    let asked (u : State) : Prop := u.rdB p 0x588 0 = true ∧ u.rdB p 0x584 2 = inc ∧ (∀ k, k ≠ t → u.tile k = s.tile k)
    (T.win = none →
      (winPermitted s t = false → Completes (.winRead t inc) s (fun u => asked u ∧ u.tile t = { T with win := some (1, none, inc) } ∧ u.tmem = s.tmem)
        ∧ Completes (.winWrite t inc) s (fun u => asked u ∧ u.tile t = { T with win := some (1, none, inc) } ∧ u.tmem = s.tmem))
      ∧ (winPermitted s t = true → tilePowered s t = true → winAddrOk off = false →
          Completes (.winRead t inc) s (fun u => asked u ∧ u.tile t = { T with win := some (3, none, inc) } ∧ u.tmem = s.tmem)
          ∧ Completes (.winWrite t inc) s (fun u => asked u ∧ u.tile t = { T with win := some (3, none, inc) } ∧ u.tmem = s.tmem))
      ∧ (winPermitted s t = true → tilePowered s t = false →
          Completes (.winRead t inc) s (fun u => asked u ∧ u.tile t = { T with win := some (2, none, inc) } ∧ u.tmem = s.tmem)
          ∧ Completes (.winWrite t inc) s (fun u => asked u ∧ u.tile t = { T with win := some (2, none, inc) } ∧ u.tmem = s.tmem))
      ∧ (winPermitted s t = true → tilePowered s t = true → winAddrOk off = true →
          (trawIn s t off 8 ≠ none → Completes (.winRead t inc) s (fun u => asked u ∧ u.tile t = { T with win := some (4, some 0, inc) } ∧ u.tmem = s.tmem))
          ∧ (trawIn s t off 8 = none → Completes (.winRead t inc) s (fun u => asked u ∧ u.tile t = { T with win := some (0, some (s.tnat t off 8), inc) }
            ∧ RegsKept s u [(p, 0x584), (p, 0x588)] ∧ u = { s with regs := u.regs, tiles := u.tiles }))
          ∧ (off < 0x1A00000 → Completes (.winWrite t inc) s (fun u => asked u ∧ u.tile t = { T with win := some (0, none, inc) }
            ∧ u.tnat t off 8 = s.rd64 p 0x590 ∧ (∀ a, a < off ∨ off + 8 ≤ a → u.tb t a = s.tb t a)
            ∧ RegsKept s u [(p, 0x584), (p, 0x588)] ∧ u = { s with regs := u.regs, tiles := u.tiles, tmem := u.tmem, traw := u.traw }))
          ∧ (0x1A00000 ≤ off → Completes (.winWrite t inc) s (fun u => u.tnat t off 8 = s.rd64 p 0x590 ∧ u.rdB p 0x588 0 = true
            ∧ (u.tile t).win = some (0, none, inc) ∧ (∀ a, a < off ∨ off + 8 ≤ a → u.tb t a = s.tb t a)))))
    ∧ (T.win ≠ none → Completes (.winRead t inc) s (fun u => u.rdF p 0x588 1 3 = 5 ∧ u.rdB p 0x18 20 = true ∧ u.tile t = T ∧ u.tmem = s.tmem)
        ∧ Completes (.winWrite t inc) s (fun u => u.rdF p 0x588 1 3 = 5 ∧ u.rdB p 0x18 20 = true ∧ u.tile t = T ∧ u.tmem = s.tmem))
    ∧ (∀ err data step, T.win = some (err, data, step) → err < 6 → Completes (.winOpEnd t) s (fun u =>
        u.rdB p 0x588 0 = false ∧ u.rdF p 0x588 1 3 = err ∧ u.tile t = { T with win := none }
        ∧ (∀ v, data = some v → v < 2 ^ 64 → u.rd64 p 0x590 = v) ∧ (err ≠ 0 → u.rdB p 0x18 20 = true)
        ∧ (err = 0 → u.rd p 0x580 = if step then (off + 8) % 2 ^ 32 else off)
        ∧ u = { s with regs := u.regs, log := u.log, tiles := u.tiles }))
    ∧ (T.win = none → Idle (.winOpEnd t) s)

/-! Command queues. -/

/-- Doorbells, arming and stopping (09_command_queues.md R274-R278, R286, R287): a doorbell moves the doorbell position forward by at most the ring; an arm takes HEAD from QARM_POS; a stop leaves ARMED; CQ_HEAD never passes CQ_TAIL. -/
def Obligations.QueueControl : Prop :=
  ∀ (s : State) (q : Nat), q < 16384 → served s = true →
    let p : Page := pQueue q
    let b : Nat := s.rd p 0x200
    let h : Nat := s.rd p 0x204
    (∀ d : BitVec 32,
      (qState s q = 0 ∨ s.quarantined p = true → Completes (.doorbell q d) s (fun t =>
        t.rd p 0x708 = (s.rd p 0x708 + 1) % 2 ^ 32 ∧ OnlyWords s t [(p, 0x708)]))
      ∧ (qState s q = 5 → s.quarantined p = false → Idle (.doorbell q d) s)
      ∧ (1 ≤ qState s q ∧ qState s q ≤ 4 → s.quarantined p = false →
          (diff32 d.toNat b = 0 → Idle (.doorbell q d) s)
          ∧ (2 ^ 31 ≤ diff32 d.toNat b → Completes (.doorbell q d) s (fun t =>
              t.rd p 0x21C = (s.rd p 0x21C + 1) % 2 ^ 32 ∧ OnlyWords s t [(p, 0x21C)]))
          ∧ (1 ≤ diff32 d.toNat b ∧ diff32 d.toNat b < 2 ^ 31 → diff32 d.toNat h ≤ qEntries s q → Completes (.doorbell q d) s (fun t =>
              t.rd p 0x200 = d.toNat ∧ OnlyWords s t [(p, 0x200)]))
          ∧ (1 ≤ diff32 d.toNat b ∧ diff32 d.toNat b < 2 ^ 31 → qEntries s q < diff32 d.toNat h → Completes (.doorbell q d) s (fun t =>
              t.rd p 0x200 = b ∧ t.rdB p 0x18 13 = true ∧ (s.rdB p 0x220 31 = false → t.rd p 0x220 = 0x37 + 2 ^ 31 ∧ t.rd p 0x224 = h)
              ∧ qState t q = (if qState s q = 2 then 3 else qState s q) ∧ t = { s with regs := t.regs, log := t.log, qs := t.qs }))))
    ∧ (∀ w, s.mem.watch.find? (fun w => decide (w.1 = q)) = some (q, w) → alive s = true →
        (q ∈ s.mem.dbWritten → memHeld s .qeng (64 * w) 4 = false → memFault s (64 * w) 4 = none → Completes (.doorbellBlockWrite q) s (fun t =>
          exec (.doorbell q (BitVec.ofNat 32 (s.hnat (64 * w) 4)))
            (sliceTouch { s with mem := { s.mem with dbWritten := sremove q s.mem.dbWritten } } .qeng (64 * w) 4 false) = .next t))
        ∧ (q ∉ s.mem.dbWritten → Idle (.doorbellBlockWrite q) s))
    ∧ ((qState s q = 1 ∨ qState s q = 3 ∨ qState s q = 4) → s.rdB p 0x10 0 = true → s.swapPending p = false →
        Completes (.queueArm q) s (fun t => qState t q = 2 ∧ t.rd p 0x204 = s.rd p 0x210 ∧ t.rd pQeng 0x200 = (s.rd pQeng 0x200 + 1) % 2 ^ 32
          ∧ t.rd p 0x200 = (if diff32 b (s.rd p 0x210) ≤ qEntries s q then b else s.rd p 0x210)
          ∧ t.rd p 0x20C = s.rd p 0x20C ∧ (t.q q).seq = (s.q q).seq
          ∧ (powerState s ≠ 1 → RegsKept s t [(p, 0x204), (p, 0x200), (p, 0x14), (pQeng, 0x200)] ∧ t.q q = { s.q q with held := none, torn := none, poolAt := none, lost := none }
              ∧ (∀ k, k ≠ q → t.q k = s.q k) ∧ t = { s with regs := t.regs, qs := t.qs })))
    ∧ ((qState s q ≠ 1 ∧ qState s q ≠ 3 ∧ qState s q ≠ 4) ∨ s.rdB p 0x10 0 = false ∨ s.swapPending p = true → qState s q ≠ 2 →
        Completes (.queueArm q) s (fun t => OneFlag s t p 14))
    ∧ (qState s q = 2 → Completes (.queueStop q) s (fun t => qState t q = 3 ∧ (t.q q).torn = none ∧ (t.q q).held = none
        ∧ RegsKept s t [(p, 0x14), (pQeng, 0x200)] ∧ t = { s with regs := t.regs, qs := t.qs }))
    ∧ (qState s q ≠ 2 → Idle (.queueStop q) s)
    ∧ (∀ v : BitVec 32,
        let d : Nat := diff32 v.toNat (s.rd p 0x20C)
        (1 ≤ d ∧ d ≤ 2 ^ 31 → Completes (.cqHeadWrite q v) s (fun t => OneFlag s t p 2))
        ∧ (¬ (1 ≤ d ∧ d ≤ 2 ^ 31) → Completes (.cqHeadWrite q v) s (fun t => t.rd p 0x208 = v.toNat ∧ OnlyWords s t [(p, 0x208)])))

/-- Fetch (09 R281, R283, R285, R288, R289, 10_translation.md R311, 03_memory_model.md R80): in the queue's turn the command at HEAD is read, as an acquire at node scope, and taken when its seal fits, in the order of the checks: version, fields, epoch, tiles, addresses; a seal that does not fit is read again no sooner than 1.5 µs later, and the queue stops with TORN_COMMAND after 64 refetches or 100 µs. -/
def Obligations.CommandFetch : Prop :=
  ∀ (s : State) (q : Nat) (b : List Byte), q < 16384 → fetchOn s q = true →
    let p : Page := pQueue q
    let ok : Bool := sealOk b (s.rd p 0x204) (s.rdB p 0x104 4)
    let v : Nat := cmdLe b 0 1
    let verBad : Prop := v < s.rdF p 0x104 0 2 ∨ s.rdF p 0x104 2 2 < v ∨ v = 0 ∨ 3 < v
    let ep : Prop := if v = 1 then cmdLe b 4 2 = s.rd p 0x28 % 2 ^ 16 else cmdLe b 4 4 = s.rd p 0x28
    (∀ r, fetchIsNext s q = true → (s.q q).torn = none → (s.q q).held = none → pXlat ∉ s.stalls → ringHeld s q = false → readCmd { s with fetchTurn := q } q = (r, some b) →
      r = { s with fetchTurn := q, regs := r.regs, log := r.log, mem := r.mem }
      ∧ (ok = false → Completes (.commandFetch q) s (fun t => (t.q q).torn = some (s.ref, s.ref, 0) ∧ t = { r with qs := t.qs }))
      ∧ (ok = true → verBad → Completes (.commandFetch q) s (fun t => CheckFailed r t q b 0x31 0))
      ∧ (ok = true → ¬ verBad → ∀ c o, firstCmdBad b = some (c, o) → Completes (.commandFetch q) s (fun t => CheckFailed r t q b c o))
      ∧ (ok = true → ¬ verBad → firstCmdBad b = none → ¬ ep → Completes (.commandFetch q) s (fun t =>
          ∃ u, OnlyWords r u [(p, 0x708)] ∧ u.rd p 0x708 = (s.rd p 0x708 + 1) % 2 ^ 32 ∧ CheckFailed u t q b 0x33 4))
      ∧ (ok = true → ¬ verBad → firstCmdBad b = none → ep → (∃ t ∈ cmdTiles b, tileFed r q t = false) →
          Completes (.commandFetch q) s (fun t => CheckFailed r t q b 0x34 (if cmdLe b 1 1 = 8 then 0x11 else 0x10)))
      ∧ (ok = true → ¬ verBad → firstCmdBad b = none → ep → (∀ t ∈ cmdTiles b, tileFed r q t = true) → cmdAddrs b = [] →
          Completes (.commandFetch q) s (fun t => (∃ c : Cmd, t.cmds = s.cmds ++ [c] ∧ c.queue = q ∧ c.pos = s.rd p 0x204 ∧ c.bytes = b ∧ c.op = cmdLe b 1 1
              ∧ c.bad = false ∧ c.begun = false ∧ c.fault = none ∧ c.pool = none ∧ c.targets = (cmdTiles b).map (fun t => (t, s.rd (pTile t) 0x28)))
            ∧ t.rd p 0x204 = (s.rd p 0x204 + cmdBf b 2 0 6 + 1) % 2 ^ 32 ∧ t.rd pQeng 0x204 = (s.rd pQeng 0x204 + 1) % 2 ^ 32
            ∧ t = { r with regs := t.regs, cmds := t.cmds, nextUid := s.nextUid + 1, qs := t.qs })))
    ∧ (fetchIsNext s q = false → Idle (.commandFetch q) s)
    ∧ (∀ t0 t1 n, (s.q q).torn = some (t0, t1, n) →
        Idle (.commandFetch q) s
        ∧ (s.ref < t1 + 150 ∨ ringHeld s q = true → Idle (.commandRefetch q) s)
        ∧ (∀ r, t1 + 150 ≤ s.ref → ringHeld s q = false → readCmd (s.inc p 0x218 1) q = (r, some b) →
            (ok = false → n + 1 < 64 → s.ref < t0 + 10000 → Completes (.commandRefetch q) s (fun t =>
              (t.q q).torn = some (t0, s.ref, n + 1) ∧ t = { r with qs := t.qs }))
            ∧ (ok = false → 64 ≤ n + 1 ∨ t0 + 10000 ≤ s.ref → Completes (.commandRefetch q) s (fun t =>
                qState t q = 3 ∧ t.rd p 0x204 = s.rd p 0x204 ∧ t.rdB p 0x18 8 = true ∧ t.rd pQeng 0x208 = (s.rd pQeng 0x208 + 1) % 2 ^ 32
                ∧ (∃ c : Cmd, t.cmds = s.cmds ++ [c] ∧ c.bad = true ∧ c.fault = some ⟨0x30, 0, 0xFF, 0⟩ ∧ c.queue = q ∧ c.pos = s.rd p 0x204)))
            ∧ (ok = true → ¬ verBad → ∀ c o, firstCmdBad b = some (c, o) → Completes (.commandRefetch q) s (fun t =>
                ∃ w, CheckFailed w t q b c o ∧ w = { r with qs := w.qs } ∧ (w.q q).torn = none))))

/-- What commands do (09 R284, R290, R296, 03_memory_model.md R86, R90): LAUNCH sends its descriptor to every named tile, DMA enters the intake of its tile, WRITE_INLINE writes its data and its flag, SIGNAL updates a signal word after every earlier command, and fails where one of them has lost a write that it would cover (03 R82), ATOMIC performs one atomic; an access that names another module goes out over its connection, and fails with CONN_INVALID where that is not of the job. -/
def Obligations.CommandEffects : Prop :=
  (∀ (s : State) (q : Nat) (pos : BitVec 32) (c : Cmd), CmdRuns s q pos 1 c → (c.targets.map (fun x => x.1)).Nodup →
    Completes (.launch q pos) s (fun t => CmdMoved s t c (fun k => { k with stage := 2 })
      ∧ (∀ i x, c.targets[i]? = some x → t.tile x.1 = { s.tile x.1 with arriving := (s.tile x.1).arriving ++
          [⟨c.uid, q, qGen s q, x.2, cmdLe c.bytes 0x1C 4 + i * cmdLe c.bytes 0x14 4, slice c.bytes 0x18 80, c.extents⟩] })
      ∧ (∀ k, k ∉ c.targets.map (fun x => x.1) → t.tile k = s.tile k) ∧ t = { s with cmds := t.cmds, tiles := t.tiles }))
  ∧ (∀ (s : State) (q : Nat) (pos : BitVec 32) (c : Cmd) (k epoch : Nat), CmdRuns s q pos 2 c → c.targets = [(k, epoch)] → tilePowered s k = true →
      (boundUnder s (pTile k) (qGen s q) epoch = true → (s.tile k).dma.intake.length < intakeCap s k → Completes (.dma q pos) s (fun t =>
        CmdMoved s t c (fun k => { k with stage := 2 }) ∧ (∃ d : Desc, d.bytes = slice c.bytes 0x18 128 ∧ d.iss = ⟨q, c.uid, none, 0⟩ ∧ d.extents = c.extents
          ∧ d.checked = false ∧ d.raw = none ∧ t.tile k = { s.tile k with dma := { (s.tile k).dma with intake := (s.tile k).dma.intake ++ [d] }, nextId := (s.tile k).nextId + 1 })
        ∧ (∀ j, j ≠ k → t.tile j = s.tile j) ∧ t = { s with cmds := t.cmds, tiles := t.tiles }))
      ∧ (boundUnder s (pTile k) (qGen s q) epoch = true → intakeCap s k ≤ (s.tile k).dma.intake.length → Completes (.dma q pos) s (fun t =>
          CmdMoved s t c id ∧ t = { s with cmds := t.cmds }))
      ∧ (boundUnder s (pTile k) (qGen s q) epoch = false → Completes (.dma q pos) s (fun t =>
          CmdMoved s t c (fun y => { y with stage := 2, fault := y.fault <|> some ⟨0x34, 0, k, 0x10⟩ }) ∧ t = { s with cmds := t.cmds })))
  ∧ (∀ (s : State) (q : Nat) (pos : BitVec 32) (c : Cmd) (x : CPiece) (f : List CPiece), CmdRuns s q pos 3 c → c.stage = 0 → inlinePieces s c = .ok ([x], f) →
      let conn : Nat := cmdBf c.bytes 0x1C 0 14
      let data : List Byte := slice (c.bytes.drop 0x30) x.off x.n
      let far : Bool := (x :: f).any (CPiece.far s)
      (far = false → piecesHeld s (x :: f) = false → cmdOverlaps s c (x :: f) = false → memFault s x.a x.n = none → f = [] ∨ ordRel (cmdLe c.bytes 0x1A 1) = true → Completes (.writeInline q pos) s (fun t =>
        CmdMoved s t c (fun k => { k with stage := if f = [] then 2 else 1 })
        ∧ (∀ i, i < x.n → t.hb (x.a + i) = (data[i]?).getD 0) ∧ (∀ a, a < x.a ∨ x.a + x.n ≤ a → t.hb a = s.hb a)
        ∧ t = { s with cmds := t.cmds, hbm := t.hbm, raw := t.raw, mem := t.mem }))
      ∧ (far = false → ∀ y, f = [y] → ordRel (cmdLe c.bytes 0x1A 1) = false → piecesHeld s [x, y] = false → cmdOverlaps s c [x, y] = false → memFault s x.a x.n = none → memFault s y.a y.n = none →
          (x.a + x.n ≤ y.a ∨ y.a + y.n ≤ x.a) → Completes (.writeInline q pos) s (fun t => CmdMoved s t c (fun k => { k with stage := 2 })
            ∧ (∀ i, i < x.n → t.hb (x.a + i) = (data[i]?).getD 0) ∧ (∀ i, i < y.n → t.hb (y.a + i) = ((slice (slice c.bytes 0x28 8) y.off y.n)[i]?).getD 0)
            ∧ (∀ a, (a < x.a ∨ x.a + x.n ≤ a) → (a < y.a ∨ y.a + y.n ≤ a) → t.hb a = s.hb a)
            ∧ t = { s with cmds := t.cmds, hbm := t.hbm, raw := t.raw, mem := t.mem }))
      ∧ (far = true → cmdConnOk s c conn (x :: f) = false → Completes (.writeInline q pos) s (fun t =>
          CmdMoved s t c (fun k => { k with stage := 2, fault := k.fault <|> some ⟨0x2A, 0, 0xFF, 0x1C⟩ }) ∧ t = { s with cmds := t.cmds })))
  ∧ (∀ (s : State) (q : Nat) (pos : BitVec 32) (c : Cmd), CmdRuns s q pos 4 c →
      let b := c.bytes
      let k : Nat := cmdLe b 0x10 1
      let conn : Nat := cmdBf b 0x16 0 14
      (∀ code, (cmdBf b 0x11 2 1 = 0 ∨ cmdConnOk s c conn [] = true) → earlierDone s c = true → releaseLost s c = some code → Completes (.signal q pos) s (fun t =>
          CmdMoved s t c (fun y => { y with stage := 2, fault := y.fault <|> some ⟨code, 0, 0xFF, 0x12⟩ }) ∧ t = { s with cmds := t.cmds }))
      ∧ (∀ epoch, cmdBf b 0x11 2 1 = 0 → earlierDone s c = true → releaseLost s c = none → tilePowered s k = true → c.targets = [(k, epoch)] → boundUnder s (pTile k) (qGen s q) epoch = true →
        Completes (.signal q pos) s (fun t => CmdMoved s t c (fun y => { y with stage := 2 })
          ∧ t.sig k (cmdBf b 0x14 0 12) = sigApply (cmdBf b 0x11 0 2) (s.sig k (cmdBf b 0x14 0 12)) (cmdLe b 0x18 8)
          ∧ (∀ a, a < 0x1A00000 + 8 * cmdBf b 0x14 0 12 ∨ 0x1A00000 + 8 * cmdBf b 0x14 0 12 + 8 ≤ a → t.tb k a = s.tb k a) ∧ SignalOnly s { t with cmds := s.cmds } k))
      ∧ (cmdBf b 0x11 2 1 = 0 → earlierDone s c = false → Completes (.signal q pos) s (fun t => CmdMoved s t c id ∧ t = { s with cmds := t.cmds }))
      ∧ (cmdBf b 0x11 2 1 = 1 → cmdConnOk s c conn [] = false → Completes (.signal q pos) s (fun t =>
          CmdMoved s t c (fun y => { y with stage := 2, fault := y.fault <|> some ⟨0x2A, 0, 0xFF, 0x16⟩ }) ∧ t = { s with cmds := t.cmds }))
      ∧ (cmdBf b 0x11 2 1 = 1 → cmdConnOk s c conn [] = true → earlierDone s c = true → releaseLost s c = none → connState s conn = 3 → Completes (.signal q pos) s (fun t => ∃ u,
          CmdMoved s u c (fun y => { y with remote := 1, stage := 2 }) ∧ u = { s with cmds := u.cmds }
          ∧ t = connSend u conn ⟨4, cmdLe b 0x12 1, 8, 0, 3, s.rdF (pConn conn) 0x108 0 20, k + 256 * cmdBf b 0x14 0 12 + 2 ^ 20 * cmdBf b 0x11 0 2, slice b 0x18 8, .cmd c.uid 0⟩)))
  ∧ (∀ (s : State) (q : Nat) (pos : BitVec 32) (c : Cmd) (x : CPiece) (ret : List CPiece), CmdRuns s q pos 5 c → c.got = none → c.remote = 0 →
      dirPieces s c 0x18 4096 = .ok [x] → dirPieces s c 0x40 16 = .ok ret → (x :: ret).any (CPiece.far s) = false →
      let b := c.bytes
      let aop : Nat := cmdBf b 0x10 0 4
      let width : Nat := cmdBf b 0x10 4 2
      let fmt : Nat := cmdBf b 0x11 0 4
      let sz : Nat := atomSize aop width fmt
      (cmdLe b 0x18 8 % atomAlign aop width fmt = 0 → (ordRel (cmdLe b 0x12 1) = true → earlierDone s c = true ∧ releaseLost s c = none) → memHeld s .qeng x.a x.n = false → cmdOverlaps s c [x] = false → memFault s x.a sz = none →
        aop ≠ 0 ∨ sz ≠ 4 ∨ orwIndex s (sliceOf s x.a) x.a = none → aop ≤ 0xC → Completes (.atomic q pos) s (fun t =>
          t.hnat x.a sz = (atomNew aop width fmt (s.hnat x.a sz) (cmdLe b 0x20 (atomRet b)) (cmdLe b 0x30 (atomRet b))).1 % 2 ^ (8 * sz)
          ∧ (∀ a, a < x.a ∨ x.a + sz ≤ a → t.hb a = s.hb a)
          ∧ (cmdBf b 0x13 0 1 = 0 → CmdMoved s t c (fun k => { k with stage := 2 }))
          ∧ (cmdBf b 0x13 0 1 = 1 → CmdMoved s t c (fun k => { k with stage := 1, got := some (s.hnat x.a sz) }))
          ∧ t = { s with cmds := t.cmds, hbm := t.hbm, mem := t.mem, regs := t.regs, log := t.log }))
      ∧ (cmdLe b 0x18 8 % atomAlign aop width fmt ≠ 0 → Completes (.atomic q pos) s (fun t =>
          CmdMoved s t c (fun k => { k with stage := 2, fault := k.fault <|> some ⟨9, 0, 0xFF, 0x18⟩ }) ∧ t = { s with cmds := t.cmds })))

/-- Waiting, order and completion (03 R71, 09 R290-R294, 14_power_thermal.md R455): WAIT waits for its word and may time out; FENCE and NOP complete; PENNANT takes its tiles from the earlier ones of its queue until its end; a completed command's record of 32 bytes is written to the completion ring with its first fault, CQ_TAIL follows, and the command is gone. -/
def Obligations.CommandWaits : Prop :=
  (∀ (s : State) (q : Nat) (pos : BitVec 32) (c : Cmd), (CmdRuns s q pos 6 c → Completes (.wait q pos) s (fun t => CmdMoved s t c (fun k => { k with stage := 1 }) ∧ t = { s with cmds := t.cmds }))
    ∧ (CmdRuns s q pos 7 c → Completes (.fenceCommand q pos) s (fun t => CmdMoved s t c (fun k => { k with stage := 2 }) ∧ t = { s with cmds := t.cmds }))
    ∧ (CmdRuns s q pos 9 c → Completes (.nopCommand q pos) s (fun t => CmdMoved s t c (fun k => { k with stage := 2 }) ∧ t = { s with cmds := t.cmds }))
    ∧ (CmdRuns s q pos 8 c → Completes (.pennant q pos) s (fun t => CmdMoved s t c (fun k => { k with stage := 2 })
        ∧ t.pennants.getLast? = some ⟨q, cmdTiles c.bytes, cmdLe c.bytes 0x12 1, cmdLe c.bytes 0x14 4, cmdLe c.bytes 0x18 4, cmdLe c.bytes 0x1C 1, s.ref + 100 * cmdLe c.bytes 0x14 4⟩
        ∧ (∀ n ∈ t.pennants.dropLast, n.queue = q → ∀ k ∈ n.tiles, k ∉ cmdTiles c.bytes) ∧ (∀ n ∈ s.pennants, n.queue ≠ q → n.tiles ≠ [] → n ∈ t.pennants)
        ∧ t = { s with cmds := t.cmds, pennants := t.pennants })))
  ∧ (∀ (s : State) (q : Nat) (pos : BitVec 32) (c : Cmd), q < 16384 → alive s = true → cmdAt s q pos.toNat 6 = some c → c.stage = 1 →
      (∀ x : CPiece, dirPieces s c 0x10 8 = .ok [x] → memHeld s .qeng x.a 8 = false → CPiece.far s x = false → cmdOverlaps s c [x] = false → memFault s x.a 8 = none →
        let word : Nat := s.hnat x.a 8
        let value : Nat := cmdLe c.bytes 0x20 8
        let cond : Nat := cmdBf c.bytes 0x18 0 2
        let met : Prop := (cond = 0 ∧ value ≤ word) ∨ (cond = 1 ∧ word = value) ∨ (cond = 2 ∧ word ≠ value) ∨ (cond = 3 ∧ word &&& value ≠ 0)
        (met → Completes (.waitConditionMet q pos) s (fun t => t.cmds = lupdate (fun k => decide (k.uid = c.uid)) (fun k => { k with stage := 2 }) s.cmds
          ∧ t = { s with cmds := t.cmds, regs := t.regs, log := t.log, mem := t.mem }))
        ∧ (¬ met → Idle (.waitConditionMet q pos) s))
      ∧ (s.rdF (pQueue q) 0x138 0 16 ≠ 0 → c.since + 100000 * s.rdF (pQueue q) 0x138 0 16 ≤ s.ref → Completes (.waitTimeout q pos) s (fun t =>
          t.cmds = lupdate (fun k => decide (k.uid = c.uid)) (fun k => { k with stage := 2, fault := k.fault <|> some ⟨0x36, 0, 0xFF, 0⟩ }) s.cmds ∧ t = { s with cmds := t.cmds }))
      ∧ (s.rdF (pQueue q) 0x138 0 16 = 0 ∨ s.ref < c.since + 100000 * s.rdF (pQueue q) 0x138 0 16 → Idle (.waitTimeout q pos) s))
  ∧ (∀ (s : State) (q k : Nat) (n : Pennant), q < 16384 → (s.pennants.filter (fun p => decide (p.queue = q)))[k]? = some n →
      (n.stop ≤ s.ref → Completes (.pennantExpiry q k) s (fun t => t = { s with pennants := lremoveFirst (fun x => decide (x = n)) s.pennants }))
      ∧ (s.ref < n.stop → Idle (.pennantExpiry q k) s))
  ∧ (∀ (s : State) (q : Nat) (pos : BitVec 32) (c : Cmd), q < 16384 → alive s = true →
      s.cmds.find? (fun c => decide (c.queue = q ∧ c.pos = pos.toNat) && (if c.bad then cqRoom s q else cmdDone s c)) = some c →
      let p : Page := pQueue q
      let seq : Nat := (s.q q).seq + 1
      let a : Nat := s.base p 0x110 + 32 * ((seq - 1) % cqEntries s q)
      let f : CmdFault := c.fault.getD ⟨0, 0, 0xFF, 0⟩
      let rec32 : List Byte := toLE 8 seq ++ toLE 8 c.tag ++ toLE 4 c.pos ++ toLE 4 (s.rd p 0x204) ++ toLE 1 f.code ++ toLE 1 f.unit ++ toLE 1 f.tile ++ toLE 1 c.op ++ toLE 4 f.detail
      (memHeld s .qeng a 32 = true → Idle (.completionRecord q pos) s)
      ∧ (memHeld s .qeng a 32 = false → memFault s a 32 = none → Completes (.completionRecord q pos) s (fun t =>
          (∀ i, i < 32 → t.hb (a + i) = (rec32[i]?).getD 0) ∧ (∀ k, k < a ∨ a + 32 ≤ k → t.hb k = s.hb k)
          ∧ t.rd p 0x20C = seq % 2 ^ 32 ∧ (t.q q).seq = seq ∧ t.cmds = lremoveFirst (fun x => decide (x.uid = c.uid)) s.cmds
          ∧ (f.code ≠ 0 → t.rdB p 0x18 9 = true ∧ (s.rdB p 0x220 31 = false → t.rd p 0x220 = (f.code + 2 ^ 31) % 2 ^ 32 ∧ t.rd p 0x224 = c.pos % 2 ^ 32 ∧ t.rd p 0x228 = f.detail % 2 ^ 32))
          ∧ (c.notify = true → t.rdB p 0x18 12 = true))))

/-! Translation and migration. -/

/-- Handler requests and invalidation (10_translation.md R314, R315, R317, R325): a response to no outstanding request is flagged; a refusal or the limit fails the commands that wait with XLAT_FAULT; a retry translates them again; HREQ_HEAD never passes HREQ_TAIL; an invalidation ends with its entries gone, and with waits only after the commands accepted before it. -/
def Obligations.Translation : Prop :=
  (∀ (s : State) (n : BitVec 32), served s = true → s.xlat.reqs.find? (fun r => decide (r.seq = n.toNat)) = none →
      Completes (.missRespRetry n) s (fun t => OneFlag s t pXlat 12) ∧ Completes (.missRespRefuse n) s (fun t => OneFlag s t pXlat 12))
  ∧ (∀ (s : State) (n : BitVec 32) (r : MissReq), s.xlat.reqs.find? (fun r => decide (r.seq = n.toNat)) = some r →
      let rest : List MissReq := s.xlat.reqs.filter (fun x => decide (x.seq ≠ r.seq))
      let answered (u : State) : Prop := u.rd pXlat 0x210 = rest.length % 2 ^ 32 ∧ RegsKept s u [(pXlat, 0x210)]
        ∧ u = { s with regs := u.regs, xlat := { s.xlat with reqs := rest } }
      let failed (q : Nat) (b : List Byte) (cause : Nat) (t : State) : Prop := ∃ u off, answered u
        ∧ (∃ v, WordsAndFlag u v [(pXlat, 0x220), (pXlat, 0x228), (pXlat, 0x22C), (pXlat, 0x230), (pXlat, 0x234)] pXlat 9 ∧ CheckFailed v t q b 0x35 off)
        ∧ (s.rdB pXlat 0x220 31 = false → t.rd pXlat 0x220 = cause + 2 ^ 16 * s.rdF (pQueue q) 0x120 0 12 + 2 ^ 31
            ∧ t.rd64 pXlat 0x228 = r.page * 4096 % 2 ^ 64 ∧ t.rd pXlat 0x230 = q % 2 ^ 32)
      (missWaiters s r.seq = [] →
        (served s = true → Completes (.missRespRetry n) s answered ∧ Completes (.missRespRefuse n) s answered)
        ∧ (alive s = true → n ≠ 0 → r.since + 100000 * s.rdF pXlat 0x104 0 16 ≤ s.ref → Completes (.missTimeout n) s answered))
      ∧ (∀ q b, q < 16384 → missWaiters s r.seq = [(q, b)] →
        (served s = true → fetchOn s q = true → Completes (.missRespRetry n) s (fun t => ∃ u, answered u ∧ t = tryAccept u q b none))
        ∧ (served s = true → fetchOn s q = false → Completes (.missRespRetry n) s (fun t => (t.q q).held = some (b, .again) ∧ t.cmds = s.cmds ∧ t.xlat.reqs = rest))
        ∧ (served s = true → Completes (.missRespRefuse n) s (failed q b 1))
        ∧ (alive s = true → n ≠ 0 → r.since + 100000 * s.rdF pXlat 0x104 0 16 ≤ s.ref → Completes (.missTimeout n) s (failed q b 2)))
      ∧ (n ≠ 0 → s.ref < r.since + 100000 * s.rdF pXlat 0x104 0 16 → Idle (.missTimeout n) s))
  ∧ (∀ (s : State) (v : BitVec 32), served s = true →
      let d : Nat := diff32 v.toNat (s.rd pXlat 0x200)
      (1 ≤ d ∧ d ≤ 2 ^ 31 → Completes (.hreqHeadWrite v) s (fun t => OneFlag s t pXlat 2))
      ∧ (d = 0 ∨ 2 ^ 31 < d → Completes (.hreqHeadWrite v) s (fun t => t.rd pXlat 0x204 = v.toNat ∧ OnlyWords s t [(pXlat, 0x204)])))
  ∧ (∀ (s : State) (w : Bool), served s = true → ∀ c ∈ [(Instr.invAll w, 0), (.invCtx w, 1), (.invPages w, 2)],
      (s.xlat.inv = none → Completes c.1 s (fun t => ∃ op : InvOp,
        op.mode = c.2 ∧ op.ctx = s.rdF pXlat 0x344 0 12 ∧ op.va = s.rd64 pXlat 0x348 ∧ op.pages = s.rd pXlat 0x350
        ∧ (∀ u, u ∈ op.waits ↔ w = true ∧ ∃ k ∈ s.cmds, k.uid = u ∧ k.bad = false ∧ (c.2 = 0 ∨ k.ctx = op.ctx))
        ∧ t.rd pXlat 0x354 = 1 ∧ RegsKept s t [(pXlat, 0x340), (pXlat, 0x354)] ∧ t = { s with regs := t.regs, xlat := { s.xlat with inv := some op } }))
      ∧ (s.xlat.inv ≠ none → Completes c.1 s (fun t => t.rdB pXlat 0x354 1 = true ∧ t.rdB pXlat 0x354 0 = s.rdB pXlat 0x354 0
          ∧ OnlyWords s t [(pXlat, 0x340), (pXlat, 0x354)])))
  ∧ (∀ (s : State) (i : InvOp), alive s = true → s.xlat.inv = some i →
      let left : Xlat := { s.xlat with
        tlb := s.xlat.tlb.filter (fun e => !invHits i.mode i.ctx i.va i.pages e)
        ptes := s.xlat.ptes.filter (fun e => decide (¬ (i.mode = 0 ∨ (i.mode ≤ 2 ∧ e.ctx = i.ctx))))
        ctxs := s.xlat.ctxs.filter (fun e => decide (¬ (i.mode = 0 ∨ (i.mode = 1 ∧ e.ctx = i.ctx)))) }
      ((∀ c ∈ s.cmds, c.uid ∈ i.waits → cmdDone s c = true) → Completes .invEnd s (fun t =>
        t.rdB pXlat 0x354 0 = false ∧ t.rd pXlat 0x358 = (s.rd pXlat 0x358 + 1) % 2 ^ 32 ∧ RegsKept s t [(pXlat, 0x354), (pXlat, 0x358)]
        ∧ t = { s with regs := t.regs, xlat := { left with inv := none } }))
      ∧ ((∃ c ∈ s.cmds, c.uid ∈ i.waits ∧ cmdDone s c = false) → Completes .invEnd s (fun t =>
          t = { s with xlat := { left with inv := some { i with mode := 3 } } })))

/-- Access counters and migration (10 R318-R323): a counted access is added to its counter, which stops at its greatest value and is reported when it reaches the threshold; a migration is refused, discarded or begun; once the commands accepted before have completed, each leaf's bytes are at their destination and its entries name it; the last leaf completes the operation, an error, and a connection that is not there for a remote leaf, stops it with its cause. -/
def Obligations.Migration : Prop :=
  (∀ (s : State), s.mem.counted = [] → Idle .accessCountUpdate s)
  ∧ (∀ (s : State) (r i n : Nat) (rest : List (Nat × Nat × Nat)), s.mem.counted = (r, i, n) :: rest → alive s = true →
      let a : Nat := s.base pXlat 0x128 + r * 2 ^ 20 + 4 * i
      let v : Nat := min (s.hnat a 4 + n) (2 ^ 32 - 1)
      let th : Nat := s.rd pXlat (0x14C + 16 * r)
      let added (t : State) : Prop := t.hnat a 4 = v ∧ (∀ k, k < a ∨ a + 4 ≤ k → t.hb k = s.hb k) ∧ t.mem.counted = rest
      memHeld s .hostDie a 4 = false → memFault s a 4 = none →
        (¬ (s.hnat a 4 < th ∧ th ≤ v) → Completes .accessCountUpdate s (fun t => added t ∧ t.rd pXlat 0x200 = s.rd pXlat 0x200 ∧ t.log = s.log))
        ∧ (s.hnat a 4 < th ∧ th ≤ v → hreqFull s = true → Completes .accessCountUpdate s (fun t =>
            added t ∧ t.rd pXlat 0x214 = (s.rd pXlat 0x214 + 1) % 2 ^ 32 ∧ t.rd pXlat 0x200 = s.rd pXlat 0x200 ∧ Flagged s t pXlat 11))
        ∧ (s.hnat a 4 < th ∧ th ≤ v → hreqFull s = false → hreqBlocked s = true → Idle .accessCountUpdate s)
        ∧ (s.hnat a 4 < th ∧ th ≤ v → hreqBlocked s = false → Completes .accessCountUpdate s (fun t =>
            t.rd pXlat 0x200 = (s.rd pXlat 0x200 + 1) % 2 ^ 32 ∧ t.rdB pXlat 0x18 10 = true ∧ t.mem.counted = rest)))
  ∧ (∀ (s : State), served s = true →
      let ctx : Nat := s.rdF pXlat 0x300 0 12
      let conn : Nat := s.rdF pXlat 0x300 16 14
      let va : Nat := s.rd64 pXlat 0x308
      let dst : Nat := s.rd64 pXlat 0x310
      let pages : Nat := s.rdF pXlat 0x318 0 24
      let refused (n cause : Nat) (t : State) : Prop := t.rd pXlat 0x320 = cause ∧ WordsAndFlag s t [(pXlat, 0x320)] pXlat n
      (s.xlat.mig ≠ none → Completes .migrationGo s (refused 13 1))
      ∧ (s.xlat.mig = none → pages = 0 ∨ va % 4096 ≠ 0 → Completes .migrationGo s (refused 7 2))
      ∧ (s.xlat.mig = none → pages ≠ 0 → va % 4096 = 0 → ∀ leaves, migLeaves s ctx (va + 4096 * pages) (pages + 1) va = .ok leaves →
          (∀ cause, migBad s dst (4096 * pages) conn leaves = some cause → Completes .migrationGo s (refused 7 cause))
          ∧ (migBad s dst (4096 * pages) conn leaves = none → Completes .migrationGo s (fun t => ∃ m : Mig,
              t.xlat = { s.xlat with mig := some m, tlb := s.xlat.tlb.filter (fun e => !invHits 2 ctx va pages e), ptes := s.xlat.ptes.filter (fun e => decide (e.ctx ≠ ctx)) }
              ∧ m.ctx = ctx ∧ m.conn = conn ∧ m.va = va ∧ m.dst = dst ∧ m.pages = pages ∧ m.pos = 0
              ∧ (∀ u, u ∈ m.waits ↔ ∃ k ∈ s.cmds, k.uid = u ∧ k.bad = false ∧ k.ctx = ctx)
              ∧ t.rd pXlat 0x320 = 0 ∧ t.rd pXlat 0x20 = 0 ∧ t.rdB pXlat 0x14 3 = true
              ∧ RegsKept s t [(pXlat, 0x320), (pXlat, 0x20), (pXlat, 0x14)] ∧ t = { s with regs := t.regs, xlat := t.xlat, nextUid := s.nextUid + 1 }))))
  ∧ (∀ (s : State), s.xlat.mig = none → Idle .migrationLeaf s)
  ∧ (∀ (s : State) (m : Mig) (a pte l x y : Nat), Canonical s → s.xlat.mig = some m → alive s = true → cmdsDone s m.waits = true → m.parts = 0 → m.sent = false →
      pXlat ∉ s.stalls → ctxLeaf s m.ctx (m.va + 4096 * m.pos) = .ok (a, pte, l) →
      let n : Nat := 2 ^ leafLog pte l
      let k : Nat := if bit pte 63 then 16 else 1
      let a0 : Nat := a / (8 * k) * (8 * k)
      let ga : Nat := m.dst + 4096 * m.pos
      (m.va + 4096 * m.pos) % n = 0 → m.pos + n / 4096 ≤ m.pages → locate s (leafGa pte l) n = .loc x → locate s ga n = .loc y →
      memHeld s .hostDie (a / 128 * 128) 128 = false → memHeld s .hostDie x n = false → memHeld s .hostDie y n = false → memFault s x n = none → failedAt s y n = none → memFault s a0 (8 * k) = none →
      a0 + 8 * k ≤ y ∨ y + n ≤ a0 →
        Completes .migrationLeaf s (fun t =>
          (∀ i, i < n → t.hb (y + i) = s.hb (x + i))
          ∧ (∀ i, i < k → t.hnat (a0 + 8 * i) 8 =
              putBits (putBits (s.hnat (a0 + 8 * i) 8) 10 44 (bits ga 12 44 + (if bit (s.hnat (a0 + 8 * i) 8) 63 then 8 else 0))) 54 4 (bits ga 56 4) % 2 ^ 64)
          ∧ (∀ b, (b < y ∨ y + n ≤ b) → (b < a0 ∨ a0 + 8 * k ≤ b) → t.hb b = s.hb b)
          ∧ (m.pos + n / 4096 < m.pages → t.xlat.mig = some { m with pos := m.pos + n / 4096, parts := 0, sent := false } ∧ t.log = s.log
              ∧ t.rd pXlat 0x20 = progressWord (m.pos + n / 4096) m.pages 1 % 2 ^ 32)
          ∧ (m.pages ≤ m.pos + n / 4096 → t.xlat.mig = none ∧ t.rdB pXlat 0x14 3 = false ∧ Flagged s t pXlat 6
              ∧ t.rd pXlat 0x20 = progressWord m.pages m.pages 1 % 2 ^ 32)))
  ∧ (∀ (s : State) (m : Mig) (a pte l x node y : Nat), s.xlat.mig = some m → alive s = true → cmdsDone s m.waits = true → m.parts = 0 → m.sent = false →
      pXlat ∉ s.stalls → ctxLeaf s m.ctx (m.va + 4096 * m.pos) = .ok (a, pte, l) → memHeld s .hostDie (a / 128 * 128) 128 = false →
      let n : Nat := 2 ^ leafLog pte l
      (m.va + 4096 * m.pos) % n = 0 → m.pos + n / 4096 ≤ m.pages → locate s (leafGa pte l) n = .loc x → locate s (m.dst + 4096 * m.pos) n = .remote node y →
      (connState s m.conn = 0 ∨ connState s m.conn = 4 ∨ connState s m.conn = 5 → Completes .migrationLeaf s (fun t =>
        t.xlat.mig = none ∧ t.rd pXlat 0x320 = 5 ∧ t.rdB pXlat 0x14 3 = false ∧ t.rdB pXlat 0x18 7 = true ∧ t.hbm = s.hbm
        ∧ t = { s with regs := t.regs, log := t.log, xlat := { s.xlat with mig := none } }))
      ∧ (connState s m.conn = 1 ∨ connState s m.conn = 2 → Idle .migrationLeaf s))

/-! Cache slices, memory controllers and their repair. -/

/-- Requests at a slice (11_memory_system.md R334-R345, 03_memory_model.md R84, R90, R101, R102): a read changes no memory and leaves its blocks present; a corrected error is counted and makes the block dirty, an uncorrectable one of the frame makes its row fail, one of the slice's SRAM does not; a write changes its bytes alone and makes them valid, or waits for the fill of a block that it covers in part; an atomic leaves what its operation gives; a round combines its ranks' elements in order and then counts itself done, or fails with its cause. A hart's request goes to the slices through an NC or IO mapping; through a PMA mapping it acts on the host caches, which its cache operations write back; LR and SC to a mapping that is not PMA, and what lies past the end of HBM, are its access faults (how a hart's access enters the model is log entry 152, which line a slice replaces entry 153). -/
def Obligations.Slices : Prop :=
  let calm (s : State) (addr len : Nat) : Prop := ∀ w ∈ s.mem.fillWait, (addr + len - 1) / 64 < w.addr / 64 ∨ (w.addr + w.data.length - 1) / 64 < addr / 64
  let plain (s : State) (r : Requester) : Prop := ∀ n how, r = .hart n how → how = .nc ∧ hartRuns s n = true ∧ s.hcache.wait = []
  let counted (s t : State) (b : Nat) : Prop := ∀ k,
    fget (fun _ => 0) t.mem.hits k = fget (fun _ => 0) s.mem.hits k + (if k = sliceOf s (64 * b) ∧ fget (fun _ => 0) s.mem.sectors b ≠ 0 then 1 else 0)
    ∧ fget (fun _ => 0) t.mem.misses k = fget (fun _ => 0) s.mem.misses k + (if k = sliceOf s (64 * b) ∧ fget (fun _ => 0) s.mem.sectors b = 0 then 1 else 0)
  (∀ (s : State) (r : Requester) (addr len : Nat), alive s = true → 0 < len → len ≤ 4096 → memHeld s r addr len = false → inHbm s addr len = true → calm s addr len → plain s r →
      let c : Nat := sliceOf s addr
      let touched (t : State) (dirty : Bool) : Prop := ∀ b, addr / 64 ≤ b → b ≤ (addr + len - 1) / 64 →
        fget (fun _ => 0) t.mem.sectors b = if dirty = true ∨ fget (fun _ => 0) s.mem.sectors b = 2 then 2 else 1
      let one (t : State) : Prop := (addr + len - 1) / 64 = addr / 64 → counted s t (addr / 64)
      Completes (.sliceRead r addr len .clean) s (fun t => t.hbm = s.hbm ∧ t.raw = s.raw ∧ (memFault s addr len = none → t.log = s.log ∧ touched t false ∧ one t)
        ∧ (∀ b, memFault s addr len = some (0x10, b) → Flagged s t (pCache (sliceOf s b)) 9)
        ∧ (∀ n how, r = .hart n how → memFault s addr len ≠ none → HartFaulted { s with regs := t.regs, log := t.log } t n addr false))
      ∧ Completes (.sliceRead r addr len .corrected) s (fun t => t.hbm = s.hbm ∧ t.raw = s.raw ∧ t.rd (pHbmc c) 0x220 = (s.rd (pHbmc c) 0x220 + 1) % 2 ^ 32
          ∧ t.rdB (pHbmc c) 0x18 8 = true ∧ fget (fun _ => 0) t.mem.sectors (addr / 64) = 2)
      ∧ Completes (.sliceRead r addr len .sramCorrected) s (fun t => t.hbm = s.hbm ∧ t.raw = s.raw ∧ t.rd (pCache c) 0x210 = (s.rd (pCache c) 0x210 + 1) % 2 ^ 32
          ∧ t.rdB (pCache c) 0x18 8 = true ∧ fget (fun _ => 0) t.mem.sectors (addr / 64) = 2)
      ∧ Completes (.sliceRead r addr len .uncorrectable) s (fun t => t.hbm = s.hbm ∧ addr / 64 ∈ t.raw ∧ t.rd (pHbmc c) 0x224 = (s.rd (pHbmc c) 0x224 + 1) % 2 ^ 32
          ∧ t.rdB (pHbmc c) 0x18 9 = true ∧ hbmRowOf s addr ∈ t.mem.failing)
      ∧ Completes (.sliceRead r addr len .sramUncorrectable) s (fun t => t.hbm = s.hbm ∧ addr / 64 ∈ t.raw ∧ t.rd (pHbmc c) 0x224 = s.rd (pHbmc c) 0x224 ∧ t.mem.failing = s.mem.failing)
      ∧ (∀ data : List Byte, data.length = len →
          let failed (a : Nat) : Bool := s.mem.failed.contains (homeStack (mapKey s) (a / 256))
          (needsFill s addr len = true → Completes (.sliceWrite r addr data) s (fun t => t = { s with mem := { s.mem with fillWait := s.mem.fillWait ++ [⟨r, addr, data⟩] } }))
          ∧ (needsFill s addr len = false → partRaw s addr len = [] → Completes (.sliceWrite r addr data) s (fun t =>
              (∀ i, i < len → t.hb (addr + i) = if failed (addr + i) = true then s.hb (addr + i) else (data[i]?).getD 0)
              ∧ (∀ a, a < addr ∨ addr + len ≤ a → t.hb a = s.hb a)
              ∧ (∀ b, b ∈ t.raw ↔ b ∈ s.raw ∧ ¬ (addr ≤ 64 * b ∧ 64 * b + 64 ≤ addr + len ∧ failed (64 * b) = false))
              ∧ touched t true ∧ one t ∧ ((∀ n how, r ≠ .hart n how) ∨ failedAt s addr len = none → t.log = s.log)))
          ∧ (needsFill s addr len = false → partRaw s addr len ≠ [] → Completes (.sliceWrite r addr data) s (fun t =>
              (∀ n how, r = .hart n how → t.rd (pCache c) 0x21C = (s.rd (pCache c) 0x21C + 1) % 2 ^ 32 ∧ t.rdB (pCache c) 0x18 10 = true)
              ∧ ((∀ n how, r ≠ .hart n how) → t.rd (pCache c) 0x21C = s.rd (pCache c) 0x21C)
              ∧ (∀ a, a < addr ∨ addr + len ≤ a ∨ a / 64 ∈ partRaw s addr len → t.hb a = s.hb a)))))
  ∧ (∀ (s : State) (r : Requester) (a : Nat) (y : AtomArg) (ord : BitVec 8),
      let aop : Nat := y.aop.toNat
      let sz : Nat := atomSize aop y.width.toNat y.fmt.toNat
      let old : Nat := s.hnat a sz
      let v : Nat := (atomOperandsOf y).1
      let cmp : Nat := (atomOperandsOf y).2
      let bad : Bool := decide (a % atomAlign aop y.width.toNat y.fmt.toNat ≠ 0) || ordBad ord.toNat [0, 1, 2, 3] [0, 1, 2, 3, 4]
      (bad = true → Idle (.sliceAtomic r a y ord) s)
      ∧ (bad = false → alive s = true → 0 < sz → memHeld s r a sz = false → memFault s a sz = none → calm s a sz → plain s r →
        let free : Prop := aop = 0 ∧ sz = 4 → orwIndex s (sliceOf s a) a = none
        Completes (.sliceAtomic r a y ord) s (fun t => (∀ k, k < a ∨ a + sz ≤ k → t.hb k = s.hb k)
        ∧ (∀ j, aop = 0 → sz = 4 → orwIndex s (sliceOf s a) a = some j →
            let x : Nat := (atomNew 0 y.width.toNat y.fmt.toNat old v cmp).1
            let n : Nat := s.hnat (a + 8) 4
            (n ≤ x → t.hnat a 4 = (x - n) % 2 ^ 32 ∧ ∃ h, t.mem.rounds = s.mem.rounds ++ [⟨sliceOf s a, j, a, h⟩])
            ∧ (x < n → t.hnat a 4 = x % 2 ^ 32 ∧ t.mem.rounds = s.mem.rounds))
        ∧ (aop ≤ 0xC → free → t.hnat a sz = (atomNew aop y.width.toNat y.fmt.toNat old v cmp).1 % 2 ^ (8 * sz))
        ∧ (aop = 0xD → t.hnat a sz = (cellAddImg y.fmt.toNat old v).1 % 2 ^ (8 * sz))
        ∧ (aop = 0xE → t.hnat a sz = if bit y.operand.toNat 0 then 0 else old) ∧ (aop = 0xF → t.hnat a sz = 0)
        ∧ t.rd (pCache (sliceOf s a)) 0x20C = (s.rd (pCache (sliceOf s a)) 0x20C + 1) % 2 ^ 32 ∧ t.log = s.log)))
  ∧ (∀ (s : State) (n addr len : Nat) (y : AtomArg) (data : List Byte) (ord : BitVec 8), alive s = true → hartRuns s n = true → s.hcache.wait = [] → 0 < len → data.length = len →
      let line (s : State) (b : Nat) : Nat := fget (fun _ => 0) s.hcache.lines b
      let cached (s : State) (a : Nat) : Byte := fget byte0 s.hcache.bytes a
      let fills : Prop := addr + len ≤ memEnd s ∧ ∀ b ∈ hostMisses s addr len,
        memHeld s (.hart n .pma) (64 * b) 64 = false ∧ memFault s (64 * b) 64 = none ∧ calm s (64 * b) 64
      let seen (a : Nat) : Byte := if a / 64 ∈ hostMisses s addr len then s.hb a else cached s a
      let amo : Prop := len = atomSize y.aop.toNat y.width.toNat y.fmt.toNat ∧ addr % atomAlign y.aop.toNat y.width.toNat y.fmt.toNat = 0
        ∧ ordBad ord.toNat [0, 1, 2, 3] [0, 1, 2, 3, 4] = false
      (fills → Completes (.sliceRead (.hart n .pma) addr len .clean) s (fun t => t.hbm = s.hbm ∧ t.log = s.log ∧ (t.hart n).wait = none
          ∧ (∀ b ∈ blocksOf addr len, line t b = if line s b = 0 then 1 else line s b) ∧ ∀ a, cached t a = seen a))
      ∧ (fills → Completes (.sliceWrite (.hart n .pma) addr data) s (fun t => t.hbm = s.hbm ∧ t.log = s.log ∧ (t.hart n).wait = none
          ∧ (∀ b ∈ blocksOf addr len, line t b = 2) ∧ ∀ a, cached t a = if addr ≤ a ∧ a < addr + len then (data[a - addr]?).getD 0 else seen a))
      ∧ (fills → amo → y.aop.toNat ≤ 9 → y.width.toNat ≤ 1 → Completes (.sliceAtomic (.hart n .pma) addr y ord) s (fun t => t.hbm = s.hbm ∧ t.log = s.log
          ∧ (∀ b ∈ blocksOf addr len, line t b = 2)
          ∧ (let old : Nat := leNat ((List.range len).map (fun i => seen (addr + i)))
             ∀ i, i < len → cached t (addr + i) = BitVec.ofNat 8 ((atomNew y.aop.toNat y.width.toNat y.fmt.toNat old (atomOperandsOf y).1 (atomOperandsOf y).2).1 / 2 ^ (8 * i)))))
      ∧ (∀ b f, addr + len ≤ memEnd s → hostMisses s addr len = [b] → memHeld s (.hart n .pma) (64 * b) 64 = false → calm s (64 * b) 64 → memFault s (64 * b) 64 = some f →
          Completes (.sliceRead (.hart n .pma) addr len .clean) s (fun t => HartFaulted (afterFault s (.hart n .pma) f) t n addr false)
          ∧ Completes (.sliceWrite (.hart n .pma) addr data) s (fun t => HartFaulted (afterFault s (.hart n .pma) f) t n addr true))
      ∧ (∀ how, how = .lrsc ∨ ((how = .nc ∨ how = .pma) ∧ memEnd s < addr + len) →
          Completes (.sliceRead (.hart n how) addr len .clean) s (fun t => HartFaulted s t n addr false)
          ∧ Completes (.sliceWrite (.hart n how) addr data) s (fun t => HartFaulted s t n addr true)
          ∧ (amo → Completes (.sliceAtomic (.hart n how) addr y ord) s (fun t => HartFaulted s t n addr true)))
      ∧ (∀ how b, how = .clean ∨ how = .flush ∨ how = .inval ∨ how = .evict → blocksOf addr len = [b] →
          let back : Bool := decide (line s b = 2 ∧ how ≠ .inval)
          (back = true → memHeld s (.hart n .evict) (64 * b) 64 = false → inHbm s (64 * b) 64 = true → s.mem.failed = [] → calm s (64 * b) 64 →
            Completes (.sliceRead (.hart n how) addr len .clean) s (fun t => (∀ a, t.hb a = if a / 64 = b then cached s a else s.hb a)
              ∧ line t b = (if how = .clean then 1 else 0) ∧ t.hcache.wait = []))
          ∧ (back = true → memHeld s (.hart n .evict) (64 * b) 64 = true → Completes (.sliceRead (.hart n how) addr len .clean) s (fun t =>
              t = { s with hcache := { s.hcache with wait := [(n, b, decide (how ≠ .clean))] } } ∧ Idle (.sliceWrite (.hart n .nc) addr data) t
              ∧ Idle (.sliceWrite (.hart n .pma) addr data) t))
          ∧ (back = false → Completes (.sliceRead (.hart n how) addr len .clean) s (fun t =>
              line t b = (if how = .clean then line s b else 0) ∧ t = { s with hcache := t.hcache } ∧ ∀ k, k ≠ b → line t k = line s k))))
  ∧ (∀ (s : State) (b : Nat), alive s = true → memHeld s .misc (64 * b) 64 = false → inHbm s (64 * b) 64 = true →
      (fget (fun _ => 0) s.mem.sectors b ≠ 0 → ∀ e, Idle (.sectorFill b e) s)
      ∧ (fget (fun _ => 0) s.mem.sectors b = 0 → calm s (64 * b) 64 → Completes (.sectorFill b .clean) s (fun t =>
          fget (fun _ => 0) t.mem.sectors b = 1
          ∧ (∀ k, homeStack (mapKey s) (k / 4) ≠ homeStack (mapKey s) (b / 4) ∨ k / 4 % 32768 ≠ b / 4 % 32768 → fget (fun _ => 0) t.mem.sectors k = fget (fun _ => 0) s.mem.sectors k)
          ∧ t = { s with mem := { s.mem with sectors := t.mem.sectors, wbacks := t.mem.wbacks } }))
      ∧ (∀ w : FillWait, fget (fun _ => 0) s.mem.sectors b = 0 → s.mem.fillWait = [w] → 64 * b ≤ w.addr → w.addr + w.data.length ≤ 64 * b + 64 → 0 < w.data.length →
          b ∉ s.raw → s.mem.failed = [] → Completes (.sectorFill b .clean) s (fun t => t.mem.fillWait = [] ∧ fget (fun _ => 0) t.mem.sectors b = 2
            ∧ (∀ a, t.hb a = if w.addr ≤ a ∧ a < w.addr + w.data.length then (w.data[a - w.addr]?).getD 0 else s.hb a) ∧ t.log = s.log)))
  ∧ (∀ (s : State) (d : OrwRound), d.c < 12 → alive s = true → s.mem.rounds.find? (fun x => decide (x.c = d.c ∧ x.j = d.j)) = some d → orwHeld s d = false →
      let h := d.hdr
      let fmt : Nat := bits (leAt h 0xC 1) 4 4
      let size : Nat := if fmt = 0 then 8 else 4
      let n : Nat := leAt h 8 4
      let elems : Nat := leAt h 0x1C 2
      let base : Nat := leAt h 0x10 8
      let stride : Nat := leAt h 0x18 4
      let res : Nat := leAt h 0x20 8
      let done (t : State) (fail : Bool) : Prop := t.hnat (d.addr + 4) 4 = (s.hnat (d.addr + 4) 4 + 1) % 2 ^ 31 + (if fail then 2 ^ 31 else 0)
        ∧ t.rd (pCache d.c) 0x218 = (s.rd (pCache d.c) 0x218 + 1) % 2 ^ 32 ∧ t.mem.rounds = lremoveFirst (fun x => decide (x = d)) s.mem.rounds
      let failed (t : State) (cause : Nat) : Prop := done t true ∧ t.hnat (d.addr + 0x28) 4 = cause ∧ t.rdB (pCache d.c) 0x18 11 = true
        ∧ (s.rdB (pCache d.c) 0x230 31 = false → t.rd (pCache d.c) 0x230 = (d.j + 2 ^ 16 * cause + 2 ^ 31) % 2 ^ 32)
      let placed : Bool := inHbm s (base + stride * (n - 1)) (elems * size) && inHbm s res (elems * size)
      (orwBad h = true → Completes (.orwRound d.c d.j) s (fun t => failed t 2))
      ∧ (orwBad h = false → placed = false → Completes (.orwRound d.c d.j) s (fun t => failed t 3))
      ∧ (orwBad h = false → placed = true → (∃ k, k < n ∧ memFault s (base + stride * k) (elems * size) ≠ none) → Completes (.orwRound d.c d.j) s (fun t => failed t 1))
      ∧ (orwBad h = false → placed = true → (∀ k, k < n → memFault s (base + stride * k) (elems * size) = none) → memFault s res (elems * size) = none →
          d.addr + 64 ≤ res ∨ res + elems * size ≤ d.addr → Completes (.orwRound d.c d.j) s (fun t => done t false
            ∧ ∀ i, i < elems → ∀ v, (List.range n).map (fun k => s.hnat (base + stride * k + size * i) size) = v →
                t.hnat (res + size * i) size = (orwFold (leAt h 0xC 1 % 16) fmt (rndOf (leAt h 0xD 1) Config.roundSeed i) v.tail ((v.head?).getD 0, .zero)).1 % 2 ^ (8 * size))))
  ∧ (∀ (s : State) (p : Page), reached s p = true → pageOk p = true → p.blk = .tile ∨ p.blk = .cache →
      Completes (.scopeClearLast p) s (fun t => t.rdB p 0x6FC 31 = false ∧ OnlyWords s t [(p, 0x6FC)]))

/-- Repair, retirement, map-out, patrol, throttling and scrubs (11 R346-R362): what each does to its stack. -/
def Obligations.MemoryUpkeep : Prop :=
  ∀ (s : State) (st : Nat), st < 12 → alive s = true →
    let p : Page := pHbmc st
    let due (x : Nat) : Bool := !mappedOut s st x && decide (s.rdF p 0x108 8 8 < s.rdF p (0x300 + 4 * (x / 4)) (8 * (x % 4)) 8)
    (∀ pc bank row ok, pc < 64 → bank < 16 → row < 73728 →
      let k : Nat := rowKey st pc bank row
      let b : Nat := (st * 64 + pc) * 16 + bank
      let spent : Prop := 2 ≤ fget (fun _ => 0) s.mem.rowRep k ∨ 2 ≤ fget (fun _ => 0) s.mem.bankSpare b
      let old : Prop := ∃ r ∈ s.mem.retired, r.st = st ∧ r.pc = pc ∧ r.bank = bank ∧ r.row = row
      let raw : List Nat := s.raw.filter (fun x => (rowGranules s st pc bank row).contains (x / 4) && decide (64 * x + 64 ≤ memEnd s))
      let events (t : State) : Prop := ∀ x ∈ raw, t.rdB (pCache (sliceOf s (64 * x))) 0x18 9 = true
      (k ∉ s.mem.failing ∨ phyHeld s st = true → Idle (.rowRepair st pc bank row ok) s)
      ∧ (k ∈ s.mem.failing → phyHeld s st = false → old → Completes (.rowRepair st pc bank row ok) s (fun t => k ∉ t.mem.failing
          ∧ t = { s with mem := { s.mem with failing := t.mem.failing, rowCe := t.mem.rowCe } }))
      ∧ (k ∈ s.mem.failing → phyHeld s st = false → ¬ old → ok = true → ¬ spent → Completes (.rowRepair st pc bank row ok) s (fun t => k ∉ t.mem.failing
          ∧ fget (fun _ => 0) t.mem.rowRep k = fget (fun _ => 0) s.mem.rowRep k + 1 ∧ fget (fun _ => 0) t.mem.bankSpare b = fget (fun _ => 0) s.mem.bankSpare b + 1
          ∧ t.rd p 0x228 = (s.rd p 0x228 + 1) % 2 ^ 32 ∧ t.rdB p 0x18 10 = true ∧ (raw = [] → Flagged s t p 10) ∧ events t ∧ t.hbm = s.hbm))
      ∧ (k ∈ s.mem.failing → phyHeld s st = false → ¬ old → ok = false ∨ spent → Completes (.rowRepair st pc bank row ok) s (fun t => k ∉ t.mem.failing
          ∧ (spent → t.mem.retired = s.mem.retired ++ [retRow s st pc bank row 0])
          ∧ (¬ spent → t.mem.retired = s.mem.retired ++ [retRow s st pc bank row 1] ∧ events t)
          ∧ t.rd p 0x22C = (s.rd p 0x22C + 1) % 2 ^ 32 ∧ t.rdB p 0x18 11 = true
          ∧ t.rdF p (0x300 + 4 * (pc / 4)) (8 * (pc % 4)) 8 = min 255 (s.rdF p (0x300 + 4 * (pc / 4)) (8 * (pc % 4)) 8 + 1)
          ∧ (s.rdF p 0x108 8 8 < min 255 (s.rdF p (0x300 + 4 * (pc / 4)) (8 * (pc % 4)) 8 + 1) → mappedOut s st pc = false → s.rdB p 0x238 31 = false →
              t.rd p 0x238 = pc + 2 ^ 31 ∧ t.rdB p 0x18 12 = true))))
    ∧ (∀ v : BitVec 32,
        let d : Nat := diff32 v.toNat (s.rd p 0x240)
        (reached s p = true → 1 ≤ d ∧ d ≤ 2 ^ 31 → Completes (.retHeadWrite st v) s (fun t => OneFlag s t p 2))
        ∧ (reached s p = true → d = 0 ∨ 2 ^ 31 < d → (∀ x ∈ s.mem.retWait, x.1 ≠ st) → Completes (.retHeadWrite st v) s (fun t => t.rd p 0x244 = v.toNat ∧ OnlyWords s t [(p, 0x244)])))
    ∧ (∀ c ∈ [(Instr.mapoutGo st, reached s p), (.mapoutAuto st, s.rdB p 0x108 16 && dropFree s && s.mem.mapout.isNone)],
        let pc : Nat := s.rdF p 0x238 0 6
        (c.2 = false ∨ s.rdB p 0x238 31 = false → Idle c.1 s)
        ∧ (c.2 = true → s.rdB p 0x238 31 = true → s.mem.mapout ≠ none ∨ s.opBusy p = true → Completes c.1 s (fun t =>
            t = { s with mem := { s.mem with mapWait := sinsert st s.mem.mapWait } }))
        ∧ (c.2 = true → s.rdB p 0x238 31 = true → s.mem.mapout = none → s.opBusy p = false →
            (4 ≤ popc 64 (s.rd64 p 0x230) → Completes c.1 s (fun t => t.rdB p 0x18 18 = true ∧ t.mem = { s.mem with mapWait := sremove st s.mem.mapWait } ∧ t.hbm = s.hbm
                ∧ ((∀ x, pc < x → x < 64 → due x = false) → t.rdB p 0x238 31 = false ∧ Flagged s t p 18 ∧ RegsKept s t ((p, 0x238) :: flagWords p 18))
                ∧ (∀ x, pc < x → x < 64 → due x = true → (∀ y, pc < y → y < x → due y = false) → t.rd p 0x238 = x + 2 ^ 31 ∧ t.rdB p 0x18 12 = true)))
            ∧ (popc 64 (s.rd64 p 0x230) < 4 → Completes c.1 s (fun t => (∀ n, n < 12 → t.rd64 (pHbmc n) 0x248 = memEnd s - 1125000000)
                ∧ (∀ a, t.hb a = if a < memEnd s - 1125000000 then s.hb a else 0)
                ∧ (∃ n, t.mem.mapout = some ⟨st, pc, 0, 0, n⟩ ∧ n = mapoutTotal t st pc) ∧ t.opBusy p = true))))
    ∧ (∀ m, s.mem.mapout = some m → m.st = st →
        (∀ g q pc l, mapoutNext s m = some (g, q) → foldPcs s m = pc :: l →
          let n : Nat := granuleBytes s g
          let f (t : State) : Nat := fget (fun _ => 0) t.mem.fold g
          (memHeld s .misc (g * 256) n = true → Idle (.mapoutCopy st) s)
          ∧ (memHeld s .misc (g * 256) n = false → Completes (.mapoutCopy st) s (fun t =>
              f t / 2 ^ 23 = 64 * st + pc ∧ freeFrame s.mem (64 * st + pc) = some (f t % 2 ^ 23)
              ∧ (∀ x, x ≠ g → fget (fun _ => 0) t.mem.fold x = fget (fun _ => 0) s.mem.fold x)
              ∧ t.mem.mapout = some { m with q := q, copied := m.copied + n }
              ∧ ((∀ x ∈ s.raw, x / 4 ≠ g) → RegsKept s t [(p, 0x20)] ∧ t.log = s.log)
              ∧ (∀ x ∈ s.raw, x / 4 = g → 64 * x + 64 ≤ memEnd s → t.rdB (pCache (sliceOf s (64 * x))) 0x18 9 = true)
              ∧ t = { s with regs := t.regs, mem := t.mem, log := t.log })))
        ∧ (mapoutNext s m = none → m.pc < 64 → Completes (.mapoutCopy st) s (fun t => mappedOut t st m.pc = true
            ∧ t.rdB p 0x18 13 = true ∧ t.rdB p 0x18 6 = true ∧ 64 * st + m.pc ∈ t.store.mapped
            ∧ (s.mem.mapWait = [] → t.mem.mapout = none ∧ t.opBusy p = false ∧ t.hbm = s.hbm)
            ∧ ((∀ x, x < 64 → x ≠ m.pc → due x = false) → s.mem.mapWait = [] → t.rdB p 0x238 31 = false)
            ∧ (∀ x, x < 64 → x ≠ m.pc → due x = true → (∀ y, y < x → y ≠ m.pc → due y = false) → s.mem.mapWait = [] → t.rd p 0x238 = x + 2 ^ 31 ∧ t.rdB p 0x18 12 = true)
            ∧ (∀ k, s.mem.mapWait = [k] → k ≠ st → k < 12 → s.rdB (pHbmc k) 0x238 31 = true → s.opBusy (pHbmc k) = false → popc 64 (s.rd64 (pHbmc k) 0x230) < 4 →
                ∃ n, t.mem.mapout = some ⟨k, s.rdF (pHbmc k) 0x238 0 6, 0, 0, n⟩))))
    ∧ (reached s p = false ∨ s.enabled p = false ∨ s.opBusy p = true ∨ st ∈ s.mem.retrain → Idle (.hbmRetrain st) s)
    ∧ (reached s p = true → s.enabled p = true → s.opBusy p = false → st ∉ s.mem.retrain → Completes (.hbmRetrain st) s (fun t =>
        phyHeld t st = true ∧ t.opBusy p = true ∧ t.rd p 0x20 = 0 ∧ t = { s with regs := t.regs, mem := { s.mem with retrain := sinsert st s.mem.retrain } }))
    ∧ (st ∈ s.mem.retrain → (∀ x ∈ s.mem.phyLost, x.1 ≠ st) → s.mem.retWait = [] → s.mem.mapWait = [] → Completes (.hbmPhyRelock st) s (fun t =>
        t.mem = { s.mem with retrain := sremove st s.mem.retrain } ∧ t.opBusy p = false ∧ t.rdB p 0x18 6 = true ∧ t.hbm = s.hbm))
    ∧ (fget (fun _ => 0) s.mem.recal st + 10000000 ≤ s.ref ∨ fget (fun _ => 0) s.mem.recalTemp st + 80 ≤ s.rdF p 0x200 0 16
          ∨ s.rdF p 0x200 0 16 + 80 ≤ fget (fun _ => 0) s.mem.recalTemp st →
        Completes (.phyRecalibrate st) s (fun t => fget (fun _ => 0) t.mem.recal st = s.ref ∧ fget (fun _ => 0) t.mem.recalTemp st = s.rdF p 0x200 0 16
          ∧ t = { s with mem := { s.mem with recal := t.mem.recal, recalTemp := t.mem.recalTemp } }))
    ∧ (∀ d g, s.rdB p 0x104 0 = true → st ∉ s.mem.failed →
        let i0 : Nat := fget (fun _ => 0) s.mem.patrol st
        d < 260 → (∀ e, e < d → patrolGranule s st (i0 + e) = none) → patrolGranule s st (i0 + d) = some g →
        let i : Nat := i0 + d + 1
        let moved (t : State) : Prop := fget (fun _ => 0) t.mem.patrol st = (if i < patrolEnd s st then i else 0)
          ∧ t.rd p 0x260 = (if i < patrolEnd s st then s.rd p 0x260 else (s.rd p 0x260 + 1) % 2 ^ 32) ∧ t.hbm = s.hbm
        (memHeld s .misc (g * 256) (granuleBytes s g) = true → ∀ e, Idle (.patrolRead st e) s)
        ∧ (memHeld s .misc (g * 256) (granuleBytes s g) = false →
          (∀ e, e = .clean ∨ e = .sramCorrected ∨ e = .sramUncorrectable → Completes (.patrolRead st e) s (fun t => moved t ∧ t.raw = s.raw ∧ t.log = s.log))
          ∧ (homeStack (mapKey s) g = st → Completes (.patrolRead st .corrected) s (fun t => moved t ∧ t.raw = s.raw ∧ t.rd p 0x220 = (s.rd p 0x220 + 1) % 2 ^ 32
              ∧ t.rdB p 0x18 8 = true ∧ ∃ j, j < 4 ∧ fget (fun _ => 0) t.mem.sectors (4 * g + j) = 2)
            ∧ Completes (.patrolRead st .uncorrectable) s (fun t => moved t ∧ t.rd p 0x224 = (s.rd p 0x224 + 1) % 2 ^ 32 ∧ t.rdB p 0x18 9 = true
                ∧ t.rd (pCache st) 0x214 = (s.rd (pCache st) 0x214 + 1) % 2 ^ 32 ∧ t.rdB (pCache st) 0x18 9 = true
                ∧ ∃ j, j < 4 ∧ ∀ b, b ∈ t.raw ↔ b = 4 * g + j ∨ b ∈ s.raw))))
    ∧ (s.rdB p 0x104 0 = false ∨ st ∈ s.mem.failed → ∀ e, Idle (.patrolRead st e) s)
    ∧ (∀ stackT baseT, stackT < 2 ^ 16 → baseT < 2 ^ 16 → Completes (.throttleLevel st stackT baseT) s (fun t =>
        let old : Nat := s.rdF p 0x204 0 3
        let n : Nat := t.rdF p 0x204 0 3
        t.rd p 0x200 = stackT + 2 ^ 16 * baseT ∧ t.rdF p 0x204 8 8 = (match n with | 0 => 100 | 1 => 75 | 2 => 50 | 3 => 25 | _ => 0)
        ∧ n ≤ 4 ∧ (∀ k, k ≤ 4 → thrEnter k stackT baseT = true → k ≤ n) ∧ (n = 0 ∨ thrEnter n stackT baseT = true ∨ (n ≤ old ∧ thrLeave n stackT baseT = false))
        ∧ (∀ k, k ≤ 4 → k ≤ old → thrLeave k stackT baseT = false → k ≤ n)
        ∧ (old < n → t.rdB p 0x18 14 = true) ∧ (n = 4 ∧ old < 4 → t.rdB p 0x18 15 = true) ∧ (n ≤ old → t.log = s.log)
        ∧ ((∃ k, k < 12 ∧ t.rdF (pHbmc k) 0x204 0 3 = 3) → s.power.baseMv ≠ 0 → t.power.baseMv = 700)
        ∧ ((∀ k, k < 12 → t.rdF (pHbmc k) 0x204 0 3 ≠ 3) → s.power.baseMv ≠ 0 → t.power.baseMv = 750)))
    ∧ Completes (.heavyWindow st) s (fun t =>
        let total : Nat := lsum ((s.mem.reqs.filter (fun x => decide (x.1 / 256 = st))).map (fun x => x.2))
        let heavy (i : Nat) : Prop := ∃ x ∈ s.mem.reqs, x.1 / 256 = st ∧ x.1 % 256 = i ∧ 2 * total < 161 * x.2
        (∀ i, i < 160 → ((t.rd p (0x208 + 4 * (i / 32))).testBit (i % 32) = true ↔ heavy i)) ∧ (t.rdB p 0x21C 0 = true ↔ heavy 160)
        ∧ (∀ x, x ∈ t.mem.reqs ↔ x ∈ s.mem.reqs ∧ x.1 / 256 ≠ st) ∧ t = { s with regs := t.regs, mem := { s.mem with reqs := t.mem.reqs } })
    ∧ (let q : Page := pCache 0
       let base : Nat := s.rd64 q 0x240
       let len : Nat := s.rd64 q 0x248
       (reached s q = true → s.mem.scrub ≠ none → Completes .scrubGo s (fun t => t.rd q 0x250 = 1 ∧ WordsAndFlag s t [(q, 0x250)] q 12))
       ∧ (reached s q = true → s.mem.scrub = none → inHbm s base len = false ∨ base % 4096 ≠ 0 ∨ len % 4096 ≠ 0 → Completes .scrubGo s (fun t => t.rd q 0x250 = 2 ∧ WordsAndFlag s t [(q, 0x250)] q 12))
       ∧ (reached s q = true → s.mem.scrub = none → inHbm s base len = true → base % 4096 = 0 → len % 4096 = 0 → Completes .scrubGo s (fun t =>
           t.mem.scrub = some ⟨base, len, none⟩ ∧ t.rd q 0x250 = 0 ∧ t.rd q 0x20 = 0 ∧ t.opBusy q = true ∧ t = { s with regs := t.regs, mem := { s.mem with scrub := t.mem.scrub } }))
       ∧ (s.mem.scrub = none → Idle .scrubDone s)
       ∧ (∀ x, s.mem.scrub = some x → Completes .scrubDone s (fun t =>
           (∀ a, t.hb a = if x.base ≤ a ∧ a < x.base + x.len then 0 else s.hb a)
           ∧ (x.region = none → s.mem.scrubWait = [] → t.mem.scrub = none ∧ t.opBusy q = false ∧ Flagged s t q 6))))

/-! Links. -/

/-- Training and retraining (12_krovmo_fabric.md R366-R370, R391, R392): a training goes from light over the capability exchange and the granted credits to UP, and fails into DOWN with its cause; a link that is UP retrains on a request, on a command or when a lane fails, and ends UP with the lanes that are left and a replay, or DOWN. That alignment follows the lock at the next tick, or when the partner's flit is heard before, is the model's choice (log entry 162). -/
def Obligations.LinkTraining : Prop :=
  ∀ (s : State) (l : Nat), l < 32 → alive s = true → served s = true →
    let p : Page := pLink l
    let k : LinkSt := s.link l
    let lo : Nat := s.rdF pFabric 0x108 0 2
    let hi : Nat := s.rdF pFabric 0x108 2 2
    let at4 (n : Nat) : Nat := n + 20 * n * 2 ^ 24
    (∀ lanes : BitVec 8, portLit s l = true → linkState s l = 1 ∨ linkState s l = 3 →
        let m : Nat := k.lanes ||| (lanes.toNat &&& s.rdF p 0x110 0 8)
        (3 ≤ k.step → Idle (.partnerLight l lanes) s)
        ∧ (k.step ≤ 2 → lanesEnough m = false → Completes (.partnerLight l lanes) s (fun t => LinkBecame s t l { k with lanes := m }))
        ∧ (k.step ≤ 2 → lanesEnough m = true → Completes (.partnerLight l lanes) s (fun t => t.link l = { k with lanes := m, step := 2 }
            ∧ (linkState s l = 1 → t.rd p 0x20 = at4 2) ∧ RegsKept s t [(p, 0x20)] ∧ t = { s with regs := t.regs, links := t.links })))
    ∧ (∀ i : CapInfo, portLit s l = true →
        let v : Nat := min i.newest.toNat hi
        let expect : Nat := s.rdF p 0x108 0 20
        let first : Prop := linkState s l = 1
        let low : Prop := first ∧ (v < lo ∨ v < i.oldest.toNat)
        let stranger : Prop := expect ≠ 0xFFFFF ∧ i.node.toNat ≠ 0xFFFFF ∧ expect ≠ i.node.toNat
        let width : Option Nat := linkLanes s l k.lanes i.lanes.toNat (decide (linkState s l = 3) && s.rdB p 0x14 19)
        let flits : List (List Byte) := if k.step = 2 then [capFlit s l k.lanes, grantFlit s l] else [grantFlit s l]
        (linkState s l = 1 ∨ linkState s l = 3 → k.step < 2 → Completes (.capability l i) s (fun t => LinkBecame s t l { k with accepted := (k.accepted + 1) % 4096 }))
        ∧ (linkState s l = 2 ∨ ((linkState s l = 1 ∨ linkState s l = 3) ∧ 4 ≤ k.step) → k.idle → linkOpen s l = true → Completes (.capability l i) s (fun t =>
            IdleSent { k with accepted := (k.accepted + 1) % 4096 } (t.link l) (creditHold s l) ∧ t = { s with links := t.links }))
        ∧ (ConnsQuiet s l → linkState s l = 1 ∨ linkState s l = 3 → k.step = 2 ∨ k.step = 3 →
            (low → Completes (.capability l i) s (fun t => LinkDowned s t l 3 ∧ t.rdB p 0x18 12 = true))
            ∧ (¬ low → stranger → Completes (.capability l i) s (fun t => LinkDowned s t l 4 ∧ t.rdB p 0x18 13 = true))
            ∧ (¬ low → ¬ stranger → width = none → Completes (.capability l i) s (fun t => LinkDowned s t l 2))
            ∧ (∀ m, ¬ low → ¬ stranger → width = some m → Completes (.capability l i) s (fun t =>
                (t.link l).step = 4 ∧ t.rd p 0x200 = i.node.toNat + 2 ^ 20 * i.port.toNat ∧ (first → t.rdF p 0x204 0 4 = v ∧ t.rd p 0x20 = at4 4)
                ∧ t.rdF p 0x204 8 8 = m % 2 ^ 8 ∧ t.rdB p 0x14 19 = decide (m ≠ 0xFF)
                ∧ (k.ctl = [] → k.retry.length ≤ 2046 → linkOpen s l = true →
                    ∃ r : List TxFlit, (t.link l).retry = k.retry ++ r ∧ r.map (fun x => (x.ftype, x.payload)) = flits.map (fun b => (2, b)))
                ∧ t = { s with regs := t.regs, log := t.log, links := t.links }))))
    ∧ (∀ b0 b1 b2, portLit s l = true → linkState s l = 1 → k.step = 4 → Completes (.creditGrant l b0 b1 b2) s (fun t =>
        linkState t l = 2 ∧ t.rdB pFabric 0x204 l = true ∧ t.opBusy p = false ∧ t.rdB p 0x18 8 = true ∧ t.rdB p 0x18 6 = true ∧ t.rd p 0x20 = at4 5
        ∧ (k.idle → (t.link l).tx = (k.tx.zip [b0, b1, b2]).map (fun x => { x.1 with credits := x.2 }) ∧ t = { s with regs := t.regs, log := t.log, links := t.links })))
    ∧ (portLit s l = true → linkState s l = 2 → Completes (.retrainRequest l) s (fun t => RetrainBegun s t l false))
    ∧ (linkState s l = 1 → k.step < 2 → k.since + 10000000 ≤ s.ref → ConnsQuiet s l → Completes (.trainingTimeout l) s (fun t => LinkDowned s t l 2))
    ∧ (¬ (linkState s l = 1 ∧ k.step < 2 ∧ k.since + 10000000 ≤ s.ref) → Idle (.trainingTimeout l) s)
    ∧ (∀ lane, lane < 8 → linkState s l = 2 → (bit (s.rdF p 0x204 8 8) lane = true → Completes (.laneSignalLoss l lane) s (fun t => RetrainBegun s t l true))
        ∧ (bit (s.rdF p 0x204 8 8) lane = false → Idle (.laneSignalLoss l lane) s))
    ∧ (∀ lanes : BitVec 8, linkState s l = 3 →
        let m : Option Nat := linkLanes s l (lanes.toNat &&& s.rdF p 0x110 0 8) lanes.toNat (s.rdB p 0x14 19)
        (m = none → ConnsQuiet s l → Completes (.retrainComplete l lanes) s (fun t => LinkDowned s t l 2))
        ∧ (∀ w, m = some w → Completes (.retrainComplete l lanes) s (fun t => linkState t l = 2 ∧ t.rdB pFabric 0x204 l = true ∧ (t.link l).retrainFrom = none
            ∧ t.rdF p 0x204 8 8 = w % 2 ^ 8 ∧ t.rdB p 0x14 19 = decide (w ≠ 0xFF) ∧ t.rd p 0x210 = (s.rd p 0x210 + k.retry.length) % 2 ^ 32
            ∧ (linkOpen s l = true → ∃ more, k.sentSince (t.link l) = resent k.retry ++ more)
            ∧ (w ≠ 0xFF → s.rdB p 0x14 19 = false → t.rdB p 0x18 11 = true) ∧ t = { s with regs := t.regs, log := t.log, links := t.links, conns := t.conns })))
    ∧ (∀ since, k.retrainFrom = some since → linkState s l = 3 → since + 1000000 ≤ s.ref → ConnsQuiet s l → Completes (.retrainTimeout l) s (fun t => LinkDowned s t l 1))
    ∧ (portLit s l = true → (linkState s l = 4 → Completes (.linkTrain l) s (fun t => TrainBegun s t l)) ∧ (linkState s l = 2 → Completes (.linkTrain l) s (fun t => RetrainBegun s t l true)))
    ∧ (linkState s l = 2 ∨ linkState s l = 3 → ConnsQuiet s l → Completes (.linkForceDown l) s (fun t => LinkDowned s t l 5))
    ∧ (portLit s l = true → linkState s l = 4 → s.rdB p 0x104 0 = true → k.downAt + 100000000 ≤ s.ref → k.lastAuto + 100000000 ≤ s.ref →
        Completes (.autoTrain l) s (fun t => TrainBegun s t l ∧ (t.link l).lastAuto = s.ref))
    ∧ (linkState s l ≠ 4 ∨ s.rdB p 0x104 0 = false ∨ s.ref < k.downAt + 100000000 → Idle (.autoTrain l) s)
    ∧ Completes (.laserFailure l) s (fun t => t.rdB (pOe (l / 8)) 0x208 (l % 8) = true ∧ WordsAndFlag s t [(pOe (l / 8), 0x208)] (pOe (l / 8)) 8)

/-- Flits (12 R371-R374, R377): a flit that fails its check, or is ahead, owes a nak; the next one in order is accepted, its ack and credits taken, its payload put behind its channel's and the packets it completes taken in; one already accepted is discarded; each is answered, by an idle flit where nothing else is sent. On a nak, or without an advancing ack, the retry buffer is replayed, and beyond nak_limit the link retrains; a stalled packet is cut by its sender and truncated by its receiver. -/
def Obligations.Flits : Prop :=
  ∀ (s : State) (l : Nat), l < 32 → alive s = true → linkState s l = 2 →
    let p : Page := pLink l
    let k : LinkSt := s.link l
    let talk (u : State) : State := linkAnswer k l u
    (k.idle → linkGo l s = s ∧ (linkOpen s l = false → talk s = s)
      ∧ (linkOpen s l = true → IdleSent k ((talk s).link l) (creditHold s l) ∧ talk s = { s with links := (talk s).links }))
    ∧ (∀ f : Flit, portLit s l = true →
      let d : Nat := (f.seq.toNat + 4096 - (k.accepted + 1) % 4096) % 4096
      let fed (k : LinkSt) : State := linkGo l (s.setLink l (k.acked f s.ref))
      let took : State := fed { k with accepted := f.seq.toNat, nakDue := false }
      (f.ftype = 1 ∨ f.ftype = 2 → flitOk f = false → Completes (.payloadFlit l f) s (fun t => t = talk (s.setLink l { k with nakDue := true })))
      ∧ (flitOk f = false → Idle (.idleFlit l f) s)
      ∧ (flitOk f = true → f.nak = true → f.ftype = 0 → (k.acked f s.ref).retry ≠ [] → Completes (.idleFlit l f) s (fun t => Replayed s t l (k.acked f s.ref).retry))
      ∧ (flitOk f = true → f.nak = false →
          (f.ftype = 0 → Completes (.idleFlit l f) s (fun t => t = fed k))
          ∧ (f.ftype = 1 ∨ f.ftype = 2 → 1 ≤ d ∧ d < 2048 → Completes (.payloadFlit l f) s (fun t => t = talk ((fed k).modLink l (fun k => { k with nakDue := true }))))
          ∧ (f.ftype = 1 ∨ f.ftype = 2 → 2048 ≤ d → Completes (.payloadFlit l f) s (fun t => t = talk (fed k)))
          ∧ (∀ v, f.ftype = 1 → d = 0 → k.rx[f.vc.toNat]? = some v →
              (v.dropping = true → f.cut = false → Completes (.payloadFlit l f) s (fun t =>
                t = talk (took.modLink l (fun k => { k with rx := lmod (fun v => { v with owed := v.owed + 1 }) k.rx f.vc.toNat }))))
              ∧ (v.dropping = false ∨ f.cut = true →
                  let old : List Byte := if f.cut = true then [] else v.buf
                  let r := rxSplit 8 (old ++ f.payload)
                  let ps : List Packet := r.1.map parsePacket
                  let cleared : State := if f.cut = true ∧ v.dropping = false ∧ v.buf ≠ [] then truncateRx took l f.vc.toNat v.buf false else took
                  let u : State := cleared.modLink l (fun k => { k with
                    rx := lmod (fun v => ⟨r.2, s.ref, false, v.owed + (rxFlits old + 1 - rxFlits r.2)⟩) k.rx f.vc.toNat })
                  ((∃ x ∈ ps, packetHeld s x = true) → Idle (.payloadFlit l f) s)
                  ∧ ((∀ x ∈ ps, packetHeld s x = false) → Completes (.payloadFlit l f) s (fun t =>
                      t = talk (ps.foldl (fun s x => if s.enabled pFabric then packetIn l s x else s) u)))))
          ∧ (f.ftype = 2 → d = 0 → leAt f.payload 1 1 ≠ 1 ∨ leAt f.payload 0 1 = 0 ∨ 3 < leAt f.payload 0 1 → Completes (.payloadFlit l f) s (fun t =>
              t = talk (took.inc p 0x210 1)))
          ∧ (f.ftype = 2 → d = 0 → leAt f.payload 1 1 = 1 → leAt f.payload 0 1 = 2 → k.idle → Completes (.payloadFlit l f) s (fun t =>
              linkState t l = 3 ∧ (t.link l).retrainFrom = some s.ref ∧ (t.link l).accepted = f.seq.toNat
              ∧ t.rd p 0x214 = (s.rd p 0x214 + 1) % 2 ^ 32 ∧ t.rdB p 0x18 9 = true))))
    ∧ (k.retry ≠ [] → k.ackAt + 100 * s.rdF p 0x114 8 8 ≤ s.ref → Completes (.ackTimeout l) s (fun t => Replayed s t l k.retry))
    ∧ (k.retry = [] ∨ s.ref < k.ackAt + 100 * s.rdF p 0x114 8 8 → Idle (.ackTimeout l) s)
    ∧ (∀ vc v, vc < 3 → k.tx[vc]? = some v → v.rest ≠ [] → v.cutDue = false →
        (s.ref < v.lastAt + 4000 → Idle (.senderCut l vc) s)
        ∧ (v.lastAt + 4000 ≤ s.ref → v.credits = 0 ∨ 2048 ≤ k.retry.length ∨ linkOpen s l = false → Completes (.senderCut l vc) s (fun t =>
            (t.link l).tx[vc]? = some { v with cutDue := true }))
        ∧ (v.lastAt + 4000 ≤ s.ref → v.credits ≠ 0 → v.whole ≠ [] → k.retry.length < 2048 → linkOpen s l = true → k.ctl = [] → k.replayDue = false →
            (∀ i w, i ≠ vc → k.tx[i]? = some w → w.q = [] ∧ w.rest = [] ∧ w.cutDue = false) → Completes (.senderCut l vc) s (fun t =>
              t.rd p 0x21C = (s.rd p 0x21C + 1) % 2 ^ 32 ∧ RegsKept s t [(p, 0x21C)]
              ∧ (∃ x ∈ (t.link l).retry, x.seq = k.seqNext ∧ x.ftype = 1 ∧ x.vc = vc ∧ x.cut = true ∧ x.payload.take v.whole.length = v.whole.take 240)
              ∧ t = { s with regs := t.regs, links := t.links, conns := t.conns })))
    ∧ (∀ vc v, vc < 3 → k.rx[vc]? = some v → v.buf ≠ [] →
        (s.ref < v.lastAt + 5000 → Idle (.receiverTruncate l vc) s)
        ∧ (v.lastAt + 5000 ≤ s.ref → Completes (.receiverTruncate l vc) s (fun t => (∃ o, (t.link l).rx[vc]? = some ⟨[], v.lastAt, true, o⟩)
            ∧ t.rd p 0x218 = (s.rd p 0x218 + 1) % 2 ^ 32 ∧ t.rd pFabric 0x220 = (s.rd pFabric 0x220 + 1) % 2 ^ 32 ∧ t.rdB p 0x18 15 = true
            ∧ (k.idle → Flagged s t p 15 ∧ RegsKept s t ([(p, 0x218), (pFabric, 0x220)] ++ flagWords p 15) ∧ t = { s with regs := t.regs, log := t.log, links := t.links }))))

/-! Packets and connections. -/

/-- Packets (12_krovmo_fabric.md R380-R387): the ingress checks in their order; a request in its order is performed and answered or refused with its status, one that was performed is answered again and not performed again; an answer ends its access with its data or its fault, or is a reason to send again or to put the connection DOWN; a HOLD covers what it names. -/
def Obligations.Packets : Prop :=
  ∀ (s : State) (l : Nat) (p : Packet), PortHears s l →
    let c : Nat := p.dstConn.toNat
    let q : Page := pConn c
    (∀ x ∈ [(Instr.wr l p, 1, false), (.rd l p, 2, false), (.atom l p, 3, false), (.sig l p, 4, false), (.rsp l p, 5, false), (.hold l p, 6, false),
      (.openPkt l p, 7, false), (.openAck l p, 8, false), (.closePkt l p, 9, s.bind.tds.any (fun d => decide (d.step = 3))),
      (.hoistStart l p, 10, false), (.hoistReport l p, 10, reportHeld s p.gen.toNat), (.hoistAbort l p, 10, false)],
      p.ptype.toNat = x.2.1 → x.2.2 = false →
      (p.check.toNat ≠ packetCheck p → Completes x.1 s (fun t => t.rd pFabric 0x210 = (s.rd pFabric 0x210 + 1) % 2 ^ 32 ∧ WordsAndFlag s t [(pFabric, 0x210)] pFabric 9))
      ∧ (p.check.toNat = packetCheck p → p.ver.toNat = 0 ∨ 3 < p.ver.toNat ∨ linkVer s l < p.ver.toNat → Completes x.1 s (fun t =>
          t.rd pFabric 0x214 = (s.rd pFabric 0x214 + 1) % 2 ^ 32 ∧ WordsAndFlag s t [(pFabric, 0x214)] pFabric 8))
      ∧ (p.check.toNat = packetCheck p → 1 ≤ p.ver.toNat → p.ver.toNat ≤ 3 → p.ver.toNat ≤ linkVer s l →
          (packetBad p = true → Completes x.1 s (fun t => PacketRefused s t l p 0x218 4 []))
          ∧ (packetBad p = false → bits p.target.toNat 40 20 ≠ nodeId s ∨ nodeId s = 0xFFFFF → Completes x.1 s (fun t => PacketRefused s t l p 0x21C 3 [])))
      ∧ (PacketOk s l p → x.2.1 < 7 →
          let stand : Prop := (connState s c = 3 ∨ connState s c = 4) ∧ s.quarantined q = false
          let fresh : Prop := p.gen.toNat = s.rd q 0x2C ∧ p.epoch.toNat = s.rd q 0x28
          let peer : Prop := p.srcNode.toNat = s.rdF q 0x108 0 20 ∧ p.srcConn.toNat = s.rdF q 0x104 18 14
          (¬ stand ∨ ¬ fresh → Completes x.1 s (fun t => PacketRefused s t l p 0x21C 1 [(q, 0x708)]))
          ∧ (stand → fresh → ¬ peer → Completes x.1 s (fun t => PacketRefused s t l p 0x21C 3 []))
          ∧ (stand → fresh → peer → p.ver.toNat ≠ s.rdF q 0x200 0 4 → Completes x.1 s (fun t => PacketRefused s t l p 0x21C 4 []))))
    ∧ (PacketOk s l p → PacketOn s p →
        let heard : State := s.modConn c (fun k => { k with heard := s.ref })
        let e : Nat := s.rd q 0x20C
        let d : Nat := diff32 p.seq.toNat e
        let a : Nat := (reqSpan p).1
        let n : Nat := (reqSpan p).2
        let k : ConnSt := s.conn c
        let kept (status old : Nat) : List (Nat × Nat × Nat × Nat) := ((p.seq.toNat, status, p.ptype.toNat, old) :: k.answers.filter (fun y => decide (y.1 ≠ p.seq.toNat))).take 64
        let served (t : State) (next status old : Nat) (body : List Byte) (P : State → Prop) : Prop := ∃ u : State,
          u.links = s.links ∧ u.rd q 0x20C = next % 2 ^ 32 ∧ (u.conn c).held = [] ∧ (u.conn c).heard = s.ref ∧ (u.conn c).answers = kept status old ∧ P u
          ∧ t = if k.mute = 0 then respond u (connPort s c) p status body else u
        (∀ x ∈ [(Instr.wr l p, 1), (.rd l p, 2), (.atom l p, 3), (.sig l p, 4)], p.ptype.toNat = x.2 →
          (connState s c = 4 → Completes x.1 s (fun t => PacketRefused heard t l p 0x21C 2 []))
          ∧ (connState s c = 3 →
              (1 ≤ d → d < 2 ^ 31 → Completes x.1 s (fun t => t = respond heard l p 10 []))
              ∧ (2 ^ 31 ≤ d → d < 2 ^ 32 - 64 → Completes x.1 s (fun t => t = heard.inc pFabric 0x21C 1))
              ∧ (2 ^ 32 - 64 ≤ d →
                  ((∀ y ∈ k.answers, y.1 ≠ p.seq.toNat) → Completes x.1 s (fun t => t = heard))
                  ∧ (∀ st ty old, k.answers.find? (fun y => decide (y.1 = p.seq.toNat)) = some (p.seq.toNat, st, ty, old) → x.2 ≠ 2 →
                      Completes x.1 s (fun t => t = respond heard l p st
                        (if st = 8 then toLE 8 old else if x.2 = 3 ∧ st = 0 ∧ leAt p.body 2 1 = 1 then toLE 16 old else []))))
              ∧ (d = 0 → k.held = [] → reqWaits s p = true → Completes x.1 s (fun t => t.rd q 0x20C = (e + 1) % 2 ^ 32 ∧ (t.conn c).held = [p]
                  ∧ RegsKept s t [(q, 0x20C)] ∧ t = { s with regs := t.regs, conns := t.conns }))
              ∧ (∀ st, d = 0 → k.held = [] → reqRefused s p = some st → Completes x.1 s (fun t => served t (e + 1) st 0 [] (fun u =>
                  u.rd q 0x218 = (s.rd q 0x218 + 1) % 2 ^ 32 ∧ u.rd pFabric 0x21C = (s.rd pFabric 0x21C + 1) % 2 ^ 32 ∧ Flagged s u pFabric 10
                  ∧ u = { s with regs := u.regs, log := u.log, conns := u.conns })))))
        ∧ (∀ x, connState s c = 3 → p.ptype.toNat = 2 → 2 ^ 32 - 64 ≤ d → k.answers.find? (fun y => decide (y.1 = p.seq.toNat)) = some x → k.held = [] → reqHeld s p = false →
            reqRefused s p = none → memFault s a n = none → Completes (.rd l p) s (fun t => served t e 0 0 (s.hrd a n) (fun u => u.hbm = s.hbm ∧ RegsKept s u [] ∧ u.log = s.log)))
        ∧ (connState s c = 3 → d = 0 → k.held = [] → reqHeld s p = false → reqRefused s p = none →
            (p.ptype.toNat = 1 → memFault s a n = none → Completes (.wr l p) s (fun t => served t (e + 1) 0 0 [] (fun u => (∀ i, i < n → u.hb (a + i) = (p.body[i]?).getD 0)
              ∧ (∀ k, k < a ∨ a + n ≤ k → u.hb k = s.hb k) ∧ RegsKept s u [(q, 0x20C)] ∧ u.log = s.log)))
            ∧ (p.ptype.toNat = 2 → memFault s a n = none → Completes (.rd l p) s (fun t => served t (e + 1) 0 0 (s.hrd a n) (fun u =>
                u.hbm = s.hbm ∧ RegsKept s u [(q, 0x20C)] ∧ u.log = s.log)))
            ∧ (∀ f, p.ptype.toNat = 2 → memFault s a n = some f → Completes (.rd l p) s (fun t => served t (e + 1) (faultStatus a f).1 0 (faultStatus a f).2 (fun u => u.hbm = s.hbm)))
            ∧ (p.ptype.toNat = 3 → memFault s a n = none →
                let aop : Nat := leAt p.body 0 1 % 16
                let width : Nat := bits (leAt p.body 0 1) 4 2
                let fmt : Nat := leAt p.body 1 1
                let size : Nat := atomArg aop width fmt
                let old : Nat := s.hnat a n
                (aop = 0 ∧ n = 4 → orwIndex s (sliceOf s a) a = none) → aop ≤ 0xC → Completes (.atom l p) s (fun t =>
                  served t (e + 1) 0 old (if leAt p.body 2 1 = 1 then toLE 16 old else []) (fun u =>
                    u.hnat a n = (atomNew aop width fmt old (leAt p.body 0x10 size) (leAt p.body 0x20 size)).1 % 2 ^ (8 * n)
                    ∧ (∀ k, k < a ∨ a + n ≤ k → u.hb k = s.hb k))))
            ∧ (p.ptype.toNat = 4 →
                let tile : Nat := p.target.toNat % 256
                let w : Nat := bits p.target.toNat 8 12
                Completes (.sig l p) s (fun t => served t (e + 1) 0 0 [] (fun u => u.sig tile w = sigApply (bits p.target.toNat 20 2) (s.sig tile w) (leAt p.body 0 8)
                  ∧ (∀ k, k < 0x1A00000 + 8 * w ∨ 0x1A00000 + 8 * w + 8 ≤ k → u.tb tile k = s.tb tile k) ∧ u.hbm = s.hbm))))
        ∧ (p.ptype.toNat = 6 → Completes (.hold l p) s (fun t => t = heard.modConn c (fun k => { k with
            out := k.out.map (fun o => if diff32 (p.target.toNat % 2 ^ 32) o.seq < 2 ^ 31 then { o with covered := true } else o) })))
        ∧ (p.ptype.toNat = 5 →
            let seq : Nat := p.target.toNat % 2 ^ 32
            let status : Nat := bits p.target.toNat 32 8
            ((∀ o ∈ (s.conn c).out, o.seq ≠ seq) → Completes (.rsp l p) s (fun t => t = heard))
            ∧ (∀ (o : OutPkt) gr id fill, (s.conn c).out.find? (fun o => decide (o.seq = seq)) = some o → o.req.ctx = .thread gr id fill →
                let left : List OutPkt := (s.conn c).out.filter (fun o => decide (o.seq ≠ seq))
                let ended (t : State) (flagged : Bool) (f : Access → Access) : Prop := ∃ u : State,
                  t = u.modGroup gr (fun g => { g with outst := lupdate (fun y => decide (y.id = id)) f g.outst })
                  ∧ u.conn c = { s.conn c with heard := s.ref, out := left } ∧ u.rd q 0x210 = left.length % 2 ^ 32
                  ∧ (flagged = true → u.rdB q 0x18 10 = true) ∧ (flagged = false → u.log = s.log) ∧ u = { s with regs := u.regs, log := u.log, conns := u.conns }
                let fault (code addr : Nat) (y : Access) : Access := { y with remote := y.remote - 1, fault := y.fault <|> some (code, addr) }
                (retryUsed s < 65536 → (s.conn c).wait = [] → (s.conn c).closing = false → (s.conn c).peerClosed = false →
                  (status = 0 → Completes (.rsp l p) s (fun t => ended t false (fun y => { y with
                    remote := y.remote - 1
                    writes := y.writes ++ fill.map (fun z => (z.1, BitVec.ofNat 32 (leAt p.body z.2.1 z.2.2))) })))
                  ∧ (status = 5 ∨ status = 6 ∨ status = 7 → Completes (.rsp l p) s (fun t => ended t true (fault 0x2C o.req.ga)))
                  ∧ (status = 8 → Completes (.rsp l p) s (fun t => ended t true (fault 0x10 (o.req.ga + leAt p.body 0 8))))
                  ∧ (status = 9 → Completes (.rsp l p) s (fun t => ended t true (fault 0x11 o.req.ga))))
                ∧ (status = 10 →
                    let port : Nat := connPort s c
                    let outs (f : OutPkt → OutPkt) : List OutPkt := lupdate (fun y => decide (y.seq = seq)) f k.out
                    (0 < o.cuts → Completes (.rsp l p) s (fun t => t = s.setConn c { k with heard := s.ref, out := outs (fun y => { y with cuts := y.cuts - 1 }) }))
                    ∧ (o.cuts ≤ 0 → inProgress s port c seq = true → Completes (.rsp l p) s (fun t =>
                        t = linkGo port ((s.setConn c { k with heard := s.ref, out := outs (fun y => { y with cuts := y.cuts - 1 }) }).modLink port
                          (fun x => { x with tx := lmod (fun v => { v with cutDue := true }) x.tx 0 }))))
                    ∧ (o.cuts ≤ 0 → inProgress s port c seq = false → Completes (.rsp l p) s (fun t => ∃ u : State, t = linkSend u port (pktOf s c o.req o.seq)
                        ∧ u.rd q 0x214 = (s.rd q 0x214 + 1) % 2 ^ 32 ∧ u.rd pFabric 0x224 = (s.rd pFabric 0x224 + 1) % 2 ^ 32 ∧ RegsKept s u [(q, 0x214), (pFabric, 0x224)]
                        ∧ u.conn c = { k with heard := s.ref, out := outs (fun y => { y with sentAt := s.ref }) } ∧ u = { s with regs := u.regs, conns := u.conns })))
                ∧ (1 ≤ status ∧ status ≤ 4 ∨ 11 ≤ status → k.out = [o] → k.wait = [] → Completes (.rsp l p) s (fun t => ConnDowned t c 5)))))

/-- Connections (12 R378-R381, R393): opening asks the peer until it answers or open_ms has passed; an answer opens it or puts it DOWN; closing waits for what is outstanding; silence of 10 ms means DOWN; a packet without an answer is sent again after rto_us; a HOLD is sent while requests wait. -/
def Obligations.Connections : Prop :=
  ∀ (s : State) (c : Nat), c < 16384 → alive s = true → served s = true →
    let q : Page := pConn c
    let k : ConnSt := s.conn c
    let l : Nat := connPort s c
    let st : Nat := connState s c
    let sent (u t : State) (type : Nat) (body : List Byte) : Prop := ∃ p : Packet, p.ptype.toNat = type ∧ p.dstConn.toNat = s.rdF q 0x104 18 14 ∧ p.srcConn.toNat = c
      ∧ p.gen.toNat = s.rd q 0x2C ∧ p.body = body ∧ p.check.toNat = packetCheck { p with check := 0 } ∧ t = linkSend u l p
    (((st ≠ 1 ∧ st ≠ 5) ∨ bstate s q ≠ 2 ∨ nodeId s = 0xFFFFF ∨ linkState s l ≠ 2) → Completes (.connOpen c) s (fun t => OneFlag s t q 11))
    ∧ (st = 1 ∨ st = 5 → bstate s q = 2 → nodeId s ≠ 0xFFFFF → linkState s l = 2 →
        (dfltConflict s c = true → Completes (.connOpen c) s (fun t => ∃ u, OneFlag s u q 11 ∧ OneFlag u t q 12))
        ∧ (dfltConflict s c = false → Completes (.connOpen c) s (fun t => connState t c = 2 ∧ (t.conn c).openSince = some s.ref ∧ (t.conn c).lastOpen = s.ref
            ∧ ∃ u, u.links = s.links ∧ sent u t 7 (toLE 8 (verMin s + 16 * verMax s)))))
    ∧ (st ≠ 3 → Idle (.connClose c) s)
    ∧ (st = 3 →
        (k.out = [] → Completes (.connClose c) s (fun t => connState t c = 1 ∧ c ∉ t.openConns ∧ ∃ u v, u.links = s.links ∧ sent u v 9 [] ∧ t.links = v.links))
        ∧ (k.out ≠ [] → Completes (.connClose c) s (fun t => t = s.setConn c { k with closing := true })))
    ∧ (connRuns s c = true → st = 2 → k.lastOpen + 10000 ≤ s.ref → Completes (.openResend c) s (fun t => (t.conn c).lastOpen = s.ref
        ∧ ∃ u, u.links = s.links ∧ sent u t 7 (toLE 8 (verMin s + 16 * verMax s))))
    ∧ (st ≠ 2 ∨ s.ref < k.lastOpen + 10000 → Idle (.openResend c) s)
    ∧ (∀ since, k.openSince = some since → st = 2 → since + 100000 * s.rdF pFabric 0x10C 16 16 ≤ s.ref → k.out = [] → k.wait = [] →
        Completes (.openTimeout c) s (fun t => ConnDowned t c 3))
    ∧ (∀ (n : BitVec 32) (o : OutPkt), k.out.find? (fun o => decide (o.seq = n.toNat)) = some o →
        (connRuns s c = true → st = 3 ∨ st = 4 → o.covered = false → o.sentAt + 100 * s.rdF pFabric 0x10C 0 16 ≤ s.ref → Completes (.rtoResend c n) s (fun t =>
          ∃ u : State, t = linkSend u l (pktOf s c o.req o.seq)
            ∧ u.rd q 0x214 = (s.rd q 0x214 + 1) % 2 ^ 32 ∧ u.rd pFabric 0x224 = (s.rd pFabric 0x224 + 1) % 2 ^ 32 ∧ RegsKept s u [(q, 0x214), (pFabric, 0x224)]
            ∧ u.conn c = { k with out := lupdate (fun x => decide (x.seq = o.seq)) (fun x => { x with sentAt := s.ref }) k.out }
            ∧ u = { s with regs := u.regs, conns := u.conns }))
        ∧ (o.covered = true ∨ s.ref < o.sentAt + 100 * s.rdF pFabric 0x10C 0 16 → Idle (.rtoResend c n) s))
    ∧ (∀ (o : OutPkt) gr id fill, connRuns s c = true → k.out = [o] → k.wait = [] → o.req.ctx = .thread gr id fill → k.heard + 1000000 ≤ s.ref → k.silentFrom + 1000000 ≤ s.ref →
        st = 3 ∨ st = 4 → Completes (.connSilent c) s (fun t => ConnDowned t c 2))
    ∧ (k.out = [] → Idle (.connSilent c) s)
    ∧ (k.held = [] → Idle (.holdSend c) s)
    ∧ (∀ p rest, connRuns s c = true → k.held = p :: rest → reqWaits s p = true →
        (st = 3 ∨ st = 4 → 2 ≤ s.rdF q 0x200 0 4 → Completes (.holdSend c) s (fun t =>
          ∃ (u : State) (h : Packet), u = s.setConn c { k with holdAt := s.ref } ∧ t = linkSend u l h ∧ h.ptype.toNat = 6 ∧ h.body = []
            ∧ h.target.toNat % 2 ^ 32 = (s.rd q 0x20C + 2 ^ 32 - 1) % 2 ^ 32))
        ∧ (st = 5 ∨ s.rdF q 0x200 0 4 < 2 → Idle (.holdSend c) s))
    ∧ (∀ p : Packet, connRuns s c = true → st = 5 → k.held = [p] → k.mute ≠ 0 → p.ptype.toNat = 1 → p.dstConn.toNat = c → p.body.length = p.len.toNat →
        let a : Nat := p.target.toNat % 2 ^ 40
        reqHeld s p = false → reqRefused s p = none → memFault s a p.len.toNat = none → Completes (.holdSend c) s (fun t =>
          (∀ i, i < p.len.toNat → t.hb (a + i) = (p.body[i]?).getD 0) ∧ (t.conn c).held = [] ∧ t.links = s.links ∧ t.regs = s.regs))
    ∧ (∀ p : Packet, PortHears s l → PacketOk s l p → p.dstConn.toNat = c →
        (p.ptype.toNat = 7 →
          let answered (u t : State) (status ver : Nat) : Prop := ∃ a : Packet, a.ptype.toNat = 8 ∧ a.dstConn.toNat = p.srcConn.toNat ∧ a.srcConn.toNat = c
            ∧ bits a.target.toNat 32 8 = status ∧ a.body = toLE 8 ver ∧ a.epoch.toNat = s.rd q 0x28 ∧ t = linkSend u l a
          ((openStatus s p).1 = 12 → Completes (.openPkt l p) s (fun t => answered s t 12 0))
          ∧ ((openStatus s p).1 = 11 → k.out = [] → k.wait = [] → retryUsed s < 65536 → Completes (.openPkt l p) s (fun t => ConnDowned t c 4 ∧ ∃ v, answered s v 11 0 ∧ t.links = v.links))
          ∧ ((openStatus s p).1 = 0 → Completes (.openPkt l p) s (fun t => t.rd q 0x204 = p.epoch.toNat ∧ t.rd q 0x200 = (openStatus s p).2
              ∧ connState t c = st ∧ ∃ v, answered s v 0 (openStatus s p).2 ∧ t = { v with regs := t.regs })))
        ∧ (p.ptype.toNat = 8 →
          let mine : Prop := st = 2 ∧ p.gen.toNat = s.rd q 0x2C ∧ p.srcNode.toNat = s.rdF q 0x108 0 20 ∧ p.srcConn.toNat = s.rdF q 0x104 18 14
          let status : Nat := bits p.target.toNat 32 8
          (¬ mine ∨ status = 12 → Idle (.openAck l p) s)
          ∧ (mine → status = 0 → k.wait = [] → Completes (.openAck l p) s (fun t => connState t c = 3 ∧ c ∈ t.openConns ∧ t.rd q 0x200 = leAt p.body 0 1 % 16 ∧ t.rd q 0x204 = p.epoch.toNat
              ∧ t.rd q 0x208 = 1 ∧ t.rd q 0x20C = 1 ∧ t.rd q 0x21C = 0 ∧ t.rdB q 0x18 8 = true ∧ (t.conn c).answers = [] ∧ (t.conn c).openSince = none))
          ∧ (mine → status ≠ 0 → status ≠ 12 → k.out = [] → k.wait = [] → Completes (.openAck l p) s (fun t => ConnDowned t c (if status = 11 then 4 else 5))))
        ∧ (p.ptype.toNat = 9 →
          let mine : Prop := (st = 3 ∨ st = 4) ∧ p.gen.toNat = s.rd q 0x2C ∧ p.epoch.toNat = s.rd q 0x28 ∧ p.srcNode.toNat = s.rdF q 0x108 0 20 ∧ p.srcConn.toNat = s.rdF q 0x104 18 14
          (∀ d ∈ s.bind.tds, d.step ≠ 3) →
          (¬ mine → Idle (.closePkt l p) s)
          ∧ (mine → st = 3 → k.closing = false → k.out = [] → Completes (.closePkt l p) s (fun t => connState t c = 1 ∧ c ∉ t.openConns ∧ t.links = s.links))
          ∧ (mine → st = 4 ∨ k.out ≠ [] → Completes (.closePkt l p) s (fun t => t = s.setConn c { k with peerClosed := true }))))

/-! Palur. -/

/-- Palur's requests (09_command_queues.md R300-R303, 12_krovmo_fabric.md R396-R398, 15_security_firmware.md R475, R484-R488, R495): the mailbox has one owner and takes a request at a time; a datagram that does not verify is counted, a replay too; a request is answered by its row, denied by the state table, or refused while the module is fatal or a long operation runs; a report and the calibration are read in pieces, written as a copy and committed when it checks. The management port answers what asks for one of its addresses (12 R396); its DHCPv4 client is that of RFC 2131 (log entry 166). -/
def Obligations.PalurRequests : Prop :=
  (∀ s : State, served s = true →
      (∀ v : BitVec 8,
        (96 < v.toNat → Completes (.mbxOwnerWrite v) s (fun t => OneFlag s t pPalur 2))
        ∧ (v.toNat ≤ 96 → v = 0 ∨ s.rd pPalur 0x300 = 0 → Completes (.mbxOwnerWrite v) s (fun t => t.rd pPalur 0x300 = v.toNat ∧ OnlyWords s t [(pPalur, 0x300)]))
        ∧ (1 ≤ v.toNat → v.toNat ≤ 96 → s.rd pPalur 0x300 ≠ 0 → Idle (.mbxOwnerWrite v) s))
      ∧ (s.rd pPalur 0x300 = 0 ∨ s.rdB pPalur 0x308 0 = true → Completes .mbxGo s (fun t => t.rdB pPalur 0x308 1 = true ∧ t.rdB pPalur 0x308 0 = s.rdB pPalur 0x308 0 ∧ OnlyWords s t [(pPalur, 0x308)]))
      ∧ (s.rd pPalur 0x300 ≠ 0 → s.rdB pPalur 0x308 0 = false → ∀ m, (∀ i, i < 64 → leAt m (4 * i) 4 = s.rd pPalur (0x400 + 4 * i)) → m.length = 256 → s.palur.reqs = [] →
          (malformed ⟨none, m⟩ = none → Completes .mbxGo s (fun t => t.palur = { s.palur with reqs := [⟨none, m⟩] } ∧ t.rd pPalur 0x308 = 1
            ∧ RegsKept s t [(pPalur, 0x308)] ∧ t = { s with regs := t.regs, palur := t.palur }))
          ∧ (∀ st pl, malformed ⟨none, m⟩ = some (st, pl) → canServe s ⟨none, m⟩ = true → Completes .mbxGo s (fun t =>
              ∃ u, u = { s with regs := u.regs } ∧ RegsKept s u [(pPalur, 0x308)] ∧ Replied u t ⟨none, m⟩ st pl))))
  ∧ (∀ s : State, mgmtHears s = true →
      let counted (t : State) : Prop := t.rd pMgmt 0x210 = (s.rd pMgmt 0x210 + 1) % 2 ^ 32
      let m : MgmtNet := s.mgmt
      let tag : Option Nat := if s.rdB pMgmt 0x104 2 = true then some (s.rdF pMgmt 0x104 4 12) else none
      let took (k : FrameKind) (m' : MgmtNet) : Prop := Completes (.mgmtFrame k) s (fun t => counted t ∧ RegsKept s t [(pMgmt, 0x210)] ∧ t = { s with regs := t.regs, mgmt := m' })
      let answers (k : FrameKind) (asks : Prop) (f : MgmtFrame) : Prop := (asks → took k { m with sent := some (tag, f) }) ∧ (¬ asks → took k m)
      (Completes (.mgmtFrame .other) s (fun t => counted t ∧ t.rd pMgmt 0x214 = (s.rd pMgmt 0x214 + 1) % 2 ^ 32 ∧ OnlyWords s t [(pMgmt, 0x210), (pMgmt, 0x214)]))
      ∧ (∀ rq mac ip target, answers (.arp rq mac ip target) (rq = true ∧ portIp4 s = some target.toNat) (.arp target.toNat (portMac s) mac.toNat))
      ∧ (∀ rq source target, answers (.ndp rq source target) (rq = true ∧ ownIp6 s target.toNat = true) (.ndp target.toNat (portMac s) source.toNat))
      ∧ (∀ rq source target data, answers (.icmp true rq source target data) (rq = true ∧ ownIp6 s target.toNat = true) (.echo true target.toNat source.toNat data)
          ∧ answers (.icmp false rq source target data) (rq = true ∧ portIp4 s = some target.toNat) (.echo false target.toNat source.toNat data))
      ∧ (∀ (xid addr server : BitVec 32) (plen : Nat) (gateway : BitVec 32) (secs : Nat),
          let msg (kind : DhcpKind) : FrameKind := .dhcp kind xid addr server plen gateway secs
          let mine : Prop := s.rdB pMgmt 0x104 16 = true ∧ xid.toNat = m.xid
          (∀ kind, ¬ mine → took (msg kind) m)
          ∧ (mine → m.dhcp = 1 → took (msg .offer) { m with dhcp := 2, sent := some (tag, .request xid.toNat addr.toNat server.toNat) })
          ∧ (mine → m.dhcp ≠ 1 → took (msg .offer) m)
          ∧ (mine → m.dhcp = 2 → took (msg .ack) { m with dhcp := 3, lease := some (addr.toNat, plen, gateway.toNat, s.ref + 100000000 * secs) }
              ∧ Completes (.mgmtFrame (msg .nak)) s (fun t => counted t ∧ t.mgmt.dhcp = 1 ∧ t.mgmt.lease = none))
          ∧ (mine → m.dhcp ≠ 2 → took (msg .ack) m ∧ took (msg .nak) m))
      ∧ ∀ d : List Byte,
          let σ : Nat := leAt d 4 4
          let seq : Nat := leAt d 8 8
          let formed : Prop := 16 ≤ d.length ∧ leAt d 1 1 = 0 ∧ seq < 2 ^ 63 ∧ d.length = leAt d 2 2 + 32 ∧ 8 ≤ leAt d 2 2 ∧ leAt d 2 2 ≤ 256
          let known : Prop := ∃ x ∈ s.palur.sessions, x.1 = σ
          let clear : Option (List Byte) := Config.openSealed (sessKey s σ) (toLE 4 σ ++ toLE 8 seq) (d.take 16) ((d.drop 16).take (leAt d 2 2)) (d.drop (16 + leAt d 2 2))
          (16 ≤ d.length → s.store.mgmtKey ≠ none → leAt d 0 1 ≠ 1 → Completes (.mgmtDatagram d) s (fun t => counted t ∧ RegsKept s t [(pMgmt, 0x210)]
            ∧ t = { s with regs := t.regs, palur := { s.palur with sent := toLE 1 1 ++ toLE 1 2 ++ toLE 2 2 ++ toLE 4 σ ++ toLE 8 seq ++ [1, 1] } }))
          ∧ (s.store.mgmtKey = none ∨ (leAt d 0 1 = 1 ∧ ¬ formed) ∨ (leAt d 0 1 = 1 ∧ σ ≤ s.store.sessHigh ∧ ¬ known) ∨ (leAt d 0 1 = 1 ∧ clear = none) →
              Completes (.mgmtDatagram d) s (fun t => counted t ∧ t.rd pMgmt 0x218 = (s.rd pMgmt 0x218 + 1) % 2 ^ 32 ∧ WordsAndFlag s t [(pMgmt, 0x210), (pMgmt, 0x218)] pMgmt 10))
          ∧ (∀ m x, s.store.mgmtKey ≠ none → leAt d 0 1 = 1 → formed → clear = some m → s.palur.sessions.find? (fun x => decide (x.1 = σ)) = some x →
              (seq ≤ x.2 → Completes (.mgmtDatagram d) s (fun t => counted t ∧ t.rd pMgmt 0x21C = (s.rd pMgmt 0x21C + 1) % 2 ^ 32 ∧ WordsAndFlag s t [(pMgmt, 0x210), (pMgmt, 0x21C)] pMgmt 11))
              ∧ (x.2 < seq → s.palur.reqs = [] → malformed ⟨some (σ, seq), slice m 0 256⟩ = none → Completes (.mgmtDatagram d) s (fun t => counted t
                  ∧ t.rd pMgmt 0x220 = (s.rd pMgmt 0x220 + 1) % 2 ^ 32 ∧ t.palur.reqs = [⟨some (σ, seq), slice m 0 256⟩] ∧ (σ, seq) ∈ t.palur.sessions
                  ∧ RegsKept s t [(pMgmt, 0x210), (pMgmt, 0x220)] ∧ t = { s with regs := t.regs, palur := { s.palur with sessions := t.palur.sessions, reqs := t.palur.reqs } })))
          ∧ (∀ m, s.store.mgmtKey ≠ none → leAt d 0 1 = 1 → formed → clear = some m → s.store.sessHigh < σ → ¬ known → s.palur.reqs = [] →
              malformed ⟨some (σ, seq), slice m 0 256⟩ = none → Completes (.mgmtDatagram d) s (fun t => counted t ∧ t.store = { s.store with sessHigh := σ }
                ∧ t.palur.reqs = [⟨some (σ, seq), slice m 0 256⟩] ∧ t.palur.sessions.getLast? = some (σ, seq) ∧ t.palur.sessions.length ≤ 8)))
  ∧ (∀ (s0 s : State) (r : PReq), ∀ x ∈ palurTable, Taken s0 s x.2.1 r →
      (s.rdF pErrlog 0x220 0 2 = 2 → fatalServes r.cmd = false → Completes x.1 s0 (fun t => RequestFailed s t r 0x1E))
      ∧ (s.rdF pErrlog 0x220 0 2 ≠ 2 → denied s r = true → Completes x.1 s0 (fun t => Replied s t r 4 []))
      ∧ (s.rdF pErrlog 0x220 0 2 ≠ 2 → denied s r = false → x.2.2 = true → s.palur.long ≠ none → Completes x.1 s0 (fun t => Replied s t r 5 [])))
  ∧ (∀ s : State, s.palur.reqs = [] → ∀ x ∈ palurTable, Idle x.1 s)
  ∧ (∀ (s0 s : State) (r : PReq) (row : Nat), Serves s0 s row r →
      let piece (b : List Byte) (t : State) : Prop :=
        (b.length < r.le 0xC 4 + r.le 0xA 2 → Replied s t r 3 []) ∧ (r.le 0xC 4 + r.le 0xA 2 ≤ b.length → Replied s t r 0 (slice b (r.le 0xC 4) (r.le 0xA 2)))
      (row = 0x0100 → Completes .getInfo s0 (fun t => ∃ b, Replied s t r 0 b))
      ∧ (row = 0x0200 → Completes .getResult s0 (fun t => Replied s t r 0 s.palur.result))
      ∧ (row = 0x6000 → Completes .errlogRead s0 (fun t =>
          let l : List (Nat × List Byte) := match r.arg with | 0 => s.log.recent | 1 => s.store.class3 | _ => retList s
          let found : List (Nat × List Byte) := (l.filter (fun x => decide (r.le 0xC 4 ≤ x.1))).take 3
          Replied s t r 0 (toLE 4 found.length ++ toLE 4 (match found.getLast? with | some x => (x.1 + 1) % 2 ^ 32 | none => r.le 0xC 4) ++ (found.map (fun x => x.2)).foldl (· ++ ·) [])))
      ∧ (row = 0x5002 → Completes .attestBurgee s0 (piece s.store.burgee))
      ∧ (row = 0x5001 →
          (∀ b, s.palur.long = some (.attest b) → Completes .attestRead s0 (fun t => Replied s t r 5 []))
          ∧ (s.palur.long = none → s.palur.report = none → Completes .attestRead s0 (fun t => Replied s t r 7 []))
          ∧ (∀ b, s.palur.long = none → s.palur.report = some b → Completes .attestRead s0 (piece b)))
      ∧ (row = 0x5000 → s.palur.long = none → Completes .attestReport s0 (fun t => t.palur.report = none ∧ t.palur.reports = s.palur.reports + 1 ∧ t.opBusy pPalur = true
          ∧ ∃ b, t.palur.long = some (.attest b) ∧ b.take 56 = toLE 1 1 ++ toLE 1 s.store.lifecycle ++ toLE 1 (debugState s) ++ toLE 1 (powerState s) ++ toLE 4 (s.palur.reports + 1)
            ++ slice (slice r.msg 0x10 48) 0 48))
      ∧ (row = 0x7000 →
          (r.arg = 0 → Completes .calRead s0 (piece s.store.calib))
          ∧ (r.arg = 1 → (s.palur.calPend = none → Completes .calRead s0 (fun t => Replied s t r 7 [])) ∧ (∀ b, s.palur.calPend = some b → Completes .calRead s0 (piece b))))
      ∧ (row = 0x7100 →
          (calOk s r = false → Completes .calWriteData s0 (fun t => Replied s t r 4 []))
          ∧ (calOk s r = true → 8192 < r.le 0xC 4 + r.le 0xA 2 → Completes .calWriteData s0 (fun t => Replied s t r 3 []))
          ∧ (calOk s r = true → r.le 0xC 4 + r.le 0xA 2 ≤ 8192 → Completes .calWriteData s0 (fun t =>
              Replied { s with palur := { s.palur with calPend := some (putBytes (s.palur.calPend.getD s.store.calib) (r.le 0xC 4) ((r.msg.drop 0x10).take (r.le 0xA 2))) } } t r 0 [])))
      ∧ (row = 0x7101 →
          (calOk s r = false → Completes .calCommit s0 (fun t => Replied s t r 4 []))
          ∧ (calOk s r = true → s.palur.calPend = none → Completes .calCommit s0 (fun t => Replied s t r 7 []))
          ∧ (∀ b, calOk s r = true → s.palur.calPend = some b →
              (calBad s b (r.le 0xC 4) = true → Completes .calCommit s0 (fun t => Replied s t r 7 []))
              ∧ (calBad s b (r.le 0xC 4) = false → Completes .calCommit s0 (fun t => ∃ u,
                  Replied { s with
                    palur := { s.palur with calPend := none, calDue := some (putBytes b 0x1FFC (toLE 4 (r.le 0xC 4))) }
                    store := { s.store with modified := true } } u r 0 [] ∧ OneFlag u t pPalur 17))))
      ∧ (row = 0x7102 → calOk s r = true → Completes .calDiscard s0 (fun t => Replied { s with palur := { s.palur with calPend := none } } t r 0 [])))
  ∧ (∀ (s : State) (b : List Byte), s.up = true → s.paused = false → s.palur.long = some (.attest b) → Completes .attestSignComplete s (fun t =>
      LongEnded t ∧ t.palur.result = [0, 0, 0, 0, 0] ∧ t.palur.report = some (b ++ slice (Config.sigOf (Config.deviceKey 0) b) 0 384 ++ slice (Config.sigOf (Config.deviceKey 1) b) 0 16224)))
  ∧ (∀ s : State, s.palur.long = none → Idle .attestSignComplete s)

/-- Firmware (15_security_firmware.md R475-R483): an image is staged from host memory or in chunks, checked whole, and stored in the bank that is not active; an activation checks it again, pauses command fetch, and ends with the new image in use or the old one kept; a chunked staging lapses after 60 s. -/
def Obligations.Firmware : Prop :=
  (∀ (s0 s : State) (r : PReq) (row : Nat), Serves s0 s row r →
      let blank : Store := { s.store with banks := lset s.store.banks (1 - s.store.active) none, staged := false, stagedBad := false }
      let off : Nat := r.le 0xC 4
      let last : Bool := bit (r.le 9 1) 0
      let chunk (got : List Byte) : List Byte := got ++ (r.msg.drop 0x10).take (r.le 0xA 2)
      let head (got : List Byte) : Nat × Nat :=
        if got.length < hdrLen (chunk got) + 16608 ∧ hdrLen (chunk got) + 16608 ≤ (chunk got).length then headerCheck s (chunk got) else (0, 0)
      let took (t : State) (got : List Byte) (status : Nat) (x : Option LongOp) : Prop := ∃ u, u.palur.long = some (.stage none (chunk got) s.ref last) ∧ u.opBusy pPalur = true
        ∧ (∃ v, Replied u v r status [] ∧ (x = u.palur.long → t = v) ∧ (x = none → t.store = v.store ∧ t.rdB pPalur 0x18 10 = true ∧ LongFailed v t (head got).1 (head got).2))
      (row = 0x2000 → s.palur.long = none → Completes .fwStageHost s0 (fun t => ∃ u, Replied s u r 1 []
          ∧ LongBegun { u with store := blank } t (.stage (some (r.le 0x10 5, r.le 0x18 4)) [] s.ref false) 1 16))
      ∧ (row = 0x2001 → s.palur.long = none →
          (off ≠ 0 → Completes .fwStageChunk s0 (fun t => RequestFailed s t r 0xA))
          ∧ (off = 0 → (head []).1 = 0 → Completes .fwStageChunk s0 (fun t => t.store = blank ∧ took t [] (if last then 1 else 0) (some (.stage none (chunk []) s.ref last)))))
      ∧ (∀ got since, row = 0x2001 → s.palur.long = some (.stage none got since false) → s.opBusy pPalur = true →
          (off ≠ got.length → Completes .fwStageChunk s0 (fun t => ∃ u, Replied s u r 7 [] ∧ LongFailed u t 0xA got.length ∧ t.rdB pPalur 0x18 10 = true))
          ∧ (off = got.length → (head got).1 = 0 → Completes .fwStageChunk s0 (fun t => took t got (if last then 1 else 0) (some (.stage none (chunk got) s.ref last))))
          ∧ (off = got.length → (head got).1 ≠ 0 → Completes .fwStageChunk s0 (fun t => took t got 7 none)))
      ∧ (row = 0x2001 → s.palur.long ≠ none → (∀ got since, s.palur.long ≠ some (.stage none got since false)) → Completes .fwStageChunk s0 (fun t => Replied s t r 5 []))
      ∧ (row = 0x2002 → (staging s = true → Completes .fwStageAbort s0 (fun t => ∃ u, Replied s u r 0 [] ∧ LongFailed u t 0xA 0 ∧ t.rdB pPalur 0x18 10 = true))
          ∧ (staging s = false → Completes .fwStageAbort s0 (fun t => Replied s t r 0 [])))
      ∧ (row = 0x2100 → s.palur.long = none →
          (stagedImage s = none ∨ s.store.staged = false ∨ s.store.stagedBad = true → Completes .fwActivate s0 (fun t => RequestFailed s t r 0xF))
          ∧ (∀ x, stagedImage s = some x → s.store.staged = true → s.store.stagedBad = false →
              (classOk s x = false → Completes .fwActivate s0 (fun t => RequestFailed s t r 5))
              ∧ (classOk s x = true → startCheck s x ≠ 0 → Completes .fwActivate s0 (fun t => t.paused = s.paused ∧ t.palur.long = none ∧ t.palur.result = toLE 1 (startCheck s x) ++ toLE 4 0
                  ∧ t.rdB pPalur 0x18 7 = true ∧ t.store = s.store))
              ∧ (classOk s x = true → startCheck s x = 0 → Completes .fwActivate s0 (fun t => ∃ u v, Replied s u r 1 [] ∧ LongBegun u v (.activate (bit r.arg 0)) 5 0
                  ∧ t.paused = true ∧ t.rd pPalur 0x20 = progressWord 2 7 1 % 2 ^ 32 ∧ RegsKept v t [(pPalur, 0x20)] ∧ t = { v with regs := t.regs, paused := true })))))
  ∧ (∀ s : State, staging s = false ∨ sourceHeld s = true → ∀ ok, Idle (.fwStageComplete ok) s)
  ∧ (∀ (s s1 : State) (e : Except (Nat × Nat) (List Byte)), s.up = true → s.paused = false → staging s = true → sourceHeld s = false → longSource s = (s1, some e) →
      (∀ c ok, e = .error c → Completes (.fwStageComplete ok) s (fun t => LongFailed s1 t c.1 c.2 ∧ t.rdB pPalur 0x18 10 = true ∧ t.store = s.store))
      ∧ (∀ b, e = .ok b →
          ((imageCheck s1 b).1 ≠ 0 → ∀ ok, Completes (.fwStageComplete ok) s (fun t => LongFailed s1 t (imageCheck s1 b).1 (imageCheck s1 b).2 ∧ t.rdB pPalur 0x18 10 = true ∧ t.store = s.store))
          ∧ ((imageCheck s1 b).1 = 0 → Completes (.fwStageComplete false) s (fun t => LongFailed s1 t 0xE 0 ∧ t.rdB pPalur 0x18 10 = true ∧ t.store = s.store))
          ∧ ((imageCheck s1 b).1 = 0 → Completes (.fwStageComplete true) s (fun t => LongEnded t ∧ t.rdB pPalur 0x18 9 = true ∧ t.palur.result = [0, 0, 0, 0, 0]
              ∧ t.store = { s.store with
                banks := lset s.store.banks (1 - s.store.active) (some ⟨b.take (hdrLen b + 16608 + leAt b 0x18 8), true⟩)
                staged := true
                stagedBad := false }))))
  ∧ (∀ (s : State) (got : List Byte) (since : Nat), s.palur.long = some (.stage none got since false) →
      (since + 6000000000 ≤ s.ref → Completes .stagingChunkTimeout s (fun t => LongFailed s t 0xA got.length ∧ t.rdB pPalur 0x18 10 = true))
      ∧ (s.ref < since + 6000000000 → Idle .stagingChunkTimeout s))
  ∧ (∀ (s : State) (got : List Byte) (since : Nat), s.palur.long = some (.token none got since false) → since + 6000000000 ≤ s.ref →
      Completes .stagingChunkTimeout s (fun t => LongFailed s t 0xA got.length))
  ∧ (∀ (s : State) (x : Image) (hr : Bool) (us : Nat), s.palur.long = some (.activate hr) → stagedImage s = some x → s.palur.reqs = [] →
      Completes (.fwActivateComplete false us) s (fun t => t.paused = false ∧ t.palur.long = none ∧ t.palur.result = toLE 1 0x10 ++ toLE 4 0 ∧ t.palur.pauseUs = us % 2 ^ 16
          ∧ t.store = { s.store with stagedBad := true } ∧ t.rdB pPalur 0x18 12 = true ∧ t.rdB pPalur 0x18 7 = true)
      ∧ Completes (.fwActivateComplete true us) s (fun t => t.paused = false ∧ t.store.active = 1 - s.store.active ∧ t.store.staged = false ∧ t.store.banks = s.store.banks
          ∧ t.store.minSvn = max s.store.minSvn x.svn ∧ t.palur.long = none ∧ t.palur.result = [0, 0, 0, 0, 0] ∧ t.palur.pauseUs = us % 2 ^ 16
          ∧ (hr = false → LongEnded t ∧ t.rdB pPalur 0x18 11 = true ∧ t.hartsOn = s.hartsOn) ∧ (hr = true → t.hartsOn = 0)
          ∧ t.store.mapped = s.store.mapped ∧ t.mem.retired = s.mem.retired
          ∧ (s.store.kept = [] → ∀ k, k < 2 →
              (k ∈ s.store.badRecs → recOf t k = { shippedRec k with lay := x.setLay } ∧ t.rdB pPalur 0x18 20 = true)
              ∧ (k ∉ s.store.badRecs → (recOf s k).lay ≤ x.setLay → recOf t k = { recOf s k with lay := x.setLay } ∧ ((recOf s k).lay < x.setLay → t.rdB pPalur 0x18 18 = true))
              ∧ (k ∉ s.store.badRecs → x.setLay < (recOf s k).lay → recOf t k = { shippedRec k with lay := x.setLay } ∧ (k, recOf s k) ∈ t.store.kept ∧ t.rdB pPalur 0x18 19 = true))))
  ∧ (∀ (s : State) (ok : Bool) (us : Nat), s.palur.long = none → Idle (.fwActivateComplete ok us) s)

/-- Tokens, the debug state and self-test (15 R489-R496, 16_bringup_errors_test.md R513, R514): a challenge is drawn and lapses after 600 s; a token is presented, checked once, and takes effect or is refused; the debug state ends by its request or with its time; tested tiles hold zeros, and those that fail are disabled. -/
def Obligations.TokensAndTests : Prop :=
  (∀ (s0 s : State) (r : PReq) (row : Nat), Serves s0 s row r →
      let last : Bool := bit (r.le 0xA 1) 0
      let data : List Byte := (r.msg.drop 0x11).take (r.le 0xB 2)
      (row = 0x3101 → Completes .debugTokenChallenge s0 (fun t =>
          let c : List Byte := ((List.range 4).map (fun i => toLE 8 (Config.randomWord (s.palur.draws + i)).toNat)).foldl (· ++ ·) []
          Replied { s with palur := { s.palur with draws := s.palur.draws + 4, challenge := some (c, s.ref) } } t r 0 c))
      ∧ (row = 0x3100 → r.le 9 1 = 0 →
          (s.palur.long ≠ none → Completes .debugTokenPresent s0 (fun t => Replied s t r 5 []))
          ∧ (s.palur.long = none → Completes .debugTokenPresent s0 (fun t => ∃ u, Replied s u r 1 [] ∧ LongBegun u t (.token (some (r.le 0x11 5, r.le 0x19 4)) [] s.ref false) 5 0)))
      ∧ (row = 0x3100 → r.le 9 1 = 1 →
          (s.palur.long = none → r.le 0xD 4 ≠ 0 → Completes .debugTokenPresent s0 (fun t => RequestFailed s t r 0xA))
          ∧ (s.palur.long = none → r.le 0xD 4 = 0 → Completes .debugTokenPresent s0 (fun t => ∃ u, Replied s u r (if last then 1 else 0) [] ∧ LongBegun u t (.token none data s.ref last) 5 0))
          ∧ (∀ got since, s.palur.long = some (.token none got since false) →
              (r.le 0xD 4 = got.length → Completes .debugTokenPresent s0 (fun t => ∃ u, Replied s u r (if last then 1 else 0) []
                ∧ t = { u with palur := { u.palur with long := some (.token none (got ++ data) s.ref last) } }))
              ∧ (r.le 0xD 4 ≠ got.length → Completes .debugTokenPresent s0 (fun t => ∃ u, Replied s u r 7 [] ∧ LongFailed u t 0xA got.length))))
      ∧ (row = 0x3102 →
          (r.session ≠ none ∨ s.store.lifecycle ≠ 1 → Completes .debugTokenDeploy s0 (fun t => Replied s t r 4 []))
          ∧ (r.session = none → s.store.lifecycle = 1 → Completes .debugTokenDeploy s0 (fun t => t.store.lifecycle = 2 ∧ t.rdB pPalur 0x18 16 = true ∧ t.hbm = [] ∧ t.bind.bound = [] ∧ t.cmds = [])))
      ∧ (row = 0x3103 →
          let may : Prop := (r.session ≠ none ∧ s.store.lifecycle = 2) ∨ (r.session = none ∧ (s.store.lifecycle = 1 ∨ s.store.lifecycle = 2))
          (¬ may → Completes .debugTokenMgmtKey s0 (fun t => Replied s t r 4 []))
          ∧ (may → Completes .debugTokenMgmtKey s0 (fun t => ∃ u, Replied s u r 0 [] ∧ t = { u with store := { s.store with mgmtKey := some (slice r.msg 0x10 32) }, palur := { u.palur with sessions := [] } })))
      ∧ (row = 0x3104 →
          (s.palur.debug = 0 → Completes .debugTokenEnd s0 (fun t => Replied s t r 0 []))
          ∧ (s.palur.debug ≠ 0 → Completes .debugTokenEnd s0 (fun t => t.palur.debug = 0 ∧ t.rdB pPalur 0x18 15 = true ∧ t.store = s.store)))
      ∧ (∀ k c, (k, c, row) ∈ [(0, Instr.selfTestTileLogic, 0x3000), (1, .selfTestStorage, 0x3001)] → s.palur.long = none →
          ((∃ n ∈ testTiles r, testBarred s n = true) → Completes c s0 (fun t => RequestFailed s t r 0x1D))
          ∧ ((∀ n ∈ testTiles r, testBarred s n = false) → Completes c s0 (fun t => ∃ u, Replied s u r 1 [] ∧ LongBegun u t (.selfTest k (testTiles r)) 5 0)))
      ∧ (row = 0x3002 → s.palur.long = none →
          ((∃ j, j < 16 ∧ jobState s j = 3) → Completes .selfTestLoopback s0 (fun t => RequestFailed s t r 0x1D))
          ∧ ((∀ j, j < 16 → jobState s j ≠ 3) → Completes .selfTestLoopback s0 (fun t => ∃ u, Replied s u r 1 [] ∧ LongBegun u t (.selfTest 2 []) 5 0))))
  ∧ (∀ (s s1 : State) (e : Except (Nat × Nat) (List Byte)), s.up = true → s.paused = false → presenting s = true → sourceHeld s = false → longSource s = (s1, some e) →
      (∀ c, e = .error c → Completes .tokenVerifyComplete s (fun t => t.palur.challenge = none ∧ t.palur.long = none ∧ t.palur.result = toLE 1 c.1 ++ toLE 4 c.2 ∧ t.rdB pPalur 0x18 14 = true ∧ t.store = s.store))
      ∧ (∀ b, e = .ok b →
          (tokenCheck s1 b ≠ 0 → Completes .tokenVerifyComplete s (fun t => t.palur.challenge = none ∧ t.palur.long = none ∧ t.palur.result = toLE 1 (tokenCheck s1 b) ++ toLE 4 0
            ∧ t.palur.debug = s.palur.debug ∧ t.rdB pPalur 0x18 14 = true ∧ t.rdB pPalur 0x18 7 = true ∧ t.store = s.store))
          ∧ (tokenCheck s1 b = 0 →
              let kind : Nat := leAt b 1 1
              Completes .tokenVerifyComplete s (fun t =>
                (kind = 1 ∨ kind = 2 → t.palur.challenge = none ∧ t.palur.debug = kind ∧ t.palur.debugEnd = s.ref + 100000000 * leAt b 0x30 4 ∧ LongEnded t ∧ t.rdB pPalur 0x18 13 = true ∧ t.store = s.store)
                ∧ (kind = 6 → t.palur.challenge = none ∧ LongEnded t ∧ t.rdB pPalur 0x18 13 = true ∧ t.store = { s.store with revoked := s.store.revoked ||| 2 ^ leAt b 3 1 })
                ∧ (kind = 3 ∨ kind = 5 → t.store.lifecycle = 1 ∧ t.rdB pPalur 0x18 16 = true ∧ t.hbm = [] ∧ t.bind.bound = [])
                ∧ (kind = 4 → t.store.lifecycle = 3 ∧ t.store.mgmtKey = none ∧ t.rdB pPalur 0x18 16 = true ∧ t.hbm = [] ∧ t.bind.bound = [])))))
  ∧ (∀ s : State, presenting s = false ∨ sourceHeld s = true → Idle .tokenVerifyComplete s)
  ∧ (∀ (s : State) (c : List Byte) (since : Nat), s.palur.challenge = some (c, since) →
      (since + 60000000000 ≤ s.ref → Completes .challengeLapse s (fun t => t = { s with palur := { s.palur with challenge := none } }))
      ∧ (s.ref < since + 60000000000 → Idle .challengeLapse s))
  ∧ (∀ s : State, s.up = true →
      (s.palur.debug ≠ 0 → s.palur.debugEnd ≤ s.ref → Completes .debugExpiry s (fun t => t.palur = { s.palur with debug := 0, debugEnd := 0 } ∧ t.rdB pPalur 0x18 15 = true ∧ t.store = s.store))
      ∧ (s.palur.debug = 0 ∨ s.ref < s.palur.debugEnd → Idle .debugExpiry s))
  ∧ (∀ (s : State) (k : Nat) (tiles fails : List Nat), s.up = true → s.paused = false → s.palur.long = some (.selfTest k tiles) → k ≠ 2 → (∀ n ∈ tiles, n < 160) →
      Completes (.selfTestComplete fails) s (fun t => LongEnded t ∧ t.palur.result = testResult (tiles.filter fails.contains)
        ∧ (∀ n ∈ tiles, (∀ a, a < 2 ^ 32 → t.tb n a = 0) ∧ t.tile n = Tile.init)
        ∧ (∀ n ∈ tiles, n ∈ fails → t.enabled (pTile n) = false ∧ t.rdB pErrlog (0x230 + 4 * (n / 32)) (n % 32) = true)
        ∧ (∀ n, n ∉ tiles → t.tile n = s.tile n) ∧ t.hbm = s.hbm))
  ∧ (∀ (s : State) (tiles fails : List Nat), s.up = true → s.paused = false → s.palur.long = some (.selfTest 2 tiles) →
      Completes (.selfTestComplete fails) s (fun t => t.palur.long = none ∧ t.opBusy pPalur = false
        ∧ t.palur.result = toLE 1 (if ∃ n ∈ fails, n < 128 then 0x1B else 0) ++ toLE 4 0
        ∧ (∀ i, i < 16 → t.rdB pHostc 0x218 i = (s.rdB pHostc 0x218 i && !fails.contains (112 + i)))
        ∧ (t.rdF pHostc 0x218 0 16 ≠ 0 → t.rd pErrlog 0x220 = s.rd pErrlog 0x220)
        ∧ (t.rdF pHostc 0x218 0 16 = 0 → t.rdF pErrlog 0x220 0 2 = 2 ∧ t.rdF pErrlog 0x220 8 8 = 3) ∧ t.hbm = s.hbm))

/-! Bring-up, sleep and resets. -/

/-- Bring-up (16_bringup_errors_test.md R499-R507): taken once after a stage A, over the mailbox or by itself after 5 s; it ends with the module working, or at the step that failed. -/
def Obligations.BringUp : Prop :=
  (∀ (s : State) (env : BringupEnv), s.palur.reqs = [] → Idle (.bringupRun env) s)
  ∧ (∀ (s0 s : State) (r : PReq) (env : BringupEnv), Taken s0 s 0x1000 r →
      (s.rdF pErrlog 0x220 0 2 = 2 → Completes (.bringupRun env) s0 (fun t => RequestFailed s t r 0x1E))
      ∧ (s.rdF pErrlog 0x220 0 2 ≠ 2 → denied s r = true → Completes (.bringupRun env) s0 (fun t => Replied s t r 4 []))
      ∧ (s.rdF pErrlog 0x220 0 2 ≠ 2 → denied s r = false → s.palur.long ≠ none → Completes (.bringupRun env) s0 (fun t => Replied s t r 5 []))
      ∧ (s.rdF pErrlog 0x220 0 2 ≠ 2 → denied s r = false → s.palur.long = none → s.palur.taken = true → Completes (.bringupRun env) s0 (fun t => RequestFailed s t r 0x18)))
  ∧ (∀ (s0 s : State) (c : Instr) (env : BringupEnv) (key : Nat) (bist : Bool), (∀ n ∈ s.store.mapped, n < 768) → s.palur.taken = false →
      (∃ r, Serves s0 s 0x1000 r ∧ s.palur.long = none ∧ c = .bringupRun env ∧ key = r.le 8 8 ∧ bist = bit (r.le 0x10 1) 0)
        ∨ (s0 = s ∧ c = .bringupAuto env ∧ key = 0 ∧ bist = false ∧ alive s = true ∧ s.palur.rom = false ∧ s.palur.long = none ∧ s.palur.stageAt + 500000000 ≤ s.ref) →
      (netEnough env = false → Completes c s0 (fun t => BringupFailed s t 0x19))
      ∧ (netEnough env = true → stacksOver (bringMapped env s) ≠ [] → Completes c s0 (fun t => BringupFailed s t 0x1A ∧ ∀ st ∈ stacksOver (bringMapped env s), t.rdB (pHbmc st) 0x18 17 = true))
      ∧ (netEnough env = true → stacksOver (bringMapped env s) = [] → Completes c s0 (fun t => BroughtUp s t env key bist)))
  ∧ (∀ (s : State) (env : BringupEnv), s.palur.taken = true ∨ s.palur.rom = true ∨ s.ref < s.palur.stageAt + 500000000 → Idle (.bringupAuto env) s)

/-- Sleep, resets and the input (14_power_thermal.md R436, R437, 16 R499, R508-R512): each sleep state is entered where its conditions hold and left again; a host-complex or module reset answers first; with its input qualified the module runs stage A, and without it only its store is left. -/
def Obligations.SleepAndResets : Prop :=
  (∀ (s0 s : State) (r : PReq) (row : Nat), Serves s0 s row r →
      (row = 0x1101 → s.palur.long = none →
          (powerState s ≠ 0 → Completes .sleepEnterP1 s0 (fun t => RequestFailed s t r 0x1D))
          ∧ (powerState s = 0 → sleepReady s = false → Completes .sleepEnterP1 s0 (fun t => RequestFailed s t r 0x1C))
          ∧ (powerState s = 0 → sleepReady s = true → Completes .sleepEnterP1 s0 (fun t => powerState t = 1 ∧ (∀ d, d < 4 → railOn t d = false) ∧ LongEnded t ∧ t.hbm = s.hbm ∧ t.store = s.store)))
      ∧ (row = 0x1102 → s.palur.long = none →
          (powerState s = 2 → Completes .sleepEnterP2 s0 (fun t => RequestFailed s t r 0x1D))
          ∧ (powerState s ≠ 2 → sleepDeep s = false → Completes .sleepEnterP2 s0 (fun t => RequestFailed s t r 0x1C))
          ∧ (powerState s ≠ 2 → sleepDeep s = true → (∀ l, l < 32 → ConnsQuiet s l) → Completes .sleepEnterP2 s0 (fun t => powerState t = 2 ∧ (∀ d, d < 4 → railOn t d = false)
              ∧ t.hartsOn = 0 ∧ t.palur.resume = r.le 0x10 8 ∧ (∀ l, l < 32 → linkState t l = 0) ∧ t.mem.sectors = [] ∧ t.hcache = ⟨[], [], []⟩ ∧ t.mem.selfRefresh = true ∧ LongEnded t ∧ t.store = s.store
              ∧ (s.hcache.wait = [] → (∀ x ∈ s.hcache.lines, x.2 ≠ 2) → t.hbm = s.hbm)
              ∧ (s.hcache.wait = [] → s.mem.fillWait = [] → s.mem.failed = [] → fwf (fun _ => 0) s.hcache.lines = true → ∀ a,
                  t.hb a = if 64 * (a / 64) + 64 ≤ memEnd s ∧ fget (fun _ => 0) s.hcache.lines (a / 64) = 2 then fget byte0 s.hcache.bytes a else s.hb a))))
      ∧ (row = 0x1103 → s.palur.long = none → Completes .sleepEnterP3 s0 (fun t => Dark s t ∧ t.power.sleepOff = true ∧ t.store.lastLoss = s.store.lastLoss ∧ t.store.lossDue = s.store.lossDue))
      ∧ (row = 0x1200 → s.palur.long = none →
          (powerState s ≠ 1 → powerState s ≠ 2 → Completes .sleepExit s0 (fun t => RequestFailed s t r 0x1D))
          ∧ (powerState s = 1 → s.bind.holds = [] → Completes .sleepExit s0 (fun t => powerState t = 0 ∧ (∀ d, d < 4 → railOn t d = (railOn s d || !dieTripped s d)) ∧ LongEnded t
              ∧ (∀ k, k < 160 → dieTripped s (dieOf k) = false → t.tile k = Tile.init ∧ bstate t (pTile k) = if bstate s (pTile k) = 2 then 4 else bstate s (pTile k))))
          ∧ (powerState s = 2 → Completes .sleepExit s0 (fun t => t.hartsOn = 1 ∧ t.hart 0 = { Hart.init with pc := s.palur.resume } ∧ t.palur.entry = s.palur.resume ∧ t.mem.selfRefresh = false ∧ t.palur.long = none ∧ t.palur.result = [0, 0, 0, 0, 0]
              ∧ (s.bind.bound = [] → s.bind.holds = [] → powerState t = 0 ∧ LongEnded t)
              ∧ (s.conns = [] → ∀ q, q < 16384 → bstate s (pQueue q) = 0 → qState t q = 0 ∧ t.rd (pQueue q) 0x200 = 0 ∧ t.rd (pQueue q) 0x204 = 0))))
      ∧ (row = 0x4000 → (∀ x ∈ s.bind.bound, pageOk x = true) → Completes .hostReset s0 (fun t => t.hartsOn = 0 ∧ t.harts = [] ∧ t.hcache = ⟨[], [], []⟩ ∧ t.xlat.reqs = [] ∧ t.ssip = 0 ∧ t.rd pPalur 0x300 = 0
          ∧ t.rd pHostc 0x210 = (s.rd pHostc 0x210 + 1) % 2 ^ 32 ∧ t.rd pHostc 0x214 = (if r.session = none then 2 else 3) ∧ t.rdB pHostc 0x18 8 = true ∧ t.rdB pQeng 0x18 8 = true
          ∧ (∀ q, q < 16384 → qState t q = if ⟨.queue, q⟩ ∈ s.bind.bound ∧ qState s q = 2 then 4 else qState s q) ∧ t.hbm = s.hbm))
      ∧ (row = 0x4100 → Completes .moduleReset s0 (fun t => t.up = true ∧ t.hbm = [] ∧ t.tmem = [] ∧ t.cmds = [] ∧ t.bind.bound = [] ∧ t.hartsOn = 0 ∧ t.ref = s.ref ∧ t.ptp = 0
          ∧ t.mem = { MemSys.init with retired := t.mem.retired, rowRep := s.mem.rowRep, bankSpare := s.mem.bankSpare }
          ∧ (2 ∉ s.store.badRecs → (∀ y ∈ s.store.kept, y.1 ≠ 2) → (∀ x, activeImage s = some x ∨ stagedImage s = some x → s.store.rowsLay ≤ x.setLay) →
              t.mem.retired = s.mem.retired ∧ t.store.mapped = s.store.mapped) ∧ t.store.lifecycle = s.store.lifecycle
          ∧ t.store.mgmtKey = s.store.mgmtKey ∧ t.pending = s.pending)))
  ∧ (∀ s : State, s.up = true ∨ s.power.sleepOff = true → Idle .inputQualified s)
  ∧ (∀ s : State, s.up = false → s.power.sleepOff = false → (∀ n ∈ s.store.mapped, n < 768) → (∀ x ∈ s.store.retCounts, x.1 < 768) →
      (∀ y ∈ s.store.kept, y.1 = 2 → (∀ n ∈ y.2.words, n < 768) ∧ ∀ x ∈ y.2.counts, x.1 < 768) →
      let a : Option Nat := (activeImage s).map (startCheck { s with ref := 0 })
      let b : Option Nat := (stagedImage s).map (startCheck { s with ref := 0 })
      Completes .inputQualified s (fun t => t.up = true ∧ t.ref = 0 ∧ t.palur.stageAt = 0 ∧ t.power.baseMv = 750 ∧ t.power.hostMv = 750
        ∧ (∀ st, st < 12 → t.rd64 (pHbmc st) 0x248 = (768 - t.store.mapped.length) * 1125000000)
        ∧ t.enabled pPalur = true ∧ t.enabled pTime = true ∧ t.enabled pBunt = true ∧ t.enabled pErrlog = true
        ∧ (s.store.lossDue = true → t.rdB pPower 0x18 14 = true ∧ t.store.lossDue = false) ∧ t.hbm = s.hbm
        ∧ (a = some 0 → t.palur.rom = false ∧ t.store.active = s.store.active)
        ∧ (∀ x, a = some 0 → activeImage s = some x → s.store.kept = [] → ∀ k, k < 3 →
            (k ∈ s.store.badRecs → recOf t k = { shippedRec k with lay := x.setLay } ∧ t.rdB pPalur 0x18 20 = true)
            ∧ (k ∉ s.store.badRecs → (recOf s k).lay ≤ x.setLay → recOf t k = { recOf s k with lay := x.setLay } ∧ ((recOf s k).lay < x.setLay → t.rdB pPalur 0x18 18 = true))
            ∧ (k ∉ s.store.badRecs → x.setLay < (recOf s k).lay → recOf t k = { shippedRec k with lay := x.setLay } ∧ (k, recOf s k) ∈ t.store.kept ∧ t.rdB pPalur 0x18 19 = true))
        ∧ (a ≠ some 0 → b = some 0 → t.palur.rom = false ∧ t.store.active = 1 - s.store.active ∧ t.rdB pPalur 0x18 12 = true)
        ∧ (a ≠ some 0 → b ≠ some 0 → t.palur.rom = true ∧ t.store.active = s.store.active)))
  ∧ (∀ s : State,
      (s.up = true →
        Completes .powerLoss s (fun t => Dark s t ∧ t.store.lastLoss = 1 ∧ t.store.lossDue = true ∧ t.power.sleepOff = false ∧ t.store.class3 ≠ [])
        ∧ Completes .inputOvervoltage s (fun t => Dark s t ∧ t.store.lastLoss = 2 ∧ t.store.lossDue = s.store.lossDue))
      ∧ (s.up = false → Idle .powerLoss s ∧ Idle .inputOvervoltage s)
      ∧ (∀ mv,
          let low : Bool := decide (42000 ≤ mv ∧ mv < 46000)
          let high : Bool := decide (54000 < mv ∧ mv ≤ 56000)
          (s.up = false → mv < 40000 → Completes (.inputRangeChange mv) s (fun t => t = { s with power := { s.power with sleepOff := false } }))
          ∧ (s.up = false → 40000 ≤ mv → Idle (.inputRangeChange mv) s)
          ∧ (s.up = true → Completes (.inputRangeChange mv) s (fun t => t.power = { s.power with low := low, high := high } ∧ t = { s with regs := t.regs, log := t.log, power := t.power }
              ∧ (low = true → s.power.low = false → Flagged s t pPower 12) ∧ (high = true → s.power.high = false → Flagged s t pPower 13)
              ∧ ((low = false ∨ s.power.low = true) → (high = false ∨ s.power.high = true) → t.log = s.log ∧ t.regs = s.regs)))))

/-! Power, heat and pace. -/

/-- Power (14_power_thermal.md R439-R450, R457, R462, R464, 15_security_firmware.md R486): at its start POWER and the dies swap what waits (log entry 167), and a control period then sets each die's V_therm, set point, term and duty and takes a committed calibration; rails slew by at most 25 mV; above 6.0 kW the fast limiter lowers rails or duty, and it sets FAST_LIMIT as it stops; each period's power is formed from activity, rail, temperature and calibration; V_cap stands in 5 mV steps between 0.60 and 0.85 V, as the operand gives it for the cap in force, the source in use and the plan that PENNANTs announce, else open (log entry 96); droop is counted, and a rail below 0.45 V trips its die; a window takes its measured values, learns its gains within 1 per cent, and freezes them when it diverges for the third time in a row. -/
def Obligations.Power : Prop :=
  (∀ (s : State) (y : ControlIn), alive s = true →
    let ps : List Page := pPower :: (List.range 4).map pDie
    let s0 : State := ps.foldl (fun s p => if gated s p then s else pointReached s p) s
    ((∀ p ∈ ps, s.swapPending p = false ∧ s.rdB p 0x10 0 = s.enabled p) → s0 = s)
    ∧ (∀ p ∈ ps, s0.enabled p = s.rdB p 0x10 0 ∧ (s.swapPending p = true → s0.swapPending p = false
        ∧ (swapCheck s p = none → ∀ i, i < (caps p.blk).words → s0.rd p (0x100 + 4 * i) = s.rd p (0x900 + 4 * i))))
    ∧ (∀ d, 600 ≤ capTerm s0 y d ∧ capTerm s0 y d ≤ 850 ∧ 5 ∣ capTerm s0 y d
        ∧ (y.cap = capInForce s0 → y.measured = frozen s0 → y.plan = tilePlan s0 → clamp 600 850 ((y.vcap[d]?).getD 850) - 5 < capTerm s0 y d ∧ capTerm s0 y d ≤ clamp 600 850 ((y.vcap[d]?).getD 850)
            ∧ capDuty s0 y d = clamp 10 100 ((y.duty[d]?).getD 100)))
    ∧ (∀ (k : Nat) (p : Pennant), k < 160 → p ∈ s0.pennants → s0.ref < p.stop → k ∈ p.tiles → capInForce s0 * 10 * p.intensity / 160 ≤ ((tilePlan s0)[k]?).getD 0)
    ∧ Completes (.controlPeriod y) s (fun t =>
      (∀ d, d < 4 →
        let hot : Nat := dieHot s0 d
        let old : Nat := fget (fun _ => 850) s0.power.vtherm d
        let v : Nat := fget (fun _ => 850) t.power.vtherm d
        let set : Nat := t.rdF (pDie d) 0x200 0 10
        let cap : Nat := capTerm s0 y d
        (dieTarget s0 d < hot → v = clamp 600 850 (old - 5) ∧ t.rdB (pDie d) 0x18 8 = true)
        ∧ (hot + 32 ≤ dieTarget s0 d → v = clamp 600 850 (old + 5))
        ∧ (hot ≤ dieTarget s0 d → dieTarget s0 d < hot + 32 → v = old)
        ∧ (railOn s0 d = true → s0.paused = false →
            (dieEmergency s0 d = true → set = 600 ∧ (s0.power.limiter = false → t.rdF (pDie d) 0x20C 0 3 = 2 ∧ t.rdF (pDie d) 0x20C 8 7 = 50))
            ∧ (dieEmergency s0 d = false → s0.enabled pPower = false → set = 600 ∧ (s0.power.limiter = false → t.rdF (pDie d) 0x20C 0 3 = 5 ∧ t.rdF (pDie d) 0x20C 8 7 = 100))
            ∧ (dieEmergency s0 d = false → s0.enabled pPower = true →
                set = min (min cap v) (min (paceTerm s0 d) 850) % 2 ^ 10
                ∧ (s0.power.limiter = false → t.rdF (pDie d) 0x20C 0 3 = (if min (min cap v) (min (paceTerm s0 d) 850) = 850 then 0 else if cap = min (min cap v) (min (paceTerm s0 d) 850) then 1 else if v = min (min cap v) (min (paceTerm s0 d) 850) then 2 else 3)
                    ∧ 10 ≤ t.rdF (pDie d) 0x20C 8 7 ∧ t.rdF (pDie d) 0x20C 8 7 ≤ 100
                    ∧ ((∃ n, n < 4 ∧ capTerm s0 y n ≠ 600) → t.rdF (pDie d) 0x20C 8 7 = 100)
                    ∧ ((∀ n, n < 4 → capTerm s0 y n = 600) → t.rdF (pDie d) 0x20C 8 7 = capDuty s0 y d)))
            ∧ (s0.power.limiter = true → t.rdF (pDie d) 0x20C 0 3 = 4 ∧ t.rdF (pDie d) 0x20C 8 7 = s0.rdF (pDie d) 0x20C 8 7)))
      ∧ (∀ c, s0.palur.calDue = some c → t.store.calib = c ∧ t.palur.calDue = none)
      ∧ (s0.enabled pPower = true → y.unreachable = true → t.rdB pPower 0x18 9 = true)
      ∧ t.power.rails = s.power.rails ∧ t.power.rail = s.power.rail ∧ t.hbm = s.hbm ∧ t.tiles = s.tiles))
  ∧ (∀ s : State, s.up = true → s.power.limiter = true → Idle .railSlewStep s)
  ∧ (∀ s : State, s.up = true → s.power.limiter = false → s.power.rails.Nodup → (∀ d ∈ s.power.rails, d < 4) → Completes .railSlewStep s (fun t =>
      (∀ d ∈ s.power.rails,
        let v : Nat := railMv s d
        let set : Nat := s.rdF (pDie d) 0x200 0 10
        (v < set → railMv t d = min set (v + 25)) ∧ (set ≤ v → railMv t d = max set (v - 25))
        ∧ t.rdF (pDie d) 0x200 0 10 = set ∧ t.rdF (pDie d) 0x200 16 10 = railMv t d % 2 ^ 10 ∧ t.rd (pDie d) 0x210 = speedFactor (railMv t d) (dieHot s d) % 2 ^ 32)
      ∧ (∀ d, d ∉ s.power.rails → railMv t d = railMv s d) ∧ t = { s with regs := t.regs, power := { s.power with rail := t.power.rail } }))
  ∧ (∀ (s : State) (w : Nat), s.up = true →
      (w ≤ 6000 → s.power.limiter = false → Idle (.fastLimiter w) s)
      ∧ (w ≤ 6000 → s.power.limiter = true → Completes (.fastLimiter w) s (fun t => t.rdB pPower 0x18 11 = true ∧ t = { s with regs := t.regs, log := t.log, power := { s.power with limiter := false } }))
      ∧ (6000 < w → s.power.rails.Nodup → (∀ d ∈ s.power.rails, d < 4) → Completes (.fastLimiter w) s (fun t => t.power.limiter = true
          ∧ (∀ d ∈ s.power.rails, t.rdF (pDie d) 0x20C 0 3 = 4
              ∧ (600 < railMv s d → railMv t d = clamp 600 1023 (railMv s d - 25) ∧ t.rdF (pDie d) 0x20C 8 7 = s.rdF (pDie d) 0x20C 8 7)
              ∧ (railMv s d ≤ 600 → railMv t d = railMv s d ∧ t.rdF (pDie d) 0x20C 8 7 = (if s.rdF (pDie d) 0x20C 8 7 < 20 then 10 else s.rdF (pDie d) 0x20C 8 7 - 10)))
          ∧ t = { s with regs := t.regs, power := { s.power with limiter := true, rail := t.power.rail } })))
  ∧ (∀ (s : State) (d mv : Nat), d < 4 → s.up = true →
      (railOn s d = true → mv + 30 < s.rdF (pDie d) 0x200 0 10 → Completes (.droop d mv) s (fun t => t.rd (pDie d) 0x218 = (s.rd (pDie d) 0x218 + 1) % 2 ^ 32 ∧ WordsAndFlag s t [(pDie d, 0x218)] (pDie d) 11))
      ∧ (railOn s d = false ∨ s.rdF (pDie d) 0x200 0 10 ≤ mv + 30 → Idle (.droop d mv) s)
      ∧ (railOn s d = true → mv < 450 → dieTripped s d = false → Completes (.brownout d mv) s (fun t => t.rdB (pDie d) 0x18 12 = true ∧ DieTripped s t d))
      ∧ (railOn s d = false ∨ 450 ≤ mv → Idle (.brownout d mv) s))
  ∧ (∀ (s : State) (y : EstimateIn), s.up = true → Completes (.estimatorPeriod y) s (fun t => t.power.estN = s.power.estN + 1
      ∧ (∀ d, d < 4 → fget (fun _ => 0) t.power.est d = fget (fun _ => 0) s.power.est d + Config.diePower s.store.calib ((y.die[d]?).getD []) (railMv s d) (dieHot s d)) ∧ fget (fun _ => 0) t.power.est 4 = fget (fun _ => 0) s.power.est 4 + Config.otherPower s.store.calib y.other
      ∧ t = { s with power := { s.power with est := t.power.est, estN := t.power.estN } }))
  ∧ (∀ s : State, served s = true →
      let waits : Prop := s.rdB pPower 0x218 8 = false ∧ s.rdF pPower 0x218 0 2 = 2
      (waits → Completes .relearn s (fun t => t = { s with power := { s.power with relearn := true } }))
      ∧ (¬ waits → Completes .relearn s (fun t => (∀ d, d < 4 → t.rd pPower (0x220 + 4 * d) = 0x4000) ∧ t.rdB pPower 0x218 8 = false ∧ OnlyWords s t [(pPower, 0x218), (pPower, 0x220), (pPower, 0x224), (pPower, 0x228), (pPower, 0x22C)])))
  ∧ (∀ (s : State) (y : MeasureIn), s.up = true →
      let pin : Nat := y.mv * y.ma / 1000000
      let pest : Nat := estTotal s
      let diff : Nat := if pin < pest then pest - pin else pin - pest
      let frozen : Bool := s.rdB pPower 0x218 8
      let streak : Nat := s.rdF pPower 0x218 0 2
      let off : Prop := 15 * pin < 100 * diff
      Completes (.measurementWindow y) s (fun t =>
        t.rdF pPower 0x200 0 16 = y.mv % 2 ^ 16 ∧ t.rdF pPower 0x204 0 18 = y.ma % 2 ^ 18 ∧ t.rdF pPower 0x208 0 16 = pin % 2 ^ 16 ∧ t.rdF pPower 0x208 16 16 = pest % 2 ^ 16
        ∧ t.rd64 pPower 0x210 = (s.rd64 pPower 0x210 + (s.power.frac + y.mv * y.ma) / 100000) % 2 ^ 64 ∧ t.power.frac = (s.power.frac + y.mv * y.ma) % 100000
        ∧ (∀ d, d < 4 → t.rdF (pDie d) 0x204 0 20 = (y.railMa[d]?).getD 0 % 2 ^ 20 ∧ t.rdF (pDie d) 0x200 16 10 = (y.railMv[d]?).getD 0 % 2 ^ 10)
        ∧ (frozen = false → ¬ off → t.rdF pPower 0x218 0 2 = 0 ∧ t.rdB pPower 0x218 8 = false)
        ∧ (frozen = false → off → streak < 2 → s.power.relearn = false → t.rdF pPower 0x218 0 2 = streak + 1 ∧ t.rdB pPower 0x218 8 = false)
        ∧ (frozen = false → off → 2 ≤ streak → t.rd pPower 0x218 = 259 ∧ t.rd pPower 0x21C = (s.rd pPower 0x21C + 1) % 2 ^ 32 ∧ t.rdB pPower 0x18 10 = true ∧ (s.power.relearn = true → t.rdB pPower 0x18 17 = true))
        ∧ (frozen = true → ∀ d, d < 4 → gain t d = gain s d)
        ∧ (frozen = false → ¬ (off ∧ 2 ≤ streak) → s.power.relearn = true → ∀ d, d < 4 → gain t d = 0x4000)
        ∧ (frozen = false → ¬ (off ∧ 2 ≤ streak) → s.power.relearn = false → ∀ d, d < 4 → gain t d ≤ gain s d + gain s d / 100 ∧ gain s d ≤ gain t d + gain s d / 100)
        ∧ t.power.relearn = false ∧ t.power.est = [] ∧ t.power.estN = 0 ∧ t.hbm = s.hbm ∧ t.tiles = s.tiles))

/-- Heat and pace (14 R448-R453, R458-R460): an emergency at 102 degrees means 0.60 V and half duty, a millisecond at 105 degrees a trip, which ends the die's work with THERMAL_TRIP and lasts until a recovery below 85 degrees; a stack at level 4 for a second, or too hot, or the host die, makes the module fatal; a job's ceiling follows the share of the time its tiles wait. -/
def Obligations.HeatAndPace : Prop :=
  (∀ (s : State) (d : Nat), d < 4 → s.up = true →
      (railOn s d = true → 1632 ≤ dieHot s d → dieEmergency s d = false → Completes (.thermalEmergency d) s (fun t => dieEmergency t d = true ∧ t.rdF (pDie d) 0x200 0 10 = 600
        ∧ t.rdF (pDie d) 0x20C 0 3 = 2 ∧ t.rdF (pDie d) 0x20C 8 7 = 50 ∧ WordsAndFlag s t [(pDie d, 0x14), (pDie d, 0x200), (pDie d, 0x20C)] (pDie d) 9))
      ∧ (railOn s d = false ∨ dieHot s d < 1632 ∨ dieEmergency s d = true → Idle (.thermalEmergency d) s)
      ∧ ((∃ x ∈ s.power.hotSince, x.1 / 48 = d ∧ x.2 + 100000 ≤ s.ref + 1) → dieTripped s d = false → Completes (.dieTrip d) s (fun t => DieTripped s t d))
      ∧ ((∀ x ∈ s.power.hotSince, x.1 / 48 = d → s.ref + 1 < x.2 + 100000) → Idle (.dieTrip d) s)
      ∧ (reached s (pDie d) = true →
          (1360 ≤ dieHot s d → Completes (.dieRecover d) s (fun t => OneFlag s t (pDie d) 2))
          ∧ (dieHot s d < 1360 → dieTripped s d = false → Idle (.dieRecover d) s)
          ∧ (dieHot s d < 1360 → dieTripped s d = true → s.bind.holds = [] → Completes (.dieRecover d) s (fun t => dieTripped t d = false ∧ (powerState s = 0 → railOn t d = true ∧ railMv t d = 600)
              ∧ (powerState s = 0 → ∀ k, k < 160 → dieOf k = d → t.tile k = Tile.init ∧ bstate t (pTile k) = if bstate s (pTile k) = 2 then 4 else bstate s (pTile k))))))
  ∧ (∀ s : State, alive s = true → (∀ l, l < 32 → ConnsQuiet s l) →
      let due : Prop := (∃ x ∈ s.power.lvl4, x.2 + 100000000 ≤ s.ref + 1) ∨ (∃ st, st < 12 ∧ 1568 ≤ s.rdF (pHbmc st) 0x200 0 16) ∨ 1680 ≤ s.rdF pPower 0x230 0 16
      (due → Completes .moduleThermalTrip s (fun t => (∀ d, d < 4 → railOn t d = false) ∧ (∀ l, l < 32 → linkState t l = 0) ∧ t.mem.selfRefresh = true ∧ t.rdF pErrlog 0x220 0 2 = 2 ∧ t.rdF pErrlog 0x220 8 8 = 5 ∧ t.rdB pErrlog 0x18 10 = true))
      ∧ (¬ due → Idle .moduleThermalTrip s))
  ∧ (∀ (s : State) (temp : Nat), s.up = true → temp < 2 ^ 16 → (∀ k, fget (fun _ => 0) s.power.others k < 2 ^ 16) →
      (∀ n, n < 160 → Completes (.temperatureChange (.tile n) temp) s (fun t =>
          let d : Nat := n / 40
          t.rd (pDie d) (0x300 + 4 * (n % 40)) = temp
          ∧ (∀ m, m < 40 → t.rdF (pDie d) (0x300 + 4 * m) 0 16 ≤ dieHot t d) ∧ (∀ m, m < 8 → fget (fun _ => 0) s.power.others (8 * d + m) ≤ dieHot t d)
          ∧ (temp < 1680 → fget (fun _ => 0) t.power.hotSince (48 * d + n % 40) = 0) ∧ (1680 ≤ temp → 0 < fget (fun _ => 0) t.power.hotSince (48 * d + n % 40) ∧ fget (fun _ => 0) t.power.hotSince (48 * d + n % 40) ≤ max (s.ref + 1) (fget (fun _ => 0) s.power.hotSince (48 * d + n % 40)))
          ∧ (dieEmergency s d = true → dieHot t d < dieTarget s d → dieEmergency t d = false ∧ t.rdF (pDie d) 0x20C 8 7 = 100) ∧ (dieTarget s d ≤ dieHot t d → dieEmergency t d = dieEmergency s d)
          ∧ t = { s with regs := t.regs, power := { s.power with hotSince := t.power.hotSince } }))
      ∧ (∀ d k, d < 4 → k < 8 → Completes (.temperatureChange (.dieOther d k) temp) s (fun t => fget (fun _ => 0) t.power.others (8 * d + k) = temp
          ∧ t = { s with regs := t.regs, power := { s.power with hotSince := t.power.hotSince, others := t.power.others } }))
      ∧ Completes (.temperatureChange .host temp) s (fun t => t.rd pPower 0x230 = temp
          ∧ (1600 ≤ temp ∧ s.rdF pPower 0x230 0 16 < 1600 → WordsAndFlag s t [(pPower, 0x230)] pPower 16) ∧ (temp < 1600 ∨ 1600 ≤ s.rdF pPower 0x230 0 16 → OnlyWords s t [(pPower, 0x230)]))
      ∧ (∀ n, n < 4 →
          let old : Nat := s.rdF (pOe n) 0x204 0 16
          (temp < 1280 ∨ 1280 ≤ old → (1440 ≤ temp ↔ 1440 ≤ old) → Completes (.temperatureChange (.oe n) temp) s (fun t => t.rd (pOe n) 0x204 = temp ∧ OnlyWords s t [(pOe n, 0x204)]))
          ∧ (1280 ≤ temp → old < 1280 → temp < 1440 → Completes (.temperatureChange (.oe n) temp) s (fun t => t.rd (pOe n) 0x204 = temp ∧ WordsAndFlag s t [(pOe n, 0x204)] (pOe n) 9))
          ∧ (1440 ≤ temp → old < 1440 → (∀ l, l < 32 → ConnsQuiet s l) → Completes (.temperatureChange (.oe n) temp) s (fun t => t.rd (pOe n) 0x204 = temp ∧ ∀ i, i < 8 → linkState t (8 * n + i) = 0))))
  ∧ (∀ (s : State) (j wait : Nat), j < 16 → alive s = true → jobState s j ≠ 0 →
      let o : Nat := 0x400 + 32 * j
      let n : Nat := (slotTiles s j).length
      let full : Nat := n * 1000 * s.rdF pPower 0x10C 0 10
      let acc : Nat := fget (fun _ => 0) s.power.paceWait j / 100 + wait
      let share : Nat := if full = 0 then 0 else 1000 * min acc full / full
      let ceil : Nat := s.rdF pPower (o + 8) 0 10
      let high : Prop := 10 * s.rdF pPower o 8 7 < share
      let low : Prop := share < 10 * s.rdF pPower o 16 7
      let hi : Nat := fget (fun _ => 0) s.power.paceHi j + 1
      let lo : Nat := fget (fun _ => 0) s.power.paceLo j + 1
      let need : Nat := s.rdF pPower 0x10C 12 4
      Completes (.paceWindow j wait) s (fun t => t.rd pPower (o + 4) = share ∧ t.rd64 pPower (o + 0x10) = (s.rd64 pPower (o + 0x10) + min acc full) % 2 ^ 64 ∧ fget (fun _ => 0) t.power.paceWait j = 0
        ∧ t.rd pPower (o + 0x1C) = (s.rd pPower (o + 0x1C) + 1) % 2 ^ 32
        ∧ (s.rdB pPower o 0 = false → t.rd pPower (o + 8) = 850)
        ∧ (s.rdB pPower o 0 = true → n ≠ 0 → high → need ≤ hi → t.rd pPower (o + 8) = max (600 + 5 * s.rdF pPower o 24 8) (ceil - 25))
        ∧ (s.rdB pPower o 0 = true → n ≠ 0 → high → need ≤ hi → t.rdB pPower 0x18 15 = true)
        ∧ (s.rdB pPower o 0 = true → n ≠ 0 → high → hi < need → t.rd pPower (o + 8) = s.rd pPower (o + 8) ∧ fget (fun _ => 0) t.power.paceHi j = hi ∧ fget (fun _ => 0) t.power.paceLo j = 0)
        ∧ (s.rdB pPower o 0 = true → n ≠ 0 → ¬ high → low → need ≤ lo → t.rd pPower (o + 8) = min 850 (ceil + 25))
        ∧ (s.rdB pPower o 0 = true → n ≠ 0 → ¬ high → low → lo < need → t.rd pPower (o + 8) = s.rd pPower (o + 8) ∧ fget (fun _ => 0) t.power.paceLo j = lo ∧ fget (fun _ => 0) t.power.paceHi j = 0)
        ∧ (s.rdB pPower o 0 = true → n ≠ 0 → ¬ high → ¬ low → t.rd pPower (o + 8) = s.rd pPower (o + 8) ∧ fget (fun _ => 0) t.power.paceHi j = 0 ∧ fget (fun _ => 0) t.power.paceLo j = 0)))
  ∧ (∀ (s : State) (j us : Nat), j < 16 → alive s = true →
      let all : Prop := slotTiles s j ≠ [] ∧ (∀ k ∈ slotTiles s j, tileWaits s k = true) ∧ j ∉ s.power.straggled ∧ s.rd pPower (0x40C + 32 * j) ≤ fget (fun _ => 0) s.power.paceAll j / 100 + us
      (all → Completes (.stragglerInterval j us) s (fun t => t.rd pPower (0x418 + 32 * j) = (s.rd pPower (0x418 + 32 * j) + 1) % 2 ^ 32 ∧ RegsKept s t [(pPower, 0x418 + 32 * j)]
          ∧ j ∈ t.power.straggled ∧ t = { s with regs := t.regs, power := { s.power with straggled := t.power.straggled } }))
      ∧ (¬ all → Idle (.stragglerInterval j us) s))

/-! Job slots, binding and regions. -/

/-- Job slots, binding and regions (13_binding_and_jobs.md R402-R419): a slot takes a generation, becomes ready when no bind of its job is held, and starts; a bind is refused, held or applied by the first row that fits; a teardown stops intake, drains, exchanges CLOSE on the connections that were OPEN, releases the regions and reports (its first and fifth steps take no time, log entry 65); regions are bound after a scrub and released before one. -/
def Obligations.JobsAndBinding : Prop :=
  (∀ (s : State) (j : Nat), j < 16 → served s = true →
    let gen : Nat := jobGen s j
    let w : Nat := 0x308 + 16 * j
    (∀ v : BitVec 32,
      (jobState s j ≠ 0 ∨ (v ≠ 0 ∧ slotOf s v.toNat ≠ none) → Completes (.jobGenWrite j v) s (fun t => OneFlag s t pHoist 14))
      ∧ (jobState s j = 0 → v = 0 → Idle (.jobGenWrite j v) s)
      ∧ (jobState s j = 0 → v ≠ 0 → slotOf s v.toNat = none → Completes (.jobGenWrite j v) s (fun t =>
          jobGen t j = v.toNat ∧ jobState t j = 1 ∧ OnlyWords s t [(pHoist, 0x300 + 16 * j), (pHoist, w)])))
    ∧ (jobState s j ≠ 1 → Idle (.jobReady j) s)
    ∧ (jobState s j = 1 → Completes (.jobReady j) s (fun t => j ∈ t.bind.ready ∧ jobState t j = (if genHeld s gen then 1 else 2)
        ∧ RegsKept s t [(pHoist, w)] ∧ t = { s with regs := t.regs, bind := { s.bind with ready := t.bind.ready } }))
    ∧ (jobState s j ≠ 2 → Idle (.jobStart j) s)
    ∧ (jobState s j = 2 → BoundOk s → Completes (.jobStart j) s (fun t => jobState t j = 3))
    ∧ (jobState s j = 2 → powerState s ≠ 1 → debugState s ≠ 1 → BoundOk s → Completes (.jobStart j) s (fun t =>
        (∀ q, q < 16384 → (q ∉ jobQueues s gen ∨ qState s q ≠ 1 → qState t q = qState s q)
          ∧ (q ∈ jobQueues s gen → qState s q = 1 → s.rdB (pQueue q) 0x10 0 = true → s.swapPending (pQueue q) = false → qState t q = 2)
          ∧ (q ∈ jobQueues s gen → qState s q = 1 → s.rdB (pQueue q) 0x10 0 = false ∨ s.swapPending (pQueue q) = true → qState t q = 1 ∧ t.rdB (pQueue q) 0x18 14 = true))
        ∧ t = { s with regs := t.regs, log := t.log, qs := t.qs }))
    ∧ (jobState s j = 0 ∨ jobState s j = 4 → Idle (.jobTeardown j) s)
    ∧ (jobState s j ≠ 0 → jobState s j ≠ 4 → BoundOk s → Completes (.jobTeardown j) s (fun t => jobState t j = 4 ∧ t.rdF pHoist w 4 3 = 2
        ∧ (∃ d, t.bind.tds = s.bind.tds ++ [d] ∧ d.target = .slot j ∧ d.gen = gen ∧ d.step = 2 ∧ d.since = s.ref)
        ∧ t.bind.newest = some (.slot j) ∧ (s.bind.bound.Nodup → ∀ p ∈ s.bind.bound, s.rd p 0x2C = gen → bstate s p ≠ 4 → p.blk = .conn → ((t.conn p.inst).closing = true ↔ connState s p.inst = 3))
        ∧ (∀ p ∈ s.bind.bound, s.rd p 0x2C = gen → bstate s p ≠ 4 → bstate t p = 3 ∧ (p.blk = .queue → qState t p.inst = 5) ∧ (p.blk = .conn → connState t p.inst = 4))
        ∧ t.opBusy pHoist = true ∧ t.hbm = s.hbm)))
  ∧ (∀ (s : State) (p : Page), pageOk p = true → p.blk = .tile ∨ p.blk = .queue ∨ p.blk = .conn → reached s p = true →
    let epoch : Nat := s.rd p 0x600
    let gen : Nat := s.rd p 0x604
    let on : Bool := s.rdB p 0x10 0
    let newer : Bool := !epochOld epoch (s.rd p 0x28)
    let job : Bool := decide (genState s gen ≠ 0 ∧ genState s gen ≠ 4)
    let held : Bool := s.bind.holds.any (fun h => decide (h.page = p))
    let waits : Bool := tearing s p || gated s p
    let refused (code : Nat) : Prop := Completes (.bindReq p) s (fun t => t.rdF p 0x608 4 4 = code ∧ WordsAndFlag s t [(p, 0x608)] p (bindFlag p + 1))
    let fresh (t : State) : Prop :=
      (p.blk = .tile → t.tile p.inst = Tile.init ∧ ∀ a, a < 2 ^ 32 → t.tb p.inst a = 0)
      ∧ (p.blk = .queue → (∀ o ∈ [0x200, 0x204, 0x208, 0x20C, 0x210], t.rd p o = 0) ∧ ∀ c ∈ t.cmds, c.queue ≠ p.inst)
      ∧ (p.blk = .conn → t.conn p.inst = ConnSt.init ∧ t.rd p 0x208 = 0 ∧ t.rd p 0x20C = 0)
    (on = false → refused 6)
    ∧ (on = true → newer = false → refused 2)
    ∧ (on = true → newer = true → job = false → refused 3)
    ∧ (on = true → newer = true → job = true → held = true → refused 5)
    ∧ (on = true → newer = true → job = true → held = false → waits = true → Completes (.bindReq p) s (fun t => t.rdB p 0x608 3 = true
        ∧ bstate t p = (if tearing s p then bstate s p else 1) ∧ t.bind.holds = s.bind.holds ++ [⟨p, epoch, gen, bstate s p⟩] ∧ t.log = s.log
        ∧ genState t gen = (if genState s gen = 2 then 1 else genState s gen)))
    ∧ (on = true → newer = true → job = true → held = false → waits = false → bstate s p = 2 → s.quarantined p = false → refused 4)
    ∧ (on = true → newer = true → job = true → held = false → waits = false → bstate s p ≠ 2 ∨ s.quarantined p = true → Completes (.bindReq p) s (fun t =>
        bstate t p = 2 ∧ t.rdF p 0x608 4 4 = 1 ∧ t.rd p 0x28 = epoch ∧ t.rd p 0x2C = gen ∧ t.quarantined p = false ∧ p ∈ t.bind.bound ∧ t.rdB p 0x18 (bindFlag p) = true
        ∧ fresh t ∧ (p.blk = .queue → qState t p.inst = 1) ∧ (p.blk = .conn → connState t p.inst = 1) ∧ t.hbm = s.hbm))
    ∧ (bstate s p ≠ 2 → bstate s p ≠ 4 → Idle (.resourceTeardown p) s)
    ∧ (bstate s p = 4 → held = false → Completes (.resourceTeardown p) s (fun t => bstate t p = 0 ∧ t.rd p 0x2C = 0 ∧ t.rd p 0x28 = s.rd p 0x28 ∧ t.quarantined p = false
        ∧ p ∉ t.bind.bound ∧ t.rdB p 0x18 (bindFlag p + 3) = true))
    ∧ (bstate s p = 2 → Completes (.resourceTeardown p) s (fun t => bstate t p = 3 ∧ (p.blk = .queue → qState t p.inst = 5) ∧ (p.blk = .conn → connState t p.inst = 4)
        ∧ t.bind = { s.bind with tds := s.bind.tds ++ [⟨.page p, s.rd p 0x2C, [p], 2, s.ref, false⟩], newest := some (.page p) } ∧ (p.blk = .conn → ((t.conn p.inst).closing = true ↔ connState s p.inst = 3))
        ∧ t.opBusy pHoist = true ∧ t.cmds = s.cmds ∧ t.tiles = s.tiles)))
  ∧ (∀ (s : State) (d : TdTarget),
    (s.bind.tds.find? (fun x => decide (x.target = d)) = none → Idle (.teardownDrainEnd d) s ∧ Idle (.drainTimeout d) s)
    ∧ ∀ x : Teardown, s.bind.tds = [x] → x.target = d →
        let usable : Prop := ∀ p ∈ x.pages, pageOk p = true ∧ (p.blk = .tile ∨ p.blk = .queue ∨ p.blk = .conn)
        let freed (t : State) : Prop := t.bind.tds = [] ∧ ∀ p ∈ x.pages, bstate t p = 0 ∧ t.rd p 0x2C = 0 ∧ t.rd p 0x28 = s.rd p 0x28 ∧ t.rdB p 0x18 (bindFlag p + 3) = true
        let quiet : Prop := x.step = 2 ∧ x.pages.all (drained s) = true ∧ ∀ p ∈ x.pages, exchanges s p = false
        let goes : Prop := quiet ∨ (x.step = 3 ∧ fenced s x = true)
        (x.step ≠ 2 ∨ x.pages.all (drained s) = false → x.step ≠ 3 ∨ fenced s x = false → Idle (.teardownDrainEnd d) s)
        ∧ (fenced s x = true ↔ x.since + 1000000 ≤ s.ref ∨ ∀ p ∈ x.pages, exchanges s p = true → (s.conn p.inst).peerClosed = true)
        ∧ (alive s = true → usable → s.bind.holds = [] → goes →
            (∀ p, d = .page p → Completes (.teardownDrainEnd d) s freed)
            ∧ (∀ j, j < 16 → d = .slot j →
                (slotRgns s j = [] → Completes (.teardownDrainEnd d) s (fun t => freed t ∧ jobState t j = 0 ∧ jobGen t j = 0 ∧ t.rdB pHoist 0x18 13 = true
                    ∧ (s.bind.newest = some d → t.rdB pHoist 0x18 6 = true ∧ t.opBusy pHoist = false)))
                ∧ (slotRgns s j ≠ [] → Completes (.teardownDrainEnd d) s (fun t => t.rdF pHoist (0x308 + 16 * j) 4 3 = 4 ∧ ∀ r ∈ slotRgns s j, rgnState t r = 3))))
        ∧ (∀ p, alive s = true → usable → x.step = 2 → x.pages = [p] → drained s p = true → exchanges s p = true → (s.conn p.inst).peerClosed = false →
            Completes (.teardownDrainEnd d) s (fun t => ∃ (u : State) (k : Packet), t = linkSend u (connPort s p.inst) k ∧ k.ptype.toNat = 9 ∧ k.dstConn.toNat = s.rdF p 0x104 18 14
              ∧ k.srcConn.toNat = p.inst ∧ k.gen.toNat = s.rd p 0x2C ∧ k.body = [] ∧ u.bind = { s.bind with tds := [{ x with step := 3, since := s.ref }] }
              ∧ (∀ j, j < 16 → d = .slot j → u.rdF pHoist (0x308 + 16 * j) 4 3 = 3) ∧ (∀ q a, pageOk q = true → q ≠ pHoist → a < 4096 → u.rd q a = s.rd q a)
              ∧ u = { s with regs := u.regs, bind := u.bind }))
        ∧ (∀ (l : Nat) (k : Packet) (p : Page), PortHears s l → PacketOk s l k → k.ptype.toNat = 9 → usable → s.bind.holds = [] → x.step = 3 → x.pages = [p] → d = .page p → p.blk = .conn →
            p.inst = k.dstConn.toNat → connState s p.inst = 4 → k.gen.toNat = s.rd p 0x2C → k.epoch.toNat = s.rd p 0x28 → k.srcNode.toNat = s.rdF p 0x108 0 20 →
            k.srcConn.toNat = s.rdF p 0x104 18 14 → Completes (.closePkt l k) s freed)
        ∧ (x.step ≠ 2 ∨ x.forced = true ∨ s.ref < x.since + 100000 * s.rdF pHoist 0x104 16 16 → Idle (.drainTimeout d) s)
        ∧ (alive s = true → x.step = 2 → x.forced = false → x.since + 100000 * s.rdF pHoist 0x104 16 16 ≤ s.ref → usable → (∀ y ∈ s.tiles, y.1 < 160) →
            (∀ p ∈ x.pages, p.blk = .conn → ThreadOnly s p.inst) → Completes (.drainTimeout d) s (fun t =>
            t.rdB pHoist 0x18 15 = true ∧ (∃ y, t.bind.tds = [y] ∧ y = { x with forced := true })
            ∧ (∀ p ∈ x.pages, p.blk = .queue → (s.cmds.map (·.uid)).Nodup → ∀ c ∈ s.cmds, c.queue = p.inst → c.op = 6 → c.stage ≠ 2 → c.bad = false → c.begun = false →
                ∃ c' ∈ t.cmds, c'.uid = c.uid ∧ c'.bad = true ∧ ∃ f, c'.fault = some f ∧ f.code = 0x3B)
            ∧ (∀ p ∈ x.pages, (p.blk = .tile → (t.tile p.inst).blocks = [] ∧ (t.tile p.inst).launches = []) ∧ (p.blk = .conn → connState t p.inst = 5 ∧ t.rd p 0x21C = 1 ∧ (t.conn p.inst).out = [])))))
  ∧ (∀ (s : State) (r : Nat), r < 32 → served s = true →
    let ctl : Page × Nat := (pHoist, 0x408 + 16 * r)
    let slot : Nat := rgnSlot s r
    let gen : Nat := jobGen s slot
    let epoch : Nat := s.rd pHoist 0x600
    let held : Bool := s.bind.rgnHeld.any (fun x => decide (x.1 = r))
    let inside : Bool := decide (rgnLen s r ≠ 0) && inHbm s (rgnBase s r) (rgnLen s r)
    let job : Bool := decide (jobState s slot ≠ 0 ∧ jobState s slot ≠ 4)
    let newer : Bool := !epochOld epoch (s.rd pHoist (0x40C + 16 * r))
    let meets (k : Nat) : Prop := k < 32 ∧ k ≠ r ∧ rgnMeets s r k = true
    let clash : Prop := ∃ k, meets k ∧ (rgnState s k = 1 ∨ rgnState s k = 2 ∨ ∃ x ∈ s.bind.rgnHeld, x.1 = k)
    let refused (code : Nat) : Prop := Completes (.regionBind r) s (fun t => t.rdF pHoist ctl.2 24 4 = code ∧ rgnState t r = 0
      ∧ WordsAndFlag s t [ctl, (pHoist, 0x308 + 16 * ((slotOf s gen).getD 0))] pHoist 17)
    (rgnState s r ≠ 0 ∨ held = true → Idle (.regionBind r) s)
    ∧ (rgnState s r = 0 → held = false →
        (inside = false → refused 3)
        ∧ (inside = true → job = false → refused 4)
        ∧ (inside = true → job = true → newer = false → refused 5)
        ∧ (inside = true → job = true → newer = true → clash → refused 2)
        ∧ (inside = true → job = true → newer = true → ¬ clash → (∃ k, meets k ∧ rgnState s k = 3) → Completes (.regionBind r) s (fun t => t.rdF pHoist ctl.2 24 4 = 6 ∧ rgnState t r = 0
            ∧ t.bind = { s.bind with rgnHeld := s.bind.rgnHeld ++ [(r, epoch)] } ∧ (slotOf s gen = some slot → jobState t slot = if jobState s slot = 2 then 1 else jobState s slot)
            ∧ t = { s with regs := t.regs, bind := t.bind }))
        ∧ (inside = true → job = true → newer = true → ¬ clash → (∀ k, meets k → rgnState s k = 0) → Completes (.regionBind r) s (fun t => rgnState t r = 1
            ∧ t.rd pHoist (0x40C + 16 * r) = epoch ∧ (slotOf s gen = some slot → jobState t slot = if jobState s slot = 2 then 1 else jobState s slot)
            ∧ (∀ x, s.mem.scrub = some x → t.mem = { s.mem with scrubWait := s.mem.scrubWait ++ [r] })
            ∧ (s.mem.scrub = none → s.mem.scrubWait = [] → t.mem = { s.mem with scrub := some ⟨rgnBase s r, rgnLen s r, some r⟩ } ∧ t.opBusy (pCache 0) = true)
            ∧ t = { s with regs := t.regs, mem := t.mem })))
    ∧ (rgnState s r ≠ 2 → Idle (.regionRelease r) s)
    ∧ (rgnState s r = 2 → s.bind.rgnDrain = [] → Completes (.regionRelease r) s (fun t => rgnState t r = 3
        ∧ (jobCmds s gen ≠ [] → t.bind = { s.bind with rgnDrain := [(r, jobCmds s gen)] } ∧ OnlyWords { s with bind := t.bind } t [ctl])
        ∧ (jobCmds s gen = [] → s.mem.scrub = none → s.mem.scrubWait = [] → t.mem = { s.mem with scrub := some ⟨rgnBase s r, rgnLen s r, some r⟩ } ∧ t.opBusy (pCache 0) = true)
        ∧ t.hbm = s.hbm)))
  ∧ (∀ (s : State) (x : Scrub), alive s = true → s.mem.scrub = some x → s.mem.scrubWait = [] → ∀ r, x.region = some r → r < 32 → rgnState s r = 1 →
      Completes .scrubDone s (fun t => rgnState t r = 2 ∧ t.rdF pHoist (0x408 + 16 * r) 24 4 = 1 ∧ t.rdB pHoist 0x18 16 = true ∧ t.mem.scrub = none
        ∧ (slotOf s (jobGen s (rgnSlot s r)) = some (rgnSlot s r) → jobState s (rgnSlot s r) = 1 → rgnSlot s r ∈ s.bind.ready →
            s.bind.rgnHeld = [] → s.bind.holds = [] → (∀ k, k < 32 → k ≠ r → rgnState s k ≠ 1) → jobState t (rgnSlot s r) = 2)))

/-! The Hoist. -/

/-- The Hoist (13_binding_and_jobs.md R420-R429): a packet that is not sound or not from its neighbour is counted and nothing more; the first START is forwarded, evaluated and answered on its parent's configured port, later ones only answered; children that have not taken the start get it again; entries climb to both parents; the root starts a broadcast, writes its report at the deadline and aborts under policy 1, and what comes after the deadline does not count as in time; the first ABORT of a generation is forwarded, with a context or without; a start taken is made at its time, and an aborted one is disarmed. -/
def Obligations.HoistRules : Prop :=
  (∀ (s : State) (l : Nat) (p : Packet), PortHears s l → PacketOk s l p → p.ptype.toNat = 10 →
    let gen : Nat := p.gen.toNat
    let low : Nat := p.target.toNat % 2 ^ 40
    let b : List Byte := p.body
    let head : Prop := s.rdB pHoist 0x104 0 = true ∧ p.dstConn.toNat = 0 ∧ p.srcConn.toNat = 0 ∧ p.epoch.toNat = 0 ∧ gen ≠ 0
    let start : Prop := head ∧ low = 1 ∧ b.length = 32 ∧ isParent s p.srcNode.toNat = true ∧ leAt b 0x10 4 % 2 ^ 24 < 2 ^ 20 ∧ leAt b 0x13 1 ≤ 1
      ∧ 1 ≤ leAt b 0x14 4 ∧ leAt b 0x14 4 ≤ 1048560 ∧ leAt b 0x18 8 = 0
    let report : Prop := head ∧ low = 2 ∧ 1 ≤ leAt b 0 2 ∧ leAt b 0 2 ≤ 1022 ∧ b.length = 8 + 4 * leAt b 0 2 ∧ leAt b 2 6 = 0 ∧ childIx s p.srcNode.toNat ≠ none
      ∧ ∀ i, i < leAt b 0 2 → leAt b (8 + 4 * i) 4 < 7 * 2 ^ 20
    let abort : Prop := head ∧ low = 3 ∧ b.length = 8 ∧ isParent s p.srcNode.toNat = true ∧ leAt b 0 8 < 2 ^ 20
    let foreign (c : Instr) : Prop := Completes c s (fun t => t.rd pHoist 0x24C = (s.rd pHoist 0x24C + 1) % 2 ^ 32 ∧ OnlyWords s t [(pHoist, 0x24C)])
    let answered (u t : State) (status : Nat) : Prop := ∃ i port, i < 2 ∧ parentOf s i = some (p.srcNode.toNat, port)
      ∧ (i = 1 → (parentOf s 0).map (·.1) ≠ some p.srcNode.toNat) ∧ t = sendHoist u (p.srcNode.toNat, port) gen 2 (toLE 2 1 ++ List.replicate 6 0 ++ toLE 4 (nodeId s + 2 ^ 20 * status))
    let counted (u : State) : Prop := u.rd pHoist 0x240 = (s.rd pHoist 0x240 + 1) % 2 ^ 32
    (¬ start → foreign (.hoistStart l p)) ∧ (reportHeld s gen = false → ¬ report → foreign (.hoistReport l p)) ∧ (reportHeld s gen = true → Idle (.hoistReport l p) s) ∧ (¬ abort → foreign (.hoistAbort l p))
    ∧ (start →
        let time : Nat := leAt b 0 8
        let deadline : Nat := leAt b 8 8
        let e : Nat := evalStart s gen
        (deadline ≤ s.ptp → Completes (.hoistStart l p) s (fun t => ∃ u, counted u ∧ OnlyWords s u [(pHoist, 0x240)] ∧ answered u t 5))
        ∧ (s.ptp < deadline →
            (∀ k y, ctxOf s gen = some (k, y) →
              (y.taken = true → Completes (.hoistStart l p) s (fun t => ∃ u, counted u ∧ u.rd pHoist 0x244 = (s.rd pHoist 0x244 + 1) % 2 ^ 32
                ∧ OnlyWords s u [(pHoist, 0x240), (pHoist, 0x244)] ∧ answered u t 0))
              ∧ (y.taken = false → s.hoist.length = 4 → Completes (.hoistStart l p) s (fun t => ∃ u, counted u ∧ ctxAt u k = some { y with status := e, taken := decide (e = 0) }
                ∧ u.rdB pHoist 0x18 (if e = 0 then 8 else 9) = true ∧ u = { s with regs := u.regs, log := u.log, hoist := u.hoist } ∧ answered u t e)))
            ∧ (ctxOf s gen = none →
              ((∀ k, k < 4 → ctxAt s k ≠ none) → Completes (.hoistStart l p) s (fun t => ∃ u, counted u ∧ WordsAndFlag s u [(pHoist, 0x240)] pHoist 18 ∧ answered u t 6))
              ∧ (∀ k, s.hoist.length = 4 → k < 4 → ctxAt s k = none → (∀ m, m < k → ctxAt s m ≠ none) → Completes (.hoistStart l p) s (fun t => ∃ u, counted u
                  ∧ (∃ y, ctxAt u k = some y ∧ y.gen = gen ∧ y.time = time ∧ y.deadline = deadline ∧ y.root = leAt b 0x10 4 % 2 ^ 20 ∧ y.policy = bits (leAt b 0x10 4) 24 1
                    ∧ y.members = leAt b 0x14 4 ∧ y.here = false ∧ y.status = e ∧ y.taken = decide (e = 0) ∧ y.known = [] ∧ y.pend = [([], 0), ([], 0)]
                    ∧ ∀ c, c < 16 → childOf s c ≠ none → ∃ d, y.kids[c]? = some d ∧ d.nextAt = some (s.ref + 100000))
                  ∧ u.rd pHoist (0x220 + 8 * k) = gen ∧ u.rd pHoist (0x224 + 8 * k) = (if e = 0 then 2 else 1) + 16 * e ∧ u.rdB pHoist 0x18 (if e = 0 then 8 else 9) = true
                  ∧ u.links = ((List.range 16).foldl (fun v c => match childOf s c with
                      | some dst => sendHoist v dst gen 1 (toLE 8 time ++ toLE 8 deadline ++ toLE 4 (leAt b 0x10 4 % 2 ^ 20 + 2 ^ 24 * bits (leAt b 0x10 4) 24 1)
                          ++ toLE 4 (leAt b 0x14 4) ++ List.replicate 8 0)
                      | none => v) s).links
                  ∧ u.aborted = sremove gen s.aborted ∧ u = { s with regs := u.regs, log := u.log, hoist := u.hoist, links := u.links, conns := u.conns, aborted := u.aborted } ∧ answered u t e)))))
    ∧ (report → ctxOf s gen = none → Idle (.hoistReport l p) s)
    ∧ (report → leAt b 0 2 = 1 → s.hoist.length = 4 → ∀ k x, ctxOf s gen = some (k, x) → x.here = false →
        let node : Nat := leAt b 8 4 % 2 ^ 20
        let status : Nat := bits (leAt b 8 4) 20 4
        let fresh : Bool := decide (fget (fun _ => 0) x.known node ≠ status + 1)
        Completes (.hoistReport l p) s (fun t =>
          (∃ y, ctxAt t k = some y ∧ fget (fun _ => 0) y.known node = status + 1 ∧ (∀ m, m ≠ node → fget (fun _ => 0) y.known m = fget (fun _ => 0) x.known m)
            ∧ y.pend = (if fresh then x.pend.map (fun w => (w.1 ++ [(node, status)], w.2)) else x.pend)
            ∧ (childIx s node = none → y.kids = x.kids)
            ∧ (∀ c d, childIx s node = some c → x.kids[c]? = some d → ∃ d', y.kids[c]? = some d' ∧ d'.status = some status
                ∧ (status = 0 ∨ status = 5 → d'.nextAt = none)
                ∧ (status ≠ 0 → status ≠ 5 → d'.nextAt = if d.status ≠ none ∧ d.nextAt ≠ none then d.nextAt else some (s.ref + 5000))))
          ∧ (∀ a, a ≠ s.base pHoist 0x154 + 2 ^ 20 * k + node ∨ fresh = false → t.hb a = s.hb a) ∧ t.links = s.links ∧ t.cmds = s.cmds))
    ∧ (report → ∀ k x u, ctxOf s gen = some (k, x) → reportDue s x = true → reportHeld s gen = false → exec (.hoistDeadline k) s = .next u → reportHeld u gen = false →
        ∃ t, exec (.hoistReport l p) u = .next t ∧ exec (.hoistReport l p) s = .next t)
    ∧ (report → reportHeld s gen = false → leAt b 0 2 = 1 → bits (leAt b 8 4) 20 4 = 0 → s.hoist.length = 4 → s.raw = [] → s.mem.failed = [] → ∀ k x i, ctxOf s gen = some (k, x) → x.here = true → x.reported = true → s.ptp < x.time →
        let node : Nat := leAt b 8 4 % 2 ^ 20
        let a : Nat := s.base pHoist 0x15C + 2 ^ 22 * k
        let w : Nat := s.base pHoist 0x154 + 2 ^ 20 * k + node
        inHbm s a (2 ^ 22) = true → (w < a ∨ a + 2 ^ 22 ≤ w) → s.hnat (a + 8) 4 ≤ 1048560 →
        (List.range (s.hnat (a + 8) 4)).find? (fun i => decide (s.hnat (a + 0x40 + 4 * i) 4 % 2 ^ 20 = node)) = some i → s.hnat (a + 0x40 + 4 * i) 4 < 2 ^ 31 →
        Completes (.hoistReport l p) s (fun t => t.hnat (a + 0x40 + 4 * i) 4 = s.hnat (a + 0x40 + 4 * i) 4 + 2 ^ 31 ∧ t.hnat (a + 0x10) 4 = (s.hnat (a + 0x10) 4 + 1) % 2 ^ 32
          ∧ t.rd pHoist 0x250 = (s.rd pHoist 0x250 + 1) % 2 ^ 32))
    ∧ (abort → ctxOf s gen = none → gen ∈ s.aborted → Idle (.hoistAbort l p) s)
    ∧ (abort → ctxOf s gen = none → gen ∉ s.aborted → Completes (.hoistAbort l p) s (fun t => t.aborted = sinsert gen s.aborted
        ∧ t.links = ((List.range 16).foldl (fun v c => match childOf s c with | some dst => sendHoist v dst gen 3 (toLE 8 (leAt b 0 8)) | none => v) s).links
        ∧ t = { s with regs := t.regs, links := t.links, conns := t.conns, aborted := t.aborted }))
    ∧ (abort → s.hoist.length = 4 → BoundOk s → ∀ k x, ctxOf s gen = some (k, x) → Completes (.hoistAbort l p) s (fun t =>
        ctxAt t k = none ∧ t.rdF pHoist (0x224 + 8 * k) 0 3 = 3 ∧ t.hbm = s.hbm
        ∧ (gen ∉ s.aborted → t.links = ((List.range 16).foldl (fun v c => match childOf s c with | some dst => sendHoist v dst gen 3 (toLE 8 x.root) | none => v) s).links)
        ∧ (gen ∈ s.aborted → t.links = s.links)
        ∧ (s.ptp < x.time → t.rdB pHoist 0x18 11 = true ∧ ∀ j, slotOf s gen = some j → t.rdB pHoist (0x308 + 16 * j) 8 = true ∧ jobState t j = jobState s j)
        ∧ (x.time ≤ s.ptp → t.rdB pHoist 0x18 12 = true ∧ ∀ q ∈ jobQueues s gen, qState t q = if qState s q = 2 then 3 else qState s q))))
  ∧ (∀ (s : State) (policy : Bool), served s = true →
    let gen : Nat := s.rd pHoist 0x210
    let time : Nat := s.rd64 pHoist 0x200
    let deadline : Nat := s.rd64 pHoist 0x208
    let n : Nat := s.rdF pHoist 0x218 0 20
    let root : Bool := decide (s.rdF pHoist 0x104 0 2 = 3)
    let soon : Bool := decide (time < deadline + 1000 * s.rdF pHoist 0x108 0 16 ∨ deadline ≤ s.ptp)
    let full : Prop := ctxOf s gen = none ∧ ∀ k, k < 4 → ctxAt s k ≠ none
    let list : Bool := decide (n ≠ 0) && inHbm s (s.base pHoist 0x164) (4 * n)
    let e : Nat := evalStart s gen
    let refused (code : Nat) : Prop := Completes (.hoistTxGo policy) s (fun t => t.rd pHoist 0x21C = code ∧ t.rdB pHoist 0x214 1 = policy ∧ OnlyWords s t [(pHoist, 0x214), (pHoist, 0x21C)])
    (root = false → refused 2)
    ∧ (root = true → soon = true → refused 3)
    ∧ (root = true → soon = false → full → refused 4)
    ∧ (root = true → soon = false → ¬ full → list = false → refused 5)
    ∧ (∀ k, root = true → soon = false → list = true → s.hoist.length = 4 → ctxOf s gen = none → k < 4 → ctxAt s k = none → (∀ m, m < k → ctxAt s m ≠ none) →
        Completes (.hoistTxGo policy) s (fun t => t.rd pHoist 0x21C = 1
          ∧ (∃ y, ctxAt t k = some y ∧ y.gen = gen ∧ y.time = time ∧ y.deadline = deadline ∧ y.root = nodeId s ∧ y.policy = b2n policy ∧ y.members = n ∧ y.here = true
            ∧ y.status = e ∧ y.taken = decide (e = 0) ∧ y.reported = false ∧ fget (fun _ => 0) y.known (nodeId s) = e + 1)
          ∧ t.rdB pHoist 0x18 (if e = 0 then 8 else 9) = true
          ∧ t.links = ((List.range 16).foldl (fun v c => match childOf s c with
              | some dst => sendHoist v dst gen 1 (toLE 8 time ++ toLE 8 deadline ++ toLE 4 (nodeId s + 2 ^ 24 * b2n policy) ++ toLE 4 n ++ List.replicate 8 0)
              | none => v) s).links
          ∧ ∀ a, a ≠ s.base pHoist 0x154 + 2 ^ 20 * k + nodeId s → t.hb a = s.hb a)))
  ∧ (∀ (s : State) (j : Nat), j < 16 → alive s = true →
    (ctxOf s (jobGen s j) = none → Idle (.hoistStartTime j) s)
    ∧ (∀ k x, ctxOf s (jobGen s j) = some (k, x) →
        (x.taken = false ∨ jobState s j ≠ 2 ∨ s.ptp < x.time → Idle (.hoistStartTime j) s)
        ∧ (x.taken = true → jobState s j = 2 → x.time ≤ s.ptp → BoundOk s → Completes (.hoistStartTime j) s (fun t => jobState t j = 3 ∧ t.hbm = s.hbm
            ∧ (served s = true → exec (.jobStart j) s = .next t)))))
  ∧ (∀ (s : State) (k : Nat), k < 4 → alive s = true → s.hoist.length = 4 →
    (ctxAt s k = none → Idle (.hoistContextRelease k) s ∧ Idle (.hoistDeadline k) s ∧ (∀ ch, ch < 16 → Idle (.hoistRetry k ch) s) ∧ ∀ par, par < 2 → Idle (.hoistReportBatch k par) s)
    ∧ ∀ x : HCtx, ctxAt s k = some x →
        (s.ptp < x.time + 10000000 → Idle (.hoistContextRelease k) s)
        ∧ (x.time + 10000000 ≤ s.ptp → Completes (.hoistContextRelease k) s (fun t => ctxAt t k = none ∧ t.rd pHoist (0x220 + 8 * k) = 0 ∧ t.rdF pHoist (0x224 + 8 * k) 0 3 = 0
            ∧ (∀ m, m ≠ k → ctxAt t m = ctxAt s m) ∧ RegsKept s t [(pHoist, 0x220 + 8 * k), (pHoist, 0x224 + 8 * k)] ∧ t = { s with regs := t.regs, hoist := t.hoist }))
        ∧ (∀ ch dst d, ch < 16 → childOf s ch = some dst → x.kids[ch]? = some d →
            (d.nextAt = none ∨ (∃ w, d.nextAt = some w ∧ s.ref < w) ∨ x.deadline ≤ s.ptp → Idle (.hoistRetry k ch) s)
            ∧ (∀ w, d.nextAt = some w → w ≤ s.ref → s.ptp < x.deadline →
                let gap : Nat := if d.status = none then 100000 else min 160000 (2 * d.gap)
                Completes (.hoistRetry k ch) s (fun t => t.rd pHoist 0x248 = (s.rd pHoist 0x248 + 1) % 2 ^ 32
                  ∧ (∃ y d', ctxAt t k = some y ∧ y = { x with kids := y.kids } ∧ y.kids[ch]? = some d' ∧ d'.status = d.status ∧ d'.nextAt = some (s.ref + gap)
                    ∧ (d.status ≠ none → d'.gap = gap) ∧ ∀ c, c ≠ ch → y.kids[c]? = x.kids[c]?)
                  ∧ t.links = (sendHoist s dst x.gen 1 (toLE 8 x.time ++ toLE 8 x.deadline ++ toLE 4 (x.root + 2 ^ 24 * x.policy) ++ toLE 4 x.members ++ List.replicate 8 0)).links
                  ∧ t = { s with regs := t.regs, hoist := t.hoist, links := t.links, conns := t.conns })))
        ∧ (∀ par dst l w, par < 2 → parentOf s par = some dst → x.pend[par]? = some (l, w) →
            (l = [] ∨ (w ≠ 0 ∧ s.ref < w + 1000) → Idle (.hoistReportBatch k par) s)
            ∧ (l ≠ [] → w = 0 ∨ w + 1000 ≤ s.ref → Completes (.hoistReportBatch k par) s (fun t =>
                let sent : List (Nat × Nat) := l.take 1022
                (∃ y, ctxAt t k = some y ∧ y = { x with pend := y.pend } ∧ y.pend[par]? = some (l.drop 1022, s.ref) ∧ ∀ c, c ≠ par → y.pend[c]? = x.pend[c]?)
                ∧ t.links = (sendHoist s dst x.gen 2 (toLE 2 sent.length ++ List.replicate 6 0 ++ (sent.map (fun z => toLE 4 (z.1 + 2 ^ 20 * z.2))).foldl (· ++ ·) [])).links
                ∧ t = { s with regs := t.regs, hoist := t.hoist, links := t.links, conns := t.conns })))
        ∧ (x.here = false ∨ x.reported = true ∨ s.ptp < x.deadline → Idle (.hoistDeadline k) s)
        ∧ (x.here = true → x.reported = false → x.deadline ≤ s.ptp →
            let a : Nat := s.base pHoist 0x15C + 2 ^ 22 * k
            let last (n : Nat) : Nat := match fget (fun _ => 0) x.known n with | 0 => 7 | v + 1 => v
            let m : List Nat := ((List.range x.members).map (fun i => s.hnat (s.base pHoist 0x164 + 4 * i) 4 % 2 ^ 20)).filter (fun n => decide (last n ≠ 0))
            let ab : Bool := decide (x.policy = 1) && decide (m ≠ [])
            (memHeld s .hostDie a (64 + 4 * m.length) = true → Idle (.hoistDeadline k) s)
            ∧ (inHbm s a (2 ^ 22) = true → memHeld s .hostDie a (64 + 4 * m.length) = false → s.raw = [] → s.mem.failed = [] → x.members ≤ 1048560 → x.policy ≤ 1 → BoundOk s → Completes (.hoistDeadline k) s (fun t =>
              t.hnat a 4 = x.gen % 2 ^ 32 ∧ t.hnat (a + 4) 4 = x.members ∧ t.hnat (a + 8) 4 = m.length ∧ t.hnat (a + 0xC) 4 = x.policy + 256 * b2n ab
              ∧ (∀ i, 0x10 ≤ i → i < 0x40 → t.hb (a + i) = 0)
              ∧ (∀ i n, m[i]? = some n → t.hnat (a + 0x40 + 4 * i) 4 = (n + 2 ^ 20 * last n) % 2 ^ 32)
              ∧ (∀ c, c < a ∨ a + 0x40 + 4 * m.length ≤ c → t.hb c = s.hb c)
              ∧ t.rdB pHoist 0x18 10 = true
              ∧ (ab = false → ctxAt t k = some { x with reported := true } ∧ t.links = s.links)
              ∧ (ab = true → ctxAt t k = none ∧ t.rdF pHoist (0x224 + 8 * k) 0 3 = 3 ∧ t.rdB pHoist 0x18 (if s.ptp < x.time then 11 else 12) = true
                  ∧ (x.gen ∉ s.aborted → t.links = ((List.range 16).foldl (fun v c => match childOf s c with | some dst => sendHoist v dst x.gen 3 (toLE 8 x.root) | none => v) s).links))))))
end

