-- ==== Sys2Proof/Laws/Map.lean ====
section
/-! SUPPORT. What the sparse maps do: a read after a write, and the canonical form that every operation keeps. -/

namespace Sys2Proof.Machine

open Sys2Proof

section
variable {α : Type}

theorem fget_ferase_self (d : Nat → α) (m : FMap α) (k : Nat) : fget d (ferase m k) k = d k := by
  induction m with
  | nil => rfl
  | cons x r ih =>
    obtain ⟨j, v⟩ := x
    by_cases h : j = k
    · simp [ferase, h, ih]
    · simp [ferase, h, fget, ih]

theorem fget_ferase_ne (d : Nat → α) (m : FMap α) {j k : Nat} (h : j ≠ k) : fget d (ferase m k) j = fget d m j := by
  induction m with
  | nil => rfl
  | cons x r ih =>
    obtain ⟨i, v⟩ := x
    by_cases hi : i = k
    · subst hi; simp [ferase, fget, ih, Ne.symm h]
    · simp only [ferase, hi, if_false, fget, ih]

theorem fget_finsert_ne (d : Nat → α) (m : FMap α) {j k : Nat} (v : α) (h : j ≠ k) : fget d (finsert m k v) j = fget d m j := by
  induction m with
  | nil => simp [finsert, fget, Ne.symm h]
  | cons x r ih =>
    obtain ⟨i, w⟩ := x
    by_cases hi : k < i
    · simp [finsert, hi, fget, Ne.symm h]
    · simp only [finsert, hi, if_false, fget, ih]

theorem fget_finsert_self (d : Nat → α) (m : FMap α) (k : Nat) (v : α) : fget d (finsert (ferase m k) k v) k = v := by
  induction m with
  | nil => simp [ferase, finsert, fget]
  | cons x r ih =>
    obtain ⟨i, w⟩ := x
    by_cases hi : i = k
    · simp [ferase, hi, ih]
    · by_cases hk : k < i
      · simp [ferase, hi, finsert, hk, fget]
      · simp [ferase, hi, finsert, hk, fget, ih]

/-- A read after a write to the same key gives the value written. -/
@[simp] theorem fget_fset_self [DecidableEq α] (d : Nat → α) (m : FMap α) (k : Nat) (v : α) : fget d (fset d m k v) k = v := by
  unfold fset
  split
  · next h => rw [fget_ferase_self, h]
  · exact fget_finsert_self d m k v

/-- A write leaves every other key alone. -/
theorem fget_fset_ne [DecidableEq α] (d : Nat → α) (m : FMap α) {j k : Nat} (v : α) (h : j ≠ k) :
    fget d (fset d m k v) j = fget d m j := by
  unfold fset
  split
  · exact fget_ferase_ne d m h
  · rw [fget_finsert_ne d _ v h, fget_ferase_ne d m h]

/-- A read after a write. -/
theorem fget_fset [DecidableEq α] (d : Nat → α) (m : FMap α) (j k : Nat) (v : α) :
    fget d (fset d m k v) j = if j = k then v else fget d m j := by
  by_cases h : j = k
  · subst h; simp
  · simp [h, fget_fset_ne d m v h]

/-! The canonical form. -/

variable [DecidableEq α]

/-- A lower bound may be lowered. -/
theorem fwfFrom_mono (d : Nat → α) (m : FMap α) {a b : Nat} (h : a ≤ b) : fwfFrom d (some b) m = true → fwfFrom d (some a) m = true := by
  cases m with
  | nil => simp [fwfFrom]
  | cons x r =>
    obtain ⟨k, v⟩ := x
    simp only [fwfFrom, Bool.and_eq_true, decide_eq_true_eq]
    rintro ⟨⟨h1, h2⟩, h3⟩
    exact ⟨⟨by omega, h2⟩, h3⟩

/-- A lower bound may be dropped. -/
theorem fwfFrom_none (d : Nat → α) (m : FMap α) {a : Nat} : fwfFrom d (some a) m = true → fwf d m = true := by
  cases m with
  | nil => simp [fwf, fwfFrom]
  | cons x r =>
    obtain ⟨k, v⟩ := x
    simp only [fwf, fwfFrom, Bool.and_eq_true, decide_eq_true_eq]
    exact fun h => ⟨⟨trivial, h.1.2⟩, h.2⟩

theorem fwfFrom_filter (d : Nat → α) (f : Nat × α → Bool) (m : FMap α) (lo : Option Nat) :
    fwfFrom d lo m = true → fwfFrom d lo (m.filter f) = true := by
  induction m generalizing lo with
  | nil => simp [fwfFrom]
  | cons x r ih =>
    obtain ⟨k, v⟩ := x
    intro h
    simp only [fwfFrom, Bool.and_eq_true, decide_eq_true_eq] at h
    obtain ⟨⟨h1, h2⟩, h3⟩ := h
    by_cases hf : f (k, v) = true
    · simp only [List.filter_cons, hf, if_true, fwfFrom, Bool.and_eq_true, decide_eq_true_eq]
      exact ⟨⟨h1, h2⟩, ih _ h3⟩
    · simp only [List.filter_cons, hf]
      cases lo with
      | none => exact fwfFrom_none d _ (ih _ h3)
      | some a => exact fwfFrom_mono d _ (by simp at h1; omega) (ih _ h3)

/-- Entries may be filtered out. -/
theorem fwf_filter (d : Nat → α) (f : Nat × α → Bool) (m : FMap α) (h : fwf d m = true) : fwf d (m.filter f) = true :=
  fwfFrom_filter d f m none h

omit [DecidableEq α] in
theorem ferase_eq_filter (m : FMap α) (k : Nat) : ferase m k = m.filter (fun x => decide (x.1 ≠ k)) := by
  induction m with
  | nil => rfl
  | cons x r ih =>
    obtain ⟨j, v⟩ := x
    by_cases h : j = k <;> simp [ferase, h, ih]

theorem fwf_ferase (d : Nat → α) (m : FMap α) (k : Nat) (h : fwf d m = true) : fwf d (ferase m k) = true := by
  rw [ferase_eq_filter]; exact fwf_filter d _ m h

theorem fwfFrom_finsert (d : Nat → α) (m : FMap α) (k : Nat) (v : α) (hv : v ≠ d k) (lo : Option Nat)
    (hlo : ∀ a, lo = some a → a < k) (hk : ∀ x ∈ m, x.1 ≠ k) :
    fwfFrom d lo m = true → fwfFrom d lo (finsert m k v) = true := by
  induction m generalizing lo with
  | nil =>
    intro _
    cases lo with
    | none => simp [finsert, fwfFrom, hv]
    | some a => simp [finsert, fwfFrom, hv, hlo a rfl]
  | cons x r ih =>
    obtain ⟨j, w⟩ := x
    intro h
    have hj : j ≠ k := hk (j, w) (by simp)
    simp only [fwfFrom, Bool.and_eq_true, decide_eq_true_eq] at h
    obtain ⟨⟨h1, h2⟩, h3⟩ := h
    by_cases hlt : k < j
    · simp only [finsert, hlt, if_true, fwfFrom, Bool.and_eq_true, decide_eq_true_eq]
      refine ⟨⟨?_, hv⟩, ⟨?_, h2⟩, h3⟩
      · cases lo with
        | none => rfl
        | some a => simp [hlo a rfl]
      · simp
    · simp only [finsert, hlt, if_false, fwfFrom, Bool.and_eq_true, decide_eq_true_eq]
      exact ⟨⟨h1, h2⟩, ih _ (by rintro a ⟨⟩; omega) (fun x hx => hk x (by simp [hx])) h3⟩

/-- A write keeps the canonical form. -/
theorem fwf_fset (d : Nat → α) (m : FMap α) (k : Nat) (v : α) (h : fwf d m = true) : fwf d (fset d m k v) = true := by
  unfold fset
  split
  · exact fwf_ferase d m k h
  · next hv =>
    refine fwfFrom_finsert d _ k v hv none (by simp) ?_ (fwf_ferase d m k h)
    intro x hx
    rw [ferase_eq_filter, List.mem_filter] at hx
    simpa using hx.2

/-- The empty map has the canonical form. -/
@[simp] theorem fwf_nil (d : Nat → α) : fwf d [] = true := rfl

end

/-- Writing a run of bytes keeps the canonical form. -/
theorem fwf_writeCells (m : List Host.Cell) (a : Nat) (l : List Byte) (h : fwf byte0 m = true) : fwf byte0 (writeCells m a l) = true := by
  induction l generalizing m a with
  | nil => exact h
  | cons b r ih => exact ih _ _ (fwf_fset byte0 m a b h)

/-- Bytes outside a written run read as before. -/
theorem fget_writeCells_out (m : List Host.Cell) (a : Nat) (l : List Byte) (k : Nat) (h : k < a ∨ a + l.length ≤ k) :
    fget byte0 (writeCells m a l) k = fget byte0 m k := by
  induction l generalizing m a with
  | nil => rfl
  | cons b r ih =>
    simp only [List.length_cons] at h
    rw [writeCells, ih _ _ (by omega), fget_fset_ne _ _ _ (by omega)]

/-- Byte `i` of a written run reads as the byte written. -/
theorem fget_writeCells_in (m : List Host.Cell) (a : Nat) (l : List Byte) (i : Nat) (h : i < l.length) :
    fget byte0 (writeCells m a l) (a + i) = l[i] := by
  induction l generalizing m a i with
  | nil => simp at h
  | cons b r ih =>
    cases i with
    | zero => rw [writeCells, fget_writeCells_out _ _ _ _ (by omega)]; simp
    | succ n =>
      have := ih (fset byte0 m a b) (a + 1) n (by simpa using h)
      simpa [writeCells, Nat.add_assoc, Nat.add_comm 1 n] using this

end Sys2Proof.Machine
end

