-- ==== Sys2Proof/Laws/State.lean ====
section
/-! SUPPORT. Which fields each basic update of the state leaves alone: one lemma per update and field, true by unfolding. -/

namespace Sys2Proof.Machine

open Sys2Proof

section
variable (s : State) (p : Page) (off v : Nat)

@[simp] theorem State.wr_pending : (s.wr p off v).pending = s.pending := by simp only [State.wr]
@[simp] theorem State.wr_hbm : (s.wr p off v).hbm = s.hbm := by simp only [State.wr]
@[simp] theorem State.wr_raw : (s.wr p off v).raw = s.raw := by simp only [State.wr]
@[simp] theorem State.wr_tmem : (s.wr p off v).tmem = s.tmem := by simp only [State.wr]
@[simp] theorem State.wr_traw : (s.wr p off v).traw = s.traw := by simp only [State.wr]
@[simp] theorem State.wr_ref : (s.wr p off v).ref = s.ref := by simp only [State.wr]
@[simp] theorem State.wr_ptp : (s.wr p off v).ptp = s.ptp := by simp only [State.wr]
@[simp] theorem State.wr_up : (s.wr p off v).up = s.up := by simp only [State.wr]
@[simp] theorem State.wr_stalls : (s.wr p off v).stalls = s.stalls := by simp only [State.wr]
@[simp] theorem State.wr_phase : (s.wr p off v).phase = s.phase := by simp only [State.wr]
@[simp] theorem State.wr_paused : (s.wr p off v).paused = s.paused := by simp only [State.wr]
@[simp] theorem State.wr_free : (s.wr p off v).free = s.free := by simp only [State.wr]
@[simp] theorem State.wr_mem : (s.wr p off v).mem = s.mem := by simp only [State.wr]
@[simp] theorem State.wr_conns : (s.wr p off v).conns = s.conns := by simp only [State.wr]
@[simp] theorem State.wr_openConns : (s.wr p off v).openConns = s.openConns := by simp only [State.wr]
@[simp] theorem State.wr_links : (s.wr p off v).links = s.links := by simp only [State.wr]
@[simp] theorem State.wr_cmds : (s.wr p off v).cmds = s.cmds := by simp only [State.wr]
@[simp] theorem State.wr_nextUid : (s.wr p off v).nextUid = s.nextUid := by simp only [State.wr]
@[simp] theorem State.wr_qs : (s.wr p off v).qs = s.qs := by simp only [State.wr]
@[simp] theorem State.wr_fetchTurn : (s.wr p off v).fetchTurn = s.fetchTurn := by simp only [State.wr]
@[simp] theorem State.wr_xlat : (s.wr p off v).xlat = s.xlat := by simp only [State.wr]
@[simp] theorem State.wr_bind : (s.wr p off v).bind = s.bind := by simp only [State.wr]
@[simp] theorem State.wr_pennants : (s.wr p off v).pennants = s.pennants := by simp only [State.wr]
@[simp] theorem State.wr_hoist : (s.wr p off v).hoist = s.hoist := by simp only [State.wr]
@[simp] theorem State.wr_aborted : (s.wr p off v).aborted = s.aborted := by simp only [State.wr]
@[simp] theorem State.wr_servo : (s.wr p off v).servo = s.servo := by simp only [State.wr]
@[simp] theorem State.wr_mgmt : (s.wr p off v).mgmt = s.mgmt := by simp only [State.wr]
@[simp] theorem State.wr_headroom : (s.wr p off v).headroom = s.headroom := by simp only [State.wr]
@[simp] theorem State.wr_hartsOn : (s.wr p off v).hartsOn = s.hartsOn := by simp only [State.wr]
@[simp] theorem State.wr_ssip : (s.wr p off v).ssip = s.ssip := by simp only [State.wr]
@[simp] theorem State.wr_harts : (s.wr p off v).harts = s.harts := by simp only [State.wr]
@[simp] theorem State.wr_hcache : (s.wr p off v).hcache = s.hcache := by simp only [State.wr]
@[simp] theorem State.wr_tiles : (s.wr p off v).tiles = s.tiles := by simp only [State.wr]
@[simp] theorem State.wr_log : (s.wr p off v).log = s.log := by simp only [State.wr]
@[simp] theorem State.wr_store : (s.wr p off v).store = s.store := by simp only [State.wr]
@[simp] theorem State.wr_palur : (s.wr p off v).palur = s.palur := by simp only [State.wr]
@[simp] theorem State.wr_power : (s.wr p off v).power = s.power := by simp only [State.wr]
@[simp] theorem State.wr_xc : (s.wr p off v).xc = s.xc := by simp only [State.wr]
@[simp] theorem State.wr_refStopped : (s.wr p off v).refStopped = s.refStopped := by simp only [State.wr]
@[simp] theorem State.wr_netHalted : (s.wr p off v).netHalted = s.netHalted := by simp only [State.wr]

end

section
variable (s : State) (p : Page) (off v : Nat)

@[simp] theorem State.wr64_pending : (s.wr64 p off v).pending = s.pending := by simp only [State.wr64, State.wr_pending]
@[simp] theorem State.wr64_hbm : (s.wr64 p off v).hbm = s.hbm := by simp only [State.wr64, State.wr_hbm]
@[simp] theorem State.wr64_raw : (s.wr64 p off v).raw = s.raw := by simp only [State.wr64, State.wr_raw]
@[simp] theorem State.wr64_tmem : (s.wr64 p off v).tmem = s.tmem := by simp only [State.wr64, State.wr_tmem]
@[simp] theorem State.wr64_traw : (s.wr64 p off v).traw = s.traw := by simp only [State.wr64, State.wr_traw]
@[simp] theorem State.wr64_ref : (s.wr64 p off v).ref = s.ref := by simp only [State.wr64, State.wr_ref]
@[simp] theorem State.wr64_ptp : (s.wr64 p off v).ptp = s.ptp := by simp only [State.wr64, State.wr_ptp]
@[simp] theorem State.wr64_up : (s.wr64 p off v).up = s.up := by simp only [State.wr64, State.wr_up]
@[simp] theorem State.wr64_stalls : (s.wr64 p off v).stalls = s.stalls := by simp only [State.wr64, State.wr_stalls]
@[simp] theorem State.wr64_phase : (s.wr64 p off v).phase = s.phase := by simp only [State.wr64, State.wr_phase]
@[simp] theorem State.wr64_paused : (s.wr64 p off v).paused = s.paused := by simp only [State.wr64, State.wr_paused]
@[simp] theorem State.wr64_free : (s.wr64 p off v).free = s.free := by simp only [State.wr64, State.wr_free]
@[simp] theorem State.wr64_mem : (s.wr64 p off v).mem = s.mem := by simp only [State.wr64, State.wr_mem]
@[simp] theorem State.wr64_conns : (s.wr64 p off v).conns = s.conns := by simp only [State.wr64, State.wr_conns]
@[simp] theorem State.wr64_openConns : (s.wr64 p off v).openConns = s.openConns := by simp only [State.wr64, State.wr_openConns]
@[simp] theorem State.wr64_links : (s.wr64 p off v).links = s.links := by simp only [State.wr64, State.wr_links]
@[simp] theorem State.wr64_cmds : (s.wr64 p off v).cmds = s.cmds := by simp only [State.wr64, State.wr_cmds]
@[simp] theorem State.wr64_nextUid : (s.wr64 p off v).nextUid = s.nextUid := by simp only [State.wr64, State.wr_nextUid]
@[simp] theorem State.wr64_qs : (s.wr64 p off v).qs = s.qs := by simp only [State.wr64, State.wr_qs]
@[simp] theorem State.wr64_fetchTurn : (s.wr64 p off v).fetchTurn = s.fetchTurn := by simp only [State.wr64, State.wr_fetchTurn]
@[simp] theorem State.wr64_xlat : (s.wr64 p off v).xlat = s.xlat := by simp only [State.wr64, State.wr_xlat]
@[simp] theorem State.wr64_bind : (s.wr64 p off v).bind = s.bind := by simp only [State.wr64, State.wr_bind]
@[simp] theorem State.wr64_pennants : (s.wr64 p off v).pennants = s.pennants := by simp only [State.wr64, State.wr_pennants]
@[simp] theorem State.wr64_hoist : (s.wr64 p off v).hoist = s.hoist := by simp only [State.wr64, State.wr_hoist]
@[simp] theorem State.wr64_aborted : (s.wr64 p off v).aborted = s.aborted := by simp only [State.wr64, State.wr_aborted]
@[simp] theorem State.wr64_servo : (s.wr64 p off v).servo = s.servo := by simp only [State.wr64, State.wr_servo]
@[simp] theorem State.wr64_mgmt : (s.wr64 p off v).mgmt = s.mgmt := by simp only [State.wr64, State.wr_mgmt]
@[simp] theorem State.wr64_headroom : (s.wr64 p off v).headroom = s.headroom := by simp only [State.wr64, State.wr_headroom]
@[simp] theorem State.wr64_hartsOn : (s.wr64 p off v).hartsOn = s.hartsOn := by simp only [State.wr64, State.wr_hartsOn]
@[simp] theorem State.wr64_ssip : (s.wr64 p off v).ssip = s.ssip := by simp only [State.wr64, State.wr_ssip]
@[simp] theorem State.wr64_harts : (s.wr64 p off v).harts = s.harts := by simp only [State.wr64, State.wr_harts]
@[simp] theorem State.wr64_hcache : (s.wr64 p off v).hcache = s.hcache := by simp only [State.wr64, State.wr_hcache]
@[simp] theorem State.wr64_tiles : (s.wr64 p off v).tiles = s.tiles := by simp only [State.wr64, State.wr_tiles]
@[simp] theorem State.wr64_log : (s.wr64 p off v).log = s.log := by simp only [State.wr64, State.wr_log]
@[simp] theorem State.wr64_store : (s.wr64 p off v).store = s.store := by simp only [State.wr64, State.wr_store]
@[simp] theorem State.wr64_palur : (s.wr64 p off v).palur = s.palur := by simp only [State.wr64, State.wr_palur]
@[simp] theorem State.wr64_power : (s.wr64 p off v).power = s.power := by simp only [State.wr64, State.wr_power]
@[simp] theorem State.wr64_xc : (s.wr64 p off v).xc = s.xc := by simp only [State.wr64, State.wr_xc]
@[simp] theorem State.wr64_refStopped : (s.wr64 p off v).refStopped = s.refStopped := by simp only [State.wr64, State.wr_refStopped]
@[simp] theorem State.wr64_netHalted : (s.wr64 p off v).netHalted = s.netHalted := by simp only [State.wr64, State.wr_netHalted]

end

section
variable (s : State) (p : Page) (off lo len v : Nat)

@[simp] theorem State.wrF_pending : (s.wrF p off lo len v).pending = s.pending := by simp only [State.wrF, State.wr_pending]
@[simp] theorem State.wrF_hbm : (s.wrF p off lo len v).hbm = s.hbm := by simp only [State.wrF, State.wr_hbm]
@[simp] theorem State.wrF_raw : (s.wrF p off lo len v).raw = s.raw := by simp only [State.wrF, State.wr_raw]
@[simp] theorem State.wrF_tmem : (s.wrF p off lo len v).tmem = s.tmem := by simp only [State.wrF, State.wr_tmem]
@[simp] theorem State.wrF_traw : (s.wrF p off lo len v).traw = s.traw := by simp only [State.wrF, State.wr_traw]
@[simp] theorem State.wrF_ref : (s.wrF p off lo len v).ref = s.ref := by simp only [State.wrF, State.wr_ref]
@[simp] theorem State.wrF_ptp : (s.wrF p off lo len v).ptp = s.ptp := by simp only [State.wrF, State.wr_ptp]
@[simp] theorem State.wrF_up : (s.wrF p off lo len v).up = s.up := by simp only [State.wrF, State.wr_up]
@[simp] theorem State.wrF_stalls : (s.wrF p off lo len v).stalls = s.stalls := by simp only [State.wrF, State.wr_stalls]
@[simp] theorem State.wrF_phase : (s.wrF p off lo len v).phase = s.phase := by simp only [State.wrF, State.wr_phase]
@[simp] theorem State.wrF_paused : (s.wrF p off lo len v).paused = s.paused := by simp only [State.wrF, State.wr_paused]
@[simp] theorem State.wrF_free : (s.wrF p off lo len v).free = s.free := by simp only [State.wrF, State.wr_free]
@[simp] theorem State.wrF_mem : (s.wrF p off lo len v).mem = s.mem := by simp only [State.wrF, State.wr_mem]
@[simp] theorem State.wrF_conns : (s.wrF p off lo len v).conns = s.conns := by simp only [State.wrF, State.wr_conns]
@[simp] theorem State.wrF_openConns : (s.wrF p off lo len v).openConns = s.openConns := by simp only [State.wrF, State.wr_openConns]
@[simp] theorem State.wrF_links : (s.wrF p off lo len v).links = s.links := by simp only [State.wrF, State.wr_links]
@[simp] theorem State.wrF_cmds : (s.wrF p off lo len v).cmds = s.cmds := by simp only [State.wrF, State.wr_cmds]
@[simp] theorem State.wrF_nextUid : (s.wrF p off lo len v).nextUid = s.nextUid := by simp only [State.wrF, State.wr_nextUid]
@[simp] theorem State.wrF_qs : (s.wrF p off lo len v).qs = s.qs := by simp only [State.wrF, State.wr_qs]
@[simp] theorem State.wrF_fetchTurn : (s.wrF p off lo len v).fetchTurn = s.fetchTurn := by simp only [State.wrF, State.wr_fetchTurn]
@[simp] theorem State.wrF_xlat : (s.wrF p off lo len v).xlat = s.xlat := by simp only [State.wrF, State.wr_xlat]
@[simp] theorem State.wrF_bind : (s.wrF p off lo len v).bind = s.bind := by simp only [State.wrF, State.wr_bind]
@[simp] theorem State.wrF_pennants : (s.wrF p off lo len v).pennants = s.pennants := by simp only [State.wrF, State.wr_pennants]
@[simp] theorem State.wrF_hoist : (s.wrF p off lo len v).hoist = s.hoist := by simp only [State.wrF, State.wr_hoist]
@[simp] theorem State.wrF_aborted : (s.wrF p off lo len v).aborted = s.aborted := by simp only [State.wrF, State.wr_aborted]
@[simp] theorem State.wrF_servo : (s.wrF p off lo len v).servo = s.servo := by simp only [State.wrF, State.wr_servo]
@[simp] theorem State.wrF_mgmt : (s.wrF p off lo len v).mgmt = s.mgmt := by simp only [State.wrF, State.wr_mgmt]
@[simp] theorem State.wrF_headroom : (s.wrF p off lo len v).headroom = s.headroom := by simp only [State.wrF, State.wr_headroom]
@[simp] theorem State.wrF_hartsOn : (s.wrF p off lo len v).hartsOn = s.hartsOn := by simp only [State.wrF, State.wr_hartsOn]
@[simp] theorem State.wrF_ssip : (s.wrF p off lo len v).ssip = s.ssip := by simp only [State.wrF, State.wr_ssip]
@[simp] theorem State.wrF_harts : (s.wrF p off lo len v).harts = s.harts := by simp only [State.wrF, State.wr_harts]
@[simp] theorem State.wrF_hcache : (s.wrF p off lo len v).hcache = s.hcache := by simp only [State.wrF, State.wr_hcache]
@[simp] theorem State.wrF_tiles : (s.wrF p off lo len v).tiles = s.tiles := by simp only [State.wrF, State.wr_tiles]
@[simp] theorem State.wrF_log : (s.wrF p off lo len v).log = s.log := by simp only [State.wrF, State.wr_log]
@[simp] theorem State.wrF_store : (s.wrF p off lo len v).store = s.store := by simp only [State.wrF, State.wr_store]
@[simp] theorem State.wrF_palur : (s.wrF p off lo len v).palur = s.palur := by simp only [State.wrF, State.wr_palur]
@[simp] theorem State.wrF_power : (s.wrF p off lo len v).power = s.power := by simp only [State.wrF, State.wr_power]
@[simp] theorem State.wrF_xc : (s.wrF p off lo len v).xc = s.xc := by simp only [State.wrF, State.wr_xc]
@[simp] theorem State.wrF_refStopped : (s.wrF p off lo len v).refStopped = s.refStopped := by simp only [State.wrF, State.wr_refStopped]
@[simp] theorem State.wrF_netHalted : (s.wrF p off lo len v).netHalted = s.netHalted := by simp only [State.wrF, State.wr_netHalted]

end

section
variable (s : State) (p : Page) (off n : Nat)

@[simp] theorem State.inc_pending : (s.inc p off n).pending = s.pending := by simp only [State.inc, State.wr_pending]
@[simp] theorem State.inc_hbm : (s.inc p off n).hbm = s.hbm := by simp only [State.inc, State.wr_hbm]
@[simp] theorem State.inc_raw : (s.inc p off n).raw = s.raw := by simp only [State.inc, State.wr_raw]
@[simp] theorem State.inc_tmem : (s.inc p off n).tmem = s.tmem := by simp only [State.inc, State.wr_tmem]
@[simp] theorem State.inc_traw : (s.inc p off n).traw = s.traw := by simp only [State.inc, State.wr_traw]
@[simp] theorem State.inc_ref : (s.inc p off n).ref = s.ref := by simp only [State.inc, State.wr_ref]
@[simp] theorem State.inc_ptp : (s.inc p off n).ptp = s.ptp := by simp only [State.inc, State.wr_ptp]
@[simp] theorem State.inc_up : (s.inc p off n).up = s.up := by simp only [State.inc, State.wr_up]
@[simp] theorem State.inc_stalls : (s.inc p off n).stalls = s.stalls := by simp only [State.inc, State.wr_stalls]
@[simp] theorem State.inc_phase : (s.inc p off n).phase = s.phase := by simp only [State.inc, State.wr_phase]
@[simp] theorem State.inc_paused : (s.inc p off n).paused = s.paused := by simp only [State.inc, State.wr_paused]
@[simp] theorem State.inc_free : (s.inc p off n).free = s.free := by simp only [State.inc, State.wr_free]
@[simp] theorem State.inc_mem : (s.inc p off n).mem = s.mem := by simp only [State.inc, State.wr_mem]
@[simp] theorem State.inc_conns : (s.inc p off n).conns = s.conns := by simp only [State.inc, State.wr_conns]
@[simp] theorem State.inc_openConns : (s.inc p off n).openConns = s.openConns := by simp only [State.inc, State.wr_openConns]
@[simp] theorem State.inc_links : (s.inc p off n).links = s.links := by simp only [State.inc, State.wr_links]
@[simp] theorem State.inc_cmds : (s.inc p off n).cmds = s.cmds := by simp only [State.inc, State.wr_cmds]
@[simp] theorem State.inc_nextUid : (s.inc p off n).nextUid = s.nextUid := by simp only [State.inc, State.wr_nextUid]
@[simp] theorem State.inc_qs : (s.inc p off n).qs = s.qs := by simp only [State.inc, State.wr_qs]
@[simp] theorem State.inc_fetchTurn : (s.inc p off n).fetchTurn = s.fetchTurn := by simp only [State.inc, State.wr_fetchTurn]
@[simp] theorem State.inc_xlat : (s.inc p off n).xlat = s.xlat := by simp only [State.inc, State.wr_xlat]
@[simp] theorem State.inc_bind : (s.inc p off n).bind = s.bind := by simp only [State.inc, State.wr_bind]
@[simp] theorem State.inc_pennants : (s.inc p off n).pennants = s.pennants := by simp only [State.inc, State.wr_pennants]
@[simp] theorem State.inc_hoist : (s.inc p off n).hoist = s.hoist := by simp only [State.inc, State.wr_hoist]
@[simp] theorem State.inc_aborted : (s.inc p off n).aborted = s.aborted := by simp only [State.inc, State.wr_aborted]
@[simp] theorem State.inc_servo : (s.inc p off n).servo = s.servo := by simp only [State.inc, State.wr_servo]
@[simp] theorem State.inc_mgmt : (s.inc p off n).mgmt = s.mgmt := by simp only [State.inc, State.wr_mgmt]
@[simp] theorem State.inc_headroom : (s.inc p off n).headroom = s.headroom := by simp only [State.inc, State.wr_headroom]
@[simp] theorem State.inc_hartsOn : (s.inc p off n).hartsOn = s.hartsOn := by simp only [State.inc, State.wr_hartsOn]
@[simp] theorem State.inc_ssip : (s.inc p off n).ssip = s.ssip := by simp only [State.inc, State.wr_ssip]
@[simp] theorem State.inc_harts : (s.inc p off n).harts = s.harts := by simp only [State.inc, State.wr_harts]
@[simp] theorem State.inc_hcache : (s.inc p off n).hcache = s.hcache := by simp only [State.inc, State.wr_hcache]
@[simp] theorem State.inc_tiles : (s.inc p off n).tiles = s.tiles := by simp only [State.inc, State.wr_tiles]
@[simp] theorem State.inc_log : (s.inc p off n).log = s.log := by simp only [State.inc, State.wr_log]
@[simp] theorem State.inc_store : (s.inc p off n).store = s.store := by simp only [State.inc, State.wr_store]
@[simp] theorem State.inc_palur : (s.inc p off n).palur = s.palur := by simp only [State.inc, State.wr_palur]
@[simp] theorem State.inc_power : (s.inc p off n).power = s.power := by simp only [State.inc, State.wr_power]
@[simp] theorem State.inc_xc : (s.inc p off n).xc = s.xc := by simp only [State.inc, State.wr_xc]
@[simp] theorem State.inc_refStopped : (s.inc p off n).refStopped = s.refStopped := by simp only [State.inc, State.wr_refStopped]
@[simp] theorem State.inc_netHalted : (s.inc p off n).netHalted = s.netHalted := by simp only [State.inc, State.wr_netHalted]

end

section
variable (s : State) (p : Page) (n : Nat)

@[simp] theorem setFlag_pending : (setFlag s p n).pending = s.pending := by simp only [setFlag, State.inc_pending, State.wr_pending]
@[simp] theorem setFlag_hbm : (setFlag s p n).hbm = s.hbm := by simp only [setFlag, State.inc_hbm, State.wr_hbm]
@[simp] theorem setFlag_raw : (setFlag s p n).raw = s.raw := by simp only [setFlag, State.inc_raw, State.wr_raw]
@[simp] theorem setFlag_tmem : (setFlag s p n).tmem = s.tmem := by simp only [setFlag, State.inc_tmem, State.wr_tmem]
@[simp] theorem setFlag_traw : (setFlag s p n).traw = s.traw := by simp only [setFlag, State.inc_traw, State.wr_traw]
@[simp] theorem setFlag_ref : (setFlag s p n).ref = s.ref := by simp only [setFlag, State.inc_ref, State.wr_ref]
@[simp] theorem setFlag_ptp : (setFlag s p n).ptp = s.ptp := by simp only [setFlag, State.inc_ptp, State.wr_ptp]
@[simp] theorem setFlag_up : (setFlag s p n).up = s.up := by simp only [setFlag, State.inc_up, State.wr_up]
@[simp] theorem setFlag_stalls : (setFlag s p n).stalls = s.stalls := by simp only [setFlag, State.inc_stalls, State.wr_stalls]
@[simp] theorem setFlag_phase : (setFlag s p n).phase = s.phase := by simp only [setFlag, State.inc_phase, State.wr_phase]
@[simp] theorem setFlag_paused : (setFlag s p n).paused = s.paused := by simp only [setFlag, State.inc_paused, State.wr_paused]
@[simp] theorem setFlag_free : (setFlag s p n).free = s.free := by simp only [setFlag, State.inc_free, State.wr_free]
@[simp] theorem setFlag_mem : (setFlag s p n).mem = s.mem := by simp only [setFlag, State.inc_mem, State.wr_mem]
@[simp] theorem setFlag_conns : (setFlag s p n).conns = s.conns := by simp only [setFlag, State.inc_conns, State.wr_conns]
@[simp] theorem setFlag_openConns : (setFlag s p n).openConns = s.openConns := by simp only [setFlag, State.inc_openConns, State.wr_openConns]
@[simp] theorem setFlag_links : (setFlag s p n).links = s.links := by simp only [setFlag, State.inc_links, State.wr_links]
@[simp] theorem setFlag_cmds : (setFlag s p n).cmds = s.cmds := by simp only [setFlag, State.inc_cmds, State.wr_cmds]
@[simp] theorem setFlag_nextUid : (setFlag s p n).nextUid = s.nextUid := by simp only [setFlag, State.inc_nextUid, State.wr_nextUid]
@[simp] theorem setFlag_qs : (setFlag s p n).qs = s.qs := by simp only [setFlag, State.inc_qs, State.wr_qs]
@[simp] theorem setFlag_fetchTurn : (setFlag s p n).fetchTurn = s.fetchTurn := by simp only [setFlag, State.inc_fetchTurn, State.wr_fetchTurn]
@[simp] theorem setFlag_xlat : (setFlag s p n).xlat = s.xlat := by simp only [setFlag, State.inc_xlat, State.wr_xlat]
@[simp] theorem setFlag_bind : (setFlag s p n).bind = s.bind := by simp only [setFlag, State.inc_bind, State.wr_bind]
@[simp] theorem setFlag_pennants : (setFlag s p n).pennants = s.pennants := by simp only [setFlag, State.inc_pennants, State.wr_pennants]
@[simp] theorem setFlag_hoist : (setFlag s p n).hoist = s.hoist := by simp only [setFlag, State.inc_hoist, State.wr_hoist]
@[simp] theorem setFlag_aborted : (setFlag s p n).aborted = s.aborted := by simp only [setFlag, State.inc_aborted, State.wr_aborted]
@[simp] theorem setFlag_servo : (setFlag s p n).servo = s.servo := by simp only [setFlag, State.inc_servo, State.wr_servo]
@[simp] theorem setFlag_mgmt : (setFlag s p n).mgmt = s.mgmt := by simp only [setFlag, State.inc_mgmt, State.wr_mgmt]
@[simp] theorem setFlag_headroom : (setFlag s p n).headroom = s.headroom := by simp only [setFlag, State.inc_headroom, State.wr_headroom]
@[simp] theorem setFlag_hartsOn : (setFlag s p n).hartsOn = s.hartsOn := by simp only [setFlag, State.inc_hartsOn, State.wr_hartsOn]
@[simp] theorem setFlag_ssip : (setFlag s p n).ssip = s.ssip := by simp only [setFlag, State.inc_ssip, State.wr_ssip]
@[simp] theorem setFlag_harts : (setFlag s p n).harts = s.harts := by simp only [setFlag, State.inc_harts, State.wr_harts]
@[simp] theorem setFlag_hcache : (setFlag s p n).hcache = s.hcache := by simp only [setFlag, State.inc_hcache, State.wr_hcache]
@[simp] theorem setFlag_tiles : (setFlag s p n).tiles = s.tiles := by simp only [setFlag, State.inc_tiles, State.wr_tiles]
@[simp] theorem setFlag_log : (setFlag s p n).log = s.log := by simp only [setFlag, State.inc_log, State.wr_log]
@[simp] theorem setFlag_store : (setFlag s p n).store = s.store := by simp only [setFlag, State.inc_store, State.wr_store]
@[simp] theorem setFlag_palur : (setFlag s p n).palur = s.palur := by simp only [setFlag, State.inc_palur, State.wr_palur]
@[simp] theorem setFlag_power : (setFlag s p n).power = s.power := by simp only [setFlag, State.inc_power, State.wr_power]
@[simp] theorem setFlag_xc : (setFlag s p n).xc = s.xc := by simp only [setFlag, State.inc_xc, State.wr_xc]
@[simp] theorem setFlag_refStopped : (setFlag s p n).refStopped = s.refStopped := by simp only [setFlag, State.inc_refStopped, State.wr_refStopped]
@[simp] theorem setFlag_netHalted : (setFlag s p n).netHalted = s.netHalted := by simp only [setFlag, State.inc_netHalted, State.wr_netHalted]

end

section
variable (s : State) (a : Nat) (l : List Byte)

@[simp] theorem State.hwr_pending : (s.hwr a l).pending = s.pending := by simp only [State.hwr]
@[simp] theorem State.hwr_regs : (s.hwr a l).regs = s.regs := by simp only [State.hwr]
@[simp] theorem State.hwr_raw : (s.hwr a l).raw = s.raw := by simp only [State.hwr]
@[simp] theorem State.hwr_tmem : (s.hwr a l).tmem = s.tmem := by simp only [State.hwr]
@[simp] theorem State.hwr_traw : (s.hwr a l).traw = s.traw := by simp only [State.hwr]
@[simp] theorem State.hwr_ref : (s.hwr a l).ref = s.ref := by simp only [State.hwr]
@[simp] theorem State.hwr_ptp : (s.hwr a l).ptp = s.ptp := by simp only [State.hwr]
@[simp] theorem State.hwr_up : (s.hwr a l).up = s.up := by simp only [State.hwr]
@[simp] theorem State.hwr_stalls : (s.hwr a l).stalls = s.stalls := by simp only [State.hwr]
@[simp] theorem State.hwr_phase : (s.hwr a l).phase = s.phase := by simp only [State.hwr]
@[simp] theorem State.hwr_paused : (s.hwr a l).paused = s.paused := by simp only [State.hwr]
@[simp] theorem State.hwr_free : (s.hwr a l).free = s.free := by simp only [State.hwr]
@[simp] theorem State.hwr_mem : (s.hwr a l).mem = s.mem := by simp only [State.hwr]
@[simp] theorem State.hwr_conns : (s.hwr a l).conns = s.conns := by simp only [State.hwr]
@[simp] theorem State.hwr_openConns : (s.hwr a l).openConns = s.openConns := by simp only [State.hwr]
@[simp] theorem State.hwr_links : (s.hwr a l).links = s.links := by simp only [State.hwr]
@[simp] theorem State.hwr_cmds : (s.hwr a l).cmds = s.cmds := by simp only [State.hwr]
@[simp] theorem State.hwr_nextUid : (s.hwr a l).nextUid = s.nextUid := by simp only [State.hwr]
@[simp] theorem State.hwr_qs : (s.hwr a l).qs = s.qs := by simp only [State.hwr]
@[simp] theorem State.hwr_fetchTurn : (s.hwr a l).fetchTurn = s.fetchTurn := by simp only [State.hwr]
@[simp] theorem State.hwr_xlat : (s.hwr a l).xlat = s.xlat := by simp only [State.hwr]
@[simp] theorem State.hwr_bind : (s.hwr a l).bind = s.bind := by simp only [State.hwr]
@[simp] theorem State.hwr_pennants : (s.hwr a l).pennants = s.pennants := by simp only [State.hwr]
@[simp] theorem State.hwr_hoist : (s.hwr a l).hoist = s.hoist := by simp only [State.hwr]
@[simp] theorem State.hwr_aborted : (s.hwr a l).aborted = s.aborted := by simp only [State.hwr]
@[simp] theorem State.hwr_servo : (s.hwr a l).servo = s.servo := by simp only [State.hwr]
@[simp] theorem State.hwr_mgmt : (s.hwr a l).mgmt = s.mgmt := by simp only [State.hwr]
@[simp] theorem State.hwr_headroom : (s.hwr a l).headroom = s.headroom := by simp only [State.hwr]
@[simp] theorem State.hwr_hartsOn : (s.hwr a l).hartsOn = s.hartsOn := by simp only [State.hwr]
@[simp] theorem State.hwr_ssip : (s.hwr a l).ssip = s.ssip := by simp only [State.hwr]
@[simp] theorem State.hwr_harts : (s.hwr a l).harts = s.harts := by simp only [State.hwr]
@[simp] theorem State.hwr_hcache : (s.hwr a l).hcache = s.hcache := by simp only [State.hwr]
@[simp] theorem State.hwr_tiles : (s.hwr a l).tiles = s.tiles := by simp only [State.hwr]
@[simp] theorem State.hwr_log : (s.hwr a l).log = s.log := by simp only [State.hwr]
@[simp] theorem State.hwr_store : (s.hwr a l).store = s.store := by simp only [State.hwr]
@[simp] theorem State.hwr_palur : (s.hwr a l).palur = s.palur := by simp only [State.hwr]
@[simp] theorem State.hwr_power : (s.hwr a l).power = s.power := by simp only [State.hwr]
@[simp] theorem State.hwr_xc : (s.hwr a l).xc = s.xc := by simp only [State.hwr]
@[simp] theorem State.hwr_refStopped : (s.hwr a l).refStopped = s.refStopped := by simp only [State.hwr]
@[simp] theorem State.hwr_netHalted : (s.hwr a l).netHalted = s.netHalted := by simp only [State.hwr]

end

section
variable (s : State) (t off : Nat) (l : List Byte)

@[simp] theorem State.twr_pending : (s.twr t off l).pending = s.pending := by simp only [State.twr]
@[simp] theorem State.twr_regs : (s.twr t off l).regs = s.regs := by simp only [State.twr]
@[simp] theorem State.twr_hbm : (s.twr t off l).hbm = s.hbm := by simp only [State.twr]
@[simp] theorem State.twr_raw : (s.twr t off l).raw = s.raw := by simp only [State.twr]
@[simp] theorem State.twr_ref : (s.twr t off l).ref = s.ref := by simp only [State.twr]
@[simp] theorem State.twr_ptp : (s.twr t off l).ptp = s.ptp := by simp only [State.twr]
@[simp] theorem State.twr_up : (s.twr t off l).up = s.up := by simp only [State.twr]
@[simp] theorem State.twr_stalls : (s.twr t off l).stalls = s.stalls := by simp only [State.twr]
@[simp] theorem State.twr_phase : (s.twr t off l).phase = s.phase := by simp only [State.twr]
@[simp] theorem State.twr_paused : (s.twr t off l).paused = s.paused := by simp only [State.twr]
@[simp] theorem State.twr_free : (s.twr t off l).free = s.free := by simp only [State.twr]
@[simp] theorem State.twr_mem : (s.twr t off l).mem = s.mem := by simp only [State.twr]
@[simp] theorem State.twr_conns : (s.twr t off l).conns = s.conns := by simp only [State.twr]
@[simp] theorem State.twr_openConns : (s.twr t off l).openConns = s.openConns := by simp only [State.twr]
@[simp] theorem State.twr_links : (s.twr t off l).links = s.links := by simp only [State.twr]
@[simp] theorem State.twr_cmds : (s.twr t off l).cmds = s.cmds := by simp only [State.twr]
@[simp] theorem State.twr_nextUid : (s.twr t off l).nextUid = s.nextUid := by simp only [State.twr]
@[simp] theorem State.twr_qs : (s.twr t off l).qs = s.qs := by simp only [State.twr]
@[simp] theorem State.twr_fetchTurn : (s.twr t off l).fetchTurn = s.fetchTurn := by simp only [State.twr]
@[simp] theorem State.twr_xlat : (s.twr t off l).xlat = s.xlat := by simp only [State.twr]
@[simp] theorem State.twr_bind : (s.twr t off l).bind = s.bind := by simp only [State.twr]
@[simp] theorem State.twr_pennants : (s.twr t off l).pennants = s.pennants := by simp only [State.twr]
@[simp] theorem State.twr_hoist : (s.twr t off l).hoist = s.hoist := by simp only [State.twr]
@[simp] theorem State.twr_aborted : (s.twr t off l).aborted = s.aborted := by simp only [State.twr]
@[simp] theorem State.twr_servo : (s.twr t off l).servo = s.servo := by simp only [State.twr]
@[simp] theorem State.twr_mgmt : (s.twr t off l).mgmt = s.mgmt := by simp only [State.twr]
@[simp] theorem State.twr_headroom : (s.twr t off l).headroom = s.headroom := by simp only [State.twr]
@[simp] theorem State.twr_hartsOn : (s.twr t off l).hartsOn = s.hartsOn := by simp only [State.twr]
@[simp] theorem State.twr_ssip : (s.twr t off l).ssip = s.ssip := by simp only [State.twr]
@[simp] theorem State.twr_harts : (s.twr t off l).harts = s.harts := by simp only [State.twr]
@[simp] theorem State.twr_hcache : (s.twr t off l).hcache = s.hcache := by simp only [State.twr]
@[simp] theorem State.twr_tiles : (s.twr t off l).tiles = s.tiles := by simp only [State.twr]
@[simp] theorem State.twr_log : (s.twr t off l).log = s.log := by simp only [State.twr]
@[simp] theorem State.twr_store : (s.twr t off l).store = s.store := by simp only [State.twr]
@[simp] theorem State.twr_palur : (s.twr t off l).palur = s.palur := by simp only [State.twr]
@[simp] theorem State.twr_power : (s.twr t off l).power = s.power := by simp only [State.twr]
@[simp] theorem State.twr_xc : (s.twr t off l).xc = s.xc := by simp only [State.twr]
@[simp] theorem State.twr_refStopped : (s.twr t off l).refStopped = s.refStopped := by simp only [State.twr]
@[simp] theorem State.twr_netHalted : (s.twr t off l).netHalted = s.netHalted := by simp only [State.twr]

end

section
variable (s : State) (t : Nat) (x : Tile)

@[simp] theorem State.setTile_pending : (s.setTile t x).pending = s.pending := by simp only [State.setTile]
@[simp] theorem State.setTile_regs : (s.setTile t x).regs = s.regs := by simp only [State.setTile]
@[simp] theorem State.setTile_hbm : (s.setTile t x).hbm = s.hbm := by simp only [State.setTile]
@[simp] theorem State.setTile_raw : (s.setTile t x).raw = s.raw := by simp only [State.setTile]
@[simp] theorem State.setTile_tmem : (s.setTile t x).tmem = s.tmem := by simp only [State.setTile]
@[simp] theorem State.setTile_traw : (s.setTile t x).traw = s.traw := by simp only [State.setTile]
@[simp] theorem State.setTile_ref : (s.setTile t x).ref = s.ref := by simp only [State.setTile]
@[simp] theorem State.setTile_ptp : (s.setTile t x).ptp = s.ptp := by simp only [State.setTile]
@[simp] theorem State.setTile_up : (s.setTile t x).up = s.up := by simp only [State.setTile]
@[simp] theorem State.setTile_stalls : (s.setTile t x).stalls = s.stalls := by simp only [State.setTile]
@[simp] theorem State.setTile_phase : (s.setTile t x).phase = s.phase := by simp only [State.setTile]
@[simp] theorem State.setTile_paused : (s.setTile t x).paused = s.paused := by simp only [State.setTile]
@[simp] theorem State.setTile_free : (s.setTile t x).free = s.free := by simp only [State.setTile]
@[simp] theorem State.setTile_mem : (s.setTile t x).mem = s.mem := by simp only [State.setTile]
@[simp] theorem State.setTile_conns : (s.setTile t x).conns = s.conns := by simp only [State.setTile]
@[simp] theorem State.setTile_openConns : (s.setTile t x).openConns = s.openConns := by simp only [State.setTile]
@[simp] theorem State.setTile_links : (s.setTile t x).links = s.links := by simp only [State.setTile]
@[simp] theorem State.setTile_cmds : (s.setTile t x).cmds = s.cmds := by simp only [State.setTile]
@[simp] theorem State.setTile_nextUid : (s.setTile t x).nextUid = s.nextUid := by simp only [State.setTile]
@[simp] theorem State.setTile_qs : (s.setTile t x).qs = s.qs := by simp only [State.setTile]
@[simp] theorem State.setTile_fetchTurn : (s.setTile t x).fetchTurn = s.fetchTurn := by simp only [State.setTile]
@[simp] theorem State.setTile_xlat : (s.setTile t x).xlat = s.xlat := by simp only [State.setTile]
@[simp] theorem State.setTile_bind : (s.setTile t x).bind = s.bind := by simp only [State.setTile]
@[simp] theorem State.setTile_pennants : (s.setTile t x).pennants = s.pennants := by simp only [State.setTile]
@[simp] theorem State.setTile_hoist : (s.setTile t x).hoist = s.hoist := by simp only [State.setTile]
@[simp] theorem State.setTile_aborted : (s.setTile t x).aborted = s.aborted := by simp only [State.setTile]
@[simp] theorem State.setTile_servo : (s.setTile t x).servo = s.servo := by simp only [State.setTile]
@[simp] theorem State.setTile_mgmt : (s.setTile t x).mgmt = s.mgmt := by simp only [State.setTile]
@[simp] theorem State.setTile_headroom : (s.setTile t x).headroom = s.headroom := by simp only [State.setTile]
@[simp] theorem State.setTile_hartsOn : (s.setTile t x).hartsOn = s.hartsOn := by simp only [State.setTile]
@[simp] theorem State.setTile_ssip : (s.setTile t x).ssip = s.ssip := by simp only [State.setTile]
@[simp] theorem State.setTile_harts : (s.setTile t x).harts = s.harts := by simp only [State.setTile]
@[simp] theorem State.setTile_hcache : (s.setTile t x).hcache = s.hcache := by simp only [State.setTile]
@[simp] theorem State.setTile_log : (s.setTile t x).log = s.log := by simp only [State.setTile]
@[simp] theorem State.setTile_store : (s.setTile t x).store = s.store := by simp only [State.setTile]
@[simp] theorem State.setTile_palur : (s.setTile t x).palur = s.palur := by simp only [State.setTile]
@[simp] theorem State.setTile_power : (s.setTile t x).power = s.power := by simp only [State.setTile]
@[simp] theorem State.setTile_xc : (s.setTile t x).xc = s.xc := by simp only [State.setTile]
@[simp] theorem State.setTile_refStopped : (s.setTile t x).refStopped = s.refStopped := by simp only [State.setTile]
@[simp] theorem State.setTile_netHalted : (s.setTile t x).netHalted = s.netHalted := by simp only [State.setTile]

end

section
variable (s : State) (t : Nat) (f : Tile → Tile)

@[simp] theorem State.modTile_pending : (s.modTile t f).pending = s.pending := by simp only [State.modTile, State.setTile_pending]
@[simp] theorem State.modTile_regs : (s.modTile t f).regs = s.regs := by simp only [State.modTile, State.setTile_regs]
@[simp] theorem State.modTile_hbm : (s.modTile t f).hbm = s.hbm := by simp only [State.modTile, State.setTile_hbm]
@[simp] theorem State.modTile_raw : (s.modTile t f).raw = s.raw := by simp only [State.modTile, State.setTile_raw]
@[simp] theorem State.modTile_tmem : (s.modTile t f).tmem = s.tmem := by simp only [State.modTile, State.setTile_tmem]
@[simp] theorem State.modTile_traw : (s.modTile t f).traw = s.traw := by simp only [State.modTile, State.setTile_traw]
@[simp] theorem State.modTile_ref : (s.modTile t f).ref = s.ref := by simp only [State.modTile, State.setTile_ref]
@[simp] theorem State.modTile_ptp : (s.modTile t f).ptp = s.ptp := by simp only [State.modTile, State.setTile_ptp]
@[simp] theorem State.modTile_up : (s.modTile t f).up = s.up := by simp only [State.modTile, State.setTile_up]
@[simp] theorem State.modTile_stalls : (s.modTile t f).stalls = s.stalls := by simp only [State.modTile, State.setTile_stalls]
@[simp] theorem State.modTile_phase : (s.modTile t f).phase = s.phase := by simp only [State.modTile, State.setTile_phase]
@[simp] theorem State.modTile_paused : (s.modTile t f).paused = s.paused := by simp only [State.modTile, State.setTile_paused]
@[simp] theorem State.modTile_free : (s.modTile t f).free = s.free := by simp only [State.modTile, State.setTile_free]
@[simp] theorem State.modTile_mem : (s.modTile t f).mem = s.mem := by simp only [State.modTile, State.setTile_mem]
@[simp] theorem State.modTile_conns : (s.modTile t f).conns = s.conns := by simp only [State.modTile, State.setTile_conns]
@[simp] theorem State.modTile_openConns : (s.modTile t f).openConns = s.openConns := by simp only [State.modTile, State.setTile_openConns]
@[simp] theorem State.modTile_links : (s.modTile t f).links = s.links := by simp only [State.modTile, State.setTile_links]
@[simp] theorem State.modTile_cmds : (s.modTile t f).cmds = s.cmds := by simp only [State.modTile, State.setTile_cmds]
@[simp] theorem State.modTile_nextUid : (s.modTile t f).nextUid = s.nextUid := by simp only [State.modTile, State.setTile_nextUid]
@[simp] theorem State.modTile_qs : (s.modTile t f).qs = s.qs := by simp only [State.modTile, State.setTile_qs]
@[simp] theorem State.modTile_fetchTurn : (s.modTile t f).fetchTurn = s.fetchTurn := by simp only [State.modTile, State.setTile_fetchTurn]
@[simp] theorem State.modTile_xlat : (s.modTile t f).xlat = s.xlat := by simp only [State.modTile, State.setTile_xlat]
@[simp] theorem State.modTile_bind : (s.modTile t f).bind = s.bind := by simp only [State.modTile, State.setTile_bind]
@[simp] theorem State.modTile_pennants : (s.modTile t f).pennants = s.pennants := by simp only [State.modTile, State.setTile_pennants]
@[simp] theorem State.modTile_hoist : (s.modTile t f).hoist = s.hoist := by simp only [State.modTile, State.setTile_hoist]
@[simp] theorem State.modTile_aborted : (s.modTile t f).aborted = s.aborted := by simp only [State.modTile, State.setTile_aborted]
@[simp] theorem State.modTile_servo : (s.modTile t f).servo = s.servo := by simp only [State.modTile, State.setTile_servo]
@[simp] theorem State.modTile_mgmt : (s.modTile t f).mgmt = s.mgmt := by simp only [State.modTile, State.setTile_mgmt]
@[simp] theorem State.modTile_headroom : (s.modTile t f).headroom = s.headroom := by simp only [State.modTile, State.setTile_headroom]
@[simp] theorem State.modTile_hartsOn : (s.modTile t f).hartsOn = s.hartsOn := by simp only [State.modTile, State.setTile_hartsOn]
@[simp] theorem State.modTile_ssip : (s.modTile t f).ssip = s.ssip := by simp only [State.modTile, State.setTile_ssip]
@[simp] theorem State.modTile_harts : (s.modTile t f).harts = s.harts := by simp only [State.modTile, State.setTile_harts]
@[simp] theorem State.modTile_hcache : (s.modTile t f).hcache = s.hcache := by simp only [State.modTile, State.setTile_hcache]
@[simp] theorem State.modTile_log : (s.modTile t f).log = s.log := by simp only [State.modTile, State.setTile_log]
@[simp] theorem State.modTile_store : (s.modTile t f).store = s.store := by simp only [State.modTile, State.setTile_store]
@[simp] theorem State.modTile_palur : (s.modTile t f).palur = s.palur := by simp only [State.modTile, State.setTile_palur]
@[simp] theorem State.modTile_power : (s.modTile t f).power = s.power := by simp only [State.modTile, State.setTile_power]
@[simp] theorem State.modTile_xc : (s.modTile t f).xc = s.xc := by simp only [State.modTile, State.setTile_xc]
@[simp] theorem State.modTile_refStopped : (s.modTile t f).refStopped = s.refStopped := by simp only [State.modTile, State.setTile_refStopped]
@[simp] theorem State.modTile_netHalted : (s.modTile t f).netHalted = s.netHalted := by simp only [State.modTile, State.setTile_netHalted]

end

section
variable (s : State) (n : Nat) (x : Hart)

@[simp] theorem State.setHart_pending : (s.setHart n x).pending = s.pending := by simp only [State.setHart]
@[simp] theorem State.setHart_regs : (s.setHart n x).regs = s.regs := by simp only [State.setHart]
@[simp] theorem State.setHart_hbm : (s.setHart n x).hbm = s.hbm := by simp only [State.setHart]
@[simp] theorem State.setHart_raw : (s.setHart n x).raw = s.raw := by simp only [State.setHart]
@[simp] theorem State.setHart_tmem : (s.setHart n x).tmem = s.tmem := by simp only [State.setHart]
@[simp] theorem State.setHart_traw : (s.setHart n x).traw = s.traw := by simp only [State.setHart]
@[simp] theorem State.setHart_ref : (s.setHart n x).ref = s.ref := by simp only [State.setHart]
@[simp] theorem State.setHart_ptp : (s.setHart n x).ptp = s.ptp := by simp only [State.setHart]
@[simp] theorem State.setHart_up : (s.setHart n x).up = s.up := by simp only [State.setHart]
@[simp] theorem State.setHart_stalls : (s.setHart n x).stalls = s.stalls := by simp only [State.setHart]
@[simp] theorem State.setHart_phase : (s.setHart n x).phase = s.phase := by simp only [State.setHart]
@[simp] theorem State.setHart_paused : (s.setHart n x).paused = s.paused := by simp only [State.setHart]
@[simp] theorem State.setHart_free : (s.setHart n x).free = s.free := by simp only [State.setHart]
@[simp] theorem State.setHart_mem : (s.setHart n x).mem = s.mem := by simp only [State.setHart]
@[simp] theorem State.setHart_conns : (s.setHart n x).conns = s.conns := by simp only [State.setHart]
@[simp] theorem State.setHart_openConns : (s.setHart n x).openConns = s.openConns := by simp only [State.setHart]
@[simp] theorem State.setHart_links : (s.setHart n x).links = s.links := by simp only [State.setHart]
@[simp] theorem State.setHart_cmds : (s.setHart n x).cmds = s.cmds := by simp only [State.setHart]
@[simp] theorem State.setHart_nextUid : (s.setHart n x).nextUid = s.nextUid := by simp only [State.setHart]
@[simp] theorem State.setHart_qs : (s.setHart n x).qs = s.qs := by simp only [State.setHart]
@[simp] theorem State.setHart_fetchTurn : (s.setHart n x).fetchTurn = s.fetchTurn := by simp only [State.setHart]
@[simp] theorem State.setHart_xlat : (s.setHart n x).xlat = s.xlat := by simp only [State.setHart]
@[simp] theorem State.setHart_bind : (s.setHart n x).bind = s.bind := by simp only [State.setHart]
@[simp] theorem State.setHart_pennants : (s.setHart n x).pennants = s.pennants := by simp only [State.setHart]
@[simp] theorem State.setHart_hoist : (s.setHart n x).hoist = s.hoist := by simp only [State.setHart]
@[simp] theorem State.setHart_aborted : (s.setHart n x).aborted = s.aborted := by simp only [State.setHart]
@[simp] theorem State.setHart_servo : (s.setHart n x).servo = s.servo := by simp only [State.setHart]
@[simp] theorem State.setHart_mgmt : (s.setHart n x).mgmt = s.mgmt := by simp only [State.setHart]
@[simp] theorem State.setHart_headroom : (s.setHart n x).headroom = s.headroom := by simp only [State.setHart]
@[simp] theorem State.setHart_hartsOn : (s.setHart n x).hartsOn = s.hartsOn := by simp only [State.setHart]
@[simp] theorem State.setHart_ssip : (s.setHart n x).ssip = s.ssip := by simp only [State.setHart]
@[simp] theorem State.setHart_hcache : (s.setHart n x).hcache = s.hcache := by simp only [State.setHart]
@[simp] theorem State.setHart_tiles : (s.setHart n x).tiles = s.tiles := by simp only [State.setHart]
@[simp] theorem State.setHart_log : (s.setHart n x).log = s.log := by simp only [State.setHart]
@[simp] theorem State.setHart_store : (s.setHart n x).store = s.store := by simp only [State.setHart]
@[simp] theorem State.setHart_palur : (s.setHart n x).palur = s.palur := by simp only [State.setHart]
@[simp] theorem State.setHart_power : (s.setHart n x).power = s.power := by simp only [State.setHart]
@[simp] theorem State.setHart_xc : (s.setHart n x).xc = s.xc := by simp only [State.setHart]
@[simp] theorem State.setHart_refStopped : (s.setHart n x).refStopped = s.refStopped := by simp only [State.setHart]
@[simp] theorem State.setHart_netHalted : (s.setHart n x).netHalted = s.netHalted := by simp only [State.setHart]

end

section
variable (s : State) (n : Nat) (f : Hart → Hart)

@[simp] theorem State.modHart_pending : (s.modHart n f).pending = s.pending := by simp only [State.modHart, State.setHart_pending]
@[simp] theorem State.modHart_regs : (s.modHart n f).regs = s.regs := by simp only [State.modHart, State.setHart_regs]
@[simp] theorem State.modHart_hbm : (s.modHart n f).hbm = s.hbm := by simp only [State.modHart, State.setHart_hbm]
@[simp] theorem State.modHart_raw : (s.modHart n f).raw = s.raw := by simp only [State.modHart, State.setHart_raw]
@[simp] theorem State.modHart_tmem : (s.modHart n f).tmem = s.tmem := by simp only [State.modHart, State.setHart_tmem]
@[simp] theorem State.modHart_traw : (s.modHart n f).traw = s.traw := by simp only [State.modHart, State.setHart_traw]
@[simp] theorem State.modHart_ref : (s.modHart n f).ref = s.ref := by simp only [State.modHart, State.setHart_ref]
@[simp] theorem State.modHart_ptp : (s.modHart n f).ptp = s.ptp := by simp only [State.modHart, State.setHart_ptp]
@[simp] theorem State.modHart_up : (s.modHart n f).up = s.up := by simp only [State.modHart, State.setHart_up]
@[simp] theorem State.modHart_stalls : (s.modHart n f).stalls = s.stalls := by simp only [State.modHart, State.setHart_stalls]
@[simp] theorem State.modHart_phase : (s.modHart n f).phase = s.phase := by simp only [State.modHart, State.setHart_phase]
@[simp] theorem State.modHart_paused : (s.modHart n f).paused = s.paused := by simp only [State.modHart, State.setHart_paused]
@[simp] theorem State.modHart_free : (s.modHart n f).free = s.free := by simp only [State.modHart, State.setHart_free]
@[simp] theorem State.modHart_mem : (s.modHart n f).mem = s.mem := by simp only [State.modHart, State.setHart_mem]
@[simp] theorem State.modHart_conns : (s.modHart n f).conns = s.conns := by simp only [State.modHart, State.setHart_conns]
@[simp] theorem State.modHart_openConns : (s.modHart n f).openConns = s.openConns := by simp only [State.modHart, State.setHart_openConns]
@[simp] theorem State.modHart_links : (s.modHart n f).links = s.links := by simp only [State.modHart, State.setHart_links]
@[simp] theorem State.modHart_cmds : (s.modHart n f).cmds = s.cmds := by simp only [State.modHart, State.setHart_cmds]
@[simp] theorem State.modHart_nextUid : (s.modHart n f).nextUid = s.nextUid := by simp only [State.modHart, State.setHart_nextUid]
@[simp] theorem State.modHart_qs : (s.modHart n f).qs = s.qs := by simp only [State.modHart, State.setHart_qs]
@[simp] theorem State.modHart_fetchTurn : (s.modHart n f).fetchTurn = s.fetchTurn := by simp only [State.modHart, State.setHart_fetchTurn]
@[simp] theorem State.modHart_xlat : (s.modHart n f).xlat = s.xlat := by simp only [State.modHart, State.setHart_xlat]
@[simp] theorem State.modHart_bind : (s.modHart n f).bind = s.bind := by simp only [State.modHart, State.setHart_bind]
@[simp] theorem State.modHart_pennants : (s.modHart n f).pennants = s.pennants := by simp only [State.modHart, State.setHart_pennants]
@[simp] theorem State.modHart_hoist : (s.modHart n f).hoist = s.hoist := by simp only [State.modHart, State.setHart_hoist]
@[simp] theorem State.modHart_aborted : (s.modHart n f).aborted = s.aborted := by simp only [State.modHart, State.setHart_aborted]
@[simp] theorem State.modHart_servo : (s.modHart n f).servo = s.servo := by simp only [State.modHart, State.setHart_servo]
@[simp] theorem State.modHart_mgmt : (s.modHart n f).mgmt = s.mgmt := by simp only [State.modHart, State.setHart_mgmt]
@[simp] theorem State.modHart_headroom : (s.modHart n f).headroom = s.headroom := by simp only [State.modHart, State.setHart_headroom]
@[simp] theorem State.modHart_hartsOn : (s.modHart n f).hartsOn = s.hartsOn := by simp only [State.modHart, State.setHart_hartsOn]
@[simp] theorem State.modHart_ssip : (s.modHart n f).ssip = s.ssip := by simp only [State.modHart, State.setHart_ssip]
@[simp] theorem State.modHart_hcache : (s.modHart n f).hcache = s.hcache := by simp only [State.modHart, State.setHart_hcache]
@[simp] theorem State.modHart_tiles : (s.modHart n f).tiles = s.tiles := by simp only [State.modHart, State.setHart_tiles]
@[simp] theorem State.modHart_log : (s.modHart n f).log = s.log := by simp only [State.modHart, State.setHart_log]
@[simp] theorem State.modHart_store : (s.modHart n f).store = s.store := by simp only [State.modHart, State.setHart_store]
@[simp] theorem State.modHart_palur : (s.modHart n f).palur = s.palur := by simp only [State.modHart, State.setHart_palur]
@[simp] theorem State.modHart_power : (s.modHart n f).power = s.power := by simp only [State.modHart, State.setHart_power]
@[simp] theorem State.modHart_xc : (s.modHart n f).xc = s.xc := by simp only [State.modHart, State.setHart_xc]
@[simp] theorem State.modHart_refStopped : (s.modHart n f).refStopped = s.refStopped := by simp only [State.modHart, State.setHart_refStopped]
@[simp] theorem State.modHart_netHalted : (s.modHart n f).netHalted = s.netHalted := by simp only [State.modHart, State.setHart_netHalted]

end

section
variable (s : State) 

@[simp] theorem State.freeNext_pending : (s.freeNext).pending = s.pending := by simp only [State.freeNext]
@[simp] theorem State.freeNext_regs : (s.freeNext).regs = s.regs := by simp only [State.freeNext]
@[simp] theorem State.freeNext_hbm : (s.freeNext).hbm = s.hbm := by simp only [State.freeNext]
@[simp] theorem State.freeNext_raw : (s.freeNext).raw = s.raw := by simp only [State.freeNext]
@[simp] theorem State.freeNext_tmem : (s.freeNext).tmem = s.tmem := by simp only [State.freeNext]
@[simp] theorem State.freeNext_traw : (s.freeNext).traw = s.traw := by simp only [State.freeNext]
@[simp] theorem State.freeNext_ref : (s.freeNext).ref = s.ref := by simp only [State.freeNext]
@[simp] theorem State.freeNext_ptp : (s.freeNext).ptp = s.ptp := by simp only [State.freeNext]
@[simp] theorem State.freeNext_up : (s.freeNext).up = s.up := by simp only [State.freeNext]
@[simp] theorem State.freeNext_stalls : (s.freeNext).stalls = s.stalls := by simp only [State.freeNext]
@[simp] theorem State.freeNext_phase : (s.freeNext).phase = s.phase := by simp only [State.freeNext]
@[simp] theorem State.freeNext_paused : (s.freeNext).paused = s.paused := by simp only [State.freeNext]
@[simp] theorem State.freeNext_mem : (s.freeNext).mem = s.mem := by simp only [State.freeNext]
@[simp] theorem State.freeNext_conns : (s.freeNext).conns = s.conns := by simp only [State.freeNext]
@[simp] theorem State.freeNext_openConns : (s.freeNext).openConns = s.openConns := by simp only [State.freeNext]
@[simp] theorem State.freeNext_links : (s.freeNext).links = s.links := by simp only [State.freeNext]
@[simp] theorem State.freeNext_cmds : (s.freeNext).cmds = s.cmds := by simp only [State.freeNext]
@[simp] theorem State.freeNext_nextUid : (s.freeNext).nextUid = s.nextUid := by simp only [State.freeNext]
@[simp] theorem State.freeNext_qs : (s.freeNext).qs = s.qs := by simp only [State.freeNext]
@[simp] theorem State.freeNext_fetchTurn : (s.freeNext).fetchTurn = s.fetchTurn := by simp only [State.freeNext]
@[simp] theorem State.freeNext_xlat : (s.freeNext).xlat = s.xlat := by simp only [State.freeNext]
@[simp] theorem State.freeNext_bind : (s.freeNext).bind = s.bind := by simp only [State.freeNext]
@[simp] theorem State.freeNext_pennants : (s.freeNext).pennants = s.pennants := by simp only [State.freeNext]
@[simp] theorem State.freeNext_hoist : (s.freeNext).hoist = s.hoist := by simp only [State.freeNext]
@[simp] theorem State.freeNext_aborted : (s.freeNext).aborted = s.aborted := by simp only [State.freeNext]
@[simp] theorem State.freeNext_servo : (s.freeNext).servo = s.servo := by simp only [State.freeNext]
@[simp] theorem State.freeNext_mgmt : (s.freeNext).mgmt = s.mgmt := by simp only [State.freeNext]
@[simp] theorem State.freeNext_headroom : (s.freeNext).headroom = s.headroom := by simp only [State.freeNext]
@[simp] theorem State.freeNext_hartsOn : (s.freeNext).hartsOn = s.hartsOn := by simp only [State.freeNext]
@[simp] theorem State.freeNext_ssip : (s.freeNext).ssip = s.ssip := by simp only [State.freeNext]
@[simp] theorem State.freeNext_harts : (s.freeNext).harts = s.harts := by simp only [State.freeNext]
@[simp] theorem State.freeNext_hcache : (s.freeNext).hcache = s.hcache := by simp only [State.freeNext]
@[simp] theorem State.freeNext_tiles : (s.freeNext).tiles = s.tiles := by simp only [State.freeNext]
@[simp] theorem State.freeNext_log : (s.freeNext).log = s.log := by simp only [State.freeNext]
@[simp] theorem State.freeNext_store : (s.freeNext).store = s.store := by simp only [State.freeNext]
@[simp] theorem State.freeNext_palur : (s.freeNext).palur = s.palur := by simp only [State.freeNext]
@[simp] theorem State.freeNext_power : (s.freeNext).power = s.power := by simp only [State.freeNext]
@[simp] theorem State.freeNext_xc : (s.freeNext).xc = s.xc := by simp only [State.freeNext]
@[simp] theorem State.freeNext_refStopped : (s.freeNext).refStopped = s.refStopped := by simp only [State.freeNext]
@[simp] theorem State.freeNext_netHalted : (s.freeNext).netHalted = s.netHalted := by simp only [State.freeNext]

end

section
variable (s : State) (c : Nat) (x : ConnSt)

@[simp] theorem State.setConn_pending : (s.setConn c x).pending = s.pending := by simp only [State.setConn]
@[simp] theorem State.setConn_regs : (s.setConn c x).regs = s.regs := by simp only [State.setConn]
@[simp] theorem State.setConn_hbm : (s.setConn c x).hbm = s.hbm := by simp only [State.setConn]
@[simp] theorem State.setConn_raw : (s.setConn c x).raw = s.raw := by simp only [State.setConn]
@[simp] theorem State.setConn_tmem : (s.setConn c x).tmem = s.tmem := by simp only [State.setConn]
@[simp] theorem State.setConn_traw : (s.setConn c x).traw = s.traw := by simp only [State.setConn]
@[simp] theorem State.setConn_ref : (s.setConn c x).ref = s.ref := by simp only [State.setConn]
@[simp] theorem State.setConn_ptp : (s.setConn c x).ptp = s.ptp := by simp only [State.setConn]
@[simp] theorem State.setConn_up : (s.setConn c x).up = s.up := by simp only [State.setConn]
@[simp] theorem State.setConn_stalls : (s.setConn c x).stalls = s.stalls := by simp only [State.setConn]
@[simp] theorem State.setConn_phase : (s.setConn c x).phase = s.phase := by simp only [State.setConn]
@[simp] theorem State.setConn_paused : (s.setConn c x).paused = s.paused := by simp only [State.setConn]
@[simp] theorem State.setConn_free : (s.setConn c x).free = s.free := by simp only [State.setConn]
@[simp] theorem State.setConn_mem : (s.setConn c x).mem = s.mem := by simp only [State.setConn]
@[simp] theorem State.setConn_openConns : (s.setConn c x).openConns = s.openConns := by simp only [State.setConn]
@[simp] theorem State.setConn_links : (s.setConn c x).links = s.links := by simp only [State.setConn]
@[simp] theorem State.setConn_cmds : (s.setConn c x).cmds = s.cmds := by simp only [State.setConn]
@[simp] theorem State.setConn_nextUid : (s.setConn c x).nextUid = s.nextUid := by simp only [State.setConn]
@[simp] theorem State.setConn_qs : (s.setConn c x).qs = s.qs := by simp only [State.setConn]
@[simp] theorem State.setConn_fetchTurn : (s.setConn c x).fetchTurn = s.fetchTurn := by simp only [State.setConn]
@[simp] theorem State.setConn_xlat : (s.setConn c x).xlat = s.xlat := by simp only [State.setConn]
@[simp] theorem State.setConn_bind : (s.setConn c x).bind = s.bind := by simp only [State.setConn]
@[simp] theorem State.setConn_pennants : (s.setConn c x).pennants = s.pennants := by simp only [State.setConn]
@[simp] theorem State.setConn_hoist : (s.setConn c x).hoist = s.hoist := by simp only [State.setConn]
@[simp] theorem State.setConn_aborted : (s.setConn c x).aborted = s.aborted := by simp only [State.setConn]
@[simp] theorem State.setConn_servo : (s.setConn c x).servo = s.servo := by simp only [State.setConn]
@[simp] theorem State.setConn_mgmt : (s.setConn c x).mgmt = s.mgmt := by simp only [State.setConn]
@[simp] theorem State.setConn_headroom : (s.setConn c x).headroom = s.headroom := by simp only [State.setConn]
@[simp] theorem State.setConn_hartsOn : (s.setConn c x).hartsOn = s.hartsOn := by simp only [State.setConn]
@[simp] theorem State.setConn_ssip : (s.setConn c x).ssip = s.ssip := by simp only [State.setConn]
@[simp] theorem State.setConn_harts : (s.setConn c x).harts = s.harts := by simp only [State.setConn]
@[simp] theorem State.setConn_hcache : (s.setConn c x).hcache = s.hcache := by simp only [State.setConn]
@[simp] theorem State.setConn_tiles : (s.setConn c x).tiles = s.tiles := by simp only [State.setConn]
@[simp] theorem State.setConn_log : (s.setConn c x).log = s.log := by simp only [State.setConn]
@[simp] theorem State.setConn_store : (s.setConn c x).store = s.store := by simp only [State.setConn]
@[simp] theorem State.setConn_palur : (s.setConn c x).palur = s.palur := by simp only [State.setConn]
@[simp] theorem State.setConn_power : (s.setConn c x).power = s.power := by simp only [State.setConn]
@[simp] theorem State.setConn_xc : (s.setConn c x).xc = s.xc := by simp only [State.setConn]
@[simp] theorem State.setConn_refStopped : (s.setConn c x).refStopped = s.refStopped := by simp only [State.setConn]
@[simp] theorem State.setConn_netHalted : (s.setConn c x).netHalted = s.netHalted := by simp only [State.setConn]

end

section
variable (s : State) (l : Nat) (x : LinkSt)

@[simp] theorem State.setLink_pending : (s.setLink l x).pending = s.pending := by simp only [State.setLink]
@[simp] theorem State.setLink_regs : (s.setLink l x).regs = s.regs := by simp only [State.setLink]
@[simp] theorem State.setLink_hbm : (s.setLink l x).hbm = s.hbm := by simp only [State.setLink]
@[simp] theorem State.setLink_raw : (s.setLink l x).raw = s.raw := by simp only [State.setLink]
@[simp] theorem State.setLink_tmem : (s.setLink l x).tmem = s.tmem := by simp only [State.setLink]
@[simp] theorem State.setLink_traw : (s.setLink l x).traw = s.traw := by simp only [State.setLink]
@[simp] theorem State.setLink_ref : (s.setLink l x).ref = s.ref := by simp only [State.setLink]
@[simp] theorem State.setLink_ptp : (s.setLink l x).ptp = s.ptp := by simp only [State.setLink]
@[simp] theorem State.setLink_up : (s.setLink l x).up = s.up := by simp only [State.setLink]
@[simp] theorem State.setLink_stalls : (s.setLink l x).stalls = s.stalls := by simp only [State.setLink]
@[simp] theorem State.setLink_phase : (s.setLink l x).phase = s.phase := by simp only [State.setLink]
@[simp] theorem State.setLink_paused : (s.setLink l x).paused = s.paused := by simp only [State.setLink]
@[simp] theorem State.setLink_free : (s.setLink l x).free = s.free := by simp only [State.setLink]
@[simp] theorem State.setLink_mem : (s.setLink l x).mem = s.mem := by simp only [State.setLink]
@[simp] theorem State.setLink_conns : (s.setLink l x).conns = s.conns := by simp only [State.setLink]
@[simp] theorem State.setLink_openConns : (s.setLink l x).openConns = s.openConns := by simp only [State.setLink]
@[simp] theorem State.setLink_cmds : (s.setLink l x).cmds = s.cmds := by simp only [State.setLink]
@[simp] theorem State.setLink_nextUid : (s.setLink l x).nextUid = s.nextUid := by simp only [State.setLink]
@[simp] theorem State.setLink_qs : (s.setLink l x).qs = s.qs := by simp only [State.setLink]
@[simp] theorem State.setLink_fetchTurn : (s.setLink l x).fetchTurn = s.fetchTurn := by simp only [State.setLink]
@[simp] theorem State.setLink_xlat : (s.setLink l x).xlat = s.xlat := by simp only [State.setLink]
@[simp] theorem State.setLink_bind : (s.setLink l x).bind = s.bind := by simp only [State.setLink]
@[simp] theorem State.setLink_pennants : (s.setLink l x).pennants = s.pennants := by simp only [State.setLink]
@[simp] theorem State.setLink_hoist : (s.setLink l x).hoist = s.hoist := by simp only [State.setLink]
@[simp] theorem State.setLink_aborted : (s.setLink l x).aborted = s.aborted := by simp only [State.setLink]
@[simp] theorem State.setLink_servo : (s.setLink l x).servo = s.servo := by simp only [State.setLink]
@[simp] theorem State.setLink_mgmt : (s.setLink l x).mgmt = s.mgmt := by simp only [State.setLink]
@[simp] theorem State.setLink_headroom : (s.setLink l x).headroom = s.headroom := by simp only [State.setLink]
@[simp] theorem State.setLink_hartsOn : (s.setLink l x).hartsOn = s.hartsOn := by simp only [State.setLink]
@[simp] theorem State.setLink_ssip : (s.setLink l x).ssip = s.ssip := by simp only [State.setLink]
@[simp] theorem State.setLink_harts : (s.setLink l x).harts = s.harts := by simp only [State.setLink]
@[simp] theorem State.setLink_hcache : (s.setLink l x).hcache = s.hcache := by simp only [State.setLink]
@[simp] theorem State.setLink_tiles : (s.setLink l x).tiles = s.tiles := by simp only [State.setLink]
@[simp] theorem State.setLink_log : (s.setLink l x).log = s.log := by simp only [State.setLink]
@[simp] theorem State.setLink_store : (s.setLink l x).store = s.store := by simp only [State.setLink]
@[simp] theorem State.setLink_palur : (s.setLink l x).palur = s.palur := by simp only [State.setLink]
@[simp] theorem State.setLink_power : (s.setLink l x).power = s.power := by simp only [State.setLink]
@[simp] theorem State.setLink_xc : (s.setLink l x).xc = s.xc := by simp only [State.setLink]
@[simp] theorem State.setLink_refStopped : (s.setLink l x).refStopped = s.refStopped := by simp only [State.setLink]
@[simp] theorem State.setLink_netHalted : (s.setLink l x).netHalted = s.netHalted := by simp only [State.setLink]

end

section
variable (s : State) (q : Nat) (x : QSt)

@[simp] theorem State.setQ_pending : (s.setQ q x).pending = s.pending := by simp only [State.setQ]
@[simp] theorem State.setQ_regs : (s.setQ q x).regs = s.regs := by simp only [State.setQ]
@[simp] theorem State.setQ_hbm : (s.setQ q x).hbm = s.hbm := by simp only [State.setQ]
@[simp] theorem State.setQ_raw : (s.setQ q x).raw = s.raw := by simp only [State.setQ]
@[simp] theorem State.setQ_tmem : (s.setQ q x).tmem = s.tmem := by simp only [State.setQ]
@[simp] theorem State.setQ_traw : (s.setQ q x).traw = s.traw := by simp only [State.setQ]
@[simp] theorem State.setQ_ref : (s.setQ q x).ref = s.ref := by simp only [State.setQ]
@[simp] theorem State.setQ_ptp : (s.setQ q x).ptp = s.ptp := by simp only [State.setQ]
@[simp] theorem State.setQ_up : (s.setQ q x).up = s.up := by simp only [State.setQ]
@[simp] theorem State.setQ_stalls : (s.setQ q x).stalls = s.stalls := by simp only [State.setQ]
@[simp] theorem State.setQ_phase : (s.setQ q x).phase = s.phase := by simp only [State.setQ]
@[simp] theorem State.setQ_paused : (s.setQ q x).paused = s.paused := by simp only [State.setQ]
@[simp] theorem State.setQ_free : (s.setQ q x).free = s.free := by simp only [State.setQ]
@[simp] theorem State.setQ_mem : (s.setQ q x).mem = s.mem := by simp only [State.setQ]
@[simp] theorem State.setQ_conns : (s.setQ q x).conns = s.conns := by simp only [State.setQ]
@[simp] theorem State.setQ_openConns : (s.setQ q x).openConns = s.openConns := by simp only [State.setQ]
@[simp] theorem State.setQ_links : (s.setQ q x).links = s.links := by simp only [State.setQ]
@[simp] theorem State.setQ_cmds : (s.setQ q x).cmds = s.cmds := by simp only [State.setQ]
@[simp] theorem State.setQ_nextUid : (s.setQ q x).nextUid = s.nextUid := by simp only [State.setQ]
@[simp] theorem State.setQ_fetchTurn : (s.setQ q x).fetchTurn = s.fetchTurn := by simp only [State.setQ]
@[simp] theorem State.setQ_xlat : (s.setQ q x).xlat = s.xlat := by simp only [State.setQ]
@[simp] theorem State.setQ_bind : (s.setQ q x).bind = s.bind := by simp only [State.setQ]
@[simp] theorem State.setQ_pennants : (s.setQ q x).pennants = s.pennants := by simp only [State.setQ]
@[simp] theorem State.setQ_hoist : (s.setQ q x).hoist = s.hoist := by simp only [State.setQ]
@[simp] theorem State.setQ_aborted : (s.setQ q x).aborted = s.aborted := by simp only [State.setQ]
@[simp] theorem State.setQ_servo : (s.setQ q x).servo = s.servo := by simp only [State.setQ]
@[simp] theorem State.setQ_mgmt : (s.setQ q x).mgmt = s.mgmt := by simp only [State.setQ]
@[simp] theorem State.setQ_headroom : (s.setQ q x).headroom = s.headroom := by simp only [State.setQ]
@[simp] theorem State.setQ_hartsOn : (s.setQ q x).hartsOn = s.hartsOn := by simp only [State.setQ]
@[simp] theorem State.setQ_ssip : (s.setQ q x).ssip = s.ssip := by simp only [State.setQ]
@[simp] theorem State.setQ_harts : (s.setQ q x).harts = s.harts := by simp only [State.setQ]
@[simp] theorem State.setQ_hcache : (s.setQ q x).hcache = s.hcache := by simp only [State.setQ]
@[simp] theorem State.setQ_tiles : (s.setQ q x).tiles = s.tiles := by simp only [State.setQ]
@[simp] theorem State.setQ_log : (s.setQ q x).log = s.log := by simp only [State.setQ]
@[simp] theorem State.setQ_store : (s.setQ q x).store = s.store := by simp only [State.setQ]
@[simp] theorem State.setQ_palur : (s.setQ q x).palur = s.palur := by simp only [State.setQ]
@[simp] theorem State.setQ_power : (s.setQ q x).power = s.power := by simp only [State.setQ]
@[simp] theorem State.setQ_xc : (s.setQ q x).xc = s.xc := by simp only [State.setQ]
@[simp] theorem State.setQ_refStopped : (s.setQ q x).refStopped = s.refStopped := by simp only [State.setQ]
@[simp] theorem State.setQ_netHalted : (s.setQ q x).netHalted = s.netHalted := by simp only [State.setQ]

end

section
variable (s : State) (f : MemSys → MemSys)

@[simp] theorem State.modMem_pending : (s.modMem f).pending = s.pending := by simp only [State.modMem]
@[simp] theorem State.modMem_regs : (s.modMem f).regs = s.regs := by simp only [State.modMem]
@[simp] theorem State.modMem_hbm : (s.modMem f).hbm = s.hbm := by simp only [State.modMem]
@[simp] theorem State.modMem_raw : (s.modMem f).raw = s.raw := by simp only [State.modMem]
@[simp] theorem State.modMem_tmem : (s.modMem f).tmem = s.tmem := by simp only [State.modMem]
@[simp] theorem State.modMem_traw : (s.modMem f).traw = s.traw := by simp only [State.modMem]
@[simp] theorem State.modMem_ref : (s.modMem f).ref = s.ref := by simp only [State.modMem]
@[simp] theorem State.modMem_ptp : (s.modMem f).ptp = s.ptp := by simp only [State.modMem]
@[simp] theorem State.modMem_up : (s.modMem f).up = s.up := by simp only [State.modMem]
@[simp] theorem State.modMem_stalls : (s.modMem f).stalls = s.stalls := by simp only [State.modMem]
@[simp] theorem State.modMem_phase : (s.modMem f).phase = s.phase := by simp only [State.modMem]
@[simp] theorem State.modMem_paused : (s.modMem f).paused = s.paused := by simp only [State.modMem]
@[simp] theorem State.modMem_free : (s.modMem f).free = s.free := by simp only [State.modMem]
@[simp] theorem State.modMem_conns : (s.modMem f).conns = s.conns := by simp only [State.modMem]
@[simp] theorem State.modMem_openConns : (s.modMem f).openConns = s.openConns := by simp only [State.modMem]
@[simp] theorem State.modMem_links : (s.modMem f).links = s.links := by simp only [State.modMem]
@[simp] theorem State.modMem_cmds : (s.modMem f).cmds = s.cmds := by simp only [State.modMem]
@[simp] theorem State.modMem_nextUid : (s.modMem f).nextUid = s.nextUid := by simp only [State.modMem]
@[simp] theorem State.modMem_qs : (s.modMem f).qs = s.qs := by simp only [State.modMem]
@[simp] theorem State.modMem_fetchTurn : (s.modMem f).fetchTurn = s.fetchTurn := by simp only [State.modMem]
@[simp] theorem State.modMem_xlat : (s.modMem f).xlat = s.xlat := by simp only [State.modMem]
@[simp] theorem State.modMem_bind : (s.modMem f).bind = s.bind := by simp only [State.modMem]
@[simp] theorem State.modMem_pennants : (s.modMem f).pennants = s.pennants := by simp only [State.modMem]
@[simp] theorem State.modMem_hoist : (s.modMem f).hoist = s.hoist := by simp only [State.modMem]
@[simp] theorem State.modMem_aborted : (s.modMem f).aborted = s.aborted := by simp only [State.modMem]
@[simp] theorem State.modMem_servo : (s.modMem f).servo = s.servo := by simp only [State.modMem]
@[simp] theorem State.modMem_mgmt : (s.modMem f).mgmt = s.mgmt := by simp only [State.modMem]
@[simp] theorem State.modMem_headroom : (s.modMem f).headroom = s.headroom := by simp only [State.modMem]
@[simp] theorem State.modMem_hartsOn : (s.modMem f).hartsOn = s.hartsOn := by simp only [State.modMem]
@[simp] theorem State.modMem_ssip : (s.modMem f).ssip = s.ssip := by simp only [State.modMem]
@[simp] theorem State.modMem_harts : (s.modMem f).harts = s.harts := by simp only [State.modMem]
@[simp] theorem State.modMem_hcache : (s.modMem f).hcache = s.hcache := by simp only [State.modMem]
@[simp] theorem State.modMem_tiles : (s.modMem f).tiles = s.tiles := by simp only [State.modMem]
@[simp] theorem State.modMem_log : (s.modMem f).log = s.log := by simp only [State.modMem]
@[simp] theorem State.modMem_store : (s.modMem f).store = s.store := by simp only [State.modMem]
@[simp] theorem State.modMem_palur : (s.modMem f).palur = s.palur := by simp only [State.modMem]
@[simp] theorem State.modMem_power : (s.modMem f).power = s.power := by simp only [State.modMem]
@[simp] theorem State.modMem_xc : (s.modMem f).xc = s.xc := by simp only [State.modMem]
@[simp] theorem State.modMem_refStopped : (s.modMem f).refStopped = s.refStopped := by simp only [State.modMem]
@[simp] theorem State.modMem_netHalted : (s.modMem f).netHalted = s.netHalted := by simp only [State.modMem]

end

section
variable (s : State) (f : BindSt → BindSt)

@[simp] theorem State.modBind_pending : (s.modBind f).pending = s.pending := by simp only [State.modBind]
@[simp] theorem State.modBind_regs : (s.modBind f).regs = s.regs := by simp only [State.modBind]
@[simp] theorem State.modBind_hbm : (s.modBind f).hbm = s.hbm := by simp only [State.modBind]
@[simp] theorem State.modBind_raw : (s.modBind f).raw = s.raw := by simp only [State.modBind]
@[simp] theorem State.modBind_tmem : (s.modBind f).tmem = s.tmem := by simp only [State.modBind]
@[simp] theorem State.modBind_traw : (s.modBind f).traw = s.traw := by simp only [State.modBind]
@[simp] theorem State.modBind_ref : (s.modBind f).ref = s.ref := by simp only [State.modBind]
@[simp] theorem State.modBind_ptp : (s.modBind f).ptp = s.ptp := by simp only [State.modBind]
@[simp] theorem State.modBind_up : (s.modBind f).up = s.up := by simp only [State.modBind]
@[simp] theorem State.modBind_stalls : (s.modBind f).stalls = s.stalls := by simp only [State.modBind]
@[simp] theorem State.modBind_phase : (s.modBind f).phase = s.phase := by simp only [State.modBind]
@[simp] theorem State.modBind_paused : (s.modBind f).paused = s.paused := by simp only [State.modBind]
@[simp] theorem State.modBind_free : (s.modBind f).free = s.free := by simp only [State.modBind]
@[simp] theorem State.modBind_mem : (s.modBind f).mem = s.mem := by simp only [State.modBind]
@[simp] theorem State.modBind_conns : (s.modBind f).conns = s.conns := by simp only [State.modBind]
@[simp] theorem State.modBind_openConns : (s.modBind f).openConns = s.openConns := by simp only [State.modBind]
@[simp] theorem State.modBind_links : (s.modBind f).links = s.links := by simp only [State.modBind]
@[simp] theorem State.modBind_cmds : (s.modBind f).cmds = s.cmds := by simp only [State.modBind]
@[simp] theorem State.modBind_nextUid : (s.modBind f).nextUid = s.nextUid := by simp only [State.modBind]
@[simp] theorem State.modBind_qs : (s.modBind f).qs = s.qs := by simp only [State.modBind]
@[simp] theorem State.modBind_fetchTurn : (s.modBind f).fetchTurn = s.fetchTurn := by simp only [State.modBind]
@[simp] theorem State.modBind_xlat : (s.modBind f).xlat = s.xlat := by simp only [State.modBind]
@[simp] theorem State.modBind_pennants : (s.modBind f).pennants = s.pennants := by simp only [State.modBind]
@[simp] theorem State.modBind_hoist : (s.modBind f).hoist = s.hoist := by simp only [State.modBind]
@[simp] theorem State.modBind_aborted : (s.modBind f).aborted = s.aborted := by simp only [State.modBind]
@[simp] theorem State.modBind_servo : (s.modBind f).servo = s.servo := by simp only [State.modBind]
@[simp] theorem State.modBind_mgmt : (s.modBind f).mgmt = s.mgmt := by simp only [State.modBind]
@[simp] theorem State.modBind_headroom : (s.modBind f).headroom = s.headroom := by simp only [State.modBind]
@[simp] theorem State.modBind_hartsOn : (s.modBind f).hartsOn = s.hartsOn := by simp only [State.modBind]
@[simp] theorem State.modBind_ssip : (s.modBind f).ssip = s.ssip := by simp only [State.modBind]
@[simp] theorem State.modBind_harts : (s.modBind f).harts = s.harts := by simp only [State.modBind]
@[simp] theorem State.modBind_hcache : (s.modBind f).hcache = s.hcache := by simp only [State.modBind]
@[simp] theorem State.modBind_tiles : (s.modBind f).tiles = s.tiles := by simp only [State.modBind]
@[simp] theorem State.modBind_log : (s.modBind f).log = s.log := by simp only [State.modBind]
@[simp] theorem State.modBind_store : (s.modBind f).store = s.store := by simp only [State.modBind]
@[simp] theorem State.modBind_palur : (s.modBind f).palur = s.palur := by simp only [State.modBind]
@[simp] theorem State.modBind_power : (s.modBind f).power = s.power := by simp only [State.modBind]
@[simp] theorem State.modBind_xc : (s.modBind f).xc = s.xc := by simp only [State.modBind]
@[simp] theorem State.modBind_refStopped : (s.modBind f).refStopped = s.refStopped := by simp only [State.modBind]
@[simp] theorem State.modBind_netHalted : (s.modBind f).netHalted = s.netHalted := by simp only [State.modBind]

end

section
variable (s : State) (f : Log → Log)

@[simp] theorem State.modLog_pending : (s.modLog f).pending = s.pending := by simp only [State.modLog]
@[simp] theorem State.modLog_regs : (s.modLog f).regs = s.regs := by simp only [State.modLog]
@[simp] theorem State.modLog_hbm : (s.modLog f).hbm = s.hbm := by simp only [State.modLog]
@[simp] theorem State.modLog_raw : (s.modLog f).raw = s.raw := by simp only [State.modLog]
@[simp] theorem State.modLog_tmem : (s.modLog f).tmem = s.tmem := by simp only [State.modLog]
@[simp] theorem State.modLog_traw : (s.modLog f).traw = s.traw := by simp only [State.modLog]
@[simp] theorem State.modLog_ref : (s.modLog f).ref = s.ref := by simp only [State.modLog]
@[simp] theorem State.modLog_ptp : (s.modLog f).ptp = s.ptp := by simp only [State.modLog]
@[simp] theorem State.modLog_up : (s.modLog f).up = s.up := by simp only [State.modLog]
@[simp] theorem State.modLog_stalls : (s.modLog f).stalls = s.stalls := by simp only [State.modLog]
@[simp] theorem State.modLog_phase : (s.modLog f).phase = s.phase := by simp only [State.modLog]
@[simp] theorem State.modLog_paused : (s.modLog f).paused = s.paused := by simp only [State.modLog]
@[simp] theorem State.modLog_free : (s.modLog f).free = s.free := by simp only [State.modLog]
@[simp] theorem State.modLog_mem : (s.modLog f).mem = s.mem := by simp only [State.modLog]
@[simp] theorem State.modLog_conns : (s.modLog f).conns = s.conns := by simp only [State.modLog]
@[simp] theorem State.modLog_openConns : (s.modLog f).openConns = s.openConns := by simp only [State.modLog]
@[simp] theorem State.modLog_links : (s.modLog f).links = s.links := by simp only [State.modLog]
@[simp] theorem State.modLog_cmds : (s.modLog f).cmds = s.cmds := by simp only [State.modLog]
@[simp] theorem State.modLog_nextUid : (s.modLog f).nextUid = s.nextUid := by simp only [State.modLog]
@[simp] theorem State.modLog_qs : (s.modLog f).qs = s.qs := by simp only [State.modLog]
@[simp] theorem State.modLog_fetchTurn : (s.modLog f).fetchTurn = s.fetchTurn := by simp only [State.modLog]
@[simp] theorem State.modLog_xlat : (s.modLog f).xlat = s.xlat := by simp only [State.modLog]
@[simp] theorem State.modLog_bind : (s.modLog f).bind = s.bind := by simp only [State.modLog]
@[simp] theorem State.modLog_pennants : (s.modLog f).pennants = s.pennants := by simp only [State.modLog]
@[simp] theorem State.modLog_hoist : (s.modLog f).hoist = s.hoist := by simp only [State.modLog]
@[simp] theorem State.modLog_aborted : (s.modLog f).aborted = s.aborted := by simp only [State.modLog]
@[simp] theorem State.modLog_servo : (s.modLog f).servo = s.servo := by simp only [State.modLog]
@[simp] theorem State.modLog_mgmt : (s.modLog f).mgmt = s.mgmt := by simp only [State.modLog]
@[simp] theorem State.modLog_headroom : (s.modLog f).headroom = s.headroom := by simp only [State.modLog]
@[simp] theorem State.modLog_hartsOn : (s.modLog f).hartsOn = s.hartsOn := by simp only [State.modLog]
@[simp] theorem State.modLog_ssip : (s.modLog f).ssip = s.ssip := by simp only [State.modLog]
@[simp] theorem State.modLog_harts : (s.modLog f).harts = s.harts := by simp only [State.modLog]
@[simp] theorem State.modLog_hcache : (s.modLog f).hcache = s.hcache := by simp only [State.modLog]
@[simp] theorem State.modLog_tiles : (s.modLog f).tiles = s.tiles := by simp only [State.modLog]
@[simp] theorem State.modLog_store : (s.modLog f).store = s.store := by simp only [State.modLog]
@[simp] theorem State.modLog_palur : (s.modLog f).palur = s.palur := by simp only [State.modLog]
@[simp] theorem State.modLog_power : (s.modLog f).power = s.power := by simp only [State.modLog]
@[simp] theorem State.modLog_xc : (s.modLog f).xc = s.xc := by simp only [State.modLog]
@[simp] theorem State.modLog_refStopped : (s.modLog f).refStopped = s.refStopped := by simp only [State.modLog]
@[simp] theorem State.modLog_netHalted : (s.modLog f).netHalted = s.netHalted := by simp only [State.modLog]

end

section
variable (s : State) (f : Store → Store)

@[simp] theorem State.modStore_pending : (s.modStore f).pending = s.pending := by simp only [State.modStore]
@[simp] theorem State.modStore_regs : (s.modStore f).regs = s.regs := by simp only [State.modStore]
@[simp] theorem State.modStore_hbm : (s.modStore f).hbm = s.hbm := by simp only [State.modStore]
@[simp] theorem State.modStore_raw : (s.modStore f).raw = s.raw := by simp only [State.modStore]
@[simp] theorem State.modStore_tmem : (s.modStore f).tmem = s.tmem := by simp only [State.modStore]
@[simp] theorem State.modStore_traw : (s.modStore f).traw = s.traw := by simp only [State.modStore]
@[simp] theorem State.modStore_ref : (s.modStore f).ref = s.ref := by simp only [State.modStore]
@[simp] theorem State.modStore_ptp : (s.modStore f).ptp = s.ptp := by simp only [State.modStore]
@[simp] theorem State.modStore_up : (s.modStore f).up = s.up := by simp only [State.modStore]
@[simp] theorem State.modStore_stalls : (s.modStore f).stalls = s.stalls := by simp only [State.modStore]
@[simp] theorem State.modStore_phase : (s.modStore f).phase = s.phase := by simp only [State.modStore]
@[simp] theorem State.modStore_paused : (s.modStore f).paused = s.paused := by simp only [State.modStore]
@[simp] theorem State.modStore_free : (s.modStore f).free = s.free := by simp only [State.modStore]
@[simp] theorem State.modStore_mem : (s.modStore f).mem = s.mem := by simp only [State.modStore]
@[simp] theorem State.modStore_conns : (s.modStore f).conns = s.conns := by simp only [State.modStore]
@[simp] theorem State.modStore_openConns : (s.modStore f).openConns = s.openConns := by simp only [State.modStore]
@[simp] theorem State.modStore_links : (s.modStore f).links = s.links := by simp only [State.modStore]
@[simp] theorem State.modStore_cmds : (s.modStore f).cmds = s.cmds := by simp only [State.modStore]
@[simp] theorem State.modStore_nextUid : (s.modStore f).nextUid = s.nextUid := by simp only [State.modStore]
@[simp] theorem State.modStore_qs : (s.modStore f).qs = s.qs := by simp only [State.modStore]
@[simp] theorem State.modStore_fetchTurn : (s.modStore f).fetchTurn = s.fetchTurn := by simp only [State.modStore]
@[simp] theorem State.modStore_xlat : (s.modStore f).xlat = s.xlat := by simp only [State.modStore]
@[simp] theorem State.modStore_bind : (s.modStore f).bind = s.bind := by simp only [State.modStore]
@[simp] theorem State.modStore_pennants : (s.modStore f).pennants = s.pennants := by simp only [State.modStore]
@[simp] theorem State.modStore_hoist : (s.modStore f).hoist = s.hoist := by simp only [State.modStore]
@[simp] theorem State.modStore_aborted : (s.modStore f).aborted = s.aborted := by simp only [State.modStore]
@[simp] theorem State.modStore_servo : (s.modStore f).servo = s.servo := by simp only [State.modStore]
@[simp] theorem State.modStore_mgmt : (s.modStore f).mgmt = s.mgmt := by simp only [State.modStore]
@[simp] theorem State.modStore_headroom : (s.modStore f).headroom = s.headroom := by simp only [State.modStore]
@[simp] theorem State.modStore_hartsOn : (s.modStore f).hartsOn = s.hartsOn := by simp only [State.modStore]
@[simp] theorem State.modStore_ssip : (s.modStore f).ssip = s.ssip := by simp only [State.modStore]
@[simp] theorem State.modStore_harts : (s.modStore f).harts = s.harts := by simp only [State.modStore]
@[simp] theorem State.modStore_hcache : (s.modStore f).hcache = s.hcache := by simp only [State.modStore]
@[simp] theorem State.modStore_tiles : (s.modStore f).tiles = s.tiles := by simp only [State.modStore]
@[simp] theorem State.modStore_log : (s.modStore f).log = s.log := by simp only [State.modStore]
@[simp] theorem State.modStore_palur : (s.modStore f).palur = s.palur := by simp only [State.modStore]
@[simp] theorem State.modStore_power : (s.modStore f).power = s.power := by simp only [State.modStore]
@[simp] theorem State.modStore_xc : (s.modStore f).xc = s.xc := by simp only [State.modStore]
@[simp] theorem State.modStore_refStopped : (s.modStore f).refStopped = s.refStopped := by simp only [State.modStore]
@[simp] theorem State.modStore_netHalted : (s.modStore f).netHalted = s.netHalted := by simp only [State.modStore]

end

section
variable (s : State) (f : PalurSt → PalurSt)

@[simp] theorem State.modPalur_pending : (s.modPalur f).pending = s.pending := by simp only [State.modPalur]
@[simp] theorem State.modPalur_regs : (s.modPalur f).regs = s.regs := by simp only [State.modPalur]
@[simp] theorem State.modPalur_hbm : (s.modPalur f).hbm = s.hbm := by simp only [State.modPalur]
@[simp] theorem State.modPalur_raw : (s.modPalur f).raw = s.raw := by simp only [State.modPalur]
@[simp] theorem State.modPalur_tmem : (s.modPalur f).tmem = s.tmem := by simp only [State.modPalur]
@[simp] theorem State.modPalur_traw : (s.modPalur f).traw = s.traw := by simp only [State.modPalur]
@[simp] theorem State.modPalur_ref : (s.modPalur f).ref = s.ref := by simp only [State.modPalur]
@[simp] theorem State.modPalur_ptp : (s.modPalur f).ptp = s.ptp := by simp only [State.modPalur]
@[simp] theorem State.modPalur_up : (s.modPalur f).up = s.up := by simp only [State.modPalur]
@[simp] theorem State.modPalur_stalls : (s.modPalur f).stalls = s.stalls := by simp only [State.modPalur]
@[simp] theorem State.modPalur_phase : (s.modPalur f).phase = s.phase := by simp only [State.modPalur]
@[simp] theorem State.modPalur_paused : (s.modPalur f).paused = s.paused := by simp only [State.modPalur]
@[simp] theorem State.modPalur_free : (s.modPalur f).free = s.free := by simp only [State.modPalur]
@[simp] theorem State.modPalur_mem : (s.modPalur f).mem = s.mem := by simp only [State.modPalur]
@[simp] theorem State.modPalur_conns : (s.modPalur f).conns = s.conns := by simp only [State.modPalur]
@[simp] theorem State.modPalur_openConns : (s.modPalur f).openConns = s.openConns := by simp only [State.modPalur]
@[simp] theorem State.modPalur_links : (s.modPalur f).links = s.links := by simp only [State.modPalur]
@[simp] theorem State.modPalur_cmds : (s.modPalur f).cmds = s.cmds := by simp only [State.modPalur]
@[simp] theorem State.modPalur_nextUid : (s.modPalur f).nextUid = s.nextUid := by simp only [State.modPalur]
@[simp] theorem State.modPalur_qs : (s.modPalur f).qs = s.qs := by simp only [State.modPalur]
@[simp] theorem State.modPalur_fetchTurn : (s.modPalur f).fetchTurn = s.fetchTurn := by simp only [State.modPalur]
@[simp] theorem State.modPalur_xlat : (s.modPalur f).xlat = s.xlat := by simp only [State.modPalur]
@[simp] theorem State.modPalur_bind : (s.modPalur f).bind = s.bind := by simp only [State.modPalur]
@[simp] theorem State.modPalur_pennants : (s.modPalur f).pennants = s.pennants := by simp only [State.modPalur]
@[simp] theorem State.modPalur_hoist : (s.modPalur f).hoist = s.hoist := by simp only [State.modPalur]
@[simp] theorem State.modPalur_aborted : (s.modPalur f).aborted = s.aborted := by simp only [State.modPalur]
@[simp] theorem State.modPalur_servo : (s.modPalur f).servo = s.servo := by simp only [State.modPalur]
@[simp] theorem State.modPalur_mgmt : (s.modPalur f).mgmt = s.mgmt := by simp only [State.modPalur]
@[simp] theorem State.modPalur_headroom : (s.modPalur f).headroom = s.headroom := by simp only [State.modPalur]
@[simp] theorem State.modPalur_hartsOn : (s.modPalur f).hartsOn = s.hartsOn := by simp only [State.modPalur]
@[simp] theorem State.modPalur_ssip : (s.modPalur f).ssip = s.ssip := by simp only [State.modPalur]
@[simp] theorem State.modPalur_harts : (s.modPalur f).harts = s.harts := by simp only [State.modPalur]
@[simp] theorem State.modPalur_hcache : (s.modPalur f).hcache = s.hcache := by simp only [State.modPalur]
@[simp] theorem State.modPalur_tiles : (s.modPalur f).tiles = s.tiles := by simp only [State.modPalur]
@[simp] theorem State.modPalur_log : (s.modPalur f).log = s.log := by simp only [State.modPalur]
@[simp] theorem State.modPalur_store : (s.modPalur f).store = s.store := by simp only [State.modPalur]
@[simp] theorem State.modPalur_power : (s.modPalur f).power = s.power := by simp only [State.modPalur]
@[simp] theorem State.modPalur_xc : (s.modPalur f).xc = s.xc := by simp only [State.modPalur]
@[simp] theorem State.modPalur_refStopped : (s.modPalur f).refStopped = s.refStopped := by simp only [State.modPalur]
@[simp] theorem State.modPalur_netHalted : (s.modPalur f).netHalted = s.netHalted := by simp only [State.modPalur]

end

section
variable (s : State) (f : PowerSt → PowerSt)

@[simp] theorem State.modPower_pending : (s.modPower f).pending = s.pending := by simp only [State.modPower]
@[simp] theorem State.modPower_regs : (s.modPower f).regs = s.regs := by simp only [State.modPower]
@[simp] theorem State.modPower_hbm : (s.modPower f).hbm = s.hbm := by simp only [State.modPower]
@[simp] theorem State.modPower_raw : (s.modPower f).raw = s.raw := by simp only [State.modPower]
@[simp] theorem State.modPower_tmem : (s.modPower f).tmem = s.tmem := by simp only [State.modPower]
@[simp] theorem State.modPower_traw : (s.modPower f).traw = s.traw := by simp only [State.modPower]
@[simp] theorem State.modPower_ref : (s.modPower f).ref = s.ref := by simp only [State.modPower]
@[simp] theorem State.modPower_ptp : (s.modPower f).ptp = s.ptp := by simp only [State.modPower]
@[simp] theorem State.modPower_up : (s.modPower f).up = s.up := by simp only [State.modPower]
@[simp] theorem State.modPower_stalls : (s.modPower f).stalls = s.stalls := by simp only [State.modPower]
@[simp] theorem State.modPower_phase : (s.modPower f).phase = s.phase := by simp only [State.modPower]
@[simp] theorem State.modPower_paused : (s.modPower f).paused = s.paused := by simp only [State.modPower]
@[simp] theorem State.modPower_free : (s.modPower f).free = s.free := by simp only [State.modPower]
@[simp] theorem State.modPower_mem : (s.modPower f).mem = s.mem := by simp only [State.modPower]
@[simp] theorem State.modPower_conns : (s.modPower f).conns = s.conns := by simp only [State.modPower]
@[simp] theorem State.modPower_openConns : (s.modPower f).openConns = s.openConns := by simp only [State.modPower]
@[simp] theorem State.modPower_links : (s.modPower f).links = s.links := by simp only [State.modPower]
@[simp] theorem State.modPower_cmds : (s.modPower f).cmds = s.cmds := by simp only [State.modPower]
@[simp] theorem State.modPower_nextUid : (s.modPower f).nextUid = s.nextUid := by simp only [State.modPower]
@[simp] theorem State.modPower_qs : (s.modPower f).qs = s.qs := by simp only [State.modPower]
@[simp] theorem State.modPower_fetchTurn : (s.modPower f).fetchTurn = s.fetchTurn := by simp only [State.modPower]
@[simp] theorem State.modPower_xlat : (s.modPower f).xlat = s.xlat := by simp only [State.modPower]
@[simp] theorem State.modPower_bind : (s.modPower f).bind = s.bind := by simp only [State.modPower]
@[simp] theorem State.modPower_pennants : (s.modPower f).pennants = s.pennants := by simp only [State.modPower]
@[simp] theorem State.modPower_hoist : (s.modPower f).hoist = s.hoist := by simp only [State.modPower]
@[simp] theorem State.modPower_aborted : (s.modPower f).aborted = s.aborted := by simp only [State.modPower]
@[simp] theorem State.modPower_servo : (s.modPower f).servo = s.servo := by simp only [State.modPower]
@[simp] theorem State.modPower_mgmt : (s.modPower f).mgmt = s.mgmt := by simp only [State.modPower]
@[simp] theorem State.modPower_headroom : (s.modPower f).headroom = s.headroom := by simp only [State.modPower]
@[simp] theorem State.modPower_hartsOn : (s.modPower f).hartsOn = s.hartsOn := by simp only [State.modPower]
@[simp] theorem State.modPower_ssip : (s.modPower f).ssip = s.ssip := by simp only [State.modPower]
@[simp] theorem State.modPower_harts : (s.modPower f).harts = s.harts := by simp only [State.modPower]
@[simp] theorem State.modPower_hcache : (s.modPower f).hcache = s.hcache := by simp only [State.modPower]
@[simp] theorem State.modPower_tiles : (s.modPower f).tiles = s.tiles := by simp only [State.modPower]
@[simp] theorem State.modPower_log : (s.modPower f).log = s.log := by simp only [State.modPower]
@[simp] theorem State.modPower_store : (s.modPower f).store = s.store := by simp only [State.modPower]
@[simp] theorem State.modPower_palur : (s.modPower f).palur = s.palur := by simp only [State.modPower]
@[simp] theorem State.modPower_xc : (s.modPower f).xc = s.xc := by simp only [State.modPower]
@[simp] theorem State.modPower_refStopped : (s.modPower f).refStopped = s.refStopped := by simp only [State.modPower]
@[simp] theorem State.modPower_netHalted : (s.modPower f).netHalted = s.netHalted := by simp only [State.modPower]

end

section
variable (s : State) (f : Ptp → Ptp)

@[simp] theorem State.modServo_pending : (s.modServo f).pending = s.pending := by simp only [State.modServo]
@[simp] theorem State.modServo_regs : (s.modServo f).regs = s.regs := by simp only [State.modServo]
@[simp] theorem State.modServo_hbm : (s.modServo f).hbm = s.hbm := by simp only [State.modServo]
@[simp] theorem State.modServo_raw : (s.modServo f).raw = s.raw := by simp only [State.modServo]
@[simp] theorem State.modServo_tmem : (s.modServo f).tmem = s.tmem := by simp only [State.modServo]
@[simp] theorem State.modServo_traw : (s.modServo f).traw = s.traw := by simp only [State.modServo]
@[simp] theorem State.modServo_ref : (s.modServo f).ref = s.ref := by simp only [State.modServo]
@[simp] theorem State.modServo_ptp : (s.modServo f).ptp = s.ptp := by simp only [State.modServo]
@[simp] theorem State.modServo_up : (s.modServo f).up = s.up := by simp only [State.modServo]
@[simp] theorem State.modServo_stalls : (s.modServo f).stalls = s.stalls := by simp only [State.modServo]
@[simp] theorem State.modServo_phase : (s.modServo f).phase = s.phase := by simp only [State.modServo]
@[simp] theorem State.modServo_paused : (s.modServo f).paused = s.paused := by simp only [State.modServo]
@[simp] theorem State.modServo_free : (s.modServo f).free = s.free := by simp only [State.modServo]
@[simp] theorem State.modServo_mem : (s.modServo f).mem = s.mem := by simp only [State.modServo]
@[simp] theorem State.modServo_conns : (s.modServo f).conns = s.conns := by simp only [State.modServo]
@[simp] theorem State.modServo_openConns : (s.modServo f).openConns = s.openConns := by simp only [State.modServo]
@[simp] theorem State.modServo_links : (s.modServo f).links = s.links := by simp only [State.modServo]
@[simp] theorem State.modServo_cmds : (s.modServo f).cmds = s.cmds := by simp only [State.modServo]
@[simp] theorem State.modServo_nextUid : (s.modServo f).nextUid = s.nextUid := by simp only [State.modServo]
@[simp] theorem State.modServo_qs : (s.modServo f).qs = s.qs := by simp only [State.modServo]
@[simp] theorem State.modServo_fetchTurn : (s.modServo f).fetchTurn = s.fetchTurn := by simp only [State.modServo]
@[simp] theorem State.modServo_xlat : (s.modServo f).xlat = s.xlat := by simp only [State.modServo]
@[simp] theorem State.modServo_bind : (s.modServo f).bind = s.bind := by simp only [State.modServo]
@[simp] theorem State.modServo_pennants : (s.modServo f).pennants = s.pennants := by simp only [State.modServo]
@[simp] theorem State.modServo_hoist : (s.modServo f).hoist = s.hoist := by simp only [State.modServo]
@[simp] theorem State.modServo_aborted : (s.modServo f).aborted = s.aborted := by simp only [State.modServo]
@[simp] theorem State.modServo_mgmt : (s.modServo f).mgmt = s.mgmt := by simp only [State.modServo]
@[simp] theorem State.modServo_headroom : (s.modServo f).headroom = s.headroom := by simp only [State.modServo]
@[simp] theorem State.modServo_hartsOn : (s.modServo f).hartsOn = s.hartsOn := by simp only [State.modServo]
@[simp] theorem State.modServo_ssip : (s.modServo f).ssip = s.ssip := by simp only [State.modServo]
@[simp] theorem State.modServo_harts : (s.modServo f).harts = s.harts := by simp only [State.modServo]
@[simp] theorem State.modServo_hcache : (s.modServo f).hcache = s.hcache := by simp only [State.modServo]
@[simp] theorem State.modServo_tiles : (s.modServo f).tiles = s.tiles := by simp only [State.modServo]
@[simp] theorem State.modServo_log : (s.modServo f).log = s.log := by simp only [State.modServo]
@[simp] theorem State.modServo_store : (s.modServo f).store = s.store := by simp only [State.modServo]
@[simp] theorem State.modServo_palur : (s.modServo f).palur = s.palur := by simp only [State.modServo]
@[simp] theorem State.modServo_power : (s.modServo f).power = s.power := by simp only [State.modServo]
@[simp] theorem State.modServo_xc : (s.modServo f).xc = s.xc := by simp only [State.modServo]
@[simp] theorem State.modServo_refStopped : (s.modServo f).refStopped = s.refStopped := by simp only [State.modServo]
@[simp] theorem State.modServo_netHalted : (s.modServo f).netHalted = s.netHalted := by simp only [State.modServo]

end

section
variable (s : State) (p : Page) (n code queue addr : Nat) (detail : List Nat)

@[simp] theorem raise_regs : (raise s p n code queue addr detail).regs = (setFlag s p n).regs := by unfold raise; split <;> rfl
@[simp] theorem raise_pending : (raise s p n code queue addr detail).pending = s.pending := by unfold raise; split <;> simp only [setFlag_pending]
@[simp] theorem raise_hbm : (raise s p n code queue addr detail).hbm = s.hbm := by unfold raise; split <;> simp only [setFlag_hbm]
@[simp] theorem raise_raw : (raise s p n code queue addr detail).raw = s.raw := by unfold raise; split <;> simp only [setFlag_raw]
@[simp] theorem raise_tmem : (raise s p n code queue addr detail).tmem = s.tmem := by unfold raise; split <;> simp only [setFlag_tmem]
@[simp] theorem raise_traw : (raise s p n code queue addr detail).traw = s.traw := by unfold raise; split <;> simp only [setFlag_traw]
@[simp] theorem raise_ref : (raise s p n code queue addr detail).ref = s.ref := by unfold raise; split <;> simp only [setFlag_ref]
@[simp] theorem raise_ptp : (raise s p n code queue addr detail).ptp = s.ptp := by unfold raise; split <;> simp only [setFlag_ptp]
@[simp] theorem raise_up : (raise s p n code queue addr detail).up = s.up := by unfold raise; split <;> simp only [setFlag_up]
@[simp] theorem raise_stalls : (raise s p n code queue addr detail).stalls = s.stalls := by unfold raise; split <;> simp only [setFlag_stalls]
@[simp] theorem raise_phase : (raise s p n code queue addr detail).phase = s.phase := by unfold raise; split <;> simp only [setFlag_phase]
@[simp] theorem raise_paused : (raise s p n code queue addr detail).paused = s.paused := by unfold raise; split <;> simp only [setFlag_paused]
@[simp] theorem raise_free : (raise s p n code queue addr detail).free = s.free := by unfold raise; split <;> simp only [setFlag_free]
@[simp] theorem raise_mem : (raise s p n code queue addr detail).mem = s.mem := by unfold raise; split <;> simp only [setFlag_mem]
@[simp] theorem raise_conns : (raise s p n code queue addr detail).conns = s.conns := by unfold raise; split <;> simp only [setFlag_conns]
@[simp] theorem raise_openConns : (raise s p n code queue addr detail).openConns = s.openConns := by unfold raise; split <;> simp only [setFlag_openConns]
@[simp] theorem raise_links : (raise s p n code queue addr detail).links = s.links := by unfold raise; split <;> simp only [setFlag_links]
@[simp] theorem raise_cmds : (raise s p n code queue addr detail).cmds = s.cmds := by unfold raise; split <;> simp only [setFlag_cmds]
@[simp] theorem raise_nextUid : (raise s p n code queue addr detail).nextUid = s.nextUid := by unfold raise; split <;> simp only [setFlag_nextUid]
@[simp] theorem raise_qs : (raise s p n code queue addr detail).qs = s.qs := by unfold raise; split <;> simp only [setFlag_qs]
@[simp] theorem raise_fetchTurn : (raise s p n code queue addr detail).fetchTurn = s.fetchTurn := by unfold raise; split <;> simp only [setFlag_fetchTurn]
@[simp] theorem raise_xlat : (raise s p n code queue addr detail).xlat = s.xlat := by unfold raise; split <;> simp only [setFlag_xlat]
@[simp] theorem raise_bind : (raise s p n code queue addr detail).bind = s.bind := by unfold raise; split <;> simp only [setFlag_bind]
@[simp] theorem raise_pennants : (raise s p n code queue addr detail).pennants = s.pennants := by unfold raise; split <;> simp only [setFlag_pennants]
@[simp] theorem raise_hoist : (raise s p n code queue addr detail).hoist = s.hoist := by unfold raise; split <;> simp only [setFlag_hoist]
@[simp] theorem raise_aborted : (raise s p n code queue addr detail).aborted = s.aborted := by unfold raise; split <;> simp only [setFlag_aborted]
@[simp] theorem raise_servo : (raise s p n code queue addr detail).servo = s.servo := by unfold raise; split <;> simp only [setFlag_servo]
@[simp] theorem raise_mgmt : (raise s p n code queue addr detail).mgmt = s.mgmt := by unfold raise; split <;> simp only [setFlag_mgmt]
@[simp] theorem raise_headroom : (raise s p n code queue addr detail).headroom = s.headroom := by unfold raise; split <;> simp only [setFlag_headroom]
@[simp] theorem raise_hartsOn : (raise s p n code queue addr detail).hartsOn = s.hartsOn := by unfold raise; split <;> simp only [setFlag_hartsOn]
@[simp] theorem raise_ssip : (raise s p n code queue addr detail).ssip = s.ssip := by unfold raise; split <;> simp only [setFlag_ssip]
@[simp] theorem raise_harts : (raise s p n code queue addr detail).harts = s.harts := by unfold raise; split <;> simp only [setFlag_harts]
@[simp] theorem raise_hcache : (raise s p n code queue addr detail).hcache = s.hcache := by unfold raise; split <;> simp only [setFlag_hcache]
@[simp] theorem raise_tiles : (raise s p n code queue addr detail).tiles = s.tiles := by unfold raise; split <;> simp only [setFlag_tiles]
@[simp] theorem raise_store : (raise s p n code queue addr detail).store = s.store := by unfold raise; split <;> simp only [setFlag_store]
@[simp] theorem raise_palur : (raise s p n code queue addr detail).palur = s.palur := by unfold raise; split <;> simp only [setFlag_palur]
@[simp] theorem raise_power : (raise s p n code queue addr detail).power = s.power := by unfold raise; split <;> simp only [setFlag_power]
@[simp] theorem raise_xc : (raise s p n code queue addr detail).xc = s.xc := by unfold raise; split <;> simp only [setFlag_xc]
@[simp] theorem raise_refStopped : (raise s p n code queue addr detail).refStopped = s.refStopped := by unfold raise; split <;> simp only [setFlag_refStopped]
@[simp] theorem raise_netHalted : (raise s p n code queue addr detail).netHalted = s.netHalted := by unfold raise; split <;> simp only [setFlag_netHalted]

end

end Sys2Proof.Machine
end

