-- ==== Sys2Proof/Laws/Regs.lean ====
section
/-! SUPPORT. Registers: a read after a write, which words have keys of their own, and what a set event of a flag does. -/

namespace Sys2Proof.Machine

open Sys2Proof

/-- Page bases are multiples of 4 KiB. -/
theorem pageBase_mod (p : Page) : pageBase p % 0x1000 = 0 := by
  obtain ⟨b, i⟩ := p
  cases b <;> simp only [pageBase, base0] <;> omega

/-- Distinct words of a page have distinct keys. -/
theorem regKey_ne (p : Page) {a b : Nat} (ha : a % 4 = 0) (hb : b % 4 = 0) (h : a ≠ b) : regKey p a ≠ regKey p b := by
  have := pageBase_mod p
  unfold regKey; omega

/-- Words of distinct pages have distinct keys. -/
theorem regKey_page {p q : Page} (hp : pageOk p = true) (hq : pageOk q = true) (h : p ≠ q) {a b : Nat} (ha : a < 0x1000) (hb : b < 0x1000) :
    regKey p a ≠ regKey q b := by
  obtain ⟨bp, i⟩ := p
  obtain ⟨bq, j⟩ := q
  simp only [pageOk, decide_eq_true_eq] at hp hq
  have h2 : bp ≠ bq ∨ i ≠ j := by
    by_cases e : bp = bq
    · right; intro e2; exact h (by rw [e, e2])
    · exact Or.inl e
  cases bp <;> cases bq <;> simp only [instances] at hp hq <;> simp only [regKey, pageBase, base0] <;>
    first
    | omega
    | (rcases h2 with h2 | h2
       · exact absurd rfl h2
       · omega)

/-- A read of a register word after a write. -/
theorem rd_wr (s : State) (p q : Page) (a b v : Nat) :
    (s.wr p a v).rd q b = if regKey q b = regKey p a then v % 2 ^ 32 else s.rd q b := by
  simp only [State.rd, State.wr, fget_fset]
  split <;> simp

/-- The word written reads as written. -/
@[simp] theorem rd_wr_self (s : State) (p : Page) (a v : Nat) : (s.wr p a v).rd p a = v % 2 ^ 32 := by simp [rd_wr]

/-- Another word of the page reads as before. -/
theorem rd_wr_off (s : State) (p : Page) {a b : Nat} (v : Nat) (ha : a % 4 = 0) (hb : b % 4 = 0) (h : b ≠ a) :
    (s.wr p a v).rd p b = s.rd p b := by simp [rd_wr, regKey_ne p hb ha h]

/-- A word holds 32 bits. -/
theorem rd_lt (s : State) (p : Page) (a : Nat) : s.rd p a < 2 ^ 32 := (fget regDefault s.regs (regKey p a)).isLt

/-- A word reads as before unless its key is the one written. -/
theorem fget_wr (s : State) (p : Page) (a v k : Nat) (h : k ≠ regKey p a) :
    fget regDefault (s.wr p a v).regs k = fget regDefault s.regs k := by
  simp only [State.wr]; exact fget_fset_ne _ _ _ h

/-- Two states with the same registers read alike. -/
theorem rd_congr {s t : State} (h : t.regs = s.regs) (p : Page) (a : Nat) : t.rd p a = s.rd p a := by simp only [State.rd, h]

/-- A set event changes three words. -/
theorem setFlag_kept (s : State) (p : Page) (n : Nat) : RegsKept s (setFlag s p n) (flagWords p n) := by
  intro k hk
  simp only [flagWords, List.map_cons, List.map_nil, List.mem_cons, List.not_mem_nil, or_false, not_or] at hk
  unfold setFlag State.inc
  rw [fget_wr _ _ _ _ _ hk.2.1, fget_wr _ _ _ _ _ hk.2.2, fget_wr _ _ _ _ _ hk.1]

theorem raise_kept (s : State) (p : Page) (n : Nat) (c q a : Nat) (d : List Nat) : RegsKept s (raise s p n c q a d) (flagWords p n) := by
  intro k hk
  rw [raise_regs]; exact setFlag_kept s p n k hk

/-- A register write changes registers only. -/
theorem wr_only (s : State) (p : Page) (a v : Nat) : OnlyRegs s (s.wr p a v) := by simp only [OnlyRegs, State.wr]

/-- A set event without its record changes registers only. -/
theorem setFlag_only (s : State) (p : Page) (n : Nat) : OnlyRegs s (setFlag s p n) := by
  simp only [OnlyRegs, setFlag, State.inc, State.wr]

/-- A set event changes registers and the error log only. -/
theorem raise_only (s : State) (p : Page) (n c q a : Nat) (d : List Nat) : OnlyRegsLog s (raise s p n c q a d) := by
  unfold OnlyRegsLog raise
  split
  · simp only [setFlag, State.inc, State.wr]
  · simp only [setFlag, State.inc, State.wr]

end Sys2Proof.Machine
end

