-- ==== Sys2Proof/Laws/Memory.lean ====
section
/-! SUPPORT. The canonical form of the address spaces: every operation that changes a register, a byte of stacked memory or a per-tile byte keeps it; and what a read or a write of local memory leaves. -/

namespace Sys2Proof.Machine

open Sys2Proof

/-! Registers. -/

theorem canonical_of_eq {s t : State} (h : Canonical s) (hr : t.regs = s.regs) (hh : t.hbm = s.hbm) (ht : t.tmem = s.tmem) : Canonical t := by
  unfold Canonical at *
  rw [hr, hh, ht]; exact h

/-- A register write keeps the canonical form. -/
theorem wr_canonical {s : State} (h : Canonical s) (p : Page) (off v : Nat) : Canonical (s.wr p off v) := by
  refine ⟨fwf_fset _ _ _ _ h.1, ?_, ?_⟩
  · simpa only [State.wr] using h.2.1
  · simpa only [State.wr] using h.2.2

theorem wrF_canonical {s : State} (h : Canonical s) (p : Page) (off lo len v : Nat) : Canonical (s.wrF p off lo len v) := wr_canonical h _ _ _

theorem wr64_canonical {s : State} (h : Canonical s) (p : Page) (off v : Nat) : Canonical (s.wr64 p off v) := wr_canonical (wr_canonical h _ _ _) _ _ _

theorem inc_canonical {s : State} (h : Canonical s) (p : Page) (off n : Nat) : Canonical (s.inc p off n) := wr_canonical h _ _ _

theorem setFlag_canonical {s : State} (h : Canonical s) (p : Page) (n : Nat) : Canonical (setFlag s p n) := by
  unfold setFlag
  exact inc_canonical (inc_canonical (wr_canonical h _ _ _) _ _ _) _ _ _

theorem raise_canonical {s : State} (h : Canonical s) (p : Page) (n c q a : Nat) (d : List Nat) : Canonical (raise s p n c q a d) := by
  have k := setFlag_canonical h p n
  unfold raise
  split
  · exact k
  · exact canonical_of_eq k rfl rfl rfl

/-- The end of a stall window touches no register and no byte. -/
theorem closeWindow_canonical {s : State} (h : Canonical s) (p : Page) : Canonical (closeWindow s p) := by
  unfold closeWindow
  split
  · exact h
  · simp only []
    split
    · exact canonical_of_eq h rfl rfl rfl
    · exact canonical_of_eq h rfl rfl rfl

/-- Registers dropped by offset keep the form. -/
theorem clearDisturb_canonical {s : State} (h : Canonical s) : Canonical (clearDisturb s) := by
  have k := closeWindow_canonical h pQeng
  exact ⟨fwf_filter _ _ _ k.1, k.2.1, k.2.2⟩

/-- Gated tiles lose disturbance registers only. -/
theorem clearGated_canonical {s : State} (h : Canonical s) : Canonical (clearGated s) := ⟨fwf_filter _ _ _ h.1, h.2.1, h.2.2⟩

/-! Stacked memory. -/

theorem hwr_canonical {s : State} (h : Canonical s) (a : Nat) (l : List Byte) : Canonical (s.hwr a l) := ⟨h.1, fwf_writeCells _ _ _ h.2.1, h.2.2⟩

theorem writeSkip_canonical (skip : List Nat) (l : List Byte) : ∀ (s : State) (a : Nat), Canonical s → Canonical (writeSkip s skip a l) := by
  induction l with
  | nil => intro s a h; exact h
  | cons b r ih =>
    intro s a h
    unfold writeSkip
    apply ih
    split
    · exact h
    · exact ⟨h.1, fwf_fset _ _ _ _ h.2.1, h.2.2⟩

theorem ueEvent_canonical {s : State} (h : Canonical s) (r : Requester) (a : Nat) : Canonical (ueEvent s r a) := by
  unfold ueEvent
  refine raise_canonical ?_ _ _ _ _ _ _
  split
  · exact inc_canonical h _ _ _
  · exact wr_canonical (wr64_canonical (inc_canonical h _ _ _) _ _ _) _ _ _

theorem ueEvents_canonical (r : Requester) (l : List Nat) : ∀ {s : State}, Canonical s → Canonical (ueEvents s r l) := by
  induction l with
  | nil => intro s h; exact h
  | cons b l ih => intro s h; exact ih (ueEvent_canonical h _ _)

/-- Passing through the slices changes the slices' own records only. -/
theorem sliceTouch_only (s : State) (r : Requester) (a n : Nat) (wr : Bool) : ∃ m, sliceTouch s r a n wr = { s with mem := m } := ⟨_, rfl⟩

theorem sliceTouch_canonical {s : State} (h : Canonical s) (r : Requester) (a n : Nat) (wr : Bool) : Canonical (sliceTouch s r a n wr) := h

/-- A write of local bytes keeps the form, whatever it meets. -/
theorem memWrite_canonical {s : State} (h : Canonical s) (r : Requester) (a : Nat) (l : List Byte) : Canonical (memWrite s r a l).1 := by
  unfold memWrite
  simp only []
  split
  · exact h
  split
  · exact h
  have k := writeSkip_canonical (lostBlocks s a l.length ++ (partRaw s a l.length).filter (fun b => !(lostBlocks s a l.length).contains b)) l _ a
    (sliceTouch_canonical h r a l.length true)
  split
  · exact canonical_of_eq k (by simp only [wroteBlocks]) (by simp only [wroteBlocks]) (by simp only [wroteBlocks])
  · exact ueEvents_canonical _ _ (canonical_of_eq k (by simp only [wroteBlocks]) (by simp only [wroteBlocks]) (by simp only [wroteBlocks]))

/-- A read keeps the form. -/
theorem memRead_canonical {s : State} (h : Canonical s) (r : Requester) (a n : Nat) : Canonical (memRead s r a n).1 := by
  unfold memRead
  split
  · unfold afterFault
    split
    · exact ueEvent_canonical h _ _
    · exact h
  · exact sliceTouch_canonical h _ _ _ _

/-- A range set to zero keeps the form. -/
theorem zeroRange_canonical {s : State} (h : Canonical s) (base len : Nat) : Canonical (zeroRange s base len) := by
  unfold zeroRange
  simp only []
  split
  · exact ⟨h.1, fwf_filter _ _ _ h.2.1, h.2.2⟩
  · exact ⟨h.1, fwf_filter _ _ _ h.2.1, h.2.2⟩

theorem fwf_foldl_fset (f : Host.Cell → Nat) (l : List Host.Cell) : ∀ m : List Host.Cell, fwf byte0 m = true →
    fwf byte0 (l.foldl (fun k x => fset byte0 k (f x) x.2) m) = true := by
  induction l with
  | nil => intro m h; exact h
  | cons x r ih => intro m h; exact ih _ (fwf_fset _ _ _ _ h)

/-- A copy of a range keeps the form. -/
theorem copyCells_wf (m : List Host.Cell) (src dst n : Nat) (h : fwf byte0 m = true) : fwf byte0 (copyCells m src dst n) = true :=
  fwf_foldl_fset _ _ _ (fwf_filter _ _ _ h)

theorem copyLocal_canonical {s : State} (h : Canonical s) (src dst n : Nat) : Canonical (copyLocal s src dst n) :=
  ⟨h.1, copyCells_wf _ _ _ _ h.2.1, h.2.2⟩

/-! Per-tile space. -/

theorem twr_canonical {s : State} (h : Canonical s) (t off : Nat) (l : List Byte) : Canonical (s.twr t off l) := ⟨h.1, h.2.1, fwf_writeCells _ _ _ h.2.2⟩

theorem scrubTile_canonical {s : State} (h : Canonical s) (t : Nat) : Canonical (scrubTile s t) := ⟨h.1, h.2.1, fwf_filter _ _ _ h.2.2⟩

/-! The module as a whole. -/

theorem reset_canonical : Canonical State.reset := ⟨rfl, rfl, rfl⟩

/-! Reads and writes of local memory. -/

/-- What only registers and the error log leave alone: stacked memory and per-tile bytes. -/
theorem OnlyRegsLog.mem {s t : State} (h : OnlyRegsLog s t) : t.hbm = s.hbm ∧ t.tmem = s.tmem := by
  unfold OnlyRegsLog at h
  rw [h]; exact ⟨rfl, rfl⟩

theorem OnlyRegsLog.trans {s t u : State} (h : OnlyRegsLog s t) (k : OnlyRegsLog t u) : OnlyRegsLog s u := by
  unfold OnlyRegsLog at *
  rw [k, h]

theorem wr_onlyRegsLog (s : State) (p : Page) (a v : Nat) : OnlyRegsLog s (s.wr p a v) := by simp only [OnlyRegsLog, State.wr]

/-- An event of uncorrectable data changes registers and the error log only. -/
theorem ueEvent_only (s : State) (r : Requester) (a : Nat) : OnlyRegsLog s (ueEvent s r a) := by
  unfold ueEvent
  simp only []
  refine OnlyRegsLog.trans ?_ (raise_only _ _ _ _ _ _ _)
  split
  · exact wr_onlyRegsLog _ _ _ _
  · exact (((wr_onlyRegsLog _ _ _ _).trans (wr_onlyRegsLog _ _ _ _)).trans (wr_onlyRegsLog _ _ _ _)).trans (wr_onlyRegsLog _ _ _ _)

/-- A read of local memory answers the bytes there, or its fault; a read that answers changes the slices' records only, a fault registers and the error log only. -/
theorem memRead_spec (s : State) (r : Requester) (a n : Nat) :
    (memFault s a n = none → memRead s r a n = (sliceTouch s r a n false, .ok (s.hrd a n))) ∧
      (∀ f, memFault s a n = some f → (memRead s r a n).2 = .error f ∧ OnlyRegsLog s (memRead s r a n).1) := by
  unfold memRead
  cases h : memFault s a n with
  | none => exact ⟨fun _ => rfl, by simp⟩
  | some f =>
    refine ⟨by simp, fun g hg => ?_⟩
    simp only [Option.some.injEq] at hg
    refine ⟨by rw [hg], ?_⟩
    simp only [afterFault]
    split
    · exact ueEvent_only _ _ _
    · simp only [OnlyRegsLog]

/-- Bytes outside a written run read as before, whatever is skipped. -/
theorem writeSkip_out (skip : List Nat) (l : List Byte) : ∀ (s : State) (a k : Nat), (k < a ∨ a + l.length ≤ k) → (writeSkip s skip a l).hb k = s.hb k := by
  induction l with
  | nil => intro s a k _; rfl
  | cons b r ih =>
    intro s a k h
    simp only [List.length_cons] at h
    unfold writeSkip
    rw [ih _ _ _ (by omega)]
    split
    · rfl
    · simp only [State.hb]; exact fget_fset_ne _ _ _ (by omega)

/-- A byte of the run in no skipped block reads as written. -/
theorem writeSkip_in (skip : List Nat) (l : List Byte) : ∀ (s : State) (a i : Nat) (h : i < l.length), skip.contains ((a + i) / 64) = false →
    (writeSkip s skip a l).hb (a + i) = l[i] := by
  induction l with
  | nil => intro s a i h; simp at h
  | cons b r ih =>
    intro s a i h hs
    unfold writeSkip
    cases i with
    | zero =>
      simp only [Nat.add_zero] at hs
      rw [writeSkip_out _ _ _ _ _ (by omega)]
      rw [if_neg (by rw [hs]; decide)]
      simp only [State.hb, Nat.add_zero, fget_fset_self, List.getElem_cons_zero]
    | succ n =>
      have := ih (if skip.contains (a / 64) then s else { s with hbm := fset byte0 s.hbm a b }) (a + 1) n (by simpa using h)
        (by simpa [Nat.add_assoc, Nat.add_comm 1 n] using hs)
      simpa [Nat.add_assoc, Nat.add_comm 1 n] using this

end Sys2Proof.Machine
end

