-- ==== Sys2Proof/Laws/Threads.lean ====
section
/-! SUPPORT. Thread groups: what applying lane results to a group's registers does, and what an instruction that only writes registers or a predicate answers. -/

namespace Sys2Proof.Machine

open Sys2Proof

/-- A register after one write. -/
theorem reg_setReg (g : Group) (k v l r : Nat) : (g.setReg k v).reg l r = if 32 * r + l = k then v % 2 ^ 32 else g.reg l r := by
  simp only [Group.reg, Group.setReg, fget_fset]; split <;> simp

/-- Applying writes changes registers only. -/
theorem applyWrites_only (w : List (Nat × Nat)) : ∀ g : Group, g.applyWrites w = { g with regs := (g.applyWrites w).regs } := by
  induction w with
  | nil => intro g; rfl
  | cons x r ih =>
    intro g
    have := ih (g.setReg x.1 x.2)
    simpa [Group.applyWrites, List.foldl_cons, Group.setReg] using this

/-- A register that no write names is as before. -/
theorem applyWrites_out (w : List (Nat × Nat)) (l r : Nat) : ∀ g : Group, (∀ x ∈ w, x.1 ≠ 32 * r + l) → (g.applyWrites w).reg l r = g.reg l r := by
  induction w with
  | nil => intro g _; rfl
  | cons x w ih =>
    intro g h
    have := ih (g.setReg x.1 x.2) (fun y hy => h y (by simp [hy]))
    simp only [Group.applyWrites, List.foldl_cons] at this ⊢
    rw [this, reg_setReg, if_neg (Ne.symm (h x (by simp)))]

/-- A register that the writes name with one value holds it. -/
theorem applyWrites_in (w : List (Nat × Nat)) (l r v : Nat) : ∀ g : Group, (32 * r + l) ∈ w.map (·.1) → (∀ x ∈ w, x.1 = 32 * r + l → x.2 % 2 ^ 32 = v) →
    (g.applyWrites w).reg l r = v := by
  induction w with
  | nil => intro g h; simp at h
  | cons x w ih =>
    intro g h hv
    simp only [Group.applyWrites, List.foldl_cons]
    by_cases hm : (32 * r + l) ∈ w.map (·.1)
    · exact ih _ hm (fun y hy => hv y (by simp [hy]))
    · have hx : x.1 = 32 * r + l := by
        simp only [List.map_cons, List.mem_cons] at h
        rcases h with h | h
        · exact h.symm
        · exact absurd h hm
      have := applyWrites_out w l r (g.setReg x.1 x.2) (fun y hy e => hm (by rw [← e]; exact List.mem_map_of_mem hy))
      simp only [Group.applyWrites] at this
      rw [this, reg_setReg, if_pos hx.symm]
      exact hv x (by simp) hx

/-- The writes of gathered lane results are those of the lanes in order. -/
theorem gather_foldl (L : List (List (Nat × Nat) × NEv)) : ∀ acc : List (Nat × Nat) × NEv,
    (L.foldl (fun acc r => (acc.1 ++ r.1, acc.2.add r.2)) acc).1 = acc.1 ++ (L.map (·.1)).flatten := by
  induction L with
  | nil => intro acc; simp
  | cons x L ih => intro acc; simp only [List.foldl_cons, ih, List.map_cons, List.flatten_cons, List.append_assoc]

theorem gather_fst (L : List (List (Nat × Nat) × NEv)) : (gather L).1 = (L.map (·.1)).flatten := by
  unfold gather; rw [gather_foldl]; simp

theorem div_step (v i : Nat) : v / 2 ^ 32 / 2 ^ (32 * i) = v / 2 ^ (32 * (i + 1)) := by
  rw [Nat.div_div_eq_div_mul, ← Nat.pow_add, show 32 + 32 * i = 32 * (i + 1) by omega]

/-- The register writes of a value of `n` registers. -/
theorem mem_putN (l : Nat) : ∀ (n r v k y : Nat), (k, y) ∈ putN l r n v ↔ ∃ i, i < n ∧ k = 32 * (r + i) + l ∧ y = v / 2 ^ (32 * i) % 2 ^ 32 := by
  intro n
  induction n with
  | zero => intro r v k y; simp only [putN, List.not_mem_nil, false_iff]; rintro ⟨i, hi, _⟩; omega
  | succ n ih =>
    intro r v k y
    rw [putN, List.mem_cons, Prod.mk.injEq, ih]
    constructor
    · rintro (⟨h1, h2⟩ | ⟨i, hi, h1, h2⟩)
      · refine ⟨0, by omega, by omega, ?_⟩
        rw [h2, Nat.mul_zero, Nat.pow_zero, Nat.div_one]
      · exact ⟨i + 1, by omega, by omega, by rw [h2, div_step]⟩
    · rintro ⟨i, hi, h1, h2⟩
      cases i with
      | zero => left; exact ⟨by omega, by rw [h2, Nat.mul_zero, Nat.pow_zero, Nat.div_one]⟩
      | succ i => right; exact ⟨i, by omega, by omega, by rw [h2, div_step]⟩

/-- What the context of an instruction is. -/
theorem threadCtx_spec {s : State} {gr : GRef} {x : TInstr} {tc : TC} (h : threadCtx s gr x = some tc) :
    tc.gr = gr ∧ tc.x = x ∧ tc.grp.run = some tc.path ∧ tc.grp.outst.all (letsIssue x) = true ∧ (s.tile gr.tile).block gr.blk = some tc.blk
      ∧ tc.blk.groups[gr.grp]? = some tc.grp
      ∧ tc.act = (List.range 32).filter (fun l => tc.path.lanes.testBit l && (tc.grp.pred x.pred.toNat l != x.predNeg)) := by
  unfold threadCtx at h
  split at h
  · split at h
    · cases h
    · next b hb =>
      split at h
      · cases h
      · next g hg =>
        split at h
        · next p hr =>
          split at h
          · next ho =>
            cases h
            exact ⟨rfl, rfl, hr, ho, hb, hg, rfl⟩
          · cases h
        · cases h
  · cases h

/-- Active lanes are lanes. -/
theorem act_lt {s : State} {gr : GRef} {x : TInstr} {tc : TC} (h : threadCtx s gr x = some tc) {l : Nat} (hl : l ∈ tc.act) : l < 32 := by
  have := (threadCtx_spec h).2.2.2.2.2.2
  rw [this, List.mem_filter, List.mem_range] at hl
  exact hl.1

/-- What gathered lane results leave in a group. -/
theorem wrote_of_put {s : State} {gr : GRef} {x : TInstr} {tc : TC} (h : threadCtx s gr x = some tc) (f : Nat → List (Nat × Nat) × NEv) (n : Nat) (v : Nat → Nat)
    (hf : ∀ l, (f l).1 = tc.put l n (v l)) : Wrote tc n v ((tc.grp.applyWrites (gather (tc.act.map f)).1).advance tc.len) := by
  have hrun := (threadCtx_spec h).2.2.1
  have hmem : ∀ k y, (k, y) ∈ (gather (tc.act.map f)).1 ↔
      ∃ l, l ∈ tc.act ∧ ∃ i, i < n ∧ k = 32 * (tc.x.dst.toNat + i) + l ∧ y = v l / 2 ^ (32 * i) % 2 ^ 32 := by
    intro k y
    rw [gather_fst]
    simp only [List.map_map, List.mem_flatten, List.mem_map, Function.comp, hf, TC.put]
    constructor
    · rintro ⟨_, ⟨l, hl, rfl⟩, hy⟩
      exact ⟨l, hl, (mem_putN l n _ (v l) k y).1 hy⟩
    · rintro ⟨l, hl, hy⟩
      exact ⟨_, ⟨l, hl, rfl⟩, (mem_putN l n _ (v l) k y).2 hy⟩
  constructor
  · intro l hl r
    have hadv : ((tc.grp.applyWrites (gather (tc.act.map f)).1).advance tc.len).reg l r = (tc.grp.applyWrites (gather (tc.act.map f)).1).reg l r := rfl
    rw [hadv]
    split
    · next hc =>
      obtain ⟨ha, h1, h2⟩ := hc
      apply applyWrites_in
      · rw [List.mem_map]
        exact ⟨(32 * r + l, v l / 2 ^ (32 * (r - tc.x.dst.toNat)) % 2 ^ 32),
          (hmem _ _).2 ⟨l, ha, r - tc.x.dst.toNat, by omega, by rw [show tc.x.dst.toNat + (r - tc.x.dst.toNat) = r by omega], rfl⟩, rfl⟩
      · rintro ⟨k, y⟩ hy hk
        obtain ⟨l', hl', i, hi, e1, e2⟩ := (hmem k y).1 hy
        have := act_lt h hl'
        simp only at hk
        have e3 : l' = l := by omega
        have e4 : i = r - tc.x.dst.toNat := by omega
        subst e3; subst e4
        simp only [e2, Nat.mod_mod]
    · next hc =>
      apply applyWrites_out
      rintro ⟨k, y⟩ hy hk
      obtain ⟨l', hl', i, hi, e1, e2⟩ := (hmem k y).1 hy
      have := act_lt h hl'
      simp only at hk
      have e3 : l' = l := by omega
      subst e3
      exact hc ⟨hl', by omega, by omega⟩
  · have := applyWrites_only (gather (tc.act.map f)).1 tc.grp
    unfold Group.advance
    generalize tc.grp.applyWrites (gather (tc.act.map f)).1 = g at *
    rw [this]
    simp [hrun]

/-- An instruction that writes registers of the active lanes and passes its checks. -/
theorem laneOp_result {c : Instr} {s : State} {gr : GRef} {x : TInstr} {tc : TC} {checks : TC → List (Bool × Nat)}
    {f : TC → Nat → List (Nat × Nat) × NEv} (n : Nat) (v : Nat → Nat)
    (hc : exec c s = laneOp gr x s checks f) (ht : gr.tile < 160) (hx : threadCtx s gr x = some tc) (hk : firstBad (checks tc) = none)
    (hf : ∀ l, (f tc l).1 = tc.put l n (v l)) : LaneResult c s tc n v (gather (tc.act.map (f tc))).2 := by
  refine ⟨commit tc s (gather (tc.act.map (f tc))).1 (gather (tc.act.map (f tc))).2, ?_, _, wrote_of_put hx (f tc) n v hf, rfl⟩
  rw [hc]
  simp only [laneOp, runThread, onUnit, ht, decide_true, if_true, hx, guarded, hk]

/-- The events of gathered lane results. -/
theorem gather_snd (tc : TC) (f : Nat → List (Nat × Nat) × NEv) : (gather (tc.act.map f)).2 = tc.events (fun l => (f l).2) := by
  unfold gather TC.events
  have : ∀ (L : List Nat) (acc : List (Nat × Nat) × NEv),
      ((L.map f).foldl (fun acc r => (acc.1 ++ r.1, acc.2.add r.2)) acc).2 = (L.map (fun l => (f l).2)).foldl NEv.add acc.2 := by
    intro L
    induction L with
    | nil => intro acc; rfl
    | cons x L ih => intro acc; simp only [List.map_cons, List.foldl_cons]; exact ih _
  exact this tc.act ([], .zero)

/-- No events of any lane are none together. -/
@[simp] theorem events_zero (tc : TC) : tc.events (fun _ => .zero) = .zero := by
  unfold TC.events
  generalize tc.act = L
  induction L with
  | nil => rfl
  | cons x L ih => simpa [NEv.add, NEv.zero] using ih

/-- A mask holds the bits it is made of. -/
theorem testBit_maskOf (L : List Nat) (l : Nat) : (maskOf L).testBit l = decide (l ∈ L) := by
  unfold maskOf
  have : ∀ (L : List Nat) (m : Nat), (L.foldl (fun m i => m ||| 2 ^ i) m).testBit l = (m.testBit l || decide (l ∈ L)) := by
    intro L
    induction L with
    | nil => intro m; simp
    | cons x L ih =>
      intro m
      rw [List.foldl_cons, ih, Nat.testBit_or, Nat.testBit_two_pow]
      by_cases h : x = l
      · simp [h]
      · simp [h, Ne.symm h]
  rw [this]; simp

/-- The predicate of a lane after predicate `p` of the lanes in `mask` has been written with the bits of `v`. -/
theorem pred_setPred (g : Group) (p mask v q l : Nat) (hl : l < 32) :
    (g.setPred p mask v).pred q l = if q ≠ 7 ∧ q = p ∧ mask.testBit l = true then v.testBit l else g.pred q l := by
  by_cases h7 : q = 7
  · subst h7; simp [Group.pred]
  by_cases hp : p = 7
  · subst hp; simp [Group.setPred, h7]
  by_cases hq : q = p
  · subst hq
    simp only [Group.pred, Group.setPred, h7, if_false, fget_fset_self, BitVec.toNat_ofNat]
    rw [Nat.testBit_mod_two_pow]
    simp only [hl, decide_true, Bool.true_and, Nat.testBit_or, Nat.testBit_and, Nat.testBit_xor, allLanes, Nat.testBit_two_pow_sub_one]
    cases hm : mask.testBit l <;> simp [h7]
  · simp [Group.pred, Group.setPred, h7, hp, hq, fget_fset_ne _ _ _ hq]

/-- An instruction that writes a predicate of the active lanes and passes its checks. -/
theorem predOp_result {c : Instr} {s : State} {gr : GRef} {x : TInstr} {tc : TC} {checks : TC → List (Bool × Nat)} {f : TC → Nat → Bool}
    (hc : exec c s = predOp gr x s checks f) (ht : gr.tile < 160) (hx : threadCtx s gr x = some tc) (hk : firstBad (checks tc) = none) :
    PredResult c s tc (f tc) := by
  have hrun := (threadCtx_spec hx).2.2.1
  refine ⟨commitPred tc s tc.dstPred (tc.maskWhere (f tc)), ?_, fun g => (g.setPred tc.dstPred tc.mask (tc.maskWhere (f tc))).advance tc.len, ?_, ?_, rfl⟩
  · rw [hc]; simp only [predOp, runThread, onUnit, ht, decide_true, if_true, hx, guarded, hk]
  · intro p l _ hl
    change (tc.grp.setPred tc.dstPred tc.mask (tc.maskWhere (f tc))).pred p l = _
    simp only [pred_setPred _ _ _ _ _ _ hl, TC.mask, TC.maskWhere, testBit_maskOf, decide_eq_true_eq, List.mem_filter, TC.dstPred]
    by_cases ha : l ∈ tc.act <;> simp [ha]
  · unfold Group.advance Group.setPred
    split <;> simp [hrun]

end Sys2Proof.Machine
end

