-- ==== Sys2Proof/Tests/Slice0.lean ====
section
/-! SUPPORT. The module's own tests: commands that are ill formed, one step of a command on a small state with the result the spec gives, and for every statement states and operands that meet its hypotheses together. -/

namespace Sys2Proof.Tests

open Sys2Proof Sys2Proof.Machine

set_option Elab.async false

/-! Small states. -/

/-- The module after a stage A, with nothing enabled. -/
def up : State := { State.reset with up := true }

/-- Register words put into a state. -/
def regs (l : List (Page × Nat × Nat)) (s : State) : State := l.foldl (fun s x => s.wr x.1 x.2.1 x.2.2) s

/-- The command answers a next state of which `p` holds. -/
def ok (c : Instr) (s : State) (p : State → Bool) : Bool := match exec c s with | .next t => p t | _ => false

/-- Everything but the registers, the error log and the store, whose shipped contents no evaluation reads, is the same. -/
def same (s t : State) : Bool :=
  decide (t.pending = s.pending ∧ t.hbm = s.hbm ∧ t.raw = s.raw ∧ t.tmem = s.tmem ∧ t.traw = s.traw ∧ t.ref = s.ref ∧ t.ptp = s.ptp ∧ t.up = s.up)
  && decide (t.stalls = s.stalls ∧ t.phase = s.phase ∧ t.paused = s.paused ∧ t.free = s.free ∧ t.mem = s.mem ∧ t.conns = s.conns ∧ t.openConns = s.openConns)
  && decide (t.links = s.links ∧ t.cmds = s.cmds ∧ t.nextUid = s.nextUid ∧ t.qs = s.qs ∧ t.xlat = s.xlat ∧ t.bind = s.bind ∧ t.pennants = s.pennants)
  && decide (t.hoist = s.hoist ∧ t.servo = s.servo ∧ t.headroom = s.headroom ∧ t.hartsOn = s.hartsOn ∧ t.ssip = s.ssip ∧ t.tiles = s.tiles)
  && decide (t.palur = s.palur ∧ t.power = s.power ∧ t.xc = s.xc ∧ t.refStopped = s.refStopped ∧ t.netHalted = s.netHalted)
  && decide (t.fetchTurn = s.fetchTurn ∧ t.aborted = s.aborted ∧ t.mgmt = s.mgmt ∧ t.harts = s.harts ∧ t.hcache = s.hcache)

/-- The command changes nothing. -/
def idle (c : Instr) (s : State) : Bool := ok c s (fun t => same s t && decide (t.regs = s.regs ∧ t.log = s.log))

/-- Only the listed words of the registers differ. -/
def kept (s t : State) (but : List (Page × Nat)) : Bool :=
  ((s.regs ++ t.regs).map (fun x => x.1)).all (fun k => (but.map (fun x => regKey x.1 x.2)).contains k || decide (fget regDefault t.regs k = fget regDefault s.regs k))

/-- Only the listed words changed. -/
def only (s t : State) (ws : List (Page × Nat)) : Bool := kept s t ws && same s t && decide (t.log = s.log)

/-- The flag had one set event, and nothing else changed but the listed words. -/
def flagged (s t : State) (ws : List (Page × Nat)) (p : Page) (n : Nat) : Bool :=
  t.rdB p 0x18 n && decide (t.rd p 0x1C = s.rd p 0x1C + 1 ∧ t.rd p (0x780 + 4 * n) = s.rd p (0x780 + 4 * n) + 1) && kept s t (ws ++ flagWords p n)
    && same s t && decide (t.log.posted.length = s.log.posted.length + 1)

/-! Commands that are ill formed: each check refuses the first value beyond its bound. -/

def p0 : Packet := ⟨3, 1, 0, 8, 0, 0, 0, 0, 0, 0, 0, 0, 0, 0, List.replicate 8 0, 0⟩
def f0 : Flit := ⟨1, 0, 1, 0, false, false, 0, 0, 0, List.replicate 240 0, 0⟩
def x0 : TInstr := ⟨0, 0, 0, 0, 0, 0, 7, false, 0, 0, false, 0⟩

theorem test_wf_page : Instr.wf (.enable ⟨.tile, 159⟩ true false false) = true ∧ Instr.wf (.enable ⟨.tile, 160⟩ true false false) = false := by decide
theorem test_wf_host_page : Instr.wf (.swap ⟨.hoist, 0⟩) = true ∧ Instr.wf (.swap ⟨.hoist, 1⟩) = false := by decide
theorem test_wf_die_page : Instr.wf (.verSel ⟨.die, 3⟩ 1) = true ∧ Instr.wf (.verSel ⟨.die, 4⟩ 1) = false := by decide
theorem test_wf_link_page : Instr.wf (.ctrlSwap ⟨.link, 31⟩ false) = true ∧ Instr.wf (.ctrlSwap ⟨.link, 32⟩ false) = false := by decide
theorem test_wf_cache_page : Instr.wf (.scopeClearLast ⟨.cache, 11⟩) = true ∧ Instr.wf (.scopeClearLast ⟨.cache, 12⟩) = false := by decide
theorem test_wf_conn_page : Instr.wf (.shadowLoad ⟨.conn, 16383⟩) = true ∧ Instr.wf (.shadowLoad ⟨.conn, 16384⟩) = false := by decide
theorem test_wf_group : Instr.wf (.iadd ⟨159, 7, 31⟩ x0) = true ∧ Instr.wf (.iadd ⟨160, 7, 0⟩ x0) = false ∧ Instr.wf (.iadd ⟨0, 7, 32⟩ x0) = false := by decide
theorem test_wf_target : Instr.wf (.drainTimeout (.slot 15)) = true ∧ Instr.wf (.drainTimeout (.slot 16)) = false ∧ Instr.wf (.drainTimeout (.page ⟨.queue, 5⟩)) = true
    ∧ Instr.wf (.drainTimeout (.page ⟨.link, 5⟩)) = false := by decide
theorem test_wf_watchdog : Instr.wf (.watchdogExpiry 0 (.barrier 3 7)) = true ∧ Instr.wf (.watchdogExpiry 0 (.barrier 3 8)) = false ∧ Instr.wf (.watchdogExpiry 160 .mx) = false := by decide
theorem test_wf_crossing : Instr.wf (.xcLinkError (.xc1 3 15)) = true ∧ Instr.wf (.xcLinkError (.xc1 4 0)) = false ∧ Instr.wf (.xcLinkError (.xc3 11 3)) = true
    ∧ Instr.wf (.xcLinkError (.xc3 11 4)) = false ∧ Instr.wf (.xcLinkError (.xc4 16)) = false := by decide
theorem test_wf_island : Instr.wf (.pllLockLoss (.phy 11)) = true ∧ Instr.wf (.pllLockLoss (.phy 12)) = false ∧ Instr.wf (.pllLockLoss (.oe 4)) = false := by decide
theorem test_wf_stack : Instr.wf (.hbmPhyRelock 11) = true ∧ Instr.wf (.hbmPhyRelock 12) = false := by decide
theorem test_wf_sensor : Instr.wf (.temperatureChange (.tile 159) 0) = true ∧ Instr.wf (.temperatureChange (.tile 160) 0) = false ∧ Instr.wf (.temperatureChange (.dieOther 3 9) 0) = false
    ∧ Instr.wf (.temperatureChange (.oe 4) 0) = false := by decide
theorem test_wf_requester : Instr.wf (.sliceWrite (.hart 95 .nc) 0 []) = true ∧ Instr.wf (.sliceWrite (.hart 96 .nc) 0 []) = false ∧ Instr.wf (.sliceWrite (.thread 160) 0 []) = false := by decide
theorem test_wf_flit : Instr.wf (.payloadFlit 31 f0) = true ∧ Instr.wf (.payloadFlit 32 f0) = false ∧ Instr.wf (.payloadFlit 0 { f0 with payload := [] }) = false := by decide +kernel
theorem test_wf_packet : Instr.wf (.wr 31 p0) = true ∧ Instr.wf (.wr 0 { p0 with body := [] }) = false ∧ Instr.wf (.rd 0 { p0 with ptype := 2, body := [] }) = true := by decide
theorem test_wf_word : Instr.wf (.signalWordUpdate 0 4095 .st 0) = true ∧ Instr.wf (.signalWordUpdate 0 4096 .st 0) = false := by decide
theorem test_wf_array : Instr.wf (.mxBlockStart 0 1) = true ∧ Instr.wf (.mxBlockStart 0 2) = false := by decide
theorem test_wf_dma_slot : Instr.wf (.dmaSourceRead 0 3) = true ∧ Instr.wf (.dmaSourceRead 0 4) = false := by decide
theorem test_wf_ssip : Instr.wf (.ipiSet 2 0) = true ∧ Instr.wf (.ipiSet 3 0) = false := by decide
theorem test_wf_queue : Instr.wf (.doorbell 16383 0) = true ∧ Instr.wf (.doorbell 16384 0) = false := by decide
theorem test_wf_round : Instr.wf (.orwRound 11 4095) = true ∧ Instr.wf (.orwRound 12 0) = false ∧ Instr.wf (.orwRound 0 4096) = false := by decide
theorem test_wf_channel : Instr.wf (.rowRepair 0 63 0 0 0) = true ∧ Instr.wf (.rowRepair 0 64 0 0 0) = false := by decide
theorem test_wf_lane : Instr.wf (.laneSignalLoss 0 7) = true ∧ Instr.wf (.laneSignalLoss 0 8) = false := by decide
theorem test_wf_vc : Instr.wf (.senderCut 0 2) = true ∧ Instr.wf (.senderCut 0 3) = false := by decide
theorem test_wf_slot : Instr.wf (.jobReady 15) = true ∧ Instr.wf (.jobReady 16) = false := by decide
theorem test_wf_region : Instr.wf (.regionBind 31) = true ∧ Instr.wf (.regionBind 32) = false := by decide
theorem test_wf_hoist : Instr.wf (.hoistRetry 3 15) = true ∧ Instr.wf (.hoistRetry 4 0) = false ∧ Instr.wf (.hoistRetry 0 16) = false ∧ Instr.wf (.hoistReportBatch 0 2) = false := by decide
theorem test_wf_die : Instr.wf (.dieTrip 3) = true ∧ Instr.wf (.dieTrip 4) = false := by decide
theorem test_decode_none : decodeTableWord 64 0xFFFF = none := by decide

/-! The whole machine. -/

theorem witness_step : ({ up with pending := [Instr.ctrlHostReset] } : State).pending = Instr.ctrlHostReset :: [] ∧ up.pending = []
    ∧ up.up = true ∧ up.refStopped = false ∧ State.reset.up = false ∧ State.reset.pending = [] ∧ 0 ≤ (up.servo.frac : Int) + 10000000000 + 10 * (BitVec.ofNat 32 (up.rd pTime 0x218)).toInt := by decide
theorem witness_ticks : up.links = [] ∧ up.mgmt.lease = none ∧ ({ up with refStopped := true } : State).refStopped = true ∧ (up.hart 5).wait = none := by decide
theorem test_step_runs_front : (match step { regs [(pHostc, 0x14, 1)] up with pending := [.ipiSet 1 5, .ipiSet 0 0] } with | .next t => decide (t.ssip = 5 * 2 ^ 32 ∧ t.pending = [.ipiSet 0 0]) | _ => false) = true := by
  decide +kernel
theorem test_tick : (match step up with | .next t => decide (t.ref = 1 ∧ t.ptp = 10) | _ => false) = true := by decide
theorem test_tick_no_power : (match step State.reset with | .next t => decide (t.ref = 0 ∧ t.ptp = 0 ∧ t.up = false) | _ => false) = true := by decide
theorem witness_canonical : fwf regDefault State.reset.regs = true ∧ fwf byte0 State.reset.hbm = true ∧ fwf byte0 State.reset.tmem = true := by decide

/-! Thread groups: block 0 of tile 3, one group with lanes 0, 1 and 31 active under predicate 1. -/

def la : Launch := ⟨0, 7, 5, 2, 1, 16, 0, 0, 1, [], [⟨0x10000, 3, 0, 0, 0, 0, 0⟩], 0, 0, 0, 0⟩
def rg (l : List (Nat × Nat × Nat)) : FMap Word := l.foldl (fun m x => fset (fun _ => (0 : Word)) m (32 * x.1 + x.2.1) (BitVec.ofNat 32 x.2.2)) []
def gp (r : List (Nat × Nat × Nat)) : Group := ⟨0, 0, some ⟨2 ^ 32 - 1, 0x40, []⟩, [], [], [], 1, rg r, [(1, 0x80000003)], []⟩
def bars0 : List Bar := List.replicate 8 ⟨[], none, 0, false, [], []⟩
def onTile (g : Group) (s : State) : State :=
  (regs [(pTile 3, 0x14, 1), (pTile 3, 0x10, 0x11)] s).setTile 3 { Tile.init with blocks := [⟨0, la, 1, [g], bars0⟩], nextId := 1 }
def thr (r : List (Nat × Nat × Nat)) : State := onTile (gp r) up
def g0 : GRef := ⟨3, 0, 0⟩

/-- A context in which the group runs `x`, of which `p` holds. -/
def at0 (s : State) (x : TInstr) (p : TC → Bool) : Bool := match threadCtx s g0 x with | some tc => decide (g0.tile < 160) && p tc | none => false
/-- The register of a lane after the command. -/
def lane (c : Instr) (s : State) (l r : Nat) : Nat := match exec c s with
  | .next t => match (t.tile 3).blocks with | b :: _ => (match b.groups with | g :: _ => g.reg l r | [] => 0) | [] => 0
  | _ => 0
def grpAfter (c : Instr) (s : State) (p : Group → Bool) : Bool := ok c s (fun t => match (t.tile 3).blocks with | b :: _ => (match b.groups with | g :: _ => p g | [] => false) | [] => false)

/-- dst 4, a 2, b 3 under predicate 1. -/
def x1 : TInstr := ⟨0, 4, 2, 3, 0, 9, 1, false, 0, 0, false, 0⟩
def s1 : State := thr [(2, 0, 7), (3, 0, 0xFFFFFFFE), (2, 1, 0x80000000), (3, 1, 35), (2, 31, 0xFFFFFFFF), (3, 31, 2), (4, 2, 99)]

theorem witness_integer : at0 s1 x1 (fun tc => decide (firstBad (checks2 1 tc) = none ∧ firstBad (checks1 { tc with x := { x1 with b := 0 } }) = none ∧ tc.act = [0, 1, 31]))
    = true ∧ at0 s1 x1 (fun tc => decide (firstBad (checksMulHi tc) = none ∧ firstBad (checks2 2 { tc with x := { x1 with dst := 6, b := 4 } }) = none
      ∧ firstBad (checksMov { tc with x := { x1 with b := 0 } }) = none)) = true := by decide +kernel
theorem test_iadd_wraps : lane (.iadd g0 x1) s1 0 4 = 5 ∧ lane (.iadd g0 x1) s1 31 4 = 1 ∧ lane (.iadd g0 x1) s1 2 4 = 99 := by decide +kernel
theorem test_sar_shift_mod_32 : lane (.sar g0 x1) s1 1 4 = 0xF0000000 ∧ lane (.shl g0 x1) s1 0 4 = 7 * 2 ^ 30 % 2 ^ 32 := by decide +kernel
theorem test_imin_signed : lane (.imin g0 x1) s1 0 4 = 0xFFFFFFFE ∧ lane (.imax g0 x1) s1 1 4 = 35 := by decide +kernel
theorem test_mul_hi : lane (.mulHi g0 x1) s1 0 4 = 0xFFFFFFFF ∧ lane (.mulHi g0 { x1 with c := 1 }) s1 0 4 = 6 := by decide +kernel
theorem test_clz : lane (.clz g0 { x1 with b := 0 }) s1 0 4 = 29 ∧ lane (.popc g0 { x1 with b := 0 }) s1 31 4 = 32 := by decide +kernel
theorem test_mov_imm : lane (.mov g0 { x1 with a := 0, b := 0, wide := true, imm := 0x1234 }) s1 1 4 = 0x1234 := by decide +kernel

/-- FP32: 1.5 and 0.25 in lane 0, infinity and 1 in lane 1, NaN and 2 in lane 31. -/
def s2 : State := thr [(2, 0, 0x3FC00000), (3, 0, 0x3E800000), (2, 1, 0x7F800000), (3, 1, 0x3F800000), (2, 31, 0x7FC00000), (3, 31, 0x40000000), (5, 0, 0x3F800000)]
def x2 : TInstr := { x1 with fmt := 1 }

theorem witness_fp : at0 s2 x2 (fun tc => decide (firstBad (checksFp 2 tc) = none ∧ firstBad (checksFp 3 { tc with x := { x2 with c := 5 } }) = none ∧ firstBad (checksFp 1 { tc with x := { x2 with b := 0 } }) = none)) = true := by
  decide +kernel
theorem test_fp_add : lane (.fpAdd g0 x2) s2 0 4 = 0x3FE00000 ∧ lane (.fpMul g0 x2) s2 0 4 = 0x3EC00000 := by decide +kernel
theorem test_fp_fma : lane (.fpFma g0 { x2 with c := 5 }) s2 0 4 = 0x3FB00000 := by decide +kernel
theorem test_fp_div : lane (.fpDiv g0 x2) s2 0 4 = 0x40C00000 ∧ lane (.fpSqrt g0 { x2 with b := 0 }) (thr [(2, 0, 0x40800000)]) 0 4 = 0x40000000 := by decide +kernel
theorem test_fp_neg : lane (.fpNeg g0 { x2 with b := 0 }) s2 0 4 = 0xBFC00000 := by decide +kernel

theorem witness_conversions : at0 s2 { x2 with fmt := 2, c := 1, b := 0 } (fun tc => decide (firstBad (checksCvt tc) = none)) = true
    ∧ at0 s2 { x2 with fmt := 4, c := 1, b := 0 } (fun tc => decide (firstBad (checksPack tc) = none)) = true
    ∧ at0 s2 { x2 with fmt := 1, c := 4, b := 0 } (fun tc => decide (firstBad (checksUnpack tc) = none)) = true := by decide +kernel
theorem witness_comparisons : at0 s2 { x2 with dst := 2 } (fun tc => decide (firstBad (checksCmp tc) = none)) = true
    ∧ at0 s2 { x2 with c := 1 } (fun tc => decide (firstBad (checksSelect tc) = none)) = true := by decide +kernel
theorem test_cmp_lt_nan : grpAfter (.cmpLt g0 { x2 with dst := 2 }) s2 (fun g => !g.pred 2 0 && !g.pred 2 31) = true ∧ grpAfter (.cmpNe g0 { x2 with dst := 2 }) s2 (fun g => g.pred 2 31) = true := by decide +kernel
theorem test_cmp_gt_infinity : grpAfter (.cmpGt g0 { x2 with dst := 2 }) s2 (fun g => g.pred 2 1) = true := by decide +kernel

def xp : TInstr := { x1 with fmt := 0, dst := 2, a := 1, b := 7 }
theorem witness_predicates : at0 s1 xp (fun tc => decide (firstBad (checksPred true tc) = none)) = true
    ∧ at0 s1 { xp with b := 0 } (fun tc => decide (firstBad (checksPred false tc) = none)) = true
    ∧ at0 s1 { xp with a := 0, b := 0, c := 1 } (fun tc => decide (firstBad (checksVote tc) = none ∧ firstBad (checksBallot tc) = none)) = true
    ∧ at0 s1 { x1 with fmt := 0 } (fun tc => decide (firstBad (checksShfl tc) = none)) = true
    ∧ at0 s1 { x1 with fmt := 0, a := 0, b := 0 } (fun tc => decide (firstBad (checksRead 1 tc) = none ∧ firstBad (checksRead 2 tc) = none)) = true := by decide +kernel
theorem test_ballot : lane (.ballot g0 { xp with dst := 4, a := 0, b := 0, c := 1 }) s1 0 4 = 0x80000003 := by decide +kernel
theorem test_shfl_down : lane (.shflDown g0 { x1 with fmt := 0 }) (thr [(2, 0, 10), (2, 1, 11), (3, 0, 1), (3, 1, 1)]) 0 4 = 11
    ∧ lane (.shflDown g0 { x1 with fmt := 0 }) (thr [(2, 0, 10), (2, 1, 11), (3, 0, 1), (3, 1, 1)]) 1 4 = 11 := by decide +kernel
theorem test_read_tile : lane (.readTileNumber g0 { x1 with fmt := 0, a := 0, b := 0 }) s1 31 4 = 3 ∧ lane (.readNblocks g0 { x1 with fmt := 0, a := 0, b := 0 }) s1 0 4 = 2 := by decide +kernel

/-! Control flow, exit and faults. -/

/-- A branch under condition p2 to 0x80, reconverging at 0xC0. -/
def xb : TInstr := ⟨0, 0, 0, 0, 2, 0, 7, false, 0, 0, true, 0x80⟩
def withP2 (mask : Nat) : State := onTile { gp [] with preds := [(2, BitVec.ofNat 32 mask)] } up
def framed (f : List Frame) (sp : List Split) : State := onTile { gp [] with run := some ⟨2 ^ 32 - 1, 0x40, f⟩, splits := sp } up
def xd : TInstr := { xb with imm := 0x80 + 0xC0 * 2 ^ 32 }
def xn : TInstr := ⟨0, 0, 0, 0, 0, 0, 7, false, 0, 0, false, 0⟩

theorem witness_control : at0 (withP2 0) xb (fun tc => decide (firstBad (checksBra tc) = none ∧ tc.act ≠ [] ∧ ∀ l ∈ tc.act, tc.grp.pred 2 l = false)) = true
    ∧ at0 (withP2 (2 ^ 32 - 1)) xb (fun tc => decide (firstBad (checksBra tc) = none ∧ tc.act ≠ [] ∧ ∀ l ∈ tc.act, tc.grp.pred 2 l = true)) = true
    ∧ at0 (withP2 6) xd (fun tc => decide (firstBad (checksBraDiv tc) = none ∧ tc.path.lanes < 2 ^ 32 ∧ tc.grp.depth + 2 ≤ 32 ∧ 1 ∈ tc.act ∧ tc.grp.pred 2 1 = true ∧ tc.grp.pred 2 0 = false)) = true
    ∧ at0 (withP2 (2 ^ 32 - 1)) xd (fun tc => decide (firstBad (checksBraDiv tc) = none ∧ tc.path.lanes ≠ 0 ∧ ∀ l ∈ List.range 32, l ∈ tc.act ∧ tc.grp.pred 2 l = true)) = true
    ∧ at0 (framed [.split 0] [⟨0, 0xC0, 2 ^ 32 - 1, 0, []⟩]) xn (fun tc => decide (firstBad (checksPlain tc) = none ∧ tc.act ≠ [] ∧ tc.path.frames = [.split 0])) = true
    ∧ at0 (withP2 0) xb (fun tc => decide (firstBad (checksCall { tc with x := { xb with c := 0 } }) = none ∧ tc.grp.depth + 1 ≤ 32)) = true
    ∧ at0 (framed [.call 0x20 15] []) xn (fun tc => decide (firstBad (checksPlain tc) = none ∧ tc.act ≠ [] ∧ tc.path.frames = [.call 0x20 15])) = true := by decide +kernel
theorem test_bra_taken : grpAfter (.bra g0 xb) (withP2 (2 ^ 32 - 1)) (fun g => decide (g.run = some ⟨2 ^ 32 - 1, 0x80, []⟩)) = true
    ∧ grpAfter (.bra g0 xb) (withP2 0) (fun g => decide (g.run = some ⟨2 ^ 32 - 1, 0x50, []⟩)) = true := by decide +kernel
theorem test_bra_div_runs_lowest_lane : grpAfter (.braDiv g0 xd) (withP2 6) (fun g => decide (g.run.map (fun p => (p.lanes, p.pc)) = some (2 ^ 32 - 7, 0x50) ∧ g.ready.map (fun p => (p.lanes, p.pc)) = [(6, 0x80)])) = true
    ∧ grpAfter (.braDiv g0 xd) (withP2 1) (fun g => decide (g.run.map (fun p => (p.lanes, p.pc)) = some (1, 0x80))) = true := by decide +kernel
theorem test_call_ret : grpAfter (.call g0 { xb with c := 0 }) (withP2 0) (fun g => decide (g.run = some ⟨2 ^ 32 - 1, 0x80, [.call 0x50 (2 ^ 32 - 1)]⟩)) = true
    ∧ grpAfter (.ret g0 xn) (framed [.call 0x20 15] []) (fun g => decide (g.run = some ⟨15, 0x20, []⟩)) = true := by decide +kernel
theorem test_join_empty_stack_is_illegal : ok (.join g0 xn) (framed [] []) (fun t => decide ((t.tile 3).blocks = [] ∧ t.rd (pTile 3) 0x210 % 256 = 1)) = true := by decide +kernel

theorem witness_exit : at0 (withP2 0) xn (fun tc => decide (firstBad (checksPlain tc) = none ∧ tc.act ≠ [])) = true
    ∧ at0 (withP2 0) { xn with mod := 1 } (fun tc => decide (firstBad (checksPlain tc) = some 1)) = true
    ∧ at0 s1 { x1 with dst := 16 } (fun tc => decide (firstBad (checks2 1 tc) = some 2)) = true := by decide +kernel
theorem test_exit_ends_the_block : ok (.exit g0 xn) (withP2 0) (fun t => decide ((t.tile 3).blocks = [] ∧ t.rd (pTile 3) 0x204 = 1)) = true := by decide +kernel
theorem test_trap : ok (.trap g0 xn) (withP2 0) (fun t => decide ((t.tile 3).blocks = [] ∧ t.rd (pTile 3) 0x210 = 0x8000000F ∧ t.rd (pTile 3) 0x21C = 1 ∧ t.rdB (pTile 3) 0x18 8 = true)) = true := by decide +kernel

/-! Memory of the tile. -/

def sp : State := (thr [(2, 0, 0x100), (2, 1, 0x102), (2, 31, 0x104), (4, 0, 0x11223344), (4, 1, 0x55667788), (4, 31, 0x99AABBCC)]).twr 3 0x100 [1, 2, 3, 4, 5, 6, 7, 8]
/-- Two bytes at register a. -/
def xm : TInstr := ⟨0, 4, 2, 0, 0, 0, 1, false, 1, 0, false, 0⟩
theorem witness_tile_memory : at0 sp xm (fun tc => decide (firstBad (checksTile tc true) = none ∧ (∀ l ∈ tc.act, tileFault (tc.get l tc.x.a 1) 2 false = none) ∧ ∀ l ∈ tc.act, tileFault (tc.get l tc.x.a 1) 2 true = none)) = true
    ∧ at0 (thr [(2, 0, 0x100), (2, 1, 0x1800000), (2, 31, 0)]) xm (fun tc => decide (1 ∈ tc.act ∧ tileFault (tc.get 1 tc.x.a 1) 2 true = some 6 ∧ tileFault (tc.get 0 tc.x.a 1) 2 true = none)) = true
    ∧ at0 (thr [(2, 0, 0), (2, 1, 62), (2, 31, 4)]) xm (fun tc => decide (firstBad (checksTile tc true) = none ∧ ∀ l ∈ tc.act, tc.get l tc.x.a 1 + 2 ≤ 64 ∧ tc.get l tc.x.a 1 % 2 = 0)) = true
    ∧ at0 (thr [(2, 0, 0x1800000), (2, 1, 0x18FFFFC), (2, 31, 0x1800010)]) { xm with mod := 2 } (fun tc => decide (firstBad (checksAcc tc) = none
        ∧ ∀ l ∈ tc.act, 0x1800000 ≤ tc.get l tc.x.a 1 ∧ tc.get l tc.x.a 1 + 4 ≤ 0x1900000 ∧ tc.get l tc.x.a 1 % 4 = 0)) = true
    ∧ at0 sp { xm with a := 0, b := 1, c := 31, mod := 2 } (fun tc => decide (firstBad (checksX tc) = none ∧ 31 * 128 + 32 * 4 ≤ 4096)) = true := by decide +kernel
theorem test_ld_sp : lane (.ldSp g0 xm) sp 0 4 = 0x0201 ∧ lane (.ldSp g0 xm) sp 31 4 = 0x0605 := by decide +kernel
theorem test_st_sp_highest_lane_wins : ok (.stSp g0 { xm with mod := 2 }) (thr [(2, 0, 0x100), (2, 1, 0x100), (2, 31, 0x104), (4, 0, 1), (4, 1, 2), (4, 31, 3)]) (fun t => decide (t.tnat 3 0x100 8 = 2 + 3 * 2 ^ 32)) = true := by
  decide +kernel

/-! Global memory. -/

/-- Node 0x42 with 16 MiB of HBM and everything that a memory access needs. -/
def withHbm (s : State) : State := regs ([(pFabric, 0x200, 0x42), (pNet, 0x14, 1), (pNet, 0x200, 0xFFFFFFFF), (pNet, 0x204, 0xFFFFFFFF), (pNet, 0x208, 0xFFFFFFFF), (pNet, 0x20C, 0xFFFF),
    (pHostc, 0x218, 0xFFFF), (pHbmc 0, 0x248, 0x1000000)]
  ++ (List.range 12).map (fun n => (pCache n, 0x14, 1)) ++ (List.range 12).map (fun n => (pHbmc n, 0x14, 1))) s
def ext0 : Extent := ⟨0x10000, 7, 0, 0, 0x42 * 2 ^ 40 + 0x2000, 0, 1⟩
def glob (r : List (Nat × Nat × Nat)) : State :=
  (withHbm ((regs [(pTile 3, 0x14, 1)] up).setTile 3 { Tile.init with blocks := [⟨0, { la with extents := [ext0] }, 1, [gp r], bars0⟩], nextId := 1 })).hwr 0x2000 [0x10, 0x20, 0x30, 0x40, 0xFF, 0xFF, 0xFF, 0xFF]
def sg : State := glob [(2, 0, 0), (2, 1, 4), (2, 31, 0x20), (4, 0, 1), (4, 1, 2), (4, 31, 3)]
def xg : TInstr := ⟨0, 4, 2, 0, 2, 0, 1, false, 0, 0, false, 0⟩
theorem witness_global : at0 sg xg (fun tc => decide (firstBad (checksGlobal false tc) = none ∧ firstBad (checksGlobal true { tc with x := { xg with mod := 0x09 } }) = none ∧ tc.act ≠ []) &&
      (match resolveAll tc sg 4 1 4 3 tc.act with
       | .ok las => decide (las.length = 3 ∧ remoteOf las = [] ∧ ∀ p ∈ localOf las, memHeld sg (.thread 3) p.2 4 = false ∧ memFault sg p.2 4 = none)
       | .error _ => false)
      && (match resolveAll tc sg 4 2 4 3 tc.act with
       | .ok las => (runsOf (storeMap ((localOf las).map (fun p => (p.2, tc.data p.1 2))))).all (fun r => !memHeld sg (.thread 3) r.1 1 && decide (storeFault sg r = none))
       | .error _ => false)) = true := by decide +kernel
theorem test_st_g : ok (.stG g0 xg) sg (fun t => decide (t.hnat 0x2000 8 = 1 + 2 * 2 ^ 32 ∧ t.hnat 0x2020 4 = 3)) = true := by decide +kernel
theorem test_ld_g_waits : grpAfter (.ldG g0 xg) sg (fun g => decide ((g.outst.map (fun a => a.writes)) = [[(128, 0x40302010), (129, 0xFFFFFFFF), (159, 0)]])) = true := by decide +kernel

def acc0 (f : Option (Nat × Nat)) : Access := ⟨9, 0x40, 1, [(128, 77)], f, 0, 4, 1, false, false⟩
def waiting (f : Option (Nat × Nat)) : State := onTile { gp [] with outst := [acc0 f] } up
theorem witness_access : tileOn (waiting none) 3 = true ∧ ((waiting none).tile 3).block 0 ≠ none ∧ (acc0 none).remote = 0 ∧ (acc0 (some (0x2A, 0x4000))).fault = some (0x2A, 0x4000)
    ∧ tileOn (waiting (some (0x2A, 0x4000))) 3 = true ∧ ((acc0 none).writes.map (fun p => p.1)).Nodup := by decide +kernel
theorem witness_access_own : acc0 none ∈ (gp []).outst ++ [acc0 none] ∧ (∀ y ∈ [acc0 none], y.id = (acc0 none).id → y = acc0 none) := by decide
theorem test_access_returns : lane (.globalAccessResponse g0 9) (waiting none) 0 4 = 77 ∧ grpAfter (.globalAccessResponse g0 9) (waiting none) (fun g => decide (g.outst = [])) = true := by decide +kernel
theorem test_access_faults : ok (.globalAccessResponse g0 9) (waiting (some (0x2A, 0x4000))) (fun t => decide ((t.tile 3).blocks = [] ∧ t.rd (pTile 3) 0x210 % 256 = 0x2A)) = true := by decide +kernel

/-! Atomics, signals, barriers. -/

def xa : TInstr := ⟨0, 4, 2, 0, 0, 9, 1, false, 0, 0, false, 0⟩
def one (r : List (Nat × Nat × Nat)) : State :=
  (withHbm ((regs [(pTile 3, 0x14, 1)] up).setTile 3 { Tile.init with blocks := [⟨0, { la with extents := [ext0] }, 1, [{ gp r with run := some ⟨1, 0x40, []⟩ }], bars0⟩], nextId := 1 })).hwr 0x2000 [0xFE, 0xFF, 0xFF, 0xFF]
def sa : State := one [(2, 0, 0), (4, 0, 5), (5, 0, 9)]
theorem witness_atomics : at0 sa xa (fun tc => decide (firstBad (checksAtom 0 false tc) = none ∧ firstBad (checksAtom 9 false tc) = none ∧ tc.act = [0]
      ∧ firstBad (checksAtom 9 true { tc with x := { xa with c := 4 } }) = none ∧ firstBad (checksAtom 0xD false { tc with x := { xa with fmt := 1 } }) = none) &&
      (match resolveAll tc sa 4 4 4 9 tc.act with
       | .ok las => decide (localOf las = [(0, 0x2000)] ∧ remoteOf las = [] ∧ memHeld sa (.thread 3) 0x2000 4 = false ∧ memFault sa 0x2000 4 = none)
       | .error _ => false)) = true ∧ orwIndex sa (sliceOf sa 0x2000) 0x2000 = none := by decide +kernel
theorem test_atom_add_wraps : ok (.atomAdd g0 xa) sa (fun t => decide (t.hnat 0x2000 4 = 3)) = true := by decide +kernel
theorem test_atom_min_signed : ok (.atomMinS g0 xa) sa (fun t => decide (t.hnat 0x2000 4 = 0xFFFFFFFE)) = true ∧ ok (.atomMinU g0 xa) sa (fun t => decide (t.hnat 0x2000 4 = 5)) = true := by decide +kernel
theorem test_atom_cas : ok (.atomCas g0 xa) (one [(2, 0, 0), (4, 0, 0xFFFFFFFE), (5, 0, 9)]) (fun t => decide (t.hnat 0x2000 4 = 9)) = true ∧ ok (.atomCas g0 xa) sa (fun t => decide (t.hnat 0x2000 4 = 0xFFFFFFFE)) = true := by
  decide +kernel

def xs : TInstr := ⟨0, 4, 2, 6, 0, 0, 1, false, 0, 0, false, 0⟩
def ss : State := (onTile { gp [(2, 0, 5), (3, 0, 1), (6, 0, 0x1A00010)] with run := some ⟨1, 0x40, []⟩ } up).twr 3 0x1A00010 (toLE 8 (2 ^ 64 - 2))
theorem witness_signals : at0 ss xs (fun tc => decide (tc.act = [0] ∧ tc.sigBad = none ∧ firstBad (checksSig true true tc) = none ∧ firstBad (checksSig true false tc) = none ∧ firstBad (checksSig false true tc) = none)) = true
    ∧ tilePowered ss 3 = true ∧ tileOn ss 3 = true ∧ ss.sig 3 2 = 2 ^ 64 - 2 := by decide +kernel
theorem witness_signal_words : at0 ss xs (fun tc => decide (∀ l ∈ tc.act, 0x1A00000 ≤ tc.get l 6 1 ∧ tc.get l 6 1 + 8 ≤ 0x1A08000 ∧ tc.get l 6 1 % 8 = 0)) = true := by decide +kernel
theorem test_sig_add_wraps : ok (.sigAdd g0 xs) ss (fun t => decide (t.sig 3 2 = 2 ^ 32 + 3)) = true ∧ lane (.sigAdd g0 xs) ss 0 4 = 0xFFFFFFFE := by decide +kernel
theorem test_signal_word_update : ok (.signalWordUpdate 3 2 .or 1) ss (fun t => decide (t.sig 3 2 = 2 ^ 64 - 1 ∧ t.sig 3 1 = 0 ∧ t.sig 3 3 = 0)) = true := by decide +kernel
theorem witness_waits : at0 ss xs (fun tc => decide (∀ l ∈ tc.act, tc.get l 2 2 ≤ ss.sig 3 2)) = true ∧ at0 ss xs (fun tc => decide (∃ l ∈ tc.act, ¬ ss.sig 3 2 = tc.get l 2 2)) = true := by decide +kernel
theorem test_wait_ge : lane (.waitGe g0 xs) ss 0 4 = 0xFFFFFFFE ∧ lane (.waitGe g0 xs) ss 0 5 = 0xFFFFFFFF := by decide +kernel
theorem test_wait_eq_parks : grpAfter (.waitEq g0 xs) ss (fun g => decide (g.run = none ∧ g.parked.length = 1)) = true := by decide +kernel

def xbar : TInstr := ⟨0, 0, 0, 0, 1, 0, 7, false, 0, 0, false, 0⟩
def sbar : State := onTile { gp [] with exited := 2 ^ 32 - 4, run := some ⟨3, 0x40, []⟩ } up
theorem witness_barriers : at0 sbar xbar (fun tc => decide (firstBad (checksBar tc) = none ∧ tc.act = [0, 1] ∧ tc.blk.live = [0, 1]) && decide (firstBad (checksFence { tc with x := { xbar with c := 0, mod := 0x0B } }) = none)) = true := by
  decide +kernel
theorem witness_barrier_uses : at0 sbar xbar (fun tc => match tc.blk.bars[xbar.c.toNat]? with
      | some bar => decide ((bar.arrivals.map (fun y => y.1)).Nodup) && !tc.blk.barDone xbar.c.toNat
      | none => false) = true ∧ at0 sbar { xbar with pred := 2 } (fun tc => decide (tc.act = [])) = true := by decide +kernel
theorem test_bar_sync_completes : grpAfter (.barSync g0 xbar) sbar (fun g => decide (g.run = some ⟨3, 0x48, []⟩ ∧ g.parked = [])) = true := by decide +kernel
theorem test_bar_sync_parks : grpAfter (.barSync g0 xbar) (withP2 0) (fun g => decide (g.run.isSome = true)) = true ∧ grpAfter (.barSync g0 { xbar with pred := 2 }) (withP2 1) (fun g => decide (g.parked.length = 1)) = true := by
  decide +kernel

/-! Register pages. -/

def pw (p : Page) (off v : Nat) : Instr := .registerWrite (.host 0) (pageBase p + off) 4 (BitVec.ofNat 64 v)
theorem witness_writes : served up = true ∧ pageOk pTime = true ∧ inActive pTime 0x104 = true ∧ inShadow pTime 0x904 = true ∧ up.swapPending pTime = false
    ∧ (regs [(pTime, 0x14, 2)] up).swapPending pTime = true ∧ (regAt pTime 0x104).isSome = true ∧ regAt pTime 0xFC = none ∧ regAt pTime (0x908 - 0x800) = none ∧ inShadow pTime 0x908 = false
    ∧ (match regAt pHoist 0x210 with | some (r, false) => decide (r.wide = false ∧ r.fs.length = 1) | _ => false) = true
    ∧ (match regAt pTime 0x210 with | some (r, _) => r.fs.all (fun f => decide (f.acc = .ro)) | _ => false) = true
    ∧ pageOf 0 = none ∧ served State.reset = false := by decide +kernel
theorem witness_write_ways : writeOpen up .palur = true ∧ writeOpen up (.host 0) = true ∧ writeOpen State.reset (.host 0) = false ∧ (up.netHalted && farPage (pTile 3)) = false
    ∧ (let s : State := { up with netHalted := true }; (s.netHalted && farPage (pTile 3)) = true ∧ pageOf (pageBase (pTile 3) + 4) = some (pTile 3, 4))
    ∧ (let s := regs [(pTime, 0x14, 1), (pTime, 0x10, 0x11)] up; s.enabled pTime = true ∧ s.rdB pTime 0x10 0 = true)
    ∧ bits 0x11 0 1 = 1 ∧ bits 0x11 1 3 = 0 ∧ bits 0x11 4 28 = 1 ∧ bits 0x80000011 4 28 = 1 + 2 ^ 27 ∧ bits 0x10011 4 28 = 1 + 2 ^ 12 ∧ (pQueue 2).blk = .queue := by decide +kernel
theorem test_host_write_faults : ok (.registerWrite (.host 2) 0 4 0) up (fun t => decide ((t.hart 2).priv = 3 ∧ (t.hart 2).c 0x342 = 7 ∧ t.regs = up.regs)) = true ∧ idle (.registerWrite .palur 0 4 0) up = true
    ∧ ok (.registerWrite (.host 2) (pageBase pTime + 0x904) 2 0) up (fun t => decide ((t.hart 2).c 0x342 = 7 ∧ t.regs = up.regs)) = true := by decide +kernel
theorem test_ctrl_write : ok (pw pTime 0x10 0x80000011) (regs [(pTime, 0x14, 1), (pTime, 0x10, 0x11)] up) (fun t => decide (t.rdF pTime 0x10 4 4 = 1) && t.rdB pTime 0x18 2) = true := by decide +kernel
theorem test_far_write_waits : idle (pw (pTile 3) 0x10 0x11) { up with netHalted := true } = true := by decide +kernel
theorem test_active_set_refuses : ok (pw pTime 0x104 5) up (fun t => flagged up t [] pTime 2) = true := by decide +kernel
theorem test_shadow_set_takes : ok (pw pTime 0x904 0x03E8003D) up (fun t => decide (t.rd pTime 0x904 = 0x03E8003D) && only up t [(pTime, 0x904)]) = true := by decide +kernel
theorem test_shadow_locked : ok (pw pTime 0x904 5) (regs [(pTime, 0x14, 2)] up) (fun t => flagged (regs [(pTime, 0x14, 2)] up) t [] pTime 1) = true := by decide +kernel
theorem test_plain_register : ok (pw pErrlog 0x224 3) up (fun _ => true) = true := by decide +kernel

/-- TIME with a shadow that passes the check (holdover 61 s), and one that does not (holdover 0). -/
def swp (v : Nat) : State := regs [(pTime, 0x904, v), (pTime, 0x14, 2)] up
theorem witness_swap : atSwapPoint (swp 0x03E8003D) pTime = true ∧ (swp 0x03E8003D).swapPending pTime = true ∧ swapCheck (swp 0x03E8003D) pTime = none
    ∧ (swapCheck (swp 0x03E80000) pTime).isSome = true ∧ (swp 0x03E8003D).rdB pTime 0x10 0 = (swp 0x03E8003D).enabled pTime
    ∧ atSwapPoint (regs [(pQueue 2, 0x14, 0x20001), (pQueue 2, 0x10, 0x11)] up) (pQueue 2) = false ∧ atSwapPoint up pTime = true ∧ up.swapPending pTime = false := by decide +kernel
theorem test_swap_copies : ok (.swap pTime) (swp 0x03E8003D) (fun t => decide (t.rd pTime 0x104 = 0x03E8003D ∧ t.rd pTime 0x904 = 0x03E8003D ∧ t.rd pTime 0x704 = 1 ∧ t.swapPending pTime = false)) = true := by decide +kernel
theorem test_swap_refused : ok (.swap pTime) (swp 0x03E80000) (fun t => decide (t.rd pTime 0x104 = up.rd pTime 0x104 ∧ t.rd pTime 0x700 % 4096 = 0x104 ∧ t.swapPending pTime = false)
    && flagged (swp 0x03E80000) t [(pTime, 0x700), (pTime, 0x14)] pTime 0) = true := by decide +kernel
theorem test_ctrl_swap_then_load : ok (.ctrlSwap pTime true) up (fun t => t.swapPending pTime && flagged up t [(pTime, 0x14)] pTime 1) = true ∧ ok (.ctrlSwap pTime false) up (fun t => t.swapPending pTime && only up t [(pTime, 0x14)]) = true := by
  decide +kernel
theorem test_shadow_load : ok (.shadowLoad pTime) (regs [(pTime, 0x104, 0x00640001)] up) (fun t => decide (t.rd pTime 0x904 = 0x00640001 ∧ t.rd pTime 0x900 = 0xFFFFFFFF)) = true := by decide +kernel

theorem witness_enable : up.enabled pTime = false ∧ (regs [(pTime, 0x14, 1)] up).enabled pTime = true ∧ up.enabled (pConn 7) = false ∧ bstate (regs [(pConn 7, 0x608, 2)] up) (pConn 7) = 2
    ∧ tileFailed (regs [(pErrlog, 0x230, 8)] up) 3 = true ∧ tileFailed up 3 = false ∧ atSwapPoint (regs [(pTime, 0x14, 1), (pTime, 0x10, 0x11)] up) pTime = true
    ∧ (regs [(pQueue 2, 0x14, 0x20001), (pQueue 2, 0x10, 0x11)] up).enabled (pQueue 2) = true := by decide +kernel
theorem witness_enable_ways : pTime.blk ∉ [Blk.tile, .queue, .conn, .oe, .link] ∧ (pConn 7).blk = .conn ∧ reached up (pTile 3) = true
    ∧ (let s := regs [(pConn 7, 0x14, 1), (pConn 7, 0x10, 0x10), (pConn 7, 0x608, 2)] up; s.enabled (pConn 7) = true ∧ s.rdB (pConn 7) 0x10 0 = false ∧ bstate s (pConn 7) = 2) := by decide +kernel
theorem test_enable_quarantines : ok (.enable (pConn 7) true false false) (regs [(pConn 7, 0x608, 2)] up) (fun t => t.enabled (pConn 7) && t.quarantined (pConn 7) && decide (bstate t (pConn 7) = 4)) = true := by decide +kernel
theorem test_failed_tile_stays_disabled : ok (.enable (pTile 3) true false false) (regs [(pErrlog, 0x230, 8)] up) (fun t => flagged (regs [(pErrlog, 0x230, 8)] up) t [] (pTile 3) 2) = true := by decide +kernel
theorem test_ver_sel : ok (.verSel pTime 1) up (fun t => decide (t.rdF pTime 0x10 4 4 = 1)) = true ∧ ok (.verSel pTime 2) up (fun t => flagged up t [] pTime 3) = true := by decide +kernel

def sf : State := regs [(pTime, 0x18, 0x703), (pTime, 0x1C, 9), (pTime, 0x7A0, 4)] up
theorem witness_flag_clear : flagAssigned pTime 8 = true ∧ flagAssigned pTime 10 = true ∧ flagAssigned pTime 11 = false := by decide +kernel
theorem test_flag_clear : ok (.flagClear pTime 0x18 0x501) sf (fun t => decide (t.rd pTime 0x18 = 0x202 ∧ t.rd pTime 0x1C = 9 ∧ t.rd pTime 0x7A0 = 4) && only sf t [(pTime, 0x18)]) = true := by decide +kernel

/-- DEBUG_STATE lets LINK 2 be disturbed. -/
def dis (l : List (Page × Nat × Nat)) : State := { regs l up with store := { Store.shipped with lifecycle := 1 } }
theorem witness_disturb : hasDisturb (pLink 2) = true ∧ hasDisturb pHostc = false := by decide +kernel

theorem witness_bunting : (regs [(pBunt, 0x14, 1), (pLink 2, 0x18, 0x100)] up).enabled pBunt = true ∧ pageOk (pLink 2) = true := by decide +kernel
theorem test_summary : ok (.summaryUpdate (pLink 2)) (regs [(pBunt, 0x14, 1), (pLink 2, 0x18, 0x100)] up) (fun t => decide (t.rd pBunt 0x190 = 4 ∧ t.rd pBunt 0x180 = 8)) = true
    ∧ ok (.summaryUpdate (pLink 2)) (regs [(pBunt, 0x14, 1), (pLink 2, 0x18, 0x100), (pLink 2, 0x100, 0xFFFFFEFF)] up) (fun t => decide (t.rd pBunt 0x190 = 0 ∧ t.rd pBunt 0x180 = 0)) = true := by decide +kernel

/-! Disturbance. -/

def dev (l : List (Page × Nat × Nat)) : State := { regs l up with store := { Store.shipped with lifecycle := 0 } }
theorem witness_disturb_allowed : disturbAllowed (dev []) (pLink 2) = true ∧ disturbAllowed up (pLink 2) = false ∧ armed (dev []) (pLink 2) = false
    ∧ armed (dev [(pLink 2, 0x34, 0x80000000)]) (pLink 2) = true ∧ (2 ^ 63 + 1000 : Nat) &&& disturbFields = 2 ^ 63 + 1000 ∧ inWindow (dev []) (pLink 2) = false := by decide +kernel
theorem test_disturb_denied : ok (.disturbWrite (pLink 2) .whole 0) up (fun t => flagged up t [] (pLink 2) 4) = true ∧ ok (.disturbWrite pHostc .whole 0) up (fun t => flagged up t [] pHostc 2) = true := by decide +kernel
theorem test_disturb_arms : ok (.disturbWrite (pLink 2) .whole 0x8000000000000064) (dev [(pLink 2, 0x38, 100), (pLink 2, 0x3C, 10)]) (fun t => decide (t.rd64 (pLink 2) 0x30 = 2 ^ 63 + 100 ∧ t.stalls = [pLink 2])) = true := by
  decide +kernel

/-! Error records, clocks, the host complex. -/

def rec0 : Rec := ⟨2, pTile 3, 8, 0x0F, 5, 1, 77, 0, 0x1234, [], 9, 1⟩
/-- ERRLOG with a ring of 16 records at 0x4000. -/
def lg (l : List (Page × Nat × Nat)) : State :=
  { regs ([(pErrlog, 0x14, 1), (pErrlog, 0x104, 0x4000), (pErrlog, 0x10C, 4 + 64 * 2 ^ 16)] ++ l) (withHbm up) with log := { up.log with posted := [rec0] } }
theorem witness_error_records : (lg []).log.posted = [rec0] ∧ isFatalRec rec0 = false ∧ logRate (lg []) rec0 < (lg []).rdF pErrlog 0x10C 16 16 ∧ rec0.cls < 4 ∧ logLog (lg []) = 4
    ∧ (lg []).rdF pErrlog 0x10C 5 2 ≤ rec0.cls ∧ (lg []).enabled pErrlog = true ∧ (lg []).log.waiting = [] ∧ logFull (lg []) 1 = false ∧ memFault (lg []) 0x4000 64 = none
    ∧ logFull (lg [(pErrlog, 0x204, 2 ^ 32 - 16)]) 1 = true ∧ logLog up = 0 ∧ (lg [(pErrlog, 0x10C, 4)]).rdF pErrlog 0x10C 16 16 ≤ logRate (lg [(pErrlog, 0x10C, 4)]) rec0
    ∧ up.log.posted = [] ∧ 1 ≤ diff32 1 (up.rd pErrlog 0x200) ∧ ¬ 1 ≤ diff32 0 (up.rd pErrlog 0x200) := by decide +kernel
theorem witness_records_wait : (let s : State := { lg [(pErrlog, 0x204, 2 ^ 32 - 16)] with log := { up.log with waiting := [(1, recBytes 1 rec0)], posted := [] } }; s.log.waiting = [(1, recBytes 1 rec0)] ∧ logWaits s 1 = true ∧ (recBytes 1 rec0).length = 64)
    ∧ (let s : State := { lg [] with log := { up.log with waiting := [(1, recBytes 1 rec0)], posted := [] } }; logWaits s 1 = false ∧ memFault s (logSlot s 1) 64 = none ∧ logLog s ≠ 0)
    ∧ logWaits (lg []) 1 = false ∧ logWaits (lg [(pErrlog, 0x204, 2 ^ 32 - 16)]) 1 = true := by decide +kernel
theorem test_error_record : ok .errorRecordPost (lg []) (fun t => decide (t.log.posted = [] ∧ t.rd pErrlog 0x200 = 1 ∧ t.rd pErrlog 0x218 = 1 ∧ t.hnat 0x4000 4 = 1 ∧ t.log.seq = 1)) = true := by decide +kernel
theorem test_errlog_head : ok (.errlogHeadWrite 1) up (fun t => flagged up t [] pErrlog 2) = true ∧ ok (.errlogHeadWrite 3) (lg [(pErrlog, 0x200, 3)]) (fun t => only (lg [(pErrlog, 0x200, 3)]) t [(pErrlog, 0x204)]) = true := by decide +kernel

theorem witness_clock_loss : up.up = true ∧ up.rdB pMgmt 0x208 0 = false ∧ up.mem.phyLost = [] ∧ up.mem.failed = []
    ∧ ({ up with ref := 1000000, mem := { MemSys.init with phyLost := [(5, 0)] } } : State).mem.phyLost = [(5, 0)] := by decide +kernel
theorem witness_lock_ways : up.mem.retrain = [] ∧ up.mem.retWait = [] ∧ up.mem.mapWait = [] ∧ ({ up with netHalted := true } : State).netHalted = true ∧ (∀ l, l < 32 → linkState up l ≠ 2)
    ∧ (let s := regs [(pLink 9, 0x14, 0x20000)] up; linkState s 9 = 2 ∧ (s.link 9).ctl = [] ∧ (s.link 9).replayDue = false ∧ ∀ v ∈ (s.link 9).tx, v.q = [] ∧ v.rest = [] ∧ v.cutDue = false) := by decide +kernel
theorem test_net_lock_loss : ok (.pllLockLoss .net) up (fun t => decide (t.rdF pErrlog 0x220 0 2 = 2 ∧ t.rdF pErrlog 0x220 8 8 = 1 ∧ t.rdB pNet 0x18 5 = true)) = true := by decide +kernel
theorem test_phy_relock : ok (.hbmPhyRelock 5) { up with ref := 1000000, mem := { MemSys.init with phyLost := [(5, 0)] } } (fun t => decide (t.mem.phyLost = [] ∧ t.mem.failed = [])) = true
    ∧ ok (.hbmRelockTimeout 5) { up with ref := 1000000, mem := { MemSys.init with phyLost := [(5, 0)] } } (fun t => decide (t.mem.failed = [5] ∧ t.rdB (pHbmc 5) 0x18 17 = true)) = true := by decide +kernel
theorem test_rng_fail : ok .rngHealthFail up (fun t => decide (t.rdF pErrlog 0x220 8 8 = 4)) = true ∧ ok .palurCheckFailed up (fun t => decide (t.rdF pErrlog 0x220 8 8 = 6)) = true := by decide +kernel

def hostOn : State := { regs [(pHostc, 0x14, 1), (pQueue 2, 0x14, 0x20001), (pQeng, 0x200, 1)] up with hartsOn := 3, bind := { up.bind with bound := [pQueue 2] } }
theorem witness_host : served hostOn = true ∧ hostOn.enabled pHostc = true ∧ (∀ x ∈ hostOn.bind.bound, pageOk x = true) ∧ hostOn.hartsOn ≠ 0 ∧ qState hostOn 2 = 2
    ∧ (let s : State := { hostOn with hartsOn := 0, palur := { up.palur with taken := true } }; alive s = true ∧ s.palur.taken = true ∧ s.rdF pErrlog 0x220 0 2 = 0 ∧ powerState s ≤ 1 ∧ s.hartsOn = 0 ∧ memHeld s .hostDie 0 (hostFw s).length = true)
    ∧ (let s : State := { regs ([(pNet, 0x14, 1), (pHostc, 0x218, 1), (pNet, 0x208, 2 ^ 32 - 1), (pNet, 0x20C, 2 ^ 16 - 1)] ++ (List.range 12).flatMap (fun n => [(pCache n, 0x14, 1), (pHbmc n, 0x14, 1)])) hostOn with hartsOn := 0, store := { up.store with banks := [none, none] } }; memHeld s .hostDie 0 (hostFw s).length = false) := by decide +kernel
theorem test_host_reset : ok .ctrlHostReset hostOn (fun t => decide (t.hartsOn = 0 ∧ qState t 2 = 4 ∧ t.rd pHostc 0x214 = 1 ∧ t.rd pQeng 0x200 = 0)) = true := by decide +kernel

def xc0 (l : List (Nat × Nat)) : State := { regs [(pNet, 0x200, 0x80000000), (pHostc, 0x218, 1)] up with xc := l, ref := 1000000 }
theorem witness_crossings : xcNum (.xc1 1 15) = some (31, pNet, 0x200, 31) ∧ xcNum (.xc4 0) = some (112, pHostc, 0x218, 0) ∧ xcNum (.xc3 11 3) = some (111, pNet, 0x20C, 15) ∧ alive (xc0 []) = true
    ∧ (xc0 []).rdB pNet 0x200 31 = true ∧ (xc0 []).xc = [] ∧ (xc0 [(31, 0)]).xc = [(31, 0)] ∧ 0 + 1000000 ≤ (xc0 [(31, 0)]).ref ∧ (xc0 [(31, 1)]).ref < 1 + 1000000 := by decide +kernel
theorem witness_crossing_ways : (∀ i, i < 160 → ((xc0 [(31, 0)]).tile i).dma.jobs = [] ∧ ((xc0 [(31, 0)]).tile i).blocks = []) ∧ ((xc0 [(112, 0)]).hart 3).wait = none ∧ (xc0 [(112, 0)]).rdF pHostc 0x218 0 16 = 1 ∧ (xc0 []).rdB pNet 0x200 30 = false := by decide +kernel
theorem test_xc_error : ok (.xcLinkError (.xc1 1 15)) (xc0 []) (fun t => decide (t.xc = [(31, 1000000)] ∧ t.rd pNet 0x210 = 1)) = true := by decide +kernel
theorem test_xc1_down : ok (.xcRetrainTimeout (.xc1 1 15)) (xc0 [(31, 0)]) (fun t => decide (t.xc = [] ∧ t.rd pNet 0x200 = 0 ∧ t.rd pNet 0x214 = 1 ∧ t.rdB pNet 0x18 9 = true ∧ t.rdB pNet 0x18 10 = true)) = true
    ∧ idle (.xcRetrainTimeout (.xc1 1 15)) (xc0 [(31, 1)]) = true := by decide +kernel

/-! Time. -/

def ann : PtpAnnounceMsg := ⟨.ether, 0x42, 0, 128, 6, 0x21, 0x4000, 128, 12500000, 100000000⟩
def ptp0 (st : Nat) (v : Ptp) : State := { regs [(pMgmt, 0x208, 1), (pMgmt, 0x14, 1), (pMgmt, 0x108, 0x200), (pTime, 0x210, st)] up with ptp := 5000, ref := 40000000, servo := v }
def sv : Ptp := { up.servo with best := some ann, sync := some (7, 4000), last := some (1000, 1600), req := some (3, 2000), announceAt := 30000000 }
theorem witness_time : portUp (ptp0 2 sv) = true ∧ ptpOn (ptp0 2 sv) .ether = true ∧ ptpOn (ptp0 2 sv) .udp4 = false ∧ (ptp0 2 sv).ref < sv.announceAt + 3 * ann.announce ∧ (ptp0 2 sv).servo.best = some ann ∧ ann.domain.toNat = (ptp0 2 sv).rdF pMgmt 0x108 0 8 ∧ (ptp0 2 sv).servo.sync = some (7, 4000)
    ∧ (ptp0 2 sv).servo.req = some (3, 2000) ∧ (ptp0 2 sv).servo.last = some (1000, 1600) ∧ (ptp0 1 up.servo).servo.best = none
    ∧ listLt (announceKey { ann with priority1 := 127, master := 9 }) (announceKey ann) = true ∧ listLt (announceKey { ann with priority1 := 129, master := 9 }) (announceKey ann) = false
    ∧ alive (ptp0 2 sv) = true ∧ timeState (ptp0 2 sv) = 2 ∧ (ptp0 2 sv).servo.lastSync + 3 * ann.interval ≤ (ptp0 2 sv).ref
    ∧ timeState (ptp0 3 sv) = 3 ∧ (ptp0 3 sv).servo.holdFrom + 100000000 * (ptp0 3 sv).rdF pTime 0x104 0 16 ≤ ({ ptp0 3 sv with ref := 6000000000 } : State).ref ∧ served (ptp0 2 sv) = true
    ∧ up.up = true ∧ up.enabled pMgmt = false ∧ up.rdB pMgmt 0x208 0 = false ∧ (regs [(pMgmt, 0x14, 1)] up).enabled pMgmt = true ∧ (ptp0 2 sv).rdB pMgmt 0x208 0 = true := by decide +kernel
theorem witness_time_ways : (∀ j, j < 16 → jobState (ptp0 1 sv) j ≠ 2) ∧ timeState (ptp0 1 sv) ≠ 0 ∧ timeState (ptp0 0 sv) = 0 ∧ (ptp0 2 sv).rdB pMgmt 0x108 8 = false ∧ (regs [(pMgmt, 0x108, 0x300)] (ptp0 2 sv)).rdB pMgmt 0x108 8 = true
    ∧ ¬ (ptp0 3 { sv with announceAt := 0 }).ref < 0 + 3 * ({ ann with announce := 10000000 } : PtpAnnounceMsg).announce ∧ (ptp0 2 sv).ref < 2 ^ 64 ∧ (ptp0 2 sv).ptp < 2 ^ 64
    ∧ (regs [(pMgmt, 0x14, 1), (pMgmt, 0x104, 0x10000)] up).rdB pMgmt 0x104 16 = true ∧ (regs [(pMgmt, 0x14, 1)] up).rdB pMgmt 0x104 16 = false := by decide +kernel
theorem test_sync_not_enabled : ok (.ptpSync ⟨.udp4, 0x42, 0, true, 8, 0, 4100⟩) (ptp0 2 sv) (fun t => decide (t.servo = sv ∧ t.rd pMgmt 0x210 = 1 ∧ t.rd pMgmt 0x214 = 1)) = true := by decide +kernel
theorem test_sync_two_step : ok (.ptpSync ⟨.ether, 0x42, 0, true, 8, 0, 4100⟩) (ptp0 2 sv) (fun t => decide (t.servo.sync = some (8, 4100) ∧ t.rd pMgmt 0x210 = 1)) = true
    ∧ ok (.ptpSync ⟨.ether, 0x43, 0, true, 8, 0, 4100⟩) (ptp0 2 sv) (fun t => decide (t.servo.sync = some (7, 4000))) = true := by decide +kernel
theorem test_first_offset_steps : ok (.ptpFollowUp ⟨.ether, 0x42, 0⟩ 7 3000) (ptp0 1 { sv with delay := 200 }) (fun t => decide (t.ptp = 4200 ∧ timeState t = 1 ∧ t.rd pTime 0x214 = 800)) = true := by decide +kernel
theorem test_delay : ok (.ptpDelayResp ⟨.ether, false, 0, 3, 0, 0⟩ 2401) (ptp0 2 sv) (fun t => decide (t.servo.delay = 500 ∧ t.servo.req = none)) = true ∧ ok (.ptpDelayResp ⟨.ether, false, 0, 4, 0, 0⟩ 2401) (ptp0 2 sv) (fun t => decide (t.servo.delay = 0)) = true := by decide +kernel
theorem test_holdover : ok .ptpSyncTimeout (ptp0 2 sv) (fun t => decide (timeState t = 3 ∧ t.rdB pTime 0x18 9 = true ∧ t.rd pTime 0x22C = 1)) = true ∧ ok .mgmtPortDown (ptp0 2 sv) (fun t => decide (timeState t = 3 ∧ t.rd pMgmt 0x208 = 0)) = true := by decide +kernel
theorem test_snap : ok .timeSnap (ptp0 2 sv) (fun t => decide (t.rd64 pTime 0x230 = 40000000 ∧ t.rd64 pTime 0x238 = 5000)) = true := by decide +kernel

/-! Issue and the engines of tile 3. -/

/-- Bytes placed in tile 3 from an offset. -/
def put (l : List (Nat × List Byte)) (s : State) : State := l.foldl (fun s x => s.twr 3 x.1 x.2) s
/-- A descriptor of `n` bytes with the fields given as offset, width and value. -/
def desc (n : Nat) (l : List (Nat × Nat × Nat)) : List Byte := toLE n (l.foldl (fun a x => a + x.2.2 % 2 ^ (8 * x.2.1) * 2 ^ (8 * x.1)) 0)
def des (n : Nat) (l : List (Nat × Nat × Nat)) : Desc := ⟨0, desc n l, 0x100, ⟨5, 7, some 0, 1⟩, [⟨0x10000, 3, 0, 0, 0, 0, 0⟩], none, false, none⟩
def iss (r : Nat) (s : State) : State := onTile (gp [(2, 0, r)]) s
def xi : TInstr := { x1 with fmt := 0, dst := 0, b := 0 }

theorem witness_issues : at0 (iss 0x17FFF80 up) xi (fun tc => decide (firstBad (checksIssue tc) = none ∧ tc.act = 0 :: [1, 31] ∧ tc.get 0 xi.a 1 % 64 = 0 ∧ tc.get 0 xi.a 1 + 128 ≤ 0x1800000)) = true
    ∧ ((iss 0x100 up).tile 3).mx.intake.length < intakeCap (iss 0x100 up) 3
    ∧ (let s := iss 0x100 (regs [(pTile 3, 0x34, 0x80000000 ||| 0), (pTile 3, 0x30, 64 * 2 ^ 24)] up); intakeCap s 3 = 1
        ∧ intakeCap s 3 ≤ ((s.modTile 3 (fun T => { T with mx := { T.mx with intake := [des 128 []] } })).tile 3).mx.intake.length)
    ∧ at0 (iss 0x17FFFC0 up) xi (fun tc => decide (0x1800000 < tc.get 0 xi.a 1 + 128)) = true ∧ at0 (iss 0x120 up) xi (fun tc => decide (tc.get 0 xi.a 1 % 64 ≠ 0)) = true := by decide +kernel
theorem test_issue_mx : ok (.issueMx g0 xi) (put [(0x100, [3, 8])] (iss 0x100 up)) (fun t => decide (((t.tile 3).mx.intake.map (fun d => (d.off, d.bytes.take 3, d.iss.cmd))) = [(0x100, [3, 8, 0], 7)] ∧ (t.tile 3).nextId = 2)) = true := by decide +kernel
theorem test_issue_unaligned : ok (.issueDma g0 xi) (iss 0x120 up) (fun t => decide ((t.tile 3).blocks = [] ∧ t.rdB (pTile 3) 0x18 8 = true)) = true
    ∧ ok (.issueVx g0 xi) (iss 0x17FFF40 up) (fun t => decide ((t.tile 3).blocks = [] ∧ (t.tile 3).vx.intake = [])) = true := by decide +kernel

/-- Every lane active; A and B in registers 8 to 15 or at 0x1000 and 0x2000, C at 0x1800000. -/
def mmaState (r : List (Nat × Nat × Nat)) : State := onTile { gp r with preds := [(1, 0xFFFFFFFF)] } up
def mmaRegs : List (Nat × Nat × Nat) := [(5, 0, 0x1800000), (6, 0, 0x1000), (7, 0, 0x2000), (8, 0, 0x0203), (8, 1, 0x01FF)]
def xmm : TInstr := { x1 with fmt := 10, dst := 0, a := 8, b := 8, c := 5, mod := 0 }
theorem witness_register_products : at0 (mmaState mmaRegs) xmm (fun tc => decide (firstBad (checksMma true true tc (mmaState mmaRegs)) = none)) = true
    ∧ at0 (mmaState mmaRegs) { xmm with b := 7 } (fun tc => decide (firstBad (checksMma true false tc (mmaState mmaRegs)) = none)) = true
    ∧ at0 (mmaState mmaRegs) { xmm with a := 6, b := 7, mod := 1 } (fun tc => decide (firstBad (checksMma false false tc (mmaState mmaRegs)) = none)) = true
    ∧ at0 (mmaState mmaRegs) { xmm with fmt := 0, a := 0, b := 0 } (fun tc => decide (firstBad (checksClr tc) = none)) = true := by decide +kernel
/-- 3·(-1) + 2·1 on 10 in INT32; the clamp at 2^31-1; 1.5·2 on 0.25 in FP32. -/
theorem test_mx_element : (mxElement 9 10 (terms 0 32 (rowOf 10 0x0203) (rowOf 10 0x01FF) [] []) false none).1 = 9
    ∧ (mxElement 9 0x7FFFFFFF (terms 0 32 (rowOf 10 1) (rowOf 10 1) [] []) false none) = (0x7FFFFFFF, ⟨1, 0, 0⟩)
    ∧ (mxElement 1 0x3E800000 (terms 0 32 (rowOf 2 0x3FC0) (rowOf 2 0x4000) [] []) false none).1 = 0x40500000 := by decide +kernel
theorem test_acc_clr_region : ok (.accClr g0 { xmm with fmt := 0, a := 0, b := 0, c := 6 }) (mmaState mmaRegs) (fun t => decide ((t.tile 3).blocks = [] ∧ t.rdF (pTile 3) 0x210 0 8 = 5)) = true := by decide +kernel

/-! The matrix engine of tile 3: an INT8 descriptor of one element, with its variants. -/

def mxF : List (Nat × Nat × Nat) := [(0, 1, 3), (1, 1, 0xAA), (4, 2, 1), (6, 2, 1), (8, 3, 2), (0xC, 4, 0x1800000), (0x10, 4, 0x1000), (0x14, 4, 64), (0x18, 4, 0x2000), (0x1C, 4, 64), (0x38, 2, 16),
  (0x3C, 2, 0x0020), (0x3E, 1, 6), (0x40, 8, 5), (0x48, 2, 0x1030), (0x4A, 1, 6), (0x50, 8, 6)]
def mxD : Desc := des 128 mxF
def mxWait : Desc := des 128 (mxF ++ [(0x58, 2, 0x1040), (0x5A, 1, 5), (0x60, 8, 3)])
def mx (f : MxEng → MxEng) : State := (put [(0x1000, [3, 2]), (0x2000, [0xFF, 4])] (thr [])).modTile 3 (fun T => { T with mx := f T.mx })
def mxJ (n d : Nat) : MxJob := ⟨mxD, n, d, false, none⟩
def mxK0 : MxBlk := ⟨0, 0, [(0x1800000, 5)], 4, 0, 0⟩

theorem witness_matrix_engine : tileOn (thr []) 3 = true ∧ mxCheck (thr []) 3 mxD = none ∧ mxD.checked = false ∧ mxWaitEn mxD = false ∧ mxWaitEn mxWait = true ∧ mxCheck (thr []) 3 mxWait = none
    ∧ mxCheck (thr []) 3 (des 128 (mxF ++ [(3, 1, 1)])) = some (0x20, 3, 0) ∧ mxCheck (thr []) 3 (des 128 [(0, 1, 4)]) = some (0x21, 0, 0)
    ∧ isHalted (thr []) 3 mxD [0] = true ∧ isHalted (thr []) 3 mxD [] = false ∧ { mxWait with checked := true }.checked = true
    ∧ mxWait.le 0x60 8 ≤ ((thr []).twr 3 (sigOff 0x40) [3]).sig 3 (mxWait.bf 0x58 0 12) ∧ (thr []).sig 3 (mxWait.bf 0x58 0 12) < mxWait.le 0x60 8 := by decide +kernel
theorem witness_matrix_blocks : (let s := mx (fun e => { e with jobs := [mxJ 0 0] }); (s.tile 3).mx.arr 1 = none ∧ mxNextJob (s.tile 3).mx = some (mxJ 0 0) ∧ mxHazard (s.tile 3).mx mxD 0 = false ∧ mxRaw s 3 mxD 0 = none
      ∧ mxHazard { jobs := [⟨{ mxD with uid := 9 }, 1, 0, false, none⟩, mxJ 0 0], intake := [], arr0 := some { mxK0 with uid := 9 }, arr1 := none, halted := [] } mxD 0 = true)
    ∧ mxK0.out.Pairwise (fun x y => x.1 + mxK0.size ≤ y.1 ∨ y.1 + mxK0.size ≤ x.1)
    ∧ [mxJ 1 0].find? (fun j => !j.rdSent && j.fail.isNone && decide (j.next = mxBlocks j.d)) = some (mxJ 1 0) ∧ (mxJ 1 1).done = mxBlocks (mxJ 1 1).d ∧ (mxJ 1 1).rdSent = false := by decide +kernel
theorem test_mx_check : ok (.mxDescCheck 3) (mx (fun e => { e with intake := [mxD] })) (fun t => decide ((t.tile 3).mx.intake = [] ∧ (t.tile 3).mx.jobs = [mxJ 0 0])) = true
    ∧ ok (.mxDescCheck 3) (mx (fun e => { e with intake := [des 128 (mxF ++ [(3, 1, 1)])] })) (fun t => decide ((t.tile 3).mx.jobs.map (·.fail) = [some 0x20] ∧ t.rd (pTile 3) 0x410 = 0x80000020 ∧ t.rd (pTile 3) 0x424 = 3 ∧ t.rd (pTile 3) 0x414 = 0x100)) = true := by
  decide +kernel
theorem test_mx_block : ok (.mxBlockStart 3 0) (mx (fun e => { e with jobs := [mxJ 0 0] })) (fun t => decide ((t.tile 3).mx.arr0 = some mxK0 ∧ (t.tile 3).mx.jobs = [mxJ 1 0])) = true
    ∧ ok (.mxBlockDone 3 0) (mx (fun e => { e with jobs := [mxJ 1 0], arr0 := some mxK0 })) (fun t => decide (t.tnat 3 0x1800000 4 = 5 ∧ t.rd (pTile 3) 0x408 = 1 ∧ (t.tile 3).mx.jobs = [mxJ 1 1])) = true := by decide +kernel
theorem test_mx_signals : ok (.mxOperandsRead 3) (mx (fun e => { e with jobs := [mxJ 1 0] })) (fun t => decide (t.sig 3 0x30 = 6 ∧ t.sig 3 0x20 = 0)) = true
    ∧ ok (.mxCompletion 3) (mx (fun e => { e with jobs := [{ mxJ 1 1 with rdSent := true, fail := some 0x23 }] })) (fun t => decide (t.sig 3 0x20 = 2 ^ 63 + 5 ∧ t.sig 3 0x30 = 0 ∧ t.rd (pTile 3) 0x404 = 1)) = true := by decide +kernel
theorem test_mx_wait : idle (.mxWaitSatisfied 3) (mx (fun e => { e with intake := [{ mxWait with checked := true }] })) = true
    ∧ ok (.mxWaitSatisfied 3) ((mx (fun e => { e with intake := [{ mxWait with checked := true }] })).twr 3 (sigOff 0x40) [3]) (fun t => decide ((t.tile 3).mx.intake = [] ∧ (t.tile 3).mx.jobs.length = 1)) = true := by decide +kernel

/-! Launches and the watchdog. -/

def arr (l : List Nat) : Arrive := ⟨7, 5, 2, 1, 8, l.map (BitVec.ofNat 8) ++ List.replicate 64 0, []⟩
/-- 3 blocks of 2 groups with 16 registers, entry 0x40. -/
def arr1 : Arrive := arr [3, 0, 2, 2, 0, 0, 0, 0, 0x40, 0, 0, 0, 0, 4, 0, 0]
def L1 : Launch := ⟨11, 7, 5, 3, 2, 16, 8, 0x40, 4, [], [], 0, 0, 0, 0⟩
def launch (l : List Launch) (s : State) : State := s.setTile 3 { Tile.init with launches := l, nextId := 20 }
def tOn (l : List (Page × Nat × Nat)) : State := regs ([(pTile 3, 0x14, 1), (pTile 3, 0x10, 0x11), (pTile 3, 0x608, 2), (pTile 3, 0x2C, 2), (pTile 3, 0x28, 1)] ++ l) up
def arrived (a : Arrive) (s : State) : State := s.setTile 3 { Tile.init with arriving := [a] }
def pen : Pennant := ⟨5, [3], 1, 100, 1, 3, 9⟩
def heavyP (h : Int) (l : List Launch) : State :=
  { launch l (tOn [(pPower, 0x108, 1 + 4 * 2 ^ 8 + 100 * 2 ^ 16)]) with pennants := [pen], headroom := fset (fun _ => 0) [] 0 h }
/-- A block of one group whose first lane came to barrier 2 at time 0 under a limit of 100, the rest running. -/
def blk1 (k : List Park) : Block := ⟨0, la, 1, [{ gp [] with parked := k, run := some ⟨0xFFFFFFFE, 0x40, []⟩ }], [⟨[], none, 0, false, [], []⟩, ⟨[], none, 0, false, [], []⟩, ⟨[(0, 1)], some 0, 100, false, [(0, 0x38)], []⟩]⟩
def parkW : Park := ⟨⟨1, 0x30, []⟩, .wait 4 5 [⟨0, 0x40, 0, 3, none⟩], 0, 100, false⟩
def stall (act : Nat) (now : Nat) : State :=
  { (tOn [(pTile 3, 0x104, act)]).setTile 3 { Tile.init with blocks := [blk1 [parkW]], nextId := 1 } with ref := now }
def L2 : Launch := { L1 with uid := 12, queue := 6 }
def lateL : Launch := { L1 with nregs := 1024, groups := 32, uid := 13, stuck := 0 }
theorem witness_launches : ((arrived arr1 (tOn [])).tile 3).arriving = arr1 :: [] ∧ alive (tOn []) = true ∧ tilePowered (tOn []) 3 = true ∧ boundUnder (tOn []) (pTile 3) 2 1 = true
    ∧ boundUnder (tOn []) (pTile 3) 2 9 = false ∧ launchBad { arr1 with extents := la.extents } = false ∧ launchBad arr1 = true ∧ tilePowered (tOn [(pDie 0, 0x14, 0x10000)]) 3 = false
    ∧ (let T := (launch [L1, L2] (tOn [])).tile 3; tileOn (tOn []) 3 = true ∧ T.launches = L1 :: [L2] ∧ T.launches.filter (launchFits T) = L1 :: [L2] ∧ launchFits T L1 = true) := by decide +kernel
theorem witness_launch_order : (let T := { Tile.init with launches := [lateL, L2], blocks := [⟨0, { lateL with uid := 9 }, 1, (List.range 33).map (fun c => { gp [] with core := c }), bars0⟩] }; launchFits T lateL = false ∧ lateL.stuck + 10000 ≤ ({ up with ref := 10000 } : State).ref
      ∧ T.launches.filter (launchFits T) = L2 :: [] ∧ ({ up with ref := 9999 } : State).ref < lateL.stuck + 10000)
    ∧ up.rdB pPower 0x108 0 = false ∧ (let s := heavyP 5000 [L1, L2]; s.rdB pPower 0x108 0 = true ∧ L1.bypass < s.rdF pPower 0x108 8 8 ∧ s.ref < L1.since + 1000 * s.rdF pPower 0x108 16 16
      ∧ heavyOf s 3 L1 = some pen ∧ fget (fun _ => 0) s.headroom (dieOf 3) < pennantDraw pen ∧ [L1, L2].find? (fun y => (heavyOf s 3 y).isNone) = some L2 ∧ L2.uid ≠ L1.uid) := by decide +kernel
theorem test_delivery : ok (.launchDelivery 3) (arrived { arr1 with extents := la.extents } (tOn [])) (fun t => decide ((t.tile 3).launches = [⟨0, 7, 5, 3, 2, 16, 8, 0x40, 4, List.replicate 64 0, la.extents, 0, 0, 0, 0⟩])) = true
    ∧ ok (.launchDelivery 3) (arrived { arr1 with gen := 3 } (tOn [])) (fun t => decide ((t.tile 3).launches = [] ∧ (t.tile 3).arriving = [] ∧ t.rd (pTile 3) 0x1C = 0)) = true := by decide +kernel
theorem test_block_start : ok (.blockStart 3 false) (launch [L1, L2] (tOn [])) (fun t => decide ((t.tile 3).blocks.map (fun b => (b.index, b.groups.map (·.run))) = [(8, [some ⟨2 ^ 32 - 1, 0x40, []⟩, some ⟨2 ^ 32 - 1, 0x40, []⟩])] ∧ (t.tile 3).launches.map (·.started) = [1, 0])) = true
    ∧ ok (.blockStart 3 true) (heavyP 5000 [L1, L2]) (fun t => decide ((t.tile 3).launches.map (fun l => (l.started, l.bypass)) = [(0, 1), (1, 0)])) = true := by decide +kernel

theorem witness_watchdog : (let s := stall 4 100; tileOn s 3 = true ∧ (s.tile 3).block 0 = some (blk1 [parkW]) ∧ (blk1 [parkW]).bars[2]? = some ⟨[(0, 1)], some 0, 100, false, [(0, 0x38)], []⟩ ∧ 0 + 100 ≤ s.ref
      ∧ s.rdB (pTile 3) 0x104 0 = false ∧ s.rdB (pTile 3) 0x240 31 = false ∧ (blk1 [parkW]).groups[0]? = some { gp [] with parked := [parkW], run := some ⟨0xFFFFFFFE, 0x40, []⟩ } ∧ parkW.ok = false
      ∧ s.rdB (pTile 3) 0x104 2 = true ∧ parkW.since + parkW.limit ≤ s.ref ∧ s.rdB (pTile 3) 0x104 1 = false)
    ∧ (stall 7 100).rdB (pTile 3) 0x104 0 = true ∧ (stall 7 100).rdB (pTile 3) 0x104 1 = true
    ∧ engWaitLate (stall 4 100) { mxWait with checked := true, wait := some (0, 100) } = true := by decide +kernel
theorem test_watchdog : ok (.watchdogExpiry 3 (.wait 0 0 0)) (stall 4 100) (fun t => decide (t.rd (pTile 3) 0x240 = 8 + 2 ^ 31 ∧ t.rd (pTile 3) 0x248 = 0x40 ∧ t.rd (pTile 3) 0x300 = 1 ∧ t.rdB (pTile 3) 0x18 10 = true ∧ (t.tile 3).blocks.length = 1)) = true
    ∧ idle (.watchdogExpiry 3 (.wait 0 0 0)) (stall 4 99) = true := by decide +kernel
theorem test_watchdog_barrier : ok (.watchdogExpiry 3 (.barrier 0 2)) (stall 5 100) (fun t => decide ((t.tile 3).blocks = [] ∧ t.rdF (pTile 3) 0x210 0 8 = 0x13 ∧ t.rd (pTile 3) 0x380 = 0xFFFFFFFE)) = true := by decide +kernel

/-! The vector engine of tile 3: FP32 elements at 0x1000, negated, to 0x2000. -/

def vxF : List (Nat × Nat × Nat) := [(0, 1, 3), (1, 1, 0x11), (4, 2, 2), (0x10, 2, 0x20), (0x12, 1, 6), (0x18, 8, 5), (0x30, 2, 0x1030), (0x32, 1, 6), (0x38, 8, 6), (0x40, 1, 8),
  (0x80, 4, 0x1000), (0x84, 1, 0x11), (0x9C, 4, 0x3F800000), (0xE0, 4, 0x2000), (0xE4, 1, 1), (0xFC, 4, 0x3F800000)]
def vxD : Desc := des 256 vxF
def vxW : Desc := des 256 (vxF ++ [(0x14, 2, 0x1040), (0x16, 1, 5), (0x20, 8, 3)])
def vxM : Desc := des 256 (vxF.filter (fun x => decide (x.1 ≠ 0x40)) ++ [(0x40, 4, 0x26 + 2 ^ 17)])
def vx (f : VxEng → VxEng) : State := (put [(0x1000, [0, 0, 0xC0, 0x3F, 0, 0, 0x80, 0xBF])] (thr [])).modTile 3 (fun T => { T with vx := f T.vx })
def vxJ : VxJob := ⟨vxD, false, 0, [], 0, 0, [], false, false, none, [], []⟩

theorem witness_vector_engine : mxWaitEn vxD = false ∧ vxCheck (thr []) 3 vxD = none ∧ vxWaitEn vxD = false ∧ vxCheck (thr []) 3 vxW = none ∧ vxWaitEn vxW = true ∧ isHalted (thr []) 3 vxD [0] = true
    ∧ vxCheck (thr []) 3 (des 256 (vxF ++ [(0x13, 1, 1)])) = some (0x25, 0x13, 0) ∧ vxW.le 0x20 8 ≤ ((thr []).twr 3 (sigOff 0x40) [3]).sig 3 (vxW.bf 0x14 0 12) ∧ (thr []).sig 3 (vxW.bf 0x14 0 12) < vxW.le 0x20 8
    ∧ vxRunning ⟨[], [vxJ], []⟩ = some vxJ ∧ vxOpen vxD = false ∧ 0 < vxDim vxD 0 ∧ vxHist vxD = false ∧ vxRaw (thr []) 3 vxJ = none ∧ vxRaw { thr [] with traw := [(3 * 2 ^ 32 + 0x1000) / 64] } 3 vxJ = some 0x1000
    ∧ [{ vxJ with snap := true }].find? (fun j => !j.rdSent && j.fail.isNone && vxAllRead (thr []) 3 j) = some { vxJ with snap := true } ∧ vxReduce vxD = none ∧ strMx vxD 3 = false
    ∧ 1 < vxTotal vxD ∧ (vxElement (vx id) (vx id) 3 vxD 1).2.2 = true ∧ (3 : Nat) < 2 ^ 4 := by decide +kernel
def vxK : VxJob := { vxJ with d := { vxD with uid := 4 } }
theorem witness_vector_halt : (let s : State := { regs [(pTile 3, 0x110, 4)] (vx (fun e => { e with jobs := [vxJ, vxK] })) with traw := [(3 * 2 ^ 32 + 0x1000) / 64] };
    vxRunning (s.tile 3).vx = some vxJ ∧ vxRaw s 3 vxJ = some 0x1000 ∧ vxK ∈ (s.tile 3).vx.jobs ∧ vxK ≠ vxJ ∧ vxK.snap = false ∧ vxK.fail = none ∧ s.rdB (pTile 3) 0x110 2 = true ∧ vxD.iss.blk = some 0 ∧ vxK.d.iss.blk = some 0
      ∧ issuerLives s 3 vxD = true ∧ issuerLives s 3 vxK.d = true ∧ (∀ y ∈ (s.tile 3).vx.jobs, y.d.uid = vxK.d.uid → y = vxK)) := by decide +kernel
theorem test_vx_vector : ok (.vxVector 3) (vx (fun e => { e with jobs := [vxJ] })) (fun t => decide (t.tnat 3 0x2000 8 = 0x3F800000BFC00000 ∧ t.rd (pTile 3) 0x488 = 2 ∧ (t.tile 3).vx.jobs.map (·.fin) = [true])) = true := by decide +kernel
theorem test_vx_completion : ok (.vxCompletion 3) (vx (fun e => { e with jobs := [{ vxJ with fin := true, empty := 1, rdSent := true }] })) (fun t => decide (t.sig 3 0x20 = 2 ^ 62 + 5 ∧ t.rd (pTile 3) 0x484 = 1 ∧ (t.tile 3).vx.jobs = [])) = true
    ∧ ok (.vxInputsRead 3) (vx (fun e => { e with jobs := [{ vxJ with snap := true }] })) (fun t => decide (t.sig 3 0x30 = 6)) = true := by decide +kernel
theorem test_vx_check : ok (.vxDescCheck 3) (vx (fun e => { e with intake := [des 256 (vxF ++ [(0x13, 1, 1)])] })) (fun t => decide ((t.tile 3).vx.intake = [] ∧ t.rd (pTile 3) 0x490 = 0x80000025)) = true
    ∧ idle (.vxWaitSatisfied 3) (vx (fun e => { e with intake := [{ vxW with checked := true }] })) = true := by decide +kernel
theorem test_vx_reduce : ok (.vxVector 3) (vx (fun e => { e with jobs := [{ vxJ with d := des 256 (vxF.filter (fun x => decide (x.1 ≠ 0x40)) ++ [(0x40, 4, 0x40 + 2 ^ 18)]) }] })) (fun t => decide (t.tnat 3 0x2000 4 = 0x3F000000 ∧ t.rd (pTile 3) 0x488 = 1)) = true := by decide +kernel

/-! The tile DMA engine of tile 3: 100 bytes from 0x1000 to 0x2010. -/

def dmF : List (Nat × Nat × Nat) := [(0, 1, 3), (4, 3, 100), (8, 2, 1), (0xA, 2, 1), (0x10, 2, 0x20), (0x12, 1, 6), (0x14, 4, 0x77), (0x18, 8, 5), (0x20, 8, 0x1000), (0x28, 8, 0x2010), (0x5C, 2, 0x1030), (0x5E, 1, 6), (0x68, 8, 6)]
def dmD (l : List (Nat × Nat × Nat)) : Desc := des 128 (dmF.filter (fun x => !(l.map (·.1)).contains x.1) ++ l)
def dm (f : DmaEng → DmaEng) (s : State) : State := (put [(0x1000, (List.range 100).map (BitVec.ofNat 8))] s).modTile 3 (fun T => { T with dma := f T.dma })
def dmJ (d : Desc) : DmaJob := ⟨d, some 2, 0, [], 0, 1000, false, false, 2, none, none⟩
def dmJob (j : DmaJob) : State := dm (fun e => { e with jobs := [j] }) (thr [])
def dmDone : DmaJob := { dmJ (dmD []) with pos := 100 }
/-- A signal of 9 to word 0x50 of tile 4 at the end, scope tile. -/
def dmSig : Desc := dmD [(0x70, 4, 1 + 6 * 2 ^ 8 + 0x50 * 2 ^ 16), (0x74, 1, 4), (0x78, 8, 9)]
def dmFar : Desc := dmD [(0x70, 4, 2 + 6 * 2 ^ 8 + 0x50 * 2 ^ 16), (0x74, 1, 4), (0x78, 8, 9), (0xC, 2, 8)]
/-- Global destination: extent 0 of the issuer, at the address given; writes leave by connection 8. -/
def dmOut (a : Nat) : Desc := { dmD [(3, 1, 1), (0xC, 2, 8), (0x28, 8, 0)] with extents := [⟨0x10000, 3, 0, 0, a, 0, 0⟩] }
def conn8 (st : Nat) (s : State) : State := regs [(pConn 8, 0x14, st * 2 ^ 16), (pConn 8, 0x108, 9), (pConn 8, 0x608, 2)] s

theorem witness_dma_intake : dmaCheck (thr []) 3 (dmD []) = none ∧ dmaCheck (thr []) 3 (dmD [(7, 1, 1)]) = some (0x29, 7, 0, 0) ∧ isHalted (thr []) 3 (dmD []) [0] = true ∧ isHalted (thr []) 3 (dmD []) [] = false
    ∧ (dmD [(0x60, 8, 3), (0x58, 2, 0x1040)]).le 0x60 8 ≤ ((thr []).twr 3 (sigOff 0x40) [3]).sig 3 0x40 ∧ (thr []).sig 3 0x40 < 3
    ∧ (let T := ((dmJob (dmJ (dmD []))).tile 3); T.dma.inSlot 2 = some (dmJ (dmD [])) ∧ T.dma.inSlot 0 = none ∧ (∀ j ∈ T.dma.jobs, j.d.uid ≠ 9))
    ∧ (dmJ (dmD [])).moved = false ∧ (dmJ (dmD [])).since + (dmJ (dmD [])).limit ≤ ({ thr [] with ref := 1000 } : State).ref := by decide +kernel
def isOk {α : Type} (x : Except (Nat × Nat × Nat) α) (p : α → Bool) : Bool := match x with | .ok a => p a | .error _ => false
theorem witness_dma_access : pTile 3 ∉ (thr []).stalls ∧ (0 : Nat) < dmaTotal (dmD []) ∧ isOk (dmaChunk (thr []) (dmD []) 0) (fun x => decide (x = (⟨0, 48, 0, 0x2010⟩, [⟨0, 48, 0, 0x1000⟩]))) = true
    ∧ dmaHeld (thr []) [dmJ (dmD [(0x28, 8, 0x1020)])] [⟨0, 48, 0, 0x1000⟩] [⟨0, 48, 0, 0x2010⟩] = true ∧ dmaHeld (thr []) [] [⟨0, 48, 0, 0x1000⟩] [⟨0, 48, 0, 0x2010⟩] = false
    ∧ (match dmaReadAll { thr [] with traw := [(3 * 2 ^ 32 + 0x1000) / 64] } 3 [⟨0, 48, 0, 0x1000⟩] with | .error e => decide (e = (0x23, 0x1000, 0)) | .ok _ => false) = true
    ∧ (match dmaReadAll (thr []) 3 [⟨0, 48, 0, 0x1000⟩] with | .ok b => decide (b.length = 48) | .error _ => false) = true := by decide +kernel
theorem witness_dma_remote : isOk (dmaChunk (withHbm (thr [])) (dmOut (0x42 * 2 ^ 40 + 0x4000)) 0) (fun x => decide (x.1.sp = 1)) = true ∧ memHeld (withHbm (thr [])) (.dma 3) 0x4000 64 = false ∧ memFault (withHbm (thr [])) 0x4000 64 = none
    ∧ isOk (dmaChunk (withHbm (thr [])) (dmOut (9 * 2 ^ 40)) 0) (fun x => decide (x = (⟨0, 100, 2, 9 * 2 ^ 40⟩, [⟨0, 100, 0, 0x1000⟩]))) = true
    ∧ dmaRemoteBad (conn8 3 (thr [])) 3 (dmOut (9 * 2 ^ 40)) ⟨0, 100, 2, 9 * 2 ^ 40⟩ [] = none ∧ dmaRemoteBad (thr []) 3 (dmOut (9 * 2 ^ 40)) ⟨0, 100, 2, 9 * 2 ^ 40⟩ [] = some (0x2A, 0xC)
    ∧ connState (conn8 3 (thr [])) (dmaConn (dmOut 0)) = 3 ∧ connState (thr []) 8 ≠ 3 ∧ 0 + 100 ≤ (dmJ (dmOut 0)).low / 128 * 128 + 2 ^ 20 ∧ memHeld { withHbm (thr []) with mem := { (withHbm (thr [])).mem with phyLost := [(0, 0), (1, 0), (2, 0), (3, 0), (4, 0), (5, 0), (6, 0), (7, 0), (8, 0), (9, 0), (10, 0), (11, 0)] } } (.dma 3) 0x4000 64 = true := by decide +kernel
theorem witness_dma_end : dmDone.readAll = true ∧ dmDone.rdSent = false ∧ dmDone.moved = true ∧ dmDone.sig = 2 ∧ ({ dmDone with d := dmSig, sig := 0 } : DmaJob).moved = true ∧ dmaSigDst dmSig = 1 ∧ ordScope (dmSig.le 0x71 1) ≠ 4
    ∧ boundTo (regs [(pTile 4, 0x608, 2)] (thr [])) (pTile (dmSig.le 0x74 1)) ((thr []).rd (pTile 3) 0x2C) = true ∧ boundTo (thr []) (pTile (dmSig.le 0x74 1)) ((thr []).rd (pTile 3) 0x2C) = false ∧ dmSig.le 0x74 1 < 160
    ∧ dmaSigDst dmFar = 2 ∧ dmaConnLive (conn8 3 (thr [])) 3 dmFar = true ∧ dmaEarlierDone (dmJob { dmDone with d := dmFar, sig := 0 }) 3 { dmDone with d := dmFar, sig := 0 } 4 = true ∧ dmaLost (dmJob dmDone) 3 dmFar = none ∧ dmaEarlierDone (dm (fun e => { e with jobs := [{ dmJ (dmD []) with slot := some 1, d := { dmD [] with uid := 9 } }, dmDone] }) (thr [])) 3 dmDone 1 = false
    ∧ dmaLost (dm (fun e => { e with jobs := [dmDone], lost := [(0, 0x12)] }) (thr [])) 3 { dmFar with iss := { dmFar.iss with blk := some 0 } } = some 0x12 ∧ connState (conn8 3 (thr [])) (dmaConn dmFar) = 3 := by decide +kernel
theorem test_dma_slot : ok (.dmaSlotStart 3) (dm (fun e => { e with intake := [{ dmD [] with checked := true, uid := 9 }], jobs := [{ dmJ (dmD []) with slot := some 0 }] }) (thr [])) (fun t =>
    decide ((t.tile 3).dma.jobs.map (·.slot) = [some 0, some 1] ∧ t.rd (pTile 3) 0x524 = 0x100 ∧ t.rd (pTile 3) 0x528 = 0x50001 ∧ t.rd (pTile 3) 0x52C = 0x77)) = true := by decide +kernel
theorem test_dma_access : ok (.dmaAccessPerformed 3 2) (dmJob (dmJ (dmD []))) (fun t => decide (t.tnat 3 0x2010 4 = 0x03020100 ∧ t.tb 3 0x203F = 47 ∧ t.tb 3 0x2040 = 0 ∧ (t.tile 3).dma.jobs.map (·.pos) = [48])) = true
    ∧ ok (.dmaAccessPerformed 3 2) (dmJob { dmJ (dmD [(1, 1, 1), (0x50, 8, 0x0807060504030201)]) with pos := 48 }) (fun t => decide (t.tnat 3 0x2040 4 = 0x04030201 ∧ (t.tile 3).dma.jobs.map (·.pos) = [100])) = true := by decide +kernel
theorem test_dma_end : ok (.dmaCompletion 3) (dmJob dmDone) (fun t => decide (t.sig 3 0x20 = 5 ∧ t.sig 3 0x30 = 6 ∧ t.rd (pTile 3) 0x504 = 1 ∧ (t.tile 3).dma.jobs = [])) = true
    ∧ idle (.dmaCompletion 3) (dmJob (dmJ (dmD []))) = true := by decide +kernel
theorem test_dma_signal : ok (.dmaSignalSend 3 2) (regs [(pTile 4, 0x608, 2)] (dmJob { dmDone with d := dmSig, sig := 0 })) (fun t => decide (t.sig 4 0x50 = 9 ∧ (t.tile 3).dma.jobs.map (·.sig) = [2])) = true := by decide +kernel
theorem test_dma_stall : ok (.dmaStallReport 3 2 3) { dmJob (dmJ (dmD [])) with ref := 1000 } (fun t => decide (t.rdF (pTile 3) 0x538 1 4 = 7 ∧ t.rd (pTile 3) 0x508 = 1 ∧ t.rdB (pTile 3) 0x18 19 = true)) = true
    ∧ idle (.dmaStallReport 3 2 3) { dmJob (dmJ (dmD [])) with ref := 999 } = true := by decide +kernel

/-! The register window. -/

def win (l : List (Page × Nat × Nat)) (w : Option (Nat × Option Nat × Bool)) : State := (put [(0x1008, [1, 2, 3, 4, 5, 6, 7, 8])] (regs ([(pTile 3, 0x10, 0x11), (pTile 3, 0x580, 0x1008), (pTile 3, 0x590, 0x55), (pTile 3, 0x584, 4)] ++ l) { up with palur := { up.palur with debug := 1 } })).modTile 3 (fun T => { T with win := w })
theorem witness_window : reached up (pTile 3) = true ∧ winPermitted (win [(pTile 3, 0x608, 2), (pTile 3, 0x14, 1)] none) 3 = false ∧ winPermitted (win [] none) 3 = true ∧ tilePowered (win [] none) 3 = true ∧ tilePowered (win [(pDie 0, 0x14, 0x10000)] none) 3 = false
    ∧ winPermitted (win [(pDie 0, 0x14, 0x10000)] none) 3 = true ∧ winAddrOk 0x1008 = true ∧ winAddrOk 0x1009 = false ∧ winAddrOk 0x19FFFF8 = true ∧ winAddrOk 0x1A07FF8 = true ∧ winAddrOk 0x1A08000 = false
    ∧ trawIn { up with traw := [(3 * 2 ^ 32 + 0x1000) / 64] } 3 0x1008 8 ≠ none ∧ trawIn up 3 0x1008 8 = none := by decide +kernel
theorem test_window_read : ok (.winRead 3 true) (win [] none) (fun t => decide ((t.tile 3).win = some (0, some 0x0807060504030201, true) ∧ t.rd (pTile 3) 0x588 % 2 = 1)) = true
    ∧ ok (.winRead 3 true) (win [(pTile 3, 0x588, 1)] (some (0, none, true))) (fun t => decide (t.rdF (pTile 3) 0x588 1 3 = 5 ∧ t.rdB (pTile 3) 0x18 20 = true)) = true := by decide +kernel
theorem test_window_write : ok (.winWrite 3 false) (win [] none) (fun t => decide (t.tnat 3 0x1008 8 = 0x55 ∧ t.tb 3 0x1010 = 0)) = true := by decide +kernel
theorem test_window_end : ok (.winOpEnd 3) (win [(pTile 3, 0x588, 1)] (some (0, some 0x0807060504030201, true))) (fun t => decide (t.rd64 (pTile 3) 0x590 = 0x0807060504030201 ∧ t.rd (pTile 3) 0x580 = 0x1010 ∧ t.rd (pTile 3) 0x588 = 0 ∧ (t.tile 3).win = none)) = true
    ∧ ok (.winOpEnd 3) (win [(pTile 3, 0x588, 1)] (some (3, none, true))) (fun t => decide (t.rd (pTile 3) 0x580 = 0x1008 ∧ t.rd (pTile 3) 0x588 = 6)) = true := by decide +kernel

/-! Queue 2 with a ring of 16 slots at 0x10000 and a completion ring of 16 records at 0x20000, armed, one command posted. -/

def pq : Page := pQueue 2
def qs0 (l : List (Page × Nat × Nat)) (s : State) : State :=
  regs ([(pQeng, 0x14, 1), (pq, 0x10, 0x11), (pq, 0x14, 0x20001), (pq, 0x104, 1 + 3 * 4 + 4 * 2 ^ 8 + 4 * 2 ^ 16), (pq, 0x108, 0x10000), (pq, 0x110, 0x20000), (pq, 0x200, 1), (pq, 0x608, 2), (pq, 0x124, 8)] ++ l) (withHbm s)
def cmdB (l : List (Nat × Nat × Nat)) : List Byte := desc 64 ([(0, 1, 3), (8, 8, 0xAB), (62, 2, 0xFFFF)] ++ l)
def ring (b : List Byte) (l : List (Page × Nat × Nat)) : State := (qs0 l up).hwr 0x10000 b
def nop : List Byte := cmdB [(1, 1, 9)]

theorem witness_queue_control : served up = true ∧ qState up 2 = 0 ∧ qState (qs0 [(pq, 0x14, 0x50001)] up) 2 = 5 ∧ up.quarantined pq = false ∧ qState (qs0 [] up) 2 = 2
    ∧ (qs0 [] up).rd pq 0x200 = 1 ∧ (qs0 [] up).rd pq 0x204 = 0 ∧ qEntries (qs0 [] up) 2 = 16 ∧ diff32 1 1 = 0 ∧ 2 ^ 31 ≤ diff32 0 1 ∧ 2 ^ 31 ≤ diff32 (2 ^ 31 + 1) 1 ∧ diff32 16 0 ≤ 16 ∧ 1 ≤ diff32 16 1 ∧ diff32 (2 ^ 31) 1 < 2 ^ 31
    ∧ 16 < diff32 17 0 ∧ (qs0 [] up).rdB pq 0x220 31 = false
    ∧ ({ qs0 [] up with mem := { up.mem with watch := [(2, 0x100)], dbWritten := [2] } } : State).mem.watch.find? (fun w => decide (w.1 = 2)) = some (2, 0x100) ∧ memHeld (qs0 [] up) .qeng 0x4000 4 = false ∧ memFault (qs0 [] up) 0x4000 4 = none
    ∧ qState (qs0 [(pq, 0x14, 0x30001)] up) 2 = 3 ∧ (qs0 [] up).rdB pq 0x10 0 = true ∧ (qs0 [] up).swapPending pq = false ∧ 1 ≤ diff32 1 0 ∧ ¬ (1 ≤ diff32 0 0) ∧ ¬ diff32 0 1 ≤ 2 ^ 31 := by decide +kernel
theorem test_doorbell : ok (.doorbell 2 16) (qs0 [] up) (fun t => decide (t.rd pq 0x200 = 16 ∧ t.rd pq 0x21C = 0)) = true ∧ ok (.doorbell 2 17) (qs0 [] up) (fun t => decide (t.rd pq 0x200 = 1 ∧ qState t 2 = 3 ∧ t.rd pq 0x220 = 0x80000037)) = true := by decide +kernel
theorem test_arm : ok (.queueArm 2) (qs0 [(pq, 0x14, 0x30001), (pq, 0x210, 5)] up) (fun t => decide (qState t 2 = 2 ∧ t.rd pq 0x204 = 5 ∧ t.rd pq 0x200 = 5 ∧ t.rd pQeng 0x200 = 1)) = true ∧ ok (.queueArm 2) (qs0 [] up) (fun t => flagged (qs0 [] up) t [] pq 14) = true := by decide +kernel
theorem test_stop : ok (.queueStop 2) (qs0 [(pQeng, 0x200, 1)] up) (fun t => decide (qState t 2 = 3 ∧ t.rd pQeng 0x200 = 0)) = true ∧ idle (.queueStop 2) (qs0 [(pq, 0x14, 0x40001)] up) = true := by decide +kernel
theorem test_cq_head : ok (.cqHeadWrite 2 4) (qs0 [(pq, 0x20C, 4)] up) (fun t => decide (t.rd pq 0x208 = 4)) = true ∧ ok (.cqHeadWrite 2 5) (qs0 [(pq, 0x20C, 4)] up) (fun t => flagged (qs0 [(pq, 0x20C, 4)] up) t [] pq 2) = true := by decide +kernel

/-- What the fetch of a command meets when it is fit: the queue's turn, no fetch in progress, its slot served and readable, its bytes as placed. -/
def fit (s : State) (b : List Byte) : Bool :=
  fetchOn s 2 && fetchIsNext s 2 && (s.q 2).torn.isNone && (s.q 2).held.isNone && !s.stalls.contains pXlat && !ringHeld s 2
  && decide ((readCmd { s with fetchTurn := 2 } 2).2 = some b)
/-- A fetch that reads `b` leaves some state. -/
theorem reads {x : State × Option (List Byte)} {b : List Byte} (h : x.2 = some b) : ∃ r, x = (r, some b) := ⟨x.1, by rw [← h]⟩
theorem fit_reads {s : State} {b : List Byte} (h : fit s b = true) : ∃ r, readCmd { s with fetchTurn := 2 } 2 = (r, some b) := by
  simp only [fit, Bool.and_eq_true, decide_eq_true_eq] at h
  exact reads h.2
theorem witness_fetch : fit (ring nop []) nop = true ∧ sealOk nop 0 false = true ∧ firstCmdBad nop = none ∧ cmdTiles nop = [] ∧ cmdAddrs nop = [] ∧ cmdLe nop 4 4 = (ring nop []).rd pq 0x28
    ∧ (∃ r, readCmd { ring nop [] with fetchTurn := 2 } 2 = (r, some nop)) ∧ (let s := { ring nop [(pQueue 9, 0x10, 0x11), (pQueue 9, 0x14, 0x20001), (pQueue 9, 0x104, 1 + 3 * 4 + 4 * 2 ^ 8 + 4 * 2 ^ 16), (pQueue 9, 0x200, 1)] with bind := { up.bind with bound := [pq, pQueue 9] } }; fetchOn s 9 = true ∧ fetchIsNext s 9 = false) := by
  have h : fit (ring nop []) nop = true := by decide +kernel
  exact ⟨h, by decide +kernel, by decide +kernel, by decide +kernel, by decide +kernel, by decide +kernel, fit_reads h, by decide +kernel⟩
theorem witness_fetch_checks : fit (ring (cmdB [(1, 1, 9), (56, 4, 1)]) []) (cmdB [(1, 1, 9), (56, 4, 1)]) = true ∧ sealOk (cmdB [(1, 1, 9), (56, 4, 1)]) 0 false = false
    ∧ fit (ring nop [(pq, 0x104, 1 + 2 * 4 + 4 * 2 ^ 8 + 4 * 2 ^ 16)]) nop = true ∧ (ring nop [(pq, 0x104, 1 + 2 * 4 + 4 * 2 ^ 8 + 4 * 2 ^ 16)]).rdF pq 0x104 2 2 < cmdLe nop 0 1
    ∧ firstCmdBad (cmdB [(1, 1, 9), (3, 1, 7)]) = some (0x32, 3) ∧ firstCmdBad (cmdB [(1, 1, 9), (0x20, 1, 7)]) = none ∧ fit (ring nop [(pq, 0x28, 4)]) nop = true ∧ cmdLe nop 4 4 ≠ (ring nop [(pq, 0x28, 4)]).rd pq 0x28
    ∧ firstCmdBad (cmdB [(1, 1, 4), (0x10, 1, 3), (0x12, 1, 6)]) = none ∧ cmdTiles (cmdB [(1, 1, 4), (0x10, 1, 3), (0x12, 1, 6)]) = [3] ∧ tileFed (ring nop []) 2 3 = false ∧ tileFed (ring nop [(pTile 3, 0x608, 2)]) 2 3 = true := by decide +kernel
def torn (now n : Nat) (b : List Byte) : State := let s := ring b []; { s.setQ 2 ⟨some (0, 100, n), none, 0, none, none⟩ with ref := now }
theorem witness_refetch : ((torn 250 3 nop).q 2).torn = some (0, 100, 3) ∧ fetchOn (torn 250 3 nop) 2 = true ∧ (100 : Nat) + 150 ≤ (torn 250 3 nop).ref ∧ (torn 249 3 nop).ref < 100 + 150 ∧ ringHeld (torn 250 3 nop) 2 = false
    ∧ 3 + 1 < 64 ∧ 64 ≤ 63 + 1 ∧ 0 + 10000 ≤ (torn 10000 3 nop).ref := by decide +kernel
theorem test_fetch : ok (.commandFetch 2) (ring nop []) (fun t => decide (t.rd pq 0x204 = 1 ∧ t.cmds.map (fun c => (c.op, c.pos, c.bad, c.tag)) = [(9, 0, false, 0xAB)] ∧ t.rd pQeng 0x204 = 1)) = true
    ∧ ok (.commandFetch 2) (ring nop [(pq, 0x28, 4)]) (fun t => decide (t.cmds.map (fun c => c.fault) = [some ⟨0x33, 0, 0xFF, 4⟩] ∧ t.rd pq 0x708 = 1)) = true := by decide +kernel
theorem test_refetch_torn : ok (.commandRefetch 2) (torn 250 63 (cmdB [(1, 1, 9), (56, 4, 1)])) (fun t => decide (qState t 2 = 3 ∧ t.rd pq 0x204 = 0 ∧ t.cmds.map (fun c => c.fault) = [some ⟨0x30, 0, 0xFF, 0⟩] ∧ t.rdB pq 0x18 8 = true)) = true
    ∧ ok (.commandRefetch 2) (torn 250 3 (cmdB [(1, 1, 9), (56, 4, 1)])) (fun t => decide ((t.q 2).torn = some (0, 250, 4) ∧ t.rd pq 0x218 = 1)) = true := by decide +kernel

/-! Commands in execution. -/

def cm (op : Nat) (b : List Byte) : Cmd := ⟨0, 2, 0, b, op, false, false, 0xAB, 0, [⟨0x10000, 7, 0, 0, 0x42 * 2 ^ 40, 0, 0⟩], [], none, [], false, false, 0, 0, 0, none, none⟩
def runs (l : List (Page × Nat × Nat)) (c : Cmd) : State := { qs0 ([(pTile 3, 0x10, 0x11), (pTile 3, 0x14, 1), (pTile 3, 0x608, 2), (pTile 4, 0x608, 2)] ++ l) up with cmds := [c] }
def runsOk (s : State) (op : Nat) (c : Cmd) : Bool := alive s && decide (powerState s ≤ 1) && decide (cmdAt s 2 0 op = some c) && !c.begun && mayBegin s c
def ex (a n : Nat) : Extent := ⟨n, 7, 0, 0, 0x42 * 2 ^ 40 + a, 0, 0⟩
def far9 (n : Nat) : Extent := ⟨n, 7, 0, 0, 9 * 2 ^ 40, 0, 0⟩
def lc : Cmd := { cm 1 (desc 0xC0 [(0, 1, 3), (1, 1, 1), (0x10, 1, 3), (0x11, 1, 2), (0x14, 4, 8), (0x1C, 4, 100), (0x18, 2, 1)]) with targets := [(3, 0), (4, 0)] }
def dc : Cmd := { cm 2 (desc 0xC0 [(0, 1, 3), (1, 1, 2), (0x10, 1, 3)]) with targets := [(3, 0)] }
def ic (fl : Bool) (o : Nat) : Cmd := { cm 3 (desc 64 [(0, 1, 3), (1, 1, 3), (0x18, 2, 4), (0x1A, 1, o), (0x1B, 1, 1), (0x1C, 2, 8), (0x28, 8, 0x77), (0x30, 4, 0x01020304)]) with direct := (0x10, ex 0x5000 4) :: (if fl then [(0x20, ex 0x6000 8)] else []) }
def sc (r : Nat) : Cmd := { cm 4 (desc 64 [(0, 1, 3), (1, 1, 4), (0x10, 1, 3), (0x11, 1, 4 * r + 1), (0x12, 1, 6), (0x14, 2, 0x60), (0x16, 2, 8), (0x18, 8, 9)]) with targets := if r = 0 then [(3, 0)] else [] }
def ac (en : Nat) : Cmd := { cm 5 (desc 128 [(0, 1, 3), (1, 1, 5), (0x10, 1, 0), (0x11, 1, 9), (0x12, 1, 0), (0x13, 1, en), (0x18, 8, 0x5000), (0x20, 8, 5)]) with direct := (0x18, ex 0x5000 4) :: (if en = 1 then [(0x40, ex 0x6000 4)] else []) }
def wc (cond v : Nat) : Cmd := { cm 6 (desc 64 [(0, 1, 3), (1, 1, 6), (0x18, 1, cond), (0x19, 1, 5), (0x20, 8, v)]) with direct := [(0x10, ex 0x5000 8)], begun := true, stage := 1 }
def isOk2 {α ε : Type} (x : Except ε α) (p : α → Bool) : Bool := match x with | .ok a => p a | .error _ => false

theorem witness_command_effects : runsOk (runs [] lc) 1 lc = true ∧ (lc.targets.map (fun x => x.1)).Nodup ∧ runsOk (runs [] dc) 2 dc = true ∧ tilePowered (runs [] dc) 3 = true ∧ boundUnder (runs [] dc) (pTile 3) (qGen (runs [] dc) 2) 0 = true
    ∧ ((runs [] dc).tile 3).dma.intake.length < intakeCap (runs [] dc) 3 ∧ boundUnder (runs [(pTile 3, 0x28, 1)] dc) (pTile 3) (qGen (runs [] dc) 2) 0 = false ∧ intakeCap (regs [(pTile 3, 0x34, 0x80000000), (pTile 3, 0x30, 64 * 2 ^ 24)] (runs [] dc)) 3 = 1 := by decide +kernel
theorem witness_inline : runsOk (runs [] (ic true 6)) 3 (ic true 6) = true ∧ runsOk (runs [] (ic true 0)) 3 (ic true 0) = true ∧ isOk2 (inlinePieces (runs [] (ic true 6)) (ic true 6)) (fun x => decide (x = ([⟨0, 0x42 * 2 ^ 40 + 0x5000, 4⟩], [⟨0, 0x42 * 2 ^ 40 + 0x6000, 8⟩]))) = true
    ∧ isOk2 (inlinePieces (runs [] (ic false 0)) (ic false 0)) (fun x => decide (x.2 = [])) = true ∧ piecesHeld (runs [] (ic true 6)) [⟨0, 0x42 * 2 ^ 40 + 0x5000, 4⟩, ⟨0, 0x42 * 2 ^ 40 + 0x6000, 8⟩] = false
    ∧ cmdOverlaps (runs [] (ic true 6)) (ic true 6) [⟨0, 0x42 * 2 ^ 40 + 0x5000, 4⟩, ⟨0, 0x42 * 2 ^ 40 + 0x6000, 8⟩] = false
    ∧ memFault (runs [] (ic true 6)) 0x5000 4 = none ∧ memFault (runs [] (ic true 6)) 0x6000 8 = none ∧ (⟨0, 0x42 * 2 ^ 40 + 0x5000, 4⟩ : CPiece).a = 0x5000 ∧ ordRel (cmdLe (ic true 6).bytes 0x1A 1) = true ∧ ordRel (cmdLe (ic true 0).bytes 0x1A 1) = false
    ∧ (⟨0, 9 * 2 ^ 40, 4⟩ : CPiece).far (runs [] (ic false 0)) = true ∧ cmdConnOk (runs [] (ic false 0)) (ic false 0) 8 [⟨0, 9 * 2 ^ 40, 4⟩] = false := by decide +kernel
theorem witness_signal_atomic : runsOk (runs [] (sc 0)) 4 (sc 0) = true ∧ runsOk (runs [] (sc 1)) 4 (sc 1) = true ∧ cmdBf (sc 0).bytes 0x11 2 1 = 0 ∧ cmdBf (sc 1).bytes 0x11 2 1 = 1 ∧ earlierDone (runs [] (sc 0)) (sc 0) = true ∧ releaseLost (runs [] (sc 0)) (sc 0) = none ∧ earlierDone (runs [] (sc 1)) (sc 1) = true ∧ releaseLost (runs [] (sc 1)) (sc 1) = none
    ∧ releaseLost { runs [] (sc 0) with qs := (runs [] (sc 0)).setQ 2 ⟨none, none, 0, none, some 0x12⟩ |>.qs } (sc 0) = some 0x12
    ∧ boundUnder (runs [] (sc 0)) (pTile 3) (qGen (runs [] (sc 0)) 2) 0 = true ∧ (let s := { runs [] (sc 0) with cmds := [{ cm 9 nop with uid := 4, begun := true, stage := 1 }, { sc 0 with begun := true }] }; earlierDone s { sc 0 with begun := true } = false)
    ∧ cmdConnOk (runs [] (sc 1)) (sc 1) 8 [] = false ∧ cmdConnOk (conn8 3 (runs [] (sc 1))) (sc 1) 8 [] = true ∧ connState (conn8 3 (runs [] (sc 1))) 8 = 3
    ∧ runsOk (runs [] (ac 1)) 5 (ac 1) = true ∧ isOk2 (dirPieces (runs [] (ac 1)) (ac 1) 0x18 4096) (fun l => decide (l = [⟨0, 0x42 * 2 ^ 40 + 0x5000, 4⟩])) = true ∧ isOk2 (dirPieces (runs [] (ac 1)) (ac 1) 0x40 16) (fun l => decide (l.any (CPiece.far (runs [] (ac 1))) = false)) = true
    ∧ cmdLe (ac 1).bytes 0x18 8 % atomAlign 0 0 9 = 0 ∧ 0x5002 % atomAlign 0 0 9 ≠ 0 ∧ memHeld (runs [] (ac 1)) .qeng 0x5000 4 = false ∧ cmdOverlaps (runs [] (ac 1)) (ac 1) [⟨0, 0x42 * 2 ^ 40 + 0x5000, 4⟩] = false ∧ releaseLost (runs [] (ac 1)) (ac 1) = none ∧ memFault (runs [] (ac 1)) 0x5000 4 = none ∧ orwIndex (runs [] (ac 1)) (sliceOf (runs [] (ac 1)) 0x5000) 0x5000 = none
    ∧ cmdBf (ac 0).bytes 0x13 0 1 = 0 ∧ cmdBf (ac 1).bytes 0x13 0 1 = 1 ∧ atomSize 0 0 9 = 4 := by decide +kernel
theorem test_launch : ok (.launch 2 0) (runs [] lc) (fun t => decide ((t.tile 3).arriving.map (·.base) = [100] ∧ (t.tile 4).arriving.map (·.base) = [108] ∧ t.cmds.map (·.stage) = [2])) = true := by decide +kernel
theorem test_dma_command : ok (.dma 2 0) (runs [] dc) (fun t => decide ((t.tile 3).dma.intake.length = 1 ∧ t.cmds.map (·.stage) = [2])) = true ∧ ok (.dma 2 0) (runs [(pTile 3, 0x28, 1)] dc) (fun t => decide (t.cmds.map (·.fault) = [some ⟨0x34, 0, 3, 0x10⟩])) = true := by decide +kernel
theorem test_write_inline : ok (.writeInline 2 0) (runs [] (ic true 0)) (fun t => decide (t.hnat 0x5000 4 = 0x01020304 ∧ t.hnat 0x6000 8 = 0x77 ∧ t.cmds.map (·.stage) = [2])) = true
    ∧ ok (.writeInline 2 0) (runs [] (ic true 6)) (fun t => decide (t.hnat 0x5000 4 = 0x01020304 ∧ t.hnat 0x6000 8 = 0 ∧ t.cmds.map (·.stage) = [1])) = true := by decide +kernel
theorem test_signal_atomic : ok (.signal 2 0) (runs [] (sc 0)) (fun t => decide (t.sig 3 0x60 = 9 ∧ t.cmds.map (·.stage) = [2])) = true
    ∧ ok (.atomic 2 0) ((runs [] (ac 1)).hwr 0x5000 [7]) (fun t => decide (t.hnat 0x5000 4 = 12 ∧ t.cmds.map (fun c => (c.stage, c.got)) = [(1, some 7)])) = true := by decide +kernel

def n3 : Pennant := ⟨2, [3, 4], 2, 1000, 1, 3, 100000⟩
def pc8 : Cmd := cm 8 (desc 64 [(0, 1, 3), (1, 1, 8), (0x10, 1, 1), (0x11, 1, 3), (0x12, 1, 1), (0x14, 4, 50), (0x18, 4, 1000), (0x1C, 1, 80)])
theorem witness_command_waits : runsOk (runs [] { wc 0 9 with begun := false, stage := 0 }) 6 { wc 0 9 with begun := false, stage := 0 } = true ∧ runsOk (runs [] (cm 7 [])) 7 (cm 7 []) = true ∧ runsOk (runs [] (cm 9 nop)) 9 (cm 9 nop) = true ∧ runsOk (runs [] pc8) 8 pc8 = true
    ∧ cmdAt (runs [] (wc 0 9)) 2 0 6 = some (wc 0 9) ∧ isOk2 (dirPieces (runs [] (wc 0 9)) (wc 0 9) 0x10 8) (fun l => decide (l = [⟨0, 0x42 * 2 ^ 40 + 0x5000, 8⟩])) = true ∧ memHeld (runs [] (wc 0 9)) .qeng 0x5000 8 = false ∧ memFault (runs [] (wc 0 9)) 0x5000 8 = none
    ∧ ((runs [] (wc 0 9)).hwr 0x5000 [9]).hnat 0x5000 8 = 9 ∧ (runs [(pq, 0x138, 2)] (wc 0 9)).rdF pq 0x138 0 16 = 2 ∧ 0 + 100000 * 2 ≤ ({ runs [(pq, 0x138, 2)] (wc 0 9) with ref := 200000 } : State).ref
    ∧ ({ up with pennants := [n3] } : State).pennants.filter (fun p => decide (p.queue = 2)) = [n3] ∧ n3.stop ≤ ({ up with ref := 100000 } : State).ref ∧ up.ref < n3.stop
    ∧ (let c := { cm 9 nop with begun := true, stage := 2 }; (runs [] c).cmds.find? (fun c => decide (c.queue = 2 ∧ c.pos = 0) && (if c.bad then cqRoom (runs [] c) 2 else cmdDone (runs [] c) c)) = some c ∧ memHeld (runs [] c) .qeng 0x20000 32 = false ∧ memFault (runs [] c) 0x20000 32 = none
      ∧ (runs [] c).base pq 0x110 = 0x20000) ∧ (let c := { cm 9 nop with bad := true, fault := some ⟨0x33, 0, 0xFF, 4⟩ }; (runs [] c).cmds.find? (fun c => decide (c.queue = 2 ∧ c.pos = 0) && (if c.bad then cqRoom (runs [] c) 2 else cmdDone (runs [] c) c)) = some c) := by decide +kernel
theorem test_wait : ok (.waitConditionMet 2 0) ((runs [] (wc 0 9)).hwr 0x5000 [9]) (fun t => decide (t.cmds.map (·.stage) = [2])) = true ∧ idle (.waitConditionMet 2 0) ((runs [] (wc 2 9)).hwr 0x5000 [9]) = true := by decide +kernel
theorem test_wait_timeout : ok (.waitTimeout 2 0) { runs [(pq, 0x138, 2)] (wc 0 9) with ref := 200000 } (fun t => decide (t.cmds.map (·.fault) = [some ⟨0x36, 0, 0xFF, 0⟩])) = true ∧ idle (.waitTimeout 2 0) { runs [(pq, 0x138, 2)] (wc 0 9) with ref := 199999 } = true := by decide +kernel
theorem test_pennant : ok (.pennant 2 0) { runs [] pc8 with pennants := [n3] } (fun t => decide (t.pennants = [{ n3 with tiles := [4] }, ⟨2, [3], 1, 50, 1000, 80, 5000⟩])) = true
    ∧ ok (.pennantExpiry 2 0) { runs [] pc8 with pennants := [n3], ref := 100000 } (fun t => decide (t.pennants = [])) = true := by decide +kernel
theorem test_completion : ok (.completionRecord 2 0) (runs [(pq, 0x204, 1)] { cm 9 nop with begun := true, stage := 2 }) (fun t => decide (t.hnat 0x20000 8 = 1 ∧ t.hnat 0x20008 8 = 0xAB ∧ t.hnat 0x20014 4 = 1 ∧ t.hnat 0x20018 4 = 0x09FF0000 ∧ t.rd pq 0x20C = 1 ∧ t.cmds = [])) = true
    ∧ ok (.completionRecord 2 0) (runs [] { cm 9 nop with bad := true, fault := some ⟨0x33, 0, 0xFF, 4⟩ }) (fun t => decide (t.hnat 0x20018 8 = 0x0000000409FF0033 ∧ t.rd pq 0x220 = 0x80000033 ∧ t.rdB pq 0x18 9 = true)) = true := by decide +kernel

/-! Translation: context 1 of a table at 0x30000, a four-level walk over tables at 0x40000 to 0x43000, page 5 at local address 0x5000. -/

def pte0 (ppn : Nat) (f : Nat) : List Byte := toLE 8 (f + ppn * 2 ^ 10)
def tabs (l : List (Page × Nat × Nat)) : State :=
  ((((((qs0 ([(pXlat, 0x14, 1), (pXlat, 0x108, 0x30000), (pXlat, 0x11C, 0x70000), (pXlat, 0x124, 4), (pXlat, 0x104, 2)] ++ l) up).hwr 0x30010 (toLE 8 (9 + 0x40 * 2 ^ 16))).hwr 0x40000 (pte0 0x41 1)).hwr 0x41000 (pte0 0x42 1)).hwr 0x42000
    (pte0 0x43 1)).hwr 0x43028 (pte0 (0x42 * 2 ^ 28 + 5) 0xD7)).hwr 0x5000 [0x11, 0x22]
def isLeaf (x : Except WRes (Nat × Nat × Nat)) (y : Nat × Nat × Nat) : Bool := match x with | .ok z => decide (z = y) | .error _ => false
def req1 : MissReq := ⟨7, 1, 5, 1, [2], 100⟩
/-- A request outstanding for a command of queue 2 that is held. -/
def missed (now : Nat) : State := let s := tabs []; { s.setQ 2 ⟨none, some (cmdB [(1, 1, 6), (0x10, 8, 0x5000), (0x19, 1, 5)], .miss 7), 0, none, none⟩ with xlat := { s.xlat with reqs := [req1] }, ref := now }
def tlb1 : TlbEnt := ⟨1, 0, 0x5000, 12, 0⟩
def inv1 (w : List Nat) : InvOp := ⟨2, 1, 0x5000, 1, w⟩
theorem witness_translation : served (tabs []) = true ∧ (tabs []).xlat.reqs.find? (fun r => decide (r.seq = 7)) = none ∧ (missed 0).xlat.reqs.find? (fun r => decide (r.seq = 7)) = some req1 ∧ ({ tabs [] with xlat := { up.xlat with reqs := [req1] } } : State).qs = []
    ∧ missWaiters { tabs [] with xlat := { up.xlat with reqs := [req1] } } 7 = [] ∧ missWaiters (missed 0) 7 = [(2, cmdB [(1, 1, 6), (0x10, 8, 0x5000), (0x19, 1, 5)])] ∧ fetchOn (missed 0) 2 = true ∧ fetchOn { missed 0 with paused := true } 2 = false
    ∧ req1.since + 100000 * (missed 200100).rdF pXlat 0x104 0 16 ≤ (missed 200100).ref ∧ (missed 200099).ref < req1.since + 100000 * (missed 200099).rdF pXlat 0x104 0 16
    ∧ 1 ≤ diff32 1 0 ∧ diff32 1 0 ≤ 2 ^ 31 ∧ diff32 (2 ^ 31) 0 ≤ 2 ^ 31 ∧ 2 ^ 31 < diff32 (2 ^ 31 + 1) 0 ∧ (tabs []).xlat.inv = none
    ∧ ({ tabs [] with xlat := { up.xlat with inv := some (inv1 []) } } : State).xlat.inv = some (inv1 []) ∧ (∀ c ∈ up.cmds, c.uid ∈ (inv1 [0]).waits → cmdDone up c = true)
    ∧ (∃ c ∈ (runs [] (cm 9 nop)).cmds, c.uid ∈ (inv1 [0]).waits ∧ cmdDone (runs [] (cm 9 nop)) c = false) := by decide +kernel
theorem test_miss_timeout : ok (.missTimeout 7) (missed 200100) (fun t => decide (t.xlat.reqs = [] ∧ t.cmds.map (fun c => c.fault) = [some ⟨0x35, 0, 0xFF, 0x10⟩] ∧ t.rdF pXlat 0x220 0 4 = 2)) = true ∧ idle (.missTimeout 7) (missed 200099) = true := by decide +kernel
theorem test_miss_refuse : ok (.missRespRefuse 7) (missed 0) (fun t => decide (t.rd pXlat 0x220 = 0x80000001 ∧ t.rd pXlat 0x228 = 0x5000 ∧ t.rd pq 0x204 = 1)) = true ∧ ok (.missRespRefuse 8) (missed 0) (fun t => flagged (missed 0) t [] pXlat 12) = true := by decide +kernel
theorem test_inv : ok .invEnd { tabs [] with xlat := { up.xlat with inv := some (inv1 []), tlb := [tlb1, { tlb1 with va := 0x6000 }] } } (fun t => decide (t.xlat.tlb = [{ tlb1 with va := 0x6000 }] ∧ t.xlat.inv = none ∧ t.rd pXlat 0x358 = 1)) = true
    ∧ ok .invEnd { tabs [] with xlat := { up.xlat with inv := some (inv1 []), ptes := [⟨1, 0, 3, 0, 5⟩, ⟨2, 0, 3, 0, 6⟩], ctxs := [⟨1, 9, 0⟩] } } (fun t => decide (t.xlat.ptes = [⟨2, 0, 3, 0, 6⟩] ∧ t.xlat.ctxs = [⟨1, 9, 0⟩])) = true
    ∧ ok (.invPages true) (tabs [(pXlat, 0x344, 1), (pXlat, 0x348, 0x5000), (pXlat, 0x350, 1)]) (fun t => decide (t.xlat.inv = some (inv1 []) ∧ t.rd pXlat 0x354 = 1)) = true := by decide +kernel
/-- The walk of a WAIT's address ends at the leaf. -/
theorem test_walk : isLeaf (ctxLeaf (tabs []) 1 0x5000) (0x43028, 0xD7 + (0x42 * 2 ^ 28 + 5) * 2 ^ 10, 0) = true ∧ isLeaf (ctxLeaf (tabs []) 1 0x6000) (0, 0, 0) = false := by decide +kernel

/-- A translation caches the three non-leaf entries of its walk, the leaf and the context (R308). -/
theorem test_caches : (let t := (xlatRange (tabs []) 1 0 0x5000 8 1).1
    decide (t.xlat.ptes.map (fun e => (e.level, e.pte)) = [(1, 1 + 0x43 * 2 ^ 10), (2, 1 + 0x42 * 2 ^ 10), (3, 1 + 0x41 * 2 ^ 10)] ∧ t.xlat.tlb.map (fun e => (e.va, e.log)) = [(0x5000, 12)]
      ∧ t.xlat.ctxs = [⟨1, 9 + 0x40 * 2 ^ 16, 0⟩] ∧ t.free = 0)) = true := by decide +kernel

def mig1 : Mig := ⟨9, 1, 0, 0x5000, 0x42 * 2 ^ 40 + 0x80000, 1, 0, [], 0, false⟩
def migS : State := let s := tabs []; { s with xlat := { s.xlat with mig := some mig1 } }
def migR (l : List (Page × Nat × Nat)) : State := tabs ([(pXlat, 0x300, 1), (pXlat, 0x308, 0x5000), (pXlat, 0x310, 0x80000), (pXlat, 0x314, 0x4200), (pXlat, 0x318, 1)] ++ l)
def counted (n : Nat) : State := let s := tabs [(pXlat, 0x128, 0x90000), (pXlat, 0x14C, 10)]; { s.hwr 0x90004 (toLE 4 8) with mem := { s.mem with counted := [(0, 1, n)] } }
theorem witness_migration : up.mem.counted = [] ∧ (counted 5).mem.counted = (0, 1, 5) :: [] ∧ alive (counted 5) = true ∧ memHeld (counted 5) .hostDie 0x90004 4 = false ∧ memFault (counted 5) 0x90004 4 = none ∧ (counted 5).hnat 0x90004 4 < 10 ∧ 10 ≤ min (8 + 5) (2 ^ 32 - 1)
    ∧ ¬ 10 ≤ min (8 + 1) (2 ^ 32 - 1) ∧ hreqFull (counted 5) = false ∧ hreqBlocked (counted 5) = false ∧ hreqBlocked { counted 5 with mem := { (counted 5).mem with phyLost := (List.range 12).map (·, 0) } } = true ∧ hreqFull (regs [(pXlat, 0x200, 16)] (counted 5)) = true
    ∧ migS.xlat.mig ≠ none ∧ (migR []).xlat.mig = none ∧ (migR []).rdF pXlat 0x318 0 24 ≠ 0 ∧ (migR []).rd64 pXlat 0x308 % 4096 = 0 ∧ (migR [(pXlat, 0x318, 0)]).rdF pXlat 0x318 0 24 = 0
    ∧ (match migLeaves (migR []) 1 0x6000 2 0x5000 with | .ok l => decide (l = [(0x5000, 12, 0x42 * 2 ^ 40 + 0x5000)] ∧ migBad (migR []) (0x42 * 2 ^ 40 + 0x80000) 4096 0 l = none ∧ migBad (migR []) (0x42 * 2 ^ 40 + 0x80800) 4096 0 l = some 3) | .error _ => false) = true := by decide +kernel
theorem witness_migration_leaf : (fwf regDefault migS.regs && fwf byte0 migS.hbm && fwf byte0 migS.tmem) = true ∧ migS.xlat.mig = some mig1 ∧ alive migS = true ∧ cmdsDone migS mig1.waits = true ∧ pXlat ∉ migS.stalls
    ∧ isLeaf (ctxLeaf migS 1 (mig1.va + 4096 * mig1.pos)) (0x43028, 0xD7 + (0x42 * 2 ^ 28 + 5) * 2 ^ 10, 0) = true ∧ (mig1.va + 4096 * mig1.pos) % 2 ^ leafLog 0xD7 0 = 0 ∧ mig1.pos + 4096 / 4096 ≤ mig1.pages
    ∧ locate migS (0x42 * 2 ^ 40 + 0x5000) 4096 = .loc 0x5000 ∧ locate migS mig1.dst 4096 = .loc 0x80000 ∧ memHeld migS .hostDie 0x43000 128 = false ∧ memHeld migS .hostDie 0x5000 4096 = false ∧ memHeld migS .hostDie 0x80000 4096 = false ∧ memFault migS 0x5000 4096 = none
    ∧ (match locate migS (9 * 2 ^ 40) 4096 with | .remote 9 0 => true | _ => false) = true ∧ connState migS 0 = 0 ∧ connState (conn8 2 migS) 8 = 2
    ∧ failedAt migS 0x80000 4096 = none ∧ memFault migS 0x43028 8 = none ∧ 0x43028 + 8 ≤ 0x80000 := by decide +kernel
theorem test_count : ok .accessCountUpdate (counted 5) (fun t => decide (t.hnat 0x90004 4 = 13 ∧ t.rd pXlat 0x200 = 1 ∧ t.rdB pXlat 0x18 10 = true ∧ t.hnat 0x70000 4 = 1)) = true ∧ ok .accessCountUpdate (counted 1) (fun t => decide (t.hnat 0x90004 4 = 9 ∧ t.rd pXlat 0x200 = 0)) = true := by decide +kernel
theorem test_migration_go : ok .migrationGo (migR []) (fun t => decide (t.xlat.mig = some { mig1 with uid := 0 } ∧ t.rdB pXlat 0x14 3 = true)) = true ∧ ok .migrationGo migS (fun t => decide (t.rd pXlat 0x320 = 1 ∧ t.rdB pXlat 0x18 13 = true)) = true := by decide +kernel

/-! Cache slices. -/

def hb0 : State := (withHbm up).hwr 0x2000 [1, 2, 3, 4]
def rawAt (b : Nat) : State := { hb0 with raw := [b] }
def hdr0 (l : List (Nat × Nat × Nat)) : List Byte := desc 64 ([(8, 4, 2), (0xC, 1, 0x10), (0xE, 1, 0x0E), (0x10, 8, 0x4000), (0x18, 4, 64), (0x1C, 2, 2), (0x20, 8, 0x5000)] ++ l)
def rnd0 (h : List Byte) : OrwRound := ⟨0, 3, 0x6000, h⟩
def orw0 (h : List Byte) (raw : List Nat) : State := { (hb0.hwr 0x4000 [0, 0, 0x80, 0x3F]).hwr 0x4040 [0, 0, 0, 0x40] with raw := raw, mem := { up.mem with rounds := [rnd0 h] } }
/-- Hart 0 runs, and the slices hold block 0x80; with a line of the host caches. -/
def hst (s : State) : State := { s with hartsOn := 1, mem := { s.mem with sectors := [(0x80, 1)] } }
def hln (k : Nat) : State := let s := hst hb0; { s with hcache := { s.hcache with lines := [(0x80, k)], bytes := [(0x2001, 7)] } }
def aadd : AtomArg := ⟨0, 0, 9, 5, 0⟩
theorem witness_slices : alive hb0 = true ∧ memHeld hb0 (.thread 3) 0x2001 3 = false ∧ inHbm hb0 0x2001 3 = true ∧ memFault hb0 0x2001 3 = none ∧ memFault (rawAt 0x80) 0x2001 3 = some (0x10, 0x2000) ∧ failedAt hb0 0x2001 3 = none
    ∧ partRaw hb0 0x2001 3 = [] ∧ partRaw (rawAt 0x80) 0x2001 3 ≠ [] ∧ memFault hb0 0x2000 4 = none ∧ memHeld hb0 (.thread 3) 0x2000 4 = false ∧ 0x2000 % atomAlign 0 0 9 = 0 ∧ ordBad 0 [0, 1, 2, 3] [0, 1, 2, 3, 4] = false ∧ atomSize 0 0 9 = 4
    ∧ orwIndex hb0 (sliceOf hb0 0x2000) 0x2000 = none ∧ orwIndex (regs [(pCache (sliceOf hb0 0x2000), 0x104, 0x2000), (pCache (sliceOf hb0 0x2000), 0x10C, 1)] hb0) (sliceOf hb0 0x2000) 0x2000 = some 0
    ∧ memHeld hb0 .misc (64 * 0x80) 64 = false ∧ inHbm hb0 (64 * 0x80) 64 = true ∧ fget (fun _ => 0) hb0.mem.sectors 0x80 = 0 ∧ fget (fun _ => 0) ({ hb0 with mem := { up.mem with sectors := [(0x80, 2)] } } : State).mem.sectors 0x80 ≠ 0
    ∧ pageOk (pCache 4) = true ∧ (pTile 3).blk = .tile := by decide +kernel
theorem witness_slice_harts : (let s := hst hb0; alive s = true ∧ hartRuns s 0 = true ∧ s.hcache.wait = [] ∧ s.mem.fillWait = [] ∧ needsFill s 0x2001 1 = false ∧ needsFill hb0 0x2001 1 = true ∧ memHeld s (.hart 0 .nc) 0x2001 3 = false
      ∧ memHeld s (.hart 0 .pma) 0x2001 3 = false ∧ memFault s 0x2001 3 = none ∧ hostMisses s 0x2001 3 = [0x80] ∧ memHeld s (.hart 0 .pma) (64 * 0x80) 64 = false ∧ memFault s (64 * 0x80) 64 = none ∧ 0x2001 + 3 ≤ memEnd s
      ∧ blocksOf 0x2001 3 = [0x80] ∧ memEnd s < 2 ^ 40 + 3 ∧ atomSize aadd.aop.toNat aadd.width.toNat aadd.fmt.toNat = 4 ∧ 0x2000 % atomAlign aadd.aop.toNat aadd.width.toNat aadd.fmt.toNat = 0 ∧ s.mem.failed = [])
    ∧ memFault (hst (rawAt 0x80)) (64 * 0x80) 64 = some (0x10, 0x2000)
    ∧ (let s := hln 2; fget (fun _ => 0) s.hcache.lines 0x80 = 2 ∧ hostMisses s 0x2001 3 = [] ∧ memHeld s (.hart 0 .evict) (64 * 0x80) 64 = false ∧ inHbm s (64 * 0x80) 64 = true
      ∧ (let u := { s with mem := { s.mem with phyLost := (List.range 12).map (·, 0) } }; memHeld u (.hart 0 .evict) (64 * 0x80) 64 = true))
    ∧ (let s := { hb0 with mem := { up.mem with fillWait := [⟨.thread 3, 0x2001, [9]⟩] } }; s.mem.fillWait = [⟨.thread 3, 0x2001, [9]⟩] ∧ fget (fun _ => 0) s.mem.sectors 0x80 = 0 ∧ 0x80 ∉ s.raw ∧ s.mem.failed = [] ∧ memHeld s .misc (64 * 0x80) 64 = false)
    ∧ orwHeld (orw0 (hdr0 [(0xF, 1, 1)]) []) (rnd0 (hdr0 [(0xF, 1, 1)])) = false ∧ (rnd0 (hdr0 [])).addr + 64 ≤ 0x2000 + 2 ^ 20 ∧ reached up (pCache 4) = true := by decide +kernel
theorem test_hart_cache : ok (.sliceRead (.hart 0 .pma) 0x2001 3 .clean) (hst hb0) (fun t => decide (t.hcache.lines = [(0x80, 1)] ∧ fget byte0 t.hcache.bytes 0x2001 = 2)) = true
    ∧ ok (.sliceWrite (.hart 0 .pma) 0x2001 [9]) (hst hb0) (fun t => decide (t.hcache.lines = [(0x80, 2)] ∧ fget byte0 t.hcache.bytes 0x2001 = 9 ∧ t.hnat 0x2000 4 = 0x04030201)) = true
    ∧ ok (.sliceRead (.hart 0 .flush) 0x2001 1 .clean) (hln 2) (fun t => decide (t.hnat 0x2000 4 = 0x700 ∧ t.hcache.lines = [])) = true := by decide +kernel
theorem test_hart_fault : ok (.sliceRead (.hart 0 .lrsc) 0x2000 4 .clean) (hst hb0) (fun t => decide ((t.hart 0).c 0x342 = 5 ∧ (t.hart 0).c 0x343 = 0x2000 ∧ (t.hart 0).priv = 3)) = true
    ∧ ok (.sliceWrite (.hart 0 .nc) (2 ^ 40) [9]) (hst hb0) (fun t => decide ((t.hart 0).c 0x342 = 7 ∧ (t.hart 0).c 0x343 = 2 ^ 40)) = true := by decide +kernel
theorem witness_rounds : (orw0 (hdr0 []) []).mem.rounds.find? (fun x => decide (x.c = 0 ∧ x.j = 3)) = some (rnd0 (hdr0 [])) ∧ orwHeld (orw0 (hdr0 []) []) (rnd0 (hdr0 [])) = false ∧ orwBad (hdr0 []) = false ∧ orwBad (hdr0 [(0xF, 1, 1)]) = true
    ∧ (inHbm hb0 (0x4000 + 64) 8 && inHbm hb0 0x5000 8) = true ∧ inHbm hb0 (2 ^ 40) 8 = false ∧ (∀ k, k < 2 → memFault (orw0 (hdr0 []) []) (0x4000 + 64 * k) 8 = none) ∧ memFault (orw0 (hdr0 []) [0x101]) 0x4040 8 ≠ none ∧ memFault (orw0 (hdr0 []) []) 0x5000 8 = none := by decide +kernel
theorem test_slice_read : ok (.sliceRead (.thread 3) 0x2001 3 .clean) hb0 (fun t => decide (t.mem.sectors = [(0x80, 1)] ∧ t.mem.misses = [(sliceOf hb0 0x2001, 1)])) = true
    ∧ ok (.sliceRead (.thread 3) 0x2001 3 .uncorrectable) hb0 (fun t => decide (t.raw = [0x80] ∧ t.rd (pHbmc (sliceOf hb0 0x2001)) 0x224 = 1)) = true := by decide +kernel
theorem test_slice_write : ok (.sliceWrite (.hart 0 .nc) 0x2001 [9]) (hst hb0) (fun t => decide (t.hnat 0x2000 4 = 0x04030901 ∧ t.mem.sectors = [(0x80, 2)])) = true ∧ ok (.sliceWrite (.hart 0 .nc) 0x2001 [9]) (hst (rawAt 0x80)) (fun t => decide (t.hnat 0x2000 4 = 0x04030201 ∧ t.raw = [0x80])) = true
    ∧ ok (.sliceWrite (.thread 3) 0x2001 [9]) hb0 (fun t => decide (t.hnat 0x2000 4 = 0x04030201 ∧ t.mem.fillWait = [⟨.thread 3, 0x2001, [9]⟩])) = true := by decide +kernel
theorem test_round : ok (.orwRound 0 3) (orw0 (hdr0 []) []) (fun t => decide (t.hnat 0x5000 4 = 0x40400000 ∧ t.hnat 0x6004 4 = 1 ∧ t.rd (pCache 0) 0x218 = 1 ∧ t.mem.rounds = [])) = true
    ∧ ok (.orwRound 0 3) (orw0 (hdr0 [(0xF, 1, 1)]) []) (fun t => decide (t.hnat 0x6004 4 = 0x80000001 ∧ t.hnat 0x6028 4 = 2)) = true := by decide +kernel

/-! Upkeep of stack 4. -/

def powerOn0 : State := { up with power := { up.power with baseMv := 750 } }
def row4 : Nat := rowKey 4 7 3 1000
def hm (l : List (Page × Nat × Nat)) (f : MemSys → MemSys) : State := let s := regs l (withHbm up); { s with mem := f s.mem }
def big : List (Page × Nat × Nat) := [(pHbmc 0, 0x248, 0), (pHbmc 0, 0x24C, 200)]
theorem witness_upkeep : alive (hm [] id) = true ∧ served (hm [] id) = true ∧ row4 ∉ (hm [] id).mem.failing ∧ row4 ∈ (hm [] (fun m => { m with failing := [row4] })).mem.failing ∧ fget (fun _ => 0) up.mem.rowRep row4 < 2
    ∧ 2 ≤ fget (fun _ => 0) (hm [] (fun m => { m with rowRep := [(row4, 2)] })).mem.rowRep row4 ∧ (∀ r ∈ up.mem.retired, r.st ≠ 4) ∧ mappedOut up 4 7 = false ∧ up.rdB (pHbmc 4) 0x238 31 = false
    ∧ up.rdF (pHbmc 4) 0x108 8 8 < 1 + 255 ∧ (∀ x ∈ up.mem.retWait, x.1 ≠ 4) ∧ (hm [(pHbmc 4, 0x108, 0x10000)] id).rdB (pHbmc 4) 0x108 16 = true ∧ dropFree (hm big id) = true
    ∧ (hm [(pHbmc 4, 0x238, 2 ^ 31 + 7)] id).rdB (pHbmc 4) 0x238 31 = true ∧ (hm [] id).mem.mapout = none ∧ (hm [] id).opBusy (pHbmc 4) = false ∧ popc 64 ((hm [(pHbmc 4, 0x230, 15)] id).rd64 (pHbmc 4) 0x230) = 4 ∧ popc 64 ((hm [(pHbmc 4, 0x230, 7)] id).rd64 (pHbmc 4) 0x230) < 4
    ∧ (mapoutNext (hm [] id) ⟨4, 7, 0, 0, 10⟩).isSome = true ∧ foldPcs (hm [] id) ⟨4, 7, 0, 0, 10⟩ ≠ [] ∧ mapoutNext (hm [] id) ⟨4, 7, 2 ^ 23, 0, 10⟩ = none
    ∧ 0 + 10000000 ≤ ({ up with ref := 10000000 } : State).ref ∧ 0 + 80 ≤ (hm [(pHbmc 4, 0x200, 80)] id).rdF (pHbmc 4) 0x200 0 16 := by decide +kernel
theorem witness_upkeep_more : (let s := hm [] (fun m => { m with failing := [row4] }); phyHeld s 4 = false ∧ phyHeld (hm [] (fun m => { m with failing := [row4], phyLost := [(4, 0)] })) 4 = true ∧ s.raw = [] ∧ reached s (pHbmc 4) = true)
    ∧ (∃ r ∈ (hm [] (fun m => { m with retired := [⟨4, 7, 3, 1000, 0, 0, []⟩] })).mem.retired, r.st = 4 ∧ r.pc = 7 ∧ r.bank = 3 ∧ r.row = 1000)
    ∧ (let s := hm [(pHbmc 4, 0x238, 2 ^ 31 + 7)] (fun m => { m with mapout := some ⟨1, 2, 0, 0, 10⟩ }); s.mem.mapout ≠ none) ∧ memHeld (hm [] id) .misc (0 * 256) 256 = false ∧ up.mem.mapWait = [] ∧ up.mem.retWait = []
    ∧ (hm [(pHbmc 4, 0x14, 1)] id).enabled (pHbmc 4) = true ∧ (hm [(pHbmc 4, 0x14, 1)] id).opBusy (pHbmc 4) = false ∧ 4 ∉ (hm [] id).mem.retrain ∧ 4 ∈ (hm [] (fun m => { m with retrain := [4] })).mem.retrain
    ∧ (let s := hm [(pHbmc 4, 0x300, 255)] id; mappedOut s 4 0 = false ∧ s.rdF (pHbmc 4) 0x108 8 8 < s.rdF (pHbmc 4) 0x300 0 8 ∧ ¬ s.rdF (pHbmc 4) 0x108 8 8 < s.rdF (pHbmc 4) 0x300 8 8)
    ∧ (hm [(pHbmc 5, 0x238, 2 ^ 31 + 9)] (fun m => { m with mapWait := [5], mapout := some ⟨4, 7, 2 ^ 23, 0, 10⟩ })).mem.mapWait = [5] ∧ memHeld (hm [(pHbmc 4, 0x104, 1)] id) .misc 0 256 = false
    ∧ (hm [] (fun m => { m with scrub := some ⟨0x4000, 0x1000, some 3⟩, scrubWait := [] })).mem.scrubWait = [] ∧ (powerOn0).power.baseMv ≠ 0 := by decide +kernel
theorem witness_patrol : (hm [(pHbmc 4, 0x104, 1)] id).rdB (pHbmc 4) 0x104 0 = true ∧ 4 ∉ (hm [] id).mem.failed ∧ (patrolGranule (hm [] id) 4 0).isSome = true ∧ (patrolGranule (hm [] id) 4 0).all (fun g => decide (homeStack (mapKey (hm [] id)) g = 4)) = true ∧ (hm [(pHbmc 4, 0x104, 0)] id).rdB (pHbmc 4) 0x104 0 = false
    ∧ (hm [] (fun m => { m with scrub := some ⟨0x4000, 0x1000, none⟩ })).mem.scrub = some ⟨0x4000, 0x1000, none⟩ ∧ (hm [] id).mem.scrub = none ∧ inHbm (hm [] id) 0x4000 0x1000 = true ∧ inHbm (hm [] id) (2 ^ 40) 0x1000 = false ∧ (hm [] id).mem.scrubWait = []
    ∧ thrEnter 1 0 1472 = true ∧ thrEnter 1 0 1471 = false ∧ thrLeave 1 0 1440 = false ∧ thrEnter 4 1520 0 = true := by decide +kernel
theorem test_row_repair : ok (.rowRepair 4 7 3 1000 true) (hm [] (fun m => { m with failing := [row4] })) (fun t => decide (t.mem.failing = [] ∧ t.mem.rowRep = [(row4, 1)] ∧ t.rd (pHbmc 4) 0x228 = 1 ∧ t.rdB (pHbmc 4) 0x18 10 = true)) = true
    ∧ ok (.rowRepair 4 7 3 1000 false) (hm [] (fun m => { m with failing := [row4] })) (fun t => decide (t.mem.retired.map (fun r => (r.st, r.pc, r.bank, r.row, r.reason)) = [(4, 7, 3, 1000, 1)] ∧ t.rdF (pHbmc 4) 0x304 24 8 = 1)) = true := by decide +kernel
theorem test_throttle : ok (.throttleLevel 4 0 1500) up (fun t => decide (t.rd (pHbmc 4) 0x204 = 2 + 256 * 50 ∧ t.rdB (pHbmc 4) 0x18 14 = true)) = true ∧ ok (.throttleLevel 4 0 1440) (regs [(pHbmc 4, 0x204, 1)] up) (fun t => decide (t.rd (pHbmc 4) 0x204 = 1 + 256 * 75)) = true := by decide +kernel
theorem test_scrub : ok .scrubGo (hm [(pCache 0, 0x240, 0x4000), (pCache 0, 0x248, 0x1000)] id) (fun t => decide (t.mem.scrub = some ⟨0x4000, 0x1000, none⟩ ∧ t.opBusy (pCache 0) = true)) = true
    ∧ ok .scrubGo (hm [(pCache 0, 0x240, 0x4800), (pCache 0, 0x248, 0x1000)] id) (fun t => decide (t.rd (pCache 0) 0x250 = 2 ∧ t.rdB (pCache 0) 0x18 12 = true)) = true := by decide +kernel
theorem test_heavy : ok (.heavyWindow 4) (hm [] (fun m => { m with reqs := [(4 * 256 + 35, 100), (4 * 256 + 160, 1)] })) (fun t => decide (t.rd (pHbmc 4) 0x20C = 8 ∧ t.rd (pHbmc 4) 0x208 = 0 ∧ t.rdB (pHbmc 4) 0x21C 0 = false ∧ t.mem.reqs = [])) = true := by decide +kernel

/-! Link 5, on optical engine 0. -/

def pl : Page := pLink 5
def lk (st : Nat) (l : List (Page × Nat × Nat)) (f : LinkSt → LinkSt) : State := (regs ([(pOe 0, 0x14, 1), (pOe 0, 0x10, 0x11), (pl, 0x10, 0x11), (pl, 0x14, 1 + st * 2 ^ 16), (pFabric, 0x14, 1), (pl, 0x204, 3 + 0xFF * 2 ^ 8)] ++ l) (withHbm up)).modLink 5 f
def caps0 : CapInfo := ⟨9, 4, 1, 3, 0xFF, 1024, 1024, 64⟩
theorem witness_link_training : alive (lk 1 [] id) = true ∧ served (lk 1 [] id) = true ∧ portLit (lk 1 [] id) 5 = true ∧ linkState (lk 1 [] id) 5 = 1 ∧ linkState (lk 3 [] id) 5 = 3 ∧ ((lk 1 [] id).link 5).step ≤ 3
    ∧ lanesEnough (0 ||| (0x07 &&& (lk 1 [] id).rdF pl 0x110 0 8)) = false ∧ lanesEnough (0 ||| (0xF0 &&& (lk 1 [] id).rdF pl 0x110 0 8)) = true ∧ ((lk 1 [] (fun k => { k with step := 3 })).link 5).step = 3 ∧ ((lk 1 [] (fun k => { k with step := 2 })).link 5).step ≠ 3
    ∧ portConns (lk 1 [] id) 5 = [] ∧ min 3 ((lk 1 [] id).rdF pFabric 0x108 2 2) = 3 ∧ (lk 1 [] id).rdF pFabric 0x108 0 2 ≤ 3 ∧ caps0.oldest.toNat ≤ 3 ∧ min 3 3 < ({ caps0 with oldest := 4 } : CapInfo).oldest.toNat
    ∧ (lk 1 [(pl, 0x108, 8)] id).rdF pl 0x108 0 20 ≠ 0xFFFFF ∧ (lk 1 [(pl, 0x108, 8)] id).rdF pl 0x108 0 20 ≠ caps0.node.toNat ∧ caps0.node.toNat ≠ 0xFFFFF
    ∧ linkLanes (lk 1 [] id) 5 0xFF 0xFF false = some 0xFF ∧ linkLanes (lk 1 [(pl, 0x104, 0)] id) 5 0x0F 0xFF false = none ∧ linkLanes (lk 1 [(pl, 0x104, 2)] id) 5 0xF0 0xFF false = some 0xF0 := by decide +kernel
theorem witness_link_states : (∀ v ∈ ((lk 1 [] (fun k => { k with step := 4 })).link 5).tx, v.q = [] ∧ v.rest = [] ∧ v.cutDue = false) ∧ ((lk 1 [] (fun k => { k with step := 2 })).link 5).since + 10000000 ≤ ({ lk 1 [] id with ref := 10000000 } : State).ref
    ∧ bit ((lk 2 [] id).rdF pl 0x204 8 8) 7 = true ∧ bit ((lk 2 [(pl, 0x204, 0x0F03)] id).rdF pl 0x204 8 8) 7 = false ∧ linkLanes (lk 3 [(pl, 0x104, 2)] id) 5 0x0F 0x0F false = some 0x0F
    ∧ ((lk 3 [] (fun k => { k with retrainFrom := some 5 })).link 5).retrainFrom = some 5 ∧ 5 + 1000000 ≤ ({ lk 3 [] id with ref := 1000005 } : State).ref
    ∧ (lk 4 [(pl, 0x104, 1)] id).rdB pl 0x104 0 = true ∧ ((lk 4 [] id).link 5).downAt + 100000000 ≤ ({ lk 4 [] id with ref := 100000000 } : State).ref ∧ linkState (lk 4 [] id) 5 = 4 := by decide +kernel
theorem witness_link_more : (let k := ((lk 1 [] (fun k => { k with step := 2 })).link 5); k.step = 2 ∧ k.ctl = [] ∧ k.retry.length ≤ 2046 ∧ k.replayDue = false ∧ ∀ v ∈ k.tx, v.q = [] ∧ v.rest = [] ∧ v.cutDue = false)
    ∧ linkOpen (lk 1 [] id) 5 = true ∧ linkOpen { lk 1 [] id with stalls := [pl] } 5 = false ∧ ((lk 1 [] (fun k => { k with step := 1 })).link 5).step < 2 ∧ 4 ≤ ((lk 3 [] (fun k => { k with step := 4 })).link 5).step
    ∧ ((lk 4 [] id).link 5).lastAuto + 100000000 ≤ ({ lk 4 [] id with ref := 100000000 } : State).ref ∧ portLit (lk 4 [] id) 5 = true ∧ (lk 4 [] id).ref < ((lk 4 [] id).link 5).downAt + 100000000
    ∧ linkLanes (lk 3 [] id) 5 (0xFF &&& (lk 3 [] id).rdF pl 0x110 0 8) 0xFF ((lk 3 [] id).rdB pl 0x14 19) = some 0xFF ∧ linkLanes (lk 3 [(pl, 0x104, 0)] id) 5 (0x0F &&& (lk 3 [(pl, 0x104, 0)] id).rdF pl 0x110 0 8) 0x0F ((lk 3 [] id).rdB pl 0x14 19) = none := by decide +kernel
theorem test_capability_answered : ok (.capability 5 caps0) (lk 1 [] (fun k => { k with step := 2, lanes := 0xFF })) (fun t => decide ((t.link 5).step = 4 ∧ (t.link 5).retry.map (fun f => (f.ftype, f.payload.take 12)) = [(2, [1, 1, 0, 0, 0, 0, 0, 0, 0x42, 0, 0, 5]), (2, [3, 1, 0, 0, 0, 0, 0, 0, 0, 0, 0, 0])])) = true := by decide +kernel
theorem test_partner_light : ok (.partnerLight 5 0x07) (lk 1 [] (fun k => { k with step := 1 })) (fun t => decide ((t.link 5).lanes = 7 ∧ (t.link 5).step = 1 ∧ (t.link 5).retry = [])) = true
    ∧ ok (.partnerLight 5 0x08) (lk 1 [] (fun k => { k with step := 1, lanes := 7 })) (fun t => decide ((t.link 5).step = 2 ∧ (t.link 5).lanes = 15 ∧ t.rdF pl 0x20 24 8 = 40)) = true := by decide +kernel
theorem test_capability : ok (.capability 5 caps0) (lk 1 [] (fun k => { k with step := 3, lanes := 0xFF })) (fun t => decide (t.rd pl 0x200 = 9 + 4 * 2 ^ 20 ∧ t.rd pl 0x204 = 0xFF03 ∧ (t.link 5).step = 4)) = true
    ∧ ok (.capability 5 { caps0 with oldest := 4 }) (lk 1 [] (fun k => { k with step := 3, lanes := 0xFF })) (fun t => decide (linkState t 5 = 4 ∧ t.rd pl 0x220 = 3)) = true := by decide +kernel
theorem test_grant_up : ok (.creditGrant 5 10 20 30) (lk 1 [] (fun k => { k with step := 4 })) (fun t => decide (linkState t 5 = 2 ∧ (t.link 5).tx.map (·.credits) = [10, 20, 30] ∧ t.rdB pFabric 0x204 5 = true ∧ t.rdB pl 0x18 8 = true)) = true := by decide +kernel
theorem test_lane_loss : ok (.laneSignalLoss 5 2) (lk 2 [] (fun k => { k with lanes := 0xFF })) (fun t => decide (linkState t 5 = 3 ∧ (t.link 5).lanes = 0 ∧ t.rd pl 0x214 = 1)) = true
    ∧ ok (.retrainComplete 5 0x0F) (lk 3 [(pl, 0x104, 2)] id) (fun t => decide (linkState t 5 = 2 ∧ t.rdF pl 0x204 8 8 = 0x0F ∧ t.rdB pl 0x14 19 = true ∧ t.rdB pl 0x18 11 = true)) = true := by decide +kernel
theorem test_force_down : ok (.linkForceDown 5) (lk 2 [] id) (fun t => decide (linkState t 5 = 4 ∧ t.rd pl 0x220 = 5 ∧ t.rdB pl 0x18 10 = true)) = true ∧ idle (.linkForceDown 5) (lk 4 [] id) = true := by decide +kernel

/-- Flit 1 of virtual channel 0 with a body of bytes, its crc as the flit has it. -/
def fl (ty sq : Nat) (pay : List Byte) : Flit :=
  let f : Flit := ⟨BitVec.ofNat 2 ty, 0, BitVec.ofNat 12 sq, 0, false, false, 1, 2, 3, pay, 0⟩
  { f with crc := BitVec.ofNat 64 (crc64 (flitBytes f)) }
def pkH (g : Nat) : Packet := ⟨2, 10, 0, 8, 0, 0, 0, 0, BitVec.ofNat 32 g, 0, 9, 0, 0, 2, List.replicate 8 0, 0⟩
def txf : TxFlit := ⟨1, 1, 0, false, [5], []⟩
def busy (k : LinkSt) : LinkSt := { k with retry := [txf], seqNext := 2 }
theorem witness_flits : linkState (lk 2 [] id) 5 = 2 ∧ flitOk (fl 1 1 [7, 8]) = true ∧ flitOk { fl 1 1 [7, 8] with crc := 0 } = false ∧ (fl 1 1 []).nak = false ∧ (1 + 4096 - (0 + 1) % 4096) % 4096 = 0 ∧ (2 + 4096 - 1) % 4096 = 1 ∧ (0 + 4096 - 1) % 4096 = 4095
    ∧ LinkSt.init.rx[(fl 1 1 []).vc.toNat]? = some ⟨[], 0, false, 0⟩ ∧ leAt [4, 1] 1 1 = 1 ∧ 3 < leAt [4, 1] 0 1
    ∧ (busy LinkSt.init).retry = txf :: [] ∧ 0 + 100 * (lk 2 [] id).rdF pl 0x114 8 8 ≤ ({ lk 2 [] id with ref := 25500 } : State).ref
    ∧ (1 : Nat) ≤ (lk 2 [] id).rdF pl 0x114 0 8 ∧ (lk 2 [(pl, 0x114, 0xFF00)] id).rdF pl 0x114 0 8 < 1
    ∧ ({ LinkSt.init with tx := [⟨[], [1], [0, 1], 0, false, 1⟩] } : LinkSt).tx[0]? = some ⟨[], [1], [0, 1], 0, false, 1⟩ ∧ ({ LinkSt.init with rx := [⟨[9], 0, false, 0⟩] } : LinkSt).rx[0]? = some ⟨[9], 0, false, 0⟩
    ∧ 0 + 4000 ≤ (4000 : Nat) ∧ 0 + 5000 ≤ (5000 : Nat) ∧ (∀ v ∈ LinkSt.init.tx, v.q = [] ∧ v.rest = [] ∧ v.cutDue = false) := by decide +kernel
theorem witness_flits_more : (let f : Flit := { fl 0 0 [] with nak := true, ack := 0 }; let g : Flit := { f with crc := BitVec.ofNat 64 (crc64 (flitBytes f)) }; flitOk g = true ∧ g.nak = true ∧ g.ftype = 0 ∧ ((busy LinkSt.init).acked g 0).retry = [txf])
    ∧ ({ LinkSt.init with rx := [⟨[], 0, true, 0⟩] } : LinkSt).rx[0]? = some ⟨[], 0, true, 0⟩ ∧ (fl 1 1 [7, 8]).cut = false ∧ packetHeld (lk 2 [] id) (pkH 0) = false
    ∧ packetHeld { lk 2 [(pHoist, 0x14, 1)] id with hoist := [some ⟨0, 0, 0, 9, 0, 2, true, 1, true, [], [], [], false⟩, none, none, none] } (pkH 0) = false
    ∧ (let v : VcTx := ⟨[], [1], [0, 1], 0, false, 1⟩; v.rest ≠ [] ∧ v.cutDue = false ∧ v.credits ≠ 0 ∧ v.whole ≠ [] ∧ ({ v with credits := 0 } : VcTx).credits = 0) ∧ LinkSt.init.ctl = [] ∧ LinkSt.init.replayDue = false ∧ LinkSt.init.retry.length < 2048
    ∧ rxSplit 8 [7, 8] = ([], [7, 8]) ∧ flitOk (fl 2 1 [2, 1]) = true ∧ leAt [2, 1] 0 1 = 2 ∧ (1 + 4096 - (0 + 1) % 4096) % 4096 = 0 := by decide +kernel
theorem test_payload : ok (.payloadFlit 5 (fl 1 1 [0x23, 8])) (lk 2 [] busy) (fun t => decide ((t.link 5).accepted = 1 ∧ ((t.link 5).rx.map (·.buf)) = [[0x23, 8], [], []] ∧ (t.link 5).tx.map (·.credits) = [1, 2, 3])) = true
    ∧ ok (.payloadFlit 5 { fl 1 1 [7, 8] with crc := 0 }) (lk 2 [] id) (fun t => decide ((t.link 5).line.map (fun f => (f.nak, f.ack)) = [(true, 0)] ∧ (t.link 5).accepted = 0)) = true := by decide +kernel
theorem test_ack : ok (.idleFlit 5 (let f : Flit := { fl 0 0 [] with ack := 1 }; { f with crc := BitVec.ofNat 64 (crc64 (flitBytes f)) })) { lk 2 [] busy with ref := 77 } (fun t => decide ((t.link 5).retry = [] ∧ (t.link 5).ackAt = 77)) = true := by decide +kernel
theorem test_cut : ok (.senderCut 5 0) { lk 2 [] (fun k => { k with tx := [⟨[], [1], [0, 1], 0, false, 1⟩] }) with ref := 4000 } (fun t => decide ((t.link 5).retry.map (fun f => (f.cut, f.payload)) = [(true, [0, 1])] ∧ t.rd pl 0x21C = 1)) = true
    ∧ ok (.receiverTruncate 5 0) { lk 2 [] (fun k => { k with rx := [⟨[9], 0, false, 0⟩] }) with ref := 5000 } (fun t => decide ((t.link 5).rx.map (fun v => (v.buf, v.dropping)) = [([], true)] ∧ t.rd pl 0x218 = 1 ∧ t.rdB pl 0x18 15 = true)) = true := by decide +kernel

/-! Packets from connection 7 of node 9 to connection 8 of this module, over link 5. -/

def pc : Page := pConn 8
def pk (ty len sq target : Nat) (body : List Byte) : Packet :=
  let p : Packet := ⟨2, BitVec.ofNat 4 ty, (if ty = 4 then 14 else 0), BitVec.ofNat 13 len, 8, 7, 0, BitVec.ofNat 32 sq, 0, 0, 9, 0, 0, BitVec.ofNat 64 (0x42 * 2 ^ 40 + target), body, 0⟩
  { p with check := BitVec.ofNat 64 (packetCheck p) }
def cn (st : Nat) (l : List (Page × Nat × Nat)) (f : ConnSt → ConnSt) : State :=
  (regs ([(pc, 0x14, 1 + st * 2 ^ 16), (pc, 0x608, 2), (pc, 0x104, 5 + 16 * 2 ^ 8 + 7 * 2 ^ 18), (pc, 0x108, 9), (pc, 0x200, 2), (pc, 0x20C, 1), (pc, 0x208, 4), (pHoist, 0x404, 8), (pHoist, 0x408, 2 ^ 21)] ++ l) ((lk 2 [] id).hwr 0x3000 [1, 2, 3, 4])).modConn 8 f
def okPkt (s : State) (p : Packet) : Bool :=
  decide (p.check.toNat = packetCheck p ∧ 1 ≤ p.ver.toNat ∧ p.ver.toNat ≤ 3 ∧ p.ver.toNat ≤ linkVer s 5 ∧ packetBad p = false ∧ bits p.target.toNat 40 20 = nodeId s ∧ nodeId s ≠ 0xFFFFF)
  && decide (alive s = true ∧ s.enabled pFabric = true ∧ linkState s 5 = 2)
def onPkt (s : State) (p : Packet) : Bool :=
  decide ((connState s 8 = 3 ∨ connState s 8 = 4) ∧ s.quarantined pc = false ∧ p.dstConn.toNat = 8 ∧ p.gen.toNat = s.rd pc 0x2C ∧ p.epoch.toNat = s.rd pc 0x28 ∧ p.srcNode.toNat = s.rdF pc 0x108 0 20 ∧ p.srcConn.toNat = s.rdF pc 0x104 18 14 ∧ p.ver.toNat = s.rdF pc 0x200 0 4)
/-- A packet out to address 0x8000 of node 9 for access 3 of the group of tile 3: four bytes for register 2 of lane 0. -/
def o4 : OutPkt := ⟨⟨2, 0, 4, 0, 0, 9, 0x8000, [], .thread g0 3 [(64, 0, 4)]⟩, 4, 0, false, 0, 0⟩
def ac3 : Access := ⟨3, 0x40, 1, [], none, 1, 2, 1, false, false⟩
def cnOut (st : Nat) : State := (cn st [(pc, 0x210, 1)] (fun k => { k with out := [o4] })).setTile 3 { Tile.init with blocks := [⟨0, la, 1, [{ gp [] with outst := [ac3] }], bars0⟩], nextId := 1 }
def rd4 : Packet := pk 2 4 1 0x3000 []
def wr2 : Packet := pk 1 2 1 0x3001 [9, 8]
def at2 : Packet := pk 3 48 1 0x3000 (desc 48 [(0, 1, 0), (1, 1, 9), (2, 1, 1), (0x10, 4, 5)])
def sg9 : Packet := pk 4 8 1 (3 + 256 * 0x70) (desc 8 [(0, 1, 9)])
def rspP (st : Nat) (b : List Byte) : Packet := pk 5 b.length 0 (st * 2 ^ 32 + 4) b

theorem witness_packets : (∀ p ∈ [rd4, wr2, at2, sg9, rspP 0 [1, 2, 3, 4], pk 6 0 0 4 []], okPkt (cn 3 [] id) p = true ∧ onPkt (cn 3 [] id) p = true) ∧ ({ rd4 with check := 0 } : Packet).check.toNat ≠ packetCheck { rd4 with check := 0 }
    ∧ packetBad (pk 2 0 1 0x3000 []) = true ∧ linkVer (cn 3 [(pl, 0x204, 1)] id) 5 < rd4.ver.toNat ∧ bits rd4.target.toNat 40 20 ≠ nodeId (regs [(pFabric, 0x200, 5)] (cn 3 [] id)) ∧ connState (cn 1 [] id) 8 = 1
    ∧ rd4.gen.toNat ≠ (cn 3 [(pc, 0x2C, 1)] id).rd pc 0x2C ∧ rd4.srcNode.toNat ≠ (cn 3 [(pc, 0x108, 8)] id).rdF pc 0x108 0 20 ∧ rd4.ver.toNat ≠ (cn 3 [(pc, 0x200, 3)] id).rdF pc 0x200 0 4
    ∧ onPkt (cn 4 [] id) rd4 = true ∧ ((cn 3 [] id).conn 8).held = [] := by decide +kernel
theorem witness_requests : (let s := cn 3 [] id; (∀ p ∈ [rd4, wr2, at2], reqHeld s p = false ∧ reqRefused s p = none ∧ memFault s (reqSpan p).1 (reqSpan p).2 = none ∧ diff32 p.seq.toNat (s.rd pc 0x20C) = 0) ∧ orwIndex s (sliceOf s 0x3000) 0x3000 = none)
    ∧ reqRefused (cn 3 [(pTile 3, 0x608, 2)] id) sg9 = none ∧ reqRefused (cn 3 [] id) sg9 = some 7 ∧ reqRefused (cn 3 [] id) (pk 2 4 1 0x2000000 []) = some 6 ∧ reqRefused (cn 3 [] id) (pk 2 4 1 (2 ^ 40 - 8) []) = some 5
    ∧ reqHeld { cn 3 [] id with mem := { up.mem with phyLost := (List.range 12).map (fun n => (n, 0)) } } rd4 = true ∧ memFault { cn 3 [] id with raw := [0xC0] } 0x3000 4 = some (0x10, 0x3000)
    ∧ 1 ≤ diff32 2 1 ∧ diff32 2 1 < 2 ^ 31 ∧ 2 ^ 31 ≤ diff32 (2 ^ 31 + 1) 1 ∧ diff32 (2 ^ 31 + 1) 1 < 2 ^ 32 - 64 ∧ 2 ^ 32 - 64 ≤ diff32 0 1 ∧ 2 ^ 32 - 64 ≤ diff32 (1 + 2 ^ 32 - 64) 1 ∧ diff32 (2 ^ 32 - 64) 1 < 2 ^ 32 - 64
    ∧ (cn 3 [] (fun k => { k with answers := [(0, 0, 3, 77)] })).conn 8 = { ConnSt.init with answers := [(0, 0, 3, 77)] } := by decide +kernel
theorem witness_answers : ((cnOut 3).conn 8).out.find? (fun o => decide (o.seq = (rspP 0 []).target.toNat % 2 ^ 32)) = some o4 ∧ (∀ o ∈ ((cn 3 [] id).conn 8).out, o.seq ≠ 4) ∧ ((cnOut 3).conn 8).wait = [] ∧ ((cnOut 3).conn 8).closing = false ∧ ((cnOut 3).conn 8).peerClosed = false
    ∧ (∀ k ∈ [0, 1, 5, 8, 9, 10, 11], bits (rspP k []).target.toNat 32 8 = k ∧ okPkt (cnOut 3) (rspP k []) = true ∧ onPkt (cnOut 3) (rspP k []) = true) ∧ o4.cuts = 0 := by decide +kernel
theorem test_rd : ok (.rd 5 rd4) (cn 3 [] id) (fun t => decide ((t.link 5).tx.map (fun v => v.q.map (fun b => (b.take 1, (b.drop 32).take 4))) = [[], [([0x52], [1, 2, 3, 4])], []] ∧ t.rd pc 0x20C = 2)) = true
    ∧ ok (.wr 5 wr2) (cn 3 [] id) (fun t => decide (t.hnat 0x3000 4 = 0x04080901 ∧ (t.conn 8).answers = [(1, 0, 1, 0)])) = true := by decide +kernel
theorem test_atom_sig : ok (.atom 5 at2) (cn 3 [] id) (fun t => decide (t.hnat 0x3000 4 = 0x04030206 ∧ (t.conn 8).answers = [(1, 0, 3, 0x04030201)])) = true ∧ ok (.sig 5 sg9) (cn 3 [(pTile 3, 0x608, 2)] id) (fun t => decide (t.sig 3 0x70 = 9)) = true := by decide +kernel
theorem test_duplicate : ok (.wr 5 wr2) (cn 3 [(pc, 0x20C, 2)] (fun k => { k with answers := [(1, 0, 1, 0)] })) (fun t => decide (t.hnat 0x3000 4 = 0x04030201 ∧ t.rd pc 0x20C = 2 ∧ (t.link 5).tx.map (fun v => v.q.length) = [0, 1, 0])) = true
    ∧ ok (.rd 5 (pk 2 4 1 0x2000000 [])) (cn 3 [] id) (fun t => decide (t.rd pc 0x218 = 1 ∧ t.rd pFabric 0x21C = 1 ∧ t.rdB pFabric 0x18 10 = true)) = true := by decide +kernel
theorem test_rsp : ok (.rsp 5 (rspP 0 [1, 2, 3, 4])) (cnOut 3) (fun t => decide ((t.conn 8).out = [] ∧ (t.tile 3).blocks.map (fun b => b.groups.map (fun g => g.outst)) = [[[{ ac3 with remote := 0, writes := [(64, 0x04030201)] }]]])) = true
    ∧ ok (.rsp 5 (rspP 11 [])) (cnOut 3) (fun t => decide (connState t 8 = 5 ∧ t.rd pc 0x21C = 5 ∧ (t.conn 8).out = [] ∧ (t.tile 3).blocks.map (fun b => b.groups.map (fun g => g.outst.map (·.fault))) = [[[some (0x2C, 9 * 2 ^ 40 + 0x8000)]]])) = true := by decide +kernel

theorem witness_packets_more : (∀ x ∈ (cn 3 [] id).bind.tds, x.step ≠ 3) ∧ reportHeld (cn 3 [] id) 0 = false ∧ reqWaits { cn 3 [] id with mem := { up.mem with phyLost := (List.range 12).map (fun n => (n, 0)) } } rd4 = true ∧ reqWaits (cn 3 [] id) rd4 = false
    ∧ ((cn 3 [] id).conn 8).mute = 0 ∧ retryUsed (cnOut 3) < 65536 ∧ 0 < ({ o4 with cuts := 1 } : OutPkt).cuts ∧ inProgress (cnOut 3) 5 8 4 = false
    ∧ inProgress ((cnOut 3).modLink 5 (fun k => { k with tx := lmod (fun v => { v with rest := [1], whole := packetBytes (pktOf (cnOut 3) 8 o4.req 4) }) k.tx 0 })) 5 8 4 = true ∧ connPort (cnOut 3) 8 = 5
    ∧ (let a := rspP 10 []; okPkt (cnOut 3) a = true ∧ onPkt (cnOut 3) a = true ∧ bits a.target.toNat 32 8 = 10) ∧ [(1, 0, 1, 0)].find? (fun y => decide (y.1 = rd4.seq.toNat)) = some (1, 0, 1, 0)
    ∧ (let s := cn 5 [] (fun k => { k with held := [wr2], mute := 1 }); connRuns s 8 = true ∧ connState s 8 = 5 ∧ (s.conn 8).held = [wr2] ∧ (s.conn 8).mute ≠ 0 ∧ wr2.body.length = wr2.len.toNat ∧ reqHeld s wr2 = false ∧ reqRefused s wr2 = none ∧ memFault s 0x3001 2 = none) := by decide +kernel
theorem test_mute : ok (.holdSend 8) (cn 5 [] (fun k => { k with held := [wr2], mute := 1 })) (fun t => decide (t.hnat 0x3000 4 = 0x04080901 ∧ (t.conn 8).held = [] ∧ (t.link 5).tx.map (fun v => v.q.length) = [0, 0, 0])) = true := by decide +kernel

def oAck (st : Nat) : Packet := pk 8 8 0 (st * 2 ^ 32) (desc 8 [(0, 1, 2)])
def cl : Packet := pk 9 0 0 0 []
theorem witness_connections : alive (cn 1 [] id) = true ∧ served (cn 1 [] id) = true ∧ connState (cn 1 [] id) 8 = 1 ∧ bstate (cn 1 [] id) pc = 2 ∧ nodeId (cn 1 [] id) ≠ 0xFFFFF ∧ linkState (cn 1 [] id) (connPort (cn 1 [] id) 8) = 2 ∧ dfltConflict (cn 1 [] id) 8 = false
    ∧ dfltConflict { cn 1 [(pc, 0x104, 5 + 32), (pConn 9, 0x104, 32), (pConn 9, 0x108, 9), (pConn 9, 0x14, 2 ^ 16)] id with bind := { up.bind with bound := [pConn 9] } } 8 = true
    ∧ connRuns (cn 2 [] id) 8 = true ∧ connState (cn 2 [] id) 8 = 2 ∧ 0 + 10000 ≤ ({ cn 2 [] id with ref := 10000 } : State).ref ∧ ((cn 2 [] (fun k => { k with openSince := some 0 })).conn 8).openSince = some 0 ∧ 0 + 100000 * (cn 2 [] id).rdF pFabric 0x10C 16 16 ≤ 100000 * 65535
    ∧ ((cnOut 3).conn 8).out.find? (fun o => decide (o.seq = 4)) = some o4 ∧ o4.sentAt + 100 * (cnOut 3).rdF pFabric 0x10C 0 16 ≤ 100 * 65535 ∧ o4.covered = false ∧ ({ o4 with covered := true } : OutPkt).covered = true
    ∧ ((cnOut 3).conn 8).out = [o4] ∧ ((cnOut 3).conn 8).silentFrom + 1000000 ≤ ({ cnOut 3 with ref := 1000000 } : State).ref ∧ ((cnOut 3).conn 8).heard + 1000000 ≤ ({ cnOut 3 with ref := 1000000 } : State).ref ∧ connState (cnOut 4) 8 = 4
    ∧ (cn 3 [] id).conn 8 = ConnSt.init ∧ (let s := { cn 3 [] (fun k => { k with held := [rd4] }) with mem := { up.mem with phyLost := (List.range 12).map (fun n => (n, 0)) } }; reqWaits s rd4 = true ∧ 2 ≤ s.rdF pc 0x200 0 4) := by decide +kernel
theorem witness_open_packets : (let o := pk 7 8 0 0 (desc 8 [(0, 1, 0x31)]); okPkt (cn 1 [] id) o = true ∧ openStatus (cn 1 [] id) o = (0, 3) ∧ (openStatus (cn 0 [] id) o).1 = 12) ∧ (openStatus (cn 1 [] id) (pk 7 8 0 0 (desc 8 [(0, 1, 0xF4)]))).1 = 11
    ∧ okPkt (cn 2 [] id) (oAck 0) = true ∧ connState (cn 2 [] id) 8 = 2 ∧ (oAck 0).gen.toNat = (cn 2 [] id).rd pc 0x2C ∧ (oAck 0).srcNode.toNat = (cn 2 [] id).rdF pc 0x108 0 20 ∧ (oAck 0).srcConn.toNat = (cn 2 [] id).rdF pc 0x104 18 14
    ∧ bits (oAck 12).target.toNat 32 8 = 12 ∧ bits (oAck 11).target.toNat 32 8 = 11 ∧ okPkt (cn 3 [] id) cl = true ∧ cl.epoch.toNat = (cn 3 [] id).rd pc 0x28 ∧ ((cn 3 [] id).conn 8).closing = false := by decide +kernel
theorem test_open : ok (.connOpen 8) { cn 1 [] id with ref := 50 } (fun t => decide (connState t 8 = 2 ∧ (t.conn 8).openSince = some 50 ∧ (t.link 5).tx.map (fun v => v.q.map (fun b => b.take 1)) = [[], [], [[0x73]]])) = true ∧ ok (.connOpen 8) (cn 3 [] id) (fun t => flagged (cn 3 [] id) t [] pc 11) = true := by decide +kernel
theorem test_open_ack : ok (.openAck 5 (oAck 0)) (cn 2 [] id) (fun t => decide (connState t 8 = 3 ∧ t.openConns = [8] ∧ t.rd pc 0x208 = 1 ∧ t.rd pc 0x200 = 2)) = true ∧ ok (.openAck 5 (oAck 11)) (cn 2 [] id) (fun t => decide (connState t 8 = 5 ∧ t.rd pc 0x21C = 4)) = true := by decide +kernel
theorem test_close : ok (.connClose 8) (cn 3 [] id) (fun t => decide (connState t 8 = 1 ∧ (t.link 5).tx.map (fun v => v.q.length) = [0, 0, 1])) = true ∧ ok (.closePkt 5 cl) (cnOut 3) (fun t => decide (connState t 8 = 3 ∧ (t.conn 8).peerClosed = true)) = true := by decide +kernel
theorem test_silent : ok (.connSilent 8) { cnOut 3 with ref := 1000000 } (fun t => decide (connState t 8 = 5 ∧ t.rd pc 0x21C = 2)) = true ∧ idle (.connSilent 8) { cnOut 3 with ref := 999999 } = true := by decide +kernel
theorem test_rto : ok (.rtoResend 8 4) { cnOut 3 with ref := 6553500 } (fun t => decide (t.rd pc 0x214 = 1 ∧ (t.conn 8).out = [{ o4 with sentAt := 6553500 }])) = true ∧ idle (.rtoResend 8 4) (cnOut 3) = true := by decide +kernel

/-! Palur. -/

/-- A request of a command, its selector, its length and further fields. -/
def q (c a n : Nat) (l : List (Nat × Nat × Nat)) : PReq := ⟨none, desc 256 ([(0, 1, 1), (1, 1, c), (2, 1, n), (8, 1, a)] ++ l)⟩
/-- The module with the request at the head of Palur's queue. -/
def ask (r : PReq) (s : State) : State := { s with palur := { s.palur with reqs := [r] } }
def st1 : Store := { Store.shipped with calib := [7, 8, 9, 10], burgee := List.replicate 8 0 ++ [1, 2, 3, 4, 5, 6, 7, 8], lifecycle := 1 }
def pal (l : List (Page × Nat × Nat)) (f : PalurSt → PalurSt) : State := let s := regs ([(pPalur, 0x300, 5)] ++ l) up; { s with palur := f s.palur, store := st1 }
/-- The request is taken, and neither the fatal state nor the state table denies it. -/
def serves (r : PReq) (row : Nat) (s : State) : Bool :=
  decide (canServe (ask r s) r = true ∧ malformed r = none ∧ r.row = row) && decide (s.rdF pErrlog 0x220 0 2 ≠ 2 ∧ denied s r = false)
def ovr (r : PReq) : PReq := { r with session := some (7, 3) }
/-- Requests of every row, in the order of the table of them. -/
def qAll : List PReq :=
  [q 1 0 0 [], q 2 0 0 [], q 0x11 1 1 [], q 0x11 2 16 [(0x10, 8, 0x8000)], q 0x11 3 1 [], q 0x12 0 0 [], q 0x20 0 20 [(0x10, 5, 0x1000), (0x18, 4, 100)], q 0x20 1 12 [(0xA, 2, 4), (0x10, 4, 0x04030201)], q 0x20 2 1 [],
   q 0x21 0 1 [], q 0x30 0 28 [(0x10, 1, 0x24)], q 0x30 1 28 [(0x10, 1, 0x24)], q 0x30 2 1 [], q 0x31 0 21 [(0x11, 5, 0x1000), (0x19, 4, 100)], q 0x31 1 1 [], q 0x31 2 1 [], q 0x31 3 40 [(0x10, 2, 0x0201)],
   q 0x31 4 1 [], q 0x40 0 0 [], q 0x41 0 0 [], q 0x50 0 56 [(0x10, 1, 9)], q 0x50 1 8 [(0xA, 2, 2)], q 0x50 2 8 [(0xA, 2, 8), (0xC, 4, 8)], q 0x60 0 8 [(0xC, 4, 1)], q 0x70 0 8 [(0xA, 2, 2), (0xC, 4, 1)],
   q 0x71 0 10 [(0xA, 2, 2), (0xC, 4, 1), (0x10, 2, 0x0201)], q 0x71 1 8 [], q 0x71 2 1 []]

theorem witness_requests_served : served (pal [] id) = true ∧ (qAll.zip palurTable).all (fun x => serves x.1 x.2.2.1 (pal [] id)) = true ∧ qAll.length = palurTable.length ∧ (pal [] id).palur.reqs = [] ∧ (pal [] id).palur.long = none := by decide +kernel
theorem witness_requests_denied : (let s := pal [(pErrlog, 0x220, 2)] id; s.rdF pErrlog 0x220 0 2 = 2 ∧ canServe (ask (q 0x21 0 1 []) s) (q 0x21 0 1 []) = true ∧ fatalServes (q 0x21 0 1 []).cmd = false)
    ∧ (let s := pal [] id; canServe (ask (ovr (q 0x21 0 1 [])) s) (ovr (q 0x21 0 1 [])) = true ∧ denied s (ovr (q 0x21 0 1 [])) = true ∧ s.rdF pErrlog 0x220 0 2 ≠ 2)
    ∧ (let s := pal [] (fun k => { k with long := some (.attest []) }); serves (q 0x21 0 1 []) 0x2100 s = true ∧ s.palur.long ≠ none) := by decide +kernel
theorem witness_mailbox : (96 < (97 : BitVec 8).toNat ∧ (96 : BitVec 8).toNat ≤ 96 ∧ (pal [(pPalur, 0x300, 0)] id).rd pPalur 0x300 = 0 ∧ (pal [] id).rd pPalur 0x300 ≠ 0) ∧ (pal [(pPalur, 0x308, 1)] id).rdB pPalur 0x308 0 = true
    ∧ (let m := desc 256 [(0, 1, 1), (1, 1, 2)]; let s := pal [(pPalur, 0x400, 0x0201)] id; (∀ i, i < 64 → leAt m (4 * i) 4 = s.rd pPalur (0x400 + 4 * i)) ∧ m.length = 256 ∧ s.rdB pPalur 0x308 0 = false ∧ malformed ⟨none, m⟩ = none)
    ∧ (let m := desc 256 [(0, 1, 1), (1, 1, 9)]; let s := pal [(pPalur, 0x400, 0x0901)] id; (∀ i, i < 64 → leAt m (4 * i) 4 = s.rd pPalur (0x400 + 4 * i)) ∧ m.length = 256 ∧ malformed ⟨none, m⟩ = some (2, []) ∧ canServe s ⟨none, m⟩ = true) := by decide +kernel
/-- A datagram of session 7 with a message of eight bytes, and the port that hears it. -/
def dg (seq : Nat) : List Byte := desc 40 [(0, 1, 1), (2, 2, 8), (4, 4, 7), (8, 8, seq)]
def keyed (high : Nat) (l : List (Nat × Nat)) : State :=
  let s := pal [(pMgmt, 0x14, 1), (pMgmt, 0x208, 1)] (fun k => { k with sessions := l })
  { s with store := { st1 with mgmtKey := some [1], sessHigh := high } }
/-- The hypotheses on a datagram but the one on what the cipher, which stays open, makes of it: that it is authentic and that it is not are both met, for one cipher or another. -/
theorem witness_datagrams : (let d := dg 3; mgmtHears (keyed 7 [(7, 2)]) = true ∧ 16 ≤ d.length ∧ leAt d 0 1 = 1 ∧ leAt d 1 1 = 0 ∧ leAt d 4 4 = 7 ∧ leAt d 8 8 = 3 ∧ (3 : Nat) < 2 ^ 63 ∧ d.length = leAt d 2 2 + 32 ∧ 8 ≤ leAt d 2 2 ∧ leAt d 2 2 ≤ 256
      ∧ (keyed 7 [(7, 2)]).store.mgmtKey ≠ none ∧ (keyed 7 [(7, 2)]).palur.sessions.find? (fun x => decide (x.1 = 7)) = some (7, 2) ∧ (keyed 7 [(7, 3)]).palur.sessions.find? (fun x => decide (x.1 = 7)) = some (7, 3) ∧ (2 : Nat) < 3 ∧ (3 : Nat) ≤ 3)
    ∧ (keyed 6 []).store.sessHigh < 7 ∧ (∀ x ∈ (keyed 6 []).palur.sessions, x.1 ≠ 7) ∧ 7 ≤ (keyed 7 []).store.sessHigh ∧ (keyed 6 []).palur.reqs = [] ∧ malformed ⟨some (7, 3), slice (desc 8 [(0, 1, 1), (1, 1, 2)]) 0 256⟩ = none
    ∧ leAt (lset (dg 3) 0 2) 0 1 ≠ 1 ∧ ¬ (16 ≤ ((dg 3).take 15).length) ∧ (pal [(pMgmt, 0x14, 1), (pMgmt, 0x208, 1)] id).store.mgmtKey = none ∧ mgmtHears (pal [(pMgmt, 0x14, 1), (pMgmt, 0x208, 1)] id) = true := by decide +kernel
/-- The port with DHCPv4 on and a client in a state, or with the static address 0x0A000005. -/
def net0 (n : MgmtNet) (l : List (Page × Nat × Nat)) : State := { pal ([(pMgmt, 0x14, 1), (pMgmt, 0x208, 1)] ++ l) id with mgmt := n }
def stat : State := net0 MgmtNet.init [(pMgmt, 0x104, 0), (pMgmt, 0x10C, 0x0A000005), (pMgmt, 0x118, 9)]
theorem witness_frames : mgmtHears stat = true ∧ portIp4 stat = some 0x0A000005 ∧ portIp4 stat ≠ some 0x0A000006 ∧ ownIp6 stat 9 = true ∧ ownIp6 stat 0 = false ∧ ownIp6 stat (linkLocal stat) = true
    ∧ (let s := net0 ⟨1, 77, none, none⟩ [(pMgmt, 0x104, 2 ^ 16)]; mgmtHears s = true ∧ s.rdB pMgmt 0x104 16 = true ∧ (77 : BitVec 32).toNat = s.mgmt.xid ∧ s.mgmt.dhcp = 1 ∧ portIp4 s = none ∧ (78 : BitVec 32).toNat ≠ s.mgmt.xid)
    ∧ (net0 ⟨2, 77, none, none⟩ []).mgmt.dhcp = 2 := by decide +kernel
theorem test_frames : ok (.mgmtFrame (.arp true 0x42 7 0x0A000005)) stat (fun t => decide (t.mgmt.sent = some (none, .arp 0x0A000005 (portMac stat) 0x42))) = true
    ∧ ok (.mgmtFrame (.dhcp .ack 77 0x0A000007 1 24 0x0A000001 3600)) (net0 ⟨2, 77, none, none⟩ [(pMgmt, 0x104, 2 ^ 16)]) (fun t => decide (portIp4 t = some 0x0A000007)) = true := by decide +kernel
def cal0 : List Byte := List.replicate 16 1
theorem witness_reads : (pal [] (fun k => { k with long := some (.attest [1]) })).palur.long = some (.attest [1]) ∧ (pal [] (fun k => { k with report := some [1, 2] })).palur.report = some [1, 2] ∧ st1.burgee.length = (q 0x50 2 8 [(0xA, 2, 8), (0xC, 4, 8)]).le 0xC 4 + (q 0x50 2 8 [(0xA, 2, 8)]).le 0xA 2
    ∧ st1.calib.length < (q 0x70 0 8 [(0xC, 4, 1)]).le 0xC 4 + (q 0x70 0 8 [(0xA, 2, 4)]).le 0xA 2 ∧ (q 0x70 1 8 []).arg = 1 ∧ (pal [] (fun k => { k with calPend := some cal0 })).palur.calPend = some cal0
    ∧ calOk (pal [] id) (q 0x71 0 8 []) = true ∧ calOk { pal [] id with store := { st1 with lifecycle := 3 } } (q 0x71 0 8 []) = false ∧ serves (q 0x71 1 8 []) 0x7101 { pal [] id with store := { st1 with lifecycle := 3 } } = true
    ∧ 8192 < (q 0x71 0 9 [(0xA, 2, 1), (0xC, 4, 8192)]).le 0xC 4 + (q 0x71 0 9 [(0xA, 2, 1), (0xC, 4, 8192)]).le 0xA 2 ∧ (8191 : Nat) + 1 ≤ 8192 ∧ calBad { pal [] id with store := { st1 with banks := [] } } cal0 0 = true := by decide +kernel
/-- A pending copy of the right layout, length and reserved bytes is taken with the checksum that it has. -/
theorem witness_commit : ∃ crc, crc32 ((desc 12 [(0, 2, 1), (4, 4, 8192)]).take 0x1FFC) = crc ∧ calBad { pal [] id with store := { st1 with banks := [] } } (desc 12 [(0, 2, 1), (4, 4, 8192)]) crc = false := by
  refine ⟨_, rfl, ?_⟩; decide +kernel
theorem test_mbx_go : ok .mbxGo (pal [(pPalur, 0x400, 0x0901)] id) (fun t => decide (t.rd pPalur 0x500 = 0x0901 ∧ t.rd pPalur 0x504 = 0x0200 ∧ t.rd pPalur 0x308 = 0 ∧ t.rdB pPalur 0x18 8 = true ∧ t.palur.reqs = [])) = true
    ∧ ok .mbxGo (pal [(pPalur, 0x308, 1)] id) (fun t => decide (t.rd pPalur 0x308 = 3)) = true := by decide +kernel
theorem test_owner : ok (.mbxOwnerWrite 6) (pal [(pPalur, 0x300, 0)] id) (fun t => decide (t.rd pPalur 0x300 = 6)) = true ∧ idle (.mbxOwnerWrite 6) (pal [] id) = true := by decide +kernel
theorem test_get_result : ok .getResult (ask (q 2 0 0 [(3, 2, 0x55)]) (pal [] (fun k => { k with result := [0xF, 1, 0, 0, 0] }))) (fun t => decide (t.rd pPalur 0x500 = 0x55050201 ∧ t.rd pPalur 0x508 = 0x10F ∧ t.palur.reqs = [])) = true
    ∧ idle .getResult (ask (q 1 0 0 []) (pal [] id)) = true := by decide +kernel
theorem test_cal_read : ok .calRead (ask (q 0x70 0 8 [(0xA, 2, 2), (0xC, 4, 1)]) (pal [] id)) (fun t => decide (t.rd pPalur 0x508 = 0x0908)) = true
    ∧ ok .calRead (ask (q 0x70 0 8 [(0xA, 2, 4), (0xC, 4, 1)]) (pal [] id)) (fun t => decide (t.rd pPalur 0x504 = 0x0300)) = true := by decide +kernel
theorem test_cal_write : ok .calWriteData (ask (q 0x71 0 10 [(0xA, 2, 2), (0xC, 4, 1), (0x10, 2, 0x0605)]) (pal [] id)) (fun t => decide (t.palur.calPend = some [7, 5, 6, 10])) = true
    ∧ ok .calDiscard (ask (q 0x71 2 1 []) (pal [] (fun k => { k with calPend := some [1] }))) (fun t => decide (t.palur.calPend = none)) = true := by decide +kernel
theorem test_replay : ok (.mgmtDatagram ((dg 3).take 15)) (keyed 7 [(7, 3)]) (fun t => decide (t.rd pMgmt 0x210 = 1 ∧ t.rd pMgmt 0x218 = 1 ∧ t.rdB pMgmt 0x18 10 = true)) = true
    ∧ ok (.mgmtFrame .other) (keyed 7 []) (fun t => decide (t.rd pMgmt 0x210 = 1 ∧ t.rd pMgmt 0x214 = 1)) = true := by decide +kernel

/-! Firmware. -/

/-- An image header of version 2 and a bank that holds it. -/
def img (cls : Nat) (svn : Nat) (sound : Bool) : Image := ⟨desc 512 [(0, 4, 0x4B414E52), (4, 1, 2), (5, 1, cls), (6, 2, 512), (8, 4, 0x9740), (0x14, 4, svn), (0x70, 2, 3), (0x72, 2, 1)], sound⟩
def bank (x : Option Image) (f : Store → Store) (r : PReq) (k : PalurSt → PalurSt) : State := let s := pal [] k; ask r { s with store := f { st1 with banks := [some (img 0 11 true), x], staged := x.isSome } }
def chunk4 (off last : Nat) : PReq := q 0x20 1 12 [(9, 1, last), (0xA, 2, 4), (0xC, 4, off), (0x10, 4, 0x04030201)]
def stg (got : List Byte) (closing : Bool) (now : Nat) : State := { pal [(pPalur, 0x14, 8)] (fun k => { k with long := some (.stage none got 5 closing) }) with ref := now }
def act0 : PReq := q 0x21 0 1 []
theorem witness_staging : ((chunk4 4 0).le 0xC 4 ≠ 0 ∧ (chunk4 0 0).le 0xC 4 = 0 ∧ (chunk4 2 0).le 0xC 4 = ([9, 8] : List Byte).length ∧ (chunk4 3 0).le 0xC 4 ≠ ([9, 8] : List Byte).length)
    ∧ (stg [9, 8] false 0).palur.long = some (.stage none [9, 8] 5 false) ∧ (stg [9, 8] false 0).opBusy pPalur = true ∧ staging (stg [9, 8] false 0) = true ∧ staging (pal [] id) = false ∧ serves (chunk4 2 0) 0x2001 (stg [9, 8] false 0) = true
    ∧ (stg [9, 8] true 0).palur.long ≠ none ∧ (∀ got since, (stg [9, 8] true 0).palur.long ≠ some (.stage none got since false)) ∧ serves (q 0x20 2 1 []) 0x2002 (stg [9, 8] false 0) = true
    ∧ 5 + 6000000000 ≤ (stg [9, 8] false 6000000005).ref ∧ (stg [9, 8] false 6000000004).ref < 5 + 6000000000
    ∧ ({ pal [] id with palur := { up.palur with long := some (.token none [1] 5 false) } } : State).palur.long = some (.token none [1] 5 false) := by
  refine ⟨by decide +kernel, by decide +kernel, by decide +kernel, by decide +kernel, by decide +kernel, by decide +kernel, by decide +kernel, ?_, by decide +kernel, by decide +kernel, by decide +kernel, by decide +kernel⟩
  intro got since h
  have h2 : (stg [9, 8] true 0).palur.long = some (.stage none [9, 8] 5 true) := by rfl
  rw [h2] at h; simp at h
theorem witness_chunk_header : leAt (([] : List Byte) ++ ((chunk4 0 0).msg.drop 0x10).take ((chunk4 0 0).le 0xA 2)) 0 4 = 0x04030201 ∧ ([] : List Byte).length < 512 + 16608 ∧ ¬ (512 + 16608 ≤ (([] : List Byte) ++ ((chunk4 0 0).msg.drop 0x10).take 4).length)
    ∧ (headerCheck (pal [] id) [1, 2, 3, 4]).1 ≠ 0 ∧ (17116 : Nat) < 512 + 16608 ∧ 512 + 16608 ≤ 17116 + ((chunk4 17116 0).le 0xA 2) ∧ (chunk4 17116 0).le 0xC 4 = 17116 := by decide +kernel
theorem witness_stage_complete : (stg [1, 2, 3] true 0).up = true ∧ (stg [1, 2, 3] true 0).paused = false ∧ longSource (stg [1, 2, 3] true 0) = (stg [1, 2, 3] true 0, some (.ok [1, 2, 3])) ∧ (imageCheck (stg [1, 2, 3] true 0) [1, 2, 3]).1 = 0xA
    ∧ (let s := pal [] (fun k => { k with long := some (.stage (some (32, 100)) [] 0 false) }); longSource s = (s, some (.error (0xA, 0)))) := by
  refine ⟨by rfl, by rfl, by rfl, by decide +kernel, ?_⟩
  rfl
theorem witness_activation : serves act0 0x2100 (bank none id act0 id) = true ∧ stagedImage (bank none id act0 id) = none ∧ stagedImage (bank (some (img 0 11 true)) id act0 id) = some (img 0 11 true) ∧ (bank (some (img 0 11 true)) id act0 id).store.staged = true
    ∧ (bank (some (img 0 11 true)) id act0 id).store.stagedBad = false ∧ (bank (some (img 0 11 true)) (fun k => { k with stagedBad := true }) act0 id).store.stagedBad = true ∧ classOk (pal [] id) (img 1 11 true) = false ∧ classOk (pal [] id) (img 0 11 true) = true
    ∧ startCheck (bank none id act0 id) (img 0 11 true) = 0 ∧ startCheck (bank none id act0 id) (img 0 11 false) = 8 ∧ startCheck (bank none id act0 id) (img 0 10 true) = 6
    ∧ (bank (some (img 0 12 true)) id act0 (fun k => { k with long := some (.activate false) })).palur.long = some (.activate false) := by decide +kernel
/-- A bank with a staged image under way, whose settings records have the layouts and the check that the test gives. -/
def recs (f : Store → Store) : State := bank (some (img 0 12 true)) f act0 (fun k => { k with long := some (.activate false) })
theorem witness_settings : (recs (fun k => { k with badRecs := [0] })).store.kept = [] ∧ 0 ∈ (recs (fun k => { k with badRecs := [0] })).store.badRecs ∧ (recs (fun k => { k with palurLay := 2 })).store.palurLay < (img 0 12 true).setLay
    ∧ (img 0 12 true).setLay < (recs (fun k => { k with mgmtLay := 4 })).store.mgmtLay ∧ (img 0 12 true).setLay = 3 ∧ sourceHeld (stg [1, 2, 3] true 0) = false
    ∧ sourceHeld (pal [] (fun k => { k with long := some (.stage (some (64, 64)) [] 0 false) })) = true ∧ sourceHeld (pal [] (fun k => { k with long := some (.token (some (64, 64)) [] 0 false) })) = true := by decide +kernel
theorem test_settings_live : ok (.fwActivateComplete true 7) (recs (fun k => { k with mgmtLay := 4, mgmtSet := [9], palurLay := 2, mapped := [5], rowsLay := 4 })) (fun t => decide (t.store.mgmtSet = shippedMgmt ∧ t.rd pMgmt 0x104 = 3
      ∧ t.store.kept.any (fun y => y.1 = 0 && y.2.lay = 4 && y.2.words = [9]) = true ∧ t.store.palurLay = 3 ∧ t.store.mapped = [5] ∧ t.store.rowsLay = 4 ∧ bits (t.rd pPalur 0x18) 18 3 = 3)) = true := by decide +kernel
theorem test_chunks : ok .fwStageChunk (ask (chunk4 0 0) (pal [] id)) (fun t => decide (t.palur.long = some (.stage none [1, 2, 3, 4] 0 false) ∧ t.store.banks[1]? = some none ∧ t.rd pPalur 0x504 = 0 ∧ t.opBusy pPalur = true)) = true
    ∧ ok .fwStageChunk (ask (chunk4 3 0) (stg [9, 8] false 0)) (fun t => decide (t.palur.long = none ∧ t.palur.result = [0xA, 2, 0, 0, 0] ∧ t.rd pPalur 0x504 = 0x0700 ∧ t.rdB pPalur 0x18 10 = true ∧ t.opBusy pPalur = false)) = true := by decide +kernel
theorem test_stage_complete : ok (.fwStageComplete true) (stg [1, 2, 3] true 0) (fun t => decide (t.palur.long = none ∧ t.palur.result = [0xA, 3, 0, 0, 0] ∧ t.rdB pPalur 0x18 7 = true)) = true := by decide +kernel
theorem test_chunk_timeout : ok .stagingChunkTimeout (stg [9, 8] false 6000000005) (fun t => decide (t.palur.long = none ∧ t.palur.result = [0xA, 2, 0, 0, 0])) = true ∧ idle .stagingChunkTimeout (stg [9, 8] false 6000000004) = true := by decide +kernel
theorem test_activate : ok .fwActivate (bank none id act0 id) (fun t => decide (t.palur.result = [0xF, 0, 0, 0, 0] ∧ t.rd pPalur 0x504 = 0x0700)) = true
    ∧ ok .fwActivate (bank (some (img 0 12 true)) id act0 id) (fun t => decide (t.paused = true ∧ t.palur.long = some (.activate false) ∧ t.rd pPalur 0x504 = 0x0100)) = true := by decide +kernel
theorem test_activated : ok (.fwActivateComplete true 77) (bank (some (img 0 12 true)) id act0 (fun k => { k with long := some (.activate false) })) (fun t => decide (t.store.active = 1 ∧ t.store.minSvn = 12 ∧ t.palur.pauseUs = 77 ∧ t.palur.long = none ∧ t.rdB pPalur 0x18 11 = true)) = true
    ∧ ok (.fwActivateComplete false 77) (bank (some (img 0 12 true)) id act0 (fun k => { k with long := some (.activate false) })) (fun t => decide (t.store.active = 0 ∧ t.store.stagedBad = true ∧ t.palur.result = [0x10, 0, 0, 0, 0] ∧ t.rdB pPalur 0x18 12 = true)) = true := by decide +kernel

/-! Tokens, the debug state and self-test. -/

def tok0 (off last : Nat) : PReq := q 0x31 0 12 [(9, 1, 1), (0xA, 1, last), (0xB, 2, 3), (0xD, 4, off), (0x11, 3, 0x030201)]
def tok (got : List Byte) (closing : Bool) (now : Nat) : State := { pal [(pPalur, 0x14, 8)] (fun k => { k with long := some (.token none got 5 closing), challenge := some ([1], 0) }) with ref := now }
def life (n : Nat) (s : State) : State := { s with store := { s.store with lifecycle := n } }
def tests (l : List (Page × Nat × Nat)) (p : List Nat) : State := let s := pal l id; { s with power := { s.power with rails := p } }
def testing (k : Nat) (l : List Nat) (rg : List (Page × Nat × Nat)) : State := (pal ([(pPalur, 0x14, 8), (pTile 2, 0x14, 1), (pTile 5, 0x14, 1), (pHostc, 0x218, 3)] ++ rg) (fun s => { s with long := some (.selfTest k l) })).twr 5 0x100 [9]
theorem witness_tokens : serves (tok0 0 0) 0x3100 (pal [] id) = true ∧ (tok0 0 0).le 9 1 = 1 ∧ (tok0 0 0).le 0xD 4 = 0 ∧ (tok0 3 0).le 0xD 4 ≠ 0 ∧ (q 0x31 0 21 []).le 9 1 = 0 ∧ serves (q 0x31 0 21 []) 0x3100 (tok [1] false 0) = true ∧ (tok [1] false 0).palur.long ≠ none
    ∧ (tok [1, 2, 3] false 0).palur.long = some (.token none [1, 2, 3] 5 false) ∧ serves (tok0 3 0) 0x3100 (tok [1, 2, 3] false 0) = true ∧ (tok0 3 0).le 0xD 4 = [1, 2, 3].length ∧ (tok0 2 0).le 0xD 4 ≠ [1, 2, 3].length
    ∧ (q 0x31 2 1 []).session = none ∧ (pal [] id).store.lifecycle = 1 ∧ (life 2 (pal [] id)).store.lifecycle ≠ 1 ∧ serves (q 0x31 2 1 []) 0x3102 (life 2 (pal [] id)) = true
    ∧ serves (ovr (q 0x31 3 40 [])) 0x3103 (life 2 (pal [(pPalur, 0x104, 4)] id)) = true ∧ serves (ovr (q 0x31 3 40 [])) 0x3103 (pal [(pPalur, 0x104, 4)] id) = true
    ∧ (pal [] id).palur.debug = 0 ∧ (pal [] (fun k => { k with debug := 1 })).palur.debug ≠ 0 := by decide +kernel
theorem witness_token_check : (tok [1] true 0).up = true ∧ (tok [1] true 0).paused = false ∧ presenting (tok [1] true 0) = true ∧ longSource (tok [1] true 0) = (tok [1] true 0, some (.ok [1])) ∧ tokenCheck (tok [1] true 0) [1] ≠ 0
    ∧ (let s := pal [] (fun k => { k with long := some (.token (some (32, 100)) [] 0 false) }); presenting s = true ∧ longSource s = (s, some (.error (0xA, 0)))) ∧ presenting (pal [] id) = false
    ∧ (tok [] false 0).palur.challenge = some ([1], 0) ∧ 0 + 60000000000 ≤ (tok [] false 60000000000).ref ∧ (tok [] false 59999999999).ref < 0 + 60000000000
    ∧ ({ pal [] (fun k => { k with debug := 1, debugEnd := 7 }) with ref := 7 } : State).palur.debugEnd ≤ 7 := by
  refine ⟨by rfl, by rfl, by rfl, by rfl, by decide +kernel, ⟨by rfl, by rfl⟩, by rfl, by rfl, by decide +kernel, by decide +kernel, by decide +kernel⟩
theorem witness_self_tests : testTiles (q 0x30 0 28 [(0x10, 1, 0x24)]) = [2, 5] ∧ (∀ n ∈ [2, 5], testBarred (tests [] [0]) n = false) ∧ (∃ n ∈ [2, 5], testBarred (tests [(pTile 5, 0x608, 2)] [0]) n = true) ∧ (∀ j, j < 16 → jobState (pal [] id) j ≠ 3) ∧ (∃ j, j < 16 ∧ jobState (pal [(pHoist, 0x308, 3)] id) j = 3)
    ∧ (testing 0 [2, 5] []).up = true ∧ (testing 0 [2, 5] []).paused = false ∧ (testing 0 [2, 5] []).palur.long = some (.selfTest 0 [2, 5]) ∧ (∀ n ∈ [2, 5], n < 160) ∧ (testing 2 [] []).palur.long = some (.selfTest 2 []) ∧ (∃ n ∈ [113], n < 128) := by decide +kernel
theorem test_token : ok .debugTokenPresent (ask (tok0 3 1) (tok [1, 2, 3] false 9)) (fun t => decide (t.palur.long = some (.token none [1, 2, 3, 1, 2, 3] 9 true) ∧ t.rd pPalur 0x504 = 0x0100)) = true
    ∧ ok .tokenVerifyComplete (tok [1] true 9) (fun t => decide (t.palur.long = none ∧ t.palur.challenge = none ∧ t.palur.result = [0xA, 0, 0, 0, 0] ∧ t.rdB pPalur 0x18 14 = true)) = true := by decide +kernel
theorem test_mgmt_key : ok .debugTokenMgmtKey (ask (q 0x31 3 40 [(0x10, 2, 0x0201)]) (pal [] (fun k => { k with sessions := [(7, 1)] }))) (fun t => decide (t.store.mgmtKey = some ([1, 2] ++ List.replicate 30 0) ∧ t.palur.sessions = [])) = true
    ∧ ok .debugTokenMgmtKey (ask (q 0x31 3 40 []) (life 3 (pal [] id))) (fun t => decide (t.store.mgmtKey = none ∧ t.rd pPalur 0x504 = 0x0400)) = true := by decide +kernel
theorem test_deploy : ok .debugTokenDeploy (ask (q 0x31 2 1 []) ((pal [] id).hwr 0x40 [7])) (fun t => decide (t.store.lifecycle = 2 ∧ t.hbm = [] ∧ t.up = true ∧ t.rdB pPalur 0x18 16 = true ∧ t.palur.rom = false)) = true
    ∧ ok .debugTokenDeploy (ask (q 0x31 2 1 []) (life 2 (pal [] id))) (fun t => decide (t.store.lifecycle = 2 ∧ t.rd pPalur 0x504 = 0x0400)) = true := by decide +kernel
theorem test_debug_end : ok .debugTokenEnd (ask (q 0x31 4 1 []) (pal [] (fun k => { k with debug := 1, debugEnd := 7 }))) (fun t => decide (t.palur.debug = 0 ∧ t.rdB pPalur 0x18 15 = true)) = true
    ∧ ok .debugExpiry { pal [] (fun k => { k with debug := 2, debugEnd := 7 }) with ref := 7 } (fun t => decide (t.palur.debug = 0 ∧ t.palur.debugEnd = 0)) = true := by decide +kernel
theorem test_self_test : ok .selfTestTileLogic (ask (q 0x30 0 28 [(0x10, 1, 0x24)]) (tests [] [0])) (fun t => decide (t.palur.long = some (.selfTest 0 [2, 5]) ∧ t.rd pPalur 0x504 = 0x0100)) = true
    ∧ ok (.selfTestComplete [5]) (testing 0 [2, 5] []) (fun t => decide (t.palur.long = none ∧ t.palur.result.take 2 = [0x1B, 0x20] ∧ t.enabled (pTile 5) = false ∧ t.enabled (pTile 2) = true ∧ t.rd pErrlog 0x230 = 32 ∧ t.tnat 5 0x100 4 = 0)) = true := by decide +kernel
theorem test_loopback : ok (.selfTestComplete [113]) (testing 2 [] []) (fun t => decide (t.rd pHostc 0x218 = 1 ∧ t.palur.result = [0x1B, 0, 0, 0, 0] ∧ t.rd pErrlog 0x220 = 0)) = true
    ∧ ok (.selfTestComplete [112, 113]) (testing 2 [] []) (fun t => decide (t.rd pHostc 0x218 = 0 ∧ t.rdF pErrlog 0x220 0 2 = 2 ∧ t.rdF pErrlog 0x220 8 8 = 3)) = true := by decide +kernel
theorem test_challenge_lapse : ok .challengeLapse (tok [] false 60000000000) (fun t => decide (t.palur.challenge = none)) = true ∧ idle .challengeLapse (tok [] false 59999999999) = true := by decide +kernel

/-! Bring-up, sleep and resets. -/

def env0 : BringupEnv := ⟨2 ^ 64 - 1, 2 ^ 48 - 1, 0x8000, [], [3]⟩
def qB (key : Nat) : PReq := ⟨none, desc 256 [(0, 1, 1), (1, 1, 0x10), (2, 1, 12), (8, 8, key), (0x10, 1, 1)]⟩
theorem witness_bring_up : serves (qB 5) 0x1000 (pal [] id) = true ∧ (pal [] id).palur.taken = false ∧ (pal [] (fun k => { k with taken := true })).palur.taken = true ∧ (pal [] id).store.mapped = [] ∧ (qB 5).le 8 8 = 5 ∧ bit ((qB 5).le 0x10 1) 0 = true
    ∧ netEnough env0 = true ∧ netEnough { env0 with xc4 := 0 } = false ∧ stacksOver (bringMapped env0 (pal [] id)) = [] ∧ stacksOver (bringMapped { env0 with pcFail := [64, 65, 66, 67, 68] } (pal [] id)) = [1]
    ∧ alive (pal [] id) = true ∧ (pal [] id).palur.rom = false ∧ (pal [] id).palur.stageAt + 500000000 ≤ ({ pal [] id with ref := 500000000 } : State).ref ∧ ({ pal [] id with ref := 499999999 } : State).ref < (pal [] id).palur.stageAt + 500000000
    ∧ (let r := qB 5; let s := pal [(pErrlog, 0x220, 1)] id; denied s r = false) ∧ (let r := qB 5; denied (pal [] (fun k => { k with rom := true })) r = true) := by decide +kernel
theorem test_bring_up_fails : ok (.bringupRun { env0 with xc4 := 0 }) (ask (qB 5) (pal [] id)) (fun t => decide (t.rdF pErrlog 0x220 0 2 = 1 ∧ t.palur.result = [0x19, 0, 0, 0, 0] ∧ t.palur.taken = true ∧ t.hartsOn = 0 ∧ t.rdB pPalur 0x18 7 = true)) = true
    ∧ ok (.bringupRun env0) (ask (qB 5) (pal [] (fun k => { k with taken := true }))) (fun t => decide (t.palur.result = [0x18, 0, 0, 0, 0] ∧ t.rd pPalur 0x504 = 0x0700)) = true := by decide +kernel
theorem test_bring_up_auto : idle (.bringupAuto env0) { pal [] id with ref := 499999999 } = true ∧ idle (.bringupAuto env0) { pal [] (fun k => { k with taken := true }) with ref := 500000000 } = true := by decide +kernel

def awake (l : List (Page × Nat × Nat)) : State := let s := pal l id; { s with power := { s.power with rails := [0, 1, 2, 3], rail := [(0, 850)] }, hartsOn := 1 }
theorem witness_sleep : powerState (awake []) = 0 ∧ sleepReady (awake []) = true ∧ sleepReady (awake [(pHoist, 0x308, 3)]) = false ∧ sleepDeep (awake []) = true ∧ sleepDeep (awake [(pLink 3, 0x14, 8)]) = false ∧ (∀ l, l < 32 → portConns (awake []) l = [])
    ∧ powerState (awake [(pErrlog, 0x220, 16)]) = 1 ∧ serves (q 0x12 0 0 []) 0x1200 (awake [(pErrlog, 0x220, 16)]) = true ∧ (awake []).bind.holds = [] ∧ powerState (awake [(pErrlog, 0x220, 32)]) = 2 ∧ serves (ovr (q 0x12 0 0 [])) 0x1200 (awake [(pErrlog, 0x220, 32)]) = true
    ∧ serves (ovr (q 0x11 2 16 [])) 0x1102 (awake [(pErrlog, 0x220, 32)]) = true ∧ dieTripped (awake []) 0 = false ∧ (awake []).bind.bound = [] ∧ (hostOn.bind.bound.all (fun x => pageOk x) = true ∧ ⟨.queue, 2⟩ ∈ hostOn.bind.bound ∧ qState hostOn 2 = 2) := by decide +kernel
def off (a b : Option Image) (f : Store → Store) : State := { State.reset with store := f { st1 with banks := [a, b] } }
theorem witness_input : (off none none id).up = false ∧ (off none none id).power.sleepOff = false ∧ (off none none id).store.mapped = [] ∧ (off none none id).store.retCounts = [] ∧ (activeImage (off (some (img 0 11 true)) none id)).map (startCheck (off none none id)) = some 0
    ∧ (activeImage (off (some (img 0 11 false)) none id)).map (startCheck (off none none id)) = some 8 ∧ (stagedImage (off none (some (img 0 11 true)) id)).map (startCheck (off none none id)) = some 0 ∧ (stagedImage (off none none id)).map (startCheck (off none none id)) = none ∧ (off none none id).store.kept = [] ∧ 2 ∉ (off none none id).store.badRecs ∧ 2 ∈ (off none none (fun k => { k with badRecs := [2] })).store.badRecs
    ∧ (off none none (fun k => { k with lossDue := true })).store.lossDue = true ∧ (up.up = true ∧ up.power.low = false ∧ up.power.high = false) := by decide +kernel
/-- A dirty line of the host caches, over a module whose stacks hold other bytes. -/
def dirty0 : State := let s := awake []; { s.hwr 0x40 [1, 2] with hcache := ⟨[(1, 2)], [(0x41, 9)], []⟩ }
theorem witness_sleep_lines : sleepDeep dirty0 = true ∧ dirty0.hcache.wait = [] ∧ dirty0.mem.fillWait = [] ∧ dirty0.mem.failed = [] ∧ fwf (fun _ => 0) dirty0.hcache.lines = true ∧ (∀ x ∈ (awake []).hcache.lines, x.2 ≠ 2)
    ∧ (awake [(pErrlog, 0x220, 32)]).conns = [] ∧ bstate (awake [(pErrlog, 0x220, 32)]) (pQueue 2) = 0 := by decide +kernel
theorem test_sleep_lines : ok .sleepEnterP2 (ask (q 0x11 2 16 [(0x10, 8, 0x8000)]) dirty0) (fun t => decide (t.hnat 0x40 4 = 0x900 ∧ t.hcache.lines = [])) = true := by decide +kernel
theorem test_sleep_p1 : ok .sleepEnterP1 (ask (q 0x11 1 1 []) (awake [])) (fun t => decide (powerState t = 1 ∧ t.power.rails = [] ∧ t.palur.result = [0, 0, 0, 0, 0] ∧ t.rd pPalur 0x20 / 2 ^ 24 = 100)) = true
    ∧ ok .sleepEnterP1 (ask (q 0x11 1 1 []) (awake [(pHoist, 0x308, 3)])) (fun t => decide (powerState t = 0 ∧ t.palur.result = [0x1C, 0, 0, 0, 0])) = true := by decide +kernel
theorem test_sleep_p2 : ok .sleepEnterP2 (ask (q 0x11 2 16 [(0x10, 8, 0x8000)]) (awake [])) (fun t => decide (powerState t = 2 ∧ t.power.rails = [] ∧ t.hartsOn = 0 ∧ t.mem.selfRefresh = true ∧ memHeld t .qeng 0 4 = true ∧ t.palur.resume = 0x8000)) = true := by decide +kernel
theorem test_sleep_p3 : ok .sleepEnterP3 (ask (q 0x11 3 1 []) (awake [])) (fun t => decide (t.up = false ∧ t.power.sleepOff = true ∧ t.store.lossDue = false ∧ t.regs = [] ∧ t.store.class3.map (·.1) = [1])) = true := by decide +kernel
theorem test_sleep_exit : ok .sleepExit (ask (q 0x12 0 0 []) (awake [(pErrlog, 0x220, 16)])) (fun t => decide (powerState t = 0 ∧ t.power.rails = [0, 1, 2, 3] ∧ t.palur.long = none)) = true
    ∧ ok .sleepExit (ask (q 0x12 0 0 []) (awake [])) (fun t => decide (powerState t = 0 ∧ t.palur.result = [0x1D, 0, 0, 0, 0])) = true := by decide +kernel
theorem test_host_reset_request : ok .hostReset (ask (q 0x40 0 0 []) hostOn) (fun t => decide (t.hartsOn = 0 ∧ qState t 2 = 4 ∧ t.rd pHostc 0x210 = 1 ∧ t.rd pHostc 0x214 = 2 ∧ t.rdB pQeng 0x18 8 = true)) = true := by decide +kernel
theorem test_module_reset : ok .moduleReset (ask (q 0x41 0 0 []) ((awake [(pHoist, 0x308, 3)]).hwr 0x40 [7])) (fun t => decide (t.up = true ∧ t.hbm = [] ∧ t.hartsOn = 0 ∧ jobState t 0 = 0 ∧ t.enabled pErrlog = true ∧ t.enabled pFabric = false)) = true := by decide +kernel
theorem test_qualified : ok .inputQualified (off (some (img 0 11 false)) (some (img 0 11 true)) (fun k => { k with lossDue := true })) (fun t => decide (t.up = true ∧ t.store.active = 1 ∧ t.palur.rom = false ∧ t.rdB pPalur 0x18 12 = true ∧ t.rdB pPower 0x18 14 = true ∧ t.store.lossDue = false)) = true
    ∧ ok .inputQualified (off none none id) (fun t => decide (t.up = true ∧ t.palur.rom = true ∧ t.enabled pPalur = true)) = true := by decide +kernel
theorem test_settings : ok .inputQualified (off (some (img 0 11 true)) none (fun k => { k with palurLay := 2, mapped := [5], badRecs := [2], kept := [(0, ⟨3, [8, 5], [], [], []⟩)] })) (fun t => decide (t.store.mgmtSet = [8, 5] ∧ t.rd pMgmt 0x104 = 5 ∧ t.store.kept.all (fun y => y.1 = 3) = true
      ∧ t.store.palurLay = 3 ∧ t.store.mapped = [] ∧ t.store.badRecs = [] ∧ bits (t.rd pPalur 0x18) 18 3 = 7)) = true := by decide +kernel
theorem test_power_loss : ok .powerLoss (awake []) (fun t => decide (t.up = false ∧ t.store.lastLoss = 1 ∧ t.store.lossDue = true ∧ t.store.lifecycle = 1)) = true ∧ ok .inputOvervoltage (awake []) (fun t => decide (t.up = false ∧ t.store.lastLoss = 2 ∧ t.store.lossDue = false)) = true := by decide +kernel
theorem test_input_range : ok (.inputRangeChange 45000) up (fun t => decide (t.power.low = true ∧ t.power.high = false ∧ t.rdB pPower 0x18 12 = true)) = true ∧ ok (.inputRangeChange 55000) up (fun t => decide (t.power.low = false ∧ t.power.high = true ∧ t.rdB pPower 0x18 13 = true)) = true := by decide +kernel

/-! Power, heat and pace: dies 0 to 3 with their rails on. -/

def pd : Page := pDie 1
def pwr (l : List (Page × Nat × Nat)) (f : PowerSt → PowerSt) : State := let s := regs ([(pPower, 0x10, 0x11), (pPower, 0x14, 1)] ++ l) up; { s with power := f { s.power with rails := [0, 1, 2, 3], rail := [(0, 800), (1, 700), (2, 600), (3, 610)] } }
def ctl (v : List Nat) : ControlIn := ⟨capInForce up, false, tilePlan up, v, [50, 50, 50, 50], true⟩
theorem witness_control_period : alive (pwr [] id) = true ∧ (let s := pwr [(pd, 0x214, 1600), (pd, 0x104, 95), (pDie 2, 0x214, 1488), (pDie 2, 0x104, 95), (pDie 3, 0x214, 1489), (pDie 3, 0x104, 95)] id; dieTarget s 1 < dieHot s 1 ∧ dieHot s 2 + 32 ≤ dieTarget s 2 ∧ dieHot s 3 ≤ dieTarget s 3 ∧ dieTarget s 3 < dieHot s 3 + 32)
    ∧ (let s := pwr [(pd, 0x14, 2 ^ 17)] id; railOn s 1 = true ∧ s.paused = false ∧ dieEmergency s 1 = true ∧ dieEmergency s 2 = false ∧ s.enabled pPower = true ∧ s.power.limiter = false) ∧ (pwr [(pPower, 0x14, 0)] id).enabled pPower = false
    ∧ (pwr [] (fun w => { w with limiter := true })).power.limiter = true ∧ capTerm (pwr [] id) (ctl [600, 703, 600, 600]) 1 = 700 ∧ capTerm (pwr [] id) (ctl [600, 600, 600, 600]) 3 = 600 ∧ (ctl []).cap = capInForce (pwr [] id) ∧ (ctl []).measured = frozen (pwr [] id) ∧ (ctl []).plan = tilePlan (pwr [] id)
    ∧ (let s : State := { pwr [] id with pennants := [⟨2, [7], 40, 2000, 600, 50, 1⟩] }; ⟨2, [7], 40, 2000, 600, 50, 1⟩ ∈ s.pennants ∧ s.ref < 1 ∧ (tilePlan s)[7]? = some (capInForce s * 500 / 160) ∧ (tilePlan s)[8]? = some 0)
    ∧ (∀ p ∈ pPower :: (List.range 4).map pDie, (pwr [] id).swapPending p = false ∧ (pwr [] id).rdB p 0x10 0 = (pwr [] id).enabled p) ∧ (let s := pwr [(pPower, 0x14, 3), (pPower, 0x908, 1 + 4 * 2 ^ 8 + 100 * 2 ^ 16)] id; s.swapPending pPower = true ∧ swapCheck s pPower = none) ∧ ({ pwr [] id with palur := { up.palur with calDue := some [1] } } : State).palur.calDue = some [1] ∧ (ctl []).unreachable = true := by decide +kernel
theorem witness_rails : (let s := pwr [(pDie 0, 0x200, 850), (pd, 0x200, 600)] id; s.up = true ∧ s.power.limiter = false ∧ s.power.rails.Nodup ∧ (∀ d ∈ s.power.rails, d < 4) ∧ railMv s 0 < s.rdF (pDie 0) 0x200 0 10 ∧ s.rdF pd 0x200 0 10 ≤ railMv s 1
      ∧ 600 < railMv s 3 ∧ railMv s 2 ≤ 600 ∧ 700 + 30 < s.rdF (pDie 0) 0x200 0 10 ∧ s.rdF pd 0x200 0 10 ≤ 570 + 30 ∧ dieTripped s 1 = false ∧ railOn s 1 = true)
    ∧ (6000 ≤ 6000 ∧ 6000 < 6001) ∧ (449 < 450 ∧ 450 ≤ 450) ∧ railOn (pwr [] (fun w => { w with rails := [] })) 1 = false := by decide +kernel
theorem witness_windows : served (pwr [] id) = true ∧ (let s := pwr [(pPower, 0x218, 2)] id; s.rdB pPower 0x218 8 = false ∧ s.rdF pPower 0x218 0 2 = 2) ∧ (pwr [(pPower, 0x218, 259)] id).rdB pPower 0x218 8 = true
    ∧ (let y : MeasureIn := ⟨50000, 20000, [], []⟩; let s := pwr [(pPower, 0x218, 1)] (fun w => { w with est := [(4, 2300)], estN := 2 }); y.mv * y.ma / 1000000 = 1000 ∧ estTotal s = 1150 ∧ ¬ (15 * 1000 < 100 * (1150 - 1000)))
    ∧ (let s := pwr [(pPower, 0x218, 1)] (fun w => { w with est := [(4, 2302)], estN := 2 }); estTotal s = 1151 ∧ 15 * 1000 < 100 * (1151 - 1000) ∧ s.power.relearn = false ∧ s.rdF pPower 0x218 0 2 < 2) ∧ (pwr [] (fun w => { w with relearn := true })).power.relearn = true := by decide +kernel
theorem test_control : ok (.controlPeriod (ctl [800, 700, 850, 850])) (pwr [(pd, 0x214, 1600), (pd, 0x104, 95)] (fun w => { w with vtherm := [(1, 650)] })) (fun t => decide ((List.range 4).map (fun d => t.rdF (pDie d) 0x200 0 10) = [800, 645, 850, 850]
      ∧ (List.range 4).map (fun d => t.rdF (pDie d) 0x20C 0 3) = [1, 2, 0, 0] ∧ t.rdB pd 0x18 8 = true ∧ t.rdB pPower 0x18 9 = true)) = true
    ∧ ok (.controlPeriod (ctl [600, 600, 600, 600])) (pwr [(pd, 0x14, 2 ^ 17)] id) (fun t => decide ((List.range 4).map (fun d => t.rdF (pDie d) 0x20C 8 7) = [50, 50, 50, 50] ∧ t.rdF pd 0x20C 0 3 = 2)) = true := by decide +kernel
theorem test_slew : ok .railSlewStep (pwr [(pDie 0, 0x200, 850), (pd, 0x200, 600), (pDie 2, 0x200, 610), (pDie 3, 0x200, 600)] id) (fun t => decide ((List.range 4).map (railMv t) = [825, 675, 610, 600] ∧ t.rdF (pDie 0) 0x200 16 10 = 825)) = true := by decide +kernel
theorem test_limiter : ok (.fastLimiter 6001) (pwr [(pDie 2, 0x20C, 100 * 2 ^ 8)] id) (fun t => decide ((List.range 4).map (railMv t) = [775, 675, 600, 600] ∧ t.rdF (pDie 2) 0x20C 8 7 = 90 ∧ t.rdF (pDie 2) 0x20C 0 3 = 4 ∧ t.power.limiter = true ∧ t.rdB pPower 0x18 11 = false)) = true
    ∧ ok (.fastLimiter 6000) (pwr [] (fun w => { w with limiter := true })) (fun t => decide (t.power.limiter = false ∧ t.rdB pPower 0x18 11 = true)) = true ∧ idle (.fastLimiter 6000) (pwr [] id) = true := by decide +kernel
theorem test_droop : ok (.droop 0 819) (pwr [(pDie 0, 0x200, 850)] id) (fun t => decide (t.rd (pDie 0) 0x218 = 1 ∧ t.rdB (pDie 0) 0x18 11 = true)) = true ∧ idle (.droop 0 820) (pwr [(pDie 0, 0x200, 850)] id) = true := by decide +kernel
theorem test_brownout : ok (.brownout 1 449) (pwr [] id) (fun t => decide (dieTripped t 1 = true ∧ t.power.rails = [0, 2, 3] ∧ t.rd pd 0x21C = 1 ∧ t.rdB pd 0x18 12 = true ∧ t.rdB pd 0x18 10 = true)) = true ∧ idle (.brownout 1 450) (pwr [] id) = true := by decide +kernel
theorem test_estimate : ok (.estimatorPeriod ⟨[[5], [6], [7], [8]], [9]⟩) (pwr [] (fun w => { w with est := [(0, 1), (4, 2)], estN := 1 })) (fun t => decide (t.power.estN = 2)) = true := by decide +kernel
theorem test_relearn : ok .relearn (pwr [(pPower, 0x218, 259), (pPower, 0x220, 0x4100)] id) (fun t => decide (t.rd pPower 0x218 = 0 ∧ t.rd pPower 0x220 = 0x4000)) = true ∧ ok .relearn (pwr [(pPower, 0x218, 2)] id) (fun t => decide (t.power.relearn = true ∧ t.rd pPower 0x218 = 2)) = true := by decide +kernel
theorem test_window : ok (.measurementWindow ⟨50000, 20000, [800], [1000]⟩) (pwr [(pPower, 0x218, 2)] (fun w => { w with est := [(4, 2302)], estN := 2 })) (fun t => decide (t.rd pPower 0x218 = 259 ∧ t.rd pPower 0x21C = 1 ∧ t.rdF pPower 0x208 0 16 = 1000 ∧ t.rdF pPower 0x208 16 16 = 1151 ∧ t.rd64 pPower 0x210 = 10000 ∧ t.rdB pPower 0x18 10 = true)) = true
    ∧ ok (.measurementWindow ⟨50000, 20000, [800], [1000]⟩) (pwr [(pPower, 0x218, 2), (pPower, 0x110, 0)] (fun w => { w with est := [(4, 2300)], estN := 2 })) (fun t => decide (t.rd pPower 0x218 = 0 ∧ t.rdF (pDie 0) 0x204 0 20 = 1000 ∧ t.power.estN = 0)) = true := by decide +kernel

def hot (d v : Nat) (l : List (Page × Nat × Nat)) : State := pwr ([(pDie d, 0x214, v)] ++ l) id
theorem witness_heat_reached : reached (hot 1 1359 []) pd = true ∧ powerState (hot 1 1359 []) = 0 ∧ dieOf 41 = 1 := by decide +kernel
theorem witness_heat : railOn (hot 1 1632 []) 1 = true ∧ 1632 ≤ dieHot (hot 1 1632 []) 1 ∧ dieEmergency (hot 1 1632 []) 1 = false ∧ dieHot (hot 1 1631 []) 1 < 1632 ∧ (∃ x ∈ (pwr [] (fun w => { w with hotSince := [(50, 1)] })).power.hotSince, x.1 / 48 = 1 ∧ x.2 + 100000 ≤ 100000 + 1)
    ∧ (∀ x ∈ (pwr [] (fun w => { w with hotSince := [(50, 1)] })).power.hotSince, x.1 / 48 = 1 → 99999 + 1 < x.2 + 100000) ∧ 1360 ≤ dieHot (hot 1 1360 []) 1 ∧ (dieHot (hot 1 1359 [(pd, 0x14, 2 ^ 16)]) 1 < 1360 ∧ dieTripped (hot 1 1359 [(pd, 0x14, 2 ^ 16)]) 1 = true ∧ (hot 1 1359 []).bind.holds = [])
    ∧ (∀ l, l < 32 → portConns (pwr [] id) l = []) ∧ 1568 ≤ (pwr [(pHbmc 11, 0x200, 1568)] id).rdF (pHbmc 11) 0x200 0 16 ∧ (∀ st, st < 12 → (pwr [] id).rdF (pHbmc st) 0x200 0 16 < 1568) ∧ (pwr [] id).rdF pPower 0x230 0 16 < 1680 ∧ (pwr [] id).power.lvl4 = []
    ∧ (∀ k, fget (fun _ => 0) (pwr [] id).power.others k < 2 ^ 16) ∧ (1440 ≤ 1440 ∧ (pwr [] id).rdF (pOe 3) 0x204 0 16 < 1280) ∧ (1280 ≤ 1439 ∧ 1439 < 1440) ∧ (pwr [(pOe 3, 0x204, 1300)] id).rdF (pOe 3) 0x204 0 16 = 1300 := by
  refine ⟨?_, ?_, ?_, ?_, ?_, ?_, ?_, ?_, ?_, ?_, ?_, ?_, ?_, fun k => ?_, ?_, ?_, ?_⟩
  case refine_14 => simp [pwr, regs, up, State.reset, PowerSt.init, State.wr, fget]
  all_goals decide +kernel
/-- Slot 2 runs generation 5, to which tiles 3 and 44 are bound; its pace window is 4 ms. -/
def pace (l : List (Page × Nat × Nat)) (f : PowerSt → PowerSt) : State :=
  let s := pwr ([(pHoist, 0x320, 5), (pHoist, 0x328, 3), (pTile 3, 0x608, 2), (pTile 44, 0x608, 2), (pTile 3, 0x2C, 5), (pTile 44, 0x2C, 5), (pPower, 0x10C, 4 + 2 * 2 ^ 12), (pPower, 0x440, 1 + 20 * 2 ^ 8 + 10 * 2 ^ 16 + 4 * 2 ^ 24), (pPower, 0x448, 700)] ++ l) f
  { s with bind := { s.bind with bound := [pTile 3, pTile 44] } }
/-- Both tiles wait at a collective: a group of each is parked on an acquire at system scope. -/
def strag : State := [3, 44].foldl (fun s n => s.setTile n { Tile.init with blocks := [{ blk1 [⟨⟨1, 0x30, []⟩, .wait 4 0x11 [⟨0, 0x40, 0, 3, none⟩], 0, 100, false⟩] with groups := [{ gp [] with run := none, parked := [⟨⟨1, 0x30, []⟩, .wait 4 0x11 [⟨0, 0x40, 0, 3, none⟩], 0, 100, false⟩] }] }] }) (pace [(pPower, 0x44C, 50)] id)
theorem witness_pace : alive (pace [] id) = true ∧ jobState (pace [] id) 2 = 3 ∧ slotTiles (pace [] id) 2 = [3, 44] ∧ (pace [] id).rdB pPower 0x440 0 = true ∧ (pace [(pPower, 0x440, 0)] id).rdB pPower 0x440 0 = false ∧ (pace [] id).rdF pPower 0x10C 12 4 = 2
    ∧ (10 * (pace [] id).rdF pPower 0x440 8 7 < 1000 * 1700 / 8000) ∧ ¬ (10 * (pace [] id).rdF pPower 0x440 8 7 < 1000 * 700 / 8000) ∧ 1000 * 700 / 8000 < 10 * (pace [] id).rdF pPower 0x440 16 7 ∧ ¬ (1000 * 800 / 8000 < 10 * (pace [] id).rdF pPower 0x440 16 7)
    ∧ 2 ≤ fget (fun _ => 0) (pace [] (fun w => { w with paceHi := [(2, 1)] })).power.paceHi 2 + 1 ∧ fget (fun _ => 0) (pace [] id).power.paceHi 2 + 1 < 2 ∧ (slotTiles strag 2 ≠ [] ∧ (∀ k ∈ slotTiles strag 2, tileWaits strag k = true) ∧ strag.rd pPower 0x44C ≤ 50) ∧ jobState (pace [] id) 3 = 0 := by decide +kernel
theorem test_emergency : ok (.thermalEmergency 1) (hot 1 1632 []) (fun t => decide (dieEmergency t 1 = true ∧ t.rdF pd 0x200 0 10 = 600 ∧ t.rdF pd 0x20C 8 7 = 50 ∧ t.rdB pd 0x18 9 = true)) = true ∧ idle (.thermalEmergency 1) (hot 1 1631 []) = true := by decide +kernel
theorem test_die_trip : ok (.dieTrip 1) { pwr [] (fun w => { w with hotSince := [(50, 1)] }) with ref := 100000 } (fun t => decide (dieTripped t 1 = true ∧ t.power.rails = [0, 2, 3])) = true ∧ idle (.dieTrip 1) { pwr [] (fun w => { w with hotSince := [(50, 1)] }) with ref := 99999 } = true := by decide +kernel
theorem test_die_recover : ok (.dieRecover 1) (let s := hot 1 1359 [(pd, 0x14, 2 ^ 16)]; { s with power := { s.power with rails := [0] } }) (fun t => decide (dieTripped t 1 = false ∧ railOn t 1 = true ∧ railMv t 1 = 600)) = true ∧ ok (.dieRecover 1) (hot 1 1360 [(pd, 0x14, 2 ^ 16)]) (fun t => decide (dieTripped t 1 = true ∧ t.rdB pd 0x18 2 = true)) = true := by decide +kernel
theorem test_module_trip : ok .moduleThermalTrip (pwr [(pHbmc 11, 0x200, 1568)] id) (fun t => decide (t.power.rails = [] ∧ t.mem.selfRefresh = true ∧ t.rdF pErrlog 0x220 0 2 = 2 ∧ t.rdF pErrlog 0x220 8 8 = 5)) = true ∧ idle .moduleThermalTrip (pwr [(pHbmc 11, 0x200, 1567)] id) = true := by decide +kernel
theorem test_temperature : ok (.temperatureChange (.tile 47) 1680) { pwr [] id with ref := 9 } (fun t => decide (t.rd pd 0x31C = 1680 ∧ t.rd pd 0x214 = 1680 + 7 * 2 ^ 16 ∧ t.power.hotSince = [(55, 10)])) = true
    ∧ ok (.temperatureChange (.oe 3) 1300) (pwr [] id) (fun t => decide (t.rd (pOe 3) 0x204 = 1300 ∧ t.rdB (pOe 3) 0x18 9 = true)) = true := by decide +kernel
theorem test_pace : ok (.paceWindow 2 1700) (pace [] (fun w => { w with paceHi := [(2, 1)] })) (fun t => decide (t.rd pPower 0x444 = 212 ∧ t.rd pPower 0x448 = 675 ∧ t.rd pPower 0x45C = 1 ∧ t.rdB pPower 0x18 15 = true)) = true
    ∧ ok (.paceWindow 2 700) (pace [] (fun w => { w with paceLo := [(2, 1)] })) (fun t => decide (t.rd pPower 0x444 = 87 ∧ t.rd pPower 0x448 = 725)) = true := by decide +kernel
theorem test_straggler : ok (.stragglerInterval 2 50) strag (fun t => decide (t.rd pPower 0x458 = 1)) = true ∧ idle (.stragglerInterval 2 49) strag = true := by decide +kernel

/-! Job slots, binding and regions: slot 2 holds generation 5. -/

def jb (st : Nat) (l : List (Page × Nat × Nat)) (f : BindSt → BindSt) : State := let s := regs ([(pHoist, 0x320, 5), (pHoist, 0x328, st)] ++ l) (withHbm up); { s with bind := f s.bind }
/-- A bind of tile 3 to generation 5 asked for with epoch 9, over epoch 8. -/
def bd (st : Nat) (l : List (Page × Nat × Nat)) (f : BindSt → BindSt) : State := jb st ([(pTile 3, 0x10, 1), (pTile 3, 0x600, 9), (pTile 3, 0x604, 5), (pTile 3, 0x28, 8)] ++ l) f
/-- Queue 2 of generation 5, in a state. -/
def jq (j st : Nat) (l : List (Page × Nat × Nat)) : State := jb j ([(pQueue 2, 0x10, 1), (pQueue 2, 0x14, st * 2 ^ 16), (pQueue 2, 0x608, 2), (pQueue 2, 0x2C, 5), (pQueue 2, 0x28, 8)] ++ l) (fun b => { b with bound := [pQueue 2] })
/-- Region 4 of slot 2: 2 MiB at 2 MiB, in a state. -/
def rn (st : Nat) (l : List (Page × Nat × Nat)) (f : BindSt → BindSt) : State := jb 1 ([(pHoist, 0x440, 1), (pHoist, 0x444, 1), (pHoist, 0x448, 2 + st * 2 ^ 20), (pHoist, 0x600, 9), (pHoist, 0x44C, 8)] ++ l) f
def r5 (st : Nat) : List (Page × Nat × Nat) := [(pHoist, 0x450, 1), (pHoist, 0x454, 1), (pHoist, 0x458, 2 + st * 2 ^ 20)]
def td (t : TdTarget) (pages : List Page) (step : Nat) (forced : Bool) : Teardown := ⟨t, 5, pages, step, 100, forced⟩
def tds (t : TdTarget) (pages : List Page) (step : Nat) (forced : Bool) (l : List (Page × Nat × Nat)) : State := let s := jq 4 5 ([(pQueue 2, 0x608, 3)] ++ l); { s with bind := { s.bind with tds := [td t pages step forced] } }
theorem witness_slots : served (jb 0 [(pHoist, 0x320, 0)] id) = true ∧ jobState (jb 0 [(pHoist, 0x320, 0)] id) 2 = 0 ∧ slotOf (jb 0 [(pHoist, 0x320, 0)] id) 5 = none ∧ slotOf (jb 1 [] id) 5 = some 2 ∧ (∀ n ∈ [1, 2, 3, 4], jobState (jb n [] id) 2 = n)
    ∧ (let s := jq 2 1 []; powerState s ≠ 1 ∧ debugState s ≠ 1 ∧ s.bind.bound = [pQueue 2] ∧ pageOk (pQueue 2) = true ∧ 2 ∈ jobQueues s (jobGen s 2) ∧ qState s 2 = 1 ∧ s.rdB (pQueue 2) 0x10 0 = true ∧ s.swapPending (pQueue 2) = false) ∧ (jq 2 1 [(pQueue 2, 0x10, 0)]).rdB (pQueue 2) 0x10 0 = false
    ∧ bstate (jq 3 2 []) (pQueue 2) = 2 ∧ (jq 3 2 []).rd (pQueue 2) 0x2C = 5 := by decide +kernel
theorem witness_binds : (let s := bd 1 [] id; pageOk (pTile 3) = true ∧ served s = true ∧ s.rdB (pTile 3) 0x10 0 = true ∧ epochOld 9 (s.rd (pTile 3) 0x28) = false ∧ genState s 5 = 1 ∧ s.bind.holds = [] ∧ tearing s (pTile 3) = false ∧ gated s (pTile 3) = false ∧ bstate s (pTile 3) = 0)
    ∧ (bd 1 [(pTile 3, 0x10, 0)] id).rdB (pTile 3) 0x10 0 = false ∧ epochOld 9 ((bd 1 [(pTile 3, 0x28, 9)] id).rd (pTile 3) 0x28) = true ∧ genState (bd 4 [] id) 5 = 4 ∧ (bd 1 [] (fun b => { b with holds := [⟨pTile 3, 9, 5, 0⟩] })).bind.holds.any (fun h => decide (h.page = pTile 3)) = true
    ∧ gated (bd 1 [(pErrlog, 0x220, 16)] id) (pTile 3) = true ∧ tearing (bd 1 [] (fun b => { b with tds := [td (.page (pTile 3)) [pTile 3] 2 false] })) (pTile 3) = true ∧ (bstate (bd 1 [(pTile 3, 0x608, 2)] id) (pTile 3) = 2 ∧ (bd 1 [(pTile 3, 0x608, 2)] id).quarantined (pTile 3) = false)
    ∧ bstate (bd 1 [(pTile 3, 0x608, 4)] id) (pTile 3) = 4 := by decide +kernel
theorem witness_teardowns : (tds (.slot 2) [pQueue 2] 2 false []).bind.tds = [td (.slot 2) [pQueue 2] 2 false] ∧ [pQueue 2].all (drained (tds (.slot 2) [pQueue 2] 2 false [])) = true ∧ alive (tds (.slot 2) [pQueue 2] 2 false []) = true ∧ pageOk (pQueue 2) = true ∧ slotRgns (tds (.slot 2) [pQueue 2] 2 false []) 2 = []
    ∧ slotRgns (tds (.slot 2) [pQueue 2] 2 false [(pHoist, 0x448, 2 + 2 * 2 ^ 20)]) 2 = [4] ∧ (tds (.slot 2) [pQueue 2] 2 false []).bind.holds = [] ∧ [pQueue 2].all (drained ({ tds (.slot 2) [pQueue 2] 2 false [] with cmds := [cm 9 nop] })) = false
    ∧ 100 + 100000 * (tds (.slot 2) [pQueue 2] 2 false [(pHoist, 0x104, 3 * 2 ^ 16)]).rdF pHoist 0x104 16 16 ≤ 300100 ∧ (tds (.slot 2) [] 2 false []).tiles = [] ∧ (cn 3 [] id).conn 8 = ConnSt.init := by decide +kernel
/-- Connection 8 in its teardown, in a step, its peer having closed or not. -/
def tc (step : Nat) (closed : Bool) (now : Nat) : State :=
  let s := cn 4 [(pc, 0x608, 3), (pc, 0x2C, 5)] (fun k => { k with peerClosed := closed, closing := true })
  { s with bind := { s.bind with bound := [pc], tds := [td (.page pc) [pc] step false] }, ref := now }
def cl5 : Packet := let p := { cl with gen := 5, check := 0 }; { p with check := BitVec.ofNat 64 (packetCheck p) }
theorem witness_exchange : (let s := tc 2 false 100; exchanges s pc = true ∧ drained s pc = true ∧ (s.conn 8).peerClosed = false ∧ alive s = true ∧ pageOk pc = true ∧ s.bind.holds = [])
    ∧ (let s := tc 3 false 100; fenced s (td (.page pc) [pc] 3 false) = false ∧ okPkt s cl5 = true ∧ connState s 8 = 4 ∧ cl5.gen.toNat = s.rd pc 0x2C ∧ cl5.epoch.toNat = s.rd pc 0x28 ∧ cl5.srcNode.toNat = s.rdF pc 0x108 0 20 ∧ cl5.srcConn.toNat = s.rdF pc 0x104 18 14 ∧ cl5.dstConn.toNat = 8)
    ∧ fenced (tc 3 true 100) (td (.page pc) [pc] 3 false) = true ∧ fenced (tc 3 false 1000100) (td (.page pc) [pc] 3 false) = true ∧ (∀ p ∈ [pQueue 2], exchanges (tds (.slot 2) [pQueue 2] 2 false []) p = false)
    ∧ (let s := { tds (.slot 2) [pQueue 2] 2 false [] with cmds := [{ wc 0 9 with begun := false, stage := 0 }] }; (s.cmds.map (·.uid)).Nodup ∧ ∀ c ∈ s.cmds, c.queue = 2 ∧ c.op = 6 ∧ c.stage ≠ 2 ∧ c.bad = false ∧ c.begun = false) := by decide +kernel
theorem test_exchange : ok (.teardownDrainEnd (.page pc)) (tc 2 false 200) (fun t => decide (t.bind.tds = [{ td (.page pc) [pc] 3 false with since := 200 }] ∧ (t.link 5).tx.map (fun v => v.q.length) = [0, 0, 1])) = true
    ∧ ok (.closePkt 5 cl5) (tc 3 false 200) (fun t => decide (t.bind.tds = [] ∧ bstate t pc = 0 ∧ t.rd pc 0x2C = 0)) = true := by decide +kernel
theorem test_drain_wait : ok (.drainTimeout (.slot 2)) { tds (.slot 2) [pQueue 2] 2 false [(pHoist, 0x104, 3 * 2 ^ 16)] with ref := 300100, cmds := [{ wc 0 9 with begun := false, stage := 0 }] } (fun t => decide (t.cmds.map (fun c => (c.bad, c.fault.map (·.code))) = [(true, some 0x3B)])) = true := by decide +kernel
theorem witness_regions : (let s := rn 0 [] id; rgnState s 4 = 0 ∧ s.bind.rgnHeld = [] ∧ rgnLen s 4 ≠ 0 ∧ inHbm s (rgnBase s 4) (rgnLen s 4) = true ∧ jobState s (rgnSlot s 4) = 1 ∧ epochOld (s.rd pHoist 0x600) (s.rd pHoist 0x44C) = false ∧ (∀ k, k < 32 → k ≠ 4 → rgnMeets s 4 k = false) ∧ s.mem.scrub = none ∧ s.mem.scrubWait = [])
    ∧ (rgnLen (rn 0 [(pHoist, 0x444, 0)] id) 4 = 0 ∧ jobState (rn 0 [(pHoist, 0x328, 4)] id) 2 = 4 ∧ epochOld 9 ((rn 0 [(pHoist, 0x44C, 9)] id).rd pHoist 0x44C) = true) ∧ (let s := rn 0 (r5 2) id; rgnMeets s 4 5 = true ∧ rgnState s 5 = 2)
    ∧ (let s := rn 0 (r5 3) id; rgnMeets s 4 5 = true ∧ rgnState s 5 = 3 ∧ (∀ k, k < 32 → k ≠ 4 → k ≠ 5 → rgnMeets s 4 k = false)) ∧ (rn 0 [] (fun b => { b with rgnHeld := [(4, 9)] })).bind.rgnHeld.any (fun x => decide (x.1 = 4)) = true
    ∧ (let s := rn 2 [] id; rgnState s 4 = 2 ∧ s.bind.rgnDrain = [] ∧ jobCmds s (jobGen s 2) = []) ∧ jobCmds { rn 2 [(pQueue 2, 0x2C, 5)] id with cmds := [cm 9 nop] } 5 = [0]
    ∧ (let s := rn 1 [] (fun b => { b with ready := [2] }); rgnState s 4 = 1 ∧ slotOf s (jobGen s 2) = some 2 ∧ jobState s 2 = 1 ∧ 2 ∈ s.bind.ready ∧ s.bind.holds = [] ∧ (∀ k, k < 32 → k ≠ 4 → rgnState s k ≠ 1)) := by decide +kernel
theorem test_job_gen : ok (.jobGenWrite 2 5) (jb 0 [(pHoist, 0x320, 0)] id) (fun t => decide (jobGen t 2 = 5 ∧ jobState t 2 = 1)) = true ∧ ok (.jobGenWrite 3 5) (jb 1 [] id) (fun t => flagged (jb 1 [] id) t [] pHoist 14) = true := by decide +kernel
theorem test_job_ready : ok (.jobReady 2) (jb 1 [] id) (fun t => decide (jobState t 2 = 2 ∧ t.bind.ready = [2])) = true ∧ ok (.jobReady 2) (jb 1 [] (fun b => { b with holds := [⟨pTile 3, 9, 5, 0⟩] })) (fun t => decide (jobState t 2 = 1 ∧ t.bind.ready = [2])) = true := by decide +kernel
theorem test_job_start : ok (.jobStart 2) (jq 2 1 []) (fun t => decide (jobState t 2 = 3 ∧ qState t 2 = 2)) = true ∧ ok (.jobStart 2) (jq 2 1 [(pQueue 2, 0x10, 0)]) (fun t => decide (jobState t 2 = 3 ∧ qState t 2 = 1 ∧ t.rdB (pQueue 2) 0x18 14 = true)) = true := by decide +kernel
theorem test_job_teardown : ok (.jobTeardown 2) (jq 3 2 []) (fun t => decide (jobState t 2 = 4 ∧ qState t 2 = 5 ∧ bstate t (pQueue 2) = 3 ∧ t.bind.tds = [⟨.slot 2, 5, [pQueue 2], 2, 0, false⟩] ∧ t.opBusy pHoist = true)) = true ∧ idle (.jobTeardown 2) (jq 4 2 []) = true := by decide +kernel
theorem test_bind : ok (.bindReq (pTile 3)) (bd 1 [] id) (fun t => decide (bstate t (pTile 3) = 2 ∧ t.rd (pTile 3) 0x28 = 9 ∧ t.rd (pTile 3) 0x2C = 5 ∧ t.rdF (pTile 3) 0x608 4 4 = 1 ∧ t.rdB (pTile 3) 0x18 21 = true ∧ t.bind.bound = [pTile 3])) = true
    ∧ ok (.bindReq (pTile 3)) (bd 1 [(pTile 3, 0x28, 9)] id) (fun t => flagged (bd 1 [(pTile 3, 0x28, 9)] id) t [(pTile 3, 0x608)] (pTile 3) 22 && decide (t.rdF (pTile 3) 0x608 4 4 = 2)) = true := by decide +kernel
theorem test_unbind : ok (.resourceTeardown (pQueue 2)) (jq 3 4 [(pQueue 2, 0x608, 4)]) (fun t => decide (bstate t (pQueue 2) = 0 ∧ t.rd (pQueue 2) 0x2C = 0 ∧ t.rd (pQueue 2) 0x28 = 8 ∧ t.rdB (pQueue 2) 0x18 19 = true ∧ t.bind.bound = [])) = true
    ∧ ok (.resourceTeardown (pQueue 2)) (jq 3 2 []) (fun t => decide (bstate t (pQueue 2) = 3 ∧ qState t 2 = 5)) = true := by decide +kernel
theorem test_drain_end : ok (.teardownDrainEnd (.slot 2)) (tds (.slot 2) [pQueue 2] 2 false []) (fun t => decide (t.bind.tds = [] ∧ jobState t 2 = 0 ∧ jobGen t 2 = 0 ∧ bstate t (pQueue 2) = 0 ∧ t.rdB pHoist 0x18 13 = true)) = true
    ∧ ok (.teardownDrainEnd (.slot 2)) (tds (.slot 2) [pQueue 2] 2 false [(pHoist, 0x448, 2 + 2 * 2 ^ 20)]) (fun t => decide (jobState t 2 = 4 ∧ rgnState t 4 = 3 ∧ t.rdF pHoist 0x328 4 3 = 4)) = true := by decide +kernel
theorem test_drain_timeout : ok (.drainTimeout (.slot 2)) { tds (.slot 2) [pQueue 2] 2 false [(pHoist, 0x104, 3 * 2 ^ 16)] with ref := 300100 } (fun t => decide (t.bind.tds = [td (.slot 2) [pQueue 2] 2 true] ∧ t.rdB pHoist 0x18 15 = true)) = true
    ∧ idle (.drainTimeout (.slot 2)) { tds (.slot 2) [pQueue 2] 2 false [(pHoist, 0x104, 3 * 2 ^ 16)] with ref := 300099 } = true := by decide +kernel
theorem test_region_bind : ok (.regionBind 4) (rn 0 [] id) (fun t => decide (rgnState t 4 = 1 ∧ t.rd pHoist 0x44C = 9 ∧ t.mem.scrub = some ⟨2 ^ 21, 2 ^ 21, some 4⟩ ∧ t.opBusy (pCache 0) = true)) = true
    ∧ ok (.regionBind 4) (rn 0 (r5 2) id) (fun t => decide (rgnState t 4 = 0 ∧ t.rdF pHoist 0x448 24 4 = 2 ∧ t.rdB pHoist 0x18 17 = true)) = true := by decide +kernel
theorem test_region_release : ok (.regionRelease 4) { rn 2 [(pQueue 2, 0x2C, 5)] id with cmds := [cm 9 nop] } (fun t => decide (rgnState t 4 = 3 ∧ t.bind.rgnDrain = [(4, [0])] ∧ t.mem.scrub = none)) = true
    ∧ ok (.regionRelease 4) (rn 2 [] id) (fun t => decide (rgnState t 4 = 3 ∧ t.mem.scrub = some ⟨2 ^ 21, 2 ^ 21, some 4⟩)) = true := by decide +kernel
theorem test_region_scrubbed : ok .scrubDone (let s := rn 1 [] (fun b => { b with ready := [2] }); { s with mem := { s.mem with scrub := some ⟨2 ^ 21, 2 ^ 21, some 4⟩ } }) (fun t => decide (rgnState t 4 = 2 ∧ jobState t 2 = 2 ∧ t.rdF pHoist 0x448 24 4 = 1 ∧ t.rdB pHoist 0x18 16 = true)) = true := by decide +kernel

/-! The Hoist: node 0x42 with parent 9 and child 6, both over link 5. -/

def sentBy (t : State) : List Nat := (t.link 5).tx.map (fun v => v.q.length)
def nb (n : Nat) : Nat := 2 ^ 31 + 5 * 2 ^ 20 + n
def cx : HCtx := ⟨5, 4000000, 3000000, 8, 0, 2, false, 0, true, (List.range 16).map (fun _ => ⟨none, some 0, 5000⟩), [], [([], 0), ([], 0)], false⟩
def hs (st : Nat) (l : List (Page × Nat × Nat)) (c : List HCtx) : State :=
  let s := regs ([(pl, 0x14, 1 + 2 * 2 ^ 16), (pOe 0, 0x14, 1), (pl, 0x204, 3 + 0xFF * 2 ^ 8), (pFabric, 0x14, 1), (pHoist, 0x104, 1), (pHoist, 0x10C, nb 9), (pHoist, 0x114, nb 6), (pTime, 0x210, 2), (pHoist, 0x154, 0x800000), (pHoist, 0x15C, 0x400000), (pHoist, 0x164, 0x200000)] ++ l) (jb st [] id)
  { s with hoist := (c.map some ++ List.replicate 4 none).take 4 }
def hp (ty kind : Nat) (src : Nat) (body : List Byte) : Packet :=
  let p : Packet := ⟨3, BitVec.ofNat 4 ty, 0, BitVec.ofNat 13 body.length, 0, 0, 0, 0, 5, 0, BitVec.ofNat 20 src, 0, 0, BitVec.ofNat 64 (0x42 * 2 ^ 40 + kind), body, 0⟩
  { p with check := BitVec.ofNat 64 (packetCheck p) }
def hStart : Packet := hp 10 1 9 (desc 32 [(0, 8, 4000000), (8, 8, 3000000), (0x10, 4, 8), (0x14, 4, 2)])
def hReport (st : Nat) : Packet := hp 10 2 6 (desc 12 [(0, 2, 1), (8, 4, 6 + st * 2 ^ 20)])
def hAbort : Packet := hp 10 3 9 (desc 8 [(0, 8, 8)])
/-- The root's list of members 6 and 0x42, and a context of its own. -/
def rt (l : List (Page × Nat × Nat)) (c : List HCtx) : State := (hs 2 ([(pHoist, 0x104, 3), (pHoist, 0x108, 1000), (pHoist, 0x200, 4000000), (pHoist, 0x208, 3000000), (pHoist, 0x210, 5), (pHoist, 0x218, 2)] ++ l) c).hwr 0x200000 (toLE 4 6 ++ toLE 4 0x42)
def own : HCtx := { cx with root := 0x42, here := true, known := [(0x42, 1)] }
theorem witness_hoist_packets : (∀ p ∈ [hStart, hReport 0, hAbort], okPkt (hs 2 [] []) p = true ∧ p.ptype.toNat = 10 ∧ p.dstConn.toNat = 0 ∧ p.srcConn.toNat = 0 ∧ p.epoch.toNat = 0 ∧ p.gen.toNat = 5) ∧ (hs 2 [] []).rdB pHoist 0x104 0 = true ∧ isParent (hs 2 [] []) 9 = true ∧ childIx (hs 2 [] []) 6 = some 0
    ∧ hoistOk (hs 2 [] []) hStart 1 = true ∧ hoistOk (hs 2 [] []) (hReport 6) 2 = true ∧ hoistOk (hs 2 [] []) (hReport 7) 2 = false ∧ hoistOk (hs 2 [] []) hAbort 3 = true ∧ hoistOk (hs 2 [] []) hAbort 1 = false
    ∧ (hs 2 [] []).ptp < 3000000 ∧ 3000000 ≤ ({ hs 2 [] [] with ptp := 3000000 } : State).ptp ∧ ctxOf (hs 2 [] []) 5 = none ∧ ctxOf (hs 2 [] [cx]) 5 = some (0, cx) ∧ cx.taken = true ∧ ({ cx with taken := false } : HCtx).taken = false ∧ (hs 2 [] []).hoist.length = 4
    ∧ (∀ k, k < 4 → ctxAt (hs 2 [] (List.replicate 4 { cx with gen := 6 })) k ≠ none) ∧ ctxOf (hs 2 [] (List.replicate 4 { cx with gen := 6 })) 5 = none ∧ ctxAt (hs 2 [] []) 0 = none ∧ childOf (hs 2 [] []) 0 = some (6, 5) := by decide +kernel
theorem witness_hoist_root : served (rt [] []) = true ∧ (rt [] []).rdF pHoist 0x104 0 2 = 3 ∧ ¬ (4000000 < 3000000 + 1000 * (rt [] []).rdF pHoist 0x108 0 16 ∨ 3000000 ≤ (rt [] []).ptp) ∧ 3999999 < 3000000 + 1000 * (rt [] []).rdF pHoist 0x108 0 16 ∧ inHbm (rt [] []) 0x200000 8 = true ∧ ctxOf (rt [] []) 5 = none ∧ (rt [(pHoist, 0x218, 0)] []).rdF pHoist 0x218 0 20 = 0
    ∧ (let s := rt [] [{ own with reported := true }]; own.here = true ∧ s.ptp < own.time ∧ inHbm s 0x400000 (2 ^ 22) = true ∧ (0x400000 + 2 ^ 22 ≤ 0x800000 + 6) ∧ s.raw = [] ∧ s.mem.failed = [])
    ∧ (let s := (rt [] []).hwr 0x400008 (toLE 4 1 ++ List.replicate 0x34 0 ++ toLE 4 (6 + 7 * 2 ^ 20)); (List.range (s.hnat 0x400008 4)).find? (fun i => decide (s.hnat (0x400040 + 4 * i) 4 % 2 ^ 20 = 6)) = some 0 ∧ s.hnat 0x400040 4 < 2 ^ 31)
    ∧ own.members ≤ 1048560 ∧ own.policy ≤ 1 ∧ own.deadline ≤ ({ rt [] [own] with ptp := 3000000 } : State).ptp ∧ (rt [] [own]).bind.bound = [] := by decide +kernel
theorem witness_hoist_more : (let s := { rt [] [own] with ptp := 3000000 }; reportDue s own = true ∧ reportHeld s 5 = false ∧ memHeld s .hostDie 0x400000 (64 + 4 * 2) = false ∧ hoistOk s (hReport 0) 2 = true ∧ ok (.hoistDeadline 0) s (fun u => !reportHeld u 5) = true)
    ∧ (let s := { rt [] [own] with ptp := 3000000, mem := { up.mem with phyLost := (List.range 12).map (·, 0) } }; reportHeld s 5 = true ∧ memHeld s .hostDie 0x400000 64 = true)
    ∧ (5 ∉ (hs 2 [] []).aborted ∧ 5 ∈ ({ hs 2 [] [] with aborted := [5] } : State).aborted) ∧ (parentOf (hs 2 [] []) 0).map (·.1) = some 9 ∧ parentOf (hs 2 [] []) 1 = none := by decide +kernel
theorem test_hoist_abort_unknown : ok (.hoistAbort 5 hAbort) (hs 2 [] []) (fun t => decide (t.aborted = [5] ∧ lsum (sentBy t) = 1)) = true ∧ ok (.hoistAbort 5 hAbort) { hs 2 [] [] with aborted := [5] } (fun t => decide (sentBy t = [0, 0, 0])) = true := by decide +kernel
theorem witness_hoist_times : alive (hs 2 [] [cx]) = true ∧ jobGen (hs 2 [] [cx]) 2 = 5 ∧ jobState (hs 2 [] [cx]) 2 = 2 ∧ cx.time ≤ ({ hs 2 [] [cx] with ptp := 4000000 } : State).ptp ∧ cx.time + 10000000 ≤ ({ hs 2 [] [cx] with ptp := 14000000 } : State).ptp ∧ cx.kids[0]? = some ⟨none, some 0, 5000⟩ ∧ (hs 2 [] [cx]).ptp < cx.deadline
    ∧ parentOf (hs 2 [] [cx]) 0 = some (9, 5) ∧ ({ cx with pend := [([(6, 0)], 1), ([], 0)] } : HCtx).pend[0]? = some ([(6, 0)], 1) ∧ (hs 2 [] [cx]).ref < 1 + 1000 ∧ 1 + 1000 ≤ ({ hs 2 [] [cx] with ref := 1001 } : State).ref := by decide +kernel
theorem test_hoist_start : ok (.hoistStart 5 hStart) (hs 2 [] []) (fun t => decide ((ctxAt t 0).map (fun x => (x.gen, x.time, x.taken, x.root)) = some (5, 4000000, true, 8) ∧ t.rd pHoist 0x220 = 5 ∧ t.rd pHoist 0x224 = 2 ∧ t.rdB pHoist 0x18 8 = true ∧ t.rd pHoist 0x240 = 1 ∧ lsum (sentBy t) = 2)) = true
    ∧ ok (.hoistStart 5 (hp 10 1 6 hStart.body)) (hs 2 [] []) (fun t => decide (t.rd pHoist 0x24C = 1 ∧ t.rd pHoist 0x240 = 0 ∧ sentBy t = [0, 0, 0])) = true := by decide +kernel
theorem test_hoist_report : ok (.hoistReport 5 (hReport 2)) { hs 2 [] [cx] with ref := 70 } (fun t => decide ((ctxAt t 0).map (fun x => ((x.known : List (Nat × Nat)), x.pend, x.kids[0]?)) = some ([(6, 3)], [([(6, 2)], 0), ([(6, 2)], 0)], some ⟨some 2, some 5070, 5000⟩))) = true
    ∧ ok (.hoistReport 5 (hReport 0)) (hs 2 [] [cx]) (fun t => decide ((ctxAt t 0).map (fun x => x.kids[0]?) = some (some ⟨some 0, none, 5000⟩))) = true := by decide +kernel
theorem test_hoist_abort : ok (.hoistAbort 5 hAbort) (hs 2 [] [cx]) (fun t => decide (ctxAt t 0 = none ∧ t.rdF pHoist 0x224 0 3 = 3 ∧ t.rdB pHoist 0x328 8 = true ∧ t.rdB pHoist 0x18 11 = true ∧ jobState t 2 = 2 ∧ lsum (sentBy t) = 1)) = true
    ∧ ok (.hoistAbort 5 hAbort) { hs 3 [(pQueue 2, 0x14, 2 * 2 ^ 16), (pQueue 2, 0x608, 2), (pQueue 2, 0x2C, 5)] [cx] with bind := { up.bind with bound := [pQueue 2] }, ptp := 4000000 } (fun t => decide (qState t 2 = 3 ∧ t.rdB pHoist 0x18 12 = true)) = true := by decide +kernel
theorem test_hoist_go : ok (.hoistTxGo true) (rt [] []) (fun t => decide (t.rd pHoist 0x21C = 1 ∧ (ctxAt t 0).map (fun x => (x.here, x.policy, x.members, x.taken)) = some (true, 1, 2, true) ∧ lsum (sentBy t) = 1)) = true
    ∧ ok (.hoistTxGo false) (rt [(pHoist, 0x200, 3999999)] []) (fun t => only (rt [(pHoist, 0x200, 3999999)] []) t [(pHoist, 0x214), (pHoist, 0x21C)] && decide (t.rd pHoist 0x21C = 3)) = true := by decide +kernel
theorem test_hoist_deadline : ok (.hoistDeadline 0) { rt [] [own] with ptp := 3000000 } (fun t => decide ((List.range 4).map (fun i => t.hnat (0x400000 + 4 * i) 4) = [5, 2, 1, 0] ∧ t.hnat 0x400040 4 = 6 + 7 * 2 ^ 20 ∧ t.rdB pHoist 0x18 10 = true ∧ (ctxAt t 0).map (·.reported) = some true)) = true := by decide +kernel
theorem test_hoist_late : ok (.hoistReport 5 (hReport 0)) ((rt [] [{ own with reported := true, known := [(6, 1)] }]).hwr 0x400008 (toLE 4 1 ++ List.replicate 0x34 0 ++ toLE 4 (6 + 7 * 2 ^ 20))) (fun t => decide (t.hnat 0x400040 4 = 2 ^ 31 + 6 + 7 * 2 ^ 20 ∧ t.hnat 0x400010 4 = 1 ∧ t.rd pHoist 0x250 = 1)) = true := by decide +kernel
theorem test_hoist_start_time : ok (.hoistStartTime 2) { hs 2 [] [cx] with ptp := 4000000 } (fun t => decide (jobState t 2 = 3)) = true ∧ idle (.hoistStartTime 2) { hs 2 [] [cx] with ptp := 3999999 } = true := by decide +kernel
theorem test_hoist_release : ok (.hoistContextRelease 0) { hs 2 [(pHoist, 0x220, 5), (pHoist, 0x224, 2)] [cx] with ptp := 14000000 } (fun t => decide (ctxAt t 0 = none ∧ t.rd pHoist 0x220 = 0 ∧ t.rd pHoist 0x224 = 0)) = true ∧ idle (.hoistContextRelease 0) { hs 2 [] [cx] with ptp := 13999999 } = true := by decide +kernel
theorem test_hoist_retry : ok (.hoistRetry 0 0) { hs 2 [] [{ cx with kids := [⟨some 2, some 60, 5000⟩] }] with ref := 60 } (fun t => decide ((ctxAt t 0).map (·.kids) = some [⟨some 2, some 10060, 10000⟩] ∧ t.rd pHoist 0x248 = 1 ∧ lsum (sentBy t) = 1)) = true
    ∧ idle (.hoistRetry 0 0) { hs 2 [] [{ cx with kids := [⟨some 2, some 60, 5000⟩] }] with ref := 59 } = true := by decide +kernel
theorem test_hoist_batch : ok (.hoistReportBatch 0 0) { hs 2 [] [{ cx with pend := [([(6, 2)], 1), ([], 0)] }] with ref := 1001 } (fun t => decide ((ctxAt t 0).map (·.pend) = some [([], 1001), ([], 0)] ∧ lsum (sentBy t) = 1)) = true
    ∧ idle (.hoistReportBatch 0 0) { hs 2 [] [{ cx with pend := [([(6, 2)], 1), ([], 0)] }] with ref := 1000 } = true := by decide +kernel

end Sys2Proof.Tests
end

section
/-! SUPPORT. Bit fields, kept register words and set flags: what a read of a field finds after writes, and what a set event of a flag leaves. -/

namespace Sys2Proof.Machine

open Sys2Proof

/-! Bit fields. -/

/-- A bit of a field. -/
theorem testBit_bits (x lo len i : Nat) : (bits x lo len).testBit i = (decide (i < len) && x.testBit (lo + i)) := by
  rw [bits, Nat.testBit_mod_two_pow, Nat.testBit_div_two_pow, Nat.add_comm]

/-- A bit after a field has been replaced. -/
theorem testBit_putBits (x lo len v i : Nat) :
    (putBits x lo len v).testBit i = if lo ≤ i ∧ i < lo + len then v.testBit (i - lo) else x.testBit i := by
  have hcat : putBits x lo len v = 2 ^ lo * (2 ^ len * (x / 2 ^ (lo + len)) + v % 2 ^ len) + x % 2 ^ lo := by
    rw [putBits, Nat.pow_add]; ring
  rw [hcat, Nat.testBit_two_pow_mul_add _ (Nat.mod_lt _ (by positivity)), Nat.testBit_two_pow_mul_add _ (Nat.mod_lt _ (by positivity)),
    Nat.testBit_mod_two_pow, Nat.testBit_mod_two_pow, Nat.testBit_div_two_pow]
  by_cases h1 : i < lo
  · simp [h1, show ¬ lo ≤ i by omega]
  · by_cases h2 : i < lo + len
    · simp [h1, h2, show i - lo < len by omega, show lo ≤ i by omega]
    · simp [h1, h2, show ¬ i - lo < len by omega, show i - lo - len + (lo + len) = i by omega]

/-- A field that has been replaced reads as the value put there. -/
theorem bits_putBits_self (x lo len v : Nat) : bits (putBits x lo len v) lo len = v % 2 ^ len := by
  apply Nat.eq_of_testBit_eq
  intro i
  rw [testBit_bits, testBit_putBits, Nat.testBit_mod_two_pow]
  by_cases h : i < len <;> simp [h]

/-- A field apart from the one replaced reads as before. -/
theorem bits_putBits_off (x lo len v a n : Nat) (h : a + n ≤ lo ∨ lo + len ≤ a) : bits (putBits x lo len v) a n = bits x a n := by
  apply Nat.eq_of_testBit_eq
  intro i
  rw [testBit_bits, testBit_bits, testBit_putBits]
  by_cases hi : i < n
  · rw [if_neg (by omega)]
  · simp [hi]

/-- A field of a word within its 32 bits. -/
theorem bits_mod_word (x lo len : Nat) (h : lo + len ≤ 32) : bits (x % 2 ^ 32) lo len = bits x lo len := by
  apply Nat.eq_of_testBit_eq
  intro i
  rw [testBit_bits, testBit_bits, Nat.testBit_mod_two_pow]
  by_cases hi : i < len
  · simp [show lo + i < 32 by omega]
  · simp [hi]

/-- A field written reads as the value written. -/
theorem rdF_wrF_self (s : State) (p : Page) (a lo len v : Nat) (h : lo + len ≤ 32) : (s.wrF p a lo len v).rdF p a lo len = v % 2 ^ len := by
  rw [State.rdF, State.wrF, rd_wr_self, bits_mod_word _ _ _ h, bits_putBits_self]

/-- A field apart from the one written in the same word reads as before. -/
theorem rdF_wrF_off (s : State) (p : Page) (a lo len v i n : Nat) (hn : i + n ≤ 32) (h : i + n ≤ lo ∨ lo + len ≤ i) :
    (s.wrF p a lo len v).rdF p a i n = s.rdF p a i n := by
  rw [State.rdF, State.wrF, rd_wr_self, bits_mod_word _ _ _ hn, bits_putBits_off _ _ _ _ _ _ h, State.rdF]

/-! Kept words. -/

theorem pageOk_pLink {l : Nat} (h : l < 32) : pageOk (pLink l) = true := decide_eq_true h

theorem pageOk_pOe {n : Nat} (h : n < 4) : pageOk (pOe n) = true := decide_eq_true h

/-- A word whose key is none of those listed reads as before. -/
theorem RegsKept.rd {s t : State} {ws : List (Page × Nat)} (h : RegsKept s t ws) {p : Page} {a : Nat}
    (hk : ∀ x ∈ ws, regKey p a ≠ regKey x.1 x.2) : t.rd p a = s.rd p a := by
  rw [State.rd, State.rd, h]
  rw [List.mem_map]
  rintro ⟨x, hx, hkey⟩
  exact hk x hx hkey.symm

theorem regsKept_of_regs_eq {s t : State} (h : t.regs = s.regs) (ws : List (Page × Nat)) : RegsKept s t ws := fun _ _ => by rw [h]

/-- What two changes in a row keep. -/
theorem RegsKept.trans {s t u : State} {ws vs : List (Page × Nat)} (h : RegsKept s t ws) (k : RegsKept t u vs) : RegsKept s u (ws ++ vs) := by
  intro x hx
  rw [List.map_append, List.mem_append, not_or] at hx
  rw [k x hx.2, h x hx.1]

/-- More words may be listed. -/
theorem RegsKept.mono {s t : State} {ws vs : List (Page × Nat)} (h : RegsKept s t ws) (hsub : ws ⊆ vs) : RegsKept s t vs :=
  fun x hx => h x (fun hm => hx (List.map_subset _ hsub hm))

theorem wr_kept (s : State) (p : Page) (a v : Nat) : RegsKept s (s.wr p a v) [(p, a)] := by
  intro k hk
  exact fget_wr s p a v k (by simpa using hk)

theorem wrF_kept (s : State) (p : Page) (a lo len v : Nat) : RegsKept s (s.wrF p a lo len v) [(p, a)] := wr_kept s p a _

theorem inc_kept (s : State) (p : Page) (a n : Nat) : RegsKept s (s.inc p a n) [(p, a)] := wr_kept s p a _

theorem OnlyRegs.trans {s t u : State} (h : OnlyRegs s t) (k : OnlyRegs t u) : OnlyRegs s u := by
  unfold OnlyRegs at *
  rw [k, h]

theorem OnlyRegs.toLog {s t : State} (h : OnlyRegs s t) : OnlyRegsLog s t := by
  unfold OnlyRegs at h
  rw [h]; rfl

/-! Set events of flags. -/

theorem setFlag_rd_flags (s : State) (p : Page) (n : Nat) (hn : n < 32) : (setFlag s p n).rd p 0x18 = s.rd p 0x18 ||| 2 ^ n := by
  rw [setFlag, State.inc, State.inc, rd_wr_off _ _ _ (by decide) (by decide) (by decide), rd_wr_off _ _ _ (by omega) (by decide) (by omega), rd_wr_self]
  exact Nat.mod_eq_of_lt (Nat.or_lt_two_pow (rd_lt s p 0x18) (Nat.pow_lt_pow_right (by decide) hn))

theorem setFlag_rd_events (s : State) (p : Page) (n : Nat) : (setFlag s p n).rd p 0x1C = (s.rd p 0x1C + 1) % 2 ^ 32 := by
  rw [setFlag, State.inc, rd_wr_self, State.inc, rd_wr_off _ _ _ (by omega) (by decide) (by omega), rd_wr_off _ _ _ (by decide) (by decide) (by decide)]

theorem setFlag_rd_count (s : State) (p : Page) (n : Nat) : (setFlag s p n).rd p (0x780 + 4 * n) = (s.rd p (0x780 + 4 * n) + 1) % 2 ^ 32 := by
  rw [setFlag, State.inc, rd_wr_off _ _ _ (by decide) (by omega) (by omega), State.inc, rd_wr_self, rd_wr_off _ _ _ (by decide) (by omega) (by omega)]

/-- A set event sets its flag, advances both its counters and posts its record, where the flag has one. -/
theorem raise_flagged (s : State) (p : Page) (n code queue addr : Nat) (detail : List Nat) (hn : n < 32) :
    Flagged s (raise s p n code queue addr detail) p n := by
  have hrd : ∀ a, (raise s p n code queue addr detail).rd p a = (setFlag s p n).rd p a := rd_congr (raise_regs ..) p
  refine ⟨by rw [hrd, setFlag_rd_flags s p n hn], by rw [hrd, setFlag_rd_events], by rw [hrd, setFlag_rd_count], ?_⟩
  unfold raise
  simp only [Bool.and_eq_true, Bool.or_eq_true, decide_eq_true_eq]
  split
  · next h => exact Or.inl h
  · exact Or.inr ⟨⟨recClass p.blk n, p, n, code, queue, (setFlag s p n).rd p (0x780 + 4 * n), s.ref, recPtp s, addr, detail.take 4, s.rd p 0x2C, s.rd p 0x28⟩,
      rfl, rfl, rfl, by simp only [setFlag_log]⟩

/-- A set event is one of every state with the same flag words, time and log. -/
theorem Flagged.congr {s u t : State} {p : Page} {n : Nat} (hrd : ∀ x ∈ flagWords p n, u.rd x.1 x.2 = s.rd x.1 x.2) (href : u.ref = s.ref)
    (hlog : u.log = s.log) (h : Flagged u t p n) : Flagged s t p n := by
  have h1 := hrd (p, 0x18) (by simp [flagWords])
  have h2 := hrd (p, 0x1C) (by simp [flagWords])
  have h3 := hrd (p, 0x780 + 4 * n) (by simp [flagWords])
  simp only at h1 h2 h3
  unfold Flagged at h ⊢
  rwa [h1, h2, h3, href, hlog] at h

/-- Words written and then a set event of a flag, none of whose words is among them. -/
theorem OnlyWords.then_raise {s u : State} {ws : List (Page × Nat)} (h : OnlyWords s u ws) {p : Page} {n : Nat}
    (hne : ∀ y ∈ flagWords p n, ∀ x ∈ ws, regKey y.1 y.2 ≠ regKey x.1 x.2) (code queue addr : Nat) (detail : List Nat) (hn : n < 32) :
    WordsAndFlag s (raise u p n code queue addr detail) ws p n := by
  obtain ⟨hkept, honly⟩ := h
  have href : u.ref = s.ref := by rw [honly]
  have hlog : u.log = s.log := by rw [honly]
  exact ⟨(raise_flagged u p n code queue addr detail hn).congr (fun y hy => hkept.rd (hne y hy)) href hlog,
    hkept.trans (raise_kept u p n code queue addr detail), honly.toLog.trans (raise_only ..)⟩

/-- A set event alone. -/
theorem raise_oneFlag (s : State) (p : Page) (n code queue addr : Nat) (detail : List Nat) (hn : n < 32) :
    OneFlag s (raise s p n code queue addr detail) p n :=
  OnlyWords.then_raise (ws := []) ⟨regsKept_of_regs_eq rfl [], by unfold OnlyRegs; rfl⟩ (by simp) _ _ _ _ hn

/-- The words of a flag are words of its page. -/
theorem mem_flagWords {p : Page} {n : Nat} (hn : n < 32) {x : Page × Nat} (h : x ∈ flagWords p n) : x.1 = p ∧ x.2 < 0x1000 ∧ x.2 % 4 = 0 := by
  simp only [flagWords, List.mem_cons, List.not_mem_nil, or_false] at h
  rcases h with rfl | rfl | rfl
  · simp
  · simp
  · refine ⟨rfl, ?_, ?_⟩ <;> simp only <;> omega

/-- A flag that has had a set event reads 1. -/
theorem Flagged.rdB {s t : State} {p : Page} {n : Nat} (h : Flagged s t p n) : t.rdB p 0x18 n = true := by
  obtain ⟨hflags, -⟩ := h
  rw [State.rdB, hflags, bit, Nat.testBit_or, Nat.testBit_two_pow_self, Bool.or_true]

/-! The fatal state. -/

/-- MODULE_FATAL with a cause of 8 bits (16_bringup_errors_test.md R522). -/
theorem moduleFatal_becameFatal (s : State) (cause : Nat) (hc : cause < 2 ^ 8) : BecameFatal s (moduleFatal s cause) cause := by
  let u := (s.wrF pErrlog 0x220 0 2 2).wrF pErrlog 0x220 8 8 cause
  have hwords : OnlyWords s u [(pErrlog, 0x220)] :=
    ⟨(RegsKept.trans (wrF_kept s pErrlog 0x220 0 2 2) (wrF_kept _ pErrlog 0x220 8 8 cause)).mono (by simp), (wr_only s ..).trans (wr_only _ ..)⟩
  have hne : ∀ y ∈ flagWords pErrlog 10, ∀ x ∈ [(pErrlog, 0x220)], regKey y.1 y.2 ≠ regKey x.1 x.2 := by decide
  have hrd : (moduleFatal s cause).rd pErrlog 0x220 = u.rd pErrlog 0x220 :=
    (raise_kept u pErrlog 10 0 0xFFFF 0 [cause, 0, 0, 0]).rd (by decide)
  refine ⟨hwords.then_raise hne _ _ _ _ (by decide), ?_, ?_⟩
  · rw [State.rdF, hrd, ← State.rdF, rdF_wrF_off _ _ _ _ _ _ _ _ (by decide) (by decide), rdF_wrF_self _ _ _ _ _ _ (by decide), Nat.mod_eq_of_lt (by decide)]
  · rw [State.rdF, hrd, ← State.rdF, rdF_wrF_self _ _ _ _ _ _ (by decide), Nat.mod_eq_of_lt hc]

end Sys2Proof.Machine
end

section
/-! SUPPORT. Links: what a control flit changes on a link with no packets to send, and what a run of retrains changes. -/

namespace Sys2Proof.Machine

open Sys2Proof

/-! Sending on one link. -/

/-- Only the state of link `l` differs. -/
def OnlyLink (s t : State) (l : Nat) : Prop := t = { s with links := t.links } ∧ ∀ j, j ≠ l → t.link j = s.link j

theorem OnlyLink.refl (s : State) (l : Nat) : OnlyLink s s l := ⟨rfl, fun _ _ => rfl⟩

theorem OnlyLink.trans {s t u : State} {l : Nat} (h : OnlyLink s t l) (k : OnlyLink t u l) : OnlyLink s u l := by
  obtain ⟨hst, hlink⟩ := h
  obtain ⟨htu, klink⟩ := k
  exact ⟨by rw [htu, hst], fun j hj => (klink j hj).trans (hlink j hj)⟩

theorem setLink_only (s : State) (l : Nat) (x : LinkSt) : OnlyLink s (s.setLink l x) l :=
  ⟨rfl, fun _ hj => fget_fset_ne _ _ _ hj⟩

@[simp] theorem link_setLink_self (s : State) (l : Nat) (x : LinkSt) : (s.setLink l x).link l = x := fget_fset_self _ _ _ _

/-- No virtual channel of the link has bytes to send. -/
def LinkSt.NoPackets (k : LinkSt) : Prop := ∀ v ∈ k.tx, v.q = [] ∧ v.rest = [] ∧ v.cutDue = false

/-- A channel without bytes has no flit to send (12_krovmo_fabric.md R374, R377). -/
theorem vcFlit_eq_none {v : VcTx} (now : Nat) (hq : v.q = []) (hrest : v.rest = []) (hcut : v.cutDue = false) : vcFlit v now = none := by
  simp [vcFlit, vcCut, hq, hrest, hcut, packFlit]

theorem linkSendOne_eq_none {s : State} {l : Nat} (h : (s.link l).NoPackets) (vc : Nat) : linkSendOne s l vc = none := by
  unfold linkSendOne
  simp only []
  split
  · rfl
  · next v hv =>
    obtain ⟨hq, hrest, hcut⟩ := h v (List.mem_of_getElem? hv)
    rw [vcFlit_eq_none s.ref hq hrest hcut]
    split <;> rfl

/-- A control flit sent changes its link only, and no channel of it. -/
theorem linkSendCtl_only {s t : State} {l : Nat} (h : linkSendCtl s l = some t) : OnlyLink s t l ∧ (t.link l).tx = (s.link l).tx := by
  unfold linkSendCtl at h
  simp only [] at h
  split at h
  · cases h
  · split at h
    · cases h
    · cases h
      exact ⟨setLink_only _ _ _, by rw [link_setLink_self]; rfl⟩

/-- Without packets the pump sends control flits only. -/
theorem linkPump_only (l n : Nat) : ∀ s : State, (s.link l).NoPackets → OnlyLink s (linkPump n l s) l := by
  induction n with
  | zero => exact fun s _ => OnlyLink.refl s l
  | succ n ih =>
    intro s h
    unfold linkPump
    split
    · next t ht =>
      obtain ⟨honly, htx⟩ := linkSendCtl_only ht
      exact honly.trans (ih t (by unfold LinkSt.NoPackets; rw [htx]; exact h))
    · simp only [linkSendOne_eq_none h]
      exact OnlyLink.refl s l

/-- A control flit put on an idle link changes that link only. -/
theorem sendControl_only {s : State} {l : Nat} (h : (s.link l).idle) (payload : List Byte) : OnlyLink s (sendControl s l payload) l := by
  obtain ⟨-, hreplay, hpackets⟩ := h
  let u := s.modLink l (fun k => { k with ctl := k.ctl ++ [payload] })
  have hlink : u.link l = { s.link l with ctl := (s.link l).ctl ++ [payload] } := link_setLink_self _ _ _
  have hno : linkReplay u l = u := by simp [linkReplay, hlink, hreplay]
  have hu : OnlyLink s u l := setLink_only _ _ _
  unfold sendControl linkGo
  rw [hno]
  exact hu.trans (linkPump_only l 2048 u (by rw [hlink]; exact hpackets))

/-! Retrains. -/

/-- The words that a link's retrain changes: its state, the ports that are up, its retrains, and RETRAIN's flag. -/
def retrainWords (l : Nat) : List (Page × Nat) := [(pLink l, 0x14), (pFabric, 0x204), (pLink l, 0x214)] ++ flagWords (pLink l) 9

theorem setLinkState_kept (s : State) (l st : Nat) : RegsKept s (setLinkState s l st) [(pLink l, 0x14), (pFabric, 0x204)] :=
  RegsKept.trans (wrF_kept s (pLink l) 0x14 16 3 st) (wrF_kept _ pFabric 0x204 l 1 _)

theorem regKey_link_fabric {l : Nat} (hl : l < 32) {a b : Nat} (ha : a < 0x1000) (hb : b < 0x1000) : regKey (pLink l) a ≠ regKey pFabric b :=
  regKey_page (pageOk_pLink hl) rfl (by simp [pLink, pFabric]) ha hb

/-- A link that has entered a state is in it. -/
theorem linkState_setLinkState (s : State) {l : Nat} (hl : l < 32) (st : Nat) : linkState (setLinkState s l st) l = st % 2 ^ 3 := by
  rw [linkState, State.rdF, setLinkState,
    (wrF_kept _ pFabric 0x204 l 1 _).rd (by simpa using regKey_link_fabric hl (by decide) (by decide)), ← State.rdF, rdF_wrF_self _ _ _ _ _ _ (by decide)]

/-- A link that is not UP does not retrain. -/
theorem startRetrain_eq_self {s : State} {l : Nat} (h : linkState s l ≠ 2) (ask : Bool) : startRetrain s l ask = s := by
  simp [startRetrain, h]

/-- A link whose lanes lock anew from a moment on. -/
def LinkSt.relock (k : LinkSt) (now : Nat) : LinkSt := { k with step := 1, since := now, lanes := 0, retrainFrom := some now }

/-- A retrain begun at a moment, once the partner has been asked. -/
def retrainBegin (s : State) (l now : Nat) : State :=
  raise (((setLinkState s l 3).modLink l (fun k => k.relock now)).inc (pLink l) 0x214 1) (pLink l) 9 0 0xFFFF 0 [l, 0, 0, 0]

theorem startRetrain_eq_retrainBegin {s : State} {l : Nat} (h : linkState s l = 2) :
    startRetrain s l true = retrainBegin (sendControl s l (toLE 1 2 ++ toLE 1 1)) l s.ref := by
  unfold startRetrain
  rw [if_neg (not_not_intro h)]
  rfl

theorem modLink_kept (s : State) (l : Nat) (f : LinkSt → LinkSt) : RegsKept s (s.modLink l f) [] := regsKept_of_regs_eq rfl []

/-- Once the link is in RETRAIN, only the count of its retrains and the words of RETRAIN's flag change. -/
theorem retrainBegin_kept_state (s : State) (l now : Nat) : RegsKept (setLinkState s l 3) (retrainBegin s l now) ((pLink l, 0x214) :: flagWords (pLink l) 9) := by
  unfold retrainBegin
  generalize setLinkState s l 3 = u
  have hinc := (modLink_kept u l (fun k => k.relock now)).trans (inc_kept (u.modLink l (fun k => k.relock now)) (pLink l) 0x214 1)
  exact hinc.trans (raise_kept ((u.modLink l (fun k => k.relock now)).inc (pLink l) 0x214 1) (pLink l) 9 0 0xFFFF 0 [l, 0, 0, 0])

theorem retrainBegin_kept (s : State) (l now : Nat) : RegsKept s (retrainBegin s l now) (retrainWords l) :=
  (setLinkState_kept s l 3).trans (retrainBegin_kept_state s l now)

theorem linkState_retrainBegin (s : State) {l : Nat} (hl : l < 32) (now : Nat) : linkState (retrainBegin s l now) l = 3 := by
  have hrd : (retrainBegin s l now).rd (pLink l) 0x14 = (setLinkState s l 3).rd (pLink l) 0x14 := by
    refine (retrainBegin_kept_state s l now).rd ?_
    simp only [flagWords, List.forall_mem_cons]
    refine ⟨?_, ?_, ?_, ?_, by simp⟩ <;> exact regKey_ne _ (by decide) (by decide) (by decide)
  rw [linkState, State.rdF, hrd, ← State.rdF, ← linkState, linkState_setLinkState s hl, Nat.mod_eq_of_lt (by decide)]

theorem link_retrainBegin_other (s : State) {l j : Nat} (now : Nat) (h : j ≠ l) : (retrainBegin s l now).link j = s.link j := by
  simp only [retrainBegin, State.link, raise_links, State.inc_links, State.modLink, State.setLink, setLinkState, State.wrF_links]
  exact fget_fset_ne _ _ _ h

/-- Nothing but registers, the error log and links changed. -/
def OnlyRegsLogLinks (s t : State) : Prop := t = { s with regs := t.regs, log := t.log, links := t.links }

theorem OnlyRegsLogLinks.trans {s t u : State} (h : OnlyRegsLogLinks s t) (k : OnlyRegsLogLinks t u) : OnlyRegsLogLinks s u := by
  unfold OnlyRegsLogLinks at *
  rw [k, h]

theorem OnlyRegsLog.toLinks {s t : State} (h : OnlyRegsLog s t) : OnlyRegsLogLinks s t := by
  unfold OnlyRegsLog at h
  unfold OnlyRegsLogLinks
  rw [h]

theorem OnlyLink.toLinks {s t : State} {l : Nat} (h : OnlyLink s t l) : OnlyRegsLogLinks s t := by
  obtain ⟨honly, -⟩ := h
  unfold OnlyRegsLogLinks
  rw [honly]

theorem setLinkState_only (s : State) (l st : Nat) : OnlyRegs s (setLinkState s l st) := (wr_only s ..).trans (wr_only _ ..)

theorem retrainBegin_only (s : State) (l now : Nat) : OnlyRegsLogLinks s (retrainBegin s l now) := by
  have hstate : OnlyRegsLogLinks s (setLinkState s l 3) := (setLinkState_only s l 3).toLog.toLinks
  unfold retrainBegin
  generalize setLinkState s l 3 = u at hstate ⊢
  have hlink : OnlyRegsLogLinks u (u.modLink l (fun k => k.relock now)) := (setLink_only u l _).toLinks
  generalize u.modLink l (fun k => k.relock now) = v at hlink ⊢
  have hraise : OnlyRegsLogLinks v (raise (v.inc (pLink l) 0x214 1) (pLink l) 9 0 0xFFFF 0 [l, 0, 0, 0]) :=
    ((wr_onlyRegsLog v ..).trans (raise_only ..)).toLinks
  exact (hstate.trans hlink).trans hraise

/-- An idle link that is UP enters RETRAIN, having asked its partner; only its own state and words change, and PORTS_UP (12_krovmo_fabric.md R369). -/
theorem startRetrain_up {s : State} {l : Nat} (hl : l < 32) (hup : linkState s l = 2) (hidle : (s.link l).idle) :
    linkState (startRetrain s l true) l = 3 ∧ RegsKept s (startRetrain s l true) (retrainWords l)
      ∧ (∀ j, j ≠ l → (startRetrain s l true).link j = s.link j) ∧ OnlyRegsLogLinks s (startRetrain s l true) := by
  have hasked : OnlyLink s (sendControl s l (toLE 1 2 ++ toLE 1 1)) l := sendControl_only hidle _
  rw [startRetrain_eq_retrainBegin hup]
  generalize sendControl s l (toLE 1 2 ++ toLE 1 1) = u at hasked ⊢
  have hregs : u.regs = s.regs := by rw [hasked.1]
  exact ⟨linkState_retrainBegin u hl _, (regsKept_of_regs_eq hregs []).trans (retrainBegin_kept u l _),
    fun j hj => (link_retrainBegin_other u _ hj).trans (hasked.2 j hj), hasked.toLinks.trans (retrainBegin_only u l _)⟩

/-- Of a state `s` the links of `L` that were UP retrain in `t`: every other link and every page but those of LINK and FABRIC are as they were. -/
structure Retraining (s t : State) (L : List Nat) : Prop where
  state : ∀ l, l < 32 → linkState t l = if l ∈ L ∧ linkState s l = 2 then 3 else linkState s l
  link : ∀ l, l ∉ L → t.link l = s.link l
  words : ∀ p a, pageOk p = true → p.blk ≠ .link → p.blk ≠ .fabric → a < 0x1000 → t.rd p a = s.rd p a
  only : OnlyRegsLogLinks s t

theorem Retraining.refl (s : State) : Retraining s s [] := ⟨by simp, by simp, by simp, rfl⟩

/-- A retrain's words are of its LINK page or of FABRIC. -/
theorem regKey_ne_retrainWords {l : Nat} (hl : l < 32) {p : Page} {a : Nat} (hp : pageOk p = true) (hpl : p ≠ pLink l) (hpf : p ≠ pFabric) (ha : a < 0x1000) :
    ∀ x ∈ retrainWords l, regKey p a ≠ regKey x.1 x.2 := by
  have hlink : ∀ b, b < 0x1000 → regKey p a ≠ regKey (pLink l) b := fun b hb => regKey_page hp (pageOk_pLink hl) hpl ha hb
  have hfab : regKey p a ≠ regKey pFabric 0x204 := regKey_page hp rfl hpf ha (by decide)
  simp only [retrainWords, flagWords, List.cons_append, List.nil_append, List.forall_mem_cons]
  exact ⟨hlink _ (by decide), hfab, hlink _ (by decide), hlink _ (by decide), hlink _ (by decide), hlink _ (by decide), by simp⟩

/-- A link that is UP is one that was UP and has not been told to retrain. -/
theorem Retraining.of_up {s t : State} {L : List Nat} (h : Retraining s t L) {l : Nat} (hl : l < 32) (hup : linkState t l = 2) : l ∉ L ∧ linkState s l = 2 := by
  have hstate := h.state l hl
  rw [hup] at hstate
  by_cases hc : l ∈ L ∧ linkState s l = 2
  · rw [if_pos hc] at hstate; cases hstate
  · rw [if_neg hc] at hstate
    exact ⟨fun hm => hc ⟨hm, hstate.symm⟩, hstate.symm⟩

/-- A link that is not UP may be counted among those told to retrain. -/
theorem Retraining.of_not_up {s t : State} {L : List Nat} (h : Retraining s t L) {l : Nat} (hl : l < 32) (hup : linkState t l ≠ 2) : Retraining s t (L ++ [l]) := by
  refine ⟨fun j hj => ?_, fun j hj => h.link j (fun hm => hj (by simp [hm])), h.words, h.only⟩
  rw [h.state j hj]
  by_cases hjl : j = l
  · subst hjl
    have hiff : (j ∈ L ∧ linkState s j = 2) ↔ linkState s j = 2 := by
      refine ⟨And.right, fun hs => ⟨?_, hs⟩⟩
      by_contra hm
      exact hup (by rw [h.state j hj, if_neg (fun hc => hm hc.1), hs])
    simp [hiff]
  · simp [hjl]

/-- One more link is told to retrain. -/
theorem Retraining.step {s t : State} {L : List Nat} (h : Retraining s t L) {l : Nat} (hl : l < 32) (hidle : linkState s l = 2 → (s.link l).idle) :
    Retraining s (startRetrain t l true) (L ++ [l]) := by
  by_cases hup : linkState t l = 2
  · obtain ⟨hnew, hsUp⟩ := h.of_up hl hup
    obtain ⟨hstate, hkept, hother, honly⟩ := startRetrain_up hl hup (by rw [h.link l hnew]; exact hidle hsUp)
    refine ⟨fun j hj => ?_, fun j hj => ?_, fun p a hp hpl hpf ha => ?_, h.only.trans honly⟩
    · by_cases hjl : j = l
      · subst hjl; rw [hstate, if_pos ⟨by simp, hsUp⟩]
      · have hrd := hkept.rd (regKey_ne_retrainWords hl (pageOk_pLink hj) (by simpa [pLink] using hjl) (by simp [pLink, pFabric]) (a := 0x14) (by decide))
        rw [linkState, State.rdF, hrd, ← State.rdF, ← linkState, h.state j hj]
        simp [hjl]
    · simp only [List.mem_append, List.mem_singleton, not_or] at hj
      rw [hother j hj.2, h.link j hj.1]
    · rw [hkept.rd (regKey_ne_retrainWords hl hp (fun e => hpl (by rw [e]; rfl)) (fun e => hpf (by rw [e]; rfl)) ha), h.words p a hp hpl hpf ha]
  · rw [startRetrain_eq_self hup]
    exact h.of_not_up hl hup

/-- Every link of a list is told to retrain in turn. -/
theorem Retraining.foldl {s : State} (L : List Nat) (hL : ∀ l ∈ L, l < 32 ∧ (linkState s l = 2 → (s.link l).idle)) :
    ∀ (t : State) (M : List Nat), Retraining s t M → Retraining s (L.foldl (fun s l => startRetrain s l true) t) (M ++ L) := by
  induction L with
  | nil => intro t M h; simpa using h
  | cons l L ih =>
    intro t M h
    obtain ⟨hl, hidle⟩ := hL l (by simp)
    simpa using ih (fun j hj => hL j (by simp [hj])) _ _ (h.step hl hidle)

end Sys2Proof.Machine
end

section
/-! Loss of lock, and what makes the module fatal (01_architecture.md R22, 16_bringup_errors_test.md R522): one lemma per island and event, and the obligation assembled from them. -/

namespace Sys2Proof.Machine

open Sys2Proof

/-! The commands. -/

theorem exec_pllLockLoss (i : Island) (s : State) : exec (.pllLockLoss i) s = execPllLockLoss i s := rfl

theorem exec_hbmPhyRelock (st : Nat) (s : State) : exec (.hbmPhyRelock st) s = execHbmPhyRelock st s := rfl

theorem exec_hbmRelockTimeout (st : Nat) (s : State) : exec (.hbmRelockTimeout st) s = execHbmRelockTimeout st s := rfl

theorem exec_rngHealthFail (s : State) : exec .rngHealthFail s = execRngHealthFail s := rfl

theorem exec_palurCheckFailed (s : State) : exec .palurCheckFailed s = execPalurCheckFailed s := rfl

/-! The network, the timebase and the management port. -/

theorem pllLockLoss_net_completes {s : State} (hup : s.up = true) :
    Completes (.pllLockLoss .net) s (fun t => ∃ u v, OneFlag s u pNet 5 ∧ BecameFatal u v 1 ∧ t = { v with netHalted := true }) :=
  ⟨_, by rw [exec_pllLockLoss, execPllLockLoss, if_pos hup], _, _, raise_oneFlag s pNet 5 _ _ _ _ (by decide),
    moduleFatal_becameFatal _ 1 (by decide), rfl⟩

theorem pllLockLoss_timebase_completes {s : State} (hup : s.up = true) :
    Completes (.pllLockLoss .timebase) s (fun t => ∃ u v, OneFlag s u pTime 5 ∧ BecameFatal u v 2 ∧ t = { v with refStopped := true }) :=
  ⟨_, by rw [exec_pllLockLoss, execPllLockLoss, if_pos hup], _, _, raise_oneFlag s pTime 5 _ _ _ _ (by decide),
    moduleFatal_becameFatal _ 2 (by decide), rfl⟩

/-- Over a halted network every request is held. -/
theorem memHeld_of_netHalted {s : State} (h : s.netHalted = true) (r : Requester) (a n : Nat) : memHeld s r a n = true := by
  simp [memHeld, baseHeld, h]

/-- A port that is down stays as it is. -/
theorem mgmtDown_eq_self {s : State} (h : s.rdB pMgmt 0x208 0 = false) : mgmtDown s = s := by simp [mgmtDown, h]

theorem pllLockLoss_mgmt_completes {s : State} (hup : s.up = true) (hport : s.rdB pMgmt 0x208 0 = false) :
    Completes (.pllLockLoss .mgmt) s (fun t => OneFlag s t pMgmt 5) := by
  have hrd : (raise s pMgmt 5).rd pMgmt 0x208 = s.rd pMgmt 0x208 := (raise_kept s pMgmt 5 0 0xFFFF 0 []).rd (by decide)
  have hdown : (raise s pMgmt 5).rdB pMgmt 0x208 0 = false := by rw [State.rdB, hrd, ← State.rdB, hport]
  exact ⟨_, by rw [exec_pllLockLoss, execPllLockLoss, if_pos hup, mgmtDown_eq_self hdown], raise_oneFlag s pMgmt 5 _ _ _ _ (by decide)⟩

/-! Optical engines. -/

/-- The links of an optical engine. -/
def oeLinks (n : Nat) : List Nat := (List.range 8).map (fun k => 8 * n + k)

theorem mem_oeLinks (n l : Nat) : l ∈ oeLinks n ↔ l / 8 = n := by
  simp only [oeLinks, List.mem_map, List.mem_range]
  constructor
  · rintro ⟨k, hk, rfl⟩; omega
  · intro h; exact ⟨l % 8, by omega, by omega⟩

theorem oe_ne_link (n l : Nat) : pOe n ≠ pLink l := by simp [pOe, pLink]

theorem linkState_raise_oe {s : State} {n l : Nat} (hn : n < 4) (hl : l < 32) : linkState (raise s (pOe n) 5) l = linkState s l := by
  have hrd : (raise s (pOe n) 5).rd (pLink l) 0x14 = s.rd (pLink l) 0x14 := by
    refine (raise_kept s (pOe n) 5 0 0xFFFF 0 []).rd (fun x hx => ?_)
    obtain ⟨hpage, hoff, -⟩ := mem_flagWords (by decide) hx
    rw [hpage]
    exact regKey_page (pageOk_pLink hl) (pageOk_pOe hn) (oe_ne_link n l).symm (by decide) hoff
  rw [linkState, State.rdF, hrd, ← State.rdF, ← linkState]

theorem pllLockLoss_oe_completes {s : State} (hup : s.up = true) {n : Nat} (hn : n < 4)
    (hidle : ∀ l, l < 32 → l / 8 = n → linkState s l = 2 → (s.link l).idle) :
    Completes (.pllLockLoss (.oe n)) s (fun t => t.rdB (pOe n) 0x18 5 = true
      ∧ (∀ l, l < 32 → linkState t l = if l / 8 = n ∧ linkState s l = 2 then 3 else linkState s l)
      ∧ t = { s with regs := t.regs, log := t.log, links := t.links }) := by
  obtain ⟨hflag, -, honly⟩ := raise_oneFlag s (pOe n) 5 0 0xFFFF 0 [] (by decide)
  have hstate : ∀ l, l < 32 → linkState (raise s (pOe n) 5) l = linkState s l := fun l hl => linkState_raise_oe hn hl
  have hlink : ∀ l, (raise s (pOe n) 5).link l = s.link l := fun l => by rw [State.link, raise_links, State.link]
  have hexec : exec (.pllLockLoss (.oe n)) s = .next ((oeLinks n).foldl (fun s l => startRetrain s l true) (raise s (pOe n) 5)) := by
    rw [exec_pllLockLoss, execPllLockLoss, if_pos hup, onUnit, decide_eq_true hn, if_pos rfl, oeLinks, List.foldl_map]
  refine ⟨_, hexec, ?_⟩
  generalize raise s (pOe n) 5 = u at hflag honly hstate hlink ⊢
  have hall : Retraining u ((oeLinks n).foldl (fun s l => startRetrain s l true) u) (oeLinks n) := by
    refine Retraining.foldl (oeLinks n) (fun l hm => ?_) u [] (Retraining.refl u)
    have hmem := (mem_oeLinks n l).1 hm
    have hl : l < 32 := by omega
    exact ⟨hl, fun h => by rw [hlink]; exact hidle l hl hmem (by rwa [← hstate l hl])⟩
  refine ⟨?_, fun l hl => ?_, honly.toLinks.trans hall.only⟩
  · rw [State.rdB, hall.words _ _ (pageOk_pOe hn) (by simp [pOe]) (by simp [pOe]) (by decide), ← State.rdB, hflag.rdB]
  · simp only [hall.state l hl, hstate l hl, mem_oeLinks]

/-! Stacks. -/

/-- A stack that is neither failed nor already without its lock is entered with the moment of the loss. -/
theorem exec_pllLockLoss_phy {s : State} (hup : s.up = true) {st : Nat} (hst : st < 12) :
    exec (.pllLockLoss (.phy st)) s = .next
      (if s.mem.phyLost.any (fun x => decide (x.1 = st)) || s.mem.failed.contains st then raise s (pHbmc st) 5
       else (raise s (pHbmc st) 5).modMem (fun m => { m with phyLost := m.phyLost ++ [(st, s.ref)] })) := by
  simp only [exec_pllLockLoss, execPllLockLoss, onUnit, hup, hst, decide_true, if_true, Bool.not_true, Bool.false_eq_true, if_false]

theorem pllLockLoss_phy_completes {s : State} (hup : s.up = true) {st : Nat} (hst : st < 12) :
    Completes (.pllLockLoss (.phy st)) s (fun t => ∃ u, OneFlag s u (pHbmc st) 5
      ∧ (t = u ∨ t = { u with mem := { u.mem with phyLost := u.mem.phyLost ++ [(st, s.ref)] } })
      ∧ (st ∉ s.mem.failed → ∃ m, (st, m) ∈ t.mem.phyLost)) := by
  have hflag : OneFlag s (raise s (pHbmc st) 5) (pHbmc st) 5 := raise_oneFlag s _ 5 _ _ _ _ (by decide)
  refine ⟨_, exec_pllLockLoss_phy hup hst, _, hflag, ?_⟩
  split
  · next hknown =>
    refine ⟨Or.inl rfl, fun hnew => ?_⟩
    simp only [Bool.or_eq_true, List.any_eq_true, decide_eq_true_eq, List.contains_iff_mem, hnew, or_false] at hknown
    obtain ⟨⟨i, m⟩, hm, rfl⟩ := hknown
    exact ⟨m, by rwa [raise_mem]⟩
  · exact ⟨Or.inr rfl, fun _ => ⟨s.ref, List.mem_append_right _ (List.mem_singleton_self _)⟩⟩

/-- Without waiting records nothing is written into a retirement ring. -/
theorem retDrain_eq_self {s : State} (h : s.mem.retWait = []) (n st : Nat) : retDrain n st s = s := by
  cases n with
  | zero => rfl
  | succ n =>
    unfold retDrain
    rw [h]
    split <;> rfl

theorem retDrainAll_eq_self {s : State} (h : s.mem.retWait = []) : retDrainAll s = s := by
  unfold retDrainAll
  induction List.range 12 with
  | nil => rfl
  | cons st L ih => rw [List.foldl_cons, retDrain_eq_self h, ih]

theorem mapoutKick_eq_self {s : State} (h : s.mem.mapWait = []) : mapoutKick s = s := by rw [mapoutKick, h]; rfl

theorem retrainEnd_eq_self {s : State} {st : Nat} (h : st ∉ s.mem.retrain) : retrainEnd s st = s := by
  simp [retrainEnd, h]

theorem hbmPhyRelock_completes {s : State} (hup : s.up = true) {st m : Nat} (hst : st < 12) (hlost : s.mem.phyLost = [(st, m)])
    (hsoon : s.ref ≤ m + 1000000) (hno : st ∉ s.mem.retrain) (hret : s.mem.retWait = []) (hmap : s.mem.mapWait = []) :
    Completes (.hbmPhyRelock st) s (fun t => t = { s with mem := { s.mem with phyLost := [] } }) := by
  let u : State := { s with mem := { s.mem with phyLost := [] } }
  have hback : s.modMem (fun m => { m with phyLost := m.phyLost.filter (fun y => decide (y.1 ≠ st)) }) = u := by simp [State.modMem, hlost, u]
  have hrest : mapoutKick (retDrainAll (retrainEnd u st)) = u := by
    rw [retrainEnd_eq_self (s := u) hno, retDrainAll_eq_self (s := u) hret, mapoutKick_eq_self (s := u) hmap]
  refine ⟨u, ?_, rfl⟩
  have hfind : s.mem.phyLost.find? (fun x => decide (x.1 = st)) = some (st, m) := by simp [hlost]
  simp only [exec_hbmPhyRelock, execHbmPhyRelock, onUnit, hst, decide_true, if_true, hup, Bool.not_true, Bool.false_eq_true, if_false, hfind, hsoon, hback, hrest]

theorem mem_sinsert (k x : Nat) (l : List Nat) : x ∈ sinsert k l ↔ x = k ∨ x ∈ l := by
  induction l with
  | nil => simp [sinsert]
  | cons j r ih =>
    unfold sinsert
    split
    · simp
    · split
      · next h => simp [h]
      · simp only [List.mem_cons, ih]; tauto

/-- A stack that has been without its lock for 10 ms: failed, no longer waiting for its lock, its requests no longer held for it. -/
def failStack (s : State) (st : Nat) : State :=
  s.modMem (fun m => { m with phyLost := m.phyLost.filter (fun y => decide (y.1 ≠ st)), retrain := sremove st m.retrain, failed := sinsert st m.failed })

theorem hbmRelockTimeout_completes {s : State} {st m : Nat} (hst : st < 12) (hlost : s.mem.phyLost = [(st, m)]) (hlate : m + 1000000 ≤ s.ref)
    (hno : st ∉ s.mem.retrain) :
    Completes (.hbmRelockTimeout st) s (fun t => st ∈ t.mem.failed ∧ t.mem.phyLost = [] ∧ (∀ k, k ≠ st → (k ∈ t.mem.failed ↔ k ∈ s.mem.failed))
      ∧ Flagged s t (pHbmc st) 17 ∧ RegsKept s t (flagWords (pHbmc st) 17) ∧ t = { s with regs := t.regs, log := t.log, mem := t.mem }) := by
  have hfind : s.mem.phyLost.find? (fun x => decide (x.1 = st)) = some (st, m) := by simp [hlost]
  have hexec : exec (.hbmRelockTimeout st) s = .next (raise (failStack s st) (pHbmc st) 17) := by
    simp only [exec_hbmRelockTimeout, execHbmRelockTimeout, onUnit, hst, decide_true, if_true, hfind, hlate, List.contains_iff_mem, hno, if_false, failStack]
  have honly := raise_only (failStack s st) (pHbmc st) 17 0 0xFFFF 0 []
  refine ⟨_, hexec, ?_, ?_, fun k hk => ?_, ?_, ?_, ?_⟩
  · rw [raise_mem]; exact (mem_sinsert ..).2 (Or.inl rfl)
  · rw [raise_mem]; simp [failStack, State.modMem, hlost]
  · rw [raise_mem, failStack, State.modMem, mem_sinsert]; simp [hk]
  · exact (raise_flagged _ _ 17 _ _ _ _ (by decide)).congr (fun _ _ => rfl) rfl rfl
  · exact (regsKept_of_regs_eq (s := s) (t := failStack s st) rfl []).trans (raise_kept _ (pHbmc st) 17 0 0xFFFF 0 [])
  · have hstack : failStack s st = { s with mem := (failStack s st).mem } := rfl
    unfold OnlyRegsLog at honly
    generalize raise (failStack s st) (pHbmc st) 17 = t at honly ⊢
    rw [honly, hstack]

theorem hbmPhyRelock_idle {s : State} (hup : s.up = true) {st : Nat} (hst : st < 12) (hlost : ∀ x ∈ s.mem.phyLost, x.1 ≠ st) (hno : st ∉ s.mem.retrain) :
    Idle (.hbmPhyRelock st) s := by
  have hfind : s.mem.phyLost.find? (fun x => decide (x.1 = st)) = none := by simpa using hlost
  simp [Idle, exec_hbmPhyRelock, execHbmPhyRelock, onUnit, hst, hup, hfind, hno]

theorem hbmRelockTimeout_idle {s : State} {st : Nat} (hst : st < 12) (hlost : ∀ x ∈ s.mem.phyLost, x.1 ≠ st) : Idle (.hbmRelockTimeout st) s := by
  have hfind : s.mem.phyLost.find? (fun x => decide (x.1 = st)) = none := by simpa using hlost
  simp [Idle, exec_hbmRelockTimeout, execHbmRelockTimeout, onUnit, hst, hfind]

/-! Palur. -/

theorem rngHealthFail_completes {s : State} (hup : s.up = true) : Completes .rngHealthFail s (fun t => BecameFatal s t 4) :=
  ⟨_, by rw [exec_rngHealthFail, execRngHealthFail, if_pos hup], moduleFatal_becameFatal s 4 (by decide)⟩

theorem palurCheckFailed_completes {s : State} (hup : s.up = true) : Completes .palurCheckFailed s (fun t => BecameFatal s t 6) :=
  ⟨_, by rw [exec_palurCheckFailed, execPalurCheckFailed, if_pos hup], moduleFatal_becameFatal s 6 (by decide)⟩

/-- Settles O28: each island and event by its own lemma. -/
theorem clockLoss : Obligations.ClockLoss := by
  intro s hup
  refine ⟨pllLockLoss_net_completes hup, memHeld_of_netHalted, pllLockLoss_timebase_completes hup, pllLockLoss_mgmt_completes hup,
    fun n hn hidle => pllLockLoss_oe_completes hup hn hidle, fun st hst => ⟨pllLockLoss_phy_completes hup hst, fun m hlost => ⟨?_, ?_⟩, fun hlost => ⟨?_, ?_⟩⟩,
    rngHealthFail_completes hup, palurCheckFailed_completes hup⟩
  · exact hbmPhyRelock_completes hup hst hlost
  · exact hbmRelockTimeout_completes hst hlost
  · exact hbmPhyRelock_idle hup hst hlost
  · exact hbmRelockTimeout_idle hst hlost

end Sys2Proof.Machine
end

section
/-! A step with no command waiting (01_architecture.md R19, R22, 13_binding_and_jobs.md R432, 14_power_thermal.md R459): what a tick counts, slot by slot, and the obligation assembled from it. -/

namespace Sys2Proof.Machine

open Sys2Proof

/-- The signed value of a 32-bit register word. -/
theorem sint_eq_toInt (x : Nat) : sint 32 x = (BitVec.ofNat 32 x).toInt := by
  rw [BitVec.toInt_eq_toNat_cond, BitVec.toNat_ofNat]
  simp only [sint]
  split <;> split <;> omega

/-! Waiting of the job slots. -/

theorem mem_sremove (k x : Nat) (l : List Nat) : x ∈ sremove k l ↔ x ∈ l ∧ x ≠ k := by simp [sremove]

/-- One tick's waiting of slot `j` of `s` has been counted in `t` (14_power_thermal.md R459). -/
def SlotTicked (s t : State) (j : Nat) : Prop :=
  fget (fun _ => 0) t.power.paceWait j = fget (fun _ => 0) s.power.paceWait j + ((slotTiles s j).filter (tileWaits s)).length
  ∧ (allWait s j = true → fget (fun _ => 0) t.power.paceAll j = fget (fun _ => 0) s.power.paceAll j + 1 ∧ (j ∈ t.power.straggled ↔ j ∈ s.power.straggled))
  ∧ (allWait s j = false → fget (fun _ => 0) t.power.paceAll j = 0 ∧ j ∉ t.power.straggled)

/-- What is counted of slot `j` is alike in both states. -/
def SlotKept (s t : State) (j : Nat) : Prop :=
  fget (fun _ => 0) t.power.paceWait j = fget (fun _ => 0) s.power.paceWait j ∧ fget (fun _ => 0) t.power.paceAll j = fget (fun _ => 0) s.power.paceAll j
  ∧ (j ∈ t.power.straggled ↔ j ∈ s.power.straggled)

/-- Nothing but the counts of the slots' waiting differs. -/
def OnlyPace (s t : State) : Prop :=
  t = { s with power := { s.power with paceWait := t.power.paceWait, paceAll := t.power.paceAll, straggled := t.power.straggled } }

theorem OnlyPace.trans {s t u : State} (h : OnlyPace s t) (k : OnlyPace t u) : OnlyPace s u := by
  unfold OnlyPace at *
  rw [k, h]

theorem SlotTicked.then_kept {s t u : State} {j : Nat} (h : SlotTicked s t j) (k : SlotKept t u j) : SlotTicked s u j := by
  obtain ⟨kwait, kall, kstrag⟩ := k
  unfold SlotTicked at *
  rwa [kwait, kall, kstrag]

/-- Which tiles of a slot wait does not depend on the counts. -/
theorem SlotKept.then_ticked {s t u : State} {j : Nat} (h : SlotKept s t j) (honly : OnlyPace s t) (k : SlotTicked t u j) : SlotTicked s u j := by
  obtain ⟨hwait, hall, hstrag⟩ := h
  unfold SlotTicked at k
  rw [hwait, hall, hstrag, honly] at k
  exact k

theorem SlotKept.trans {s t u : State} {j : Nat} (h : SlotKept s t j) (k : SlotKept t u j) : SlotKept s u j := by
  obtain ⟨hwait, hall, hstrag⟩ := h
  obtain ⟨kwait, kall, kstrag⟩ := k
  exact ⟨kwait.trans hwait, kall.trans hall, kstrag.trans hstrag⟩

theorem paceTick_only (s : State) (j : Nat) : OnlyPace s (paceTick s j) := by simp only [OnlyPace, paceTick, State.modPower]

theorem paceTick_self (s : State) (j : Nat) : SlotTicked s (paceTick s j) j := by
  refine ⟨?_, fun hall => ?_, fun hall => ?_⟩
  · simp only [paceTick, State.modPower, fget_fset_self]
  · simp [paceTick, State.modPower, hall]
  · simp [paceTick, State.modPower, hall, fget_ferase_self, mem_sremove]

theorem paceTick_other (s : State) {i j : Nat} (h : i ≠ j) : SlotKept s (paceTick s j) i := by
  refine ⟨?_, ?_, ?_⟩
  · simp only [paceTick, State.modPower, fget_fset_ne _ _ _ h]
  · simp only [paceTick, State.modPower]
    split
    · exact fget_fset_ne _ _ _ h
    · exact fget_ferase_ne _ _ h
  · simp only [paceTick, State.modPower]
    split
    · rfl
    · simp [mem_sremove, h]

/-- After the slots below `n` have been counted in turn. -/
theorem paceTicks_spec (s : State) (n : Nat) :
    OnlyPace s ((List.range n).foldl paceTick s) ∧ (∀ j, j < n → SlotTicked s ((List.range n).foldl paceTick s) j)
      ∧ ∀ j, n ≤ j → SlotKept s ((List.range n).foldl paceTick s) j := by
  induction n with
  | zero => exact ⟨rfl, fun j hj => absurd hj (by omega), fun j _ => ⟨rfl, rfl, Iff.rfl⟩⟩
  | succ n ih =>
    obtain ⟨honly, hticked, hkept⟩ := ih
    rw [List.range_succ, List.foldl_append, List.foldl_cons, List.foldl_nil]
    refine ⟨honly.trans (paceTick_only _ n), fun j hj => ?_, fun j hj => ?_⟩
    · by_cases hjn : j = n
      · subst hjn; exact (hkept j (by omega)).then_ticked honly (paceTick_self _ j)
      · exact (hticked j (by omega)).then_kept (paceTick_other _ hjn)
    · exact (hkept j (by omega)).trans (paceTick_other _ (by omega))

/-! Both clocks. -/

/-- The clocks of a tick: the timebase, and PTP time with it. -/
def tickClocks (s : State) : State := tickPtp { s with ref := (s.ref + 1) % 2 ^ 64 }

/-- Everything that a tick counts while the timebase runs. -/
def tickCounts (s : State) : State := (List.range 16).foldl paceTick (tickClocks s)

/-- PTP time advances by whole nanoseconds, and the rest is carried (13_binding_and_jobs.md R432). -/
theorem tickClocks_ptp (s : State) (h : 0 ≤ (s.servo.frac : Int) + 10000000000 + 10 * (BitVec.ofNat 32 (s.rd pTime 0x218)).toInt) :
    ∃ ns : Nat, (ns : Int) * 1000000000 + (tickClocks s).servo.frac = s.servo.frac + 10000000000 + 10 * (BitVec.ofNat 32 (s.rd pTime 0x218)).toInt
      ∧ (tickClocks s).servo.frac < 1000000000 ∧ (tickClocks s).ptp = (s.ptp + ns) % 2 ^ 64 := by
  rw [← sint_eq_toInt] at h ⊢
  have hfrac : (tickClocks s).servo.frac = (((s.servo.frac : Int) + 10000000000 + 10 * sint 32 (s.rd pTime 0x218)) % 1000000000).toNat := rfl
  have hptp : (tickClocks s).ptp = (s.ptp + (((s.servo.frac : Int) + 10000000000 + 10 * sint 32 (s.rd pTime 0x218)) / 1000000000).toNat) % 2 ^ 64 := rfl
  refine ⟨_, ?_, ?_, hptp⟩ <;> rw [hfrac] <;> omega

/-- What a slot counts does not depend on the clocks. -/
theorem SlotTicked.of_clocks {s t : State} {j : Nat} (h : SlotTicked (tickClocks s) t j) : SlotTicked s t j := h

/-- The slots' counts leave the clocks as they are. -/
theorem tickCounts_pace (s : State) : OnlyPace (tickClocks s) (tickCounts s) := (paceTicks_spec (tickClocks s) 16).1

theorem tickCounts_ref (s : State) : (tickCounts s).ref = (s.ref + 1) % 2 ^ 64 := by
  rw [tickCounts_pace s]; rfl

theorem tickCounts_ptp (s : State) : (tickCounts s).ptp = (tickClocks s).ptp := by rw [tickCounts_pace s]

theorem tickCounts_servo (s : State) : (tickCounts s).servo = (tickClocks s).servo := by rw [tickCounts_pace s]

theorem tickCounts_slot (s : State) {j : Nat} (hj : j < 16) : SlotTicked s (tickCounts s) j := by
  obtain ⟨-, hticked, -⟩ := paceTicks_spec (tickClocks s) 16
  exact (hticked j hj).of_clocks

/-- Nothing else is counted. -/
theorem tickCounts_only (s : State) :
    tickCounts s = { s with
      ref := (tickCounts s).ref
      ptp := (tickCounts s).ptp
      servo := { s.servo with frac := (tickCounts s).servo.frac }
      power := { s.power with paceWait := (tickCounts s).power.paceWait, paceAll := (tickCounts s).power.paceAll, straggled := (tickCounts s).power.straggled } } := by
  have hpace := tickCounts_pace s
  unfold OnlyPace at hpace
  generalize tickCounts s = t at hpace ⊢
  rw [hpace]
  rfl

/-! The step. -/

theorem step_of_idle {s : State} (h : s.pending = []) : step s = .next (tick s) := by rw [step, h]

theorem tick_without_power {s : State} (h : s.up = false) : tick s = s := by simp [tick, h]

theorem tick_running {s : State} (hup : s.up = true) (hrun : s.refStopped = false) : tick s = dhcpExpire (alignLinks (tickCounts s)) := by
  simp [tick, hup, hrun, tickCounts, tickClocks]

theorem tick_stopped {s : State} (hup : s.up = true) (hstop : s.refStopped = true) : tick s = dhcpExpire (alignLinks s) := by
  simp [tick, hup, hstop]

/-- Where no lanes have just locked, no port aligns. -/
theorem alignLinks_eq_self {s : State} (h : ∀ x ∈ s.links, x.2.step ≠ 2) : alignLinks s = s := by
  unfold alignLinks
  generalize s.links = L at h
  induction L with
  | nil => rfl
  | cons x L ih => rw [List.foldl_cons, if_neg (h x (by simp)), ih (fun y hy => h y (by simp [hy]))]

/-- Without a lease none runs out. -/
theorem dhcpExpire_eq_self {s : State} (h : s.mgmt.lease = none) : dhcpExpire s = s := by rw [dhcpExpire, h]

theorem settle_eq_self {s : State} (hlinks : ∀ x ∈ s.links, x.2.step ≠ 2) (hlease : s.mgmt.lease = none) : dhcpExpire (alignLinks s) = s := by
  rw [alignLinks_eq_self hlinks, dhcpExpire_eq_self hlease]

/-- Settles O2: a tick's counts slot by slot, and what settles behind them. -/
theorem idleStepTicks : Obligations.IdleStepTicks := by
  intro s hidle
  have honly := tickCounts_only s
  rw [step_of_idle hidle]
  refine ⟨fun ⟨hup, hrun⟩ => ⟨tickCounts s, ?_, fun hlinks hlease => ?_, tickCounts_ref s, fun hpos => ?_, fun j hj => tickCounts_slot s hj, honly⟩,
    fun hup => ?_, fun ⟨hup, hstop⟩ => ⟨?_, fun hlinks hlease => ?_⟩⟩
  · rw [tick_running hup hrun]
  · rw [tick_running hup hrun, settle_eq_self (by rw [honly]; exact hlinks) (by rw [honly]; exact hlease)]
  · rw [tickCounts_servo, tickCounts_ptp]
    exact tickClocks_ptp s hpos
  · rw [tick_without_power hup]
  · rw [tick_stopped hup hstop]
  · rw [tick_stopped hup hstop, settle_eq_self hlinks hlease]

end Sys2Proof.Machine
end

section
/-! SUPPORT. The relation between a state and a later one that every operation of the model keeps (O5), and how it passes through conditions and loops. -/

namespace Sys2Proof.Machine

open Sys2Proof

/-- What every operation keeps between a state and a later one: the queue of waiting commands, and the canonical form of the address spaces. -/
structure Follows (s t : State) : Prop where
  pending : t.pending = s.pending
  canonical : Canonical s → Canonical t

/-- A command that answers a next state keeps what `Follows` says. -/
def OutFollows (s : State) (o : Out) : Prop := ∀ t, o = .next t → Follows s t

/-- A result that may be none keeps it where there is one. -/
def OptFollows (s : State) (o : Option State) : Prop := ∀ t, o = some t → Follows s t

section
variable {o s t : State}

theorem Follows.refl (s : State) : Follows s s := ⟨rfl, id⟩

/-- A change that keeps the queue and the canonical form. -/
theorem Follows.of_canonical (h : Follows o s) (hp : t.pending = s.pending) (hc : Canonical s → Canonical t) : Follows o t :=
  ⟨hp.trans h.pending, fun c => hc (h.canonical c)⟩

/-- A change that touches neither the queue nor the address spaces. -/
theorem Follows.of_eq (h : Follows o s) (hp : t.pending = s.pending) (hr : t.regs = s.regs) (hh : t.hbm = s.hbm) (ht : t.tmem = s.tmem) : Follows o t :=
  h.of_canonical hp fun c => canonical_of_eq c hr hh ht

/-- Whatever the state holds beside the queue and the address spaces may change. -/
theorem Follows.same {raw traw openConns aborted : List Nat} {ref ptp free nextUid fetchTurn hartsOn ssip : Nat} {up paused refStopped netHalted : Bool}
    {stalls : List Page} {phase : FMap Nat} {mem : MemSys} {conns : FMap ConnSt} {links : FMap LinkSt} {cmds : List Cmd} {qs : FMap QSt}
    {xlat : Xlat} {bind : BindSt} {pennants : List Pennant} {hoist : List (Option HCtx)} {servo : Ptp} {mgmt : MgmtNet} {headroom : FMap Int}
    {harts : FMap Hart} {hcache : HostCache} {tiles : FMap Tile} {log : Log} {store : Store} {palur : PalurSt} {power : PowerSt}
    {xc : List (Nat × Nat)} (h : Follows o s) :
    Follows o { s with
      raw, traw, openConns, aborted, ref, ptp, free, nextUid, fetchTurn, hartsOn, ssip, up, paused, refStopped, netHalted, stalls, phase, mem, conns, links,
      cmds, qs, xlat, bind, pennants, hoist, servo, mgmt, headroom, harts, hcache, tiles, log, store, palur, power, xc } :=
  h.of_eq rfl rfl rfl rfl

theorem Follows.ite {c : Prop} {_ : Decidable c} {a b : State} (ha : Follows o a) (hb : Follows o b) : Follows o (if c then a else b) := by
  split
  · exact ha
  · exact hb

theorem Follows.foldl {α : Type} {f : State → α → State} {l : List α} (h : Follows o s) (hf : ∀ t x, Follows o t → Follows o (f t x)) :
    Follows o (l.foldl f s) := by
  induction l generalizing s with
  | nil => exact h
  | cons x l ih => exact ih (hf s x h)

/-- A run over a list that carries a value beside the state. -/
theorem Follows.foldlFst {α β : Type} {f : State × β → α → State × β} {l : List α} {y : State × β} (h : Follows o y.1)
    (hf : ∀ z x, Follows o z.1 → Follows o (f z x).1) : Follows o (l.foldl f y).1 := by
  induction l generalizing y with
  | nil => exact h
  | cons x l ih => exact ih (hf y x h)

theorem Follows.pair {α : Type} {r : α} (h : Follows o s) : Follows o (s, r).1 := h

theorem Follows.of_fst {α : Type} {y : State × α} {r : α} (h : Follows o y.1) (e : y = (t, r)) : Follows o t := by
  rw [e] at h; exact h

theorem Follows.next (h : Follows o s) : OutFollows o (.next s) := by
  rintro _ ⟨⟩; exact h

theorem OutFollows.refused {r : Refusal} : OutFollows o (.refused r) := by
  intro t e; simp at e

theorem OutFollows.ite {c : Prop} {_ : Decidable c} {a b : Out} (ha : OutFollows o a) (hb : OutFollows o b) : OutFollows o (if c then a else b) := by
  split
  · exact ha
  · exact hb

theorem Follows.some (h : Follows o s) : OptFollows o (some s) := by
  rintro _ ⟨⟩; exact h

theorem OptFollows.none : OptFollows o .none := by
  intro t e; simp at e

theorem OptFollows.getD {x : Option State} (h : OptFollows o x) (hd : Follows o s) : Follows o (x.getD s) := by
  cases x with
  | none => exact hd
  | some t => exact h t rfl
end

end Sys2Proof.Machine
end

section
/-! SUPPORT. What every step keeps (O5), operation by operation: the state's writes, flags, memory accesses and the network. -/

namespace Sys2Proof.Machine

open Sys2Proof

section
variable {o s : State}

/-! Machine/Ops. -/

theorem Follows.then_onUnit {ok : Bool} (h : Follows o s) : OutFollows o (onUnit ok s) :=
  OutFollows.ite h.next OutFollows.refused

theorem Follows.then_wr {p : Page} {off v : Nat} (h : Follows o s) : Follows o (s.wr p off v) :=
  h.of_canonical rfl fun c => wr_canonical c p off v

theorem Follows.then_wr64 {p : Page} {off v : Nat} (h : Follows o s) : Follows o (s.wr64 p off v) :=
  h.then_wr.then_wr

theorem Follows.then_wrF {p : Page} {off lo len v : Nat} (h : Follows o s) : Follows o (s.wrF p off lo len v) :=
  h.then_wr

theorem Follows.then_inc {p : Page} {off n : Nat} (h : Follows o s) : Follows o (s.inc p off n) :=
  h.then_wr

theorem Follows.then_hwr {a : Nat} {l : List Byte} (h : Follows o s) : Follows o (s.hwr a l) :=
  h.of_canonical rfl fun c => hwr_canonical c a l

theorem Follows.then_modMem {f : MemSys → MemSys} (h : Follows o s) : Follows o (s.modMem f) :=
  h.of_eq rfl rfl rfl rfl

theorem Follows.then_twr {t off : Nat} {l : List Byte} (h : Follows o s) : Follows o (s.twr t off l) :=
  h.of_canonical rfl fun c => twr_canonical c t off l

theorem Follows.then_freeNext (h : Follows o s) : Follows o s.freeNext :=
  h.of_eq rfl rfl rfl rfl

theorem Follows.then_setHart {n : Nat} {x : Hart} (h : Follows o s) : Follows o (s.setHart n x) :=
  h.of_eq rfl rfl rfl rfl

theorem Follows.then_modHart {n : Nat} {f : Hart → Hart} (h : Follows o s) : Follows o (s.modHart n f) :=
  h.of_eq rfl rfl rfl rfl

theorem Follows.then_hartFault {n a : Nat} {store : Bool} (h : Follows o s) : Follows o (hartFault s n a store) :=
  h.of_eq rfl rfl rfl rfl

theorem Follows.then_setTile {t : Nat} {x : Tile} (h : Follows o s) : Follows o (s.setTile t x) :=
  h.of_eq rfl rfl rfl rfl

theorem Follows.then_modTile {t : Nat} {f : Tile → Tile} (h : Follows o s) : Follows o (s.modTile t f) :=
  h.of_eq rfl rfl rfl rfl

/-! Machine/Flags. -/

theorem Follows.then_setFlag {p : Page} {n : Nat} (h : Follows o s) : Follows o (setFlag s p n) :=
  h.then_wr.then_inc.then_inc

theorem Follows.then_raise {p : Page} {n code queue addr : Nat} {detail : List Nat} (h : Follows o s) :
    Follows o (raise s p n code queue addr detail) :=
  Follows.ite h.then_setFlag h.then_setFlag.same

theorem Follows.then_illegalWrite {p : Page} (h : Follows o s) : Follows o (illegalWrite s p) :=
  h.then_raise

theorem Follows.then_opStart {p : Page} {unit shift : Nat} (h : Follows o s) : Follows o (opStart s p unit shift) :=
  Follows.ite h.then_wr.then_wrF.then_wr h.then_wr.then_wrF

theorem Follows.then_opProgress {p : Page} {done total u : Nat} (h : Follows o s) : Follows o (opProgress s p done total u) :=
  h.then_wr

theorem Follows.then_opDone {p : Page} {done u : Nat} (h : Follows o s) : Follows o (opDone s p done u) :=
  h.then_wr.then_wrF.then_raise

theorem Follows.then_opFail {p : Page} (h : Follows o s) : Follows o (opFail s p) :=
  h.then_wrF.then_raise

/-! Machine/Mem. -/

theorem Follows.then_sliceTouch {r : Requester} {a n : Nat} {wr : Bool} (h : Follows o s) : Follows o (sliceTouch s r a n wr) :=
  h.of_eq rfl rfl rfl rfl

theorem Follows.then_ueEvent {r : Requester} {a : Nat} (h : Follows o s) : Follows o (ueEvent s r a) := by
  unfold ueEvent
  exact (Follows.ite h.then_inc h.then_inc.then_wr64.then_wr).then_raise

theorem Follows.then_ueEvents {r : Requester} {l : List Nat} (h : Follows o s) : Follows o (ueEvents s r l) :=
  h.foldl fun _ _ hu => hu.then_ueEvent

theorem Follows.then_afterFault {r : Requester} {f : Nat × Nat} (h : Follows o s) : Follows o (afterFault s r f) :=
  Follows.ite h.then_ueEvent h

theorem Follows.then_memRead {r : Requester} {a n : Nat} (h : Follows o s) : Follows o (memRead s r a n).1 := by
  unfold memRead
  split
  · exact h.then_afterFault.pair
  · exact h.then_sliceTouch.pair

theorem Follows.then_ringBlocks {a n : Nat} (h : Follows o s) : Follows o (ringBlocks s a n) :=
  h.of_eq rfl rfl rfl rfl

theorem Follows.then_writeSkip {skip : List Nat} {a : Nat} {l : List Byte} (h : Follows o s) :
    Follows o (writeSkip s skip a l) := by
  induction l generalizing s a with
  | nil => exact h
  | cons b l ih => exact ih (Follows.ite h (h.then_hwr (a := a) (l := [b])))

theorem Follows.then_dropTags {a n : Nat} (h : Follows o s) : Follows o (dropTags s a n) :=
  h.of_eq rfl rfl rfl rfl

theorem Follows.then_wroteBlocks {skip : List Nat} {a n : Nat} (h : Follows o s) : Follows o (wroteBlocks s skip a n) :=
  h.of_eq rfl rfl rfl rfl

theorem Follows.then_memWrite {r : Requester} {a : Nat} {data : List Byte} (h : Follows o s) :
    Follows o (memWrite s r a data).1 := by
  unfold memWrite
  extract_lets n lost part s1 s2 s3
  have hs1 : Follows o s1 := h.then_sliceTouch.then_writeSkip
  have hs3 : Follows o s3 := hs1.same.then_wroteBlocks
  split
  · exact h.pair
  · split
    · exact h.pair
    · clear_value part
      split
      · exact hs3.pair
      · exact hs3.then_ueEvents.pair

theorem Follows.then_tagRelease {a n scope : Nat} {t : RelTag} (h : Follows o s) : Follows o (tagRelease s a n scope t) :=
  Follows.ite h.then_dropTags.same h.then_dropTags

theorem Follows.then_countMismatch {p : Page} {loc relScope acqScope : Nat} {remote : Bool} (h : Follows o s) :
    Follows o (countMismatch s p loc relScope acqScope remote) :=
  h.then_inc.then_wr64

theorem Follows.then_acquireCheck {a n scope : Nat} {me : RelTag} (h : Follows o s) : Follows o (acquireCheck s a n scope me) := by
  unfold acquireCheck
  extract_lets c
  split
  · split
    · exact Follows.ite h h.then_countMismatch
    · exact h
  · exact h

theorem Follows.then_slicePut {a : Nat} {data : List Byte} (h : Follows o s) : Follows o (slicePut s a data) :=
  h.then_hwr.then_ringBlocks.then_dropTags

theorem Follows.then_memAtomic {r : Requester} {a aop width fmt v cmp : Nat} {clear : Bool} (h : Follows o s) :
    Follows o (memAtomic s r a aop width fmt v cmp clear).1 := by
  unfold memAtomic
  extract_lets sz p s1 old x x1 s2 x2 s21 n s3 x3
  have hs1 : Follows o s1 := h.then_sliceTouch.then_inc
  have hs2 : Follows o s2 := hs1.then_inc.then_inc
  have hs21 : Follows o s21 := hs1.then_inc
  have hs3 : Follows o s3 := hs21.then_slicePut
  split
  · exact h.then_afterFault.pair
  · split
    · exact hs1.then_inc.then_slicePut.pair
    · split
      · exact (Follows.ite hs2.then_slicePut hs2).pair
      · split
        · exact hs1.then_slicePut.pair
        · split
          · split
            · exact hs3.same.pair
            · exact hs21.then_slicePut.pair
          · exact (Follows.ite hs21 hs21.then_slicePut).pair

/-! Machine/Net. -/

theorem Follows.then_setConn {c : Nat} {x : ConnSt} (h : Follows o s) : Follows o (s.setConn c x) :=
  h.of_eq rfl rfl rfl rfl

theorem Follows.then_modConn {c : Nat} {f : ConnSt → ConnSt} (h : Follows o s) : Follows o (s.modConn c f) :=
  h.of_eq rfl rfl rfl rfl

theorem Follows.then_setLink {l : Nat} {x : LinkSt} (h : Follows o s) : Follows o (s.setLink l x) :=
  h.of_eq rfl rfl rfl rfl

theorem Follows.then_modLink {l : Nat} {f : LinkSt → LinkSt} (h : Follows o s) : Follows o (s.modLink l f) :=
  h.of_eq rfl rfl rfl rfl

theorem Follows.then_setConnState {c st : Nat} (h : Follows o s) : Follows o (setConnState s c st) :=
  h.same.then_wrF.then_wr

theorem Follows.then_cutBegun {l vc : Nat} {whole : List Byte} (h : Follows o s) : Follows o (cutBegun s l vc whole) :=
  Follows.ite h.then_inc.then_modConn h.then_inc

theorem Follows.then_linkSendCtl {l : Nat} (h : Follows o s) : OptFollows o (linkSendCtl s l) := by
  unfold linkSendCtl
  extract_lets k
  split
  · exact OptFollows.none
  · split
    · exact OptFollows.none
    · exact h.then_setLink.some

theorem Follows.then_linkSendOne {l vc : Nat} (h : Follows o s) : OptFollows o (linkSendOne s l vc) := by
  unfold linkSendOne
  extract_lets k
  split
  · exact OptFollows.none
  · split
    · exact OptFollows.none
    · split
      · exact OptFollows.none
      · exact (Follows.ite h.then_setLink.then_cutBegun h.then_setLink).some

theorem Follows.then_linkPump {n l : Nat} (h : Follows o s) : Follows o (linkPump n l s) := by
  induction n generalizing s with
  | zero => exact h
  | succ n ih =>
    unfold linkPump
    split
    · next e => exact ih (h.then_linkSendCtl _ e)
    · split
      · next e => exact ih (h.then_linkSendOne _ e)
      · split
        · next e => exact ih (h.then_linkSendOne _ e)
        · split
          · next e => exact ih (h.then_linkSendOne _ e)
          · exact h

theorem Follows.then_linkReplay {l : Nat} (h : Follows o s) : Follows o (linkReplay s l) :=
  Follows.ite (h.then_modLink.foldl (fun _ _ hu => hu.then_modLink)) h

theorem Follows.then_linkGo {l : Nat} (h : Follows o s) : Follows o (linkGo l s) :=
  h.then_linkReplay.then_linkPump

theorem Follows.then_linkAnswer {old : LinkSt} {l : Nat} (h : Follows o s) : Follows o (linkAnswer old l s) :=
  Follows.ite h.then_linkGo.then_modLink h.then_linkGo

theorem Follows.then_linkSend {l : Nat} {p : Packet} (h : Follows o s) : Follows o (linkSend s l p) :=
  h.then_modLink.then_linkGo

theorem Follows.then_connPump {n c : Nat} (h : Follows o s) : Follows o (connPump n c s) := by
  induction n generalizing s with
  | zero => exact h
  | succ n ih =>
    unfold connPump
    extract_lets k p seq
    split
    · exact h
    · exact Follows.ite h (ih h.then_setConn.then_wr.then_wr.then_wr.then_linkSend)

theorem Follows.then_connSend {c : Nat} {r : OutReq} (h : Follows o s) : Follows o (connSend s c r) :=
  h.then_modConn.then_connPump

theorem Follows.then_repump {full : Bool} (h : Follows o s) : Follows o (repump full s) :=
  Follows.ite (h.foldl (fun _ _ hu => Follows.ite hu hu.then_connPump)) h

theorem Follows.then_countAccess {dir ga n : Nat} (h : Follows o s) : Follows o (countAccess s dir ga n) :=
  Follows.ite h.same h

end

end Sys2Proof.Machine
end

section
/-! SUPPORT. What every step keeps (O5): threads, the DMA, matrix and vector engines, and the scheduler. -/

namespace Sys2Proof.Machine

open Sys2Proof

section
variable {o s : State}

/-! Machine/Threads. -/

theorem Follows.then_modBlock {t id : Nat} {f : Block → Block} (h : Follows o s) : Follows o (s.modBlock t id f) :=
  h.of_eq rfl rfl rfl rfl

theorem Follows.then_modGroup {gr : GRef} {f : Group → Group} (h : Follows o s) : Follows o (s.modGroup gr f) :=
  h.of_eq rfl rfl rfl rfl

theorem Follows.then_runThread {gr : GRef} {x : TInstr} {f : TC → State → State}
    (h : Follows o s) (hf : ∀ x u, Follows o u → Follows o (f x u)) : OutFollows o (runThread gr x s f) := by
  unfold runThread
  refine Follows.then_onUnit ?_
  split
  · exact h
  · exact hf _ _ h

theorem Follows.then_tileNum {t : Nat} {e : NEv} (h : Follows o s) : Follows o (tileNum s t e) :=
  Follows.ite h h.then_inc.then_inc.then_inc

theorem Follows.then_tileNumFault {t code : Nat} (h : Follows o s) : Follows o (tileNumFault s t code) :=
  Follows.ite h.then_inc h

theorem Follows.then_cmdFault {uid : Nat} {f : CmdFault} (h : Follows o s) : Follows o (cmdFault s uid f) :=
  h.of_eq rfl rfl rfl rfl

theorem Follows.then_endBlock {t id : Nat} (h : Follows o s) : Follows o (endBlock s t id) :=
  h.then_modTile.then_inc

theorem Follows.then_latchGF {t code grp lanes pc block addr queue : Nat} (h : Follows o s) :
    Follows o (latchGF s t code grp lanes pc block addr queue) :=
  Follows.ite h.then_inc h.then_wr.then_wr.then_wr.then_wr.then_wr64.then_wr

theorem Follows.then_blockFault {t : Nat} {b : Block} {code grp lanes pc addr : Nat} (h : Follows o s) :
    Follows o (blockFault s t b code grp lanes pc addr) :=
  h.then_tileNumFault.then_latchGF.then_raise.then_cmdFault.then_endBlock

theorem Follows.then_threadFault {tc : TC} {code addr : Nat} (h : Follows o s) : Follows o (threadFault tc s code addr) :=
  h.then_blockFault

theorem Follows.then_guarded {tc : TC} {checks : List (Bool × Nat)} {k : State} (h : Follows o s) (hk : Follows o k) :
    Follows o (guarded tc s checks k) := by
  unfold guarded
  split
  · exact h.then_threadFault
  · exact hk

theorem Follows.then_commit {tc : TC} {w : List (Nat × Nat)} {e : NEv} (h : Follows o s) : Follows o (commit tc s w e) :=
  h.then_tileNum.then_modGroup

theorem Follows.then_commitPred {tc : TC} {p v : Nat} (h : Follows o s) : Follows o (commitPred tc s p v) :=
  h.of_eq rfl rfl rfl rfl

theorem Follows.then_laneOp {gr : GRef} {x : TInstr} {checks : TC → List (Bool × Nat)} {f : TC → Nat → List (Nat × Nat) × NEv}
    (h : Follows o s) : OutFollows o (laneOp gr x s checks f) :=
  h.then_runThread (fun _ _ hu => hu.then_guarded hu.then_commit)

theorem Follows.then_wakeWord {t w v : Nat} (h : Follows o s) : Follows o (wakeWord s t w v) :=
  h.of_eq rfl rfl rfl rfl

theorem Follows.then_setSig {t w v : Nat} (h : Follows o s) : Follows o (setSig s t w v) :=
  h.then_twr.then_wakeWord

theorem Follows.then_untagSig {t w : Nat} (h : Follows o s) : Follows o (untagSig s t w) :=
  h.of_eq rfl rfl rfl rfl

theorem Follows.then_tagSig {t w scope : Nat} {r : RelTag} (h : Follows o s) : Follows o (tagSig s t w scope r) :=
  Follows.ite h.then_modTile h.then_untagSig

theorem Follows.then_sigAcquire {t w scope : Nat} {me : RelTag} (h : Follows o s) : Follows o (sigAcquire s t w scope me) := by
  unfold sigAcquire
  split
  · split
    · exact Follows.ite h h.then_countMismatch
    · exact h
  · exact h

theorem Follows.then_sigRelease {t w op v scope : Nat} {r : RelTag} (h : Follows o s) :
    Follows o (sigRelease s t w op v scope r) :=
  h.then_setSig.then_tagSig.foldl fun _ _ hu => Follows.ite hu.then_sigAcquire hu

theorem Follows.then_sigPlain {t w op v : Nat} (h : Follows o s) : Follows o (sigPlain s t w op v) :=
  h.then_setSig.then_untagSig

/-! Machine/Engines. -/

theorem Follows.then_issueOp {gr : GRef} {x : TInstr} {n : Nat} {len : Tile → Nat} {push : Desc → Tile → Tile} (h : Follows o s) :
    OutFollows o (issueOp gr x s n len push) := by
  unfold issueOp
  refine h.then_runThread (fun tc1 t ht => ?_)
  refine ht.then_guarded ?_
  split
  · exact ht.then_modGroup
  · extract_lets off
    split
    · exact ht.then_threadFault
    · exact Follows.ite ht.then_threadFault (Follows.ite ht ht.then_modTile.then_modGroup)

theorem Follows.then_execIssueMx {gr : GRef} {x : TInstr} (h : Follows o s) : OutFollows o (execIssueMx gr x s) :=
  h.then_issueOp

theorem Follows.then_execIssueVx {gr : GRef} {x : TInstr} (h : Follows o s) : OutFollows o (execIssueVx gr x s) :=
  h.then_issueOp

theorem Follows.then_execIssueDma {gr : GRef} {x : TInstr} (h : Follows o s) : OutFollows o (execIssueDma gr x s) :=
  h.then_issueOp

theorem Follows.then_engSignal {t word v marks ord : Nat} (h : Follows o s) : Follows o (engSignal s t word v marks ord) :=
  h.then_sigRelease

theorem Follows.then_latchEng {t info lost : Nat} {words : List (Nat × Nat)} (h : Follows o s) :
    Follows o (latchEng s t info lost words) :=
  Follows.ite h.then_inc (h.foldl (fun _ _ hu => hu.then_wr))

theorem Follows.then_stallReport {t kind bar word block queue : Nat} {waiting missing : List Nat} (h : Follows o s) :
    Follows o (stallReport s t kind bar word block queue waiting missing) := by
  unfold stallReport
  exact (Follows.ite h (h.then_wr.then_wr.then_wr.foldl (fun _ _ hu => hu.then_wr.then_wr))).then_raise

/-! Machine/Dma. -/

theorem Follows.then_modDma {t : Nat} {f : DmaEng → DmaEng} (h : Follows o s) : Follows o (s.modDma t f) :=
  h.of_eq rfl rfl rfl rfl

theorem Follows.then_dmaFault {t : Nat} {d : Desc} {code field addr kind prog : Nat} (h : Follows o s) :
    Follows o (dmaFault s t d code field addr kind prog) := by
  unfold dmaFault
  extract_lets info s1 s2 s3
  have hs3 : Follows o s3 := h.then_latchEng.then_raise.then_cmdFault
  split
  · exact Follows.ite hs3.then_modDma.then_raise hs3
  · exact hs3

theorem Follows.then_dmaFailHead {t : Nat} {d : Desc} {code field addr kind : Nat} (h : Follows o s) :
    Follows o (dmaFailHead s t d code field addr kind) :=
  h.then_dmaFault.then_modDma

theorem Follows.then_dmaAbortWaiting {t : Nat} (h : Follows o s) : Follows o (dmaAbortWaiting s t) := by
  unfold dmaAbortWaiting
  split
  · exact Follows.ite h.then_dmaFailHead h
  · exact h

theorem Follows.then_dmaFailJob {t : Nat} {j : DmaJob} {code field addr kind : Nat} (h : Follows o s) :
    Follows o (dmaFailJob s t j code field addr kind) :=
  h.then_dmaFault.then_modDma.then_dmaAbortWaiting

theorem Follows.then_dmaWriteLost {t : Nat} {d : Desc} {code : Nat} (h : Follows o s) : Follows o (dmaWriteLost s t d code) := by
  unfold dmaWriteLost
  split
  · exact h.then_modDma
  · exact h

theorem Follows.then_dmaMoved {t : Nat} {j : DmaJob} (h : Follows o s) : Follows o (dmaMoved s t j) := by
  unfold dmaMoved
  extract_lets p j' s1 done word
  have hs1 : Follows o s1 := h.then_modDma
  split
  · exact hs1
  · exact hs1.then_wr.then_wrF

theorem Follows.then_execDmaDescCheck {t : Nat} (h : Follows o s) : OutFollows o (execDmaDescCheck t s) := by
  unfold execDmaDescCheck
  refine Follows.then_onUnit ?_
  split
  · exact h
  · split
    · exact h
    · split
      · exact h.then_dmaFailHead.then_dmaAbortWaiting
      · exact Follows.ite h.then_dmaFailHead h.then_modDma

theorem Follows.then_execDmaWaitSatisfied {t : Nat} (h : Follows o s) : OutFollows o (execDmaWaitSatisfied t s) := by
  unfold execDmaWaitSatisfied
  refine Follows.then_onUnit ?_
  split
  · exact h
  · exact Follows.ite h.then_sigAcquire.then_modDma h

theorem Follows.then_execDmaSlotStart {t : Nat} (h : Follows o s) : OutFollows o (execDmaSlotStart t s) := by
  unfold execDmaSlotStart
  refine Follows.then_onUnit ?_
  split
  · exact h
  · split
    · exact h
    · exact Follows.ite h.then_modDma.then_wr.then_wr.then_wr.then_dmaMoved h

theorem Follows.then_dmaWrite {t a sp : Nat} {data : List Byte} (h : Follows o s) : Follows o (dmaWrite s t a sp data).1 := by
  unfold dmaWrite
  split
  · exact h.then_twr.pair
  · exact h.then_memWrite

theorem Follows.then_dmaKeepOld {t : Nat} {j : DmaJob} (h : Follows o s) : Follows o (dmaKeepOld s t j).1 := by
  unfold dmaKeepOld
  extract_lets n src b
  split
  · exact h.pair
  · exact h.same.pair

theorem Follows.then_dmaStep {t : Nat} {j : DmaJob} {performed : Bool} (h : Follows o s) : Follows o (dmaStep s t j performed) :=
  Follows.ite h.then_dmaMoved h.then_modDma

theorem Follows.then_dmaTouch {t : Nat} {src : List Piece} (h : Follows o s) : Follows o (dmaTouch s t src) :=
  h.foldl fun _ _ hu => Follows.ite hu.then_sliceTouch hu

theorem Follows.then_dmaMove {t : Nat} {j0 : DmaJob} {w : Piece} {src : List Piece} (h : Follows o s) :
    Follows o (dmaMove s t j0 w src) := by
  unfold dmaMove
  extract_lets d far near kept s1 j j1
  have hkept : Follows o kept.1 := h.then_dmaKeepOld
  have hs1 : Follows o s1 := hkept.then_dmaTouch
  split
  · exact (Follows.ite h.then_ueEvent h).then_dmaFailJob
  · extract_lets data r
    split
    · exact hs1.then_dmaStep.then_countAccess.then_connSend
    · split
      · exact hs1.then_dmaStep.foldl fun _ _ hu => hu.then_countAccess.then_connSend
      · split
        · next e => exact (hs1.then_dmaWrite.of_fst e).then_dmaWriteLost.then_dmaFailJob
        · next e => exact (hs1.then_dmaWrite.of_fst e).then_dmaMoved

theorem Follows.then_execDmaAccessPerformed {t n : Nat} (h : Follows o s) : OutFollows o (execDmaAccessPerformed t n s) := by
  unfold execDmaAccessPerformed
  refine Follows.then_onUnit ?_
  split
  · exact h
  · split
    · exact h
    · split
      · exact (Follows.ite h.then_ueEvent h).then_dmaFailJob
      · extract_lets far
        split
        · exact h
        · split
          · exact h
          · split
            · exact h.then_dmaFailJob
            · split
              · exact (Follows.ite h.then_dmaWriteLost h).then_dmaFailJob
              · exact Follows.ite h h.then_dmaMove

theorem Follows.then_dmaPartDone {t uid at_ : Nat} {body : List Byte} (h : Follows o s) :
    Follows o (dmaPartDone s t uid at_ body) := by
  unfold dmaPartDone
  split
  · exact h
  · split
    · exact h.then_modDma
    · split
      · exact h
      · extract_lets p1 rest
        split
        · exact h.then_dmaStep
        · split
          · exact h.then_dmaStep
          · split
            · exact h.then_modDma.then_dmaFailJob
            · split
              · next e => exact (h.then_dmaWrite.of_fst e).then_modDma.then_dmaWriteLost.then_dmaFailJob
              · next e => exact (h.then_dmaWrite.of_fst e).then_dmaMoved

theorem Follows.then_dmaPartFail {t uid at_ code addr : Nat} (h : Follows o s) :
    Follows o (dmaPartFail s t uid at_ code addr) := by
  unfold dmaPartFail
  split
  · exact h
  · extract_lets parts s1 s2
    have hs1 : Follows o s1 := h.then_modDma
    have hs2 : Follows o s2 := Follows.ite hs1.then_dmaWriteLost hs1
    exact Follows.ite hs2 hs2.then_dmaFailJob

theorem Follows.then_dmaSendRd {t : Nat} {j : DmaJob} (h : Follows o s) : Follows o (dmaSendRd s t j) :=
  h.then_engSignal

theorem Follows.then_execDmaSourceRead {t n : Nat} (h : Follows o s) : OutFollows o (execDmaSourceRead t n s) := by
  unfold execDmaSourceRead
  refine Follows.then_onUnit ?_
  split
  · exact h
  · exact Follows.ite h.then_dmaSendRd.then_modDma h

theorem Follows.then_execDmaSignalSend {t n : Nat} (h : Follows o s) : OutFollows o (execDmaSignalSend t n s) := by
  unfold execDmaSignalSend
  refine Follows.then_onUnit ?_
  split
  · exact h
  · extract_lets d ord tgt
    split
    · exact h
    · split
      · exact h.then_dmaFailJob
      · split
        · exact Follows.ite h.then_sigRelease.then_modDma h.then_dmaFailJob
        · split
          · exact h.then_dmaFailJob
          · exact Follows.ite h.then_dmaFailJob (Follows.ite h h.then_modDma.then_connSend)

theorem Follows.then_execDmaCompletion {t : Nat} (h : Follows o s) : OutFollows o (execDmaCompletion t s) := by
  unfold execDmaCompletion
  refine Follows.then_onUnit ?_
  split
  · exact h
  · split
    · split
      · extract_lets p s1 s2 s3
        have hs3 : Follows o s3 := (((Follows.ite h h.then_dmaSendRd).then_engSignal).then_inc).then_modDma
        split
        · exact hs3.then_wrF
        · exact hs3
      · exact h
    · split
      · extract_lets p s1 s2 s3
        have hs3 : Follows o s3 := (((Follows.ite h h.then_dmaSendRd).then_engSignal).then_inc).then_modDma
        split
        · exact hs3.then_wrF
        · exact hs3
      · exact h

theorem Follows.then_execDmaStallReport {t n : Nat} {cause : BitVec 3} (h : Follows o s) :
    OutFollows o (execDmaStallReport t n cause s) := by
  unfold execDmaStallReport
  refine Follows.then_onUnit ?_
  split
  · exact h
  · exact Follows.ite h.then_modDma.then_wrF.then_inc.then_raise h

theorem Follows.then_winGo {t : Nat} {wr inc : Bool} {run : State → State × Nat × Option Nat}
    (h : Follows o s) (hrun : ∀ u, Follows o u → Follows o (run u).1) : OutFollows o (winGo t wr inc s run) := by
  unfold winGo
  refine Follows.then_onUnit ?_
  extract_lets p s0 r
  have hs0 : Follows o s0 := h.then_wrF
  have hr : Follows o r.1 := by
    unfold r
    split
    · exact hs0.pair
    · split
      · exact hs0.pair
      · split
        · exact hs0.pair
        · exact hrun _ hs0
  split
  · exact h
  · split
    · exact hs0.then_wrF.then_raise
    · exact hr.then_modTile.then_wrF

theorem Follows.then_execWinRead {t : Nat} {inc : Bool} (h : Follows o s) : OutFollows o (execWinRead t inc s) := by
  unfold execWinRead
  refine h.then_winGo (fun t1 ht1 => ?_)
  extract_lets off
  split <;> exact ht1.pair

theorem Follows.then_execWinWrite {t : Nat} {inc : Bool} (h : Follows o s) : OutFollows o (execWinWrite t inc s) :=
  h.then_winGo (fun _ hu => (Follows.ite hu.then_sigPlain hu.then_twr).pair)

theorem Follows.then_execWinOpEnd {t : Nat} (h : Follows o s) : OutFollows o (execWinOpEnd t s) := by
  unfold execWinOpEnd
  refine Follows.then_onUnit ?_
  split
  · exact h
  · extract_lets p s1 s2
    have hs1 : Follows o s1 := h.then_modTile.then_wrF
    have hs2 : Follows o s2 := by
      unfold s2
      split
      · exact hs1.then_wr64
      · exact hs1
    exact Follows.ite hs2.then_raise (Follows.ite hs2.then_wr hs2)

/-! Machine/Matrix. -/

theorem Follows.then_modMx {t : Nat} {f : MxEng → MxEng} (h : Follows o s) : Follows o (s.modMx t f) :=
  h.of_eq rfl rfl rfl rfl

theorem Follows.then_mxFault {t : Nat} {d : Desc} {code field addr done : Nat} (h : Follows o s) :
    Follows o (mxFault s t d code field addr done) := by
  unfold mxFault
  extract_lets s1 s2 s3
  have hs3 : Follows o s3 := h.then_tileNumFault.then_latchEng.then_raise.then_cmdFault
  split
  · exact Follows.ite hs3.then_modMx.then_raise hs3
  · exact hs3

theorem Follows.then_mxFailHead {t : Nat} {d : Desc} {code field addr : Nat} (h : Follows o s) :
    Follows o (mxFailHead s t d code field addr) :=
  h.then_mxFault.then_modMx

theorem Follows.then_mxStart {t : Nat} {d : Desc} (h : Follows o s) : Follows o (mxStart s t d) :=
  h.of_eq rfl rfl rfl rfl

theorem Follows.then_mxAbortWaiting {t : Nat} (h : Follows o s) : Follows o (mxAbortWaiting s t) := by
  unfold mxAbortWaiting
  split
  · exact Follows.ite h.then_mxFailHead h
  · exact h

theorem Follows.then_execMxDescCheck {t : Nat} (h : Follows o s) : OutFollows o (execMxDescCheck t s) := by
  unfold execMxDescCheck
  refine Follows.then_onUnit ?_
  split
  · exact h
  · split
    · exact h
    · split
      · exact h.then_mxFailHead
      · exact Follows.ite h.then_mxFailHead (Follows.ite h.then_modMx h.then_mxStart)

theorem Follows.then_execMxWaitSatisfied {t : Nat} (h : Follows o s) : OutFollows o (execMxWaitSatisfied t s) := by
  unfold execMxWaitSatisfied
  refine Follows.then_onUnit ?_
  split
  · exact h
  · exact Follows.ite h.then_sigAcquire.then_mxStart h

theorem Follows.then_mxFailJob {t : Nat} {j : MxJob} {addr : Nat} (h : Follows o s) : Follows o (mxFailJob s t j addr) :=
  h.then_mxFault.then_modMx.then_mxAbortWaiting

theorem Follows.then_execMxBlockStart {t arr : Nat} (h : Follows o s) : OutFollows o (execMxBlockStart t arr s) := by
  unfold execMxBlockStart
  refine Follows.then_onUnit ?_
  extract_lets e
  split
  · split
    · exact h
    · split
      · exact h.then_mxFailJob
      · exact h.then_modMx
  · exact h

theorem Follows.then_execMxBlockDone {t arr : Nat} (h : Follows o s) : OutFollows o (execMxBlockDone t arr s) := by
  unfold execMxBlockDone
  refine Follows.then_onUnit ?_
  split
  · exact h
  · split
    · exact (((h.foldl (fun _ _ hu => hu.then_twr)).then_tileNum).then_inc).then_modMx
    · exact h

theorem Follows.then_mxSendRd {t : Nat} {j : MxJob} (h : Follows o s) : Follows o (mxSendRd s t j) :=
  h.then_engSignal

theorem Follows.then_execMxOperandsRead {t : Nat} (h : Follows o s) : OutFollows o (execMxOperandsRead t s) := by
  unfold execMxOperandsRead
  refine Follows.then_onUnit ?_
  split
  · exact h
  · exact Follows.ite h.then_mxSendRd.then_modMx h

theorem Follows.then_execMxCompletion {t : Nat} (h : Follows o s) : OutFollows o (execMxCompletion t s) := by
  unfold execMxCompletion
  refine Follows.then_onUnit ?_
  split
  · exact h
  · split
    · exact (((Follows.ite h h.then_mxSendRd).then_engSignal).then_inc).then_modMx
    · exact h

theorem Follows.then_mmaOp {gr : GRef} {x : TInstr} {aReg bReg : Bool} (h : Follows o s) :
    OutFollows o (mmaOp gr x s aReg bReg) := by
  unfold mmaOp
  refine h.then_runThread (fun tc1 t ht => ?_)
  extract_lets t1 oc as bs ct els
  split
  · exact ht.then_threadFault
  · exact (ht.foldl (fun _ _ hu => hu.then_twr)).then_commit

theorem Follows.then_execAccClr {gr : GRef} {x : TInstr} (h : Follows o s) : OutFollows o (execAccClr gr x s) := by
  unfold execAccClr
  refine h.then_runThread (fun tc1 t ht => ?_)
  extract_lets oc
  split
  · exact ht.then_threadFault
  · exact ht.then_twr.then_commit

/-! Machine/Vector. -/

theorem Follows.then_storeItem {t : Nat} {x : VxItem} (h : Follows o s) : Follows o (storeItem t s x) :=
  h.then_twr

theorem Follows.then_vxStored {t : Nat} {d : Desc} {els : List (FV × NEv × Bool)} (h : Follows o s) :
    Follows o (vxStored s t d els) :=
  Follows.ite (h.foldl (fun _ _ hu => hu.then_storeItem)) h

theorem Follows.then_modVx {t : Nat} {f : VxEng → VxEng} (h : Follows o s) : Follows o (s.modVx t f) :=
  h.of_eq rfl rfl rfl rfl

theorem Follows.then_vxFault {t : Nat} {d : Desc} {code field addr done : Nat} (h : Follows o s) :
    Follows o (vxFault s t d code field addr done) := by
  unfold vxFault
  extract_lets s1 s2 s3
  have hs3 : Follows o s3 := h.then_tileNumFault.then_latchEng.then_raise.then_cmdFault
  split
  · exact Follows.ite hs3.then_modVx.then_raise hs3
  · exact hs3

theorem Follows.then_vxFailHead {t : Nat} {d : Desc} {code field addr : Nat} (h : Follows o s) :
    Follows o (vxFailHead s t d code field addr) :=
  h.then_vxFault.then_modVx

theorem Follows.then_vxStart {t : Nat} {d : Desc} (h : Follows o s) : Follows o (vxStart s t d) :=
  h.of_eq rfl rfl rfl rfl

theorem Follows.then_vxAbortWaiting {t : Nat} (h : Follows o s) : Follows o (vxAbortWaiting s t) := by
  unfold vxAbortWaiting
  split
  · exact Follows.ite h.then_vxFailHead h
  · exact h

theorem Follows.then_execVxDescCheck {t : Nat} (h : Follows o s) : OutFollows o (execVxDescCheck t s) := by
  unfold execVxDescCheck
  refine Follows.then_onUnit ?_
  split
  · exact h
  · split
    · exact h
    · split
      · exact h.then_vxFailHead
      · exact Follows.ite h.then_vxFailHead (Follows.ite h.then_modVx h.then_vxStart)

theorem Follows.then_execVxWaitSatisfied {t : Nat} (h : Follows o s) : OutFollows o (execVxWaitSatisfied t s) := by
  unfold execVxWaitSatisfied
  refine Follows.then_onUnit ?_
  split
  · exact h
  · exact Follows.ite h.then_sigAcquire.then_vxStart h

theorem Follows.then_writeHist {t : Nat} {d : Desc} {h1 : List Nat} (h : Follows o s) : Follows o (writeHist s t d h1) :=
  h.then_twr

theorem Follows.then_vxSnap {t : Nat} {j : VxJob} (h : Follows o s) : Follows o (vxSnap s t j).1 := by
  unfold vxSnap
  split
  · exact h.pair
  · exact h.same.pair

theorem Follows.then_vxAbortJobs {t : Nat} (h : Follows o s) : Follows o (vxAbortJobs s t) :=
  h.foldl fun _ _ hu => hu.then_vxFault.then_modVx

theorem Follows.then_countEvents {t : Nat} {l : List VxEvent} (h : Follows o s) : Follows o (countEvents s t l) :=
  h.then_tileNum

theorem Follows.then_execVxVector {t : Nat} (h : Follows o s) : OutFollows o (execVxVector t s) := by
  unfold execVxVector
  refine Follows.then_onUnit ?_
  split
  · exact h
  · split
    · exact h
    · split
      · exact h.then_vxFault.then_modVx.then_vxAbortJobs.then_vxAbortWaiting
      · extract_lets r j e last now n m s1 s3 s4 s2
        have hr : Follows o r.1 := h.then_vxSnap
        have hs1 : Follows o s1 := (hr.then_countEvents.foldl (fun _ _ hu => hu.then_storeItem)).then_inc
        have hs4 : Follows o s4 := (Follows.ite hs1.then_writeHist hs1).then_inc
        exact (Follows.ite hs4.then_raise hs4).then_modVx

theorem Follows.then_vxSendRd {t : Nat} {j : VxJob} (h : Follows o s) : Follows o (vxSendRd s t j) :=
  h.then_engSignal

theorem Follows.then_execVxInputsRead {t : Nat} (h : Follows o s) : OutFollows o (execVxInputsRead t s) := by
  unfold execVxInputsRead
  refine Follows.then_onUnit ?_
  split
  · exact h
  · exact Follows.ite h.then_vxSendRd.then_modVx h

theorem Follows.then_execVxCompletion {t : Nat} (h : Follows o s) : OutFollows o (execVxCompletion t s) := by
  unfold execVxCompletion
  refine Follows.then_onUnit ?_
  split
  · exact h
  · split
    · exact (((Follows.ite h h.then_vxSendRd).then_engSignal).then_inc).then_modVx
    · exact h

/-! Machine/Sched. -/

theorem Follows.then_launchFault {uid t : Nat} (h : Follows o s) : Follows o (launchFault s uid t) :=
  h.of_eq rfl rfl rfl rfl

theorem Follows.then_execLaunchDelivery {t : Nat} (h : Follows o s) : OutFollows o (execLaunchDelivery t s) := by
  unfold execLaunchDelivery
  refine Follows.then_onUnit ?_
  split
  · exact h
  · split
    · exact h
    · extract_lets s1
      have hs1 : Follows o s1 := h.then_modTile
      split
      · exact hs1.then_cmdFault
      · exact Follows.ite hs1.then_raise.then_launchFault hs1.then_modTile

theorem Follows.then_startBlock {t : Nat} {l : Launch} (h : Follows o s) : Follows o (startBlock s t l) := by
  unfold startBlock
  split
  · exact h
  · extract_lets grp T b l' rest ls s1
    have hs1 : Follows o s1 := h.then_setTile
    split
    · exact hs1.same
    · exact hs1

theorem Follows.then_execBlockStart {t : Nat} {pass : Bool} (h : Follows o s) : OutFollows o (execBlockStart t pass s) := by
  unfold execBlockStart
  refine Follows.then_onUnit ?_
  extract_lets T able
  split
  · exact h
  · split
    · exact h
    · clear_value able
      split
      · exact h
      · extract_lets late heavy bound
        split
        · exact h
        · split
          · exact h.then_startBlock
          · split
            · split
              · exact h.then_modTile.then_startBlock
              · exact h
            · exact h

theorem Follows.then_wdBarrier {t : Nat} {b : Block} {n : Nat} (h : Follows o s) : Follows o (wdBarrier s t b n) := by
  unfold wdBarrier
  split
  · exact h
  · split
    · exact h
    · split
      · exact h
      · extract_lets waiting missing s1 s2 who g pc
        have hs2 : Follows o s2 := h.then_modBlock.then_stallReport
        exact Follows.ite hs2.then_blockFault hs2

theorem Follows.then_wdWait {t : Nat} {b : Block} {grp k : Nat} (h : Follows o s) : Follows o (wdWait s t b grp k) := by
  unfold wdWait
  split
  · exact h
  · split
    · exact h
    · split
      · exact h
      · extract_lets word s1 s2
        have hs2 : Follows o s2 := h.then_modBlock.then_stallReport
        exact Follows.ite hs2.then_blockFault hs2

theorem Follows.then_execWatchdogExpiry {t : Nat} {w : WdTarget} (h : Follows o s) : OutFollows o (execWatchdogExpiry t w s) := by
  unfold execWatchdogExpiry
  refine Follows.then_onUnit ?_
  split
  · exact h
  · split
    · split
      · exact h.then_wdBarrier
      · exact h
    · split
      · exact h.then_wdWait
      · exact h
    · split
      · exact Follows.ite h.then_stallReport.then_mxFailHead.then_mxAbortWaiting h
      · exact h
    · split
      · exact Follows.ite h.then_stallReport.then_vxFailHead.then_vxAbortWaiting h
      · exact h
    · split
      · exact Follows.ite h.then_stallReport.then_dmaFailHead.then_dmaAbortWaiting h
      · exact h

end

end Sys2Proof.Machine
end

section
/-! SUPPORT. What every step keeps (O5): translation, rails, binding, regions, queues and the memory accesses of threads. -/

namespace Sys2Proof.Machine

open Sys2Proof

section
variable {o s : State}

/-! Machine/Xlat. -/

theorem Follows.then_walkTouch {a n : Nat} (h : Follows o s) : Follows o (walkTouch s a n) := by
  unfold walkTouch
  split
  · exact h.then_sliceTouch
  · exact h

theorem Follows.then_eitherOf {α : Type} [DecidableEq α] {old : Option α} {new : Except WRes α} (h : Follows o s) :
    Follows o (eitherOf s old new).1 := by
  unfold eitherOf
  split
  · exact h.pair
  · split
    · exact h.pair
    · exact h.then_freeNext.pair
  · exact h.then_freeNext.pair

theorem Follows.then_ptePut {e : PteEnt} (h : Follows o s) : Follows o (ptePut s e) :=
  h.of_eq rfl rfl rfl rfl

theorem Follows.then_walkFrom {ctx gen va n n1 : Nat} (h : Follows o s) : Follows o (walkFrom ctx gen va n n1 s).1 := by
  induction n generalizing s n1 with
  | zero => exact h
  | succ n ih =>
    unfold walkFrom
    extract_lets a old s1
    have hs1 : Follows o s1 := Follows.ite h h.then_walkTouch
    split
    · next e => exact (hs1.then_eitherOf.of_fst e).pair
    · next t _ e =>
        have ht : Follows o t := hs1.then_eitherOf.of_fst e
        split
        · exact ht.pair
        · split
          · exact ih ht.then_ptePut
          · exact ht.pair

theorem Follows.then_ctxUse {ctx gen : Nat} (h : Follows o s) : Follows o (ctxUse s ctx gen).1 := by
  unfold ctxUse
  split
  · exact h.pair
  · split
    · next e => exact (h.then_walkTouch.then_eitherOf.of_fst e).pair
    · next t _ e =>
        have ht : Follows o t := h.then_walkTouch.then_eitherOf.of_fst e
        split
        · exact ht.pair
        · exact ht.same.pair

theorem Follows.then_tlbPut {e : TlbEnt} (h : Follows o s) : Follows o (tlbPut s e) :=
  h.of_eq rfl rfl rfl rfl

theorem Follows.then_xlatPage {ctx gen root levels va : Nat} {kinds : List Nat} (h : Follows o s) :
    Follows o (xlatPage s ctx gen root levels va kinds).1 := by
  unfold xlatPage
  split
  next t w e =>
    have ht : Follows o t := h.then_walkFrom.of_fst e
    extract_lets fresh
    have hfresh : ∀ u, Follows o u → Follows o (fresh u).1 := by
      intro u hu
      unfold fresh
      split
      · split
        · exact hu.pair
        · exact hu.then_tlbPut.pair
      · exact hu.pair
      · exact hu.then_ueEvent.pair
      · exact hu.pair
    split
    · exact hfresh t ht
    · extract_lets old
      split
      · split
        · exact ht.pair
        · split
          · exact ht.then_freeNext.pair
          · exact hfresh _ ht.then_freeNext
      · split
        · exact ht.then_freeNext.pair
        · exact hfresh _ ht.then_freeNext

theorem Follows.then_xlatPages {ctx gen root levels : Nat} {kinds : List Nat} {hi n n1 : Nat} (h : Follows o s) :
    Follows o (xlatPages ctx gen root levels kinds hi n n1 s).1 := by
  induction n generalizing s n1 with
  | zero => exact h
  | succ n ih =>
    unfold xlatPages
    split
    · exact h.pair
    · split
      · next e => exact (h.then_xlatPage.of_fst e).pair
      · next t _ e =>
          have ht : Follows o t := h.then_xlatPage.of_fst e
          split
          · next e1 => exact ((ih ht).of_fst e1).pair
          · exact ih ht

theorem Follows.then_xlatRange {ctx gen va len perm : Nat} (h : Follows o s) : Follows o (xlatRange s ctx gen va len perm).1 := by
  unfold xlatRange
  split
  · exact h.pair
  · split
    · next e => exact (h.then_ctxUse.of_fst e).pair
    · next e => exact (h.then_ctxUse.of_fst e).then_ueEvent.pair
    · next e => exact (h.then_ctxUse.of_fst e).pair
    · next t _ _ e =>
        have ht : Follows o t := h.then_ctxUse.of_fst e
        split
        · exact ht.pair
        · split
          · exact ht.pair
          · split
            · next e1 => exact (ht.then_xlatPages.of_fst e1).pair
            · exact ht.then_xlatPages

theorem Follows.then_poolUsed (h : Follows o s) : Follows o (poolUsed s) :=
  h.then_wr

theorem Follows.then_xlatFault {cause ctx va q : Nat} (h : Follows o s) : Follows o (xlatFault s cause ctx va q) := by
  unfold xlatFault
  exact (Follows.ite h.then_inc h.then_wr.then_wr64.then_wr).then_raise

theorem Follows.then_hreqWrite {rest : List Byte} (h : Follows o s) : Follows o (hreqWrite s rest) :=
  h.then_memWrite.then_tagRelease.then_wr

theorem Follows.then_setReqs {l : List MissReq} (h : Follows o s) : Follows o (setReqs s l) :=
  h.same.then_wr

theorem Follows.then_postMiss {ctx page kind cause level q pos : Nat} (h : Follows o s) :
    Follows o (postMiss s ctx page kind cause level q pos).1 := by
  unfold postMiss
  split
  · exact h.then_setReqs.pair
  · split
    · exact h.pair
    · exact h.then_hreqWrite.then_setReqs.then_raise.pair

/-! Machine/Rails. -/

theorem Follows.then_modPower {f : PowerSt → PowerSt} (h : Follows o s) : Follows o (s.modPower f) :=
  h.of_eq rfl rfl rfl rfl

theorem Follows.then_railRegs {d : Nat} (h : Follows o s) : Follows o (railRegs s d) :=
  h.then_wrF.then_wr

theorem Follows.then_setRail {d mv : Nat} (h : Follows o s) : Follows o (setRail s d mv) :=
  h.then_modPower.then_railRegs

theorem Follows.then_railOff {d : Nat} (h : Follows o s) : Follows o (railOff s d) :=
  h.then_modPower.then_wrF.then_setRail

theorem Follows.then_railStart {d : Nat} (h : Follows o s) : Follows o (railStart s d) :=
  h.then_modPower.then_wrF.then_setRail

theorem Follows.then_railsOff (h : Follows o s) : Follows o (railsOff s) :=
  h.foldl fun _ _ hu => hu.then_railOff

/-! Machine/Bind. -/

theorem Follows.then_modBind {f : BindSt → BindSt} (h : Follows o s) : Follows o (s.modBind f) :=
  h.of_eq rfl rfl rfl rfl

theorem Follows.then_setJobState {j v : Nat} (h : Follows o s) : Follows o (setJobState s j v) :=
  h.then_wrF

theorem Follows.then_slotSettle {j : Nat} (h : Follows o s) : Follows o (slotSettle s j) :=
  Follows.ite h.then_setJobState (Follows.ite h.then_setJobState h)

theorem Follows.then_genSettle {gen : Nat} (h : Follows o s) : Follows o (genSettle s gen) := by
  unfold genSettle
  split
  · exact h.then_slotSettle
  · exact h

theorem Follows.then_setQState {q st : Nat} (h : Follows o s) : Follows o (setQState s q st) :=
  (Follows.ite h.same.then_wr (Follows.ite h.then_inc h)).then_wrF

theorem Follows.then_scrubTile {t : Nat} (h : Follows o s) : Follows o (scrubTile s t) :=
  h.of_canonical rfl fun c => scrubTile_canonical c t

theorem Follows.then_resetWork {p : Page} (h : Follows o s) : Follows o (resetWork s p) := by
  unfold resetWork
  split
  · exact h.then_scrubTile.then_setTile
  · exact ((h.then_setQState.foldl (fun _ _ hu => hu.then_wr)).same).then_poolUsed
  · exact h.then_setConn.then_setConnState.then_wr.then_wr
  · exact h

theorem Follows.then_rewatch {q : Nat} (h : Follows o s) : Follows o (rewatch s q) :=
  h.of_eq rfl rfl rfl rfl

theorem Follows.then_setBstate {p : Page} {v : Nat} (h : Follows o s) : Follows o (setBstate s p v) :=
  Follows.ite h.then_wrF.then_rewatch h.then_wrF

theorem Follows.then_bindRefuse {p : Page} {code : Nat} (h : Follows o s) : Follows o (bindRefuse s p code) :=
  h.then_wrF.then_raise

theorem Follows.then_bindApply {p : Page} {epoch gen : Nat} (h : Follows o s) : Follows o (bindApply s p epoch gen) :=
  h.then_wr.then_wr.then_wrF.then_setBstate.then_wrF.then_resetWork.then_modBind.then_raise

theorem Follows.then_bindTry {p : Page} {epoch gen : Nat} (h : Follows o s) : Follows o (bindTry s p epoch gen) := by
  unfold bindTry
  split
  · exact h.then_bindRefuse
  · split
    · exact h.then_bindRefuse
    · split
      · exact h.then_bindRefuse
      · split
        · exact h.then_bindRefuse
        · split
          · exact (Follows.ite h.then_modBind.then_wrF h.then_modBind.then_wrF.then_setBstate).then_genSettle
          · exact Follows.ite h.then_bindRefuse h.then_bindApply

theorem Follows.then_holdApply {p : Page} (h : Follows o s) : Follows o (holdApply s p) := by
  unfold holdApply
  split
  · exact h
  · extract_lets s1 s2
    have hs1 : Follows o s1 := h.then_modBind.then_wrF
    exact ((Follows.ite hs1.then_setBstate hs1).then_bindTry).then_genSettle

theorem Follows.then_unbind {p : Page} (h : Follows o s) : Follows o (unbind s p) := by
  unfold unbind
  extract_lets s1 s0 s11 s2
  have hs1 : Follows o s1 := h.then_setQState
  have hs0 : Follows o s0 := by
    unfold s0
    split
    · exact hs1.then_setReqs
    · exact h.then_setConnState
    · exact h
  exact hs0.then_wr.then_wrF.then_setBstate.then_modBind.then_raise.then_holdApply

theorem Follows.then_quarantine {p : Page} (h : Follows o s) : Follows o (quarantine s p) := by
  unfold quarantine
  split
  · exact h.then_setBstate.then_wrF.then_resetWork.then_raise
  · split
    · split
      · exact h.then_scrubTile.then_setTile
      · exact h.then_resetWork.then_setQState
      · exact h.then_resetWork.then_setConnState
      · exact h
    · exact Follows.ite h.then_scrubTile.then_setTile h

theorem Follows.then_ungate {t : Nat} (h : Follows o s) : Follows o (ungate s t) := by
  unfold ungate
  extract_lets p s1
  have hs1 : Follows o s1 := by
    unfold s1
    split
    · exact Follows.ite h.then_setBstate h
    · exact h
  exact hs1.then_quarantine.then_holdApply

theorem Follows.then_railsOn (h : Follows o s) : Follows o (railsOn s) :=
  h.foldl fun _ _ hu => Follows.ite hu hu.then_railStart

theorem Follows.then_leaveP1 (h : Follows o s) : Follows o (leaveP1 s) := by
  unfold leaveP1
  split
  · exact h.then_wrF.then_railsOn.foldl fun _ _ hu => Follows.ite hu.then_ungate hu
  · exact h

/-! Machine/Regions. -/

theorem Follows.then_scrubStart {base len : Nat} {region : Option Nat} (h : Follows o s) :
    Follows o (scrubStart s base len region) :=
  h.then_opStart.then_modMem

theorem Follows.then_zeroRange {base len : Nat} (h : Follows o s) : Follows o (zeroRange s base len) := by
  refine h.of_canonical ?_ fun c => zeroRange_canonical c base len
  unfold zeroRange
  split <;> rfl

theorem Follows.then_scrubNext (h : Follows o s) : Follows o (scrubNext s) := by
  unfold scrubNext
  split
  · exact h.then_modMem.then_scrubStart
  · exact h

theorem Follows.then_scrubRequest {r : Nat} (h : Follows o s) : Follows o (scrubRequest s r) :=
  h.then_modMem.then_scrubNext

theorem Follows.then_setRgn {r st : Nat} (h : Follows o s) : Follows o (setRgn s r st) :=
  h.then_wrF

theorem Follows.then_setRgnResult {r v : Nat} (h : Follows o s) : Follows o (setRgnResult s r v) :=
  h.then_wrF

theorem Follows.then_rgnRefuse {r result : Nat} (h : Follows o s) : Follows o (rgnRefuse s r result) :=
  h.then_setRgnResult.then_raise

theorem Follows.then_rgnTry {r epoch : Nat} (h : Follows o s) : Follows o (rgnTry s r epoch) := by
  unfold rgnTry
  extract_lets gen st others s0 s1
  have hs0 : Follows o s0 := h.then_modBind
  have hs1 : Follows o s1 := by
    unfold s1
    split
    · exact hs0.then_rgnRefuse
    · split
      · exact hs0.then_rgnRefuse
      · split
        · exact hs0.then_rgnRefuse
        · split
          · exact hs0.then_rgnRefuse
          · split
            · exact hs0.then_modBind.then_setRgnResult
            · exact hs0.then_wr.then_setRgn.then_scrubRequest
  exact hs1.then_genSettle

theorem Follows.then_rgnDrained (h : Follows o s) : Follows o (rgnDrained s) :=
  h.then_modBind.foldl fun _ _ hu => hu.then_scrubRequest

theorem Follows.then_rgnRelease {r : Nat} (h : Follows o s) : Follows o (rgnRelease s r) :=
  h.then_setRgn.then_modBind.then_rgnDrained

/-! Machine/Queue. -/

theorem Follows.then_setQ {q : Nat} {x : QSt} (h : Follows o s) : Follows o (s.setQ q x) :=
  h.of_eq rfl rfl rfl rfl

theorem Follows.then_latchQF {q code pos detail : Nat} (h : Follows o s) : Follows o (latchQF s q code pos detail) :=
  Follows.ite h.then_inc h.then_wr.then_wr.then_wr

theorem Follows.then_faultStop {q : Nat} (h : Follows o s) : Follows o (faultStop s q) :=
  Follows.ite h.then_setQState.then_raise h

theorem Follows.then_ringQueue {q d : Nat} (h : Follows o s) : Follows o (ringQueue s q d) := by
  unfold ringQueue
  extract_lets p b h1 s1
  have hs1 : Follows o s1 := h.then_latchQF.then_raise
  split
  · exact h.then_inc
  · split
    · exact h
    · split
      · exact h
      · exact Follows.ite h.then_inc (Follows.ite (Follows.ite hs1.then_setQState hs1) h.then_wr)

theorem Follows.then_execDoorbellBlockWrite {q : Nat} (h : Follows o s) : OutFollows o (execDoorbellBlockWrite q s) := by
  unfold execDoorbellBlockWrite
  refine Follows.then_onUnit ?_
  split
  · exact h
  · split
    · exact h
    · extract_lets x s1
      split
      · next e => exact h.same.then_memRead.of_fst e
      · next e => exact (h.same.then_memRead.of_fst e).then_ringQueue

theorem Follows.then_armQueue {q : Nat} (h : Follows o s) : Follows o (armQueue s q) := by
  unfold armQueue
  extract_lets p pos x s0 s1
  have hs1 : Follows o s1 := h.then_setQ.then_wr
  exact Follows.ite ((Follows.ite hs1.then_wr hs1).then_setQState) h.then_raise

theorem Follows.then_execQueueArm {q : Nat} (h : Follows o s) : OutFollows o (execQueueArm q s) :=
  (Follows.ite (Follows.ite h.then_armQueue.then_leaveP1 h.then_armQueue) h).then_onUnit

theorem Follows.then_execCqHeadWrite {q : Nat} {v : BitVec 32} (h : Follows o s) : OutFollows o (execCqHeadWrite q v s) :=
  (Follows.ite h (Follows.ite h.then_illegalWrite h.then_wr)).then_onUnit

theorem Follows.then_readSlots {q pos n n1 : Nat} (h : Follows o s) : Follows o (readSlots q pos n n1 s).1 := by
  induction n generalizing s n1 with
  | zero => exact h
  | succ n ih =>
    unfold readSlots
    extract_lets a
    split
    · next e => exact (h.then_memRead.of_fst e).pair
    · next t _ e =>
        have ht : Follows o t := h.then_memRead.of_fst e
        split <;> next e1 => exact ((ih ht.then_acquireCheck).of_fst e1).pair

theorem Follows.then_readCmd {q : Nat} (h : Follows o s) : Follows o (readCmd s q).1 := by
  unfold readCmd
  extract_lets pos
  split
  · next e => exact (h.then_readSlots.of_fst e).pair
  · next t _ e =>
      have ht : Follows o t := h.then_readSlots.of_fst e
      split <;> next e1 => exact (ht.then_readSlots.of_fst e1).pair

theorem Follows.then_xlatAll {ctx gen : Nat} {l : List (Nat × Nat × Nat × Nat)} (h : Follows o s) :
    Follows o (xlatAll ctx gen l s).1 := by
  induction l generalizing s with
  | nil => exact h
  | cons x rest ih =>
    unfold xlatAll
    split
    · next t _ e =>
        have ht : Follows o t := h.then_xlatRange.of_fst e
        split
        · next e1 => exact ((ih ht).of_fst e1).pair
        · exact ih ht
    · next e => exact (h.then_xlatRange.of_fst e).pair

theorem Follows.then_takeCmd {q : Nat} {c : Cmd} {nslots : Nat} (h : Follows o s) : Follows o (takeCmd s q c nslots) :=
  h.then_wr.same

theorem Follows.then_failCheck {q : Nat} {b : List Byte} {known : Bool} {code off : Nat} (h : Follows o s) :
    Follows o (failCheck s q b known code off) :=
  h.then_takeCmd.then_faultStop

theorem Follows.then_holdCmd {q : Nat} {b : List Byte} {w : HWait} (h : Follows o s) : Follows o (holdCmd s q b w) :=
  h.of_eq rfl rfl rfl rfl

theorem Follows.then_acceptCmd {q : Nat} {b : List Byte} {l : List (Nat × XRange)} {pool : Option (Nat × Nat)} (h : Follows o s) :
    Follows o (acceptCmd s q b l pool) :=
  h.then_takeCmd.then_inc.then_poolUsed

theorem Follows.then_acceptRuns {q : Nat} {b : List Byte} {l : List (Nat × XRange)} {pool : Nat × Nat} (h : Follows o s) :
    Follows o (acceptRuns s q b l pool) := by
  unfold acceptRuns
  extract_lets runs a
  split
  · exact h.then_holdCmd
  · split
    · next e => exact (h.then_memWrite.of_fst e).then_failCheck
    · next e => exact (h.then_memWrite.of_fst e).then_acceptCmd

theorem Follows.then_holdPool {q : Nat} {b : List Byte} (h : Follows o s) : Follows o (holdPool s q b) := by
  unfold holdPool
  split
  · exact h.then_holdCmd
  · exact h.same.then_setQ.then_holdCmd

theorem Follows.then_placeCmd {q : Nat} {b : List Byte} {l : List (Nat × XRange)} (h : Follows o s) :
    Follows o (placeCmd s q b l) := by
  unfold placeCmd
  extract_lets n units
  split
  · exact h.then_acceptCmd
  · split
    · exact h.then_xlatFault.then_failCheck
    · split
      · exact Follows.ite h.then_holdPool h.then_acceptRuns
      · exact h.then_holdPool

theorem Follows.then_tryAccept {q : Nat} {b : List Byte} {since : Option Nat} (h : Follows o s) :
    Follows o (tryAccept s q b since) := by
  unfold tryAccept
  extract_lets p v ep ctx
  split
  · exact h.then_failCheck
  · split
    · exact h.then_failCheck
    · split
      · split
        · exact h.then_inc.then_failCheck
        · split
          · exact h.then_failCheck
          · split
            · next t _ e =>
                have ht : Follows o t := h.then_xlatAll.of_fst e
                exact Follows.ite ht.then_placeCmd ht.then_failCheck
            · next t _ _ _ _ e =>
                have ht : Follows o t := h.then_xlatAll.of_fst e
                exact (Follows.ite ht.then_xlatFault ht).then_failCheck
            · next e => exact (h.then_xlatAll.of_fst e).then_postMiss.then_holdCmd
            · next e => exact (h.then_xlatAll.of_fst e).then_holdCmd
            · next e => exact (h.then_xlatAll.of_fst e).then_holdCmd
      · split
        · exact h.then_inc.then_failCheck
        · split
          · exact h.then_failCheck
          · split
            · next t _ e =>
                have ht : Follows o t := h.then_xlatAll.of_fst e
                exact Follows.ite ht.then_placeCmd ht.then_failCheck
            · next t _ _ _ _ e =>
                have ht : Follows o t := h.then_xlatAll.of_fst e
                exact (Follows.ite ht.then_xlatFault ht).then_failCheck
            · next e => exact (h.then_xlatAll.of_fst e).then_postMiss.then_holdCmd
            · next e => exact (h.then_xlatAll.of_fst e).then_holdCmd
            · next e => exact (h.then_xlatAll.of_fst e).then_holdCmd

theorem Follows.then_tornCmd {q : Nat} {b : List Byte} (h : Follows o s) : Follows o (tornCmd s q b) :=
  h.then_setQState.then_inc.then_raise.same

theorem Follows.then_execCommandFetch {q : Nat} (h : Follows o s) : OutFollows o (execCommandFetch q s) := by
  unfold execCommandFetch
  refine Follows.then_onUnit ?_
  split
  · exact h
  · extract_lets s1
    have hs1 : Follows o s1 := h.same
    split
    · exact hs1.then_tryAccept
    · exact hs1.then_tryAccept
    · split
      · next t _ e =>
          have ht : Follows o t := hs1.then_readCmd.of_fst e
          exact Follows.ite ht.then_tryAccept ht.then_setQ
      · next e => exact (hs1.then_readCmd.of_fst e).then_setQ

theorem Follows.then_execCommandRefetch {q : Nat} (h : Follows o s) : OutFollows o (execCommandRefetch q s) := by
  unfold execCommandRefetch
  refine Follows.then_onUnit ?_
  split
  · exact h
  · split
    · exact h
    · extract_lets s0 r good x
      have hr : Follows o r.1 := h.then_inc.then_readCmd
      exact Follows.ite hr.then_setQ.then_tryAccept (Follows.ite hr.then_tornCmd hr.then_setQ)

theorem Follows.then_modCmd {uid : Nat} {f : Cmd → Cmd} (h : Follows o s) : Follows o (s.modCmd uid f) :=
  h.of_eq rfl rfl rfl rfl

theorem Follows.then_runCmd {q : Nat} {pos : BitVec 32} {op : Nat} {f : Cmd → State → State}
    (h : Follows o s) (hf : ∀ x u, Follows o u → Follows o (f x u)) : OutFollows o (runCmd q pos op s f) := by
  unfold runCmd
  refine Follows.then_onUnit ?_
  split
  · exact h
  · split
    · exact h
    · exact Follows.ite (Follows.ite h (hf _ _ h)) (Follows.ite (hf _ _ h.then_modCmd) h)

theorem Follows.then_cmdEnd2 {uid : Nat} (h : Follows o s) : Follows o (cmdEnd2 s uid) :=
  h.of_eq rfl rfl rfl rfl

theorem Follows.then_cmdFail {c : Cmd} {code detail : Nat} (h : Follows o s) : Follows o (cmdFail s c code detail) :=
  h.of_eq rfl rfl rfl rfl

theorem Follows.then_execCompletionRecord {q : Nat} {pos : BitVec 32} (h : Follows o s) :
    OutFollows o (execCompletionRecord q pos s) := by
  unfold execCompletionRecord
  refine Follows.then_onUnit ?_
  split
  · exact h
  · extract_lets p seq a f rec32 w lost s0 x s1 s2 s3 code detail s4
    have hw : Follows o w.1 := h.then_memWrite
    have hs0 : Follows o s0 := Follows.ite hw hw.then_tagRelease
    have hs1 : Follows o s1 := hs0.then_setQ.then_wr
    have hs3 : Follows o s3 := hs1.same.then_poolUsed.then_rgnDrained
    have hs4 : Follows o s4 := Follows.ite hs3 hs3.then_latchQF.then_raise.then_faultStop
    exact Follows.ite h (Follows.ite hs4.then_raise hs4)

/-! Machine/Operands. -/

theorem Follows.then_intOp2 {gr : GRef} {x : TInstr} {f : Nat → Nat → Nat} (h : Follows o s) : OutFollows o (intOp2 gr x s f) :=
  h.then_laneOp

theorem Follows.then_intOp1 {gr : GRef} {x : TInstr} {f : Nat → Nat} (h : Follows o s) : OutFollows o (intOp1 gr x s f) :=
  h.then_laneOp

theorem Follows.then_fpOp1 {gr : GRef} {x : TInstr} {f : Nat → Nat → Rnd → Nat → Nat × NEv} (h : Follows o s) :
    OutFollows o (fpOp1 gr x s f) :=
  h.then_laneOp

theorem Follows.then_fpOp2 {gr : GRef} {x : TInstr} {f : Bool → FV → FV → FV} (h : Follows o s) : OutFollows o (fpOp2 gr x s f) :=
  h.then_laneOp

theorem Follows.then_predOp {gr : GRef} {x : TInstr} {checks : TC → List (Bool × Nat)} {f : TC → Nat → Bool} (h : Follows o s) :
    OutFollows o (predOp gr x s checks f) :=
  h.then_runThread (fun _ _ hu => hu.then_guarded hu.then_commitPred)

theorem Follows.then_cmpOp {gr : GRef} {x : TInstr} {f : FV → FV → Bool} (h : Follows o s) : OutFollows o (cmpOp gr x s f) :=
  h.then_predOp

/-! Machine/ThreadMem. -/

theorem Follows.then_tileStores {t : Nat} {l : List (Nat × List Byte)} (h : Follows o s) : Follows o (tileStores s t l) :=
  h.foldl fun _ _ hu => hu.then_twr

theorem Follows.then_tileAccess {tc : TC} {w : Nat} {st : Bool} {offs : List (Nat × Nat)} {fault : Nat → Option Nat}
    (h : Follows o s) : Follows o (tileAccess tc s w st offs fault) := by
  unfold tileAccess
  split
  · exact h.then_threadFault
  · exact Follows.ite h.then_tileStores.then_commit h.then_commit

theorem Follows.then_xAccess {tc : TC} {st : Bool} (h : Follows o s) : Follows o (xAccess tc s st) :=
  h.then_guarded (Follows.ite h.then_threadFault h.then_tileAccess)

theorem Follows.then_execLdArg {gr : GRef} {x : TInstr} (h : Follows o s) : OutFollows o (execLdArg gr x s) := by
  unfold execLdArg
  refine h.then_runThread (fun tc1 t ht => ?_)
  refine ht.then_guarded ?_
  extract_lets n
  split
  · exact ht.then_threadFault
  · exact ht.then_commit

theorem Follows.then_gFault {tc : TC} {f : Nat × Nat} (h : Follows o s) : Follows o (gFault tc s f) :=
  h.then_afterFault.then_threadFault

theorem Follows.then_outstanding {tc : TC} {writes : List (Nat × Nat)} {fault : Option (Nat × Nat)} {remote ndst : Nat} {store acq : Bool}
    (h : Follows o s) : Follows o (outstanding tc s writes fault remote ndst store acq) :=
  h.of_eq rfl rfl rfl rfl

theorem Follows.then_sendParts {l : List (Nat × Nat × Nat × OutReq)} (h : Follows o s) : Follows o (sendParts s l) :=
  h.foldl fun _ _ hu => hu.then_countAccess.then_connSend

theorem Follows.then_globalLoad {tc : TC} {acq : Bool} (h : Follows o s) : Follows o (globalLoad tc s acq) := by
  unfold globalLoad
  extract_lets w n isAcq
  split
  · exact h.then_modGroup
  · split
    · exact h.then_gFault
    · extract_lets loc bad s1 writes s2 s3 parts
      have hs1 : Follows o s1 := h.foldl fun _ _ hu => hu.then_afterFault
      have hs2 : Follows o s2 := hs1.foldl fun _ _ hu => hu.then_sliceTouch
      split
      · exact h
      · clear_value bad
        split
        · exact hs1.then_outstanding
        · exact ((Follows.ite (hs2.foldl (fun _ _ hu => hu.then_acquireCheck)) hs2).then_outstanding).then_sendParts

theorem Follows.then_globalStore {tc : TC} {rel : Bool} (h : Follows o s) : Follows o (globalStore tc s rel) := by
  unfold globalStore
  extract_lets w n ord isRel
  split
  · exact h.then_gFault
  · extract_lets loc s1 s2 rem rr parts
    have hs1 : Follows o s1 := h.foldl fun _ _ hu => hu.then_memWrite
    have hs2 : Follows o s2 := Follows.ite (hs1.foldl (fun _ _ hu => hu.then_tagRelease)) hs1
    split
    · exact h
    · split
      · exact h.then_gFault
      · clear_value parts
        split
        · exact hs2.then_commit
        · exact hs2.then_outstanding.then_sendParts

theorem Follows.then_execStG {gr : GRef} {x : TInstr} (h : Follows o s) : OutFollows o (execStG gr x s) :=
  h.then_runThread (fun _ _ hu => hu.then_guarded hu.then_globalStore)

theorem Follows.then_execStGRel {gr : GRef} {x : TInstr} (h : Follows o s) : OutFollows o (execStGRel gr x s) :=
  h.then_runThread (fun _ _ hu => hu.then_guarded hu.then_globalStore)

theorem Follows.then_accessReturn {gr : GRef} {b : Block} {a : Access} (h : Follows o s) : Follows o (accessReturn s gr b a) := by
  unfold accessReturn
  split
  · exact h.then_blockFault
  · exact h.then_modGroup

theorem Follows.then_execGlobalAccessResponse {gr : GRef} {id : Nat} (h : Follows o s) :
    OutFollows o (execGlobalAccessResponse gr id s) := by
  unfold execGlobalAccessResponse
  refine Follows.then_onUnit ?_
  split
  · exact h
  · split
    · exact h
    · split
      · exact h
      · exact Follows.ite h.then_accessReturn h

theorem Follows.then_atomLocals {tc : TC} {aop width : Nat} {clear : Bool} {l l1 : List (Nat × Nat)} (h : Follows o s) :
    Follows o (atomLocals tc aop width clear l s l1).1 := by
  induction l generalizing s l1 with
  | nil => exact h
  | cons x rest ih =>
    unfold atomLocals
    extract_lets n v me sz s0 x1
    have hx1 : Follows o x1.1 := (Follows.ite h.then_acquireCheck h).then_memAtomic
    split
    · exact ih (Follows.ite hx1.then_tagRelease hx1)
    · exact ih hx1

theorem Follows.then_atomOp {tc : TC} {aop width : Nat} {clear : Bool} (h : Follows o s) :
    Follows o (atomOp tc s aop width clear) := by
  unfold atomOp
  extract_lets fmt n sz
  split
  · exact h.then_gFault
  · extract_lets loc rem r parts
    have hr : Follows o r.1 := h.then_atomLocals
    split
    · exact h
    · split
      · exact h.then_gFault
      · split
        · exact h.then_threadFault
        · clear_value parts
          split
          · exact hr.then_commit
          · exact hr.then_outstanding.then_sendParts

theorem Follows.then_atomInstr {gr : GRef} {x : TInstr} {aop : Nat} {cas128 clear : Bool} (h : Follows o s) :
    OutFollows o (atomInstr gr x s aop cas128 clear) :=
  h.then_runThread (fun _ _ hu => hu.then_guarded hu.then_atomOp)

end

end Sys2Proof.Machine
end

section
/-! SUPPORT. What every step keeps (O5): the commands of the queues, the fault handler and the memory slices. -/

namespace Sys2Proof.Machine

open Sys2Proof

section
variable {o s : State}

/-! Machine/Cmds. -/

theorem Follows.then_writePieces {c : Cmd} {conn ord part : Nat} {data : List Byte} {l : List CPiece} (h : Follows o s) :
    Follows o (writePieces c conn ord part data l s).1 := by
  induction l generalizing s with
  | nil => exact h
  | cons x rest ih =>
    unfold writePieces
    extract_lets b s1 w z
    have hw : Follows o w.1 := h.then_memWrite
    have hz : Follows o z.1 := ih hw
    split
    · exact ih h.then_modCmd.then_countAccess.then_connSend
    · exact hz.pair

theorem Follows.then_execLaunch {q : Nat} {pos : BitVec 32} (h : Follows o s) : OutFollows o (execLaunch q pos s) :=
  h.then_runCmd (fun _ _ hu => (hu.foldl (fun _ _ hu1 => hu1.then_modTile)).then_cmdEnd2)

theorem Follows.then_execDma {q : Nat} {pos : BitVec 32} (h : Follows o s) : OutFollows o (execDma q pos s) := by
  unfold execDma
  refine h.then_runCmd (fun c1 t ht => ?_)
  split
  · exact ht
  · split
    · exact ht
    · split
      · exact ht.then_cmdFault.then_cmdEnd2
      · exact Follows.ite ht ht.then_modTile.then_cmdEnd2

theorem Follows.then_inlineFlag {c : Cmd} {f : List CPiece} (h : Follows o s) : Follows o (inlineFlag s c f) := by
  unfold inlineFlag
  extract_lets b ord rel r s1
  have hr : Follows o r.1 := h.then_writePieces
  have hs1 : Follows o s1 := by
    unfold s1
    split
    · exact hr.then_cmdFault
    · exact hr
  exact Follows.ite (hs1.foldl (fun _ _ hu => Follows.ite hu hu.then_tagRelease)) hs1

theorem Follows.then_execWriteInline {q : Nat} {pos : BitVec 32} (h : Follows o s) : OutFollows o (execWriteInline q pos s) := by
  unfold execWriteInline
  refine h.then_runCmd (fun c1 t ht => ?_)
  extract_lets b conn
  split
  · exact ht.then_cmdFail
  · extract_lets all far r s1
    have hr : Follows o r.1 := ht.then_writePieces
    have hs1 : Follows o s1 := by
      unfold s1
      split
      · exact hr.then_cmdFault
      · exact hr
    split
    · split
      · exact ht.then_cmdFail
      · split
        · exact ht
        · split
          · exact hs1.then_cmdEnd2
          · exact Follows.ite hs1.then_modCmd hs1.then_inlineFlag.then_cmdEnd2
    · split
      · exact ht
      · split
        · exact ht.then_cmdEnd2
        · split
          · exact ht.then_cmdFail
          · exact Follows.ite ht.then_cmdFail (Follows.ite ht ht.then_inlineFlag.then_cmdEnd2)

theorem Follows.then_execSignal {q : Nat} {pos : BitVec 32} (h : Follows o s) : OutFollows o (execSignal q pos s) := by
  unfold execSignal
  refine h.then_runCmd (fun c1 t ht => ?_)
  extract_lets b t1 sop word ord conn s1
  split
  · exact ht.then_cmdFail
  · split
    · exact ht
    · split
      · exact ht.then_cmdFail
      · split
        · exact Follows.ite ht ht.then_modCmd.then_connSend
        · split
          · exact ht
          · split
            · exact Follows.ite ht.then_sigRelease.then_cmdEnd2 ht.then_cmdFault.then_cmdEnd2
            · exact ht.then_cmdEnd2

theorem Follows.then_atomicReturn {c : Cmd} {old : Nat} (h : Follows o s) : Follows o (atomicReturn s c old) := by
  unfold atomicReturn
  extract_lets b conn
  split
  · exact h.then_cmdFail
  · extract_lets far
    split
    · exact h.then_cmdFail
    · split
      · exact h
      · split
        · next e => exact (h.then_writePieces.of_fst e).then_cmdFail
        · next e => exact (h.then_writePieces.of_fst e).then_cmdEnd2

theorem Follows.then_atomicDone {c : Cmd} {old : Nat} (h : Follows o s) : Follows o (atomicDone s c old) :=
  Follows.ite h.then_cmdEnd2 (Follows.ite h.then_modCmd h.then_modCmd)

theorem Follows.then_execAtomic {q : Nat} {pos : BitVec 32} (h : Follows o s) : OutFollows o (execAtomic q pos s) := by
  unfold execAtomic
  refine h.then_runCmd (fun c1 t ht => ?_)
  extract_lets b aop width fmt ord conn
  split
  · exact Follows.ite ht.then_atomicReturn ht
  · split
    · exact ht
    · split
      · exact ht.then_cmdFail
      · exact ht.then_cmdFail
      · extract_lets far fars
        split
        · exact ht.then_cmdFail
        · split
          · exact ht.then_cmdFail
          · split
            · exact ht
            · split
              · exact ht.then_cmdFail
              · split
                · exact ht
                · split
                  · exact ht.then_cmdEnd2
                  · split
                    · exact ht.then_modCmd.then_countAccess.then_connSend
                    · extract_lets s0
                      split
                      · next e => exact (((Follows.ite ht.then_acquireCheck ht).then_memAtomic).of_fst e).then_cmdFail
                      · next t1 _ e =>
                          have ht1 : Follows o t1 := ((Follows.ite ht.then_acquireCheck ht).then_memAtomic).of_fst e
                          exact (Follows.ite ht1.then_tagRelease ht1).then_atomicDone

theorem Follows.then_cmdPartDone {uid part : Nat} {body : List Byte} (h : Follows o s) :
    Follows o (cmdPartDone s uid part body) := by
  unfold cmdPartDone
  split
  · exact h
  · exact Follows.ite h.then_modCmd.then_atomicDone h.then_modCmd

theorem Follows.then_cmdPartFail {uid part code : Nat} (h : Follows o s) : Follows o (cmdPartFail s uid part code) := by
  unfold cmdPartFail
  split
  · exact h
  · extract_lets s1
    have hs1 : Follows o s1 := h.then_modCmd
    split
    · exact hs1.then_cmdFault
    · exact hs1.then_cmdFault
    · exact hs1.then_cmdFault
    · exact hs1.then_cmdFail
    · exact hs1.then_cmdFault

theorem Follows.then_execWaitConditionMet {q : Nat} {pos : BitVec 32} (h : Follows o s) :
    OutFollows o (execWaitConditionMet q pos s) := by
  unfold execWaitConditionMet
  refine Follows.then_onUnit ?_
  split
  · exact h
  · split
    · exact h
    · split
      · exact h.then_cmdFail
      · split
        · exact h
        · split
          · exact h
          · split
            · next e => exact (h.then_memRead.of_fst e).then_cmdFail
            · next e => exact Follows.ite (h.then_memRead.of_fst e).then_acquireCheck.then_cmdEnd2 h

theorem Follows.then_execWaitTimeout {q : Nat} {pos : BitVec 32} (h : Follows o s) : OutFollows o (execWaitTimeout q pos s) := by
  unfold execWaitTimeout
  refine Follows.then_onUnit ?_
  split
  · exact h
  · exact Follows.ite h.then_cmdFail h

theorem Follows.then_execPennantExpiry {q k : Nat} (h : Follows o s) : OutFollows o (execPennantExpiry q k s) := by
  unfold execPennantExpiry
  refine Follows.then_onUnit ?_
  split
  · exact h
  · exact Follows.ite h.same h

/-! Machine/Handler. -/

theorem Follows.then_failHeld {q : Nat} {b : List Byte} {cause va off : Nat} (h : Follows o s) :
    Follows o (failHeld s q b cause va off) :=
  h.then_xlatFault.then_failCheck

theorem Follows.then_failReq {r : MissReq} {cause : Nat} (h : Follows o s) : Follows o (failReq s r cause) :=
  h.then_setReqs.foldl fun _ _ hu => hu.then_failHeld

theorem Follows.then_staleResp (h : Follows o s) : Follows o (staleResp s) :=
  h.then_raise

theorem Follows.then_execMissRespRetry {n : BitVec 32} (h : Follows o s) : OutFollows o (execMissRespRetry n s) := by
  unfold execMissRespRetry
  refine Follows.next ?_
  split
  · exact h
  · split
    · exact h.then_staleResp
    · exact h.then_setReqs.foldl fun _ _ hu => Follows.ite hu.then_tryAccept hu.then_holdCmd

theorem Follows.then_execMissRespRefuse {n : BitVec 32} (h : Follows o s) : OutFollows o (execMissRespRefuse n s) := by
  unfold execMissRespRefuse
  refine Follows.next ?_
  split
  · exact h
  · split
    · exact h.then_staleResp
    · exact h.then_failReq

theorem Follows.then_migTimeouts (h : Follows o s) : Follows o (migTimeouts s) :=
  h.foldl fun _ _ hu => hu.then_failHeld

theorem Follows.then_execMissTimeout {n : BitVec 32} (h : Follows o s) : OutFollows o (execMissTimeout n s) := by
  unfold execMissTimeout
  refine Follows.next ?_
  split
  · exact h
  · extract_lets s1
    have hs1 : Follows o s1 := by
      unfold s1
      split
      · exact h
      · exact Follows.ite h.then_failReq h
    exact Follows.ite hs1.then_migTimeouts hs1

theorem Follows.then_tlbDrop {mode ctx va pages : Nat} (h : Follows o s) : Follows o (tlbDrop s mode ctx va pages) :=
  h.of_eq rfl rfl rfl rfl

theorem Follows.then_invGo {mode : Nat} {w : Bool} (h : Follows o s) : Follows o (invGo s mode w) := by
  unfold invGo
  split
  · exact h
  · extract_lets s1 ctx op x
    have hs1 : Follows o s1 := h.then_wr
    split
    · exact hs1.then_wrF
    · exact hs1.same.then_wr

theorem Follows.then_execInvEnd (h : Follows o s) : OutFollows o (execInvEnd s) := by
  unfold execInvEnd
  refine Follows.next ?_
  split
  · exact h
  · exact Follows.ite h (Follows.ite h.then_tlbDrop.same.then_wrF.then_inc h.then_tlbDrop.same)

theorem Follows.then_hotRecord {r i v : Nat} (h : Follows o s) : Follows o (hotRecord s r i v) :=
  Follows.ite h.then_inc.then_raise h.then_hreqWrite.then_raise

theorem Follows.then_execAccessCountUpdate (h : Follows o s) : OutFollows o (execAccessCountUpdate s) := by
  unfold execAccessCountUpdate
  refine Follows.next ?_
  rcases hc : s.mem.counted with _ | ⟨⟨r, i, n⟩, rest⟩
  · exact h
  · refine Follows.ite h ?_
    have hs0 : Follows o { s with mem := { s.mem with counted := rest } } := h.same
    generalize { s with mem := { s.mem with counted := rest } } = s0 at hs0 ⊢
    cases hf : memFault s0 (s.base pXlat 0x128 + r * 2 ^ 20 + 4 * i) 4 with
    | some f =>
      simp only [hf]
      exact hs0.then_afterFault
    | none =>
      simp only [hf]
      refine Follows.ite h (Follows.ite (Follows.then_hotRecord ?_) ?_)
      · exact hs0.then_sliceTouch.then_inc.then_slicePut
      · exact hs0.then_sliceTouch.then_inc.then_slicePut

theorem Follows.then_migRefuse {cause : Nat} (h : Follows o s) : Follows o (migRefuse s cause) :=
  h.then_wr.then_raise

theorem Follows.then_execMigrationGo (h : Follows o s) : OutFollows o (execMigrationGo s) := by
  unfold execMigrationGo
  refine Follows.next ?_
  split
  · exact h
  · split
    · exact h.then_wr.then_raise
    · extract_lets ctx conn va dst pages m s1 x
      have hs1 : Follows o s1 := h.then_wr.then_opStart.then_tlbDrop
      split
      · exact h.then_migRefuse
      · split
        · split
          · exact h.then_migRefuse
          · exact h
        · split
          · exact h.then_migRefuse
          · exact hs1.same

theorem Follows.then_setMig {m : Option Mig} (h : Follows o s) : Follows o (setMig s m) :=
  h.of_eq rfl rfl rfl rfl

theorem Follows.then_migFail {cause : Nat} (h : Follows o s) : Follows o (migFail s cause) :=
  h.then_setMig.then_wr.then_opFail

theorem Follows.then_copyLocal {src dst n : Nat} (h : Follows o s) : Follows o (copyLocal s src dst n) :=
  h.of_canonical rfl fun c => copyLocal_canonical c src dst n

theorem Follows.then_migRewrite {a pte ga : Nat} (h : Follows o s) : Follows o (migRewrite s a pte ga).1 := by
  unfold migRewrite
  extract_lets n a0 one
  split
  · exact h.then_afterFault.pair
  · exact (h.foldl (fun _ _ hu => hu.then_memWrite)).pair

theorem Follows.then_migLeafDone {m : Mig} {a pte log : Nat} (h : Follows o s) : Follows o (migLeafDone s m a pte log) := by
  unfold migLeafDone
  split
  · next e => exact (h.then_migRewrite.of_fst e).then_migFail
  · next t e =>
      have ht : Follows o t := h.then_migRewrite.of_fst e
      extract_lets s2 pos
      have hs2 : Follows o s2 := ht.then_tlbDrop
      exact Follows.ite hs2.then_setMig.then_opDone hs2.then_setMig.then_opProgress

theorem Follows.then_migSend {m : Mig} {log src : Nat} {rd : Bool} (h : Follows o s) : Follows o (migSend s m log src rd) :=
  h.then_setMig.foldl fun _ _ hu => hu.then_connSend

theorem Follows.then_execMigrationLeaf (h : Follows o s) : OutFollows o (execMigrationLeaf s) := by
  unfold execMigrationLeaf
  refine Follows.next ?_
  split
  · exact h
  · extract_lets off dst
    split
    · exact h
    · split
      · split
        · exact h.then_migFail
        · exact h
      · extract_lets log n src
        split
        · exact h
        · split
          · exact h.then_migFail
          · split
            · exact h.then_migLeafDone
            · split
              · split
                · exact h
                · split
                  · exact h.then_afterFault.then_migFail
                  · exact Follows.ite h.then_migFail h.then_copyLocal.then_migLeafDone
              · split
                · exact h.then_migFail
                · split
                  · exact h
                  · split
                    · exact h.then_afterFault.then_migFail
                    · exact h.then_migSend
              · exact h.then_migFail
              · exact Follows.ite h.then_migFail (Follows.ite h h.then_migSend)
              · exact h.then_migFail
              · exact h.then_migFail

theorem Follows.then_migPartDone {uid off : Nat} {write : Bool} {body : List Byte} (h : Follows o s) :
    Follows o (migPartDone s uid off write body) := by
  unfold migPartDone
  split
  · exact h
  · split
    · exact h
    · split
      · exact h.then_setMig
      · split
        · split
          · next e => exact (h.then_memWrite.of_fst e).then_migFail
          · next e => exact (h.then_memWrite.of_fst e).then_setMig
        · exact h.then_connSend

theorem Follows.then_migPartFail {uid code : Nat} (h : Follows o s) : Follows o (migPartFail s uid code) := by
  unfold migPartFail
  split
  · exact h
  · exact Follows.ite h h.then_migFail

/-! Machine/Slices. -/

theorem Follows.then_rowFails {k : Nat} (h : Follows o s) : Follows o (rowFails s k) :=
  h.of_eq rfl rfl rfl rfl

theorem Follows.then_hbmRowCe {st k : Nat} (h : Follows o s) : Follows o (hbmRowCe s st k) :=
  Follows.ite h.then_modMem.then_rowFails h.then_modMem

theorem Follows.then_ceEvent {a : Nat} (h : Follows o s) : Follows o (ceEvent s a) :=
  h.then_inc.then_raise.then_hbmRowCe

theorem Follows.then_ueFound {a : Nat} (h : Follows o s) : Follows o (ueFound s a) :=
  h.same.then_inc.then_raise.then_rowFails

theorem Follows.then_dirtyBlock {b : Nat} (h : Follows o s) : Follows o (dirtyBlock s b) :=
  h.of_eq rfl rfl rfl rfl

theorem Follows.then_eccRead {a : Nat} {e : Ecc} (h : Follows o s) : Follows o (eccRead s a e) := by
  unfold eccRead
  split
  · exact h
  · exact h.then_ceEvent.then_dirtyBlock
  · exact h.then_inc.then_raise.then_dirtyBlock
  · exact h.then_ueFound
  · exact h.same

theorem Follows.then_eccBefore {a : Nat} {e : Ecc} (h : Follows o s) : Follows o (eccBefore s a e) :=
  Follows.ite h.then_eccRead h

theorem Follows.then_eccAfter {a : Nat} {e : Ecc} (h : Follows o s) : Follows o (eccAfter s a e) :=
  Follows.ite h h.then_eccRead

theorem Follows.then_hostStoreLost {a : Nat} {f : Nat × Nat} (h : Follows o s) : Follows o (hostStoreLost s a f) := by
  unfold hostStoreLost
  exact h.then_inc.then_raise

theorem Follows.then_sliceMerge {r : Requester} {a : Nat} {data : List Byte} (h : Follows o s) :
    Follows o (sliceMerge s r a data) := by
  unfold sliceMerge
  extract_lets w
  have hw : Follows o w.1 := h.then_memWrite
  split
  · exact hw.then_hostStoreLost
  · exact hw

theorem Follows.then_fillDrain {a n : Nat} (h : Follows o s) : Follows o (fillDrain s a n) :=
  h.then_modMem.foldl fun _ _ hu => hu.then_sliceMerge

theorem Follows.then_lineBack {n b : Nat} {drop : Bool} (h : Follows o s) : Follows o (lineBack s n b drop) :=
  (Follows.ite h.then_fillDrain.then_sliceMerge h.then_fillDrain).same

theorem Follows.then_hostDrain (h : Follows o s) : Follows o (hostDrain s) :=
  h.same.foldl fun _ _ hu => Follows.ite hu.same hu.then_lineBack

theorem Follows.then_lineDrop {b : Nat} (h : Follows o s) : Follows o (lineDrop s b) :=
  h.of_eq rfl rfl rfl rfl

theorem Follows.then_cboRange {n : Nat} {how : HartAcc} {a len : Nat} (h : Follows o s) : Follows o (cboRange s n how a len) :=
  (h.foldl (fun _ _ hu => Follows.ite hu.same (Follows.ite hu hu.then_lineDrop))).then_hostDrain

theorem Follows.then_hostFill {n a : Nat} {store : Bool} {l : List Nat} (h : Follows o s) :
    Follows o (hostFill n a store l s).1 := by
  induction l generalizing s with
  | nil => exact h
  | cons x rest ih =>
    unfold hostFill
    split
    · exact ih h
    · split
      · next e => exact (h.then_fillDrain.then_memRead.of_fst e).then_hartFault.pair
      · next e => exact ih (h.then_fillDrain.then_memRead.of_fst e).same

theorem Follows.then_hartWaits {n a : Nat} {store : Bool} (h : Follows o s) : Follows o (hartWaits s n a store) :=
  h.of_eq rfl rfl rfl rfl

theorem Follows.then_hostAccess {n a len : Nat} {store : Bool} {e : Ecc} {f : State → State}
    (h : Follows o s) (hf : ∀ u, Follows o u → Follows o (f u)) : Follows o (hostAccess s n a len store e f) := by
  unfold hostAccess
  extract_lets miss first s1
  have hs1 : Follows o s1 := h.then_modHart
  split
  · exact h.then_hartWaits
  · split
    · next t e1 =>
        have ht : Follows o t := ((Follows.ite hs1 hs1.then_eccBefore).then_hostFill).of_fst e1
        exact hf _ (Follows.ite ht ht.then_eccAfter)
    · next e1 => exact ((Follows.ite hs1 hs1.then_eccBefore).then_hostFill).of_fst e1

theorem Follows.then_hostStore {a : Nat} {data : List Byte} (h : Follows o s) : Follows o (hostStore s a data) :=
  h.of_eq rfl rfl rfl rfl

theorem Follows.then_hostRequest {n : Nat} {how : HartAcc} {a len : Nat} {store : Bool} {e : Ecc} {cached : State → State}
    (h : Follows o s) (hcached : ∀ u, Follows o u → Follows o (cached u)) :
    OptFollows o (hostRequest s n how a len store e cached) := by
  unfold hostRequest
  split
  · exact h.some
  · split
    · split
      · exact h.then_hartFault.some
      · exact OptFollows.none
    · exact (Follows.ite h.then_hartFault (h.then_hostAccess (fun _ hu => hcached _ hu))).some
    · exact h.then_hartFault.some
    · exact h.then_cboRange.some

theorem Follows.then_sliceRead {r : Requester} {addr len : Nat} {e : Ecc} (h : Follows o s) :
    Follows o (sliceRead s r addr len e) := by
  unfold sliceRead
  split
  · exact h
  · split
    · split
      · exact Follows.ite h.then_hartWaits h
      · exact h
    · extract_lets x t
      have hx : Follows o x.1 := h.then_fillDrain.then_eccBefore.then_memRead
      have ht : Follows o t := hx.then_eccAfter
      split
      · exact ht.then_modHart
      · exact ht.then_hartFault
      · exact ht

theorem Follows.then_execSliceRead {r : Requester} {addr len : Nat} {e : Ecc} (h : Follows o s) :
    OutFollows o (execSliceRead r addr len e s) := by
  unfold execSliceRead
  refine Follows.next ?_
  split
  · exact (h.then_hostDrain.then_hostRequest (fun _ hu => hu)).getD h.then_hostDrain.then_sliceRead
  · exact h.then_sliceRead

theorem Follows.then_sliceWrite {r : Requester} {addr : Nat} {data : List Byte} (h : Follows o s) :
    Follows o (sliceWrite s r addr data) :=
  Follows.ite h (Follows.ite h.then_modMem h.then_fillDrain.then_sliceMerge)

theorem Follows.then_execSliceWrite {r : Requester} {addr : Nat} {data : List Byte} (h : Follows o s) :
    OutFollows o (execSliceWrite r addr data s) := by
  unfold execSliceWrite
  refine Follows.next ?_
  split
  · extract_lets s0
    have hs0 : Follows o s0 := h.then_hostDrain
    split
    · exact hs0
    · exact (hs0.then_hostRequest (fun _ hu => hu.then_hostStore)).getD hs0.then_sliceWrite
  · exact h.then_sliceWrite

theorem Follows.then_sliceAtomic {r : Requester} {addr ord : Nat} {y : AtomArg} (h : Follows o s) :
    Follows o (sliceAtomic s r addr y ord) := by
  unfold sliceAtomic
  extract_lets aop n clear s0 s1
  have hs1 : Follows o s1 := Follows.ite h.then_fillDrain.then_acquireCheck h.then_fillDrain
  split
  · exact h
  · split
    · split
      · exact Follows.ite h.then_hartWaits h
      · exact h
    · split
      · next t _ _ e =>
        have ht : Follows o t := hs1.then_memAtomic.of_fst e
        extract_lets s3
        have hs3 : Follows o s3 := Follows.ite ht.then_tagRelease ht
        split
        · exact hs3.then_modHart
        · exact hs3
      · next e => exact (hs1.then_memAtomic.of_fst e).then_hartFault
      · next e => exact hs1.then_memAtomic.of_fst e

theorem Follows.then_hostAmo {addr : Nat} {y : AtomArg} (h : Follows o s) : Follows o (hostAmo s addr y) :=
  h.of_eq rfl rfl rfl rfl

theorem Follows.then_execSliceAtomic {r : Requester} {addr : Nat} {y : AtomArg} {ord : BitVec 8} (h : Follows o s) :
    OutFollows o (execSliceAtomic r addr y ord s) := by
  unfold execSliceAtomic
  refine Follows.next ?_
  extract_lets aop n o1 s0
  have hs0 : Follows o s0 := h.then_hostDrain
  split
  · exact h
  · split
    · split
      · exact hs0
      · exact (hs0.then_hostRequest (fun _ hu => Follows.ite hu.then_hostAmo hu)).getD hs0.then_sliceAtomic
    · exact h.then_sliceAtomic

theorem Follows.then_execSectorFill {blk : Nat} {e : Ecc} (h : Follows o s) : OutFollows o (execSectorFill blk e s) :=
  (Follows.ite h (Follows.ite h h.then_modMem.then_eccRead.then_fillDrain)).next

theorem Follows.then_orwEnd {d : OrwRound} {cause sat : Nat} (h : Follows o s) : Follows o (orwEnd s d cause sat) := by
  unfold orwEnd
  extract_lets done s1 s2 p s3
  have hs3 : Follows o s3 := h.then_slicePut.then_slicePut.then_tagRelease.then_inc
  exact Follows.ite hs3 ((Follows.ite hs3 hs3.then_wr).then_raise)

theorem Follows.then_orwRun {d : OrwRound} (h : Follows o s) : Follows o (orwRun s d) := by
  unfold orwRun
  extract_lets h1 op fmt cvt size n elems base stride res seed s1 l w
  split
  · exact h.then_orwEnd
  · split
    · exact h.then_orwEnd
    · split
      · exact h.then_afterFault.then_orwEnd
      · exact ((h.foldl (fun _ _ hu => hu.then_sliceTouch)).then_memWrite).then_orwEnd

theorem Follows.then_execOrwRound {c j : Nat} (h : Follows o s) : OutFollows o (execOrwRound c j s) := by
  unfold execOrwRound
  refine Follows.then_onUnit ?_
  split
  · exact h
  · exact Follows.ite h h.then_modMem.then_orwRun

theorem Follows.then_retWrite {r : RetRow} (h : Follows o s) : Follows o (retWrite s r) :=
  h.then_memWrite.then_tagRelease.then_wr

theorem Follows.then_retPost {r : RetRow} (h : Follows o s) : Follows o (retPost s r) :=
  Follows.ite h (Follows.ite h.then_retWrite (Follows.ite h.then_modMem h.then_raise))

theorem Follows.then_retDrain {n st : Nat} (h : Follows o s) : Follows o (retDrain n st s) := by
  induction n generalizing s with
  | zero => exact h
  | succ n ih =>
    unfold retDrain
    split
    · exact h
    · split
      · exact h
      · exact ih h.then_modMem.then_retWrite

theorem Follows.then_retConfigured {st : Nat} (h : Follows o s) : Follows o (retConfigured s st) :=
  Follows.ite h.then_retDrain (h.then_modMem.foldl (fun _ _ hu => hu.then_retPost))

theorem Follows.then_retireRow {r : RetRow} (h : Follows o s) : Follows o (retireRow s r) := by
  unfold retireRow
  extract_lets p off n n' x s0 s1 s2
  have hs2 : Follows o s2 := h.same.then_modMem.then_wrF.then_inc.then_retPost.then_raise
  exact Follows.ite hs2.then_wr.then_raise hs2

theorem Follows.then_rawCopied {a n : Nat} (h : Follows o s) : Follows o (rawCopied s a n) :=
  h.then_ueEvents

theorem Follows.then_execRowRepair {st pc bank row : Nat} {ok : Bool} (h : Follows o s) :
    OutFollows o (execRowRepair st pc bank row ok s) := by
  unfold execRowRepair
  refine Follows.then_onUnit ?_
  extract_lets k b s1 s0 s2
  have hs1 : Follows o s1 := h.then_modMem
  have hs0 : Follows o s0 := hs1.foldl fun _ _ hu => hu.then_rawCopied
  split
  · exact h
  · split
    · exact hs1
    · split
      · exact hs1.then_retireRow
      · exact Follows.ite hs0.then_retireRow hs0.then_modMem.then_inc.then_raise

theorem Follows.then_execRetHeadWrite {st : Nat} {v : BitVec 32} (h : Follows o s) : OutFollows o (execRetHeadWrite st v s) :=
  (Follows.ite h (Follows.ite h.then_illegalWrite h.then_wr.then_retDrain)).then_onUnit

/-- Bytes of stacked memory dropped by address. -/
theorem Follows.then_dropBytes {f : Host.Cell → Bool} {raw : List Nat} (h : Follows o s) :
    Follows o { s with hbm := s.hbm.filter f, raw := raw } :=
  h.of_canonical rfl fun c => ⟨c.1, fwf_filter _ _ _ c.2.1, c.2.2⟩

theorem Follows.then_mapoutStart {st : Nat} (h : Follows o s) : Follows o (mapoutStart s st) := by
  unfold mapoutStart
  extract_lets e pc s1 s2 s3
  have hs1 : Follows o s1 := h.then_opStart.foldl fun _ _ hu => hu.then_wr64
  have hs2 : Follows o s2 := hs1.then_dropBytes
  exact hs2.then_modMem.then_modMem

theorem Follows.then_nameDue {st lo : Nat} (h : Follows o s) : Follows o (nameDue s st lo) := by
  unfold nameDue
  extract_lets p
  split
  · exact h.then_wr.then_raise
  · exact h

theorem Follows.then_mapoutConsent {st : Nat} (h : Follows o s) : Follows o (mapoutConsent s st) := by
  unfold mapoutConsent
  extract_lets p pc
  split
  · exact h
  · split
    · exact h.then_modMem
    · exact Follows.ite h.then_modMem.then_wrF.then_raise.then_nameDue h.then_mapoutStart

theorem Follows.then_mapoutKick (h : Follows o s) : Follows o (mapoutKick s) :=
  h.foldl fun _ _ hu => Follows.ite hu hu.then_mapoutConsent

theorem Follows.then_execMapoutCopy {st : Nat} (h : Follows o s) : OutFollows o (execMapoutCopy st s) := by
  unfold execMapoutCopy
  refine Follows.then_onUnit ?_
  split
  · exact h
  · extract_lets p x s0 s1
    split
    · exact h
    · split
      · exact Follows.ite h h.then_rawCopied.then_modMem.then_opProgress
      · exact h
      · exact h.same.then_modMem.then_wr64.then_wrF.then_raise.then_opDone.then_nameDue.then_mapoutKick

theorem Follows.then_retDrainAll (h : Follows o s) : Follows o (retDrainAll s) :=
  h.foldl fun _ _ hu => hu.then_retDrain

theorem Follows.then_retrainEnd {st : Nat} (h : Follows o s) : Follows o (retrainEnd s st) :=
  Follows.ite h.then_modMem.then_opDone h

theorem Follows.then_execHbmPhyRelock {st : Nat} (h : Follows o s) : OutFollows o (execHbmPhyRelock st s) := by
  unfold execHbmPhyRelock
  refine Follows.then_onUnit ?_
  split
  · exact h
  · split
    · exact Follows.ite h.then_retrainEnd.then_retDrainAll.then_mapoutKick h
    · exact Follows.ite h.then_modMem.then_retrainEnd.then_retDrainAll.then_mapoutKick h

theorem Follows.then_execHbmRelockTimeout {st : Nat} (h : Follows o s) : OutFollows o (execHbmRelockTimeout st s) := by
  unfold execHbmRelockTimeout
  refine Follows.then_onUnit ?_
  split
  · exact h
  · exact Follows.ite (((Follows.ite h.then_opFail h).then_modMem).then_raise) h

theorem Follows.then_execPatrolRead {st : Nat} {e : Ecc} (h : Follows o s) : OutFollows o (execPatrolRead st e s) := by
  unfold execPatrolRead
  refine Follows.then_onUnit ?_
  split
  · exact h
  · extract_lets i0
    split
    · exact h.then_modMem.then_inc
    · split
      · exact h
      · extract_lets a s1 s2
        have hs1 : Follows o s1 := by
          unfold s1
          split
          · exact h
          · exact h
          · exact h
          · exact h.then_freeNext.then_ceEvent.then_dirtyBlock
          · exact h.then_freeNext.then_ueFound.then_ueEvent
        have hs2 : Follows o s2 := hs1.then_modMem
        exact Follows.ite hs2 hs2.then_inc

theorem Follows.then_baseSupply (h : Follows o s) : Follows o (baseSupply s) :=
  h.of_eq rfl rfl rfl rfl

theorem Follows.then_execThrottleLevel {st stackT baseT : Nat} (h : Follows o s) :
    OutFollows o (execThrottleLevel st stackT baseT s) := by
  unfold execThrottleLevel
  refine Follows.then_onUnit ?_
  split
  · exact h
  · extract_lets p old n x s0 s1 s2
    have hs1 : Follows o s1 := h.same.then_wr.then_wr.then_baseSupply
    have hs2 : Follows o s2 := Follows.ite hs1.then_raise hs1
    exact Follows.ite hs2.then_raise hs2

theorem Follows.then_execHeavyWindow {st : Nat} (h : Follows o s) : OutFollows o (execHeavyWindow st s) :=
  (Follows.ite h (((h.foldl (fun _ _ hu => hu.then_wr)).then_wr).then_modMem)).then_onUnit

theorem Follows.then_execScrubGo (h : Follows o s) : OutFollows o (execScrubGo s) := by
  unfold execScrubGo
  refine Follows.next ?_
  extract_lets p base len
  split
  · exact h
  · split
    · exact h.then_wr.then_raise
    · exact Follows.ite h.then_wr.then_raise h.then_wr.then_scrubStart

end

end Sys2Proof.Machine
end

section
/-! SUPPORT. What every step keeps (O5): links, the fabric, jobs, hoists and ingress. -/

namespace Sys2Proof.Machine

open Sys2Proof

section
variable {o s : State}

/-! Machine/Links. -/

theorem Follows.then_modAccess {gr : GRef} {id : Nat} {f : Access → Access} (h : Follows o s) : Follows o (modAccess s gr id f) :=
  h.of_eq rfl rfl rfl rfl

theorem Follows.then_ctxDone {c : PCtx} {body : List Byte} (h : Follows o s) : Follows o (ctxDone s c body) := by
  unfold ctxDone
  split
  · exact h.then_modAccess
  · exact h.then_dmaPartDone
  · exact h.then_cmdPartDone
  · exact h.then_migPartDone

theorem Follows.then_ctxFail {c : PCtx} {code addr : Nat} (h : Follows o s) : Follows o (ctxFail s c code addr) := by
  unfold ctxFail
  split
  · exact h.then_modAccess
  · exact h.then_dmaPartFail
  · exact h.then_cmdPartFail
  · exact h.then_migPartFail

theorem Follows.then_setOut {c : Nat} {l : List OutPkt} (h : Follows o s) : Follows o (setOut s c l) :=
  h.then_modConn.then_wr.then_wr

theorem Follows.then_connFailAll {c code : Nat} (h : Follows o s) : Follows o (connFailAll s c code) :=
  (h.then_modConn.then_setOut.foldl (fun _ _ hu => hu.then_ctxFail)).then_repump

theorem Follows.then_connDown {c cause : Nat} (h : Follows o s) : Follows o (connDown s c cause) :=
  h.then_setConnState.then_modConn.then_wr.then_raise.then_connFailAll

theorem Follows.then_connLinkDown {c : Nat} (h : Follows o s) : Follows o (connLinkDown s c) := by
  unfold connLinkDown
  split
  · exact h.then_connDown
  · exact h.then_connDown
  · exact h.then_connDown
  · exact h.then_connDown
  · exact h

theorem Follows.then_setLinkState {l st : Nat} (h : Follows o s) : Follows o (setLinkState s l st) :=
  h.then_wrF.then_wrF

theorem Follows.then_linkDown {l cause : Nat} (h : Follows o s) : Follows o (linkDown s l cause) := by
  unfold linkDown
  extract_lets p s0 s1
  have hs1 : Follows o s1 := (((Follows.ite h.then_opFail h).then_setLinkState).then_wr).then_modLink
  exact hs1.then_raise.foldl fun _ _ hu => hu.then_connLinkDown

theorem Follows.then_startTraining {l : Nat} (h : Follows o s) : Follows o (startTraining s l) :=
  h.then_opStart.then_opProgress.then_setLinkState.then_setLink

theorem Follows.then_sendControl {l : Nat} {payload : List Byte} (h : Follows o s) : Follows o (sendControl s l payload) :=
  h.then_modLink.then_linkGo

theorem Follows.then_startRetrain {l : Nat} {ask : Bool} (h : Follows o s) : Follows o (startRetrain s l ask) := by
  unfold startRetrain
  split
  · exact h
  · exact ((((Follows.ite h.then_sendControl h).then_setLinkState).then_modLink).then_inc).then_raise

theorem Follows.then_goDark {l : Nat} (h : Follows o s) : Follows o (goDark s l) := by
  unfold goDark
  extract_lets s1 s2 x s3
  have hs1 : Follows o s1 := h.then_wrF
  have hs3 : Follows o s3 := (((Follows.ite hs1.then_opFail hs1).then_setLinkState).then_wr).then_modLink
  exact Follows.ite hs1 (hs3.foldl (fun _ _ hu => hu.then_connLinkDown))

theorem Follows.then_portChange {l : Nat} (h : Follows o s) : Follows o (portChange s l) :=
  Follows.ite (Follows.ite h.then_wrF.then_startTraining h.then_wrF) h.then_goDark

theorem Follows.then_setWidth {l lanes : Nat} (h : Follows o s) : Follows o (setWidth s l lanes) :=
  Follows.ite h.then_wrF.then_wrF.then_raise h.then_wrF.then_wrF

theorem Follows.then_trainStep {l n : Nat} (h : Follows o s) : Follows o (trainStep s l n) := by
  unfold trainStep
  exact (Follows.ite h.then_opProgress h).then_modLink

theorem Follows.then_execPartnerLight {l : Nat} {lanes : BitVec 8} (h : Follows o s) : OutFollows o (execPartnerLight l lanes s) :=
  (Follows.ite h (Follows.ite h.then_modLink.then_trainStep h.then_modLink)).then_onUnit

theorem Follows.then_align {l : Nat} (h : Follows o s) : Follows o (align s l) :=
  Follows.ite h.then_trainStep.then_sendControl h

theorem Follows.then_ctlAccept {l : Nat} (h : Follows o s) : Follows o (ctlAccept s l) :=
  h.of_eq rfl rfl rfl rfl

theorem Follows.then_decideCapability {l node port oldest newest lanes : Nat} (h : Follows o s) :
    Follows o (decideCapability s l node port oldest newest lanes) := by
  unfold decideCapability
  extract_lets p k retrain lo hi v expect
  split
  · exact h.then_linkDown.then_raise
  · split
    · exact h.then_linkDown.then_raise
    · split
      · exact h.then_linkDown
      · extract_lets s1 s2
        have hs1 : Follows o s1 := h.then_setWidth.then_wr
        have hs2 : Follows o s2 := Follows.ite hs1 hs1.then_wrF.then_modLink
        exact hs2.then_trainStep.then_sendControl

theorem Follows.then_capArrives {l node port oldest newest lanes : Nat} (h : Follows o s) :
    Follows o (capArrives s l node port oldest newest lanes) :=
  Follows.ite h.then_align.then_decideCapability h.then_align

theorem Follows.then_retrainDone {l : Nat} (h : Follows o s) : Follows o (retrainDone s l) :=
  ((h.then_setLinkState.then_setLink.foldl (fun _ _ hu => hu.then_modConn)).then_inc).then_linkGo

theorem Follows.then_grantArrives {l b0 b1 b2 : Nat} (h : Follows o s) : Follows o (grantArrives s l b0 b1 b2) :=
  Follows.ite h.then_setLinkState.then_setLink.then_raise.then_opDone.then_linkGo h

theorem Follows.then_execCapability {l : Nat} {k : CapInfo} (h : Follows o s) : OutFollows o (execCapability l k s) :=
  (Follows.ite h.then_ctlAccept.then_capArrives.then_linkAnswer h).then_onUnit

theorem Follows.then_execRetrainRequest {l : Nat} (h : Follows o s) : OutFollows o (execRetrainRequest l s) :=
  (Follows.ite h.then_ctlAccept.then_startRetrain.then_linkAnswer h).then_onUnit

theorem Follows.then_execCreditGrant {l b0 b1 b2 : Nat} (h : Follows o s) : OutFollows o (execCreditGrant l b0 b1 b2 s) :=
  (Follows.ite h.then_ctlAccept.then_grantArrives.then_linkAnswer h).then_onUnit

theorem Follows.then_execRetrainComplete {l : Nat} {lanes : BitVec 8} (h : Follows o s) :
    OutFollows o (execRetrainComplete l lanes s) := by
  unfold execRetrainComplete
  refine Follows.then_onUnit ?_
  split
  · split
    · exact h.then_setWidth.then_modLink.then_retrainDone
    · exact h.then_linkDown
  · exact h

theorem Follows.then_execRetrainTimeout {l : Nat} (h : Follows o s) : OutFollows o (execRetrainTimeout l s) := by
  unfold execRetrainTimeout
  refine Follows.then_onUnit ?_
  split
  · exact Follows.ite h.then_linkDown h
  · exact h

theorem Follows.then_execLinkTrain {l : Nat} (h : Follows o s) : OutFollows o (execLinkTrain l s) :=
  (Follows.ite h (Follows.ite h.then_startTraining h.then_startRetrain)).then_onUnit

theorem Follows.then_replay {l : Nat} (h : Follows o s) : Follows o (replay s l) := by
  unfold replay
  extract_lets k again worst s1
  split
  · exact h
  · extract_lets s2
    have hs2 : Follows o s2 := h.then_setLink.then_inc.then_raise
    exact (Follows.ite hs2.then_startRetrain hs2).then_linkGo

theorem Follows.then_flitAck {l : Nat} {f : Flit} (h : Follows o s) : Follows o (flitAck s l f) :=
  (Follows.ite h.then_setLink.then_replay h.then_setLink).then_linkGo

theorem Follows.then_answer {l ver gen dst src node seq status : Nat} {body : List Byte} (h : Follows o s) :
    Follows o (answer s l ver gen dst src node seq status body) :=
  h.then_linkSend

theorem Follows.then_truncateRx {l vc : Nat} {buf : List Byte} {drop : Bool} (h : Follows o s) :
    Follows o (truncateRx s l vc buf drop) := by
  unfold truncateRx
  extract_lets s1 s2
  have hs2 : Follows o s2 := h.then_modLink.then_inc.then_inc.then_raise
  exact Follows.ite hs2.then_answer hs2

theorem Follows.then_rxTake {l vc : Nat} {cut : Bool} {payload : List Byte} (h : Follows o s) :
    Follows o (rxTake s l vc cut payload).1 := by
  unfold rxTake
  split
  · exact h.pair
  · split
    · exact h.then_modLink.pair
    · exact ((Follows.ite h.then_truncateRx h).then_modLink).pair

theorem Follows.then_linkControl {l : Nat} {b : List Byte} (h : Follows o s) : Follows o (linkControl s l b) := by
  unfold linkControl
  split
  · exact h.then_inc
  · split
    · exact h.then_capArrives
    · exact h.then_startRetrain
    · exact h.then_grantArrives
    · exact h.then_inc

theorem Follows.then_flitArrives {l : Nat} {f : Flit} (h : Follows o s) : Follows o (flitArrives s l f).1 := by
  unfold flitArrives
  split
  · exact h.then_modLink.pair
  · extract_lets k d s1
    have hs1 : Follows o s1 := h.then_modLink.then_flitAck
    split
    · split
      · exact hs1.then_rxTake
      · exact hs1.then_linkControl.pair
    · split
      · exact h.then_flitAck.then_modLink.pair
      · exact h.then_flitAck.pair

theorem Follows.then_execSenderCut {l vc : Nat} (h : Follows o s) : OutFollows o (execSenderCut l vc s) := by
  unfold execSenderCut
  refine Follows.then_onUnit ?_
  split
  · exact h
  · exact Follows.ite h.then_modLink.then_linkGo h

theorem Follows.then_execReceiverTruncate {l vc : Nat} (h : Follows o s) : OutFollows o (execReceiverTruncate l vc s) := by
  unfold execReceiverTruncate
  refine Follows.then_onUnit ?_
  split
  · exact h
  · exact Follows.ite h.then_truncateRx.then_linkAnswer h

/-! Machine/Fabric. -/

theorem Follows.then_sendPlain {l c ver ptype epoch target : Nat} {body : List Byte} (h : Follows o s) :
    Follows o (sendPlain s l c ver ptype epoch target body) :=
  h.then_linkSend

theorem Follows.then_sendOpen {c : Nat} (h : Follows o s) : Follows o (sendOpen s c) :=
  h.then_modConn.then_sendPlain

theorem Follows.then_execConnOpen {c : Nat} (h : Follows o s) : OutFollows o (execConnOpen c s) := by
  unfold execConnOpen
  refine Follows.then_onUnit ?_
  split
  · exact h
  · extract_lets p st who
    split
    · exact h.then_raise
    · exact Follows.ite h.then_raise.then_raise h.then_setConnState.then_modConn.then_sendOpen

theorem Follows.then_closeIfDone {c : Nat} (h : Follows o s) : Follows o (closeIfDone s c) :=
  Follows.ite (((Follows.ite h.then_sendPlain h).then_setConnState).then_modConn) h

theorem Follows.then_execOpenTimeout {c : Nat} (h : Follows o s) : OutFollows o (execOpenTimeout c s) := by
  unfold execOpenTimeout
  refine Follows.then_onUnit ?_
  split
  · exact Follows.ite h.then_connDown h
  · exact h

theorem Follows.then_execRtoResend {c : Nat} {n : BitVec 32} (h : Follows o s) : OutFollows o (execRtoResend c n s) := by
  unfold execRtoResend
  refine Follows.then_onUnit ?_
  split
  · exact h
  · exact Follows.ite h.then_modConn.then_inc.then_inc.then_linkSend h

theorem Follows.then_respond {l : Nat} {p : Packet} {status : Nat} {body : List Byte} (h : Follows o s) :
    Follows o (respond s l p status body) :=
  h.then_answer

theorem Follows.then_refuseCount {l : Nat} {p : Packet} {status : Nat} (h : Follows o s) : Follows o (refuseCount s l p status) :=
  h.then_inc.then_raise

theorem Follows.then_refusePkt {l : Nat} {p : Packet} {status : Nat} (h : Follows o s) : Follows o (refusePkt s l p status) :=
  Follows.ite h.then_refuseCount.then_respond h.then_refuseCount

theorem Follows.then_stalePkt {l : Nat} {p : Packet} (h : Follows o s) : Follows o (stalePkt s l p) :=
  h.then_inc.then_refusePkt

theorem Follows.then_ingress4 {l : Nat} {p : Packet} {k : State → State}
    (h : Follows o s) (hk : ∀ u, Follows o u → Follows o (k u)) : Follows o (ingress4 s l p k) := by
  unfold ingress4
  split
  · exact h.then_inc.then_raise
  · split
    · exact h.then_inc.then_raise
    · exact Follows.ite h.then_refusePkt (Follows.ite h.then_refusePkt (hk _ h))

theorem Follows.then_ingress8 {l : Nat} {p : Packet} {k : State → State}
    (h : Follows o s) (hk : ∀ u, Follows o u → Follows o (k u)) : Follows o (ingress8 s l p k) := by
  unfold ingress8
  refine h.then_ingress4 (fun t ht => ?_)
  extract_lets c q
  split
  · exact ht.then_stalePkt
  · split
    · exact ht.then_stalePkt
    · exact Follows.ite ht.then_refusePkt (Follows.ite ht.then_refusePkt (hk _ ht.then_modConn))

theorem Follows.then_onPort {l : Nat} {k : State} (h : Follows o s) (hk : Follows o k) : OutFollows o (onPort l s k) :=
  (Follows.ite hk h).then_onUnit

theorem Follows.then_perform {p : Packet} (h : Follows o s) : Follows o (perform s p).1 := by
  unfold perform
  extract_lets x rel aop width fmt clear comparand low
  split
  · split
    · next e => exact (h.then_countAccess.then_memWrite.of_fst e).pair
    · next t e =>
        have ht : Follows o t := h.then_countAccess.then_memWrite.of_fst e
        exact (Follows.ite ht.then_tagRelease ht).pair
  · split <;> next e => exact (h.then_countAccess.then_memRead.of_fst e).pair
  · split
    · next e => exact (h.then_countAccess.then_memAtomic.of_fst e).pair
    · next t _ e =>
        have ht : Follows o t := h.then_countAccess.then_memAtomic.of_fst e
        exact (Follows.ite ht.then_tagRelease ht).pair
  · exact h.then_sigRelease.pair

theorem Follows.then_keepAnswer {p : Packet} {status old : Nat} (h : Follows o s) : Follows o (keepAnswer s p status old) :=
  h.of_eq rfl rfl rfl rfl

theorem Follows.then_serve {l : Nat} {p : Packet} {sends : Bool} (h : Follows o s) : Follows o (serve s l p sends) := by
  unfold serve
  split
  · extract_lets s1
    have hs1 : Follows o s1 := h.then_keepAnswer.then_inc.then_refuseCount
    exact Follows.ite hs1.then_respond hs1
  · extract_lets r s1
    have hr : Follows o r.1 := h.then_perform
    have hs1 : Follows o s1 := hr.then_keepAnswer
    exact Follows.ite hs1.then_respond hs1

theorem Follows.then_heldRun {n c : Nat} (h : Follows o s) : Follows o (heldRun n c s) := by
  induction n generalizing s with
  | zero => exact h
  | succ n ih =>
    unfold heldRun
    split
    · exact h
    · exact Follows.ite h (ih h.then_modConn.then_serve)

theorem Follows.then_takeRequest {p : Packet} (h : Follows o s) : Follows o (takeRequest s p) :=
  h.then_modConn.then_heldRun

theorem Follows.then_duplicate {l : Nat} {p : Packet} (h : Follows o s) : Follows o (duplicate s l p) := by
  unfold duplicate
  split
  · exact h
  · exact Follows.ite h.then_takeRequest h.then_respond

theorem Follows.then_requestIn {l : Nat} {p : Packet} (h : Follows o s) : Follows o (requestIn l p s) := by
  unfold requestIn
  refine h.then_ingress8 (fun t ht => ?_)
  extract_lets c e d
  split
  · exact ht.then_refusePkt
  · split
    · exact ht.then_wr.then_takeRequest
    · exact Follows.ite ht.then_respond (Follows.ite ht.then_duplicate ht.then_inc)

theorem Follows.then_request {l : Nat} {p : Packet} (h : Follows o s) : OutFollows o (request l p s) :=
  h.then_onPort h.then_requestIn

theorem Follows.then_execHoldSend {c : Nat} (h : Follows o s) : OutFollows o (execHoldSend c s) :=
  (Follows.ite h (Follows.ite h.then_heldRun h.then_heldRun.then_modConn.then_sendPlain)).then_onUnit

theorem Follows.then_holdIn {l : Nat} {p : Packet} (h : Follows o s) : Follows o (holdIn l p s) :=
  h.then_ingress8 (fun _ hu => hu.then_modConn)

theorem Follows.then_outDone {c seq : Nat} (h : Follows o s) : Follows o (outDone s c seq) :=
  h.then_setOut

theorem Follows.then_truncated {c : Nat} {o1 : OutPkt} (h : Follows o s) : Follows o (truncated s c o1) := by
  unfold truncated
  extract_lets q port change
  split
  · exact h.then_modConn
  · split
    · exact h.then_modConn.then_modLink.then_linkGo
    · exact h.then_modConn.then_inc.then_inc.then_linkSend

theorem Follows.then_rspIn {l : Nat} {p : Packet} (h : Follows o s) : Follows o (rspIn l p s) := by
  unfold rspIn
  refine h.then_ingress8 (fun t ht => ?_)
  extract_lets c q seq status full next refused
  have hrefused : Follows o refused := ht.then_outDone.then_raise
  split
  · exact ht
  · clear_value status
    split
    · exact ht.then_outDone.then_ctxDone.then_connPump.then_repump.then_closeIfDone
    · exact hrefused.then_ctxFail.then_connPump.then_repump.then_closeIfDone
    · exact hrefused.then_ctxFail.then_connPump.then_repump.then_closeIfDone
    · exact hrefused.then_ctxFail.then_connPump.then_repump.then_closeIfDone
    · exact hrefused.then_ctxFail.then_connPump.then_repump.then_closeIfDone
    · exact hrefused.then_ctxFail.then_connPump.then_repump.then_closeIfDone
    · exact ht.then_truncated
    · exact ht.then_connDown

theorem Follows.then_openIn {l : Nat} {p : Packet} (h : Follows o s) : Follows o (openIn l p s) := by
  unfold openIn
  refine h.then_ingress4 (fun t ht => ?_)
  extract_lets c q r s1
  have hs1 : Follows o s1 := ht.then_linkSend
  exact Follows.ite hs1.then_wr.then_wr (Follows.ite hs1.then_connDown hs1)

theorem Follows.then_openAckIn {l : Nat} {p : Packet} (h : Follows o s) : Follows o (openAckIn l p s) := by
  unfold openAckIn
  refine h.then_ingress4 (fun t ht => ?_)
  extract_lets c q s1 s2
  split
  · exact ht
  · split
    · exact ht.then_setConnState.then_wr.then_wr.then_wr.then_wr.then_wr.then_modConn.then_raise.then_connPump
    · exact ht
    · exact ht.then_connDown
    · exact ht.then_connDown

theorem Follows.then_closeIn {l : Nat} {p : Packet} (h : Follows o s) : Follows o (closeIn l p s) :=
  h.then_ingress4 (fun _ hu => Follows.ite hu hu.then_modConn.then_closeIfDone)

/-! Machine/Jobs. -/

theorem Follows.then_execJobGenWrite {j : Nat} {v : BitVec 32} (h : Follows o s) : OutFollows o (execJobGenWrite j v s) := by
  unfold execJobGenWrite
  refine Follows.then_onUnit ?_
  split
  · exact h
  · exact Follows.ite h.then_raise (Follows.ite h (Follows.ite h.then_raise h.then_wr.then_wr))

theorem Follows.then_closeWindow {p : Page} (h : Follows o s) : Follows o (closeWindow s p) :=
  Follows.ite h (Follows.ite h.same.same h.same)

theorem Follows.then_clearDisturb (h : Follows o s) : Follows o (clearDisturb s) :=
  h.of_canonical ((Follows.refl s).then_closeWindow (p := pQeng)).pending fun c => clearDisturb_canonical c

theorem Follows.then_clearGated (h : Follows o s) : Follows o (clearGated s) :=
  h.of_canonical rfl fun c => clearGated_canonical c

theorem Follows.then_startSlot {j : Nat} (h : Follows o s) : Follows o (startSlot s j) := by
  unfold startSlot
  split
  · exact h
  · extract_lets s1
    have hs1 : Follows o s1 := Follows.ite h.then_clearDisturb h
    exact hs1.then_setJobState.then_leaveP1.foldl fun _ _ hu => Follows.ite hu.then_armQueue hu

theorem Follows.then_paceReset {j : Nat} (h : Follows o s) : Follows o (paceReset s j) :=
  (h.foldl (fun _ _ hu => hu.then_wr)).same

theorem Follows.then_stopIntake {p : Page} (h : Follows o s) : Follows o (stopIntake s p) := by
  unfold stopIntake
  extract_lets s1 x
  have hs1 : Follows o s1 := h.then_setBstate
  have hx : Follows o x := hs1.then_setQState
  split
  · exact hx.same
  · exact hs1.then_modConn.then_setConnState
  · exact hs1

theorem Follows.then_tdProgress {d : Teardown} {step pos : Nat} (h : Follows o s) : Follows o (tdProgress s d step pos) := by
  unfold tdProgress
  extract_lets w s1
  have hs1 : Follows o s1 := by
    unfold s1
    split
    · exact h.then_wr.then_wrF
    · exact h
  exact Follows.ite hs1.then_wr hs1

theorem Follows.then_tdStart {target : TdTarget} {gen : Nat} {pages : List Page} (h : Follows o s) :
    Follows o (tdStart s target gen pages) := by
  unfold tdStart
  extract_lets quar rest s1 s2 d
  exact ((((h.foldl (fun _ _ hu => hu.then_unbind)).foldl (fun _ _ hu => hu.then_stopIntake)).then_modBind).then_opStart).then_tdProgress

theorem Follows.then_execResourceTeardown {p : Page} (h : Follows o s) : OutFollows o (execResourceTeardown p s) :=
  (Follows.ite h (Follows.ite h.then_unbind (Follows.ite h.then_tdStart h))).then_onUnit

theorem Follows.then_tdFinish {d : Teardown} (h : Follows o s) : Follows o (tdFinish s d) := by
  unfold tdFinish
  extract_lets s0 last s1 s2 s3
  have hs2 : Follows o s2 := h.then_tdProgress.then_modBind.foldl fun _ _ hu => hu.then_resetWork.then_unbind
  have hs3 : Follows o s3 := by
    unfold s3
    split
    · exact hs2.then_setJobState.then_wr.then_paceReset.then_modBind.then_raise
    · exact hs2
  exact Follows.ite hs3.then_wrF.then_raise hs3

theorem Follows.then_tdCheck (h : Follows o s) : Follows o (tdCheck s) :=
  h.foldl fun _ _ hu => hu.then_tdFinish

theorem Follows.then_tdClose {p : Page} (h : Follows o s) : Follows o (tdClose s p) :=
  Follows.ite h.then_sendPlain h

theorem Follows.then_tdStep {t : Teardown} {step pos : Nat} (h : Follows o s) : Follows o (tdStep s t step pos) :=
  h.then_modBind.then_tdProgress

theorem Follows.then_tdScrub {t : Teardown} (h : Follows o s) : Follows o (tdScrub s t) := by
  unfold tdScrub
  extract_lets s1
  have hs1 : Follows o s1 := h.then_tdStep
  refine Follows.then_tdCheck ?_
  split
  · exact hs1.foldl fun _ _ hu => Follows.ite hu.then_rgnRelease (Follows.ite hu.then_setRgn hu)
  · exact hs1

theorem Follows.then_tdFence {d : TdTarget} (h : Follows o s) : Follows o (tdFence s d) := by
  unfold tdFence
  split
  · exact h
  · exact Follows.ite h.then_tdScrub h

theorem Follows.then_execTeardownDrainEnd {d : TdTarget} (h : Follows o s) : OutFollows o (execTeardownDrainEnd d s) := by
  unfold execTeardownDrainEnd
  refine Follows.next ?_
  split
  · exact h
  · split
    · exact h
    · split
      · exact (h.then_tdStep.foldl (fun _ _ hu => hu.then_tdClose)).then_tdFence
      · exact h.then_tdFence

theorem Follows.then_execClosePkt {l : Nat} {p : Packet} (h : Follows o s) : OutFollows o (execClosePkt l p s) :=
  h.then_onPort (h.then_closeIn.foldl (fun _ _ hu => hu.then_tdFence))

theorem Follows.then_stopBlock {t : Nat} {b : Block} (h : Follows o s) : Follows o (stopBlock t s b) :=
  h.then_blockFault

theorem Follows.then_stopTile {t : Nat} {which : Launch → Bool} (h : Follows o s) : Follows o (stopTile s t which) := by
  unfold stopTile
  exact ((h.foldl (fun _ _ hu => hu.then_stopBlock)).foldl (fun _ _ hu => hu.then_cmdFault)).then_modTile

theorem Follows.then_endWait {c : Cmd} (h : Follows o s) : Follows o (endWait s c) :=
  Follows.ite h.then_cmdFail h.then_modCmd

theorem Follows.then_forceDrain {p : Page} (h : Follows o s) : Follows o (forceDrain s p) := by
  unfold forceDrain
  split
  · exact h.then_stopTile
  · exact (h.foldl (fun _ _ hu => hu.then_endWait)).foldl fun _ _ hu => hu.then_stopTile
  · exact h.then_connDown
  · exact h

theorem Follows.then_execDrainTimeout {d : TdTarget} (h : Follows o s) : OutFollows o (execDrainTimeout d s) := by
  unfold execDrainTimeout
  refine Follows.next ?_
  split
  · exact h
  · exact Follows.ite h (h.then_modBind.then_raise.foldl (fun _ _ hu => hu.then_forceDrain))

theorem Follows.then_rgnRetry (h : Follows o s) : Follows o (rgnRetry s) :=
  h.foldl fun _ _ hu => hu.then_rgnTry

theorem Follows.then_rgnScrubbed {r : Nat} (h : Follows o s) : Follows o (rgnScrubbed s r) := by
  unfold rgnScrubbed
  split
  · exact h.then_setRgn.then_setRgnResult.then_raise.then_genSettle
  · exact h.then_setRgn.then_rgnRetry.then_tdCheck

theorem Follows.then_execScrubDone (h : Follows o s) : OutFollows o (execScrubDone s) := by
  unfold execScrubDone
  refine Follows.next ?_
  split
  · exact h
  · split
    · exact h
    · extract_lets s1
      have hs1 : Follows o s1 := h.then_modMem.then_zeroRange.then_opDone
      refine Follows.then_scrubNext ?_
      split
      · exact hs1.then_rgnScrubbed
      · exact hs1

/-! Machine/Hoist. -/

theorem Follows.then_sendHoist {dst : Nat × Nat} {gen kind : Nat} {body : List Byte} (h : Follows o s) :
    Follows o (sendHoist s dst gen kind body) :=
  Follows.ite h.then_linkSend h

theorem Follows.then_setCtx {k : Nat} {x : HCtx} (h : Follows o s) : Follows o (setCtx s k x) :=
  h.same.then_wr.then_wr

theorem Follows.then_freeCtx {k st : Nat} (h : Follows o s) : Follows o (freeCtx s k st) :=
  h.same.then_wr

theorem Follows.then_sendStart {k c : Nat} (h : Follows o s) : Follows o (sendStart s k c) := by
  unfold sendStart
  split
  · exact h.then_sendHoist.then_setCtx
  · exact h

theorem Follows.then_workByte {k node : Nat} (h : Follows o s) : Follows o (workByte s k node) :=
  h.then_memWrite.then_freeNext

theorem Follows.then_noteStatus {k node status : Nat} (h : Follows o s) : Follows o (noteStatus s k node status) := by
  unfold noteStatus
  split
  · exact h
  · exact Follows.ite h (Follows.ite h.then_setCtx.then_workByte h.then_setCtx.then_workByte)

theorem Follows.then_takeStart {k : Nat} (h : Follows o s) : Follows o (takeStart s k) := by
  unfold takeStart
  split
  · exact h
  · exact h.then_setCtx.then_raise

theorem Follows.then_takeCopy {x : HCtx} {answer : State → Nat → State}
    (h : Follows o s) (hanswer : ∀ u x1, Follows o u → Follows o (answer u x1)) : Follows o (takeCopy s x answer) := by
  unfold takeCopy
  split
  · split
    · exact hanswer _ _ h
    · exact Follows.ite (hanswer _ _ h.then_inc) (hanswer _ _ h.then_takeStart)
  · split
    · exact hanswer _ _ h
    · split
      · exact hanswer _ _ h.then_raise
      · extract_lets s1 s2 e
        have hs2 : Follows o s2 := (h.same.then_setCtx.foldl (fun _ _ hu => hu.then_sendStart)).then_takeStart
        exact hanswer _ _ (Follows.ite hs2.then_noteStatus hs2)

theorem Follows.then_hoistIn {l : Nat} {p : Packet} {kind : Nat} {k : State → State}
    (h : Follows o s) (hk : ∀ u, Follows o u → Follows o (k u)) : Follows o (hoistIn l p kind s k) :=
  h.then_ingress4 (fun _ hu => Follows.ite (hk _ hu) hu.then_inc)

theorem Follows.then_startIn {l : Nat} {p : Packet} (h : Follows o s) : Follows o (startIn l p s) := by
  unfold startIn
  refine h.then_hoistIn (fun t ht => ?_)
  extract_lets b x
  refine ht.then_inc.then_takeCopy (fun t1 e1 ht1 => ?_)
  split
  · exact ht1.then_sendHoist
  · exact ht1

theorem Follows.then_execHoistTxGo {policy : Bool} (h : Follows o s) : OutFollows o (execHoistTxGo policy s) := by
  unfold execHoistTxGo
  refine Follows.next ?_
  split
  · exact h
  · extract_lets s0 time deadline n res
    split
    · exact h.then_wrF.then_wr
    · split
      · exact h.then_wrF.then_wr
      · split
        · exact h.then_wrF.then_wr
        · exact Follows.ite h.then_wrF.then_wr (h.then_wrF.then_wr.then_takeCopy (fun _ _ hu => hu))

theorem Follows.then_startDue {j : Nat} (h : Follows o s) : Follows o (startDue s j) := by
  unfold startDue
  split
  · exact Follows.ite h.then_startSlot h
  · exact h

theorem Follows.then_execHoistContextRelease {k : Nat} (h : Follows o s) : OutFollows o (execHoistContextRelease k s) := by
  unfold execHoistContextRelease
  refine Follows.then_onUnit ?_
  split
  · exact Follows.ite h.then_freeCtx.then_wr h
  · exact h

theorem Follows.then_execHoistRetry {k ch : Nat} (h : Follows o s) : OutFollows o (execHoistRetry k ch s) := by
  unfold execHoistRetry
  refine Follows.then_onUnit ?_
  split
  · split
    · exact h
    · exact Follows.ite h.then_sendHoist.then_setCtx.then_inc h
  · exact h

theorem Follows.then_lateEntry {k node : Nat} (h : Follows o s) : Follows o (lateEntry s k node) := by
  unfold lateEntry
  split
  · exact h
  · extract_lets a
    split
    · exact h
    · exact Follows.ite h h.then_memWrite.then_memWrite.then_tagRelease.then_inc

theorem Follows.then_takeEntry {k node status : Nat} (h : Follows o s) : Follows o (takeEntry s k node status) := by
  unfold takeEntry
  extract_lets s1 s2
  have hs1 : Follows o s1 := by
    unfold s1
    split
    · exact h.then_setCtx
    · exact h
  exact (Follows.ite hs1.then_lateEntry hs1).then_noteStatus

theorem Follows.then_sendAborts {gen root : Nat} (h : Follows o s) : Follows o (sendAborts s gen root) := by
  unfold sendAborts
  split
  · exact h
  · refine h.same.foldl fun t c1 ht => ?_
    split
    · exact ht.then_sendHoist
    · exact ht

theorem Follows.then_takeAbort {k : Nat} (h : Follows o s) : Follows o (takeAbort s k) := by
  unfold takeAbort
  split
  · exact h
  · extract_lets s2 s3 s31
    have hs2 : Follows o s2 := h.then_sendAborts.then_freeCtx
    have hs3 : Follows o s3 := by
      unfold s3
      split
      · exact hs2.then_wrF
      · exact hs2
    split
    · exact hs3.then_raise
    · exact (hs2.foldl (fun _ _ hu => Follows.ite hu.then_setQState hu)).then_raise

theorem Follows.then_abortIn {l : Nat} {p : Packet} (h : Follows o s) : Follows o (abortIn l p s) := by
  unfold abortIn
  refine h.then_hoistIn (fun t ht => ?_)
  split
  · exact ht.then_takeAbort
  · exact ht.then_sendAborts

theorem Follows.then_writeReport {k : Nat} {x : HCtx} (h : Follows o s) : Follows o (writeReport s k x) := by
  unfold writeReport
  extract_lets r s1 s2
  have hs2 : Follows o s2 := h.then_memWrite.then_tagRelease.then_setCtx.then_raise
  exact Follows.ite hs2.then_takeAbort hs2

theorem Follows.then_execHoistDeadline {k : Nat} (h : Follows o s) : OutFollows o (execHoistDeadline k s) := by
  unfold execHoistDeadline
  refine Follows.then_onUnit ?_
  split
  · exact h
  · exact Follows.ite h.then_writeReport h

theorem Follows.then_reportIn {l : Nat} {p : Packet} (h : Follows o s) : Follows o (reportIn l p s) := by
  unfold reportIn
  refine h.then_hoistIn (fun t ht => ?_)
  split
  · exact ht
  · exact (Follows.ite ht.then_writeReport ht).foldl fun _ _ hu => hu.then_takeEntry

theorem Follows.then_execHoistReportBatch {k par : Nat} (h : Follows o s) : OutFollows o (execHoistReportBatch k par s) := by
  unfold execHoistReportBatch
  refine Follows.then_onUnit ?_
  split
  · split
    · exact h
    · exact Follows.ite h.then_sendHoist.then_setCtx h
  · exact h

/-! Machine/Ingress. -/

theorem Follows.then_packetIn {l : Nat} {p : Packet} (h : Follows o s) : Follows o (packetIn l s p) := by
  unfold packetIn
  split
  · exact h.then_rspIn
  · exact h.then_holdIn
  · exact h.then_openIn
  · exact h.then_openAckIn
  · exact h.then_closeIn.foldl fun _ _ hu => hu.then_tdFence
  · split
    · exact h.then_startIn
    · exact h.then_reportIn
    · exact h.then_abortIn
    · exact h.then_hoistIn (fun _ hu => hu.then_inc)
  · exact h.then_requestIn

theorem Follows.then_execPayloadFlit {l : Nat} {f : Flit} (h : Follows o s) : OutFollows o (execPayloadFlit l f s) := by
  unfold execPayloadFlit
  refine Follows.then_onUnit ?_
  split
  · exact h
  · extract_lets r ps
    have hr : Follows o r.1 := h.then_flitArrives
    split
    · exact h
    · exact (hr.foldl (fun _ _ hu => Follows.ite hu.then_packetIn hu)).then_linkAnswer

end

end Sys2Proof.Machine
end

section
/-! SUPPORT. What every step keeps (O5): time, the error log, power and the host channel. -/

namespace Sys2Proof.Machine

open Sys2Proof

section
variable {o s : State}

/-! Machine/Time. -/

theorem Follows.then_modServo {f : Ptp → Ptp} (h : Follows o s) : Follows o (s.modServo f) :=
  h.of_eq rfl rfl rfl rfl

theorem Follows.then_dropSilent (h : Follows o s) : Follows o (dropSilent s) := by
  unfold dropSilent
  split
  · exact h
  · exact Follows.ite h.then_wr64.then_modServo h

theorem Follows.then_ptpArrives {n : PtpNet} {domain : Nat} {k : State → State}
    (h : Follows o s) (hk : ∀ u, Follows o u → Follows o (k u)) : Follows o (ptpArrives s n domain k) := by
  unfold ptpArrives
  split
  · exact h
  · extract_lets s0
    have hs0 : Follows o s0 := h.then_inc
    exact Follows.ite hs0.then_inc (Follows.ite hs0 (hk _ hs0.then_dropSilent))

theorem Follows.then_toHoldover (h : Follows o s) : Follows o (toHoldover s) :=
  Follows.ite h.then_wrF.then_inc.then_modServo.then_raise h

theorem Follows.then_stepPtp {off : Int} (h : Follows o s) : Follows o (stepPtp s off) :=
  h.same.foldl fun _ _ hu => hu.then_startDue

theorem Follows.then_takeOffset {off : Int} (h : Follows o s) : Follows o (takeOffset s off) := by
  unfold takeOffset
  extract_lets s1 lim good rate s2
  have hs1 : Follows o s1 := h.then_wr
  have hs2 : Follows o s2 := hs1.then_freeNext.then_wr.then_modServo
  split
  · exact hs1.then_stepPtp.then_modServo
  · split
    · exact hs1.then_stepPtp.then_inc.then_modServo.then_raise
    · exact Follows.ite hs2.then_wrF.then_raise hs2

theorem Follows.then_syncHeard (h : Follows o s) : Follows o (syncHeard s) :=
  (Follows.ite h.then_wrF.then_modServo h).then_modServo

theorem Follows.then_syncDone {origin received : Nat} (h : Follows o s) : Follows o (syncDone s origin received) :=
  h.then_modServo.then_takeOffset

theorem Follows.then_execPtpSync {y : PtpSyncMsg} (h : Follows o s) : OutFollows o (execPtpSync y s) := by
  unfold execPtpSync
  refine Follows.next ?_
  refine h.then_ptpArrives (fun t ht => ?_)
  split
  · exact ht
  · exact Follows.ite ht.then_syncHeard.then_modServo ht.then_syncHeard.then_syncDone

theorem Follows.then_execPtpFollowUp {y : PtpFollowMsg} {n origin : Nat} (h : Follows o s) :
    OutFollows o (execPtpFollowUp y n origin s) := by
  unfold execPtpFollowUp
  refine Follows.next ?_
  refine h.then_ptpArrives (fun t ht => ?_)
  split
  · exact Follows.ite ht.then_syncDone ht
  · exact ht

theorem Follows.then_execPtpAnnounce {y : PtpAnnounceMsg} (h : Follows o s) : OutFollows o (execPtpAnnounce y s) :=
  (h.then_ptpArrives (fun _ hu => Follows.ite hu.then_wr64.then_modServo hu)).next

theorem Follows.then_execPtpDelayResp {y : PtpDelayMsg} {t4 : Nat} (h : Follows o s) : OutFollows o (execPtpDelayResp y t4 s) := by
  unfold execPtpDelayResp
  refine Follows.next ?_
  refine h.then_ptpArrives (fun t ht => ?_)
  split
  · split
    · split
      · exact ht.then_modServo
      · exact ht
    · exact ht
  · exact ht

theorem Follows.then_execPtpSyncTimeout (h : Follows o s) : OutFollows o (execPtpSyncTimeout s) := by
  unfold execPtpSyncTimeout
  refine Follows.next ?_
  extract_lets i s1
  have hs1 : Follows o s1 := Follows.ite h.then_dropSilent h
  exact Follows.ite hs1.then_toHoldover hs1

/-! Machine/Errlog. -/

theorem Follows.then_modLog {f : Log → Log} (h : Follows o s) : Follows o (s.modLog f) :=
  h.of_eq rfl rfl rfl rfl

theorem Follows.then_storeClass3 {seq : Nat} {b : List Byte} (h : Follows o s) : Follows o (storeClass3 s seq b) :=
  h.of_eq rfl rfl rfl rfl

theorem Follows.then_logWrite {seq : Nat} {b : List Byte} (h : Follows o s) : Follows o (logWrite s seq b) :=
  h.then_memWrite.then_tagRelease.then_wr

theorem Follows.then_logDrain {n : Nat} (h : Follows o s) : Follows o (logDrain n s) := by
  induction n generalizing s with
  | zero => exact h
  | succ n ih =>
    unfold logDrain
    split
    · exact h.then_modLog
    · split
      · exact h
      · exact Follows.ite h (ih h.then_modLog.then_logWrite)

theorem Follows.then_countRate {r : Rec} (h : Follows o s) : Follows o (countRate s r) :=
  h.of_eq rfl rfl rfl rfl

theorem Follows.then_logRecord {r : Rec} (h : Follows o s) : Follows o (logRecord s r) := by
  unfold logRecord
  extract_lets seq b s1 s2
  have hs1 : Follows o s1 := h.then_countRate.then_modLog.then_inc
  have hs2 : Follows o s2 := Follows.ite hs1.then_storeClass3 hs1
  split
  · exact hs2
  · exact Follows.ite hs2.then_logWrite (Follows.ite hs2.then_modLog hs2.then_inc.then_setFlag)

theorem Follows.then_execErrorRecordPost (h : Follows o s) : OutFollows o (execErrorRecordPost s) := by
  unfold execErrorRecordPost
  refine Follows.next ?_
  extract_lets s1
  have hs1 : Follows o s1 := Follows.ite h.then_logDrain h
  split
  · exact hs1
  · split
    · exact hs1
    · exact Follows.ite hs1.then_modLog.then_inc.then_setFlag hs1.then_modLog.then_logRecord

theorem Follows.then_execErrlogHeadWrite {v : BitVec 32} (h : Follows o s) : OutFollows o (execErrlogHeadWrite v s) :=
  (Follows.ite h (Follows.ite h.then_illegalWrite h.then_wr.then_logDrain)).next

theorem Follows.then_moduleFatal {cause : Nat} (h : Follows o s) : Follows o (moduleFatal s cause) :=
  h.then_wrF.then_wrF.then_raise

theorem Follows.then_flushClass3 (h : Follows o s) : Follows o (flushClass3 s) :=
  h.foldl fun _ _ hu => hu.then_modLog.then_storeClass3

/-! Machine/Power. -/

theorem Follows.then_powerDown {bySleep : Bool} (h : Follows o s) : Follows o (powerDown s bySleep) :=
  h.of_canonical rfl fun _ => ⟨rfl, rfl, rfl⟩

theorem Follows.then_execInputRangeChange {mv : Nat} (h : Follows o s) : OutFollows o (execInputRangeChange mv s) := by
  unfold execInputRangeChange
  refine Follows.next ?_
  split
  · exact Follows.ite h.then_modPower h
  · exact (Follows.ite ((Follows.ite h.then_raise h).then_raise) (Follows.ite h.then_raise h)).then_modPower

theorem Follows.then_tripTile {t : Nat} (h : Follows o s) : Follows o (tripTile s t) := by
  unfold tripTile
  extract_lets T f s1 s2 s3 s4 s5 p x s6
  have hs1 : Follows o s1 := h.foldl fun _ _ hu => hu.then_cmdFault
  have hs2 : Follows o s2 := hs1.foldl fun _ _ hu => hu.then_cmdFault
  have hs3 : Follows o s3 := hs2.foldl fun _ _ hu => hu.then_cmdFault
  have hs4 : Follows o s4 := hs3.foldl fun _ _ hu => hu.then_cmdFault
  have hs5 : Follows o s5 := hs4.foldl fun _ _ hu => hu.then_cmdFault
  have hs6 : Follows o s6 := hs5.then_setTile.foldl fun _ _ hu => hu.then_wrF
  exact Follows.ite hs6.then_wrF.then_raise hs6

theorem Follows.then_tripDie {d : Nat} (h : Follows o s) : Follows o (tripDie s d) := by
  unfold tripDie
  split
  · exact h
  · exact (h.then_railOff.then_wrF.then_clearGated.then_inc.foldl (fun _ _ hu => hu.then_tripTile)).then_raise

theorem Follows.then_execThermalEmergency {d : Nat} (h : Follows o s) : OutFollows o (execThermalEmergency d s) :=
  (Follows.ite h.then_wrF.then_wrF.then_wrF.then_wrF.then_raise h).then_onUnit

theorem Follows.then_execDieRecover {d : Nat} (h : Follows o s) : OutFollows o (execDieRecover d s) := by
  unfold execDieRecover
  refine Follows.then_onUnit ?_
  split
  · exact h
  · split
    · exact h.then_illegalWrite
    · split
      · exact h
      · exact ((Follows.ite h.then_railStart h).then_wrF).foldl fun _ _ hu => Follows.ite hu.then_ungate hu

theorem Follows.then_execModuleThermalTrip (h : Follows o s) : OutFollows o (execModuleThermalTrip s) := by
  unfold execModuleThermalTrip
  refine Follows.next ?_
  extract_lets due
  split
  · exact ((h.then_railsOff.foldl (fun _ _ hu => hu.then_goDark)).then_modMem).then_moduleFatal
  · exact h

theorem Follows.then_dieSensor {d n temp : Nat} (h : Follows o s) : Follows o (dieSensor s d n temp) := by
  unfold dieSensor
  extract_lets k s1 h1 s2
  have hs1 : Follows o s1 := h.then_modPower
  have hs2 : Follows o s2 := hs1.then_wr.then_railRegs
  exact Follows.ite hs2.then_wrF.then_wrF hs2

theorem Follows.then_execTemperatureChange {y : Sensor} {temp : Nat} (h : Follows o s) :
    OutFollows o (execTemperatureChange y temp s) := by
  unfold execTemperatureChange
  extract_lets v s1
  have hs1 : Follows o s1 := h.then_wr
  split
  · exact (Follows.ite h.then_wr.then_dieSensor h).then_onUnit
  · exact (Follows.ite h.then_modPower.then_dieSensor h).then_onUnit
  · exact (Follows.ite h (Follows.ite hs1.then_raise hs1)).next
  · refine Follows.then_onUnit ?_
    split
    · exact h
    · extract_lets old s11 s2
      have hs11 : Follows o s11 := h.then_wr
      have hs2 : Follows o s2 := Follows.ite hs11.then_raise hs11
      exact Follows.ite (hs2.foldl (fun _ _ hu => hu.then_portChange)) hs2

theorem Follows.then_controlDie {y : ControlIn} {d : Nat} (h : Follows o s) : Follows o (controlDie y s d) := by
  unfold controlDie
  extract_lets th s1 s2 on vcap vpace set floor term duty
  have hs1 : Follows o s1 := h.then_modPower
  have hs2 : Follows o s2 := Follows.ite hs1.then_raise hs1
  exact Follows.ite hs2 hs2.then_modPower.then_wrF.then_wrF.then_wrF

theorem Follows.then_newHeadroom {d : Nat} (h : Follows o s) : Follows o (newHeadroom s d) :=
  h.of_eq rfl rfl rfl rfl

theorem Follows.then_calTake (h : Follows o s) : Follows o (calTake s) := by
  unfold calTake
  split
  · exact h
  · exact h.same

theorem Follows.then_controlPeriod {y : ControlIn} (h : Follows o s) : Follows o (controlPeriod y s) := by
  unfold controlPeriod
  split
  · exact h
  · extract_lets s1 s2 s3
    have hs2 : Follows o s2 := (h.then_calTake.foldl (fun _ _ hu => hu.then_controlDie)).foldl fun _ _ hu => hu.then_newHeadroom
    have hs3 : Follows o s3 := Follows.ite hs2.then_raise hs2
    exact Follows.ite hs3.then_raise hs3

theorem Follows.then_execFastLimiter {avgW : Nat} (h : Follows o s) : OutFollows o (execFastLimiter avgW s) := by
  unfold execFastLimiter
  refine Follows.next ?_
  split
  · exact h
  · split
    · exact Follows.ite h.then_modPower.then_raise h
    · exact h.then_modPower.foldl fun _ _ hu => Follows.ite hu.then_wrF.then_setRail hu.then_wrF.then_wrF

theorem Follows.then_learnDie {d measured : Nat} (h : Follows o s) : Follows o (learnDie s d measured) :=
  Follows.ite h h.then_freeNext.then_wr

theorem Follows.then_relearnNow (h : Follows o s) : Follows o (relearnNow s) := by
  unfold relearnNow
  extract_lets s1
  have hs1 : Follows o s1 := h.foldl fun _ _ hu => hu.then_wr
  exact Follows.ite hs1.then_wr hs1

theorem Follows.then_execRelearn (h : Follows o s) : OutFollows o (execRelearn s) :=
  (Follows.ite h (Follows.ite h.then_modPower h.then_relearnNow)).next

theorem Follows.then_measureRegs {y : MeasureIn} (h : Follows o s) : Follows o (measureRegs y s) := by
  unfold measureRegs
  extract_lets uw w e h1 s1 s2
  exact h.then_wrF.then_wrF.then_wr.then_wr.then_wr64.then_modPower.foldl fun _ _ hu => hu.then_wrF.then_wr.then_wrF

theorem Follows.then_execMeasurementWindow {y : MeasureIn} (h : Follows o s) : OutFollows o (execMeasurementWindow y s) := by
  unfold execMeasurementWindow
  refine Follows.next ?_
  split
  · exact h
  · extract_lets pin pest s1 diff frozen streak s3 s2 s4
    have hs1 : Follows o s1 := h.then_measureRegs
    have hs3 : Follows o s3 := hs1.then_wr.then_inc.then_raise
    have hs2 : Follows o s2 := by
      unfold s2
      split
      · exact hs1
      · exact Follows.ite (Follows.ite (Follows.ite hs3.then_raise hs3) hs1.then_wrF) hs1.then_wrF
    have hs4 : Follows o s4 := by
      unfold s4
      split
      · exact hs2
      · split
        · exact hs2.then_relearnNow
        · exact Follows.ite (hs2.foldl (fun _ _ hu => hu.then_learnDie)) hs2
    exact hs4.then_modPower

theorem Follows.then_paceTick {j : Nat} (h : Follows o s) : Follows o (paceTick s j) :=
  h.of_eq rfl rfl rfl rfl

theorem Follows.then_paceEval {j share : Nat} (h : Follows o s) : Follows o (paceEval s j share) := by
  unfold paceEval
  extract_lets o1 restart ceil n floor k k1
  split
  · exact h.then_modPower.then_wr
  · split
    · exact h.then_modPower
    · split
      · exact Follows.ite h.then_modPower.then_wr.then_raise h.then_modPower
      · exact Follows.ite (Follows.ite h.then_modPower.then_wr h.then_modPower) h.then_modPower

theorem Follows.then_execPaceWindow {j waitUs : Nat} (h : Follows o s) : OutFollows o (execPaceWindow j waitUs s) :=
  (Follows.ite h h.then_modPower.then_wr.then_wr64.then_inc.then_paceEval).then_onUnit

/-! Machine/Hostc. -/

theorem Follows.then_setEnabled {p : Page} {v : Bool} (h : Follows o s) : Follows o (setEnabled s p v) :=
  h.then_wrF.then_wrF

theorem Follows.then_hostStop (h : Follows o s) : Follows o (hostStop s) :=
  h.of_eq rfl rfl rfl rfl

theorem Follows.then_hostReset {cause : Nat} (h : Follows o s) : Follows o (hostReset s cause) := by
  unfold hostReset
  extract_lets s0 s1 s2
  have hs1 : Follows o s1 := h.then_hostStop.then_setReqs.then_inc.then_wr.then_wr
  exact ((hs1.foldl (fun _ _ hu => Follows.ite hu.then_setQState.then_raise hu)).then_raise).then_raise

theorem Follows.then_startHart0 {entry : Nat} (h : Follows o s) : Follows o (startHart0 s entry) :=
  h.of_eq rfl rfl rfl rfl

theorem Follows.then_startHost {entry : Nat} (h : Follows o s) : Follows o (startHost s entry) :=
  h.then_memWrite.then_startHart0

theorem Follows.then_execXcLinkError {k : XC} (h : Follows o s) : OutFollows o (execXcLinkError k s) := by
  unfold execXcLinkError
  refine Follows.then_onUnit ?_
  split
  · exact h
  · exact Follows.ite h (Follows.ite h.same.then_inc.then_raise h.same.then_inc.then_raise)

theorem Follows.then_execXcRetrainComplete {k : XC} (h : Follows o s) : OutFollows o (execXcRetrainComplete k s) := by
  unfold execXcRetrainComplete
  refine Follows.then_onUnit ?_
  split
  · exact h
  · exact h.same

theorem Follows.then_xc4FailCmd {c : Cmd} (h : Follows o s) : Follows o (xc4FailCmd s c) := by
  unfold xc4FailCmd
  split
  · exact Follows.ite h.then_freeNext.then_modCmd.then_cmdFail.then_raise h.then_freeNext
  · exact h

theorem Follows.then_xc4LoseStores (h : Follows o s) : Follows o (xc4LoseStores s) := by
  unfold xc4LoseStores
  extract_lets n a s1
  have hs1 : Follows o s1 := h.then_freeNext.then_freeNext
  exact Follows.ite hs1 (hs1.then_inc.then_wr64.foldl (fun _ _ hu => hu.then_raise))

theorem Follows.then_xc4FaultHarts (h : Follows o s) : Follows o (xc4FaultHarts s) := by
  unfold xc4FaultHarts
  refine h.foldl fun t n1 ht => ?_
  split
  · exact Follows.ite ht.then_freeNext.then_hartFault ht.then_freeNext
  · exact ht

theorem Follows.then_xcFailBlock {t : Nat} {b : Block} (h : Follows o s) : Follows o (xcFailBlock s t b) := by
  unfold xcFailBlock
  extract_lets s1
  have hs1 : Follows o s1 := h.then_freeNext.then_freeNext.then_freeNext.then_freeNext
  exact Follows.ite hs1.then_blockFault hs1

theorem Follows.then_xcFailBlocks {t : Nat} (h : Follows o s) : Follows o (xcFailBlocks s t) :=
  h.foldl fun _ _ hu => hu.then_xcFailBlock

theorem Follows.then_xcFailDma {t : Nat} (h : Follows o s) : Follows o (xcFailDma s t) := by
  unfold xcFailDma
  refine h.foldl fun t1 j1 ht1 => ?_
  split
  · exact ht1
  · split
    · exact (Follows.ite ht1.then_freeNext.then_dmaWriteLost ht1.then_freeNext).then_dmaFailJob
    · exact ht1.then_freeNext

theorem Follows.then_execXcRetrainTimeout {k : XC} (h : Follows o s) : OutFollows o (execXcRetrainTimeout k s) := by
  unfold execXcRetrainTimeout
  refine Follows.then_onUnit ?_
  split
  · exact h
  · split
    · exact h
    · split
      · exact h
      · extract_lets s1 s2 s3 s21 ts
        have hs1 : Follows o s1 := h.same.then_wrF
        have hs2 : Follows o s2 := hs1.then_raise.then_raise
        have hs3 : Follows o s3 := ((hs2.foldl (fun _ _ hu => hu.then_xc4FailCmd)).then_xc4LoseStores).then_xc4FaultHarts
        split
        · exact Follows.ite hs3.then_moduleFatal hs3
        · exact hs1.then_inc.then_raise.then_raise.foldl fun _ _ hu => hu.then_xcFailDma.then_xcFailBlocks

theorem Follows.then_mgmtSend {f : MgmtFrame} (h : Follows o s) : Follows o (mgmtSend s f) :=
  h.of_eq rfl rfl rfl rfl

theorem Follows.then_dhcpStart (h : Follows o s) : Follows o (dhcpStart s) := by
  unfold dhcpStart
  extract_lets mg s1 xid
  have hs1 : Follows o s1 := h.same
  exact Follows.ite hs1.then_freeNext.same.then_mgmtSend hs1

theorem Follows.then_dhcpExpire (h : Follows o s) : Follows o (dhcpExpire s) := by
  unfold dhcpExpire
  split
  · exact Follows.ite h.then_dhcpStart h
  · exact h

theorem Follows.then_mgmtDown (h : Follows o s) : Follows o (mgmtDown s) :=
  Follows.ite h.then_wr.then_raise.then_toHoldover h

theorem Follows.then_execPllLockLoss {i : Island} (h : Follows o s) : OutFollows o (execPllLockLoss i s) := by
  unfold execPllLockLoss
  split
  · exact (Follows.ite h.then_raise.then_moduleFatal.same h).next
  · exact (Follows.ite h (Follows.ite h.then_raise h.then_raise.then_modMem)).then_onUnit
  · exact (Follows.ite (h.then_raise.foldl (fun _ _ hu => hu.then_startRetrain)) h).then_onUnit
  · exact (Follows.ite h.then_raise.then_mgmtDown h).next
  · exact (Follows.ite h.then_raise.then_moduleFatal.same h).next

end

end Sys2Proof.Machine
end

section
/-! SUPPORT. What every step keeps (O5): Palur's services, firmware and bring-up. -/

namespace Sys2Proof.Machine

open Sys2Proof

section
variable {o s : State}

/-! Machine/Palur. -/

theorem Follows.then_modStore {f : Store → Store} (h : Follows o s) : Follows o (s.modStore f) :=
  h.of_eq rfl rfl rfl rfl

theorem Follows.then_modPalur {f : PalurSt → PalurSt} (h : Follows o s) : Follows o (s.modPalur f) :=
  h.of_eq rfl rfl rfl rfl

theorem Follows.then_loadSets {p : Page} {l : List Nat} (h : Follows o s) : Follows o (loadSets s p l) :=
  h.foldl fun _ _ hu => hu.then_wr.then_wr

theorem Follows.then_loadStored (h : Follows o s) : Follows o (loadStored s) :=
  h.then_loadSets.then_loadSets

theorem Follows.then_putRec {k : Nat} {r : KeptRec} (h : Follows o s) : Follows o (putRec s k r) := by
  unfold putRec
  split
  · exact h.then_modStore
  · exact h.then_modStore
  · exact h.then_modStore.same
  · exact h.then_modStore

theorem Follows.then_migrateRec {k n : Nat} (h : Follows o s) : Follows o (migrateRec s k n) := by
  unfold migrateRec
  exact (Follows.ite h.then_putRec.then_modStore h.then_putRec).then_raise

theorem Follows.then_reuseRec {k n : Nat} (h : Follows o s) : Follows o (reuseRec s k n) := by
  unfold reuseRec
  split
  · exact h.then_modStore.then_putRec
  · exact h

theorem Follows.then_settleRec {x : Image} {live : Bool} {k : Nat} (h : Follows o s) : Follows o (settleRec x live s k) := by
  unfold settleRec
  extract_lets n s1 ship
  have hs1 : Follows o s1 := h.then_reuseRec
  split
  · exact Follows.ite h.then_raise (Follows.ite h.then_migrateRec h)
  · split
    · exact hs1.then_modStore.then_putRec.then_raise
    · split
      · exact hs1.then_modStore.then_putRec.then_raise
      · exact Follows.ite hs1.then_migrateRec hs1

theorem Follows.then_settleRecs {x : Image} {live : Bool} (h : Follows o s) : Follows o (settleRecs x live s) :=
  h.foldl fun _ _ hu => hu.then_settleRec

theorem Follows.then_refreshSet {p : Page} {l : List Nat} (h : Follows o s) : Follows o (refreshSet s p l) :=
  Follows.ite h h.then_loadSets

theorem Follows.then_settleLive {x : Image} (h : Follows o s) : Follows o (settleLive s x) :=
  h.then_settleRecs.then_refreshSet.then_refreshSet

theorem Follows.then_settle {x : Image} (h : Follows o s) : Follows o (settle s x) :=
  h.then_settleRecs.then_loadStored

theorem Follows.then_loadStacks (h : Follows o s) : Follows o (loadStacks s) :=
  (h.foldl (fun _ _ hu => hu.then_wr64)).foldl fun _ _ hu => hu.then_wrF

theorem Follows.then_stageEnd {rom : Bool} (h : Follows o s) : Follows o (stageEnd s rom) := by
  unfold stageEnd
  extract_lets x s1 s2 s3
  have hs2 : Follows o s2 := h.same.then_modPalur.then_loadStacks.foldl fun _ _ hu => hu.then_setEnabled
  have hs3 : Follows o s3 := Follows.ite hs2.then_setEnabled hs2
  exact Follows.ite hs3.then_raise.then_modStore hs3

theorem Follows.then_stageA (h : Follows o s) : Follows o (stageA s) := by
  unfold stageA
  extract_lets a b
  split
  · clear_value a
    split
    · exact h.then_settle.then_stageEnd
    · exact h
  · clear_value b
    split
    · exact h.then_modStore.then_settle.then_stageEnd.then_raise
    · exact h
  · exact h.then_loadStored.then_stageEnd

theorem Follows.then_moduleReset (h : Follows o s) : Follows o (moduleReset s) := by
  refine Follows.then_stageA (h.of_canonical ?_ ?_)
  · rfl
  · exact fun _ => ⟨rfl, rfl, rfl⟩

theorem Follows.then_resetEndsDebug (h : Follows o s) : Follows o (resetEndsDebug s) :=
  Follows.ite h.then_moduleReset h.then_moduleReset.then_raise

theorem Follows.then_reply {r : PReq} {status : Nat} {payload : List Byte} (h : Follows o s) :
    Follows o (reply s r status payload) := by
  unfold reply
  extract_lets m b
  split
  · exact ((h.foldl (fun _ _ hu => hu.then_wr)).then_wrF).then_raise
  · exact h.then_modPalur

theorem Follows.then_setResult {code off : Nat} (h : Follows o s) : Follows o (setResult s code off) :=
  h.of_eq rfl rfl rfl rfl

theorem Follows.then_failed {r : PReq} {code : Nat} (h : Follows o s) : Follows o (failed s r code) :=
  h.then_setResult.then_reply

theorem Follows.then_serveBad {n : Nat} (h : Follows o s) : Follows o (serveBad n s) := by
  induction n generalizing s with
  | zero => exact h
  | succ n ih =>
    unfold serveBad
    split
    · exact h
    · split
      · exact Follows.ite (ih h.then_modPalur.then_reply) h
      · exact h

theorem Follows.then_serveRest (h : Follows o s) : Follows o (serveRest s) :=
  h.then_serveBad

theorem Follows.then_serveReq {row : Nat} {f : PReq → State → State}
    (h : Follows o s) (hf : ∀ x u, Follows o u → Follows o (f x u)) : OutFollows o (serveReq row s f) := by
  unfold serveReq
  refine Follows.next ?_
  split
  · exact h
  · extract_lets s1
    have hs1 : Follows o s1 := h.then_modPalur
    exact (Follows.ite hs1.then_failed (Follows.ite hs1.then_reply (hf _ _ hs1))).then_serveRest

theorem Follows.then_serveLong {row : Nat} {f : PReq → State → State}
    (h : Follows o s) (hf : ∀ x u, Follows o u → Follows o (f x u)) : OutFollows o (serveLong row s f) :=
  h.then_serveReq (fun _ _ hu => Follows.ite hu.then_reply (hf _ _ hu))

theorem Follows.then_longStart {x : LongOp} {unit shift : Nat} (h : Follows o s) : Follows o (longStart s x unit shift) :=
  h.then_opStart.then_modPalur

theorem Follows.then_longDone {pos : Nat} (h : Follows o s) : Follows o (longDone s pos) :=
  h.then_modPalur.then_opDone

theorem Follows.then_longFail {code off : Nat} (h : Follows o s) : Follows o (longFail s code off) :=
  h.then_setResult.then_modPalur.then_opFail

theorem Follows.then_execMbxOwnerWrite {v : BitVec 8} (h : Follows o s) : OutFollows o (execMbxOwnerWrite v s) :=
  (Follows.ite h (Follows.ite h.then_illegalWrite (Follows.ite h.then_wr h))).next

theorem Follows.then_execMbxGo (h : Follows o s) : OutFollows o (execMbxGo s) :=
  (Follows.ite h (Follows.ite h.then_wrF h.then_wr.then_modPalur.then_serveRest)).next

theorem Follows.then_authFail (h : Follows o s) : Follows o (authFail s) :=
  h.then_inc.then_raise

theorem Follows.then_acceptDatagram {σ seq : Nat} {msg : List Byte} (h : Follows o s) :
    Follows o (acceptDatagram s σ seq msg) := by
  unfold acceptDatagram
  extract_lets old s1
  clear_value old
  split
  · exact Follows.ite h.then_inc.then_raise h.then_inc.then_modPalur.then_serveRest
  · exact h.then_modStore.then_inc.then_modPalur.then_serveRest

theorem Follows.then_execMgmtDatagram {d : List Byte} (h : Follows o s) : OutFollows o (execMgmtDatagram d s) := by
  unfold execMgmtDatagram
  refine Follows.next ?_
  split
  · exact h
  · extract_lets s1 σ seq
    have hs1 : Follows o s1 := h.then_inc
    split
    · exact hs1.then_authFail
    · split
      · exact hs1.then_authFail
      · split
        · exact hs1.then_modPalur
        · split
          · exact hs1.then_authFail
          · split
            · exact hs1.then_authFail
            · split
              · exact hs1.then_authFail
              · exact hs1.then_acceptDatagram

theorem Follows.then_dhcpHears {kind : DhcpKind} {xid addr server plen gateway secs : Nat} (h : Follows o s) :
    Follows o (dhcpHears s kind xid addr server plen gateway secs) := by
  unfold dhcpHears
  split
  · exact h
  · split
    · exact Follows.ite h.same.then_mgmtSend h
    · exact Follows.ite h.same h
    · exact Follows.ite h.then_dhcpStart h

theorem Follows.then_frameHeard {k : FrameKind} (h : Follows o s) : Follows o (frameHeard k s) := by
  unfold frameHeard
  split
  · exact h.then_inc
  · exact Follows.ite h.then_mgmtSend h
  · exact Follows.ite h.then_mgmtSend h
  · exact Follows.ite h.then_mgmtSend h
  · exact h.then_dhcpHears

theorem Follows.then_execGetInfo (h : Follows o s) : OutFollows o (execGetInfo s) :=
  h.then_serveReq (fun _ _ hu => hu.then_reply)

theorem Follows.then_execGetResult (h : Follows o s) : OutFollows o (execGetResult s) :=
  h.then_serveReq (fun _ _ hu => hu.then_reply)

theorem Follows.then_execErrlogRead (h : Follows o s) : OutFollows o (execErrlogRead s) :=
  h.then_serveReq (fun _ _ hu => hu.then_reply)

theorem Follows.then_execHostReset (h : Follows o s) : OutFollows o (execHostReset s) :=
  h.then_serveReq (fun _ _ hu => hu.then_reply.then_hostReset)

theorem Follows.then_execModuleReset (h : Follows o s) : OutFollows o (execModuleReset s) :=
  h.then_serveReq (fun _ _ hu => hu.then_reply.then_resetEndsDebug)

/-! Machine/Firmware. -/

theorem Follows.then_readFile {a n : Nat} (h : Follows o s) : Follows o (readFile s a n).1 := by
  unfold readFile
  extract_lets bound
  split
  · exact h.pair
  · split <;> next e => exact (h.then_memRead.of_fst e).pair

theorem Follows.then_setStaged {x : Option Image} (h : Follows o s) : Follows o (setStaged s x) :=
  h.of_eq rfl rfl rfl rfl

theorem Follows.then_stageStart {x : LongOp} (h : Follows o s) : Follows o (stageStart s x) :=
  h.then_setStaged.then_longStart

theorem Follows.then_stageFail {code off : Nat} (h : Follows o s) : Follows o (stageFail s code off) :=
  h.then_raise.then_longFail

theorem Follows.then_execFwStageHost (h : Follows o s) : OutFollows o (execFwStageHost s) :=
  h.then_serveLong (fun _ _ hu => hu.then_reply.then_stageStart)

theorem Follows.then_chunkProgress {got : List Byte} (h : Follows o s) : Follows o (chunkProgress s got) :=
  Follows.ite h h.then_opProgress

theorem Follows.then_takeChunk {r : PReq} {got : List Byte} (h : Follows o s) : Follows o (takeChunk r got s) := by
  unfold takeChunk
  extract_lets b last h1 crossing e s1
  have hs1 : Follows o s1 := h.then_modPalur.then_chunkProgress
  exact Follows.ite hs1.then_reply.then_stageFail hs1.then_reply

theorem Follows.then_execFwStageChunk (h : Follows o s) : OutFollows o (execFwStageChunk s) := by
  unfold execFwStageChunk
  refine h.then_serveReq (fun r1 t ht => ?_)
  split
  · exact Follows.ite ht.then_stageStart.then_takeChunk ht.then_failed
  · exact Follows.ite ht.then_takeChunk ht.then_reply.then_stageFail
  · exact ht.then_reply

theorem Follows.then_execFwStageAbort (h : Follows o s) : OutFollows o (execFwStageAbort s) := by
  unfold execFwStageAbort
  refine h.then_serveReq (fun r1 t ht => ?_)
  split
  · exact ht.then_reply.then_stageFail
  · exact ht.then_reply

theorem Follows.then_longSource (h : Follows o s) : Follows o (longSource s).1 := by
  unfold longSource
  split
  · split
    · next e => exact (h.then_readFile.of_fst e).pair
  · exact h.pair
  · split
    · next e => exact (h.then_readFile.of_fst e).pair
  · exact h.pair
  · exact h.pair

theorem Follows.then_execFwStageComplete {storeOk : Bool} (h : Follows o s) : OutFollows o (execFwStageComplete storeOk s) := by
  unfold execFwStageComplete
  refine Follows.next ?_
  split
  · exact h
  · split
    · exact h
    · next e => exact (h.then_longSource.of_fst e).then_stageFail
    · next t _ e =>
        have ht : Follows o t := h.then_longSource.of_fst e
        split
        · split
          · exact ht.then_setStaged.then_setResult.then_modPalur.then_raise.then_opDone
          · exact ht.then_stageFail
        · exact ht.then_stageFail

theorem Follows.then_execStagingChunkTimeout (h : Follows o s) : OutFollows o (execStagingChunkTimeout s) := by
  unfold execStagingChunkTimeout
  refine Follows.next ?_
  split
  · exact Follows.ite h.then_stageFail h
  · exact Follows.ite h.then_longFail h
  · exact h

theorem Follows.then_execFwActivate (h : Follows o s) : OutFollows o (execFwActivate s) := by
  unfold execFwActivate
  refine h.then_serveLong (fun r1 t ht => ?_)
  split
  · exact ht.then_failed
  · split
    · exact ht.then_failed
    · split
      · exact ht.then_failed
      · extract_lets s1 e x
        have hs1 : Follows o s1 := ht.then_reply.then_longStart
        have hx : Follows o x := hs1.then_opProgress
        exact Follows.ite hs1.then_longFail hx.same

theorem Follows.then_execFwActivateComplete {ok : Bool} {pauseUs : Nat} (h : Follows o s) :
    OutFollows o (execFwActivateComplete ok pauseUs s) := by
  unfold execFwActivateComplete
  refine Follows.next ?_
  split
  · extract_lets x s0 s1 s2
    have hx : Follows o x := h.then_modPalur
    have hs0 : Follows o s0 := hx.same
    have hs2 : Follows o s2 := hs0.then_modStore.then_settleLive.then_setResult.then_raise.then_longDone
    refine Follows.then_serveRest ?_
    split
    · exact Follows.ite hs2.then_hostReset hs2
    · exact hs0.then_modStore.then_raise.then_longFail
  · exact h

theorem Follows.then_lessDisturb (h : Follows o s) : Follows o (lessDisturb s) :=
  Follows.ite h h.then_clearDisturb

theorem Follows.then_endDebug (h : Follows o s) : Follows o (endDebug s) :=
  Follows.ite h h.then_modPalur.then_lessDisturb.then_raise

theorem Follows.then_toLifecycle {n : Nat} (h : Follows o s) : Follows o (toLifecycle s n) :=
  h.then_modStore.then_resetEndsDebug.then_raise

theorem Follows.then_tokenEffect {b : List Byte} (h : Follows o s) : Follows o (tokenEffect s b) := by
  unfold tokenEffect
  split
  · exact h.then_modPalur.then_lessDisturb
  · exact h.then_modPalur.then_lessDisturb
  · exact h.then_toLifecycle
  · exact h.then_modStore.then_toLifecycle
  · exact h.then_toLifecycle
  · exact h.then_modStore

theorem Follows.then_execDebugTokenPresent (h : Follows o s) : OutFollows o (execDebugTokenPresent s) := by
  unfold execDebugTokenPresent
  refine h.then_serveReq (fun r1 t ht => ?_)
  extract_lets last data
  split
  · exact Follows.ite ht.then_reply ht.then_reply.then_longStart
  · split
    · exact Follows.ite ht.then_reply.then_longStart ht.then_failed
    · exact Follows.ite ht.then_reply.then_modPalur ht.then_reply.then_longFail
    · exact ht.then_reply

theorem Follows.then_execTokenVerifyComplete (h : Follows o s) : OutFollows o (execTokenVerifyComplete s) := by
  unfold execTokenVerifyComplete
  refine Follows.next ?_
  split
  · exact h
  · split
    · exact h
    · next e => exact (h.then_longSource.of_fst e).then_modPalur.then_raise.then_longFail
    · next t _ e =>
        have ht : Follows o t := h.then_longSource.of_fst e
        extract_lets c s2
        have hs2 : Follows o s2 := ht.then_modPalur
        split
        · exact hs2.then_setResult.then_raise.then_longDone.then_tokenEffect
        · exact hs2.then_raise.then_longFail

theorem Follows.then_drawBytes {n : Nat} (h : Follows o s) : Follows o (drawBytes s n).1 :=
  h.then_modPalur.pair

theorem Follows.then_execDebugTokenChallenge (h : Follows o s) : OutFollows o (execDebugTokenChallenge s) := by
  unfold execDebugTokenChallenge
  refine h.then_serveReq (fun r1 t ht => ?_)
  split
  · next e => exact (ht.then_drawBytes.of_fst e).then_modPalur.then_reply

theorem Follows.then_execChallengeLapse (h : Follows o s) : OutFollows o (execChallengeLapse s) := by
  unfold execChallengeLapse
  refine Follows.next ?_
  split
  · exact Follows.ite h.then_modPalur h
  · exact h

theorem Follows.then_execDebugTokenDeploy (h : Follows o s) : OutFollows o (execDebugTokenDeploy s) :=
  h.then_serveReq (fun _ _ hu => Follows.ite hu.then_reply hu.then_reply.then_toLifecycle)

theorem Follows.then_execDebugTokenMgmtKey (h : Follows o s) : OutFollows o (execDebugTokenMgmtKey s) :=
  h.then_serveReq (fun _ _ hu => Follows.ite hu.then_reply.then_modStore.then_modPalur hu.then_reply)

theorem Follows.then_execDebugTokenEnd (h : Follows o s) : OutFollows o (execDebugTokenEnd s) :=
  h.then_serveReq (fun _ _ hu => hu.then_reply.then_endDebug)

theorem Follows.then_execAttestReport (h : Follows o s) : OutFollows o (execAttestReport s) :=
  h.then_serveLong (fun _ _ hu => hu.then_reply.then_longStart.then_modPalur)

theorem Follows.then_execAttestSignComplete (h : Follows o s) : OutFollows o (execAttestSignComplete s) := by
  unfold execAttestSignComplete
  refine Follows.next ?_
  split
  · exact Follows.ite h h.then_setResult.then_modPalur.then_longDone
  · exact h

theorem Follows.then_readPiece {r : PReq} {b : List Byte} (h : Follows o s) : Follows o (readPiece s r b) :=
  Follows.ite h.then_reply h.then_reply

theorem Follows.then_execAttestRead (h : Follows o s) : OutFollows o (execAttestRead s) := by
  unfold execAttestRead
  refine h.then_serveReq (fun r1 t ht => ?_)
  split
  · exact ht.then_reply
  · exact ht.then_readPiece
  · exact ht.then_reply

theorem Follows.then_execAttestBurgee (h : Follows o s) : OutFollows o (execAttestBurgee s) :=
  h.then_serveReq (fun _ _ hu => hu.then_readPiece)

theorem Follows.then_execCalRead (h : Follows o s) : OutFollows o (execCalRead s) := by
  unfold execCalRead
  refine h.then_serveReq (fun r1 t ht => ?_)
  split
  · exact ht.then_readPiece
  · split
    · exact ht.then_readPiece
    · exact ht.then_reply

theorem Follows.then_execCalWriteData (h : Follows o s) : OutFollows o (execCalWriteData s) :=
  h.then_serveReq (fun _ _ hu => Follows.ite hu.then_reply (Follows.ite hu.then_reply hu.then_modPalur.then_reply))

theorem Follows.then_execCalCommit (h : Follows o s) : OutFollows o (execCalCommit s) := by
  unfold execCalCommit
  refine h.then_serveReq (fun r1 t ht => ?_)
  split
  · exact ht.then_reply
  · split
    · exact ht.then_reply
    · exact Follows.ite ht.then_reply ht.then_modPalur.then_modStore.then_reply.then_raise

theorem Follows.then_execCalDiscard (h : Follows o s) : OutFollows o (execCalDiscard s) :=
  h.then_serveReq (fun _ _ hu => Follows.ite hu.then_modPalur.then_reply hu.then_reply)

/-! Machine/Bringup. -/

theorem Follows.then_bringNet {env : BringupEnv} (h : Follows o s) : Follows o (bringNet env s) :=
  h.then_wr64.then_wr64.then_wr.then_setEnabled.then_setEnabled.foldl fun _ _ hu => hu.then_raise

theorem Follows.then_trainFail {n : Nat} (h : Follows o s) : Follows o (trainFail s n) := by
  unfold trainFail
  exact h.then_wr64.then_raise

theorem Follows.then_bringTrain {env : BringupEnv} (h : Follows o s) : Follows o (bringTrain env s) := by
  unfold bringTrain
  extract_lets s1 s2
  exact ((h.foldl (fun _ _ hu => hu.then_opStart)).foldl (fun _ _ hu => hu.then_trainFail)).foldl fun _ _ hu => hu.then_opDone

theorem Follows.then_foldPc {n : Nat} (h : Follows o s) : Follows o (foldPc s n) := by
  unfold foldPc
  extract_lets st
  refine h.foldl fun t q1 ht => ?_
  extract_lets g
  split
  · exact ht
  · split
    · exact ht
    · exact ht.then_modMem

theorem Follows.then_bringMap {key : Nat} {l : List Nat} (h : Follows o s) : Follows o (bringMap key l s) := by
  unfold bringMap
  extract_lets s0 k e s1 s2
  have hs0 : Follows o s0 := Follows.ite h.then_modPalur h
  have hs1 : Follows o s1 := hs0.then_modStore.foldl fun _ _ hu => hu.then_wr64.then_wr64
  have hs2 : Follows o s2 := hs1.foldl fun _ _ hu => hu.then_wr64
  exact hs2.then_modMem.foldl fun _ _ hu => hu.then_foldPc

theorem Follows.then_bringInit (h : Follows o s) : Follows o (bringInit s) :=
  (h.of_canonical (t := { s with hbm := [], raw := [] }) rfl fun c => ⟨c.1, rfl, c.2.2⟩).foldl fun _ _ hu => hu.then_opStart.then_opDone

theorem Follows.then_bringEnable (h : Follows o s) : Follows o (bringEnable s) := by
  unfold bringEnable
  extract_lets s1
  exact (h.foldl (fun _ _ hu => hu.then_setEnabled.then_setEnabled)).foldl fun _ _ hu => hu.then_setEnabled

theorem Follows.then_bringTiles (h : Follows o s) : Follows o (bringTiles s) :=
  h.then_railsOn.of_canonical rfl fun c => ⟨c.1, c.2.1, rfl⟩

theorem Follows.then_tileFails {t : Nat} (h : Follows o s) : Follows o (tileFails s t) :=
  h.then_setEnabled.then_wrF

theorem Follows.then_bringTest {env : BringupEnv} {bist : Bool} (h : Follows o s) : Follows o (bringTest env bist s) :=
  Follows.ite (h.foldl (fun _ _ hu => hu.then_tileFails)) h

theorem Follows.then_bringFail {code : Nat} (h : Follows o s) : Follows o (bringFail s code) :=
  h.then_wrF.then_setResult.then_opFail

theorem Follows.then_bringAt {n : Nat} (h : Follows o s) : Follows o (bringAt s n) :=
  h.then_opProgress

theorem Follows.then_bringUp {env : BringupEnv} {key : Nat} {bist : Bool} (h : Follows o s) :
    Follows o (bringUp env key bist s) := by
  unfold bringUp
  extract_lets s0 s1 s2 l s3
  have hs1 : Follows o s1 := h.then_modPalur.then_opStart.then_bringNet
  have hs2 : Follows o s2 := hs1.then_bringAt.then_bringTrain.then_bringAt
  split
  · exact hs1.then_bringFail
  · split
    · exact (hs2.foldl (fun _ _ hu => hu.then_raise)).then_bringFail
    · exact hs2.then_bringMap.then_bringInit.then_bringEnable.then_bringTiles.then_bringTest.then_setResult.then_startHost.then_opDone

theorem Follows.then_execBringupRun {env : BringupEnv} (h : Follows o s) : OutFollows o (execBringupRun env s) :=
  h.then_serveLong (fun _ _ hu => Follows.ite hu.then_failed hu.then_reply.then_bringUp)

theorem Follows.then_setPower {n : Nat} (h : Follows o s) : Follows o (setPower s n) :=
  h.then_wrF

theorem Follows.then_longAll {n : Nat} (h : Follows o s) : Follows o (longAll s n) :=
  h.then_setResult.then_opDone

theorem Follows.then_execSleepEnterP1 (h : Follows o s) : OutFollows o (execSleepEnterP1 s) := by
  unfold execSleepEnterP1
  refine h.then_serveLong (fun r1 t ht => ?_)
  split
  · exact ht.then_failed
  · split
    · exact ht.then_failed
    · exact ht.then_reply.then_opStart.then_railsOff.then_setPower.then_clearGated.then_longAll

theorem Follows.then_hostFlush (h : Follows o s) : Follows o (hostFlush s) :=
  (h.then_hostDrain.foldl (fun _ _ hu => hu.then_lineBack)).same

theorem Follows.then_execSleepEnterP2 (h : Follows o s) : OutFollows o (execSleepEnterP2 s) := by
  unfold execSleepEnterP2
  refine h.then_serveLong (fun r1 t ht => ?_)
  split
  · exact ht.then_failed
  · split
    · exact ht.then_failed
    · extract_lets s1 x s2 s3
      have hs1 : Follows o s1 := ht.then_reply.then_opStart.then_railsOff
      have hs3 : Follows o s3 := hs1.same.then_hostFlush.then_setPower.then_lessDisturb.foldl fun _ _ hu => hu.then_portChange
      exact hs3.then_modMem.then_longAll

theorem Follows.then_execSleepEnterP3 (h : Follows o s) : OutFollows o (execSleepEnterP3 s) :=
  h.then_serveLong (fun _ _ hu => hu.then_reply.then_modLog.then_powerDown)

theorem Follows.then_staleUnit {p : Page} (h : Follows o s) : Follows o (staleUnit s p) :=
  (Follows.ite h.then_connFailAll h).then_quarantine

theorem Follows.then_leaveP2 (h : Follows o s) : Follows o (leaveP2 s) := by
  unfold leaveP2
  extract_lets s1 s2 s3 s4
  have hs1 : Follows o s1 := h.then_setPower.then_modMem.then_railsOn
  have hs3 : Follows o s3 := (hs1.foldl (fun _ _ hu => Follows.ite hu.then_ungate hu)).foldl fun _ _ hu => hu.then_staleUnit
  exact (hs3.then_startHart0.foldl (fun _ _ hu => hu.then_portChange)).then_logDrain

theorem Follows.then_execSleepExit (h : Follows o s) : OutFollows o (execSleepExit s) := by
  unfold execSleepExit
  refine h.then_serveLong (fun r1 t ht => ?_)
  split
  · exact ht.then_reply.then_opStart.then_leaveP1.then_longAll
  · exact ht.then_reply.then_opStart.then_leaveP2.then_longAll
  · exact ht.then_failed

theorem Follows.then_tileTest {kind : Nat} {r : PReq} (h : Follows o s) : Follows o (tileTest kind r s) :=
  Follows.ite h.then_failed h.then_reply.then_longStart

theorem Follows.then_execSelfTestLoopback (h : Follows o s) : OutFollows o (execSelfTestLoopback s) :=
  h.then_serveLong (fun _ _ hu => Follows.ite hu.then_failed hu.then_reply.then_longStart)

theorem Follows.then_crossFails {n : Nat} (h : Follows o s) : Follows o (crossFails s n) :=
  Follows.ite h.same.then_wrF (Follows.ite h.same.then_wrF h.same.then_wrF)

theorem Follows.then_execSelfTestComplete {fails : List Nat} (h : Follows o s) : OutFollows o (execSelfTestComplete fails s) := by
  unfold execSelfTestComplete
  refine Follows.next ?_
  split
  · split
    · exact h
    · extract_lets bad s1
      have hs1 : Follows o s1 := ((h.foldl (fun _ _ hu => hu.then_crossFails)).then_setResult).then_longDone
      exact Follows.ite hs1.then_moduleFatal hs1
  · split
    · exact h
    · extract_lets bad s1
      exact (((h.foldl (fun _ _ hu => hu.then_scrubTile.then_setTile)).foldl (fun _ _ hu => hu.then_tileFails)).then_modPalur).then_longDone
  · exact h

end

end Sys2Proof.Machine
end

section
/-! What every step keeps (O5): register pages, thread instructions, the tick, the dispatch of commands, and the step itself. -/

namespace Sys2Proof.Machine

open Sys2Proof

section
variable {o s : State}

/-! Machine/Pages. -/

theorem Follows.then_shadowWrite {p : Page} {off v : Nat} (h : Follows o s) : Follows o (shadowWrite s p off v) := by
  unfold shadowWrite
  split
  · exact h.then_raise
  · split
    · exact h.then_illegalWrite
    · exact Follows.ite h.then_wr h.then_wr.then_illegalWrite

theorem Follows.then_writeEffect {p : Page} {off : Nat} (h : Follows o s) : Follows o (writeEffect s p off) :=
  Follows.ite h.then_wr.then_modPower h

theorem Follows.then_opWrite {p : Page} {off : Nat} {r : Reg} {hm v : Nat} (h : Follows o s) :
    Follows o (opWrite s p off r hm v) := by
  unfold opWrite
  extract_lets old touched x s1
  have hs1 : Follows o s1 := (Follows.ite h.then_wr64 h.then_wr).then_writeEffect
  split
  · exact h.then_illegalWrite
  · exact Follows.ite h.then_illegalWrite (Follows.ite hs1.then_illegalWrite hs1)

theorem Follows.then_copySet {p : Page} {src dst : Nat} (h : Follows o s) : Follows o (copySet s p src dst) :=
  h.foldl fun _ _ hu => hu.then_wr

theorem Follows.then_afterSwap {s1 : State} {p : Page} (_ : Follows o s) (hs1 : Follows o s1) : Follows o (afterSwap s s1 p) := by
  unfold afterSwap
  split
  · exact Follows.ite hs1 (hs1.then_wr.then_raise.foldl (fun _ _ hu => hu.then_startRetrain))
  · exact Follows.ite hs1.then_retConfigured hs1
  · exact Follows.ite hs1.then_wr.then_wr hs1
  · exact hs1.then_rewatch
  · exact hs1.then_logDrain
  · exact Follows.ite hs1.then_modStore.then_dhcpStart hs1.then_modStore
  · exact hs1.then_modStore
  · exact hs1

theorem Follows.then_performSwap {p : Page} (h : Follows o s) : Follows o (performSwap s p) := by
  unfold performSwap
  split
  · exact h.then_wr.then_wrF.then_raise
  · exact h.then_afterSwap h.then_copySet.then_inc.then_wrF

theorem Follows.then_renewed {p : Page} (h : Follows o s) : Follows o (renewed s p) :=
  Follows.ite h.then_staleUnit h

theorem Follows.then_settleEnable {p : Page} (h : Follows o s) : Follows o (settleEnable s p) := by
  unfold settleEnable
  extract_lets on s1
  have hs1 : Follows o s1 := h.then_setEnabled.foldl fun _ _ hu => hu.then_portChange
  exact Follows.ite h (Follows.ite hs1.then_renewed (Follows.ite hs1.then_mgmtDown hs1))

theorem Follows.then_requestSwap {p : Page} (h : Follows o s) : Follows o (requestSwap s p) :=
  h.then_wrF

theorem Follows.then_loadShadow {p : Page} (h : Follows o s) : Follows o (loadShadow s p) :=
  Follows.ite h.then_raise h.then_copySet

theorem Follows.then_ctrlSets {p : Page} {swp load : Bool} (h : Follows o s) : Follows o (ctrlSets s p swp load) := by
  unfold ctrlSets
  extract_lets s1
  have hs1 : Follows o s1 := Follows.ite h.then_requestSwap h
  exact Follows.ite hs1.then_loadShadow hs1

theorem Follows.then_pointReached {p : Page} (h : Follows o s) : Follows o (pointReached s p) :=
  (Follows.ite h.then_performSwap h).then_settleEnable

theorem Follows.then_atPoint {p : Page} (h : Follows o s) : Follows o (atPoint s p) :=
  Follows.ite h.then_pointReached h

theorem Follows.then_enableWrite {p : Page} {on swp load : Bool} (h : Follows o s) : Follows o (enableWrite s p on swp load) := by
  unfold enableWrite
  extract_lets s1 s2 s3
  have hs1 : Follows o s1 := h.then_ctrlSets
  have hs2 : Follows o s2 := hs1.then_wrF
  have hs3 : Follows o s3 := Follows.ite ((hs2.foldl (fun _ _ hu => hu.then_portChange)).then_renewed) hs2
  split
  · exact hs1.then_illegalWrite
  · split
    · exact Follows.ite hs3.then_atPoint hs3.then_settleEnable
    · exact (hs2.foldl (fun _ _ hu => hu.then_portChange)).then_atPoint

theorem Follows.then_verWrite {p : Page} {v : Nat} (h : Follows o s) : Follows o (verWrite s p v) :=
  Follows.ite h.then_wrF h.then_raise

theorem Follows.then_nextOf {x : Out} (h : Follows o s) (hx : OutFollows o x) : Follows o (nextOf s x) := by
  unfold nextOf
  split
  · exact hx _ rfl
  · exact h

theorem Follows.then_ctrlAct {p : Page} {b : Nat} (h : Follows o s) : Follows o (ctrlAct p s b) := by
  unfold ctrlAct
  refine h.then_nextOf ?_
  split
  · exact (Follows.ite h.then_hostReset h).next
  · exact h.then_execScrubGo
  · exact (Follows.ite h.then_wr64.then_wr64 h).next
  · exact h.then_execRelearn
  · exact h.then_execDieRecover
  · exact h.then_execQueueArm
  · exact (Follows.ite h.then_setQState h).then_onUnit
  · exact h.then_execConnOpen
  · exact (Follows.ite h.then_modConn.then_closeIfDone h).then_onUnit
  · exact (Follows.ite h.then_mapoutConsent h).then_onUnit
  · exact (Follows.ite h.then_opStart.then_modMem h).then_onUnit
  · exact h.then_execLinkTrain
  · exact (Follows.ite h.then_linkDown h).then_onUnit
  · exact (Follows.ite h.then_bindTry h).then_onUnit
  · exact h.then_execResourceTeardown

theorem Follows.then_ctrlWrite {p : Page} {v : Nat} (h : Follows o s) : Follows o (ctrlWrite s p v) := by
  unfold ctrlWrite
  extract_lets s1 s2
  have hs2 : Follows o s2 := h.then_verWrite.then_enableWrite.foldl fun _ _ hu => hu.then_ctrlAct
  exact Follows.ite hs2 hs2.then_illegalWrite

theorem Follows.then_execControlPeriod {y : ControlIn} (h : Follows o s) : OutFollows o (execControlPeriod y s) := by
  unfold execControlPeriod
  refine Follows.next ?_
  split
  · exact h
  · exact (h.foldl (fun _ _ hu => Follows.ite hu hu.then_pointReached)).then_controlPeriod

theorem Follows.then_write32 {p : Page} {off v : Nat} (h : Follows o s) : Follows o (write32 s p off v) := by
  unfold write32
  split
  · exact h.then_ctrlWrite
  · split
    · exact h.then_illegalWrite
    · split
      · exact h.then_shadowWrite
      · split
        · exact h.then_illegalWrite
        · exact h.then_opWrite
        · exact h.then_opWrite

theorem Follows.then_write64 {p : Page} {off v : Nat} (h : Follows o s) : OptFollows o (write64 s p off v) := by
  unfold write64
  split
  · exact OptFollows.none
  · split
    · exact h.then_illegalWrite.some
    · split
      · exact h.then_opWrite.some
      · exact OptFollows.none

theorem Follows.then_pageWrite {p : Page} {off size v : Nat} (h : Follows o s) : OptFollows o (pageWrite s p off size v) := by
  unfold pageWrite
  split
  · exact h.then_write32.some
  · split
    · exact h.then_write64
    · exact OptFollows.none

theorem Follows.then_writeRefused {who : Agent} {addr : Nat} (h : Follows o s) : Follows o (writeRefused s who addr) := by
  unfold writeRefused
  split
  · exact h.then_hartFault
  · exact h

theorem Follows.then_execRegisterWrite {who : Agent} {addr size : Nat} {v : BitVec 64} (h : Follows o s) :
    OutFollows o (execRegisterWrite who addr size v s) := by
  unfold execRegisterWrite
  refine Follows.next ?_
  split
  · exact h
  · split
    · exact h.then_writeRefused
    · exact Follows.ite h (h.then_pageWrite.getD h.then_writeRefused)

theorem Follows.then_execFlagClear {p : Page} {off : Nat} {mask : BitVec 32} (h : Follows o s) :
    OutFollows o (execFlagClear p off mask s) := by
  unfold execFlagClear
  refine Follows.then_onUnit ?_
  split
  · exact h
  · split
    · exact Follows.ite h (Follows.ite h.then_wr h.then_wr.then_illegalWrite)
    · exact h

theorem Follows.then_openWindow {p : Page} (h : Follows o s) : Follows o (openWindow s p) :=
  Follows.ite h h.same

theorem Follows.then_startPhase {p : Page} (h : Follows o s) : Follows o (startPhase s p) :=
  Follows.ite h.same.then_openWindow h.same

theorem Follows.then_windowEnds {p : Page} (h : Follows o s) : Follows o (windowEnds s p) :=
  Follows.ite h.then_closeWindow.then_linkGo h.then_closeWindow

theorem Follows.then_disturbGate {p : Page} {k : State} (h : Follows o s) (hk : Follows o k) : Follows o (disturbGate s p k) :=
  Follows.ite h (Follows.ite h.then_illegalWrite (Follows.ite h.then_raise hk))

theorem Follows.then_execDisturbWrite {p : Page} {h1 : Half} {v : BitVec 64} (h : Follows o s) :
    OutFollows o (execDisturbWrite p h1 v s) := by
  unfold execDisturbWrite
  refine Follows.then_onUnit ?_
  refine h.then_disturbGate ?_
  extract_lets new was s1 x s2
  have hs1 : Follows o s1 := h.then_wr64
  have hx : Follows o x := hs1.then_windowEnds
  have hs2 : Follows o s2 := Follows.ite hs1.then_startPhase (Follows.ite hx.same hs1)
  exact Follows.ite h.then_illegalWrite (Follows.ite hs2 hs2.then_illegalWrite)

theorem Follows.then_execDisturbWinWrite {p : Page} {h1 : Half} {v : BitVec 64} (h : Follows o s) :
    OutFollows o (execDisturbWinWrite p h1 v s) := by
  unfold execDisturbWinWrite
  refine Follows.then_onUnit ?_
  refine h.then_disturbGate ?_
  extract_lets new
  split
  · exact h.then_illegalWrite
  · exact Follows.ite h.then_windowEnds.then_wr64.then_startPhase h.then_wr64

/-! Machine/ThreadAlu. -/

theorem Follows.then_execIsub {gr : GRef} {x : TInstr} (h : Follows o s) : OutFollows o (execIsub gr x s) :=
  h.then_intOp2

theorem Follows.then_execShl {gr : GRef} {x : TInstr} (h : Follows o s) : OutFollows o (execShl gr x s) :=
  h.then_intOp2

theorem Follows.then_execShr {gr : GRef} {x : TInstr} (h : Follows o s) : OutFollows o (execShr gr x s) :=
  h.then_intOp2

theorem Follows.then_execSar {gr : GRef} {x : TInstr} (h : Follows o s) : OutFollows o (execSar gr x s) :=
  h.then_intOp2

theorem Follows.then_execImin {gr : GRef} {x : TInstr} (h : Follows o s) : OutFollows o (execImin gr x s) :=
  h.then_intOp2

theorem Follows.then_execImax {gr : GRef} {x : TInstr} (h : Follows o s) : OutFollows o (execImax gr x s) :=
  h.then_intOp2

theorem Follows.then_execClz {gr : GRef} {x : TInstr} (h : Follows o s) : OutFollows o (execClz gr x s) :=
  h.then_intOp1

theorem Follows.then_execFpSub {gr : GRef} {x : TInstr} (h : Follows o s) : OutFollows o (execFpSub gr x s) :=
  h.then_fpOp2

theorem Follows.then_execFpMul {gr : GRef} {x : TInstr} (h : Follows o s) : OutFollows o (execFpMul gr x s) :=
  h.then_fpOp2

theorem Follows.then_execFpMin {gr : GRef} {x : TInstr} (h : Follows o s) : OutFollows o (execFpMin gr x s) :=
  h.then_fpOp2

theorem Follows.then_execFpMax {gr : GRef} {x : TInstr} (h : Follows o s) : OutFollows o (execFpMax gr x s) :=
  h.then_fpOp2

theorem Follows.then_execFpDiv {gr : GRef} {x : TInstr} (h : Follows o s) : OutFollows o (execFpDiv gr x s) :=
  h.then_fpOp2

theorem Follows.then_execCmpNe {gr : GRef} {x : TInstr} (h : Follows o s) : OutFollows o (execCmpNe gr x s) :=
  h.then_cmpOp

theorem Follows.then_execUnordered {gr : GRef} {x : TInstr} (h : Follows o s) : OutFollows o (execUnordered gr x s) :=
  h.then_cmpOp

theorem Follows.then_shflOp {gr : GRef} {x : TInstr} {f : Nat → Nat → Option Nat} (h : Follows o s) :
    OutFollows o (shflOp gr x s f) :=
  h.then_laneOp

theorem Follows.then_execShflIdx {gr : GRef} {x : TInstr} (h : Follows o s) : OutFollows o (execShflIdx gr x s) :=
  h.then_shflOp

theorem Follows.then_execShflUp {gr : GRef} {x : TInstr} (h : Follows o s) : OutFollows o (execShflUp gr x s) :=
  h.then_shflOp

theorem Follows.then_execShflDown {gr : GRef} {x : TInstr} (h : Follows o s) : OutFollows o (execShflDown gr x s) :=
  h.then_shflOp

theorem Follows.then_execShflXor {gr : GRef} {x : TInstr} (h : Follows o s) : OutFollows o (execShflXor gr x s) :=
  h.then_shflOp

theorem Follows.then_readOp {gr : GRef} {x : TInstr} {n : Nat} {f : TC → Nat → Nat} (h : Follows o s) :
    OutFollows o (readOp gr x s n f) :=
  h.then_laneOp

/-! Machine/ThreadCtl. -/

theorem Follows.then_stepOn {tc : TC} (h : Follows o s) : Follows o (stepOn tc s) :=
  h.of_eq rfl rfl rfl rfl

theorem Follows.then_jumpTo {tc : TC} {t : Nat} (h : Follows o s) : Follows o (jumpTo tc s t) :=
  h.of_eq rfl rfl rfl rfl

theorem Follows.then_guardedCtl {tc : TC} {checks : List (Bool × Nat)} {ts : List Nat} {k : State}
    (h : Follows o s) (hk : Follows o k) : Follows o (guardedCtl tc s checks ts k) := by
  unfold guardedCtl
  split
  · exact h.then_threadFault
  · exact hk

theorem Follows.then_ctlOp {gr : GRef} {x : TInstr} {checks : TC → List (Bool × Nat)} {ts : List Nat} {f : TC → State → State}
    (h : Follows o s) (hf : ∀ x u, Follows o u → Follows o (f x u)) : OutFollows o (ctlOp gr x s checks ts f) :=
  h.then_runThread (fun _ _ hu => hu.then_guardedCtl (Follows.ite hu.then_stepOn (hf _ _ hu)))

theorem Follows.then_execBra {gr : GRef} {x : TInstr} (h : Follows o s) : OutFollows o (execBra gr x s) :=
  h.then_ctlOp (fun _ _ hu => Follows.ite hu.then_stepOn (Follows.ite hu.then_jumpTo hu.then_threadFault))

theorem Follows.then_execBraDiv {gr : GRef} {x : TInstr} (h : Follows o s) : OutFollows o (execBraDiv gr x s) := by
  unfold execBraDiv
  refine h.then_runThread (fun tc1 t ht => ?_)
  refine ht.then_guardedCtl ?_
  split
  · exact ht.then_stepOn
  · exact Follows.ite ht.then_jumpTo (Follows.ite ht.then_threadFault ht.then_modGroup)

theorem Follows.then_execJoin {gr : GRef} {x : TInstr} (h : Follows o s) : OutFollows o (execJoin gr x s) := by
  unfold execJoin
  refine h.then_ctlOp (fun tc1 t ht => ?_)
  split
  · exact ht.then_modGroup
  · exact ht.then_threadFault

theorem Follows.then_execCall {gr : GRef} {x : TInstr} (h : Follows o s) : OutFollows o (execCall gr x s) :=
  h.then_ctlOp (fun _ _ hu => Follows.ite hu.then_threadFault hu.then_modGroup)

theorem Follows.then_execRet {gr : GRef} {x : TInstr} (h : Follows o s) : OutFollows o (execRet gr x s) := by
  unfold execRet
  refine h.then_ctlOp (fun tc1 t ht => ?_)
  split
  · exact ht.then_modGroup
  · exact ht.then_threadFault

theorem Follows.then_afterExit {t id : Nat} (h : Follows o s) : Follows o (afterExit s t id) := by
  unfold afterExit
  extract_lets s1
  have hs1 : Follows o s1 := h.then_modBlock
  split
  · exact Follows.ite hs1.then_endBlock hs1
  · exact hs1

theorem Follows.then_execExit {gr : GRef} {x : TInstr} (h : Follows o s) : OutFollows o (execExit gr x s) :=
  h.then_ctlOp (fun _ _ hu => hu.then_modGroup.then_afterExit)

/-! Machine/ThreadSync. -/

theorem Follows.then_TC_sigAcq {tc : TC} {w : Nat} (h : Follows o s) : Follows o (tc.sigAcq s w) :=
  Follows.ite h.then_sigAcquire h

theorem Follows.then_sigLanes {tc : TC} {op : Nat} {l : List Nat} {l1 : List (Nat × Nat)} (h : Follows o s) :
    Follows o (sigLanes tc op l s l1).1 := by
  induction l generalizing s l1 with
  | nil => exact h
  | cons x rest ih =>
    unfold sigLanes
    extract_lets k old s1 v s2
    have hs1 : Follows o s1 := h.then_TC_sigAcq
    exact ih (Follows.ite hs1 (Follows.ite hs1.then_sigRelease hs1.then_sigPlain))

theorem Follows.then_sigOp {gr : GRef} {x : TInstr} {op : Nat} (h : Follows o s) : OutFollows o (sigOp gr x s op) := by
  unfold sigOp
  refine h.then_runThread (fun tc1 t ht => ?_)
  refine ht.then_guarded ?_
  split
  · exact ht.then_threadFault
  · exact ht.then_sigLanes.then_commit

theorem Follows.then_acquireMet {tc : TC} {ls : List LaneWait} (h : Follows o s) : Follows o (acquireMet tc ls s) :=
  h.foldl fun _ _ hu => Follows.ite hu.then_TC_sigAcq hu

theorem Follows.then_waitOp {gr : GRef} {x : TInstr} {op : Nat} (h : Follows o s) : OutFollows o (waitOp gr x s op) := by
  unfold waitOp
  refine h.then_runThread (fun tc1 t ht => ?_)
  refine ht.then_guarded ?_
  split
  · exact ht.then_threadFault
  · exact Follows.ite ht.then_acquireMet.then_commit ht.then_acquireMet.then_modGroup

theorem Follows.then_execBarSync {gr : GRef} {x : TInstr} (h : Follows o s) : OutFollows o (execBarSync gr x s) :=
  h.then_runThread (fun _ _ hu => hu.then_guarded (Follows.ite hu.then_modGroup hu.then_modBlock))

theorem Follows.then_execBarArrive {gr : GRef} {x : TInstr} (h : Follows o s) : OutFollows o (execBarArrive gr x s) :=
  h.then_runThread (fun _ _ hu => hu.then_guarded hu.then_modBlock.then_modGroup)

/-! Machine/Tick. -/

theorem Follows.then_tickPtp (h : Follows o s) : Follows o (tickPtp s) :=
  h.of_eq rfl rfl rfl rfl

theorem Follows.then_alignLinks (h : Follows o s) : Follows o (alignLinks s) :=
  h.foldl fun _ _ hu => Follows.ite hu.then_align hu

theorem Follows.then_tick (h : Follows o s) : Follows o (tick s) := by
  unfold tick
  split
  · exact h
  · extract_lets s1
    exact ((Follows.ite h (h.same.then_tickPtp.foldl (fun _ _ hu => hu.then_paceTick))).then_alignLinks).then_dhcpExpire

/-! The dispatch of commands. -/

theorem Follows.then_exec {i : Instr} (h : Follows o s) : OutFollows o (exec i s) := by
  cases i with
  | registerWrite => exact h.then_execRegisterWrite
  | enable => exact (Follows.ite h.then_enableWrite h).then_onUnit
  | ctrlSwap => exact (Follows.ite h.then_ctrlSets h).then_onUnit
  | shadowLoad => exact (Follows.ite h.then_loadShadow h).then_onUnit
  | verSel => exact (Follows.ite h.then_verWrite h).then_onUnit
  | swap => exact (Follows.ite h.then_atPoint h).then_onUnit
  | flagClear => exact h.then_execFlagClear
  | disturbWrite => exact h.then_execDisturbWrite
  | disturbWinWrite => exact h.then_execDisturbWinWrite
  | stallWindowOpen => exact (Follows.ite h.then_openWindow h).then_onUnit
  | stallWindowClose => exact (Follows.ite h.then_windowEnds h).then_onUnit
  | summaryUpdate => exact (Follows.ite h.then_wrF.then_wr h).then_onUnit
  | errorRecordPost => exact h.then_execErrorRecordPost
  | errlogHeadWrite => exact h.then_execErrlogHeadWrite
  | pllLockLoss => exact h.then_execPllLockLoss
  | hbmPhyRelock => exact h.then_execHbmPhyRelock
  | hbmRelockTimeout => exact h.then_execHbmRelockTimeout
  | iadd | mulLo | iand | ior | ixor => exact h.then_intOp2
  | isub => exact h.then_execIsub
  | mulHi | add64 | mov | fpFma | cvt | cvtPack | cvtUnpack | select | ballot => exact h.then_laneOp
  | shl => exact h.then_execShl
  | shr => exact h.then_execShr
  | sar => exact h.then_execSar
  | imin => exact h.then_execImin
  | imax => exact h.then_execImax
  | popc => exact h.then_intOp1
  | clz => exact h.then_execClz
  | fpAdd => exact h.then_fpOp2
  | fpSub => exact h.then_execFpSub
  | fpMul => exact h.then_execFpMul
  | fpMin => exact h.then_execFpMin
  | fpMax => exact h.then_execFpMax
  | fpAbs | fpNeg | fpSqrt | fpRcp | fpRsqrt | fpExp2 | fpLog2 | fpSin | fpCos => exact h.then_fpOp1
  | fpDiv => exact h.then_execFpDiv
  | cmpEq | cmpLt | cmpLe | cmpGt | cmpGe => exact h.then_cmpOp
  | cmpNe => exact h.then_execCmpNe
  | unordered => exact h.then_execUnordered
  | pand | por | pxor | pnot | voteAny | voteAll => exact h.then_predOp
  | bra => exact h.then_execBra
  | braDiv => exact h.then_execBraDiv
  | join => exact h.then_execJoin
  | call => exact h.then_execCall
  | ret => exact h.then_execRet
  | exit => exact h.then_execExit
  | nop => exact h.then_ctlOp (fun _ _ hu => hu.then_stepOn)
  | trap => exact h.then_ctlOp (fun _ _ hu => hu.then_threadFault)
  | ldSp | stSp | ldAcc => exact h.then_runThread (fun _ _ hu => hu.then_guarded hu.then_tileAccess)
  | ldX | stX => exact h.then_runThread (fun _ _ hu => hu.then_xAccess)
  | ldArg => exact h.then_execLdArg
  | ldG | ldGAcq => exact h.then_runThread (fun _ _ hu => hu.then_guarded hu.then_globalLoad)
  | stG => exact h.then_execStG
  | stGRel => exact h.then_execStGRel
  | globalAccessResponse => exact h.then_execGlobalAccessResponse
  | atomAdd | atomAnd | atomOr | atomXor | atomMinS | atomMaxS | atomMinU | atomMaxU | atomSwap | atomCas | atomCas128
  | atomFadd | atomFmin | atomFmax | cellAdd | cellRead | cellReadAndClear | cellClear => exact h.then_atomInstr
  | sigSt | sigAdd | sigOr | sigLd => exact h.then_sigOp
  | waitGe | waitEq | waitNe | waitAny => exact h.then_waitOp
  | signalWordUpdate => exact (Follows.ite h.then_sigRelease h).then_onUnit
  | pathResume => exact (Follows.ite h.then_modGroup h).then_onUnit
  | barSync => exact h.then_execBarSync
  | barArrive => exact h.then_execBarArrive
  | fence => exact h.then_runThread (fun _ _ hu => hu.then_guarded hu.then_modGroup)
  | shflIdx => exact h.then_execShflIdx
  | shflUp => exact h.then_execShflUp
  | shflDown => exact h.then_execShflDown
  | shflXor => exact h.then_execShflXor
  | issueMx => exact h.then_execIssueMx
  | issueVx => exact h.then_execIssueVx
  | issueDma => exact h.then_execIssueDma
  | mmaRR | mmaRS | mmaSS => exact h.then_mmaOp
  | accClr => exact h.then_execAccClr
  | readLane | readGroup | readBlockIndex | readTileNumber | readNodeId | readTime | readNblocks => exact h.then_readOp
  | watchdogExpiry => exact h.then_execWatchdogExpiry
  | launchDelivery => exact h.then_execLaunchDelivery
  | blockStart => exact h.then_execBlockStart
  | mxDescCheck => exact h.then_execMxDescCheck
  | mxWaitSatisfied => exact h.then_execMxWaitSatisfied
  | mxBlockStart => exact h.then_execMxBlockStart
  | mxBlockDone => exact h.then_execMxBlockDone
  | mxOperandsRead => exact h.then_execMxOperandsRead
  | mxCompletion => exact h.then_execMxCompletion
  | vxDescCheck => exact h.then_execVxDescCheck
  | vxWaitSatisfied => exact h.then_execVxWaitSatisfied
  | vxVector => exact h.then_execVxVector
  | vxInputsRead => exact h.then_execVxInputsRead
  | vxCompletion => exact h.then_execVxCompletion
  | dmaDescCheck => exact h.then_execDmaDescCheck
  | dmaWaitSatisfied => exact h.then_execDmaWaitSatisfied
  | dmaSlotStart => exact h.then_execDmaSlotStart
  | dmaAccessPerformed => exact h.then_execDmaAccessPerformed
  | dmaSourceRead => exact h.then_execDmaSourceRead
  | dmaSignalSend => exact h.then_execDmaSignalSend
  | dmaCompletion => exact h.then_execDmaCompletion
  | dmaStallReport => exact h.then_execDmaStallReport
  | winRead => exact h.then_execWinRead
  | winWrite => exact h.then_execWinWrite
  | winOpEnd => exact h.then_execWinOpEnd
  | ipiSet => exact (Follows.ite h.same h).then_onUnit
  | ctrlHostReset => exact (Follows.ite h.then_hostReset h).next
  | hartRestart => exact (Follows.ite h.then_startHost h).next
  | doorbell => exact (Follows.ite h.then_ringQueue h).then_onUnit
  | doorbellBlockWrite => exact h.then_execDoorbellBlockWrite
  | queueArm => exact h.then_execQueueArm
  | queueStop => exact (Follows.ite h.then_setQState h).then_onUnit
  | cqHeadWrite => exact h.then_execCqHeadWrite
  | commandFetch => exact h.then_execCommandFetch
  | commandRefetch => exact h.then_execCommandRefetch
  | launch => exact h.then_execLaunch
  | dma => exact h.then_execDma
  | writeInline => exact h.then_execWriteInline
  | signal => exact h.then_execSignal
  | atomic => exact h.then_execAtomic
  | wait => exact h.then_runCmd (fun _ _ hu => hu.then_modCmd)
  | waitConditionMet => exact h.then_execWaitConditionMet
  | waitTimeout => exact h.then_execWaitTimeout
  | fenceCommand | nopCommand => exact h.then_runCmd (fun _ _ hu => hu.then_cmdEnd2)
  | pennant => exact h.then_runCmd (fun _ _ hu => hu.same.then_cmdEnd2)
  | pennantExpiry => exact h.then_execPennantExpiry
  | completionRecord => exact h.then_execCompletionRecord
  | missRespRetry => exact h.then_execMissRespRetry
  | missRespRefuse => exact h.then_execMissRespRefuse
  | missTimeout => exact h.then_execMissTimeout
  | hreqHeadWrite => exact (Follows.ite h (Follows.ite h.then_illegalWrite h.then_wr)).next
  | invAll | invCtx | invPages => exact h.then_invGo.next
  | invEnd => exact h.then_execInvEnd
  | accessCountUpdate => exact h.then_execAccessCountUpdate
  | migrationGo => exact h.then_execMigrationGo
  | migrationLeaf => exact h.then_execMigrationLeaf
  | sliceRead => exact h.then_execSliceRead
  | sliceWrite => exact h.then_execSliceWrite
  | sliceAtomic => exact h.then_execSliceAtomic
  | sectorFill => exact h.then_execSectorFill
  | orwRound => exact h.then_execOrwRound
  | rowRepair => exact h.then_execRowRepair
  | retHeadWrite => exact h.then_execRetHeadWrite
  | mapoutGo | mapoutAuto => exact (Follows.ite h.then_mapoutConsent h).then_onUnit
  | mapoutCopy => exact h.then_execMapoutCopy
  | hbmRetrain => exact (Follows.ite h.then_opStart.then_modMem h).then_onUnit
  | phyRecalibrate => exact (Follows.ite h.then_modMem h).then_onUnit
  | patrolRead => exact h.then_execPatrolRead
  | scrubGo => exact h.then_execScrubGo
  | scrubDone => exact h.then_execScrubDone
  | throttleLevel => exact h.then_execThrottleLevel
  | heavyWindow => exact h.then_execHeavyWindow
  | scopeClearLast => exact (Follows.ite h.then_wrF h).then_onUnit
  | partnerLight => exact h.then_execPartnerLight
  | capability => exact h.then_execCapability
  | retrainRequest => exact h.then_execRetrainRequest
  | creditGrant => exact h.then_execCreditGrant
  | trainingTimeout | linkForceDown => exact (Follows.ite h.then_linkDown h).then_onUnit
  | laneSignalLoss => exact (Follows.ite h.then_startRetrain h).then_onUnit
  | retrainComplete => exact h.then_execRetrainComplete
  | retrainTimeout => exact h.then_execRetrainTimeout
  | linkTrain => exact h.then_execLinkTrain
  | autoTrain => exact (Follows.ite h.then_modLink.then_startTraining h).then_onUnit
  | payloadFlit => exact h.then_execPayloadFlit
  | idleFlit => exact (Follows.ite h.then_flitAck h).then_onUnit
  | ackTimeout => exact (Follows.ite h.then_replay h).then_onUnit
  | senderCut => exact h.then_execSenderCut
  | receiverTruncate => exact h.then_execReceiverTruncate
  | wr | rd | atom | sig => exact h.then_request
  | rsp => exact h.then_onPort h.then_rspIn
  | hold => exact h.then_onPort h.then_holdIn
  | openPkt => exact h.then_onPort h.then_openIn
  | openAck => exact h.then_onPort h.then_openAckIn
  | closePkt => exact h.then_execClosePkt
  | connOpen => exact h.then_execConnOpen
  | connClose => exact (Follows.ite h.then_modConn.then_closeIfDone h).then_onUnit
  | openResend => exact (Follows.ite h.then_sendOpen h).then_onUnit
  | openTimeout => exact h.then_execOpenTimeout
  | rtoResend => exact h.then_execRtoResend
  | holdSend => exact h.then_execHoldSend
  | connSilent => exact (Follows.ite h.then_connDown h).then_onUnit
  | xcLinkError => exact h.then_execXcLinkError
  | xcRetrainComplete => exact h.then_execXcRetrainComplete
  | xcRetrainTimeout => exact h.then_execXcRetrainTimeout
  | mbxOwnerWrite => exact h.then_execMbxOwnerWrite
  | mbxGo => exact h.then_execMbxGo
  | mgmtDatagram => exact h.then_execMgmtDatagram
  | mgmtFrame => exact (Follows.ite h h.then_inc.then_frameHeard).next
  | getInfo => exact h.then_execGetInfo
  | getResult => exact h.then_execGetResult
  | bringupRun => exact h.then_execBringupRun
  | bringupAuto => exact (Follows.ite h.then_bringUp h).next
  | sleepEnterP1 => exact h.then_execSleepEnterP1
  | sleepEnterP2 => exact h.then_execSleepEnterP2
  | sleepEnterP3 => exact h.then_execSleepEnterP3
  | sleepExit => exact h.then_execSleepExit
  | fwStageHost => exact h.then_execFwStageHost
  | fwStageChunk => exact h.then_execFwStageChunk
  | fwStageAbort => exact h.then_execFwStageAbort
  | fwStageComplete => exact h.then_execFwStageComplete
  | stagingChunkTimeout => exact h.then_execStagingChunkTimeout
  | fwActivate => exact h.then_execFwActivate
  | selfTestTileLogic | selfTestStorage => exact h.then_serveLong (fun _ _ hu => hu.then_tileTest)
  | selfTestLoopback => exact h.then_execSelfTestLoopback
  | selfTestComplete => exact h.then_execSelfTestComplete
  | debugTokenPresent => exact h.then_execDebugTokenPresent
  | tokenVerifyComplete => exact h.then_execTokenVerifyComplete
  | debugTokenChallenge => exact h.then_execDebugTokenChallenge
  | challengeLapse => exact h.then_execChallengeLapse
  | debugTokenDeploy => exact h.then_execDebugTokenDeploy
  | debugTokenMgmtKey => exact h.then_execDebugTokenMgmtKey
  | debugTokenEnd => exact h.then_execDebugTokenEnd
  | debugExpiry => exact (Follows.ite h.then_endDebug h).next
  | hostReset => exact h.then_execHostReset
  | moduleReset => exact h.then_execModuleReset
  | attestReport => exact h.then_execAttestReport
  | attestSignComplete => exact h.then_execAttestSignComplete
  | attestRead => exact h.then_execAttestRead
  | attestBurgee => exact h.then_execAttestBurgee
  | errlogRead => exact h.then_execErrlogRead
  | calRead => exact h.then_execCalRead
  | calWriteData => exact h.then_execCalWriteData
  | calCommit => exact h.then_execCalCommit
  | calDiscard => exact h.then_execCalDiscard
  | rngHealthFail | palurCheckFailed => exact (Follows.ite h.then_moduleFatal h).next
  | ptpSync => exact h.then_execPtpSync
  | ptpFollowUp => exact h.then_execPtpFollowUp
  | ptpAnnounce => exact h.then_execPtpAnnounce
  | ptpDelayResp => exact h.then_execPtpDelayResp
  | ptpDelayReqSend => exact (Follows.ite h.then_modServo h).next
  | ptpSyncTimeout => exact h.then_execPtpSyncTimeout
  | holdoverExpiry => exact (Follows.ite h.then_wrF.then_wr.then_modServo h).next
  | timeSnap => exact (Follows.ite h.then_wr64.then_wr64 h).next
  | jobGenWrite => exact h.then_execJobGenWrite
  | jobReady => exact (Follows.ite h.then_modBind.then_slotSettle h).then_onUnit
  | jobStart => exact (Follows.ite h.then_startSlot h).then_onUnit
  | jobTeardown => exact (Follows.ite h h.then_setJobState.then_tdStart).then_onUnit
  | teardownDrainEnd => exact h.then_execTeardownDrainEnd
  | drainTimeout => exact h.then_execDrainTimeout
  | bindReq => exact (Follows.ite h.then_bindTry h).then_onUnit
  | resourceTeardown => exact h.then_execResourceTeardown
  | regionBind => exact (Follows.ite h.then_rgnTry h).then_onUnit
  | regionRelease => exact (Follows.ite h.then_rgnRelease h).then_onUnit
  | hoistTxGo => exact h.then_execHoistTxGo
  | hoistStart => exact h.then_onPort h.then_startIn
  | hoistReport => exact h.then_onPort (Follows.ite h h.then_reportIn)
  | hoistAbort => exact h.then_onPort h.then_abortIn
  | hoistRetry => exact h.then_execHoistRetry
  | hoistReportBatch => exact h.then_execHoistReportBatch
  | hoistDeadline => exact h.then_execHoistDeadline
  | hoistStartTime => exact (Follows.ite h.then_startDue h).then_onUnit
  | hoistContextRelease => exact h.then_execHoistContextRelease
  | inputQualified => exact (Follows.ite h h.same.then_stageA).next
  | powerLoss => exact (Follows.ite h h.then_modLog.then_powerDown.same).next
  | inputOvervoltage => exact (Follows.ite h h.then_powerDown.same).next
  | inputRangeChange => exact h.then_execInputRangeChange
  | controlPeriod => exact h.then_execControlPeriod
  | railSlewStep => exact (Follows.ite h (h.foldl (fun _ _ hu => hu.then_setRail))).next
  | estimatorPeriod => exact (Follows.ite h h.then_modPower).next
  | measurementWindow => exact h.then_execMeasurementWindow
  | relearn => exact h.then_execRelearn
  | fastLimiter => exact h.then_execFastLimiter
  | droop => exact (Follows.ite h.then_inc.then_raise h).then_onUnit
  | brownout => exact (Follows.ite h.then_raise.then_tripDie h).then_onUnit
  | thermalEmergency => exact h.then_execThermalEmergency
  | dieTrip => exact (Follows.ite h.then_tripDie h).then_onUnit
  | moduleThermalTrip => exact h.then_execModuleThermalTrip
  | temperatureChange => exact h.then_execTemperatureChange
  | dieRecover => exact h.then_execDieRecover
  | paceWindow => exact h.then_execPaceWindow
  | stragglerInterval => exact (Follows.ite h.then_inc.then_modPower h).then_onUnit
  | mgmtPortUp => exact (Follows.ite h.then_wr.then_raise.then_dhcpStart h).next
  | mgmtPortDown => exact (Follows.ite h.then_mgmtDown h).next
  | laserFailure => exact (Follows.ite h h.then_wrF.then_raise).then_onUnit
  | fwActivateComplete => exact h.then_execFwActivateComplete

end

/-- A step of an idle state is a tick; another step is the first command's, on the rest of the queue, which the canonical form does not speak of. -/
theorem step_canonical {s t : State} (hc : Canonical s) (h : step s = .next t) : Canonical t := by
  unfold step at h
  split at h
  next =>
    cases h
    exact (Follows.refl s).then_tick.canonical hc
  next c rest hq =>
    exact ((Follows.refl { s with pending := rest }).then_exec t h).canonical hc

/-- Settles O5, through what each of the model's operations keeps (`Follows`). -/
theorem stepKeepsCanonical : Obligations.StepKeepsCanonical := fun _ _ => step_canonical

end Sys2Proof.Machine
end

section
/-! The address spaces at reset (O4). -/

namespace Sys2Proof.Machine

/-- Settles O4. -/
theorem canonicalAtReset : Obligations.CanonicalAtReset := reset_canonical

end Sys2Proof.Machine
end

section
/-! What reset leaves (O3): every address of the register space names its page and offset, and the reset values of the common header. -/

namespace Sys2Proof.Machine

open Sys2Proof

/-- The page that a page-aligned decoder finds for a block: the block's page that holds the address, where it has one. -/
def blkPage (addr : Nat) (b : Blk) : Option (Page × Nat) :=
  if base0 b ≤ addr && decide (addr < base0 b + instances b * 0x1000) then some (⟨b, (addr - base0 b) / 0x1000⟩, addr % 0x1000) else none

theorem base0_mod (b : Blk) : base0 b % 0x1000 = 0 := by cases b <;> decide

theorem blkPage_self {p : Page} (hp : pageOk p = true) {off : Nat} (ho : off < 0x1000) : blkPage (pageBase p + off) p.blk = some (p, off) := by
  have hb := base0_mod p.blk
  obtain ⟨b, i⟩ := p
  have hi : i < instances b := of_decide_eq_true hp
  have hlt : pageBase ⟨b, i⟩ + off < base0 b + instances b * 0x1000 := by simp only [pageBase]; omega
  have hle : base0 b ≤ pageBase ⟨b, i⟩ + off := by simp only [pageBase]; omega
  have hinst : (pageBase ⟨b, i⟩ + off - base0 b) / 0x1000 = i := by simp only [pageBase]; omega
  have hoff : (pageBase ⟨b, i⟩ + off) % 0x1000 = off := by simp only [pageBase] at *; omega
  rw [blkPage, if_pos (by simpa using ⟨hle, hlt⟩), hinst, hoff]

/-- A page found for an address holds it. -/
theorem blkPage_some {addr : Nat} {b : Blk} {x : Page × Nat} (h : blkPage addr b = some x) :
    x.1.blk = b ∧ pageOk x.1 = true ∧ x.2 < 0x1000 ∧ pageBase x.1 + x.2 = addr := by
  have hb := base0_mod b
  unfold blkPage at h
  split at h
  · next hc =>
    obtain ⟨hle, hlt⟩ : base0 b ≤ addr ∧ addr < base0 b + instances b * 0x1000 := by simpa using hc
    cases h
    refine ⟨rfl, decide_eq_true ?_, Nat.mod_lt _ (by decide), ?_⟩ <;> simp only [pageBase] <;> omega
  · cases h

/-- No two pages hold one address. -/
theorem page_unique {p q : Page} (hp : pageOk p = true) (hq : pageOk q = true) {a b : Nat} (ha : a < 0x1000) (hb : b < 0x1000)
    (h : pageBase p + a = pageBase q + b) : p = q := by
  by_contra hne
  exact regKey_page hp hq hne ha hb (by rw [regKey, regKey, h])

/-- The address of a page's byte names the page and the offset (02_register_pages.md R35). -/
theorem pageOf_pageBase {p : Page} (hp : pageOk p = true) {off : Nat} (ho : off < 0x1000) : pageOf (pageBase p + off) = some (p, off) := by
  have hself := blkPage_self hp ho
  have hmem : p.blk ∈ allBlks := by cases p.blk <;> decide
  cases hf : pageOf (pageBase p + off) with
  | none =>
    have hnone : blkPage (pageBase p + off) p.blk = none := List.findSome?_eq_none_iff.mp hf p.blk hmem
    rw [hself] at hnone
    cases hnone
  | some x =>
    obtain ⟨b, -, hx⟩ := List.exists_of_findSome?_eq_some hf
    obtain ⟨-, hok, hlt, hadd⟩ := blkPage_some hx
    have hpage : x.1 = p := page_unique hok hp hlt ho hadd
    rw [hpage] at hadd
    rw [← Nat.add_left_cancel hadd, ← hpage]

/-- What a word reads as after reset. -/
theorem rd_reset {p : Page} (hp : pageOk p = true) {off : Nat} (ho : off < 0x1000) (h4 : off % 4 = 0) :
    State.reset.rd p off = (resetWord p off).toNat := by
  have hkey : 4 * regKey p off = pageBase p + off := by
    have := pageBase_mod p
    unfold regKey; omega
  show (regDefault (regKey p off)).toNat = _
  rw [regDefault, hkey, pageOf_pageBase hp ho]

/-- CTRL of the common header (R41). -/
def ctrlReg (p : Page) : Reg :=
  reg 0x010 ([fld .act 0 1 0, fld .w1s 1 1 0, fld .w1s 2 1 0, fld .act 4 4 1] ++ (ctrlBits p).map (fun b => fld .w1s b 1 0))

/-! Registers of the common header and tail, found behind those before them that do not reach their offsets (R41, R42). -/

theorem regAt_ctrl (p : Page) : regAt p 0x10 = some (ctrlReg p, false) := by
  simp [regAt, findReg, commonRegs, ctrlReg, reg, reg64]

theorem regAt_status (p : Page) : regAt p 0x14 = some (reg 0x014 [fld .ro 0 32 0], false) := by
  simp [regAt, findReg, commonRegs, reg, reg64]

theorem regAt_mask (p : Page) : regAt p 0x100 = some (cfgw 0x100 0xFFFFFFFF, false) := by
  cases hd : (caps p.blk).disturb <;> simp [regAt, findReg, commonRegs, reg, reg64, cnt, cfgw, hd]

theorem words_le (b : Blk) : (caps b).words ≤ 48 := by cases b <;> decide

theorem inShadow_eq_false (p : Page) {off : Nat} (h : off < 0x900) : inShadow p off = false := by
  rw [inShadow, decide_eq_false_iff_not]; omega

theorem foldl_add_replicate_zero (k : Nat) : ∀ n : Nat, (List.replicate k 0).foldl (· + ·) n = n := by
  induction k with
  | zero => exact fun _ => rfl
  | succ k ih => exact fun n => ih n

theorem resetWord_ctrl (p : Page) : resetWord p 0x10 = 0x10 := by
  have hsum : fldReset (ctrlReg p).fs = 0x10 := by
    simp [fldReset, ctrlReg, reg, lsum, fld, Function.comp_def, foldl_add_replicate_zero]
  rw [resetWord, inShadow_eq_false p (by decide), if_neg (by decide), regAt_ctrl]
  simp [hsum]

theorem resetWord_status (p : Page) : resetWord p 0x14 = 0 := by
  rw [resetWord, inShadow_eq_false p (by decide), if_neg (by decide), regAt_status]; rfl

theorem resetWord_mask (p : Page) : resetWord p 0x100 = 0xFFFFFFFF := by
  rw [resetWord, inShadow_eq_false p (by decide), if_neg (by decide), regAt_mask]; rfl

/-- Both configuration sets reset alike (R50). -/
theorem resetWord_shadow (p : Page) {i : Nat} (hi : i < (caps p.blk).words) : resetWord p (0x900 + 4 * i) = resetWord p (0x100 + 4 * i) := by
  have hw := words_le p.blk
  have hin : inShadow p (0x900 + 4 * i) = true := by rw [inShadow, decide_eq_true_eq]; omega
  rw [resetWord, resetWord, hin, if_pos rfl, inShadow_eq_false p (by omega), if_neg (by decide), show 0x900 + 4 * i - 0x800 = 0x100 + 4 * i by omega]

/-- Settles O3, from the reset values of CTRL, STATUS and FLAG_MASK. -/
theorem resetState : Obligations.ResetState := by
  refine ⟨rfl, rfl, rfl, rfl, rfl, rfl, rfl, rfl, rfl, fun _ => rfl, fun _ => rfl, fun _ => rfl, fun _ _ => rfl, fun p hp => ?_⟩
  have hctrl : State.reset.rd p 0x10 = 0x10 := by rw [rd_reset hp (by decide) (by decide), resetWord_ctrl]; rfl
  refine ⟨by rw [State.rdB, hctrl]; rfl, by rw [State.rdF, hctrl]; rfl, ?_, ?_, fun i hi => ?_⟩
  · rw [rd_reset hp (by decide) (by decide), resetWord_status]; rfl
  · rw [rd_reset hp (by decide) (by decide), resetWord_mask]; rfl
  · have hw := words_le p.blk
    rw [rd_reset hp (by omega) (by omega), rd_reset hp (by omega) (by omega), resetWord_shadow p hi]

end Sys2Proof.Machine
end

section
/-! Clearing flags (O24): masks of field lists, and the bits of a number outside a mask. -/

namespace Sys2Proof.Machine

open Sys2Proof

/-! Masks. -/

/-- The bits of `v` outside `m`, one by one. -/
theorem testBit_without (v m i : Nat) : (without v m).testBit i = (v.testBit i && !m.testBit i) := by
  unfold without
  induction i generalizing v m with
  | zero =>
    have hmod : (v &&& m) % 2 = if v % 2 = 1 ∧ m % 2 = 1 then 1 else 0 := by
      have h := Nat.testBit_and v m 0
      simp only [Nat.testBit_zero] at h
      split <;> grind
    have hle := @Nat.and_le_left v m
    rw [Bool.eq_iff_iff]
    simp only [Nat.testBit_zero, Bool.and_eq_true, Bool.not_eq_true', decide_eq_true_eq, decide_eq_false_iff_not]
    split at hmod <;> omega
  | succ i ih =>
    have hdiv : (v &&& m) / 2 = v / 2 &&& m / 2 := Nat.and_div_two
    have hmod : (v &&& m) % 2 ≤ v % 2 := by
      have h := Nat.testBit_and v m 0
      simp only [Nat.testBit_zero] at h
      grind
    have hle := @Nat.and_le_left v m
    have hsub : (v - (v &&& m)) / 2 = v / 2 - (v / 2 &&& m / 2) := by omega
    rw [Nat.testBit_succ, hsub, ih, Nat.testBit_succ, Nat.testBit_succ]

/-- Nothing lies outside a mask that covers every bit. -/
theorem without_eq_zero {v m : Nat} (h : ∀ i, v.testBit i = true → m.testBit i = true) : without v m = 0 := by
  apply Nat.eq_of_testBit_eq
  intro i
  rw [testBit_without, Nat.zero_testBit]
  cases hv : v.testBit i with
  | false => rfl
  | true => rw [h i hv]; rfl

theorem testBit_fldMask (f : Fld) (i : Nat) : (fldMask f).testBit i = decide (f.lo ≤ i ∧ i < f.lo + f.len) := by
  rw [fldMask, Nat.mul_comm, Nat.testBit_two_pow_mul, Nat.testBit_two_pow_sub_one]
  by_cases h : f.lo ≤ i
  · simp [h, show i - f.lo < f.len ↔ i < f.lo + f.len by omega]
  · simp [h]

theorem testBit_foldl_or (fs : List Fld) (i : Nat) : ∀ m : Nat,
    (fs.foldl (fun m f => m ||| fldMask f) m).testBit i = (m.testBit i || fs.any (fun f => (fldMask f).testBit i)) := by
  induction fs with
  | nil => simp
  | cons f fs ih => intro m; rw [List.foldl_cons, ih, Nat.testBit_or, List.any_cons, Bool.or_assoc]

/-- A bit is covered where it lies in some field. -/
theorem testBit_covered (fs : List Fld) (i : Nat) : (covered fs).testBit i = fs.any (fun f => (fldMask f).testBit i) := by
  rw [covered, testBit_foldl_or, Nat.zero_testBit, Bool.false_or]

/-! FLAGS. -/

/-- The fields of FLAGS (R41). -/
def flagFlds (p : Page) : List Fld := (List.range 32).filterMap (fun n => if flagAssigned p n then some (fld .w1c n 1 0) else none)

theorem regAt_flags (p : Page) : regAt p 0x18 = some (reg 0x018 (flagFlds p), false) := by
  simp [regAt, findReg, commonRegs, flagFlds, reg, reg64]

theorem flagFlds_w1c (p : Page) : (flagFlds p).filter (fun f => decide (f.acc = .w1c)) = flagFlds p := by
  rw [List.filter_eq_self]
  intro f hf
  obtain ⟨n, -, hn⟩ := List.mem_filterMap.mp hf
  split at hn
  · cases hn; rfl
  · cases hn

/-- The bits that FLAGS has are the assigned flags. -/
theorem testBit_covered_flagFlds (p : Page) (i : Nat) : (covered (flagFlds p)).testBit i = (decide (i < 32) && flagAssigned p i) := by
  rw [testBit_covered, Bool.eq_iff_iff, List.any_eq_true]
  simp only [flagFlds, List.mem_filterMap, List.mem_range, testBit_fldMask, decide_eq_true_eq, Bool.and_eq_true]
  constructor
  · rintro ⟨f, ⟨n, hn, hf⟩, hlo, hhi⟩
    split at hf
    · next ha =>
      cases hf
      have hi : i = n := by simp only [fld] at hlo hhi; omega
      rw [hi]; exact ⟨hn, ha⟩
    · cases hf
  · rintro ⟨hi, ha⟩
    exact ⟨fld .w1c i 1 0, ⟨i, hi, by rw [if_pos ha]⟩, Nat.le_refl i, Nat.lt_succ_self i⟩

theorem exec_flagClear (p : Page) (off : Nat) (mask : BitVec 32) (s : State) : exec (.flagClear p off mask) s = execFlagClear p off mask s := rfl

/-- Settles O24: the mask lies within FLAGS, so the write clears its bits and reports nothing. -/
theorem flagClears : Obligations.FlagClears := by
  intro s p mask hp hreach hmask ⟨k, hk, hk32⟩
  let ones := covered (flagFlds p)
  have hones : ones ≠ 0 := by
    intro h0
    have := testBit_covered_flagFlds p k
    rw [show covered (flagFlds p) = 0 from h0, Nat.zero_testBit] at this
    simp [hk, hk32] at this
  have hsub : ∀ i, mask.toNat.testBit i = true → ones.testBit i = true := by
    intro i hi
    have hlt : i < 32 := BitVec.lt_of_getLsbD hi
    rw [testBit_covered_flagFlds, hmask i hi]
    simp [hlt]
  have hexec : exec (.flagClear p 0x18 mask) s = .next (s.wr p 0x18 (without (s.rd p 0x18) (mask.toNat &&& ones))) := by
    rw [exec_flagClear, execFlagClear, onUnit, if_pos hp, hreach, regAt_flags]
    simp only [reg, flagFlds_w1c]
    rw [if_neg (by decide), if_neg hones, if_pos (without_eq_zero hsub)]
  refine ⟨_, hexec, fun n hn => ?_, wr_kept s p 0x18 _, wr_only s p 0x18 _⟩
  rw [rd_wr_self, bit, Nat.testBit_mod_two_pow, testBit_without, Nat.testBit_and]
  cases hm : mask.getLsbD n with
  | false => simp [hn, bit, show mask.toNat.testBit n = false from hm]
  | true => simp [show mask.toNat.testBit n = true from hm, hsub n hm]

end Sys2Proof.Machine
end

section
/-! The Bunting summary (O26). -/

namespace Sys2Proof.Machine

open Sys2Proof

/-- Where a page's summary bit stands: in a word of the summary beside SUM_TOP (02_register_pages.md R53). -/
theorem sumPlace_bound {p : Page} (hp : pageOk p = true) :
    0x184 ≤ (sumPlace p).1 ∧ (sumPlace p).1 < 0x1000 ∧ (sumPlace p).1 % 4 = 0 ∧ (sumPlace p).2 < 32 := by
  obtain ⟨b, i⟩ := p
  have hi : i < instances b := of_decide_eq_true hp
  cases b <;> simp only [instances] at hi <;> refine ⟨?_, ?_, ?_, ?_⟩ <;> simp only [sumPlace, typeCode] <;> omega

/-- SUM_TOP has a bit where some word of its row is not zero. -/
theorem testBit_sumTop (s : State) (k : Nat) :
    (sumTop s).testBit k = true ↔ (k < 6 ∧ s.rd pBunt (0x184 + 4 * k) ≠ 0) ∨ (k = 6 ∧ ∃ w, w < 5 ∧ s.rd pBunt (0x1A0 + 4 * w) ≠ 0)
      ∨ (k = 7 ∧ ∃ w, w < 16 ∧ s.rd pBunt (0x200 + 4 * w) ≠ 0) ∨ (k = 8 ∧ ∃ w, w < 16 ∧ s.rd pBunt (0x240 + 4 * w) ≠ 0) := by
  rw [sumTop, testBit_maskOf, decide_eq_true_eq, List.mem_filter, List.mem_range]
  by_cases h6 : k = 6
  · subst h6; simp
  by_cases h7 : k = 7
  · subst h7; simp
  by_cases h8 : k = 8
  · subst h8; simp
  simp [h6, h7, h8]
  omega

theorem sumTop_lt (s : State) : sumTop s < 2 ^ 32 := by
  apply Nat.lt_pow_two_of_testBit
  intro k hk
  by_contra h
  rw [Bool.not_eq_false, testBit_sumTop] at h
  omega

theorem exec_summaryUpdate (p : Page) (s : State) : exec (.summaryUpdate p) s = execSummaryUpdate p s := rfl

/-- Some page of a summary bit has a flag that its mask lets through. -/
def sumAny (s : State) (p : Page) : Bool := (sumSources p).any (flagsPending s)

theorem sumAny_iff (s : State) (p : Page) : sumAny s p = true ↔ ∃ q ∈ sumSources p, s.rd q 0x18 &&& s.rd q 0x100 ≠ 0 := by
  simp [sumAny, flagsPending]

/-- The summary word of a page with its bit as it is now. -/
def sumWrite (s : State) (p : Page) : State := s.wrF pBunt (sumPlace p).1 (sumPlace p).2 1 (b2n (sumAny s p))

/-- A bit of a word with one bit written. -/
theorem rdB_wrF_bit (s : State) (p : Page) (a b n : Nat) (x : Bool) (hn : n < 32) :
    (s.wrF p a b 1 (b2n x)).rdB p a n = if n = b then x else s.rdB p a n := by
  rw [State.rdB, State.wrF, rd_wr_self, bit, Nat.testBit_mod_two_pow, testBit_putBits, State.rdB, bit]
  by_cases h : n = b
  · subst h
    cases x <;> simp [hn, b2n]
  · rw [if_neg (by omega), if_neg h]; simp [hn]

theorem sumWrite_rdB (s : State) (p : Page) (n : Nat) (hn : n < 32) :
    (sumWrite s p).rdB pBunt (sumPlace p).1 n = if n = (sumPlace p).2 then sumAny s p else s.rdB pBunt (sumPlace p).1 n :=
  rdB_wrF_bit s pBunt _ _ n _ hn

/-- SUM_TOP written last leaves the words below it. -/
theorem rd_below_sumTop (s : State) (v : Nat) {a : Nat} (ha : a % 4 = 0) (h : a ≠ 0x180) : (s.wr pBunt 0x180 v).rd pBunt a = s.rd pBunt a :=
  rd_wr_off s pBunt v (by decide) ha h

/-- Settles O26: the summary bit is written, and SUM_TOP from the words below it. -/
theorem buntingSummary : Obligations.BuntingSummary := by
  intro s p hp hup hen
  obtain ⟨hlo, -, h4, hbit⟩ := sumPlace_bound hp
  let s1 := sumWrite s p
  let t := s1.wr pBunt 0x180 (sumTop s1)
  have hexec : exec (.summaryUpdate p) s = .next t := by
    rw [exec_summaryUpdate, execSummaryUpdate, onUnit, if_pos hp, hup, hen, if_pos (by decide)]; rfl
  have htop (k : Nat) : t.rdB pBunt 0x180 k = (sumTop s1).testBit k := by
    rw [State.rdB, rd_wr_self, Nat.mod_eq_of_lt (sumTop_lt s1), bit]
  have hbelow {a : Nat} (ha : a % 4 = 0) (h : a ≠ 0x180) : t.rd pBunt a = s1.rd pBunt a := rd_below_sumTop s1 _ ha h
  have hword (n : Nat) : t.rdB pBunt (sumPlace p).1 n = s1.rdB pBunt (sumPlace p).1 n := by
    rw [State.rdB, hbelow h4 (by omega), State.rdB]
  have hrow {b n : Nat} (hb : b % 4 = 0) (h : 0x180 < b) : (∃ w, w < n ∧ t.rd pBunt (b + 4 * w) ≠ 0) ↔ ∃ w, w < n ∧ s1.rd pBunt (b + 4 * w) ≠ 0 :=
    exists_congr fun w => by rw [hbelow (by omega) (by omega)]
  refine ⟨t, hexec, ?_, fun n hn hne => ?_, fun k hk => ?_, ?_, ?_, ?_, ⟨(wrF_kept s _ _ _ _ _).trans (wr_kept s1 _ _ _),
    (wr_only s ..).trans (wr_only s1 ..)⟩, ?_⟩
  · rw [hword, sumWrite_rdB s p _ hbit, if_pos rfl, sumAny_iff]
  · rw [hword, sumWrite_rdB s p n hn, if_neg hne]
  · rw [htop, testBit_sumTop, hbelow (by omega) (by omega)]
    omega
  · rw [htop, testBit_sumTop, hrow (by decide) (by decide)]; simp
  · rw [htop, testBit_sumTop, hrow (by decide) (by decide)]; simp
  · rw [htop, testBit_sumTop, hrow (by decide) (by decide)]; simp
  · exact decide_eq_true_iff

end Sys2Proof.Machine
end

section
/-! SUPPORT. What a swap and a change of enable leave of the register pages: no operation that follows them touches a configuration set, and only those of the binding touch BIND_STATUS and the common bits of STATUS. -/

namespace Sys2Proof.Machine

open Sys2Proof

/-- The offset lies outside the words that any block's configuration sets hold (02_register_pages.md R40), in whichever page it falls. -/
def beyondSets (a : Nat) : Bool := decide (a % 0x1000 < 0x100 ∨ 0x1C0 ≤ a % 0x1000 ∧ a % 0x1000 < 0x900 ∨ 0x9C0 ≤ a % 0x1000)

/-- The words of the configuration sets read as before. -/
def SetsKept (s t : State) : Prop := ∀ q a, a % 4 = 0 → beyondSets a = false → t.rd q a = s.rd q a

/-- What every operation but a change of enable, of the binding or of a set keeps of all pages: their configuration sets, CTRL, the bits enabled, swap_pending and quarantined of STATUS, and BIND_STATUS. -/
structure PageKept (s t : State) : Prop where
  sets : SetsKept s t
  ctrl : ∀ q, t.rd q 0x10 = s.rd q 0x10
  status : ∀ q n, n < 3 → t.rdB q 0x14 n = s.rdB q 0x14 n
  bind : ∀ q, t.rd q 0x608 = s.rd q 0x608

/-- A result that may be none keeps them where there is one. -/
def OptPageKept (s : State) (o : Option State) : Prop := ∀ t, o = some t → PageKept s t

/-- The offset is of none of the words that `PageKept` names. -/
def beyondPage (a : Nat) : Bool := beyondSets a && decide (a % 0x1000 / 4 ≠ 0x10 / 4 ∧ a % 0x1000 / 4 ≠ 0x14 / 4 ∧ a % 0x1000 / 4 ≠ 0x608 / 4)

theorem SetsKept.trans {s t u : State} (h : SetsKept s t) (k : SetsKept t u) : SetsKept s u :=
  fun q a h4 ha => (k q a h4 ha).trans (h q a h4 ha)

theorem setsKept_of_eq {s t : State} (h : t.regs = s.regs) : SetsKept s t := fun q a _ _ => rd_congr h q a

/-- Words at distinct places of their pages have distinct keys, whichever the pages. -/
theorem regKey_ne_of_offset {p q : Page} {a b : Nat} (h : a % 0x1000 / 4 ≠ b % 0x1000 / 4) : regKey p a ≠ regKey q b := by
  have hp := pageBase_mod p
  have hq := pageBase_mod q
  unfold regKey; omega

/-- A write beyond the sets keeps them. -/
theorem wr_setsKept (s : State) (p : Page) {off : Nat} (v : Nat) (hoff : beyondSets off = true) : SetsKept s (s.wr p off v) := by
  intro q a h4 ha
  rw [beyondSets, decide_eq_true_eq] at hoff
  rw [beyondSets, decide_eq_false_iff_not] at ha
  rw [rd_wr, if_neg (regKey_ne_of_offset (by omega))]

section
variable {o s t : State}

theorem PageKept.refl (s : State) : PageKept s s := ⟨setsKept_of_eq rfl, fun _ => rfl, fun _ _ _ => rfl, fun _ => rfl⟩

theorem PageKept.trans {u : State} (h : PageKept s t) (k : PageKept t u) : PageKept s u :=
  ⟨h.sets.trans k.sets, fun q => (k.ctrl q).trans (h.ctrl q), fun q n hn => (k.status q n hn).trans (h.status q n hn), fun q => (k.bind q).trans (h.bind q)⟩

theorem PageKept.of_eq (h : PageKept o s) (hr : t.regs = s.regs) : PageKept o t :=
  h.trans ⟨setsKept_of_eq hr, fun q => rd_congr hr q 0x10, fun q n _ => by rw [State.rdB, rd_congr hr, State.rdB], fun q => rd_congr hr q 0x608⟩

/-- Whatever the state holds beside the registers may change. -/
theorem PageKept.same {pending : List Instr} {hbm tmem : List Host.Cell} {raw traw openConns aborted : List Nat}
    {ref ptp free nextUid fetchTurn hartsOn ssip : Nat} {up paused refStopped netHalted : Bool}
    {stalls : List Page} {phase : FMap Nat} {mem : MemSys} {conns : FMap ConnSt} {links : FMap LinkSt} {cmds : List Cmd} {qs : FMap QSt}
    {xlat : Xlat} {bind : BindSt} {pennants : List Pennant} {hoist : List (Option HCtx)} {servo : Ptp} {mgmt : MgmtNet} {headroom : FMap Int}
    {harts : FMap Hart} {hcache : HostCache} {tiles : FMap Tile} {log : Log} {store : Store} {palur : PalurSt} {power : PowerSt}
    {xc : List (Nat × Nat)} (h : PageKept o s) :
    PageKept o { s with
      pending, hbm, tmem, raw, traw, openConns, aborted, ref, ptp, free, nextUid, fetchTurn, hartsOn, ssip, up, paused, refStopped, netHalted, stalls,
      phase, mem, conns, links, cmds, qs, xlat, bind, pennants, hoist, servo, mgmt, headroom, harts, hcache, tiles, log, store, palur, power, xc } :=
  h.of_eq rfl

theorem PageKept.ite {c : Prop} {_ : Decidable c} {a b : State} (ha : PageKept o a) (hb : PageKept o b) : PageKept o (if c then a else b) := by
  split
  · exact ha
  · exact hb

theorem PageKept.foldl {α : Type} {f : State → α → State} {l : List α} (h : PageKept o s) (hf : ∀ t x, PageKept o t → PageKept o (f t x)) :
    PageKept o (l.foldl f s) := by
  induction l generalizing s with
  | nil => exact h
  | cons x l ih => exact ih (hf s x h)

/-- A run over a list whose elements are known. -/
theorem PageKept.foldlMem {α : Type} {f : State → α → State} {l : List α} (h : PageKept o s)
    (hf : ∀ t x, x ∈ l → PageKept o t → PageKept o (f t x)) : PageKept o (l.foldl f s) := by
  induction l generalizing s with
  | nil => exact h
  | cons x l ih => exact ih (hf s x (.head l) h) fun t y hy => hf t y (.tail x hy)

theorem PageKept.pair {α : Type} {r : α} (h : PageKept o s) : PageKept o (s, r).1 := h

theorem PageKept.of_fst {α : Type} {y : State × α} {r : α} (h : PageKept o y.1) (e : y = (t, r)) : PageKept o t := by
  rw [e] at h; exact h

theorem PageKept.some (h : PageKept o s) : OptPageKept o (some s) := by
  rintro _ ⟨⟩; exact h

theorem OptPageKept.none : OptPageKept o .none := by
  intro t e; simp at e
end

section
variable {o s : State}

/-! Machine/Ops. -/

theorem PageKept.then_wr {p : Page} {off v : Nat} (h : PageKept o s) (hoff : beyondPage off = true) :
    PageKept o (s.wr p off v) := by
  rw [beyondPage, Bool.and_eq_true, decide_eq_true_eq] at hoff
  obtain ⟨hsets, hctrl, hstatus, hbind⟩ := hoff
  refine h.trans ⟨wr_setsKept s p v hsets, fun q => ?_, fun q n _ => ?_, fun q => ?_⟩
  · rw [rd_wr, if_neg (regKey_ne_of_offset (by omega))]
  · rw [State.rdB, rd_wr, if_neg (regKey_ne_of_offset (by omega)), State.rdB]
  · rw [rd_wr, if_neg (regKey_ne_of_offset (by omega))]

/-- A field of STATUS above its common bits is written. -/
theorem PageKept.then_status {p : Page} {lo len v : Nat} (h : PageKept o s) (hlo : 3 ≤ lo) :
    PageKept o (s.wrF p 0x14 lo len v) := by
  refine h.trans ⟨wr_setsKept s p _ (by decide), fun q => ?_, fun q n hn => ?_, fun q => ?_⟩
  · rw [State.wrF, rd_wr, if_neg (regKey_ne_of_offset (by decide))]
  · rw [State.rdB, State.wrF, rd_wr]
    split
    · next hkey =>
      have hrd : s.rd q 0x14 = s.rd p 0x14 := by rw [State.rd, State.rd, hkey]
      rw [bit, Nat.testBit_mod_two_pow, testBit_putBits, if_neg (by omega), State.rdB, bit, hrd]
      simp [show n < 32 by omega]
    · rw [State.rdB]
  · rw [State.wrF, rd_wr, if_neg (regKey_ne_of_offset (by decide))]

theorem PageKept.then_wr64 {p : Page} {off v : Nat}
    (h : PageKept o s) (hlo : beyondPage off = true) (hhi : beyondPage (off + 4) = true) : 
    PageKept o (s.wr64 p off v) :=
  (h.then_wr hlo).then_wr hhi

theorem PageKept.then_wrF {p : Page} {off lo len v : Nat} (h : PageKept o s) (hoff : beyondPage off = true) :
    PageKept o (s.wrF p off lo len v) :=
  h.then_wr hoff

theorem PageKept.then_inc {p : Page} {off n : Nat} (h : PageKept o s) (hoff : beyondPage off = true) :
    PageKept o (s.inc p off n) :=
  h.then_wr hoff

theorem PageKept.then_modMem {f : MemSys → MemSys} (h : PageKept o s) : PageKept o (s.modMem f) :=
  h.of_eq rfl

theorem PageKept.then_freeNext (h : PageKept o s) : PageKept o s.freeNext :=
  h.of_eq rfl

theorem PageKept.then_setTile {t : Nat} {x : Tile} (h : PageKept o s) : PageKept o (s.setTile t x) :=
  h.of_eq rfl

theorem PageKept.then_modTile {t : Nat} {f : Tile → Tile} (h : PageKept o s) : PageKept o (s.modTile t f) :=
  h.of_eq rfl

/-! Machine/Flags. -/

theorem beyondPage_flagCount {n : Nat} (hn : n < 32) : beyondPage (0x780 + 4 * n) = true := by
  simp only [beyondPage, beyondSets, Bool.and_eq_true, decide_eq_true_eq]; omega

theorem PageKept.then_setFlag {p : Page} {n : Nat} (h : PageKept o s) (hn : n < 32) : PageKept o (setFlag s p n) :=
  ((h.then_wr (by decide)).then_inc (beyondPage_flagCount hn)).then_inc (by decide)

theorem PageKept.then_raise {p : Page} {n code queue addr : Nat} {detail : List Nat} (h : PageKept o s) (hn : n < 32) :
    PageKept o (raise s p n code queue addr detail) :=
  (h.then_setFlag hn).of_eq (raise_regs s p n code queue addr detail)

theorem PageKept.then_opStart {p : Page} {unit shift : Nat} (h : PageKept o s) : PageKept o (opStart s p unit shift) := by
  unfold opStart
  extract_lets s1
  have hs1 : PageKept o s1 := (h.then_wr (by decide)).then_status (by decide)
  exact PageKept.ite (hs1.then_wr (by decide)) hs1

theorem PageKept.then_opProgress {p : Page} {done total u : Nat} (h : PageKept o s) : PageKept o (opProgress s p done total u) :=
  h.then_wr (by decide)

theorem PageKept.then_opFail {p : Page} (h : PageKept o s) : PageKept o (opFail s p) :=
  (h.then_status (by decide)).then_raise (by decide)

/-! Machine/Mem. -/

theorem PageKept.then_sliceTouch {r : Requester} {a n : Nat} {wr : Bool} (h : PageKept o s) : PageKept o (sliceTouch s r a n wr) :=
  h.of_eq rfl

theorem PageKept.then_ueEvent {r : Requester} {a : Nat} (h : PageKept o s) : PageKept o (ueEvent s r a) := by
  unfold ueEvent
  extract_lets p b s1 s2
  have hs1 : PageKept o s1 := h.then_inc (by decide)
  exact (PageKept.ite hs1 ((hs1.then_wr64 (by decide) (by decide)).then_wr (by decide))).then_raise (by decide)

theorem PageKept.then_ueEvents {r : Requester} {l : List Nat} (h : PageKept o s) : PageKept o (ueEvents s r l) :=
  h.foldl fun _ _ hu => hu.then_ueEvent

theorem PageKept.then_writeSkip {skip : List Nat} {a : Nat} {l : List Byte} (h : PageKept o s) :
    PageKept o (writeSkip s skip a l) := by
  induction l generalizing s a with
  | nil => exact h
  | cons b l ih => exact ih (PageKept.ite h (h.of_eq (t := s.hwr a [b]) rfl))

theorem PageKept.then_dropTags {a n : Nat} (h : PageKept o s) : PageKept o (dropTags s a n) :=
  h.of_eq rfl

theorem PageKept.then_wroteBlocks {skip : List Nat} {a n : Nat} (h : PageKept o s) : PageKept o (wroteBlocks s skip a n) :=
  h.of_eq rfl

theorem PageKept.then_memWrite {r : Requester} {a : Nat} {data : List Byte} (h : PageKept o s) :
    PageKept o (memWrite s r a data).1 := by
  unfold memWrite
  extract_lets n lost part s1 s2 s3
  have hs1 : PageKept o s1 := h.then_sliceTouch.then_writeSkip
  have hs3 : PageKept o s3 := hs1.same.then_wroteBlocks
  split
  · exact h.pair
  · split
    · exact h.pair
    · clear_value part
      split
      · exact hs3.pair
      · exact hs3.then_ueEvents.pair

theorem PageKept.then_tagRelease {a n scope : Nat} {t : RelTag} (h : PageKept o s) : PageKept o (tagRelease s a n scope t) :=
  PageKept.ite h.then_dropTags.same h.then_dropTags

/-! Machine/Net. -/

theorem PageKept.then_setConn {c : Nat} {x : ConnSt} (h : PageKept o s) : PageKept o (s.setConn c x) :=
  h.of_eq rfl

theorem PageKept.then_modConn {c : Nat} {f : ConnSt → ConnSt} (h : PageKept o s) : PageKept o (s.modConn c f) :=
  h.of_eq rfl

theorem PageKept.then_setLink {l : Nat} {x : LinkSt} (h : PageKept o s) : PageKept o (s.setLink l x) :=
  h.of_eq rfl

theorem PageKept.then_modLink {l : Nat} {f : LinkSt → LinkSt} (h : PageKept o s) : PageKept o (s.modLink l f) :=
  h.of_eq rfl

theorem PageKept.then_setConnState {c st : Nat} (h : PageKept o s) : PageKept o (setConnState s c st) :=
  (h.same.then_status (by decide)).then_wr (by decide)

theorem PageKept.then_cutBegun {l vc : Nat} {whole : List Byte} (h : PageKept o s) : PageKept o (cutBegun s l vc whole) :=
  PageKept.ite ((h.then_inc (by decide)).then_modConn) (h.then_inc (by decide))

theorem PageKept.then_linkSendCtl {l : Nat} (h : PageKept o s) : OptPageKept o (linkSendCtl s l) := by
  unfold linkSendCtl
  extract_lets k
  split
  · exact OptPageKept.none
  · split
    · exact OptPageKept.none
    · exact h.then_setLink.some

theorem PageKept.then_linkSendOne {l vc : Nat} (h : PageKept o s) : OptPageKept o (linkSendOne s l vc) := by
  unfold linkSendOne
  extract_lets k
  split
  · exact OptPageKept.none
  · split
    · exact OptPageKept.none
    · split
      · exact OptPageKept.none
      · exact (PageKept.ite h.then_setLink.then_cutBegun h.then_setLink).some

theorem PageKept.then_linkPump {n l : Nat} (h : PageKept o s) : PageKept o (linkPump n l s) := by
  induction n generalizing s with
  | zero => exact h
  | succ n ih =>
    unfold linkPump
    split
    · next e => exact ih (h.then_linkSendCtl _ e)
    · split
      · next e => exact ih (h.then_linkSendOne _ e)
      · split
        · next e => exact ih (h.then_linkSendOne _ e)
        · split
          · next e => exact ih (h.then_linkSendOne _ e)
          · exact h

theorem PageKept.then_linkReplay {l : Nat} (h : PageKept o s) : PageKept o (linkReplay s l) :=
  PageKept.ite (h.then_modLink.foldl (fun _ _ hu => hu.then_modLink)) h

theorem PageKept.then_linkGo {l : Nat} (h : PageKept o s) : PageKept o (linkGo l s) :=
  h.then_linkReplay.then_linkPump

theorem PageKept.then_linkSend {l : Nat} {p : Packet} (h : PageKept o s) : PageKept o (linkSend s l p) :=
  h.then_modLink.then_linkGo

theorem PageKept.then_connPump {n c : Nat} (h : PageKept o s) : PageKept o (connPump n c s) := by
  induction n generalizing s with
  | zero => exact h
  | succ n ih =>
    unfold connPump
    extract_lets k p seq
    split
    · exact h
    · split
      · exact h
      · exact ih ((((h.then_setConn.then_wr (by decide)).then_wr (by decide)).then_wr (by decide)).then_linkSend)

theorem PageKept.then_repump {full : Bool} (h : PageKept o s) : PageKept o (repump full s) :=
  PageKept.ite (h.foldl (fun _ _ hu => PageKept.ite hu hu.then_connPump)) h

/-! Machine/Threads. -/

theorem PageKept.then_modBlock {t id : Nat} {f : Block → Block} (h : PageKept o s) : PageKept o (s.modBlock t id f) :=
  h.of_eq rfl

theorem PageKept.then_modGroup {gr : GRef} {f : Group → Group} (h : PageKept o s) : PageKept o (s.modGroup gr f) :=
  h.of_eq rfl

theorem PageKept.then_cmdFault {uid : Nat} {f : CmdFault} (h : PageKept o s) : PageKept o (cmdFault s uid f) :=
  h.of_eq rfl

/-! Machine/Engines. -/

theorem PageKept.then_latchEng {t info lost : Nat} {words : List (Nat × Nat)} (h : PageKept o s) (hlost : beyondPage lost = true)
    (hwords : words.all (fun w => beyondPage w.1) = true) : PageKept o (latchEng s t info lost words) :=
  PageKept.ite (h.then_inc hlost) (h.foldlMem fun _ _ hw hu => hu.then_wr (List.all_eq_true.mp hwords _ hw))

/-! Machine/Dma. -/

theorem PageKept.then_modDma {t : Nat} {f : DmaEng → DmaEng} (h : PageKept o s) : PageKept o (s.modDma t f) :=
  h.of_eq rfl

theorem PageKept.then_dmaFault {t : Nat} {d : Desc} {code field addr kind prog : Nat} (h : PageKept o s) :
    PageKept o (dmaFault s t d code field addr kind prog) := by
  unfold dmaFault
  extract_lets info s1 s2 s3
  have hs1 : PageKept o s1 := h.then_latchEng (by decide) (by simp only [List.all_cons, List.all_nil]; decide)
  have hs3 : PageKept o s3 := (hs1.then_raise (by decide)).then_cmdFault
  split
  · exact PageKept.ite (hs3.then_modDma.then_raise (by decide)) hs3
  · exact hs3

theorem PageKept.then_dmaFailHead {t : Nat} {d : Desc} {code field addr kind : Nat} (h : PageKept o s) :
    PageKept o (dmaFailHead s t d code field addr kind) :=
  h.then_dmaFault.then_modDma

theorem PageKept.then_dmaAbortWaiting {t : Nat} (h : PageKept o s) : PageKept o (dmaAbortWaiting s t) := by
  unfold dmaAbortWaiting
  split
  · exact PageKept.ite h.then_dmaFailHead h
  · exact h

theorem PageKept.then_dmaFailJob {t : Nat} {j : DmaJob} {code field addr kind : Nat} (h : PageKept o s) :
    PageKept o (dmaFailJob s t j code field addr kind) :=
  h.then_dmaFault.then_modDma.then_dmaAbortWaiting

theorem PageKept.then_dmaWriteLost {t : Nat} {d : Desc} {code : Nat} (h : PageKept o s) :
    PageKept o (dmaWriteLost s t d code) := by
  unfold dmaWriteLost
  split
  · exact h.then_modDma
  · exact h

theorem PageKept.then_dmaPartFail {t uid at_ code addr : Nat} (h : PageKept o s) :
    PageKept o (dmaPartFail s t uid at_ code addr) := by
  unfold dmaPartFail
  split
  · exact h
  · extract_lets parts s1 s2
    have hs1 : PageKept o s1 := h.then_modDma
    have hs2 : PageKept o s2 := PageKept.ite hs1.then_dmaWriteLost hs1
    exact PageKept.ite hs2 hs2.then_dmaFailJob

/-! Machine/Xlat. -/

theorem PageKept.then_poolUsed (h : PageKept o s) : PageKept o (poolUsed s) :=
  h.then_wr (by decide)

/-! Machine/Bind. -/

theorem PageKept.then_setQState {q st : Nat} (h : PageKept o s) : PageKept o (setQState s q st) := by
  unfold setQState
  extract_lets x s1
  exact (PageKept.ite (h.same.then_wr (by decide)) (PageKept.ite (h.then_inc (by decide)) h)).then_status (by decide)

theorem PageKept.then_scrubTile {t : Nat} (h : PageKept o s) : PageKept o (scrubTile s t) :=
  h.of_eq rfl

theorem PageKept.then_resetWork {p : Page} (h : PageKept o s) : PageKept o (resetWork s p) := by
  unfold resetWork
  split
  · exact h.then_scrubTile.then_setTile
  · have hdoorbells : ∀ x ∈ [0x200, 0x204, 0x208, 0x20C, 0x210], beyondPage x = true := by decide
    exact ((h.then_setQState.foldlMem fun _ x hx hu => hu.then_wr (hdoorbells x hx)).same).then_poolUsed
  · exact (h.then_setConn.then_setConnState.then_wr (by decide)).then_wr (by decide)
  · exact h

theorem PageKept.then_rewatch {q : Nat} (h : PageKept o s) : PageKept o (rewatch s q) :=
  h.of_eq rfl

/-! Machine/Queue. -/

theorem PageKept.then_modCmd {uid : Nat} {f : Cmd → Cmd} (h : PageKept o s) : PageKept o (s.modCmd uid f) :=
  h.of_eq rfl

theorem PageKept.then_cmdEnd2 {uid : Nat} (h : PageKept o s) : PageKept o (cmdEnd2 s uid) :=
  h.of_eq rfl

theorem PageKept.then_cmdFail {c : Cmd} {code detail : Nat} (h : PageKept o s) : PageKept o (cmdFail s c code detail) :=
  h.of_eq rfl

/-! Machine/Cmds. -/

theorem PageKept.then_cmdPartFail {uid part code : Nat} (h : PageKept o s) : PageKept o (cmdPartFail s uid part code) := by
  unfold cmdPartFail
  split
  · exact h
  · extract_lets s1
    have hs1 : PageKept o s1 := h.then_modCmd
    split
    · exact hs1.then_cmdFault
    · exact hs1.then_cmdFault
    · exact hs1.then_cmdFault
    · exact hs1.then_cmdFail
    · exact hs1.then_cmdFault

/-! Machine/Handler. -/

theorem PageKept.then_setMig {m : Option Mig} (h : PageKept o s) : PageKept o (setMig s m) :=
  h.of_eq rfl

theorem PageKept.then_migFail {cause : Nat} (h : PageKept o s) : PageKept o (migFail s cause) :=
  (h.then_setMig.then_wr (by decide)).then_opFail

theorem PageKept.then_migPartFail {uid code : Nat} (h : PageKept o s) : PageKept o (migPartFail s uid code) := by
  unfold migPartFail
  split
  · exact h
  · exact PageKept.ite h h.then_migFail

/-! Machine/Slices. -/

theorem PageKept.then_retWrite {r : RetRow} (h : PageKept o s) : PageKept o (retWrite s r) :=
  h.then_memWrite.then_tagRelease.then_wr (by decide)

theorem PageKept.then_retPost {r : RetRow} (h : PageKept o s) : PageKept o (retPost s r) := by
  unfold retPost
  split
  · exact h
  · exact PageKept.ite h.then_retWrite (PageKept.ite h.then_modMem (h.then_raise (by decide)))

theorem PageKept.then_retDrain {n st : Nat} (h : PageKept o s) : PageKept o (retDrain n st s) := by
  induction n generalizing s with
  | zero => exact h
  | succ n ih =>
    unfold retDrain
    split
    · exact h
    · split
      · exact h
      · exact ih h.then_modMem.then_retWrite

theorem PageKept.then_retConfigured {st : Nat} (h : PageKept o s) : PageKept o (retConfigured s st) :=
  PageKept.ite h.then_retDrain (h.then_modMem.foldl (fun _ _ hu => hu.then_retPost))

/-! Machine/Links. -/

theorem PageKept.then_modAccess {gr : GRef} {id : Nat} {f : Access → Access} (h : PageKept o s) :
    PageKept o (modAccess s gr id f) :=
  h.of_eq rfl

theorem PageKept.then_ctxFail {c : PCtx} {code addr : Nat} (h : PageKept o s) : PageKept o (ctxFail s c code addr) := by
  unfold ctxFail
  split
  · exact h.then_modAccess
  · exact h.then_dmaPartFail
  · exact h.then_cmdPartFail
  · exact h.then_migPartFail

theorem PageKept.then_setOut {c : Nat} {l : List OutPkt} (h : PageKept o s) : PageKept o (setOut s c l) :=
  (h.then_modConn.then_wr (by decide)).then_wr (by decide)

theorem PageKept.then_connFailAll {c code : Nat} (h : PageKept o s) : PageKept o (connFailAll s c code) :=
  (h.then_modConn.then_setOut.foldl (fun _ _ hu => hu.then_ctxFail)).then_repump

theorem PageKept.then_connDown {c cause : Nat} (h : PageKept o s) : PageKept o (connDown s c cause) :=
  ((h.then_setConnState.then_modConn.then_wr (by decide)).then_raise (by decide)).then_connFailAll

theorem PageKept.then_connLinkDown {c : Nat} (h : PageKept o s) : PageKept o (connLinkDown s c) := by
  unfold connLinkDown
  split
  · exact h.then_connDown
  · exact h.then_connDown
  · exact h.then_connDown
  · exact h.then_connDown
  · exact h

theorem PageKept.then_setLinkState {l st : Nat} (h : PageKept o s) : PageKept o (setLinkState s l st) :=
  (h.then_status (by decide)).then_wrF (by decide)

theorem PageKept.then_startTraining {l : Nat} (h : PageKept o s) : PageKept o (startTraining s l) :=
  h.then_opStart.then_opProgress.then_setLinkState.then_setLink

theorem PageKept.then_sendControl {l : Nat} {payload : List Byte} (h : PageKept o s) : PageKept o (sendControl s l payload) :=
  h.then_modLink.then_linkGo

theorem PageKept.then_startRetrain {l : Nat} {ask : Bool} (h : PageKept o s) : PageKept o (startRetrain s l ask) := by
  unfold startRetrain
  split
  · exact h
  · extract_lets s0
    exact ((((PageKept.ite h.then_sendControl h).then_setLinkState).then_modLink).then_inc (by decide)).then_raise (by decide)

theorem PageKept.then_goDark {l : Nat} (h : PageKept o s) : PageKept o (goDark s l) := by
  unfold goDark
  extract_lets s1 s2 x s3
  have hs1 : PageKept o s1 := h.then_wrF (by decide)
  have hs3 : PageKept o s3 := (((PageKept.ite hs1.then_opFail hs1).then_setLinkState).then_wr (by decide)).then_modLink
  exact PageKept.ite hs1 (hs3.foldl (fun _ _ hu => hu.then_connLinkDown))

theorem PageKept.then_portChange {l : Nat} (h : PageKept o s) : PageKept o (portChange s l) := by
  unfold portChange
  split
  · exact PageKept.ite ((h.then_wrF (by decide)).then_startTraining) (h.then_wrF (by decide))
  · exact h.then_goDark

/-! Machine/Time. -/

theorem PageKept.then_modServo {f : Ptp → Ptp} (h : PageKept o s) : PageKept o (s.modServo f) :=
  h.of_eq rfl

theorem PageKept.then_toHoldover (h : PageKept o s) : PageKept o (toHoldover s) := by
  unfold toHoldover
  split
  · exact (((h.then_wrF (by decide)).then_inc (by decide)).then_modServo).then_raise (by decide)
  · exact h

/-! Machine/Errlog. -/

theorem PageKept.then_modLog {f : Log → Log} (h : PageKept o s) : PageKept o (s.modLog f) :=
  h.of_eq rfl

theorem PageKept.then_logWrite {seq : Nat} {b : List Byte} (h : PageKept o s) : PageKept o (logWrite s seq b) :=
  h.then_memWrite.then_tagRelease.then_wr (by decide)

theorem PageKept.then_logDrain {n : Nat} (h : PageKept o s) : PageKept o (logDrain n s) := by
  induction n generalizing s with
  | zero => exact h
  | succ n ih =>
    unfold logDrain
    split
    · exact h.then_modLog
    · split
      · exact h
      · exact PageKept.ite h (ih h.then_modLog.then_logWrite)

/-! Machine/Hostc. -/

theorem PageKept.then_mgmtSend {f : MgmtFrame} (h : PageKept o s) : PageKept o (mgmtSend s f) :=
  h.of_eq rfl

theorem PageKept.then_dhcpStart (h : PageKept o s) : PageKept o (dhcpStart s) :=
  PageKept.ite h.same.then_freeNext.same.then_mgmtSend h.same

theorem PageKept.then_mgmtDown (h : PageKept o s) : PageKept o (mgmtDown s) :=
  PageKept.ite (((h.then_wr (by decide)).then_raise (by decide)).then_toHoldover) h

/-! Machine/Palur. -/

theorem PageKept.then_modStore {f : Store → Store} (h : PageKept o s) : PageKept o (s.modStore f) :=
  h.of_eq rfl

/-! Machine/Pages. -/

theorem PageKept.then_afterSwap {old : State} {p : Page} (h : PageKept o s) : PageKept o (afterSwap old s p) := by
  unfold afterSwap
  split
  · extract_lets n
    split
    · exact h
    · exact ((h.then_wr (by decide)).then_raise (by decide)).foldl fun _ _ hu => hu.then_startRetrain
  · exact PageKept.ite h.then_retConfigured h
  · exact PageKept.ite ((h.then_wr (by decide)).then_wr (by decide)) h
  · exact h.then_rewatch
  · exact h.then_logDrain
  · exact PageKept.ite h.then_modStore.then_dhcpStart h.then_modStore
  · exact h.then_modStore
  · exact h

end

/-! Changes of enable and of the binding. -/

theorem setEnabled_setsKept (s : State) (p : Page) (v : Bool) : SetsKept s (setEnabled s p v) :=
  (wr_setsKept s p _ (by decide)).trans (wr_setsKept _ p _ (by decide))

theorem setBstate_setsKept (s : State) (p : Page) (v : Nat) : SetsKept s (setBstate s p v) := by
  have hwr : SetsKept s (s.wrF p 0x608 0 3 v) := wr_setsKept s p _ (by decide)
  unfold setBstate
  extract_lets s1
  split
  · exact hwr.trans (PageKept.refl s1).then_rewatch.sets
  · exact hwr

theorem bindFlag_lt (p : Page) : bindFlag p + 2 < 32 := by
  unfold bindFlag; split <;> decide

theorem quarantine_setsKept (s : State) (p : Page) : SetsKept s (quarantine s p) := by
  have hs := PageKept.refl s
  unfold quarantine
  split
  · have hbit : SetsKept s ((setBstate s p 4).wrF p 0x14 2 1 1) := (setBstate_setsKept s p 4).trans (wr_setsKept _ p _ (by decide))
    exact hbit.trans ((PageKept.refl _).then_resetWork.then_raise (bindFlag_lt p)).sets
  · split
    · split
      · exact hs.then_scrubTile.then_setTile.sets
      · exact hs.then_resetWork.then_setQState.sets
      · exact hs.then_resetWork.then_setConnState.sets
      · exact hs.sets
    · exact (PageKept.ite hs.then_scrubTile.then_setTile hs).sets

theorem renewed_setsKept (s : State) (p : Page) : SetsKept s (renewed s p) := by
  unfold renewed staleUnit
  split
  · exact (PageKept.ite (PageKept.refl s).then_connFailAll (PageKept.refl s)).sets.trans (quarantine_setsKept _ p)
  · exact setsKept_of_eq rfl

/-- STATUS.enabled follows CTRL.enable without a change of any configuration set. -/
theorem settleEnable_setsKept (s : State) (p : Page) : SetsKept s (settleEnable s p) := by
  unfold settleEnable
  extract_lets on s1
  have hs1 : SetsKept s s1 := (setEnabled_setsKept s p on).trans ((PageKept.refl _).foldl fun _ _ hu => hu.then_portChange).sets
  split
  · exact setsKept_of_eq rfl
  · split
    · exact hs1.trans (renewed_setsKept s1 p)
    · exact hs1.trans (PageKept.ite (PageKept.refl s1).then_mgmtDown (PageKept.refl s1)).sets

end Sys2Proof.Machine
end

section
/-! Swaps and shadow loads (O22). -/

namespace Sys2Proof.Machine

open Sys2Proof

/-! Commands at a page. -/

theorem exec_ctrlSwap (p : Page) (load : Bool) (s : State) : exec (.ctrlSwap p load) s = execCtrlSwap p load s := rfl
theorem exec_shadowLoad (p : Page) (s : State) : exec (.shadowLoad p) s = execShadowLoad p s := rfl
theorem exec_swap (p : Page) (s : State) : exec (.swap p) s = execSwap p s := rfl

theorem up_of_reached {s : State} {p : Page} (h : reached s p = true) : s.up = true := by
  rw [reached, served, Bool.and_eq_true, Bool.and_eq_true] at h
  exact h.1.1

/-- A command of a page that exists and is reached has its effect. -/
theorem onUnit_reached {s : State} {p : Page} (hp : pageOk p = true) (hr : reached s p = true) (t : State) :
    onUnit (pageOk p) (if reached s p then t else s) = .next t := by rw [onUnit, if_pos hp, if_pos hr]

/-! Words of a page and of its configuration sets. -/

theorem rd_aligned_ne {p : Page} {a b : Nat} (ha : a % 4 = 0) (hb : b % 4 = 0) (h : a ≠ b) : ∀ x ∈ [(p, b)], regKey p a ≠ regKey x.1 x.2 := by
  simpa using regKey_ne p ha hb h

/-- Words of a page, none of which is a word of a flag, and then a set event of that flag. -/
theorem OnlyWords.then_raise_page {s u : State} {p : Page} {offs : List Nat} (h : OnlyWords s u (offs.map (fun a => (p, a)))) {n : Nat}
    (hn : n < 32) (h4 : ∀ a ∈ offs, a % 4 = 0) (hne : ∀ a ∈ offs, a ≠ 0x18 ∧ a ≠ 0x1C ∧ a ≠ 0x780 + 4 * n) (code queue addr : Nat) (detail : List Nat) :
    WordsAndFlag s (raise u p n code queue addr detail) (offs.map (fun a => (p, a))) p n := by
  refine h.then_raise ?_ code queue addr detail hn
  intro y hy x hx
  obtain ⟨a, ha, rfl⟩ := List.mem_map.mp hx
  obtain ⟨h18, h1c, hcount⟩ := hne a ha
  simp only [flagWords, List.mem_cons, List.not_mem_nil, or_false] at hy
  rcases hy with rfl | rfl | rfl
  · exact regKey_ne p (show 0x18 % 4 = 0 by decide) (h4 a ha) (Ne.symm h18)
  · exact regKey_ne p (show 0x1C % 4 = 0 by decide) (h4 a ha) (Ne.symm h1c)
  · exact regKey_ne p (by simp only; omega) (h4 a ha) (Ne.symm hcount)

/-- A set event leaves a word of its page that is none of the flag's. -/
theorem rd_raise {s : State} {p : Page} {n code queue addr : Nat} {detail : List Nat} {a : Nat} (h4 : a % 4 = 0)
    (hne : a ≠ 0x18 ∧ a ≠ 0x1C ∧ a ≠ 0x780 + 4 * n) : (raise s p n code queue addr detail).rd p a = s.rd p a := by
  obtain ⟨h18, h1c, hcount⟩ := hne
  refine (raise_kept s p n code queue addr detail).rd ?_
  simp only [flagWords, List.forall_mem_cons]
  exact ⟨regKey_ne p h4 (by decide) h18, regKey_ne p h4 (by decide) h1c, regKey_ne p h4 (by omega) hcount, by simp⟩

/-- A write of what a word holds leaves every word. -/
theorem rd_wr_same (s : State) (p q : Page) (a b v : Nat) (h : v % 2 ^ 32 = s.rd p a) : (s.wr p a v).rd q b = s.rd q b := by
  rw [rd_wr]
  split
  · next hkey => rw [h, State.rd, State.rd, hkey]
  · rfl

/-- The bits of a field written with what they hold. -/
theorem putBits_same (x lo len : Nat) : putBits x lo len (bits x lo len) = x := by
  apply Nat.eq_of_testBit_eq
  intro i
  rw [testBit_putBits, testBit_bits]
  split
  · rw [decide_eq_true (show i - lo < len by omega), Bool.true_and, show lo + (i - lo) = i by omega]
  · rfl

theorem bits_one (x lo : Nat) : bits x lo 1 = b2n (x.testBit lo) := by
  rw [bits, Nat.testBit_eq_decide_div_mod_eq, b2n]
  have := Nat.mod_two_eq_zero_or_one (x / 2 ^ lo)
  simp only [pow_one]
  rcases this with h | h <;> simp [h]

/-! The request and the load. -/

theorem requestSwap_swapPending (s : State) (p : Page) : (requestSwap s p).swapPending p = true :=
  (rdB_wrF_bit s p 0x14 1 1 true (by decide)).trans (if_pos rfl)

theorem requestSwap_onlyWords (s : State) (p : Page) : OnlyWords s (requestSwap s p) [(p, 0x14)] := ⟨wrF_kept s p _ _ _ _, wr_only s p _ _⟩

/-- A second request changes nothing (02_register_pages.md R49). -/
theorem requestSwap_again {s : State} {p : Page} (h : s.swapPending p = true) (q : Page) (a : Nat) : (requestSwap s p).rd q a = s.rd q a := by
  have hbits : bits (s.rd p 0x14) 1 1 = 1 := by
    rw [bits_one, show (s.rd p 0x14).testBit 1 = true from h]; rfl
  have hput := putBits_same (s.rd p 0x14) 1 1
  rw [hbits] at hput
  exact rd_wr_same s p q 0x14 a _ (by rw [hput, Nat.mod_eq_of_lt (rd_lt s p 0x14)])

/-- The words of one set of a page, from its base on. -/
def setWords (p : Page) (b : Nat) : List (Page × Nat) := (List.range (caps p.blk).words).map (fun i => (p, b + 4 * i))

/-- A run of word copies between places of a page that do not meet. -/
theorem copyWords_spec (s : State) (p : Page) (src dst n : Nat) (hsrc : src % 4 = 0) (hdst : dst % 4 = 0)
    (hmeet : src + 4 * n ≤ dst ∨ dst + 4 * n ≤ src) :
    let t := (List.range n).foldl (fun s i => s.wr p (dst + 4 * i) (s.rd p (src + 4 * i))) s
    OnlyWords s t ((List.range n).map (fun i => (p, dst + 4 * i))) ∧ ∀ i, i < n → t.rd p (dst + 4 * i) = s.rd p (src + 4 * i) := by
  induction n with
  | zero => exact ⟨⟨regsKept_of_regs_eq rfl _, rfl⟩, fun i hi => absurd hi (by omega)⟩
  | succ n ih =>
    obtain ⟨⟨hkept, honly⟩, hval⟩ := ih (by omega)
    simp only [List.range_succ, List.foldl_append, List.foldl_cons, List.foldl_nil, List.map_append, List.map_cons, List.map_nil]
    generalize (List.range n).foldl (fun s i => s.wr p (dst + 4 * i) (s.rd p (src + 4 * i))) s = u at *
    have hread : u.rd p (src + 4 * n) = s.rd p (src + 4 * n) := by
      refine hkept.rd ?_
      intro x hx
      obtain ⟨i, hi, rfl⟩ := List.mem_map.mp hx
      have := List.mem_range.mp hi
      exact regKey_ne p (by omega) (by simp only; omega) (by simp only; omega)
    refine ⟨⟨hkept.trans (wr_kept u p _ _), honly.trans (wr_only u p _ _)⟩, fun i hi => ?_⟩
    by_cases hlast : i = n
    · subst hlast
      rw [rd_wr_self, hread, Nat.mod_eq_of_lt (rd_lt s p _)]
    · rw [rd_wr_off u p _ (by omega) (by omega) (by omega), hval i (by omega)]

theorem copySet_spec (s : State) (p : Page) (src dst : Nat) (hsrc : src % 4 = 0) (hdst : dst % 4 = 0)
    (hmeet : src + 192 ≤ dst ∨ dst + 192 ≤ src) :
    OnlyWords s (copySet s p src dst) (setWords p dst) ∧ ∀ i, i < (caps p.blk).words → (copySet s p src dst).rd p (dst + 4 * i) = s.rd p (src + 4 * i) := by
  have hw := words_le p.blk
  exact copyWords_spec s p src dst _ hsrc hdst (by omega)

/-! The swap. -/

/-- The state behind a completed swap, before what the swap brings about. -/
def swapped (s : State) (p : Page) : State := ((copySet s p 0x900 0x100).inc p 0x704 1).wrF p 0x14 1 1 0

/-- A swap that its check refuses. -/
def swapRefused (s : State) (p : Page) (off reason : Nat) : State := (s.wr p 0x700 (off + 4096 * reason)).wrF p 0x14 1 1 0

theorem performSwap_some {s : State} {p : Page} {off reason : Nat} (h : swapCheck s p = some (off, reason)) :
    performSwap s p = raise (swapRefused s p off reason) p 0 0 0xFFFF off := by rw [performSwap, h]; rfl

theorem performSwap_none {s : State} {p : Page} (h : swapCheck s p = none) : performSwap s p = afterSwap s (swapped s p) p := by
  rw [performSwap, h]; rfl

theorem settleEnable_eq_self {s : State} {p : Page} (h : s.rdB p 0x10 0 = s.enabled p) : settleEnable s p = s := by
  rw [settleEnable]; exact if_pos h

theorem execSwap_atPoint {s : State} {p : Page} (hp : pageOk p = true) (hup : s.up = true) (hat : atSwapPoint s p = true) :
    exec (.swap p) s = .next (settleEnable (if s.swapPending p then performSwap s p else s) p) := by
  rw [exec_swap, execSwap, onUnit, if_pos hp, if_pos hup, atPoint, if_pos hat, pointReached]

theorem swapped_onlyWords (s : State) (p : Page) : OnlyWords s (swapped s p) (setWords p 0x100 ++ [(p, 0x704), (p, 0x14)]) := by
  obtain ⟨⟨hkept, honly⟩, -⟩ := copySet_spec s p 0x900 0x100 (by decide) (by decide) (by decide)
  refine ⟨?_, (honly.trans (wr_only _ p _ _)).trans (wr_only _ p _ _)⟩
  have h := (hkept.trans (inc_kept (copySet s p 0x900 0x100) p 0x704 1)).trans (wrF_kept _ p 0x14 1 1 0)
  rwa [List.append_assoc] at h

/-- A word beside the active set, SWAPS and STATUS reads as before a swap. -/
theorem rd_swapped_off (s : State) (p : Page) {a : Nat} (h4 : a % 4 = 0) (hset : a < 0x100 ∨ 0x1C0 ≤ a) (h704 : a ≠ 0x704) (h14 : a ≠ 0x14) :
    (swapped s p).rd p a = s.rd p a := by
  obtain ⟨hkept, -⟩ := swapped_onlyWords s p
  refine hkept.rd ?_
  have hw := words_le p.blk
  simp only [setWords, List.forall_mem_append, List.forall_mem_cons, List.forall_mem_map, List.mem_range]
  exact ⟨fun i hi => regKey_ne p h4 (by omega) (by omega), regKey_ne p h4 (by decide) h704, regKey_ne p h4 (by decide) h14, by simp⟩

/-- A swap copies every word of the shadow set (R46). -/
theorem rd_swapped_active (s : State) (p : Page) {i : Nat} (hi : i < (caps p.blk).words) : (swapped s p).rd p (0x100 + 4 * i) = s.rd p (0x900 + 4 * i) := by
  obtain ⟨-, hval⟩ := copySet_spec s p 0x900 0x100 (by decide) (by decide) (by decide)
  have hw := words_le p.blk
  rw [swapped, State.wrF, rd_wr_off _ p _ (by decide) (by omega) (by omega), State.inc, rd_wr_off _ p _ (by decide) (by omega) (by omega), hval i hi]

theorem rd_swapped_shadow (s : State) (p : Page) (i : Nat) : (swapped s p).rd p (0x900 + 4 * i) = s.rd p (0x900 + 4 * i) :=
  rd_swapped_off s p (by omega) (by omega) (by omega) (by omega)

theorem rd_swapped_count (s : State) (p : Page) : (swapped s p).rd p 0x704 = (s.rd p 0x704 + 1) % 2 ^ 32 := by
  obtain ⟨⟨hkept, -⟩, -⟩ := copySet_spec s p 0x900 0x100 (by decide) (by decide) (by decide)
  have hw := words_le p.blk
  rw [swapped, State.wrF, rd_wr_off _ p _ (by decide) (by decide) (by decide), State.inc, rd_wr_self, hkept.rd]
  simp only [setWords, List.forall_mem_map, List.mem_range]
  exact fun i hi => regKey_ne p (by decide) (by omega) (by omega)

/-- Of STATUS a swap changes swap_pending only. -/
theorem rdB_swapped_status (s : State) (p : Page) {n : Nat} (hn : n < 32) :
    (swapped s p).rdB p 0x14 n = if n = 1 then false else s.rdB p 0x14 n := by
  obtain ⟨⟨hkept, -⟩, -⟩ := copySet_spec s p 0x900 0x100 (by decide) (by decide) (by decide)
  have hw := words_le p.blk
  have hrd : ((copySet s p 0x900 0x100).inc p 0x704 1).rd p 0x14 = s.rd p 0x14 := by
    rw [State.inc, rd_wr_off _ p _ (by decide) (by decide) (by decide), hkept.rd]
    simp only [setWords, List.forall_mem_map, List.mem_range]
    exact fun i hi => regKey_ne p (by decide) (by omega) (by omega)
  refine (rdB_wrF_bit _ p 0x14 1 n false hn).trans ?_
  rw [State.rdB, hrd, State.rdB]

theorem rdB_swapRefused_status (s : State) (p : Page) (off reason : Nat) {n : Nat} (hn : n < 32) :
    (swapRefused s p off reason).rdB p 0x14 n = if n = 1 then false else s.rdB p 0x14 n := by
  refine (rdB_wrF_bit _ p 0x14 1 n false hn).trans ?_
  rw [State.rdB, rd_wr_off _ p _ (by decide) (by decide) (by decide), State.rdB]

theorem swapRefused_onlyWords (s : State) (p : Page) (off reason : Nat) : OnlyWords s (swapRefused s p off reason) [(p, 0x700), (p, 0x14)] :=
  ⟨(wr_kept s p _ _).trans (wrF_kept _ p _ _ _ _), (wr_only s p _ _).trans (wr_only _ p _ _)⟩

/-- A swap leaves a change of enable as it was. -/
theorem swapped_enable {s : State} {p : Page} (h : s.rdB p 0x10 0 = s.enabled p) : (swapped s p).rdB p 0x10 0 = (swapped s p).enabled p := by
  rw [State.rdB, rd_swapped_off s p (by decide) (by decide) (by decide) (by decide), ← State.rdB, h, State.enabled, State.enabled,
    rdB_swapped_status s p (by decide), if_neg (by decide)]

/-- A swap brings nothing else about in a block that no chapter gives more. -/
theorem afterSwap_other {s u : State} {p : Page} (h : p.blk ∉ [Blk.fabric, .hbmc, .xlat, .queue, .errlog, .mgmt, .palur]) : afterSwap s u p = u := by
  obtain ⟨b, i⟩ := p
  cases b <;> simp at h <;> rfl

/-- A refused swap (R48): the offending word with its reason, and SWAP_REFUSED. -/
theorem swap_refused {s : State} {p : Page} (hp : pageOk p = true) (hup : s.up = true) (hat : atSwapPoint s p = true)
    (hen : s.rdB p 0x10 0 = s.enabled p) (hpend : s.swapPending p = true) {off reason : Nat} (hcheck : swapCheck s p = some (off, reason)) :
    Completes (.swap p) s (fun t => t.rd p 0x700 = (off + 4096 * reason) % 2 ^ 32 ∧ t.swapPending p = false
      ∧ WordsAndFlag s t [(p, 0x700), (p, 0x14)] p 0) := by
  let u := swapRefused s p off reason
  let t := raise u p 0 0 0xFFFF off
  have hrd {a : Nat} (h4 : a % 4 = 0) (hne : a ≠ 0x18 ∧ a ≠ 0x1C ∧ a ≠ 0x780 + 4 * 0) : t.rd p a = u.rd p a := rd_raise h4 hne
  have hstatus : t.rd p 0x14 = u.rd p 0x14 := hrd (by decide) (by decide)
  have henabled : t.rdB p 0x10 0 = t.enabled p := by
    rw [State.rdB, hrd (by decide) (by decide), State.enabled, State.rdB, hstatus, ← State.rdB, ← State.rdB, rdB_swapRefused_status s p off reason (by decide),
      if_neg (by decide), ← State.enabled, ← hen]
    rw [State.rdB, State.rdB, show u = swapRefused s p off reason from rfl, swapRefused, State.wrF, rd_wr_off _ p _ (by decide) (by decide) (by decide),
      rd_wr_off _ p _ (by decide) (by decide) (by decide)]
  refine ⟨t, ?_, ?_, ?_, (swapRefused_onlyWords s p off reason).then_raise_page (offs := [0x700, 0x14]) (by decide) (by decide) (by decide) _ _ _ _⟩
  · rw [execSwap_atPoint hp hup hat, if_pos hpend, performSwap_some hcheck, settleEnable_eq_self henabled]
  · rw [hrd (by decide) (by decide), show u = swapRefused s p off reason from rfl, swapRefused, State.wrF,
      rd_wr_off _ p _ (by decide) (by decide) (by decide), rd_wr_self]
  · rw [State.swapPending, State.rdB, hstatus, ← State.rdB, rdB_swapRefused_status s p off reason (by decide), if_pos rfl]

/-- A completed swap (R46). -/
theorem swap_completes {s : State} {p : Page} (hp : pageOk p = true) (hup : s.up = true) (hat : atSwapPoint s p = true)
    (hpend : s.swapPending p = true) (hcheck : swapCheck s p = none) :
    exec (.swap p) s = .next (settleEnable (afterSwap s (swapped s p) p) p) := by
  rw [execSwap_atPoint hp hup hat, if_pos hpend, performSwap_none hcheck]

/-- What follows a swap leaves both sets. -/
theorem rd_after_swap (s : State) (p : Page) {a : Nat} (h4 : a % 4 = 0) (ha : beyondSets a = false) :
    (settleEnable (afterSwap s (swapped s p) p) p).rd p a = (swapped s p).rd p a :=
  ((PageKept.refl (swapped s p)).then_afterSwap.sets.trans (settleEnable_setsKept _ p)) p a h4 ha

theorem beyondSets_active {i n : Nat} (hi : i < n) (hn : n ≤ 48) : beyondSets (0x100 + 4 * i) = false := by
  rw [beyondSets, decide_eq_false_iff_not]; omega

theorem beyondSets_shadow {i n : Nat} (hi : i < n) (hn : n ≤ 48) : beyondSets (0x900 + 4 * i) = false := by
  rw [beyondSets, decide_eq_false_iff_not]; omega

/-- Settles O22: what follows a completed swap touches no configuration set (`PageKept`). -/
theorem swapRules : Obligations.SwapRules := by
  intro s p hp hreach words
  have hup := up_of_reached hreach
  have hw := words_le p.blk
  refine ⟨⟨requestSwap s p, ?_, requestSwap_swapPending s p, requestSwap_onlyWords s p, fun hpend a => requestSwap_again hpend p a⟩,
    ⟨raise (requestSwap s p) p 1, ?_, ?_, ?_⟩, fun hpend => ⟨raise s p 1, ?_, raise_oneFlag s p 1 _ _ _ _ (by decide)⟩,
    fun hpend => ⟨copySet s p 0x100 0x900, ?_, copySet_spec s p 0x100 0x900 (by decide) (by decide) (by decide)⟩,
    fun hat hpend hcheck => ⟨_, swap_completes hp hup hat hpend hcheck, fun i hi => ⟨?_, ?_⟩⟩, fun hat => ?_, fun hat hen => ⟨fun hpend => ?_,
      fun hpend off reason hcheck => swap_refused hp hup hat hen hpend hcheck, fun hpend hcheck => ⟨swapped s p, swapped_onlyWords s p, ?_,
        rd_swapped_count s p, fun i hi => rd_swapped_active s p hi, ?_, ⟨_, swap_completes hp hup hat hpend hcheck, rfl⟩, fun hother => ?_⟩⟩⟩
  · rw [exec_ctrlSwap, execCtrlSwap, onUnit_reached hp hreach]; rfl
  · rw [exec_ctrlSwap, execCtrlSwap, onUnit_reached hp hreach, ctrlSets, if_pos rfl, if_pos rfl, loadShadow, if_pos (requestSwap_swapPending s p)]
  · rw [State.swapPending, State.rdB, rd_raise (by decide) (by decide), ← State.rdB, ← State.swapPending, requestSwap_swapPending]
  · exact (requestSwap_onlyWords s p).then_raise_page (offs := [0x14]) (by decide) (by decide) (by decide) _ _ _ _
  · rw [exec_shadowLoad, execShadowLoad, onUnit_reached hp hreach, loadShadow, if_pos hpend]
  · rw [exec_shadowLoad, execShadowLoad, onUnit_reached hp hreach, loadShadow, hpend, if_neg (by decide)]
  · rw [rd_after_swap s p (by omega) (beyondSets_active hi hw), rd_swapped_active s p hi]
  · rw [rd_after_swap s p (by omega) (beyondSets_shadow hi hw), rd_swapped_shadow s p i]
  · rw [Idle, exec_swap, execSwap, onUnit, if_pos hp, if_pos hup, atPoint, hat, if_neg (by decide)]
  · rw [Idle, execSwap_atPoint hp hup hat, hpend, if_neg (by decide), settleEnable_eq_self hen]
  · rw [State.swapPending, rdB_swapped_status s p (by decide), if_pos rfl]
  · exact swapped_enable hen
  · exact ⟨_, swap_completes hp hup hat hpend hcheck, by rw [afterSwap_other hother, settleEnable_eq_self (swapped_enable hen)]⟩

end Sys2Proof.Machine
end

section
/-! CTRL.enable and the version selector (O23). -/

namespace Sys2Proof.Machine

open Sys2Proof

theorem exec_enable (p : Page) (on swp load : Bool) (s : State) : exec (.enable p on swp load) s = execEnable p on swp load s := rfl
theorem exec_verSel (p : Page) (v : BitVec 4) (s : State) : exec (.verSel p v) s = execVerSel p v s := rfl

/-! CTRL.enable as it stands, and STATUS.enabled behind it. -/

/-- CTRL.enable written, before anything follows it. -/
def ctrlEnable (s : State) (p : Page) (on : Bool) : State := s.wrF p 0x10 0 1 (b2n on)

theorem ctrlEnable_rdB (s : State) (p : Page) (on : Bool) : (ctrlEnable s p on).rdB p 0x10 0 = on :=
  (rdB_wrF_bit s p 0x10 0 0 on (by decide)).trans (if_pos rfl)

theorem ctrlEnable_onlyWords (s : State) (p : Page) (on : Bool) : OnlyWords s (ctrlEnable s p on) [(p, 0x10)] := ⟨wrF_kept s p _ _ _ _, wr_only s p _ _⟩

/-- Other words of the page read as before. -/
theorem rd_ctrlEnable (s : State) (p q : Page) (on : Bool) {a : Nat} (h : a % 0x1000 / 4 ≠ 0x10 / 4) : (ctrlEnable s p on).rd q a = s.rd q a := by
  rw [ctrlEnable, State.wrF, rd_wr, if_neg (regKey_ne_of_offset h)]

theorem ctrlEnable_enabled (s : State) (p : Page) (on : Bool) : (ctrlEnable s p on).enabled p = s.enabled p := by
  rw [State.enabled, State.rdB, rd_ctrlEnable s p p on (by decide), State.enabled, State.rdB]

theorem setEnabled_ctrl (s : State) (p : Page) (on : Bool) : (setEnabled s p on).rdB p 0x10 0 = on := by
  rw [setEnabled, State.rdB, State.wrF, rd_wr_off _ p _ (by decide) (by decide) (by decide), ← State.rdB]
  exact ctrlEnable_rdB s p on

theorem setEnabled_enabled (s : State) (p : Page) (on : Bool) : (setEnabled s p on).enabled p = on :=
  (rdB_wrF_bit _ p 0x14 0 0 on (by decide)).trans (if_pos rfl)

theorem setEnabled_bstate (s : State) (p : Page) (on : Bool) : bstate (setEnabled s p on) p = bstate s p := by
  rw [bstate, State.rdF, setEnabled, State.wrF, rd_wr_off _ p _ (by decide) (by decide) (by decide), State.wrF, rd_wr_off _ p _ (by decide) (by decide) (by decide),
    bstate, State.rdF]

theorem setEnabled_onlyWords (s : State) (p : Page) (on : Bool) : OnlyWords s (setEnabled s p on) [(p, 0x10), (p, 0x14)] :=
  ⟨(wrF_kept s p _ _ _ _).trans (wrF_kept _ p _ _ _ _), (wr_only s p _ _).trans (wr_only _ p _ _)⟩

/-- CTRL.enable written and STATUS.enabled with it. -/
theorem ctrlEnable_setEnabled_onlyWords (s : State) (p : Page) (on : Bool) :
    OnlyWords s (setEnabled (ctrlEnable s p on) p on) [(p, 0x10), (p, 0x14)] := by
  obtain ⟨hkept, honly⟩ := ctrlEnable_onlyWords s p on
  obtain ⟨hkept', honly'⟩ := setEnabled_onlyWords (ctrlEnable s p on) p on
  exact ⟨(hkept.trans hkept').mono (by simp), honly.trans honly'⟩

/-- Whether a block is at a swap point does not hang on any word of CTRL. -/
theorem atSwapPoint_ctrlEnable (s : State) (p : Page) (on : Bool) : atSwapPoint (ctrlEnable s p on) p = atSwapPoint s p := by
  have hrd (q : Page) {a : Nat} (h : a % 0x1000 / 4 ≠ 0x10 / 4) : (ctrlEnable s p on).rd q a = s.rd q a := rd_ctrlEnable s p q on h
  have hpower : gated (ctrlEnable s p on) p = gated s p := by
    rw [gated, tilePowered, powerState, State.rdF, State.rdB, hrd _ (by decide), hrd _ (by decide), gated, tilePowered, powerState, State.rdF, State.rdB]
  have hbusy : busySwapPoint (ctrlEnable s p on) p = busySwapPoint s p := by
    unfold busySwapPoint qState connState linkState tileTimed State.rdF State.rdB
    simp only [hrd _ (show 0x14 % 0x1000 / 4 ≠ 0x10 / 4 by decide), hrd _ (show 0x104 % 0x1000 / 4 ≠ 0x10 / 4 by decide)]
    rfl
  rw [atSwapPoint, hpower, ctrlEnable_enabled, hbusy, atSwapPoint]

/-! What a change of enable brings about. -/

theorem portsOf_eq_nil {p : Page} (h : p.blk ≠ .oe ∧ p.blk ≠ .link) : portsOf p = [] := by
  unfold portsOf
  split
  · next hb => exact absurd hb h.1
  · next hb => exact absurd hb h.2
  · rfl

theorem renewed_eq_self {p : Page} (s : State) (h : ¬ (p.blk = .tile ∨ p.blk = .queue ∨ p.blk = .conn)) : renewed s p = s := if_neg h

theorem settleEnable_on {s : State} {p : Page} (hports : portsOf p = []) (hon : s.rdB p 0x10 0 = true) (hoff : s.enabled p = false) :
    settleEnable s p = renewed (setEnabled s p true) p := by
  simp [settleEnable, hports, hon, hoff]

theorem settleEnable_off {s : State} {p : Page} (hports : portsOf p = []) (hmgmt : p.blk ≠ .mgmt) (hoff : s.rdB p 0x10 0 = false) (hon : s.enabled p = true) :
    settleEnable s p = setEnabled s p false := by
  simp [settleEnable, hports, hon, hoff, hmgmt]

/-- Enable set: what a unit that was disabled, or whose bit was cleared, brings about, and then STATUS follows. -/
theorem enableWrite_on {s : State} {p : Page} (htest : p.blk = .tile → tileFailed s p.inst = false) :
    enableWrite s p true false false = settleEnable
      (if s.enabled p && !s.rdB p 0x10 0 then renewed ((portsOf p).foldl portChange (ctrlEnable s p true)) p else ctrlEnable s p true) p := by
  have hno : (true && decide (p.blk = .tile) && tileFailed s p.inst) = false := by
    by_cases hb : p.blk = .tile
    · rw [htest hb, Bool.and_false]
    · simp [hb]
  rw [enableWrite]
  simp only [ctrlSets, hno]
  rfl

theorem execEnable_on {s : State} {p : Page} (hp : pageOk p = true) (hr : reached s p = true) (htest : p.blk = .tile → tileFailed s p.inst = false) :
    exec (.enable p true false false) s = .next (settleEnable
      (if s.enabled p && !s.rdB p 0x10 0 then renewed ((portsOf p).foldl portChange (ctrlEnable s p true)) p else ctrlEnable s p true) p) := by
  rw [exec_enable, execEnable, onUnit_reached hp hr, enableWrite_on htest]

theorem execEnable_off {s : State} {p : Page} (hp : pageOk p = true) (hr : reached s p = true) (hports : portsOf p = []) :
    exec (.enable p false false false) s = .next (atPoint (ctrlEnable s p false) p) := by
  rw [exec_enable, execEnable, onUnit_reached hp hr, enableWrite, hports]; rfl

theorem execEnable_failed {s : State} {p : Page} (hp : pageOk p = true) (hr : reached s p = true) (hb : p.blk = .tile) (hfail : tileFailed s p.inst = true) :
    exec (.enable p true false false) s = .next (illegalWrite s p) := by
  rw [exec_enable, execEnable, onUnit_reached hp hr, enableWrite]
  simp [hb, hfail, ctrlSets]

/-! The renewal of a bound unit (13_binding_and_jobs.md R413). -/

theorem setBstate_spec (s : State) (p : Page) (v : Nat) :
    bstate (setBstate s p v) p = v % 8 ∧ (setBstate s p v).rd p 0x10 = s.rd p 0x10 ∧ (setBstate s p v).rd p 0x14 = s.rd p 0x14 := by
  have hself : bstate (s.wrF p 0x608 0 3 v) p = v % 8 := rdF_wrF_self s p 0x608 0 3 v (by decide)
  have hoff {a : Nat} (h4 : a % 4 = 0) (h : a ≠ 0x608) : (s.wrF p 0x608 0 3 v).rd p a = s.rd p a := rd_wr_off s p _ (by decide) h4 h
  unfold setBstate
  split
  · exact ⟨hself, hoff (by decide) (by decide), hoff (by decide) (by decide)⟩
  · exact ⟨hself, hoff (by decide) (by decide), hoff (by decide) (by decide)⟩

/-- A BOUND resource that is quarantined: CTRL and STATUS.enabled stay. -/
theorem quarantine_bound {s : State} {p : Page} (h : bstate s p = 2) :
    let t := quarantine s p
    t.rd p 0x10 = s.rd p 0x10 ∧ t.enabled p = s.enabled p ∧ t.quarantined p = true ∧ bstate t p = 4 := by
  obtain ⟨hb, hctrl, hstatus⟩ := setBstate_spec s p 4
  let u := (setBstate s p 4).wrF p 0x14 2 1 1
  have hkept : PageKept u (quarantine s p) := by
    rw [quarantine, if_pos h]
    exact (PageKept.refl u).then_resetWork.then_raise (bindFlag_lt p)
  have hbit (n : Nat) (hn : n < 32) : u.rdB p 0x14 n = if n = 2 then true else (setBstate s p 4).rdB p 0x14 n := rdB_wrF_bit _ p 0x14 2 n true hn
  refine ⟨?_, ?_, ?_, ?_⟩
  · rw [hkept.ctrl, ← hctrl]
    exact rd_wr_off _ p _ (by decide) (by decide) (by decide)
  · rw [State.enabled, hkept.status p 0 (by decide), hbit 0 (by decide), if_neg (by decide), State.rdB, hstatus, State.enabled, State.rdB]
  · rw [State.quarantined, hkept.status p 2 (by decide), hbit 2 (by decide), if_pos rfl]
  · rw [bstate, State.rdF, hkept.bind, ← State.rdF]
    exact (congrArg (bits · 0 3) (rd_wr_off _ p _ (by decide) (by decide) (by decide))).trans hb

/-- A BOUND tile, queue or connection that is renewed is quarantined. -/
theorem renewed_bound {s : State} {p : Page} (hblk : p.blk = .tile ∨ p.blk = .queue ∨ p.blk = .conn) (h : bstate s p = 2) :
    let t := renewed s p
    t.rd p 0x10 = s.rd p 0x10 ∧ t.enabled p = s.enabled p ∧ t.quarantined p = true ∧ bstate t p = 4 := by
  let u := if p.blk = .conn then connFailAll s p.inst 0x12 else s
  have hkept : PageKept s u := PageKept.ite (PageKept.refl s).then_connFailAll (PageKept.refl s)
  have hu : bstate u p = 2 := by rw [bstate, State.rdF, hkept.bind, ← State.rdF, ← bstate, h]
  obtain ⟨hctrl, hen, hq, hb⟩ := quarantine_bound hu
  have ht : renewed s p = quarantine u p := if_pos hblk
  rw [ht]
  exact ⟨hctrl.trans (hkept.ctrl p), hen.trans (hkept.status p 0 (by decide)), hq, hb⟩

theorem ctrlEnable_bstate (s : State) (p : Page) (on : Bool) : bstate (ctrlEnable s p on) p = bstate s p := by
  rw [bstate, State.rdF, rd_ctrlEnable s p p on (by decide), bstate, State.rdF]

theorem enable_quarantines {s : State} {p : Page} (hp : pageOk p = true) (hr : reached s p = true) (hold : s.enabled p = false ∨ s.rdB p 0x10 0 = false)
    (hblk : p.blk = .tile ∨ p.blk = .queue ∨ p.blk = .conn) (htest : p.blk = .tile → tileFailed s p.inst = false) (hbound : bstate s p = 2) :
    Completes (.enable p true false false) s (fun t => t.enabled p = true ∧ t.quarantined p = true ∧ bstate t p = 4) := by
  have hports : portsOf p = [] := portsOf_eq_nil (by rcases hblk with h | h | h <;> simp [h])
  have hb : bstate (ctrlEnable s p true) p = 2 := (ctrlEnable_bstate s p true).trans hbound
  cases hen : s.enabled p with
  | true =>
    have hoff : s.rdB p 0x10 0 = false := hold.resolve_left (by simp [hen])
    obtain ⟨hctrl, hkeep, hq, hb4⟩ := renewed_bound hblk hb
    have henabled : (renewed (ctrlEnable s p true) p).enabled p = true := by rw [hkeep, ctrlEnable_enabled, hen]
    have hon : (renewed (ctrlEnable s p true) p).rdB p 0x10 0 = true := by rw [State.rdB, hctrl, ← State.rdB, ctrlEnable_rdB]
    refine ⟨_, execEnable_on hp hr htest, ?_⟩
    rw [hen, hoff, if_pos (by decide), hports, List.foldl_nil, settleEnable_eq_self (hon.trans henabled.symm)]
    exact ⟨henabled, hq, hb4⟩
  | false =>
    have hset : bstate (setEnabled (ctrlEnable s p true) p true) p = 2 := (setEnabled_bstate _ p true).trans hb
    obtain ⟨-, hkeep, hq, hb4⟩ := renewed_bound hblk hset
    refine ⟨_, execEnable_on hp hr htest, ?_⟩
    rw [hen, Bool.false_and, if_neg (by decide), settleEnable_on hports (ctrlEnable_rdB s p true) ((ctrlEnable_enabled s p true).trans hen)]
    exact ⟨hkeep.trans (setEnabled_enabled _ p true), hq, hb4⟩

/-! The version (R60). -/

theorem verWrite_one (s : State) (p : Page) : (verWrite s p 1).rdF p 0x10 4 4 = 1 ∧ OnlyWords s (verWrite s p 1) [(p, 0x10)] :=
  ⟨rdF_wrF_self s p 0x10 4 4 1 (by decide), wrF_kept s p _ _ _ _, wr_only s p _ _⟩

/-- Settles O23. -/
theorem enableRules : Obligations.EnableRules := by
  intro s p hp hr
  refine ⟨fun hen hold htest => ?_, fun hen hblk => ?_, fun hold hblk htest hbound => enable_quarantines hp hr hold hblk htest hbound,
    fun hb hfail => ⟨_, execEnable_failed hp hr hb hfail, raise_oneFlag s p 2 _ _ _ _ (by decide)⟩, fun hen hat hblk => ?_, fun hen hat hpend hblk => ?_, ?_,
    fun v hv => ?_⟩
  · have hexec := execEnable_on hp hr htest
    have hstay : (if s.enabled p && !s.rdB p 0x10 0 then renewed ((portsOf p).foldl portChange (ctrlEnable s p true)) p else ctrlEnable s p true)
        = ctrlEnable s p true := by
      split
      · next hc =>
        have hother : p.blk ∉ [Blk.tile, .queue, .conn, .oe, .link] := hold.resolve_left (by simpa [hen] using hc)
        rw [portsOf_eq_nil (by simp_all), List.foldl_nil, renewed_eq_self _ (by simp_all)]
      · rfl
    have hen' : (ctrlEnable s p true).enabled p = true := (ctrlEnable_enabled s p true).trans hen
    rw [hstay, settleEnable_eq_self ((ctrlEnable_rdB s p true).trans hen'.symm)] at hexec
    exact ⟨_, hexec, ctrlEnable_rdB s p true, hen', ctrlEnable_onlyWords s p true⟩
  · have hports : portsOf p = [] := portsOf_eq_nil (by simp_all)
    have hexec := execEnable_on hp hr (fun hb => by simp [hb] at hblk)
    rw [hen, Bool.false_and, if_neg (by decide), settleEnable_on hports (ctrlEnable_rdB s p true) ((ctrlEnable_enabled s p true).trans hen),
      renewed_eq_self _ (by simp_all)] at hexec
    exact ⟨_, hexec, setEnabled_ctrl _ p true, setEnabled_enabled _ p true, ctrlEnable_setEnabled_onlyWords s p true⟩
  · have hexec := execEnable_off hp hr (portsOf_eq_nil (by simp_all))
    rw [atPoint, atSwapPoint_ctrlEnable, hat, if_neg (by decide)] at hexec
    exact ⟨_, hexec, ctrlEnable_rdB s p false, (ctrlEnable_enabled s p false).trans hen, ctrlEnable_onlyWords s p false⟩
  · have hports : portsOf p = [] := portsOf_eq_nil (by simp_all)
    have hpend' : (ctrlEnable s p false).swapPending p = false := by
      rw [State.swapPending, State.rdB, rd_ctrlEnable s p p false (by decide), ← State.rdB, ← State.swapPending, hpend]
    have hexec := execEnable_off hp hr hports
    rw [atPoint, atSwapPoint_ctrlEnable, hat, if_pos rfl, pointReached, hpend', if_neg (by decide),
      settleEnable_off hports (by simp_all) (ctrlEnable_rdB s p false) ((ctrlEnable_enabled s p false).trans hen)] at hexec
    exact ⟨_, hexec, setEnabled_ctrl _ p false, setEnabled_enabled _ p false, ctrlEnable_setEnabled_onlyWords s p false⟩
  · exact ⟨_, by rw [exec_verSel, execVerSel, onUnit_reached hp hr]; rfl, verWrite_one s p⟩
  · have hne : v.toNat ≠ 1 := fun h => hv (BitVec.eq_of_toNat_eq h)
    exact ⟨raise s p 3, by rw [exec_verSel, execVerSel, onUnit_reached hp hr, verWrite, if_neg hne], raise_oneFlag s p 3 _ _ _ _ (by decide)⟩

end Sys2Proof.Machine
end

section
/-! Disturbance registers and stall windows (O25). -/

namespace Sys2Proof.Machine

open Sys2Proof

theorem exec_disturbWrite (p : Page) (h : Half) (v : BitVec 64) (s : State) : exec (.disturbWrite p h v) s = execDisturbWrite p h v s := rfl
theorem exec_disturbWinWrite (p : Page) (h : Half) (v : BitVec 64) (s : State) : exec (.disturbWinWrite p h v) s = execDisturbWinWrite p h v s := rfl
theorem exec_stallWindowOpen (p : Page) (s : State) : exec (.stallWindowOpen p) s = execStallWindowOpen p s := rfl
theorem exec_stallWindowClose (p : Page) (s : State) : exec (.stallWindowClose p) s = execStallWindowClose p s := rfl

/-! 64-bit registers. -/

/-- A 64-bit register written reads as written. -/
theorem rd64_wr64_self (s : State) (p : Page) {a v : Nat} (ha : a % 4 = 0) (hv : v < 2 ^ 64) : (s.wr64 p a v).rd64 p a = v := by
  rw [State.rd64, State.wr64, rd_wr_self, rd_wr_off _ p _ (by omega) ha (by omega), rd_wr_self]
  omega

theorem wr64_onlyWords (s : State) (p : Page) (a v : Nat) : OnlyWords s (s.wr64 p a v) [(p, a), (p, a + 4)] :=
  ⟨(wr_kept s p a v).trans (wr_kept _ p (a + 4) _), (wr_only s p a v).trans (wr_only _ p (a + 4) _)⟩

theorem rd_wr64_off (s : State) (p : Page) {a b : Nat} (v : Nat) (ha : a % 4 = 0) (hb : b % 4 = 0) (h : b ≠ a ∧ b ≠ a + 4) :
    (s.wr64 p a v).rd p b = s.rd p b := by
  rw [State.wr64, rd_wr_off _ p _ (by omega) hb h.2, rd_wr_off _ p _ ha hb h.1]

/-! What a window's end and its phase change. -/

/-- Only the windows and what they are phased from differ, beside the registers. -/
def OnlyWindows (s t : State) : Prop := t = { s with regs := t.regs, phase := t.phase, stalls := t.stalls }

theorem openWindow_spec (s : State) (p : Page) :
    p ∈ (openWindow s p).stalls ∧ (∀ q, q ≠ p → (q ∈ (openWindow s p).stalls ↔ q ∈ s.stalls))
      ∧ openWindow s p = { s with stalls := (openWindow s p).stalls } := by
  unfold openWindow
  split
  · next h => exact ⟨by simpa using h, fun _ _ => Iff.rfl, rfl⟩
  · exact ⟨by simp, fun q hq => by simp [hq], rfl⟩

/-- A window that closes is no longer listed; the others stay. -/
theorem closeWindow_stalls (s : State) (p : Page) : p ∉ (closeWindow s p).stalls ∧ ∀ q, q ≠ p → (q ∈ (closeWindow s p).stalls ↔ q ∈ s.stalls) := by
  unfold closeWindow
  split
  · next h => exact ⟨by simpa using h, fun _ _ => Iff.rfl⟩
  · extract_lets w skip s1
    split
    · exact ⟨by simp [s1], fun q hq => by simp [s1, hq]⟩
    · exact ⟨by simp [s1], fun q hq => by simp [s1, hq]⟩

theorem closeWindow_only (s : State) (p : Page) : closeWindow s p = { s with stalls := (closeWindow s p).stalls, qs := (closeWindow s p).qs } := by
  unfold closeWindow
  split
  · rfl
  · extract_lets w skip s1
    split <;> rfl

theorem closeWindow_qs {s : State} {p : Page} (h : p.blk ≠ .qeng) : closeWindow s p = { s with stalls := (closeWindow s p).stalls } := by
  unfold closeWindow
  split
  · rfl
  · extract_lets w skip s1
    rfl

/-- A link with nothing to send sends nothing. -/
theorem linkGo_eq_self {s : State} {l : Nat} (h : (s.link l).idle) : linkGo l s = s := by
  obtain ⟨hctl, hreplay, hpackets⟩ := h
  have hctlNone : linkSendCtl s l = none := by simp [linkSendCtl, hctl]
  have hone (vc : Nat) : linkSendOne s l vc = none := linkSendOne_eq_none hpackets vc
  have hno : linkReplay s l = s := by simp [linkReplay, hreplay]
  rw [linkGo, hno, linkPump]
  simp only [hctlNone, hone]

theorem windowEnds_eq_closeWindow {s : State} {p : Page} (h : p.blk = .link → ((closeWindow s p).link p.inst).idle) : windowEnds s p = closeWindow s p := by
  unfold windowEnds
  extract_lets s1
  split
  · next hb => exact linkGo_eq_self (h hb)
  · rfl

/-- The first window opens where the page has a period and a length. -/
theorem startPhase_spec (s : State) (p : Page) :
    (startPhase s p).regs = s.regs ∧ OnlyWindows s (startPhase s p) ∧ sincePhase (startPhase s p) p = 0
      ∧ (s.rd p 0x38 ≠ 0 → s.rd p 0x3C ≠ 0 → p ∈ (startPhase s p).stalls)
      ∧ (s.rd p 0x38 = 0 ∨ s.rd p 0x3C = 0 → (startPhase s p).stalls = s.stalls) := by
  let s1 : State := { s with phase := fset (fun _ => 0) s.phase (pageNo p) (s.ref + 1) }
  have hsince : sincePhase s1 p = 0 := by
    rw [sincePhase, show s1.phase = fset (fun _ => 0) s.phase (pageNo p) (s.ref + 1) from rfl, fget_fset_self]
    exact Nat.sub_self _
  have hiff : (winPeriod s1 p ≠ 0 ∧ winLength s1 p ≠ 0) ↔ (s.rd p 0x38 ≠ 0 ∧ s.rd p 0x3C ≠ 0) := by
    rw [winPeriod, winLength, show s1.rd p 0x38 = s.rd p 0x38 from rfl, show s1.rd p 0x3C = s.rd p 0x3C from rfl]
    omega
  obtain ⟨hmem, -, honly⟩ := openWindow_spec s1 p
  have ht : startPhase s p = if winPeriod s1 p ≠ 0 ∧ winLength s1 p ≠ 0 then openWindow s1 p else s1 := rfl
  rw [ht]
  split
  · next h =>
    obtain ⟨h38, h3c⟩ := hiff.mp h
    refine ⟨by rw [honly], ?_, ?_, fun _ _ => hmem, fun hz => absurd hz (by tauto)⟩
    · rw [OnlyWindows, honly]
    · rw [honly]; exact hsince
  · next h =>
    exact ⟨rfl, rfl, hsince, fun h38 h3c => absurd (hiff.mpr ⟨h38, h3c⟩) h, fun _ => rfl⟩

/-! The gate. -/

section
variable {s : State} {p : Page}

theorem disturbGate_none (hr : reached s p = true) (h : hasDisturb p = false) (k : State) : disturbGate s p k = illegalWrite s p := by
  simp [disturbGate, hr, h]

theorem disturbGate_denied (hr : reached s p = true) (h : hasDisturb p = true) (hd : disturbAllowed s p = false) (k : State) :
    disturbGate s p k = raise s p 4 := by
  simp [disturbGate, hr, h, hd]

theorem disturbGate_open (hr : reached s p = true) (h : hasDisturb p = true) (hd : disturbAllowed s p = true) (k : State) : disturbGate s p k = k := by
  simp [disturbGate, hr, h, hd]

end

/-- What DISTURB brings about when its arm bit follows a write. -/
def armChange (s u : State) (p : Page) (on : Bool) : State :=
  if on && !armed s p then startPhase u p
  else if !on && armed s p then { windowEnds u p with phase := ferase u.phase (pageNo p) }
  else u

/-- A whole write to DISTURB that the page takes (16_bringup_errors_test.md R524). -/
theorem execDisturbWrite_whole {s : State} {p : Page} {v : BitVec 64} (hp : pageOk p = true) (hr : reached s p = true) (hd : hasDisturb p = true)
    (hok : disturbAllowed s p = true) (hfields : v.toNat &&& disturbFields = v.toNat) (hstall : bits v.toNat 0 10 ≤ 1000) (hdelay : bits v.toNat 16 7 ≤ 100)
    (hhold : noCreditHold p = true → bits v.toNat 24 8 = 0) :
    exec (.disturbWrite p .whole v) s = .next (armChange s (s.wr64 p 0x30 v.toNat) p (bit v.toNat 63)) := by
  have hrest : without v.toNat disturbFields = 0 := by rw [without, hfields, Nat.sub_self]
  have hlegal : ¬ (1000 < bits v.toNat 0 10 ∨ 100 < bits v.toNat 16 7 ∨ (noCreditHold p = true ∧ bits v.toNat 24 8 ≠ 0)) := by
    rintro (h | h | ⟨h, h0⟩)
    · omega
    · omega
    · exact h0 (hhold h)
  rw [exec_disturbWrite, execDisturbWrite, disturbGate_open hr hd hok, onUnit, if_pos hp]
  simp only [mergeHalf, halfValue, hfields, if_neg hlegal, if_pos hrest]
  rfl

/-- A whole write to DISTURB_WIN that the page takes. -/
theorem execDisturbWinWrite_whole {s : State} {p : Page} {v : BitVec 64} (hp : pageOk p = true) (hr : reached s p = true) (hd : hasDisturb p = true)
    (hok : disturbAllowed s p = true) :
    exec (.disturbWinWrite p .whole v) s = .next (if v.toNat % 2 ^ 32 ≠ 0 ∧ v.toNat % 2 ^ 32 ≤ v.toNat / 2 ^ 32 then illegalWrite s p
      else if armed s p then startPhase ((windowEnds s p).wr64 p 0x38 v.toNat) p else s.wr64 p 0x38 v.toNat) := by
  rw [exec_disturbWinWrite, execDisturbWinWrite, disturbGate_open hr hd hok, onUnit, if_pos hp]
  rfl

/-- Arming: the value is stored, the windows are phased from now, and the first one opens where there is one. -/
theorem armChange_arms {s : State} {p : Page} {v : Nat} (hv : v < 2 ^ 64) (harmed : armed s p = false) :
    let t := armChange s (s.wr64 p 0x30 v) p true
    t.rd64 p 0x30 = v ∧ RegsKept s t [(p, 0x30), (p, 0x34)] ∧ OnlyWindows s t ∧ sincePhase t p = 0
      ∧ (s.rd p 0x38 ≠ 0 → s.rd p 0x3C ≠ 0 → p ∈ t.stalls) ∧ (s.rd p 0x38 = 0 ∨ s.rd p 0x3C = 0 → t.stalls = s.stalls) := by
  let u := s.wr64 p 0x30 v
  obtain ⟨hkept, honly⟩ := wr64_onlyWords s p 0x30 v
  obtain ⟨hregs, hwin, hsince, hopen, hnone⟩ := startPhase_spec u p
  have ht : armChange s u p true = startPhase u p := by simp [armChange, harmed]
  have hrd (a : Nat) : (startPhase u p).rd p a = u.rd p a := rd_congr hregs p a
  have h38 : u.rd p 0x38 = s.rd p 0x38 := rd_wr64_off s p v (by decide) (by decide) (by decide)
  have h3c : u.rd p 0x3C = s.rd p 0x3C := rd_wr64_off s p v (by decide) (by decide) (by decide)
  rw [h38, h3c] at hopen hnone
  intro t
  rw [show t = armChange s u p true from rfl, ht]
  refine ⟨?_, hkept.trans (regsKept_of_regs_eq hregs []), ?_, hsince, hopen, hnone⟩
  · rw [State.rd64, hrd, hrd, ← State.rd64, rd64_wr64_self s p (by decide) hv]
  · rw [OnlyWindows] at hwin ⊢
    rw [hwin, show u = { s with regs := u.regs } from honly]

/-- Disarming: the value is stored and the window, where one is open, ends. -/
theorem armChange_disarms {s : State} {p : Page} {v : Nat} (hv : v < 2 ^ 64) (harmed : armed s p = true) (hqeng : p.blk ≠ .qeng)
    (hlink : p.blk = .link → (s.link p.inst).idle) :
    let t := armChange s (s.wr64 p 0x30 v) p false
    t.rd64 p 0x30 = v ∧ p ∉ t.stalls ∧ (∀ q, q ≠ p → (q ∈ t.stalls ↔ q ∈ s.stalls)) ∧ RegsKept s t [(p, 0x30), (p, 0x34)] ∧ OnlyWindows s t := by
  let u := s.wr64 p 0x30 v
  obtain ⟨hkept, honly⟩ := wr64_onlyWords s p 0x30 v
  obtain ⟨hnot, hothers⟩ := closeWindow_stalls u p
  have hclose := closeWindow_qs (s := u) hqeng
  have hends : windowEnds u p = closeWindow u p := windowEnds_eq_closeWindow (by rw [hclose]; exact hlink)
  have ht : armChange s u p false = { closeWindow u p with phase := ferase u.phase (pageNo p) } := by simp [armChange, harmed, hends]
  have hregs : (armChange s u p false).regs = u.regs := by rw [ht, hclose]
  have hrd (a : Nat) : (armChange s u p false).rd p a = u.rd p a := rd_congr hregs p a
  refine ⟨?_, ?_, ?_, hkept.trans (regsKept_of_regs_eq hregs []), ?_⟩
  · rw [State.rd64, hrd, hrd, ← State.rd64, rd64_wr64_self s p (by decide) hv]
  · rw [ht]; exact hnot
  · rw [ht]; exact hothers
  · rw [OnlyWindows, ht, hclose]; rfl

theorem stallWindowOpen_completes {s : State} {p : Page} (hp : pageOk p = true) (hup : s.up = true) :
    Completes (.stallWindowOpen p) s (fun t =>
      (hasDisturb p = true ∧ inWindow s p = true → p ∈ t.stalls) ∧ (∀ q, q ≠ p → (q ∈ t.stalls ↔ q ∈ s.stalls)) ∧ (p ∈ s.stalls → p ∈ t.stalls)
      ∧ (hasDisturb p = false ∨ inWindow s p = false → t = s) ∧ t = { s with stalls := t.stalls }) := by
  have hexec : exec (.stallWindowOpen p) s = .next (if hasDisturb p && inWindow s p then openWindow s p else s) := by
    rw [exec_stallWindowOpen, execStallWindowOpen, onUnit, if_pos hp, hup, Bool.true_and]
  obtain ⟨hmem, hothers, honly⟩ := openWindow_spec s p
  refine ⟨_, hexec, ?_⟩
  split
  · next hc =>
    rw [Bool.and_eq_true] at hc
    exact ⟨fun _ => hmem, hothers, fun _ => hmem, fun hno => by simp [hc] at hno, honly⟩
  · next hc => exact ⟨fun h => absurd (by simp [h]) hc, fun _ _ => Iff.rfl, id, fun _ => rfl, rfl⟩

theorem stallWindowClose_completes {s : State} {p : Page} (hp : pageOk p = true) (hup : s.up = true) :
    Completes (.stallWindowClose p) s (fun t => ∃ u, (p.blk ≠ .link → t = u) ∧ (p.blk = .link → inWindow s p = false → t = linkGo p.inst u)
      ∧ (inWindow s p = false → p ∉ u.stalls) ∧ (inWindow s p = true → t = s ∧ u = s) ∧ (∀ q, q ≠ p → (q ∈ u.stalls ↔ q ∈ s.stalls))
      ∧ (p.blk ≠ .qeng → u = { s with stalls := u.stalls }) ∧ u = { s with stalls := u.stalls, qs := u.qs }) := by
  have hexec : exec (.stallWindowClose p) s = .next (if inWindow s p then s else windowEnds s p) := by
    rw [exec_stallWindowClose, execStallWindowClose, onUnit, if_pos hp, hup]
    cases inWindow s p <;> rfl
  refine ⟨_, hexec, ?_⟩
  cases hwin : inWindow s p with
  | true => exact ⟨s, fun _ => rfl, fun _ h => absurd h (by decide), fun h => absurd h (by decide), fun _ => ⟨rfl, rfl⟩, fun _ _ => Iff.rfl, fun _ => rfl, rfl⟩
  | false =>
    obtain ⟨hnot, hothers⟩ := closeWindow_stalls s p
    exact ⟨closeWindow s p, fun hb => if_neg hb, fun hb _ => if_pos hb, fun _ => hnot, fun h => absurd h (by decide), hothers, closeWindow_qs, closeWindow_only s p⟩

/-- Settles O25. -/
theorem disturbRules : Obligations.DisturbRules := by
  intro s p v hp hr
  have hup := up_of_reached hr
  have hv : v.toNat < 2 ^ 64 := v.isLt
  refine ⟨fun hno => ⟨⟨illegalWrite s p, ?_, raise_oneFlag s p 2 _ _ _ _ (by decide)⟩, ⟨illegalWrite s p, ?_, raise_oneFlag s p 2 _ _ _ _ (by decide)⟩⟩,
    fun hd hdeny => ⟨⟨raise s p 4, ?_, raise_oneFlag s p 4 _ _ _ _ (by decide)⟩, ⟨raise s p 4, ?_, raise_oneFlag s p 4 _ _ _ _ (by decide)⟩⟩,
    fun hd hok => ⟨fun hfields hstall hdelay hhold => ?_, fun harmed hwin => ?_, fun hbad => ?_⟩, ?_, ?_⟩
  · rw [exec_disturbWrite, execDisturbWrite, disturbGate_none hr hno, onUnit, if_pos hp]
  · rw [exec_disturbWinWrite, execDisturbWinWrite, disturbGate_none hr hno, onUnit, if_pos hp]
  · rw [exec_disturbWrite, execDisturbWrite, disturbGate_denied hr hd hdeny, onUnit, if_pos hp]
  · rw [exec_disturbWinWrite, execDisturbWinWrite, disturbGate_denied hr hd hdeny, onUnit, if_pos hp]
  · have hexec := execDisturbWrite_whole hp hr hd hok hfields hstall hdelay hhold
    refine ⟨fun hsame => ⟨_, hexec, ?_⟩, fun harmed hbit => ⟨_, hexec, ?_⟩, fun harmed hbit hqeng hlink => ⟨_, hexec, ?_⟩⟩
    · have ht : armChange s (s.wr64 p 0x30 v.toNat) p (bit v.toNat 63) = s.wr64 p 0x30 v.toNat := by
        cases hb : bit v.toNat 63 <;> simp [armChange, hsame, hb]
      rw [ht]
      exact ⟨rd64_wr64_self s p (by decide) hv, wr64_onlyWords s p 0x30 _⟩
    · rw [hbit]; exact armChange_arms hv harmed
    · rw [hbit]; exact armChange_disarms hv harmed hqeng hlink
  · have hexec := execDisturbWinWrite_whole (v := v) hp hr hd hok
    rw [if_neg (by omega), harmed, if_neg (by decide)] at hexec
    exact ⟨_, hexec, rd64_wr64_self s p (by decide) hv, wr64_onlyWords s p 0x38 _⟩
  · have hexec := execDisturbWinWrite_whole (v := v) hp hr hd hok
    rw [if_pos hbad] at hexec
    exact ⟨_, hexec, raise_oneFlag s p 2 _ _ _ _ (by decide)⟩
  · exact stallWindowOpen_completes hp hup
  · exact stallWindowClose_completes hp hup

end Sys2Proof.Machine
end

section
/-! SUPPORT. Access faults of a hart: what a trap leaves in its registers (02_register_pages.md R36, R37). -/

namespace Sys2Proof.Machine

open Sys2Proof

theorem Hart.c_setC (h : Hart) (n m v : Nat) : (h.setC n v).c m = if m = n then v % 2 ^ 64 else h.c m := by
  rw [Hart.c, Hart.setC, fget_fset]
  split
  · rw [BitVec.toNat_ofNat]
  · rfl

/-- A trap taken in machine mode. -/
theorem Hart.trap_machine {h : Hart} {cause : Nat} (hm : h.priv = 3 ∨ bit (h.c 0x302) cause = false) (tval : Nat) :
    let t := h.trap cause tval
    t.priv = 3 ∧ t.pc = h.c 0x305 / 4 * 4 ∧ t.c 0x341 = h.pc % 2 ^ 64 ∧ t.c 0x342 = cause % 2 ^ 64 ∧ t.c 0x343 = tval % 2 ^ 64 := by
  have hno : ¬ (h.priv ≠ 3 ∧ bit (h.c 0x302) cause = true) := by
    rintro ⟨h3, hbit⟩
    rcases hm with hm | hm
    · exact h3 hm
    · rw [hm] at hbit; cases hbit
  have hc (k : Hart) (p x m : Nat) : Hart.c { k with priv := p, pc := x } m = k.c m := rfl
  rw [Hart.trap, if_neg hno]
  refine ⟨rfl, rfl, ?_, ?_, ?_⟩ <;> simp only [hc, Hart.c_setC] <;> norm_num

/-- A trap delegated to supervisor mode. -/
theorem Hart.trap_supervisor {h : Hart} {cause : Nat} (h3 : h.priv ≠ 3) (hbit : bit (h.c 0x302) cause = true) (tval : Nat) :
    let t := h.trap cause tval
    t.priv = 1 ∧ t.pc = h.c 0x105 / 4 * 4 ∧ t.c 0x141 = h.pc % 2 ^ 64 ∧ t.c 0x142 = cause % 2 ^ 64 ∧ t.c 0x143 = tval % 2 ^ 64 := by
  have hc (k : Hart) (p x m : Nat) : Hart.c { k with priv := p, pc := x } m = k.c m := rfl
  rw [Hart.trap, if_pos ⟨h3, hbit⟩]
  refine ⟨rfl, rfl, ?_, ?_, ?_⟩ <;> simp only [hc, Hart.c_setC] <;> norm_num

/-- A trap touches none of the registers that programs compute with, and no wait. -/
theorem Hart.trap_regs (h : Hart) (cause tval : Nat) :
    (h.trap cause tval).wait = h.wait ∧ (h.trap cause tval).x = h.x ∧ (h.trap cause tval).f = h.f ∧ (h.trap cause tval).v = h.v := by
  unfold Hart.trap
  split <;> exact ⟨rfl, rfl, rfl, rfl⟩

/-- An access fault of a hart. -/
theorem hartFault_faulted (s : State) (n addr : Nat) (store : Bool) : HartFaulted s (hartFault s n addr store) n addr store := by
  let h : Hart := { s.hart n with wait := none }
  let cause : Nat := if store then 7 else 5
  have hcause : cause % 2 ^ 64 = cause := by cases store <;> rfl
  have hself : (hartFault s n addr store).hart n = h.trap cause addr := fget_fset_self _ _ _ _
  obtain ⟨hwait, hx, hf, hv⟩ := h.trap_regs cause addr
  unfold HartFaulted
  rw [hself]
  refine ⟨hwait, hx, hf, hv, fun hm => ?_, fun h3 hbit => ?_, fun m hm => fget_fset_ne _ _ _ hm, rfl⟩
  · obtain ⟨hpriv, hpc, hepc, hca, htval⟩ := Hart.trap_machine (h := h) hm addr
    exact ⟨hpriv, hpc, hepc, hca.trans hcause, htval⟩
  · obtain ⟨hpriv, hpc, hepc, hca, htval⟩ := Hart.trap_supervisor (h := h) h3 hbit addr
    exact ⟨hpriv, hpc, hepc, hca.trans hcause, htval⟩

end Sys2Proof.Machine
end

section
/-! Writes to register pages (O21). -/

namespace Sys2Proof.Machine

open Sys2Proof

theorem exec_registerWrite (who : Agent) (addr size : Nat) (v : BitVec 64) (s : State) :
    exec (.registerWrite who addr size v) s = execRegisterWrite who addr size v s := rfl

/-! Which page takes a write. -/

/-- A write that cannot be made yet waits. -/
theorem registerWrite_waits {s : State} {who : Agent} (h : writeOpen s who = false) (addr size : Nat) (v : BitVec 64) :
    Idle (.registerWrite who addr size v) s := by
  rw [Idle, exec_registerWrite, execRegisterWrite, h]; rfl

/-- A write over a halted network waits (01_architecture.md R22). -/
theorem registerWrite_halted {s : State} {who : Agent} {addr : Nat} {p : Page} {off : Nat} (hpage : pageOf addr = some (p, off))
    (hhalt : s.netHalted = true) (hfar : farPage p = true) (size : Nat) (v : BitVec 64) : Idle (.registerWrite who addr size v) s := by
  rw [Idle, exec_registerWrite, execRegisterWrite, hpage]
  simp only [hhalt, hfar]
  split <;> rfl

/-- A write that no page takes is refused (R36, R37). -/
theorem registerWrite_refused {s : State} {who : Agent} {addr size : Nat} (hopen : writeOpen s who = true)
    (h : pageOf addr = none ∨ ∃ p off, pageOf addr = some (p, off) ∧ (s.netHalted && farPage p) = false
      ∧ ¬ (size = 4 ∧ off % 4 = 0) ∧ ¬ (size = 8 ∧ off % 8 = 0))
    (v : BitVec 64) : exec (.registerWrite who addr size v) s = .next (writeRefused s who addr) := by
  rw [exec_registerWrite, execRegisterWrite, hopen]
  rcases h with hnone | ⟨p, off, hpage, hreach, h4, h8⟩
  · rw [hnone]; rfl
  · rw [hpage]
    simp only [hreach, pageWrite, if_neg h4, if_neg h8]
    rfl

section
variable {s : State} {who : Agent} {p : Page}

/-- A 32-bit write of an existing page's word. -/
theorem registerWrite_word (hopen : writeOpen s who = true) (hreach : (s.netHalted && farPage p) = false) (hp : pageOk p = true) {off : Nat}
    (ho : off < 0x1000) (h4 : off % 4 = 0) (v : BitVec 64) :
    exec (.registerWrite who (pageBase p + off) 4 v) s = .next (write32 s p off (v.toNat % 2 ^ 32)) := by
  rw [exec_registerWrite, execRegisterWrite, hopen, pageOf_pageBase hp ho]
  simp [hreach, pageWrite, h4]

end

/-! The configuration sets. -/

section
variable {s : State} {p : Page} {off : Nat}

theorem inActive_iff : inActive p off = true ↔ 0x100 ≤ off ∧ off < 0x100 + 4 * (caps p.blk).words := decide_eq_true_iff
theorem inShadow_iff : inShadow p off = true ↔ 0x900 ≤ off ∧ off < 0x900 + 4 * (caps p.blk).words := decide_eq_true_iff

theorem write32_active (h : inActive p off = true) (w : Nat) : write32 s p off w = illegalWrite s p := by
  obtain ⟨hlo, -⟩ := inActive_iff.mp h
  rw [write32, if_neg (by omega), if_pos h]

theorem write32_shadow (h : inShadow p off = true) (w : Nat) : write32 s p off w = shadowWrite s p off w := by
  obtain ⟨hlo, -⟩ := inShadow_iff.mp h
  have hw := words_le p.blk
  have hact : ¬ inActive p off = true := by rw [inActive_iff]; omega
  rw [write32, if_neg (by omega), if_neg hact, if_pos h]

/-- Outside the sets and CTRL a write is one to a register, if there is one. -/
theorem write32_none (hctrl : off ≠ 0x10) (hact : inActive p off = false) (hsh : inShadow p off = false) (hreg : regAt p off = none) (w : Nat) :
    write32 s p off w = illegalWrite s p := by
  simp only [write32, hctrl, hact, hsh, hreg, if_false, Bool.false_eq_true]

theorem write32_register (hctrl : off ≠ 0x10) (hact : inActive p off = false) (hsh : inShadow p off = false) {r : Reg} (hreg : regAt p off = some (r, false))
    (w : Nat) : write32 s p off w = opWrite s p off r (2 ^ 32 - 1) w := by
  simp only [write32, hctrl, hact, hsh, hreg, if_false, Bool.false_eq_true]

theorem write32_highHalf (hctrl : off ≠ 0x10) (hact : inActive p off = false) (hsh : inShadow p off = false) {r : Reg} (hreg : regAt p off = some (r, true))
    (w : Nat) : write32 s p off w = opWrite s p (off - 4) r ((2 ^ 32 - 1) * 2 ^ 32) (w * 2 ^ 32) := by
  simp only [write32, hctrl, hact, hsh, hreg, if_false, Bool.false_eq_true]

/-- The shadow set takes the bits that its registers define; others are reported (R45, R58). -/
theorem shadowWrite_takes (hsh : inShadow p off = true) (h4 : off % 4 = 0) (hpend : s.swapPending p = false) {r : Reg} {hi : Bool}
    (hreg : regAt p (off - 0x800) = some (r, hi)) {w : Nat} (hw : w < 2 ^ 32) :
    let t := shadowWrite s p off w
    t.rd p off = w &&& covered r.fs ∧ (w &&& covered r.fs = w → OnlyWords s t [(p, off)]) ∧ (w &&& covered r.fs ≠ w → WordsAndFlag s t [(p, off)] p 2) := by
  obtain ⟨hlo, hhi⟩ := inShadow_iff.mp hsh
  have hwords := words_le p.blk
  let m := covered r.fs
  let s1 := s.wr p off (w &&& m)
  have hle : w &&& m ≤ w := Nat.and_le_left
  have ht : shadowWrite s p off w = if without w m = 0 then s1 else illegalWrite s1 p := by rw [shadowWrite, hpend, if_neg (by decide), hreg]
  have hval : s1.rd p off = w &&& m := by rw [rd_wr_self, Nat.mod_eq_of_lt (by omega)]
  have honly : OnlyWords s s1 [(p, off)] := ⟨wr_kept s p off _, wr_only s p off _⟩
  have hzero : without w m = 0 ↔ w &&& m = w := by unfold without; omega
  intro t
  rw [show t = shadowWrite s p off w from rfl, ht]
  split
  · next h => exact ⟨hval, fun _ => honly, fun hne => absurd (hzero.mp h) hne⟩
  · next h =>
    refine ⟨(rd_raise h4 ⟨by omega, by omega, by omega⟩).trans hval, fun heq => absurd (hzero.mpr heq) h, fun _ => ?_⟩
    exact honly.then_raise_page (offs := [off]) (by decide) (by simpa using h4) (by simp; omega) _ _ _ _

end

/-! Registers outside the sets. -/

section
variable {s : State} {p : Page} {off : Nat}

theorem regAt_ctrl_not_ro {r : Reg} {hi : Bool} (h : regAt p 0x10 = some (r, hi)) : ¬ ∀ f ∈ r.fs, f.acc = .ro := by
  rw [regAt_ctrl] at h
  cases h
  exact fun hro => absurd (hro (fld .act 0 1 0) (by simp [ctrlReg, reg])) (by decide)

/-- A register none of whose fields is writable takes nothing. -/
theorem opWrite_readOnly {r : Reg} (h : ∀ f ∈ r.fs, f.acc = .ro) (hm v : Nat) : opWrite s p off r hm v = illegalWrite s p := by
  have hnone : r.fs.filter (fun f => decide (fldMask f &&& hm ≠ 0) && decide (f.acc ≠ .ro)) = [] := by
    rw [List.filter_eq_nil_iff]
    intro f hf
    simp [h f hf]
  simp only [opWrite, hnone, if_pos]

theorem write32_reserved (hact : inActive p off = false) (hsh : inShadow p off = false)
    (h : regAt p off = none ∨ ∃ r hi, regAt p off = some (r, hi) ∧ ∀ f ∈ r.fs, f.acc = .ro) (w : Nat) : write32 s p off w = illegalWrite s p := by
  have hctrl : off ≠ 0x10 := by
    rintro rfl
    rcases h with h | ⟨r, hi, hreg, hro⟩
    · rw [regAt_ctrl] at h; cases h
    · exact regAt_ctrl_not_ro hreg hro
  rcases h with h | ⟨r, hi, hreg, hro⟩
  · exact write32_none hctrl hact hsh h w
  · cases hi with
    | false => rw [write32_register hctrl hact hsh hreg, opWrite_readOnly hro]
    | true =>
      rw [write32_highHalf hctrl hact hsh hreg]
      exact opWrite_readOnly hro _ _

end

/-! A register of one RW field. -/

/-- Numbers that share no bit add without a carry. -/
theorem testBit_add_of_disjoint {a b : Nat} (h : ∀ i, a.testBit i = true → b.testBit i = false) (i : Nat) :
    (a + b).testBit i = (a.testBit i || b.testBit i) := by
  induction i generalizing a b with
  | zero =>
    have h0 := h 0
    rw [Bool.eq_iff_iff]
    simp only [Nat.testBit_zero, decide_eq_true_eq, decide_eq_false_iff_not, Bool.or_eq_true] at h0 ⊢
    omega
  | succ i ih =>
    have h0 := h 0
    simp only [Nat.testBit_zero, decide_eq_true_eq, decide_eq_false_iff_not] at h0
    have hdiv : (a + b) / 2 = a / 2 + b / 2 := by omega
    rw [Nat.testBit_succ, hdiv, ih, Nat.testBit_succ, Nat.testBit_succ]
    intro j
    rw [← Nat.testBit_succ, ← Nat.testBit_succ]
    exact h (j + 1)

/-- Bits of a number replaced where a mask has them. -/
theorem testBit_merge (x v m i : Nat) : (without x m + (v &&& m)).testBit i = if m.testBit i then v.testBit i else x.testBit i := by
  rw [testBit_add_of_disjoint (by intro j; rw [testBit_without, Nat.testBit_and]; cases m.testBit j <;> simp), testBit_without, Nat.testBit_and]
  cases m.testBit i <;> simp

theorem and_allOnes (x : Nat) (h : x < 2 ^ 32) : x &&& (2 ^ 32 - 1) = x := by
  rw [Nat.and_two_pow_sub_one_eq_mod, Nat.mod_eq_of_lt h]

theorem fldMask_lt {f : Fld} (h : f.lo + f.len ≤ 32) : fldMask f < 2 ^ 32 := by
  apply Nat.lt_pow_two_of_testBit
  intro i hi
  rw [testBit_fldMask, decide_eq_false_iff_not]
  omega

theorem fldMask_ne_zero {f : Fld} (h : 0 < f.len) : fldMask f ≠ 0 := by
  intro h0
  have hbit := testBit_fldMask f f.lo
  rw [h0, Nat.zero_testBit, decide_eq_true (by omega)] at hbit
  cases hbit

theorem covered_single (f : Fld) : covered [f] = fldMask f := by simp [covered]

/-- The value of a register word whose one field is replaced. -/
def fieldMerged (old w : Nat) (f : Fld) : Nat := without old (fldMask f) + (w &&& fldMask f)

theorem bits_fieldMerged (old w : Nat) (f : Fld) : bits (fieldMerged old w f) f.lo f.len = bits w f.lo f.len := by
  apply Nat.eq_of_testBit_eq
  intro i
  rw [testBit_bits, testBit_bits, fieldMerged, testBit_merge, testBit_fldMask]
  by_cases h : i < f.len
  · rw [decide_eq_true (show f.lo ≤ f.lo + i ∧ f.lo + i < f.lo + f.len by omega), if_pos rfl]
  · simp [h]

section
variable {s : State} {p : Page} {off : Nat}

/-- A write to a register of one RW field (R37, R49, R58): a legal encoding is stored, a reserved one leaves the field and is reported. -/
theorem opWrite_field {r : Reg} {f : Fld} (hwide : r.wide = false) (hfs : r.fs = [f]) (hacc : f.acc = .rw) (hlen : 0 < f.len)
    (hfit : f.lo + f.len ≤ 32) (hpower : p.blk ≠ .power) (hhoist : p.blk ≠ .hoist) {w : Nat} (hw : w < 2 ^ 32) (hin : w &&& fldMask f = w) :
    opWrite s p off r (2 ^ 32 - 1) w =
      if fldLegal f (bits w f.lo f.len) then s.wr p off (fieldMerged (s.rd p off) w f) else illegalWrite (s.wr p off (s.rd p off)) p := by
  have hm : fldMask f &&& (2 ^ 32 - 1) = fldMask f := and_allOnes _ (fldMask_lt hfit)
  have hmask := fldMask_ne_zero hlen
  have htouched : [f].filter (fun f => decide (fldMask f &&& (2 ^ 32 - 1) ≠ 0) && decide (f.acc ≠ .ro)) ≠ [] := by
    rw [List.filter_cons, hm, hacc, if_pos (by simp [hmask])]
    simp
  have hbarred (old new : Nat) : writeBarred s p off old new = false := by
    unfold writeBarred
    split
    · next hb => exact absurd hb hhoist
    · next hb => exact absurd hb hpower
    · rfl
  have heffect (t : State) : writeEffect t p off = t := if_neg fun h => hpower h.1
  have hrest : without w (fldMask f) = 0 := by rw [without, hin, Nat.sub_self]
  have hmerge : [f].foldl (mergeField (2 ^ 32 - 1) w) (s.rd p off, false)
      = if fldLegal f (bits w f.lo f.len) then (fieldMerged (s.rd p off) w f, false) else (s.rd p off, true) := by
    rw [List.foldl_cons, List.foldl_nil, mergeField, hm, if_pos ⟨hacc, hmask⟩]
    show (if fldLegal f (bits (fieldMerged (s.rd p off) w f) f.lo f.len) then _ else _) = _
    rw [bits_fieldMerged]
    rfl
  rw [opWrite, hfs, if_neg htouched, hwide]
  simp only [if_neg Bool.false_ne_true, hmerge, hbarred, heffect, and_allOnes w hw, covered_single, hrest]
  split <;> simp

/-- A word written with what it holds leaves every register as it was. -/
theorem wr_same_onlyWords (s : State) (p : Page) (off : Nat) : OnlyWords s (s.wr p off (s.rd p off)) [] := by
  refine ⟨fun k _ => ?_, wr_only s p off _⟩
  by_cases hk : k = regKey p off
  · rw [hk, State.wr, fget_fset_self, State.rd, BitVec.ofNat_toNat, BitVec.setWidth_eq]
  · exact fget_wr s p off _ k hk

end

/-! CTRL written whole (R43, R58). -/

/-- The block's own CTRL bits lie above the common ones. -/
theorem ctrlBits_cases (p : Page) : ctrlBits p ∈ [[], [16], [16, 17], [20, 21], [16, 17, 20, 21]] := by
  obtain ⟨b, i⟩ := p
  cases b <;> by_cases h : i = 0 <;> simp [ctrlBits, h]

theorem ctrlBits_queue {p : Page} (h : p.blk = .queue) : ctrlBits p = [16, 17, 20, 21] := by rw [ctrlBits, h]

/-- CTRL written with the version and enable of a block that is enabled: only its own word can change. -/
def ctrlKept (s : State) (p : Page) : State := ctrlEnable (verWrite s p 1) p true

theorem ctrlKept_spec (s : State) (p : Page) :
    (ctrlKept s p).rdB p 0x10 0 = true ∧ (ctrlKept s p).rdF p 0x10 4 4 = 1 ∧ OnlyWords s (ctrlKept s p) [(p, 0x10)] := by
  obtain ⟨hver, hkept, honly⟩ := verWrite_one s p
  obtain ⟨hkept', honly'⟩ := ctrlEnable_onlyWords (verWrite s p 1) p true
  refine ⟨ctrlEnable_rdB _ p true, ?_, (hkept.trans hkept').mono (by simp), honly.trans honly'⟩
  rw [ctrlKept, ctrlEnable, rdF_wrF_off _ _ _ _ _ _ _ _ (by decide) (by decide), hver]

section
variable {s : State} {p : Page}

theorem rd_verWrite_off (s : State) (p q : Page) {a : Nat} (h : a % 0x1000 / 4 ≠ 0x10 / 4) : (verWrite s p 1).rd q a = s.rd q a := by
  rw [verWrite, if_pos rfl, State.wrF, rd_wr, if_neg (regKey_ne_of_offset h)]

theorem enableWrite_kept (hp : pageOk p = true) (hen : s.enabled p = true) (hon : s.rdB p 0x10 0 = true) (htest : p.blk = .tile → tileFailed s p.inst = false) :
    enableWrite (verWrite s p 1) p true false false = ctrlKept s p := by
  let u := verWrite s p 1
  have henabled : u.enabled p = true := by rw [State.enabled, State.rdB, rd_verWrite_off s p p (by decide), ← State.rdB]; exact hen
  have hctrl : u.rdB p 0x10 0 = true := by
    rw [State.rdB, show u = s.wrF p 0x10 4 4 1 from rfl, State.wrF, rd_wr_self, bit, Nat.testBit_mod_two_pow, testBit_putBits, if_neg (by decide)]
    exact (Bool.true_and _).trans hon
  have htest' : p.blk = .tile → tileFailed u p.inst = false := by
    intro hb
    have hinst : p.inst < 160 := by
      have := of_decide_eq_true hp
      rwa [hb] at this
    rw [tileFailed, State.rdB, rd_verWrite_off s p pErrlog (by omega), ← State.rdB, ← tileFailed, htest hb]
  rw [enableWrite_on htest', henabled, hctrl, if_neg (by decide),
    settleEnable_eq_self ((ctrlEnable_rdB u p true).trans ((ctrlEnable_enabled u p true).trans henabled).symm)]
  rfl

theorem ctrlWrite_eq (hp : pageOk p = true) (hen : s.enabled p = true) (hon : s.rdB p 0x10 0 = true) (htest : p.blk = .tile → tileFailed s p.inst = false)
    {w : Nat} (hver : bits w 4 4 = 1) (h0 : bit w 0 = true) (h1 : bit w 1 = false) (h2 : bit w 2 = false) :
    ctrlWrite s p w = (if without w (0xF7 + maskOf (ctrlBits p)) = 0 then ((ctrlBits p).filter (bit w)).foldl (ctrlAct p) (ctrlKept s p)
      else illegalWrite (((ctrlBits p).filter (bit w)).foldl (ctrlAct p) (ctrlKept s p)) p) := by
  rw [ctrlWrite, hver, h0, h1, h2, enableWrite_kept hp hen hon htest]

/-- No bit of the block's own. -/
theorem ctrlWrite_plain (hp : pageOk p = true) (hen : s.enabled p = true) (hon : s.rdB p 0x10 0 = true) (htest : p.blk = .tile → tileFailed s p.inst = false) :
    ctrlWrite s p 0x11 = ctrlKept s p := by
  have hcases := ctrlBits_cases p
  have hnone : (ctrlBits p).filter (bit 0x11) = [] := by
    generalize ctrlBits p = L at hcases
    revert L; decide
  have hrest : without 0x11 (0xF7 + maskOf (ctrlBits p)) = 0 := by
    generalize ctrlBits p = L at hcases
    revert L; decide
  rw [ctrlWrite_eq hp hen hon htest (by decide) (by decide) (by decide) (by decide), if_pos hrest, hnone]
  rfl

/-- A reserved bit beside them is reported. -/
theorem ctrlWrite_reserved (hp : pageOk p = true) (hen : s.enabled p = true) (hon : s.rdB p 0x10 0 = true) (htest : p.blk = .tile → tileFailed s p.inst = false) :
    ctrlWrite s p 0x80000011 = illegalWrite (ctrlKept s p) p := by
  have hcases := ctrlBits_cases p
  have hnone : (ctrlBits p).filter (bit 0x80000011) = [] := by
    generalize ctrlBits p = L at hcases
    revert L; decide
  have hrest : without 0x80000011 (0xF7 + maskOf (ctrlBits p)) ≠ 0 := by
    generalize ctrlBits p = L at hcases
    revert L; decide
  rw [ctrlWrite_eq hp hen hon htest (by decide) (by decide) (by decide) (by decide), if_neg hrest, hnone]
  rfl

/-- CTRL.arm of a queue. -/
theorem ctrlWrite_arm (hp : pageOk p = true) (hen : s.enabled p = true) (hon : s.rdB p 0x10 0 = true) (hq : p.blk = .queue) :
    exec (.queueArm p.inst) (ctrlKept s p) = .next (ctrlWrite s p 0x10011) := by
  have hbits := ctrlBits_queue hq
  have hone : (ctrlBits p).filter (bit 0x10011) = [16] := by rw [hbits]; decide
  have hrest : without 0x10011 (0xF7 + maskOf (ctrlBits p)) = 0 := by rw [hbits]; decide
  have hinst : p.inst < 16384 := by
    have := of_decide_eq_true hp
    rwa [hq] at this
  have hact : ctrlAct p (ctrlKept s p) 16 = nextOf (ctrlKept s p) (execQueueArm p.inst (ctrlKept s p)) := by simp only [ctrlAct, hq]
  rw [ctrlWrite_eq hp hen hon (fun h => by simp [hq] at h) (by decide) (by decide) (by decide) (by decide), if_pos hrest, hone, List.foldl_cons, List.foldl_nil, hact]
  show execQueueArm p.inst (ctrlKept s p) = _
  rw [execQueueArm, onUnit, if_pos (decide_eq_true hinst)]
  rfl

end

/-! The whole. -/

/-- The low word of a value from its three lowest fields. -/
theorem ctrlWord_eq {v x : Nat} (h0 : bits v 0 1 = 1) (h1 : bits v 1 3 = 0) (hx : bits v 4 28 = x) : v % 2 ^ 32 = 1 + 16 * x := by
  unfold bits at h0 h1 hx
  omega

section
variable {s : State} {who : Agent} {p : Page}

/-- Writes to a page's words other than CTRL. -/
theorem registerWrite_words (hopen : writeOpen s who = true) (hreach : (s.netHalted && farPage p) = false) (hp : pageOk p = true) {off : Nat} (ho : off < 0x1000)
    (h4 : off % 4 = 0) (v : BitVec 64) {P : State → Prop} (h : P (write32 s p off (v.toNat % 2 ^ 32))) :
    Completes (.registerWrite who (pageBase p + off) 4 v) s P :=
  ⟨_, registerWrite_word hopen hreach hp ho h4 v, h⟩

/-- A field that is RW takes a legal encoding and keeps its value against a reserved one. -/
theorem write32_field {off : Nat} (hact : inActive p off = false) (hsh : inShadow p off = false) (hpower : p.blk ≠ .power) (hhoist : p.blk ≠ .hoist)
    {r : Reg} {f : Fld} (hreg : regAt p off = some (r, false)) (hwide : r.wide = false) (hfs : r.fs = [f]) (hacc : f.acc = .rw) (hlen : 0 < f.len)
    (hfit : f.lo + f.len ≤ 32) {w : Nat} (hw : w < 2 ^ 32) (hin : w &&& fldMask f = w) :
    write32 s p off w = if fldLegal f (bits w f.lo f.len) then s.wr p off (fieldMerged (s.rd p off) w f) else illegalWrite (s.wr p off (s.rd p off)) p := by
  have hctrl : off ≠ 0x10 := by
    rintro rfl
    rw [regAt_ctrl] at hreg
    cases hreg
    simp [ctrlReg, reg] at hfs
  rw [write32_register hctrl hact hsh hreg]
  exact opWrite_field hwide hfs hacc hlen hfit hpower hhoist hw hin

end

/-- Settles O21. -/
theorem registerWrites : Obligations.RegisterWrites := by
  refine ⟨?_, ?_, fun s who addr size v => ⟨fun hshut => registerWrite_waits hshut addr size v,
    fun p off hpage hhalt hfar => registerWrite_halted hpage hhalt hfar size v, fun hopen hno => ?_⟩⟩
  · intro s who p off v hopen hreach hp ho h4 w c
    have hw : w < 2 ^ 32 := Nat.mod_lt _ (by decide)
    have hone : OneFlag s (illegalWrite s p) p 2 := raise_oneFlag s p 2 _ _ _ _ (by decide)
    refine ⟨fun hact => ?_, fun hsh hpend => ?_, fun hsh hpend hreg => ?_, fun hsh hpend r hi hreg => ?_, fun hact hsh hro => ?_,
      fun hact hsh hpower hhoist r f hreg hwide hfs hacc hlen hfit hin => ⟨fun hlegal => ?_, fun hlegal => ?_⟩⟩ <;>
      apply registerWrite_words hopen hreach hp ho h4
    · rw [write32_active hact]; exact hone
    · rw [write32_shadow hsh, shadowWrite, if_pos hpend]
      exact raise_oneFlag s p 1 _ _ _ _ (by decide)
    · rw [write32_shadow hsh, shadowWrite, hpend, if_neg (by decide), hreg]; exact hone
    · rw [write32_shadow hsh]
      exact shadowWrite_takes hsh h4 hpend hreg hw
    · rw [write32_reserved hact hsh hro]; exact hone
    · rw [write32_field hact hsh hpower hhoist hreg hwide hfs hacc hlen hfit hw hin, if_pos hlegal]
      refine ⟨?_, wr_kept s p off _, wr_only s p off _⟩
      rw [rd_wr_self, bits_mod_word _ _ _ hfit, bits_fieldMerged]
    · rw [write32_field hact hsh hpower hhoist hreg hwide hfs hacc hlen hfit hw hin, hlegal, if_neg (by decide)]
      exact (wr_same_onlyWords s p off).then_raise (by simp) _ _ _ _ (by decide)
  · intro s who p v hopen hreach hp hen hon htest h0 h1 c
    have hexec : exec c s = .next (ctrlWrite s p (v.toNat % 2 ^ 32)) := registerWrite_word hopen hreach hp (by decide) (by decide) v
    obtain ⟨henable, hver, honly⟩ := ctrlKept_spec s p
    refine ⟨fun hx => ?_, fun hx => ?_, fun hq hx => ⟨ctrlKept s p, honly, ?_⟩⟩
    · rw [ctrlWord_eq h0 h1 hx, show 1 + 16 * 1 = 0x11 by decide, ctrlWrite_plain hp hen hon htest] at hexec
      exact ⟨_, hexec, henable, hver, honly⟩
    · rw [ctrlWord_eq h0 h1 hx, show 1 + 16 * (1 + 2 ^ 27) = 0x80000011 by decide, ctrlWrite_reserved hp hen hon htest] at hexec
      refine ⟨_, hexec, ?_, honly.then_raise_page (offs := [0x10]) (by decide) (by decide) (by decide) _ _ _ _⟩
      rw [State.rdF, illegalWrite, rd_raise (by decide) (by decide), ← State.rdF, hver]
    · rw [ctrlWord_eq h0 h1 hx, show 1 + 16 * (1 + 2 ^ 12) = 0x10011 by decide] at hexec
      exact hexec.trans (ctrlWrite_arm hp hen hon hq).symm
  · have hexec := registerWrite_refused hopen hno v
    refine ⟨?_, ?_⟩
    · rintro rfl
      exact hexec
    · rintro n rfl
      exact ⟨_, hexec, hartFault_faulted s n addr true⟩

end Sys2Proof.Machine
end

section
/-! SUPPORT. Little-endian numbers in stacked memory: what a number put at an address reads as, and the bytes around it. -/

namespace Sys2Proof.Machine

open Sys2Proof

theorem leNat_toLE (n x : Nat) : leNat (toLE n x) = x % 2 ^ (8 * n) := by
  induction n generalizing x with
  | zero => simp [toLE, leNat, Nat.mod_one]
  | succ n ih =>
    rw [toLE, leNat, ih, BitVec.toNat_ofNat, show 8 * (n + 1) = 8 + 8 * n by omega, Nat.pow_add, Nat.mod_mul]

@[simp] theorem length_toLE (n x : Nat) : (toLE n x).length = n := by
  induction n generalizing x with
  | zero => rfl
  | succ n ih => rw [toLE, List.length_cons, ih]

theorem leNat_lt (l : List Byte) : leNat l < 2 ^ (8 * l.length) := by
  induction l with
  | nil => simp [leNat]
  | cons b r ih =>
    rw [leNat, List.length_cons, show 8 * (r.length + 1) = 8 + 8 * r.length by omega, Nat.pow_add]
    omega

theorem hnat_lt (s : State) (a n : Nat) : s.hnat a n < 2 ^ (8 * n) := by
  have h := leNat_lt (s.hrd a n)
  rwa [State.hrd, List.length_map, List.length_range] at h

/-- Two states with the same stacked memory read alike. -/
theorem hb_congr {s t : State} (h : t.hbm = s.hbm) (k : Nat) : t.hb k = s.hb k := by simp only [State.hb, h]
theorem hnat_congr {s t : State} (h : t.hbm = s.hbm) (a n : Nat) : t.hnat a n = s.hnat a n := by simp only [State.hnat, State.hrd, State.hb, h]

/-- Bytes written read as written. -/
theorem hrd_hwr_self (s : State) (a : Nat) (l : List Byte) : (s.hwr a l).hrd a l.length = l := by
  refine List.ext_getElem (by simp [State.hrd]) fun i _ hi => ?_
  simp only [State.hrd, State.hb, State.hwr, List.getElem_map, List.getElem_range]
  exact fget_writeCells_in _ _ _ i hi

/-- The `n` bytes at `a` hold the number `v`, and every other byte of stacked memory is as before. -/
structure PutAt (s t : State) (a n v : Nat) : Prop where
  value : t.hnat a n = v
  frame : ∀ k, (k < a ∨ a + n ≤ k) → t.hb k = s.hb k

section
variable {s t u : State} {a n v : Nat}

/-- Memory left alone holds what it held. -/
theorem PutAt.of_eq (h : t.hbm = s.hbm) : PutAt s t a n (s.hnat a n) := ⟨hnat_congr h a n, fun k _ => hb_congr h k⟩

theorem PutAt.congr_value {w : Nat} (h : PutAt s t a n v) (hv : v = w) : PutAt s t a n w := hv ▸ h

theorem PutAt.congr_left (h : PutAt u t a n v) (hu : u.hbm = s.hbm) : PutAt s t a n v :=
  ⟨h.value, fun k hk => (h.frame k hk).trans (hb_congr hu k)⟩

theorem PutAt.congr_right (h : PutAt s u a n v) (ht : t.hbm = u.hbm) : PutAt s t a n v :=
  ⟨(hnat_congr ht a n).trans h.value, fun k hk => (hb_congr ht k).trans (h.frame k hk)⟩

end

theorem hwr_putAt (s : State) (a n x : Nat) : PutAt s (s.hwr a (toLE n x)) a n (x % 2 ^ (8 * n)) := by
  refine ⟨?_, fun k hk => fget_writeCells_out _ _ _ k (by rwa [length_toLE])⟩
  have h := hrd_hwr_self s a (toLE n x)
  rw [length_toLE] at h
  rw [State.hnat, h, leNat_toLE]

end Sys2Proof.Machine
end

section
/-! SUPPORT. Atomics in the slices (03_memory_model.md R90-R95): what an acquire check keeps, and what one atomic answers and leaves at its address. -/

namespace Sys2Proof.Machine

open Sys2Proof

/-! Release and acquire. -/

@[simp] theorem slicePut_hbm (s : State) (a : Nat) (l : List Byte) : (slicePut s a l).hbm = (s.hwr a l).hbm := rfl
@[simp] theorem sliceTouch_hbm (s : State) (r : Requester) (a n : Nat) (wr : Bool) : (sliceTouch s r a n wr).hbm = s.hbm := rfl

/-- A release write is noted in the slices' own records only. -/
theorem tagRelease_only (s : State) (a n scope : Nat) (t : RelTag) : ∃ m, tagRelease s a n scope t = { s with mem := m } := by
  unfold tagRelease
  extract_lets c s1
  split <;> exact ⟨_, rfl⟩

@[simp] theorem tagRelease_hbm (s : State) (a n scope : Nat) (t : RelTag) : (tagRelease s a n scope t).hbm = s.hbm := by
  obtain ⟨m, h⟩ := tagRelease_only s a n scope t
  rw [h]

/-- An acquire check counts a mismatched pair in the slice's registers, and does nothing else (R84, R85). -/
theorem acquireCheck_cases (s : State) (a n scope : Nat) (me : RelTag) :
    acquireCheck s a n scope me = s
      ∨ ∃ w : RelTag, acquireCheck s a n scope me = countMismatch s (pCache (sliceOf s a)) (a / 64 * 64) w.scope scope w.remote := by
  unfold acquireCheck
  extract_lets c
  split
  · split
    · next w _ =>
      split
      · exact Or.inl rfl
      · exact Or.inr ⟨w, rfl⟩
    · exact Or.inl rfl
  · exact Or.inl rfl

theorem acquireCheck_only (s : State) (a n scope : Nat) (me : RelTag) : OnlyRegs s (acquireCheck s a n scope me) := by
  obtain h | ⟨w, h⟩ := acquireCheck_cases s a n scope me <;> rw [h]
  · unfold OnlyRegs; rfl
  · exact (wr_only s _ _ _).trans ((wr_only _ _ _ _).trans (wr_only _ _ _ _))

/-- Words at other places than the three of the mismatch counter read as before an acquire check. -/
theorem rd_acquireCheck (s : State) (a n scope : Nat) (me : RelTag) (q : Page) {b : Nat} (hb : b % 0x1000 / 4 ∉ [0x6F4 / 4, 0x6F8 / 4, 0x6FC / 4]) :
    (acquireCheck s a n scope me).rd q b = s.rd q b := by
  simp only [List.mem_cons, List.not_mem_nil, or_false, not_or] at hb
  obtain ⟨hcount, hlow, hhigh⟩ := hb
  obtain h | ⟨w, h⟩ := acquireCheck_cases s a n scope me <;> rw [h]
  rw [countMismatch, State.wr64, State.inc, rd_wr, if_neg (regKey_ne_of_offset hhigh), rd_wr, if_neg (regKey_ne_of_offset hlow), rd_wr,
    if_neg (regKey_ne_of_offset hcount)]

/-- What an atomic meets at its address is as before: the bytes of stacked memory, the slice, the faults and the windows. -/
structure SamePlace (s t : State) : Prop where
  hbm : t.hbm = s.hbm
  slice : ∀ a, sliceOf t a = sliceOf s a
  fault : ∀ a n, memFault t a n = memFault s a n
  window : ∀ c a, orwIndex t c a = orwIndex s c a

theorem SamePlace.refl (s : State) : SamePlace s s := ⟨rfl, fun _ => rfl, fun _ _ => rfl, fun _ _ => rfl⟩

theorem acquireCheck_samePlace (s : State) (a n scope : Nat) (me : RelTag) : SamePlace s (acquireCheck s a n scope me) := by
  have honly := acquireCheck_only s a n scope me
  have hrd := rd_acquireCheck s a n scope me
  generalize acquireCheck s a n scope me = t at honly hrd
  have hkey : mapKey t = mapKey s := by rw [mapKey, mapKey, State.rd64, State.rd64, hrd _ (by decide), hrd _ (by decide)]
  have hend : memEnd t = memEnd s := by rw [memEnd, memEnd, State.rd64, State.rd64, hrd _ (by decide), hrd _ (by decide)]
  have hmem : t.mem = s.mem := by rw [honly]
  have hraw : t.raw = s.raw := by rw [honly]
  refine ⟨by rw [honly], fun b => by rw [sliceOf, sliceOf, hkey], fun b m => ?_, fun c b => ?_⟩
  · have hin : inHbm t b m = inHbm s b m := by rw [inHbm, inHbm, hend]
    have hfailed : failedAt t b m = failedAt s b m := by rw [failedAt, failedAt, hmem, hkey]
    have hbad : rawIn t b m = rawIn s b m := by rw [rawIn, rawIn, hraw]
    rw [memFault, memFault, hin, hfailed, hbad]
  · rw [orwIndex, orwIndex, hrd _ (by decide), hrd _ (by decide), hrd _ (by decide)]

/-! One atomic. -/

/-- A compare that fails leaves the old value. -/
theorem atomNew_cas_fails {aop width fmt old v cmp : Nat} (haop : aop = 9) (h : old ≠ cmp) : (atomNew aop width fmt old v cmp).1 = old := by
  rw [haop]; exact if_neg h

/-- What a slice puts at an address stands there. -/
theorem slicePut_putAt (s : State) (a n x : Nat) : PutAt s (slicePut s a (toLE n x)) a n (x % 2 ^ (8 * n)) := (hwr_putAt s a n x).congr_right rfl

section
variable {s : State} {a aop width fmt : Nat} (r : Requester) (v cmp : Nat) (clear : Bool)

/-- The state in which an atomic of `sz` bytes reads its place: the slice has been passed through and the atomic is counted (R90, R353). -/
def atomSeen (s : State) (r : Requester) (a sz aop : Nat) (clear : Bool) : State :=
  (sliceTouch s r a sz (decide (aop ≠ 0xE) || clear)).inc (pCache (sliceOf s a)) 0x20C 1

@[simp] theorem atomSeen_hbm (s : State) (a sz aop : Nat) : (atomSeen s r a sz aop clear).hbm = s.hbm := by simp [atomSeen]

theorem atomSeen_hnat (s : State) (a sz aop : Nat) : (atomSeen s r a sz aop clear).hnat a sz = s.hnat a sz := hnat_congr (atomSeen_hbm r clear s a sz aop) a sz

section
variable (hf : memFault s a (atomSize aop width fmt) = none)
include hf

theorem memAtomic_cellAdd (h : aop = 0xD) :
    (memAtomic s r a aop width fmt v cmp clear).2 = .ok 0
      ∧ PutAt s (memAtomic s r a aop width fmt v cmp clear).1 a (atomSize aop width fmt)
          ((cellAddImg fmt (s.hnat a (atomSize aop width fmt)) v).1 % 2 ^ (8 * atomSize aop width fmt)) := by
  rw [← atomSeen_hnat r clear s a _ aop, memAtomic]
  extract_lets p seen old img
  have hseen : seen.hbm = s.hbm := atomSeen_hbm r clear s a _ aop
  rw [hf]
  simp only [if_pos h]
  exact ⟨trivial, (slicePut_putAt _ _ _ _).congr_left ((State.inc_hbm ..).trans hseen)⟩

theorem memAtomic_cellRead (h : aop = 0xE) :
    (memAtomic s r a aop width fmt v cmp clear).2 = .ok (cellValue fmt (s.hnat a (atomSize aop width fmt))).1
      ∧ PutAt s (memAtomic s r a aop width fmt v cmp clear).1 a (atomSize aop width fmt) (if clear then 0 else s.hnat a (atomSize aop width fmt)) := by
  rw [← atomSeen_hnat r clear s a _ aop, memAtomic]
  extract_lets p seen old img val counted
  have hcounted : counted.hbm = s.hbm := (State.inc_hbm ..).trans ((State.inc_hbm ..).trans (atomSeen_hbm r clear s a _ aop))
  rw [hf]
  simp only [if_neg (show ¬ aop = 0xD by omega), if_pos h]
  refine ⟨rfl, ?_⟩
  cases clear with
  | false => exact (PutAt.of_eq hcounted).congr_value (atomSeen_hnat ..).symm
  | true => exact ((slicePut_putAt _ _ _ _).congr_left hcounted).congr_value (Nat.zero_mod _)

theorem memAtomic_cellClear (h : aop = 0xF) :
    (memAtomic s r a aop width fmt v cmp clear).2 = .ok 0
      ∧ PutAt s (memAtomic s r a aop width fmt v cmp clear).1 a (atomSize aop width fmt) 0 := by
  rw [memAtomic]
  extract_lets p seen
  have hseen : seen.hbm = s.hbm := atomSeen_hbm r clear s a _ aop
  rw [hf]
  simp only [if_neg (show ¬ aop = 0xD by omega), if_neg (show ¬ aop = 0xE by omega), if_pos h]
  exact ⟨trivial, ((slicePut_putAt _ _ _ _).congr_left hseen).congr_value (Nat.zero_mod _)⟩

/-- A plain operation answers the old value and changes no byte outside its operand; its new value stands there unless a window of the slice takes the word (R91, 11_memory_system.md R339). -/
theorem memAtomic_plain (h : aop ≤ 0xC) :
    (memAtomic s r a aop width fmt v cmp clear).2 = .ok (s.hnat a (atomSize aop width fmt))
      ∧ ∃ w, PutAt s (memAtomic s r a aop width fmt v cmp clear).1 a (atomSize aop width fmt) w
        ∧ ((aop = 0 ∧ atomSize aop width fmt = 4 → orwIndex s (sliceOf s a) a = none) →
            w = (atomNew aop width fmt (s.hnat a (atomSize aop width fmt)) v cmp).1 % 2 ^ (8 * atomSize aop width fmt)) := by
  rw [← atomSeen_hnat r clear s a _ aop, memAtomic]
  extract_lets p seen old img val cleared new counted header taken
  have hcounted : counted.hbm = s.hbm := (State.inc_hbm ..).trans (atomSeen_hbm r clear s a _ aop)
  rw [hf]
  simp only [if_neg (show ¬ aop = 0xD by omega), if_neg (show ¬ aop = 0xE by omega), if_neg (show ¬ aop = 0xF by omega)]
  cases hwin : if aop = 0 ∧ atomSize aop width fmt = 4 then orwIndex s (sliceOf s a) a else none with
  | some j =>
    obtain ⟨hword, hin⟩ := Option.ite_none_right_eq_some.mp hwin
    have hno : ¬ (aop = 0 ∧ atomSize aop width fmt = 4 → orwIndex s (sliceOf s a) a = none) := fun h => by simp [h hword] at hin
    have hput (n : Nat) : PutAt s (slicePut counted a (toLE 4 n)) a (atomSize aop width fmt) (n % 2 ^ (8 * atomSize aop width fmt)) := by
      rw [hword.2]
      exact (slicePut_putAt _ _ _ _).congr_left hcounted
    have htaken : PutAt s taken a _ _ := hput (new.1 - header)
    clear_value taken
    by_cases hall : header ≤ new.1
    · simp only [if_pos hall]
      exact ⟨rfl, _, htaken.congr_right rfl, fun h => absurd h hno⟩
    · simp only [if_neg hall]
      exact ⟨rfl, _, hput new.1, fun h => absurd h hno⟩
  | none =>
    refine ⟨rfl, _, ?_, fun _ => rfl⟩
    by_cases hfail : aop = 9 ∧ old ≠ cmp
    · simp only [if_pos hfail]
      have hnew : new.1 = s.hnat a (atomSize aop width fmt) := (atomNew_cas_fails hfail.1 hfail.2).trans (atomSeen_hnat r clear s a _ aop)
      exact (PutAt.of_eq hcounted).congr_value ((Nat.mod_eq_of_lt (hnew ▸ hnat_lt _ _ _)).trans hnew).symm
    · simp only [if_neg hfail]
      exact (slicePut_putAt _ _ _ _).congr_left hcounted

end
end

end Sys2Proof.Machine
end

section
/-! Atomics on local memory (O17). -/

namespace Sys2Proof.Machine

open Sys2Proof

/-! The instructions. -/

theorem atomTable_exec (gr : GRef) (x : TInstr) (s : State) : ∀ y ∈ atomTable gr x, exec y.1 s = atomInstr gr x s y.2.1 y.2.2.1 y.2.2.2 := by
  simp only [atomTable, List.forall_mem_cons]
  exact ⟨rfl, rfl, rfl, rfl, rfl, rfl, rfl, rfl, rfl, rfl, rfl, rfl, rfl, rfl, rfl, rfl, rfl, rfl, by simp⟩

theorem atomTable_number (gr : GRef) (x : TInstr) : ∀ y ∈ atomTable gr x, y.2.1 ≤ 0xF := by simp [atomTable]

/-- An instruction of a group whose checks pass answers what its operation leaves. -/
theorem runThread_passes {s : State} {gr : GRef} {x : TInstr} {tc : TC} (h : ThreadAt s gr x tc) {checks : TC → List (Bool × Nat)} {f : TC → State → State}
    (hk : firstBad (checks tc) = none) : runThread gr x s (fun tc s => guarded tc s (checks tc) (f tc s)) = .next (f tc s) := by
  obtain ⟨htile, hctx⟩ := h
  rw [runThread, onUnit, if_pos (decide_eq_true htile), hctx]
  simp only [guarded, hk]

/-! The lanes. -/

section
variable {tc : TC} {s : State} {aop width : Nat} {clear : Bool}

/-- Faultless local accesses that memory does not hold act at once (05_thread_groups.md R159, R178). -/
theorem atomOp_local {las : List LaneAcc} (hres : resolveAll tc s (atomSize aop width tc.fmt) 4 (atomAlign aop width tc.fmt) 9 tc.act = .ok las)
    (hrem : remoteOf las = []) (hok : ∀ p ∈ localOf las, memHeld s (.thread tc.gr.tile) p.2 (atomSize aop width tc.fmt) = false
      ∧ memFault s p.2 (atomSize aop width tc.fmt) = none) :
    atomOp tc s aop width clear =
      if (atomLocals tc aop width clear (localOf las) s []).2 = [] then commit tc (atomLocals tc aop width clear (localOf las) s []).1 [] .zero
      else outstanding tc (atomLocals tc aop width clear (localOf las) s []).1 (atomLocals tc aop width clear (localOf las) s []).2 none 0
        (if atomReturns aop then atomRegs aop width tc.fmt else 0) (!atomReturns aop) (ordAcq tc.x.mod.toNat) := by
  have hheld : (localOf las).any (fun p => memHeld s (.thread tc.gr.tile) p.2 (atomSize aop width tc.fmt)) = false := by
    simpa using fun l a hp => (hok (l, a) hp).1
  have hfault : localFaults s (localOf las) (atomSize aop width tc.fmt) = [] := by
    rw [localFaults, List.filterMap_eq_nil_iff.mpr fun p hp => (hok p hp).2]
    rfl
  unfold atomOp
  simp only [hres, hrem, hheld, hfault, List.any_nil, List.map_nil]
  cases (atomLocals tc aop width clear (localOf las) s []).2 <;> rfl

/-- The state in which the atomic of a lane meets its operand: an acquire has checked its bytes (03_memory_model.md R85). -/
def atomAcquired (tc : TC) (s : State) (a sz : Nat) : State :=
  if ordAcq tc.x.mod.toNat then acquireCheck s a sz (ordScope tc.x.mod.toNat) (threadTag tc.gr.tile (tc.gr.blk * 32 + tc.gr.grp)) else s

/-- The atomic of lane `l` at local address `a`. -/
def laneAtomic (tc : TC) (aop width : Nat) (clear : Bool) (l a : Nat) (s : State) : State × Except (Nat × Nat) Nat :=
  memAtomic (atomAcquired tc s a (atomSize aop width tc.fmt)) (.thread tc.gr.tile) a aop width tc.fmt
    (atomOperands tc aop (atomRegs aop width tc.fmt) l).1 (atomOperands tc aop (atomRegs aop width tc.fmt) l).2 clear

theorem atomAcquired_samePlace (tc : TC) (s : State) (a sz : Nat) : SamePlace s (atomAcquired tc s a sz) := by
  unfold atomAcquired
  split
  · exact acquireCheck_samePlace ..
  · exact SamePlace.refl s

/-- Of one lane, memory is as its atomic leaves it, and an operation that returns a value gives its answer. -/
theorem atomLocals_single {l a old : Nat} (h : (laneAtomic tc aop width clear l a s).2 = .ok old) :
    (atomLocals tc aop width clear [(l, a)] s []).1.hbm = (laneAtomic tc aop width clear l a s).1.hbm
      ∧ (atomLocals tc aop width clear [(l, a)] s []).2 = if atomReturns aop then tc.put l (atomRegs aop width tc.fmt) old else [] := by
  unfold laneAtomic atomAcquired at h ⊢
  simp only [atomLocals, h, List.nil_append]
  refine ⟨?_, trivial⟩
  split
  · exact tagRelease_hbm ..
  · rfl

/-- What the atomic of lane `l` at `a` leaves of memory and of its results, by its operation (03 R91, R94, 04_number_formats.md R133, R134). -/
theorem atomLocals_leaves {l a : Nat} (haop : aop ≤ 0xF) (hf : memFault s a (atomSize aop width tc.fmt) = none) {t : State}
    (ht : t.hbm = (atomLocals tc aop width clear [(l, a)] s []).1.hbm) :
    let sz := atomSize aop width tc.fmt
    let n := atomRegs aop width tc.fmt
    let old := s.hnat a sz
    let r := (atomLocals tc aop width clear [(l, a)] s []).2
    (∀ k, (k < a ∨ a + sz ≤ k) → t.hb k = s.hb k)
    ∧ (aop ≤ 0xC → (aop = 0 ∧ sz = 4 → orwIndex s (sliceOf s a) a = none) →
        t.hnat a sz = (atomNew aop width tc.fmt old (atomOperands tc aop n l).1 (atomOperands tc aop n l).2).1 % 2 ^ (8 * sz))
    ∧ (aop = 0xD → t.hnat a sz = (cellAddImg tc.fmt old (atomOperands tc aop n l).1).1 % 2 ^ (8 * sz))
    ∧ (aop = 0xE → t.hnat a sz = if clear then 0 else old)
    ∧ (aop = 0xF → t.hnat a sz = 0)
    ∧ (atomReturns aop = true → r = tc.put l n (if aop = 0xE then (cellValue tc.fmt old).1 else old))
    ∧ (atomReturns aop = false → r = []) := by
  intro sz n old r
  obtain ⟨hbm, hslice, hfault, hwindow⟩ := atomAcquired_samePlace tc s a sz
  have hf' : memFault (atomAcquired tc s a sz) a sz = none := (hfault a sz).trans hf
  have hold : (atomAcquired tc s a sz).hnat a sz = old := hnat_congr hbm a sz
  have key {ans w : Nat} (h : (laneAtomic tc aop width clear l a s).2 = .ok ans ∧ PutAt (atomAcquired tc s a sz) (laneAtomic tc aop width clear l a s).1 a sz w) :
      PutAt s t a sz w ∧ r = if atomReturns aop then tc.put l n ans else [] := by
    obtain ⟨hmem, hres⟩ := atomLocals_single h.1
    exact ⟨(h.2.congr_left hbm).congr_right (ht.trans hmem), hres⟩
  have hcases : aop ≤ 0xC ∨ aop = 0xD ∨ aop = 0xE ∨ aop = 0xF := by omega
  obtain h | h | h | h := hcases
  · obtain ⟨hans, w, hput, hw⟩ := memAtomic_plain (.thread tc.gr.tile) (atomOperands tc aop n l).1 (atomOperands tc aop n l).2 clear hf' h
    obtain ⟨⟨hval, hframe⟩, hres⟩ := key ⟨hans, hput⟩
    rw [hslice, hwindow, hold] at hw
    rw [hold] at hres
    refine ⟨hframe, fun _ hwin => hval.trans (hw hwin), by omega, by omega, by omega, fun hret => ?_, fun hret => by simp [hres, hret]⟩
    rw [hres, if_pos hret, if_neg (by omega)]
  · obtain ⟨⟨hval, hframe⟩, hres⟩ := key (memAtomic_cellAdd (.thread tc.gr.tile) (atomOperands tc aop n l).1 (atomOperands tc aop n l).2 clear hf' h)
    have hmute : atomReturns aop = false := by simp [atomReturns, h]
    rw [hold] at hval
    exact ⟨hframe, by omega, fun _ => hval, by omega, by omega, by simp [hmute], fun _ => by simp [hres, hmute]⟩
  · obtain ⟨⟨hval, hframe⟩, hres⟩ := key (memAtomic_cellRead (.thread tc.gr.tile) (atomOperands tc aop n l).1 (atomOperands tc aop n l).2 clear hf' h)
    rw [hold] at hval hres
    refine ⟨hframe, by omega, by omega, fun _ => hval, by omega, fun hret => ?_, fun hret => by simp [hres, hret]⟩
    rw [hres, if_pos hret, if_pos h]
  · obtain ⟨⟨hval, hframe⟩, hres⟩ := key (memAtomic_cellClear (.thread tc.gr.tile) (atomOperands tc aop n l).1 (atomOperands tc aop n l).2 clear hf' h)
    have hmute : atomReturns aop = false := by simp [atomReturns, h]
    exact ⟨hframe, by omega, by omega, by omega, fun _ => hval, by simp [hmute], fun _ => by simp [hres, hmute]⟩

end

/-! Integer operations (R91). -/

theorem atomBits_integer {aop width fmt : Nat} (haop : aop ≤ 9) (hw : width ≤ 2) : atomBits aop width fmt = 32 * 2 ^ width := by
  rw [atomBits, if_pos haop]
  interval_cases width <;> rfl

/-- The signed value of a number of `n` bits. -/
theorem sint_eq_toInt_of_lt {n x : Nat} (hn : 0 < n) (hx : x < 2 ^ n) : sint n x = (BitVec.ofNat n x).toInt := by
  have hhalf : 2 ^ n = 2 * 2 ^ (n - 1) := by rw [← Nat.pow_succ', Nat.succ_eq_add_one, Nat.sub_add_cancel hn]
  rw [sint, BitVec.toInt_eq_toNat_cond, BitVec.toNat_ofNat, Nat.mod_eq_of_lt hx]
  exact if_congr (by omega) rfl rfl

theorem atomNew_integer {width fmt old v cmp : Nat} (hw : width ≤ 2) (hold : old < 2 ^ (32 * 2 ^ width)) (hv : v < 2 ^ (32 * 2 ^ width)) :
    let x := BitVec.ofNat (32 * 2 ^ width) old
    let y := BitVec.ofNat (32 * 2 ^ width) v
    (atomNew 0 width fmt old v cmp).1 = (x + y).toNat ∧ (atomNew 1 width fmt old v cmp).1 = (x &&& y).toNat
    ∧ (atomNew 2 width fmt old v cmp).1 = (x ||| y).toNat ∧ (atomNew 3 width fmt old v cmp).1 = (x ^^^ y).toNat
    ∧ (atomNew 4 width fmt old v cmp).1 = (if y.slt x then y else x).toNat ∧ (atomNew 5 width fmt old v cmp).1 = (if x.slt y then y else x).toNat
    ∧ (atomNew 6 width fmt old v cmp).1 = (if y.ult x then y else x).toNat ∧ (atomNew 7 width fmt old v cmp).1 = (if x.ult y then y else x).toNat := by
  intro x y
  have hx : x.toNat = old := by rw [BitVec.toNat_ofNat, Nat.mod_eq_of_lt hold]
  have hy : y.toNat = v := by rw [BitVec.toNat_ofNat, Nat.mod_eq_of_lt hv]
  have hn : 0 < 32 * 2 ^ width := by positivity
  have hsx : sint (32 * 2 ^ width) old = x.toInt := sint_eq_toInt_of_lt hn hold
  have hsy : sint (32 * 2 ^ width) v = y.toInt := sint_eq_toInt_of_lt hn hv
  refine ⟨?_, ?_, ?_, ?_, ?_, ?_, ?_, ?_⟩
  · rw [BitVec.toNat_add, hx, hy, ← atomBits_integer (aop := 0) (fmt := fmt) (by decide) hw]; rfl
  · rw [BitVec.toNat_and, hx, hy]; rfl
  · rw [BitVec.toNat_or, hx, hy]; rfl
  · rw [BitVec.toNat_xor, hx, hy]; rfl
  · rw [apply_ite BitVec.toNat, hx, hy]
    simp only [atomNew, atomBits_integer (show 4 ≤ 9 by decide) hw, hsx, hsy, BitVec.slt, decide_eq_true_eq]
  · rw [apply_ite BitVec.toNat, hx, hy]
    simp only [atomNew, atomBits_integer (show 5 ≤ 9 by decide) hw, hsx, hsy, BitVec.slt, decide_eq_true_eq]
  · rw [apply_ite BitVec.toNat, hx, hy]
    simp only [atomNew, BitVec.ult, hx, hy, decide_eq_true_eq]
  · rw [apply_ite BitVec.toNat, hx, hy]
    simp only [atomNew, BitVec.ult, hx, hy, decide_eq_true_eq]

/-- Settles O17: local accesses act at once, and what one lane leaves goes by its operation. -/
theorem atomics : Obligations.Atomics := by
  refine ⟨?_, ?_⟩
  · intro s gr x tc hat i aop wide clear hmem hchecks width sz las hres hrem hok r
    obtain ⟨hgr, hx, hrun, -⟩ := threadCtx_spec hat.2
    have hexec : exec i s = .next (atomOp tc s aop width clear) := by
      rw [atomTable_exec gr x s _ hmem]
      subst hx
      exact runThread_passes hat hchecks
    subst hgr hx
    rw [atomOp_local hres hrem hok] at hexec
    refine ⟨_, hexec, fun hnone => ?_, fun hsome => if_neg hsome, fun l a hone => ?_⟩
    · refine ⟨fun g => (g.applyWrites []).advance tc.len, ?_, if_pos hnone⟩
      simp [GoesOn, Group.advance, Group.applyWrites, hrun]
    · have hf := (hok (l, a) (by simp [hone])).2
      have hr : r = atomLocals tc aop width clear [(l, a)] s [] := by rw [← hone]
      rw [hr, hone]
      exact atomLocals_leaves (atomTable_number tc.gr tc.x _ hmem) hf (by split <;> rfl)
  · intro width fmt old v cmp hw n x y hold hv
    obtain ⟨hadd, hand, hor, hxor, hmins, hmaxs, hminu, hmaxu⟩ := atomNew_integer (fmt := fmt) (cmp := cmp) hw hold hv
    exact ⟨hadd, hand, hor, hxor, hmins, hmaxs, hminu, hmaxu, rfl, rfl⟩

end Sys2Proof.Machine
end

section
/-! SUPPORT. Writes to local memory that meet no fault (11_memory_system.md R335, R344), and what memory holds back. -/

namespace Sys2Proof.Machine

open Sys2Proof

/-! Faults. -/

section
variable {s : State} {a n : Nat}

theorem memFault_none (h : memFault s a n = none) : inHbm s a n = true ∧ failedAt s a n = none ∧ rawIn s a n = none := by
  unfold memFault at h
  split at h
  · cases h
  · next hin =>
    split at h
    · cases h
    · next hfailed =>
      split at h
      · cases h
      · next hraw => exact ⟨by simpa using hin, hfailed, hraw⟩

/-- Where no byte lies in a failed stack, no block does. -/
theorem lostBlocks_of_failedAt (h : failedAt s a n = none) : lostBlocks s a n = [] := by
  unfold lostBlocks
  unfold failedAt at h
  split at h
  · next hno => rw [if_pos hno]
  · next hsome =>
    rw [if_neg hsome, List.filter_eq_nil_iff]
    intro b hb hlost
    obtain ⟨j, hj, rfl⟩ := List.mem_map.mp hb
    rw [List.mem_range] at hj
    rw [Option.map_eq_none_iff, List.find?_eq_none] at h
    refine h ((a / 64 + j) / 4 - a / 256) (List.mem_range.mpr (by omega)) ?_
    rwa [show a / 256 + ((a / 64 + j) / 4 - a / 256) = (a / 64 + j) / 4 by omega]

/-- Where no block is uncorrectable, none is covered in part. -/
theorem partRaw_of_rawIn (h : rawIn s a n = none) : partRaw s a n = [] := by
  rw [partRaw, List.filter_eq_nil_iff]
  intro b hb hpart
  rw [rawIn, List.find?_eq_none] at h
  refine h b hb ?_
  rw [decide_eq_true_eq] at hpart ⊢
  exact ⟨hpart.1, hpart.2.1⟩

end

/-! The write. -/

theorem writeSkip_only (skip : List Nat) (l : List Byte) : ∀ (s : State) (a : Nat), ∃ hbm, writeSkip s skip a l = { s with hbm := hbm } := by
  induction l with
  | nil => exact fun s a => ⟨s.hbm, rfl⟩
  | cons b r ih =>
    intro s a
    obtain ⟨hbm, h⟩ := ih (if skip.contains (a / 64) then s else { s with hbm := fset byte0 s.hbm a b }) (a + 1)
    refine ⟨hbm, h.trans ?_⟩
    split <;> rfl

/-- A write that meets no fault puts its bytes, and nothing else changes but blocks made good and what the slices note. -/
theorem memWrite_faultless {s : State} (r : Requester) {a : Nat} {data : List Byte} (hlen : 0 < data.length) (hf : memFault s a data.length = none) :
    (memWrite s r a data).2 = none
      ∧ (∃ hbm raw mem, (memWrite s r a data).1 = { s with hbm := hbm, raw := raw, mem := mem })
      ∧ (∀ i (h : i < data.length), (memWrite s r a data).1.hb (a + i) = data[i])
      ∧ (∀ k, (k < a ∨ a + data.length ≤ k) → (memWrite s r a data).1.hb k = s.hb k) := by
  obtain ⟨hin, hfailed, hraw⟩ := memFault_none hf
  have heq : memWrite s r a data = (wroteBlocks { writeSkip (sliceTouch s r a data.length true) [] a data with
      raw := (writeSkip (sliceTouch s r a data.length true) [] a data).raw.filter
        (fun b => [].contains b || decide (¬ (a ≤ 64 * b ∧ 64 * b + 64 ≤ a + data.length))) } [] a data.length, none) := by
    simp only [memWrite, if_neg (show ¬ data.length = 0 by omega), hin, lostBlocks_of_failedAt hfailed, partRaw_of_rawIn hraw, hfailed, List.filter_nil,
      List.append_nil, Option.map_none]
    rfl
  rw [heq]
  refine ⟨rfl, ?_, fun i h => writeSkip_in [] data _ a i h rfl, fun k h => writeSkip_out [] data (sliceTouch s r a data.length true) a k h⟩
  obtain ⟨hbm, h⟩ := writeSkip_only [] data (sliceTouch s r a data.length true) a
  rw [h]
  exact ⟨hbm, _, _, rfl⟩

/-! Held requests. -/

theorem stacksOf_subset (s : State) (a : Nat) {n m : Nat} (h : n ≤ m) : stacksOf s a n ⊆ stacksOf s a m :=
  List.map_subset _ fun i hi => List.mem_range.mpr (by rw [List.mem_range] at hi; omega)

/-- What holds a shorter range holds a longer one from the same address. -/
theorem memHeld_mono {s : State} {r : Requester} {a n m : Nat} (hnm : n ≤ m) (h : memHeld s r a n = true) : memHeld s r a m = true := by
  have hsub := stacksOf_subset s a hnm
  simp only [memHeld, baseHeld, Bool.or_eq_true, Bool.and_eq_true, decide_eq_true_eq, List.any_eq_true, List.contains_iff_mem] at h ⊢
  rcases h with ((h | ⟨st, hst, h⟩) | ⟨p, hp, h⟩) | h
  · exact Or.inl (Or.inl (Or.inl h))
  · exact Or.inl (Or.inl (Or.inr ⟨st, hsub hst, h⟩))
  · exact Or.inl (Or.inr ⟨p, hp, h.imp_right fun h => ⟨h.1, hsub h.2⟩⟩)
  · exact Or.inr h

end Sys2Proof.Machine
end

section
/-! SUPPORT. Operations of the queue engine (09_command_queues.md R290): where a command stands when its operation runs, and how it moves. -/

namespace Sys2Proof.Machine

open Sys2Proof

theorem lupdate_lupdate {α : Type} (p : α → Bool) (f g : α → α) (l : List α) (h : ∀ x, p x = true → p (f x) = true) :
    lupdate p g (lupdate p f l) = lupdate p (fun x => g (f x)) l := by
  simp only [lupdate, List.map_map]
  refine List.map_congr_left fun x _ => ?_
  by_cases hx : p x = true
  · simp [hx, h x hx]
  · simp [hx]

/-- The command `k` and the state `u` in which the operation of command `c` runs: begun before, or begun now. -/
structure CmdBegun (s : State) (c k : Cmd) (u : State) : Prop where
  uid : k.uid = c.uid
  bytes : k.bytes = c.bytes
  only : u = { s with cmds := u.cmds }
  moved : ∀ f : Cmd → Cmd, lupdate (fun x => decide (x.uid = c.uid)) f u.cmds = lupdate (fun x => decide (x.uid = c.uid)) (fun x => f (begunAs s c x)) s.cmds

/-- An operation that can run is performed on its command, begun. -/
theorem CmdRuns.runs {s : State} {q : Nat} {pos : BitVec 32} {op : Nat} {c : Cmd} (h : CmdRuns s q pos op c) :
    ∃ k u, CmdBegun s c k u ∧ ∀ f, runCmd q pos op s f = .next (f k u) := by
  obtain ⟨hq, halive, hpower, hat, hstands⟩ := h
  have hrun : ∀ f, runCmd q pos op s f = .next (if c.begun then (if c.stage = 2 then s else f c s)
      else if mayBegin s c then f { c with begun := true, since := s.ref } (s.modCmd c.uid (fun _ => { c with begun := true, since := s.ref })) else s) := by
    intro f
    rw [runCmd, onUnit, if_pos (decide_eq_true hq), if_neg (by simp [halive, hpower]), hat]
  obtain ⟨hbegun, hstage⟩ | ⟨hbegun, hmay⟩ := hstands
  · refine ⟨c, s, ⟨rfl, rfl, rfl, fun f => by simp only [begunAs, if_pos hbegun]⟩, fun f => ?_⟩
    rw [hrun, if_pos hbegun, if_neg hstage]
  · refine ⟨{ c with begun := true, since := s.ref }, s.modCmd c.uid (fun _ => { c with begun := true, since := s.ref }), ⟨rfl, rfl, rfl, fun f => ?_⟩, fun f => ?_⟩
    · simp only [begunAs, hbegun]
      exact lupdate_lupdate _ _ _ _ fun _ _ => decide_eq_true rfl
    · rw [hrun, hbegun, if_neg (by decide), if_pos hmay]

/-- An operation that only moves its command. -/
theorem CmdRuns.moves {s : State} {q : Nat} {pos : BitVec 32} {op : Nat} {c : Cmd} (h : CmdRuns s q pos op c) {i : Instr} (g : Cmd → Cmd)
    (hi : exec i s = runCmd q pos op s (fun c s => s.modCmd c.uid g)) : Completes i s (fun t => CmdMoved s t c g ∧ t = { s with cmds := t.cmds }) := by
  obtain ⟨k, u, ⟨huid, -, honly, hmoved⟩, hrun⟩ := h.runs
  refine ⟨_, hi.trans (hrun _), ?_, ?_⟩
  · rw [huid]; exact hmoved g
  · rw [honly]; rfl

/-! Accesses of a command that are made now. -/

theorem cmdPieces_le {s : State} {e : Extent} {lim f o : Nat} {l : List CPiece} (h : cmdPieces s e lim f o = .ok l) : ∀ x ∈ l, x.n ≤ lim := by
  induction f generalizing o l with
  | zero =>
    rw [cmdPieces] at h
    cases h
    simp
  | succ f ih =>
    rw [cmdPieces] at h
    split at h
    · cases h
      simp
    · split at h
      · cases h
      · extract_lets page n at h
        have hn : n ≤ lim := by simp only [n, List.foldl_cons, List.foldl_nil]; split_ifs <;> omega
        split at h
        · cases h
        · next r hr =>
          cases h
          exact List.forall_mem_cons.mpr ⟨hn, ih hr⟩

theorem dirPieces_le {s : State} {c : Cmd} {off lim : Nat} {l : List CPiece} (h : dirPieces s c off lim = .ok l) : ∀ x ∈ l, x.n ≤ lim := by
  unfold dirPieces at h
  split at h
  · exact cmdPieces_le h
  · cases h
    simp

/-- One local piece that memory does not hold and no earlier command has to perform is accessed now. -/
theorem piecesReady_local {s : State} {c : Cmd} {x : CPiece} {n : Nat} (conn : Nat) (hn : x.n ≤ n) (hheld : memHeld s .qeng x.a n = false)
    (hfar : CPiece.far s x = false) (hfree : cmdOverlaps s c [x] = false) : piecesReady s c conn [x] = true := by
  have hnow : memHeld s .qeng x.a x.n = false := by
    rw [Bool.eq_false_iff] at hheld ⊢
    exact fun h => hheld (memHeld_mono hn h)
  simp [piecesReady, piecesHeld, hnow, hfar, hfree]

end Sys2Proof.Machine
end

section
/-! SUPPORT. The completion record (09_command_queues.md R293, R294, R296): what follows it keeps of its queue, and what each part of it leaves. -/

namespace Sys2Proof.Machine

open Sys2Proof

/-- The words of a queue's page that hold CQ_TAIL and the fault latch (R278, R293). -/
def recordWords : List Nat := [0x20C, 0x220, 0x224, 0x228]

/-- What the operations after a completion record keep: stacked memory, the commands, and of the queue the sequence, CQ_TAIL, the fault latch and the flags that are set. -/
structure QueueKept (q : Nat) (s t : State) : Prop where
  hbm : t.hbm = s.hbm
  cmds : t.cmds = s.cmds
  seq : (t.q q).seq = (s.q q).seq
  words : ∀ a ∈ recordWords, t.rd (pQueue q) a = s.rd (pQueue q) a
  flags : ∀ n, s.rdB (pQueue q) 0x18 n = true → t.rdB (pQueue q) 0x18 n = true

theorem pageOk_pQueue {q : Nat} (h : q < 16384) : pageOk (pQueue q) = true := decide_eq_true h

section
variable {q : Nat} {o s t : State}

theorem QueueKept.refl (q : Nat) (s : State) : QueueKept q s s := ⟨rfl, rfl, rfl, fun _ _ => rfl, fun _ => id⟩

theorem QueueKept.trans (h : QueueKept q o s) (k : QueueKept q s t) : QueueKept q o t :=
  ⟨k.hbm.trans h.hbm, k.cmds.trans h.cmds, k.seq.trans h.seq, fun a ha => (k.words a ha).trans (h.words a ha), fun n hn => k.flags n (h.flags n hn)⟩

theorem QueueKept.ite {c : Prop} {_ : Decidable c} {a b : State} (ha : QueueKept q o a) (hb : QueueKept q o b) : QueueKept q o (if c then a else b) := by
  split
  · exact ha
  · exact hb

/-- A change of neither memory, commands, queues nor registers. -/
theorem QueueKept.of_eq (h : QueueKept q o s) (hbm : t.hbm = s.hbm) (hcmds : t.cmds = s.cmds) (hqs : t.qs = s.qs) (hregs : t.regs = s.regs) : QueueKept q o t :=
  h.trans ⟨hbm, hcmds, by rw [State.q, State.q, hqs], fun a _ => rd_congr hregs _ a, fun n hn => by rwa [State.rdB, rd_congr hregs]⟩

theorem QueueKept.then_modMem {f : MemSys → MemSys} (h : QueueKept q o s) : QueueKept q o (s.modMem f) := h.of_eq rfl rfl rfl rfl

theorem QueueKept.then_modBind {f : BindSt → BindSt} (h : QueueKept q o s) : QueueKept q o (s.modBind f) := h.of_eq rfl rfl rfl rfl

/-- The queue's own state changes, but not its sequence. -/
theorem QueueKept.then_setQ {x : QSt} (h : QueueKept q o s) (hx : x.seq = (s.q q).seq) : QueueKept q o (s.setQ q x) :=
  h.trans ⟨rfl, rfl, by rw [State.q, State.setQ, fget_fset_self, hx], fun _ _ => rfl, fun _ => id⟩

theorem QueueKept.foldl {α : Type} {f : State → α → State} {l : List α} (h : QueueKept q o s) (hf : ∀ t x, QueueKept q o t → QueueKept q o (f t x)) :
    QueueKept q o (l.foldl f s) := by
  induction l generalizing s with
  | nil => exact h
  | cons x l ih => exact ih (hf s x h)

/-- A word of another page is written. -/
theorem QueueKept.then_wr_page (h : QueueKept q o s) (hq : q < 16384) {p : Page} (hp : pageOk p = true) (hne : p.blk ≠ .queue) {a : Nat} (ha : a < 0x1000) (v : Nat) :
    QueueKept q o (s.wr p a v) := by
  have hrd : ∀ b, b < 0x1000 → (s.wr p a v).rd (pQueue q) b = s.rd (pQueue q) b := fun b hb => by
    rw [rd_wr, if_neg (regKey_page (pageOk_pQueue hq) hp (fun e => hne (e ▸ rfl)) hb ha)]
  have hsmall : ∀ b ∈ recordWords, b < 0x1000 := by decide
  exact h.trans ⟨rfl, rfl, rfl, fun b hb => hrd b (hsmall b hb), fun n hn => by rwa [State.rdB, hrd _ (by decide)]⟩

/-- A word of the queue's page that is none of those kept is written. -/
theorem QueueKept.then_wr_word (h : QueueKept q o s) {a : Nat} (ha : a % 4 = 0) (hno : a ∉ 0x18 :: recordWords) (v : Nat) :
    QueueKept q o (s.wr (pQueue q) a v) := by
  have hrd : ∀ b ∈ 0x18 :: recordWords, (s.wr (pQueue q) a v).rd (pQueue q) b = s.rd (pQueue q) b := fun b hb =>
    rd_wr_off s _ v ha ((show ∀ b ∈ 0x18 :: recordWords, b % 4 = 0 by decide) b hb) (fun e => hno (e ▸ hb))
  exact h.trans ⟨rfl, rfl, rfl, fun b hb => hrd b (.tail _ hb), fun n hn => by rwa [State.rdB, hrd _ (.head _)]⟩

theorem flagWords_apart {n : Nat} (hn : n < 32) : ∀ x ∈ flagWords (pQueue q) n, x.2 ∉ recordWords := by
  intro x hx
  simp only [flagWords, List.mem_cons, List.not_mem_nil, or_false] at hx
  simp only [recordWords, List.mem_cons, List.not_mem_nil, or_false]
  rcases hx with rfl | rfl | rfl <;> simp only <;> omega

theorem QueueKept.then_raise (h : QueueKept q o s) {n : Nat} (hn : n < 32) (code queue addr : Nat) (detail : List Nat) :
    QueueKept q o (raise s (pQueue q) n code queue addr detail) := by
  have hkept := raise_kept s (pQueue q) n code queue addr detail
  obtain ⟨hflags, -⟩ := raise_flagged s (pQueue q) n code queue addr detail hn
  refine h.trans ⟨raise_hbm .., raise_cmds .., by rw [State.q, raise_qs, State.q], fun a ha => hkept.rd fun x hx => ?_, fun m hm => ?_⟩
  · obtain ⟨hpage, -, h4⟩ := mem_flagWords hn hx
    rw [hpage]
    exact regKey_ne _ ((show ∀ b ∈ recordWords, b % 4 = 0 by decide) a ha) h4 fun e => flagWords_apart hn x hx (e ▸ ha)
  · rw [State.rdB, hflags, bit, Nat.testBit_or]
    rw [State.rdB, bit] at hm
    rw [hm, Bool.true_or]

theorem QueueKept.then_poolUsed (h : QueueKept q o s) (hq : q < 16384) : QueueKept q o (poolUsed s) :=
  h.then_wr_page hq (by decide) (by decide) (by decide) _

theorem QueueKept.then_opStart (h : QueueKept q o s) (hq : q < 16384) {p : Page} (hp : pageOk p = true) (hne : p.blk ≠ .queue) (unit shift : Nat) :
    QueueKept q o (opStart s p unit shift) := by
  have hbusy : QueueKept q o ((s.wr p 0x20 0).wrF p 0x14 3 1 1) := (h.then_wr_page hq hp hne (by decide) _).then_wr_page hq hp hne (by decide) _
  exact QueueKept.ite (hbusy.then_wr_page hq hp hne (by decide) _) hbusy

theorem QueueKept.then_scrubNext (h : QueueKept q o s) (hq : q < 16384) : QueueKept q o (scrubNext s) := by
  unfold scrubNext
  split
  · exact (h.then_modMem.then_opStart (p := pCache 0) hq (by decide) (by decide) 0 0).then_modMem
  · exact h

theorem QueueKept.then_rgnDrained (h : QueueKept q o s) (hq : q < 16384) : QueueKept q o (rgnDrained s) :=
  h.then_modBind.foldl fun _ _ hu => hu.then_modMem.then_scrubNext hq

theorem QueueKept.then_setQState (h : QueueKept q o s) (hq : q < 16384) (st : Nat) : QueueKept q o (setQState s q st) := by
  unfold setQState
  extract_lets x s1
  have hset : QueueKept q o (s.setQ q { x with torn := none, held := none, poolAt := none }) := h.then_setQ rfl
  have hs1 : QueueKept q o s1 := (hset.then_wr_page (p := pQeng) hq (by decide) (by decide) (by decide) _).ite ((h.then_wr_page (p := pQeng) hq (by decide) (by decide) (by decide) _).ite h)
  exact hs1.then_wr_word (by decide) (by decide) _

theorem QueueKept.then_faultStop (h : QueueKept q o s) (hq : q < 16384) : QueueKept q o (faultStop s q) :=
  QueueKept.ite ((h.then_setQState hq 3).then_raise (by decide) _ _ _ _) h

end

/-! The parts of the record. -/

/-- The fault that the record of a command names. -/
def recordFault (c : Cmd) : CmdFault := c.fault.getD ⟨0, 0, 0xFF, 0⟩

/-- The place of a queue's next record in its completion ring, and the bytes of the record of `c` there. -/
def recordAt (s : State) (q : Nat) : Nat := s.base (pQueue q) 0x110 + 32 * (((s.q q).seq + 1 - 1) % cqEntries s q)
def recordBytes (s : State) (q : Nat) (c : Cmd) : List Byte :=
  toLE 8 ((s.q q).seq + 1) ++ toLE 8 c.tag ++ toLE 4 c.pos ++ toLE 4 (s.rd (pQueue q) 0x204) ++ toLE 1 (recordFault c).code ++ toLE 1 (recordFault c).unit
    ++ toLE 1 (recordFault c).tile ++ toLE 1 c.op ++ toLE 4 (recordFault c).detail

@[simp] theorem length_recordBytes (s : State) (q : Nat) (c : Cmd) : (recordBytes s q c).length = 32 := by simp [recordBytes]

/-- The record is in memory as a release, the sequence and CQ_TAIL have moved on, and the command is gone (R293, R294). -/
def recordPut (s : State) (q : Nat) (c : Cmd) : State :=
  let s0 := tagRelease (memWrite s .qeng (recordAt s q) (recordBytes s q c)).1 (recordAt s q) 32 3 qengTag
  let s1 := (s0.setQ q { s0.q q with seq := (s.q q).seq + 1, lost := (s0.q q).lost <|> c.lostWrite }).wr (pQueue q) 0x20C ((s.q q).seq + 1)
  { s1 with cmds := lremoveFirst (fun x => decide (x.uid = c.uid)) s1.cmds }

/-- A fault of the record is latched and flagged, and may stop the queue (R278, R296). -/
def recordLatched (s : State) (q : Nat) (c : Cmd) : State :=
  if (recordFault c).code = 0 then s
  else faultStop (raise (latchQF s q (recordFault c).code c.pos (recordFault c).detail) (pQueue q) 9 (recordFault c).code q c.pos
    [(recordFault c).code + 2 ^ 31, c.pos, (recordFault c).detail, 0]) q

/-- A command that asks for it is notified. -/
def recordNoted (s : State) (q : Nat) (c : Cmd) : State := if c.notify then raise s (pQueue q) 12 0 q else s

section
variable {s : State} {q : Nat} {pos : BitVec 32} {c : Cmd} (hq : q < 16384)
include hq

section
variable (hfind : s.cmds.find? (fun c => decide (c.queue = q ∧ c.pos = pos.toNat) && (if c.bad then cqRoom s q else cmdDone s c)) = some c)
include hfind

theorem execCompletionRecord_held (hheld : memHeld s .qeng (recordAt s q) 32 = true) : execCompletionRecord q pos s = .next s := by
  rw [execCompletionRecord, onUnit, if_pos (decide_eq_true hq), hfind]
  change (.next (if (!alive s || memHeld s .qeng (recordAt s q) 32) = true then s else _) : Out) = _
  rw [if_pos (by rw [hheld, Bool.or_true])]

theorem execCompletionRecord_put (halive : alive s = true) (hheld : memHeld s .qeng (recordAt s q) 32 = false) (hf : memFault s (recordAt s q) 32 = none) :
    execCompletionRecord q pos s = .next (recordNoted (recordLatched (rgnDrained (poolUsed (recordPut s q c))) q c) q c) := by
  obtain ⟨hok, -⟩ := memWrite_faultless .qeng (s := s) (a := recordAt s q) (data := recordBytes s q c) (by simp) (by simpa using hf)
  rw [execCompletionRecord, onUnit, if_pos (decide_eq_true hq), hfind]
  change (.next (if (!alive s || memHeld s .qeng (recordAt s q) 32) = true then s else _) : Out) = _
  rw [if_neg (by simp [halive, hheld])]
  extract_lets f rec32 w lost s0 x s1 s2 s3 code detail s4
  have hw : w.2 = none := hok
  have hlost : lost = false := by simp only [lost, hw, Option.isSome_none]
  have hs0 : s0 = tagRelease w.1 (recordAt s q) 32 3 qengTag := if_neg (by simp [hlost])
  have hcode : code = (recordFault c).code := by simp only [code, hw]; rfl
  have hdetail : detail = (recordFault c).detail := if_neg (by simp [hlost])
  have hs3 : s3 = rgnDrained (poolUsed (recordPut s q c)) := by simp only [s3, s2, s1, x, hs0]; rfl
  have hs4 : s4 = recordLatched s3 q c := by simp only [s4, hcode, hdetail]; rfl
  rw [← hs3, ← hs4]
  rfl

end
end

/-- The record stands in the ring, no other byte has changed, and the words of the fault latch have not. -/
theorem recordPut_leaves {s : State} {q : Nat} (c : Cmd) (hf : memFault s (recordAt s q) 32 = none) :
    (∀ i, i < 32 → (recordPut s q c).hb (recordAt s q + i) = ((recordBytes s q c)[i]?).getD 0)
    ∧ (∀ k, (k < recordAt s q ∨ recordAt s q + 32 ≤ k) → (recordPut s q c).hb k = s.hb k)
    ∧ (recordPut s q c).cmds = lremoveFirst (fun x => decide (x.uid = c.uid)) s.cmds ∧ ((recordPut s q c).q q).seq = (s.q q).seq + 1
    ∧ (recordPut s q c).rd (pQueue q) 0x20C = ((s.q q).seq + 1) % 2 ^ 32
    ∧ ∀ a, a % 4 = 0 → a ≠ 0x20C → (recordPut s q c).rd (pQueue q) a = s.rd (pQueue q) a := by
  obtain ⟨-, ⟨hbm, raw, mem, hwrite⟩, hin, hout⟩ :=
    memWrite_faultless .qeng (s := s) (a := recordAt s q) (data := recordBytes s q c) (by simp) (by simpa using hf)
  rw [length_recordBytes] at hout
  unfold recordPut
  rw [hwrite] at hin hout ⊢
  obtain ⟨m, htag⟩ := tagRelease_only { s with hbm := hbm, raw := raw, mem := mem } (recordAt s q) 32 3 qengTag
  rw [htag]
  refine ⟨fun i hi => ?_, hout, rfl, ?_, ?_, fun a h4 ha => ?_⟩
  · rw [List.getElem?_eq_getElem (by simpa using hi)]
    exact hin i (by simpa using hi)
  · simp only [State.q, State.setQ, State.wr, fget_fset_self]
  · exact rd_wr_self _ _ _ _
  · exact rd_wr_off _ _ _ (by decide) h4 ha

theorem latchQF_leaves (s : State) (q code pos detail : Nat) :
    (latchQF s q code pos detail).hbm = s.hbm ∧ (latchQF s q code pos detail).cmds = s.cmds ∧ (latchQF s q code pos detail).qs = s.qs
    ∧ (latchQF s q code pos detail).rd (pQueue q) 0x20C = s.rd (pQueue q) 0x20C
    ∧ (s.rdB (pQueue q) 0x220 31 = false → (latchQF s q code pos detail).rd (pQueue q) 0x220 = (code + 2 ^ 31) % 2 ^ 32
      ∧ (latchQF s q code pos detail).rd (pQueue q) 0x224 = pos % 2 ^ 32 ∧ (latchQF s q code pos detail).rd (pQueue q) 0x228 = detail % 2 ^ 32) := by
  unfold latchQF
  extract_lets p
  split
  · next hfull =>
    refine ⟨State.inc_hbm .., State.inc_cmds .., State.inc_qs .., ?_, fun hfree => absurd hfull (by simp [p, hfree])⟩
    rw [State.inc, rd_wr_off _ _ _ (by decide) (by decide) (by decide)]
  · refine ⟨by simp only [State.wr_hbm], by simp only [State.wr_cmds], by simp only [State.wr_qs], ?_, fun _ => ⟨?_, ?_, rd_wr_self _ _ _ _⟩⟩
    · rw [rd_wr_off _ _ _ (by decide) (by decide) (by decide), rd_wr_off _ _ _ (by decide) (by decide) (by decide),
        rd_wr_off _ _ _ (by decide) (by decide) (by decide)]
    · rw [rd_wr_off _ _ _ (by decide) (by decide) (by decide), rd_wr_off _ _ _ (by decide) (by decide) (by decide), rd_wr_self]
    · rw [rd_wr_off _ _ _ (by decide) (by decide) (by decide), rd_wr_self]

/-- Where the record names a fault, ERROR is set and a free latch holds it; memory, the commands, the sequence and CQ_TAIL are as before. -/
theorem recordLatched_leaves (s : State) {q : Nat} (hq : q < 16384) (c : Cmd) :
    (recordLatched s q c).hbm = s.hbm ∧ (recordLatched s q c).cmds = s.cmds ∧ ((recordLatched s q c).q q).seq = (s.q q).seq
    ∧ (recordLatched s q c).rd (pQueue q) 0x20C = s.rd (pQueue q) 0x20C
    ∧ ((recordFault c).code ≠ 0 → (recordLatched s q c).rdB (pQueue q) 0x18 9 = true
      ∧ (s.rdB (pQueue q) 0x220 31 = false → (recordLatched s q c).rd (pQueue q) 0x220 = ((recordFault c).code + 2 ^ 31) % 2 ^ 32
        ∧ (recordLatched s q c).rd (pQueue q) 0x224 = c.pos % 2 ^ 32 ∧ (recordLatched s q c).rd (pQueue q) 0x228 = (recordFault c).detail % 2 ^ 32)) := by
  unfold recordLatched
  split
  · next hnone => exact ⟨rfl, rfl, rfl, rfl, fun h => absurd hnone h⟩
  · obtain ⟨hhbm, hcmds, hqs, htail, hlatch⟩ := latchQF_leaves s q (recordFault c).code c.pos (recordFault c).detail
    generalize latchQF s q (recordFault c).code c.pos (recordFault c).detail = u at hhbm hcmds hqs htail hlatch ⊢
    have hflag := (raise_flagged u (pQueue q) 9 (recordFault c).code q c.pos [(recordFault c).code + 2 ^ 31, c.pos, (recordFault c).detail, 0] (by decide)).rdB
    have hraised := (QueueKept.refl q u).then_raise (n := 9) (by decide) (recordFault c).code q c.pos
      [(recordFault c).code + 2 ^ 31, c.pos, (recordFault c).detail, 0]
    generalize raise u (pQueue q) 9 (recordFault c).code q c.pos [(recordFault c).code + 2 ^ 31, c.pos, (recordFault c).detail, 0] = v at hflag hraised ⊢
    have hstop : QueueKept q v (faultStop v q) := (QueueKept.refl q v).then_faultStop hq
    have hkept := hraised.trans hstop
    refine ⟨hkept.hbm.trans hhbm, hkept.cmds.trans hcmds, hkept.seq.trans (by rw [State.q, State.q, hqs]), (hkept.words _ (by decide)).trans htail,
      fun _ => ⟨hstop.flags 9 hflag, fun hfree => ?_⟩⟩
    rw [hkept.words 0x220 (by decide), hkept.words 0x224 (by decide), hkept.words 0x228 (by decide)]
    exact hlatch hfree

theorem recordNoted_kept (s : State) (q : Nat) (c : Cmd) : QueueKept q s (recordNoted s q c) :=
  ((QueueKept.refl q s).then_raise (by decide) _ _ _ _).ite (.refl q s)

theorem recordNoted_flag (s : State) (q : Nat) {c : Cmd} (h : c.notify = true) : (recordNoted s q c).rdB (pQueue q) 0x18 12 = true := by
  rw [recordNoted, if_pos h]
  exact (raise_flagged s (pQueue q) 12 0 q 0 [] (by decide)).rdB

/-- All that is done for the record of a command, once it is written (R293, R294, R296). -/
theorem completionRecord_leaves {s : State} {q : Nat} (hq : q < 16384) (c : Cmd) (hf : memFault s (recordAt s q) 32 = none) {t : State}
    (ht : t = recordNoted (recordLatched (rgnDrained (poolUsed (recordPut s q c))) q c) q c) :
    (∀ i, i < 32 → t.hb (recordAt s q + i) = ((recordBytes s q c)[i]?).getD 0)
    ∧ (∀ k, (k < recordAt s q ∨ recordAt s q + 32 ≤ k) → t.hb k = s.hb k)
    ∧ t.rd (pQueue q) 0x20C = ((s.q q).seq + 1) % 2 ^ 32 ∧ (t.q q).seq = (s.q q).seq + 1 ∧ t.cmds = lremoveFirst (fun x => decide (x.uid = c.uid)) s.cmds
    ∧ ((recordFault c).code ≠ 0 → t.rdB (pQueue q) 0x18 9 = true
      ∧ (s.rdB (pQueue q) 0x220 31 = false → t.rd (pQueue q) 0x220 = ((recordFault c).code + 2 ^ 31) % 2 ^ 32
        ∧ t.rd (pQueue q) 0x224 = c.pos % 2 ^ 32 ∧ t.rd (pQueue q) 0x228 = (recordFault c).detail % 2 ^ 32))
    ∧ (c.notify = true → t.rdB (pQueue q) 0x18 12 = true) := by
  obtain ⟨hbytes, hframe, hcmds, hseq, htail, hwords⟩ := recordPut_leaves c hf
  have hdrained : QueueKept q (recordPut s q c) (rgnDrained (poolUsed (recordPut s q c))) := ((QueueKept.refl q _).then_poolUsed hq).then_rgnDrained hq
  generalize rgnDrained (poolUsed (recordPut s q c)) = u at hdrained ht
  obtain ⟨hbm, hcmds', hseq', htail', hfault⟩ := recordLatched_leaves u hq c
  have hnoted := recordNoted_kept (recordLatched u q c) q c
  have hall : t.hbm = (recordPut s q c).hbm := by rw [ht, hnoted.hbm, hbm, hdrained.hbm]
  have hfree : u.rdB (pQueue q) 0x220 31 = s.rdB (pQueue q) 0x220 31 := by
    rw [State.rdB, hdrained.words 0x220 (by decide), hwords 0x220 (by decide) (by decide), State.rdB]
  refine ⟨fun i hi => (hb_congr hall _).trans (hbytes i hi), fun k hk => (hb_congr hall k).trans (hframe k hk), ?_, ?_, ?_, fun hcode => ?_, fun hnotify => ?_⟩
  · rw [ht, hnoted.words _ (by decide), htail', hdrained.words _ (by decide), htail]
  · rw [ht, hnoted.seq, hseq', hdrained.seq, hseq]
  · rw [ht, hnoted.cmds, hcmds', hdrained.cmds, hcmds]
  · obtain ⟨hflag, hlatch⟩ := hfault hcode
    rw [hfree] at hlatch
    rw [ht, hnoted.words 0x220 (by decide), hnoted.words 0x224 (by decide), hnoted.words 0x228 (by decide)]
    exact ⟨hnoted.flags 9 hflag, hlatch⟩
  · rw [ht]
    exact recordNoted_flag _ q hnotify

end Sys2Proof.Machine
end

section
/-! Waiting, order and completion of commands (O43). -/

namespace Sys2Proof.Machine

open Sys2Proof

/-! WAIT. -/

theorem waitCond_iff (word value : Nat) {cond : Nat} (h : cond < 4) :
    waitCond cond word value = true
      ↔ (cond = 0 ∧ value ≤ word) ∨ (cond = 1 ∧ word = value) ∨ (cond = 2 ∧ word ≠ value) ∨ (cond = 3 ∧ word &&& value ≠ 0) := by
  interval_cases cond <;> simp [waitCond]

section
variable {s : State} {q : Nat} {pos : BitVec 32} {c : Cmd} (hq : q < 16384) (halive : alive s = true) (hat : cmdAt s q pos.toNat 6 = some c) (hstage : c.stage = 1)
include hq halive hat hstage

/-- The word of a WAIT that can be read now decides it: its condition met ends the command, as an acquire, and otherwise nothing happens. -/
theorem execWaitConditionMet_local {x : CPiece} (hdir : dirPieces s c 0x10 8 = .ok [x]) (hheld : memHeld s .qeng x.a 8 = false)
    (hfar : CPiece.far s x = false) (hfree : cmdOverlaps s c [x] = false) (hf : memFault s x.a 8 = none) :
    execWaitConditionMet q pos s = .next (if waitCond (cmdBf c.bytes 0x18 0 2) (s.hnat x.a 8) (cmdLe c.bytes 0x20 8)
      then cmdEnd2 (acquireCheck (sliceTouch s .qeng x.a 8 false) x.a 8 (ordScope (cmdLe c.bytes 0x19 1)) qengTag) c.uid else s) := by
  have hready : piecesReady s c 0 [x] = true := piecesReady_local 0 (dirPieces_le hdir x (.head _)) hheld hfar hfree
  rw [execWaitConditionMet, onUnit, if_pos (decide_eq_true hq), hat]
  simp only [halive, hstage, hdir, hready, (memRead_spec s .qeng x.a 8).1 hf, State.hnat]
  rfl

theorem execWaitTimeout_eq :
    execWaitTimeout q pos s = .next (if s.rdF (pQueue q) 0x138 0 16 ≠ 0 ∧ c.since + 100000 * s.rdF (pQueue q) 0x138 0 16 ≤ s.ref
      then cmdFail s c 0x36 0 else s) := by
  rw [execWaitTimeout, onUnit, if_pos (decide_eq_true hq), hat]
  simp [halive, hstage]

end

/-- A command that fails keeps its first fault and is over; nothing else changes. -/
theorem cmdFail_leaves (s : State) (c : Cmd) (code detail : Nat) :
    (cmdFail s c code detail).cmds = lupdate (fun k => decide (k.uid = c.uid))
        (fun k => { k with stage := 2, fault := k.fault <|> some ⟨code, 0, 0xFF, detail⟩ }) s.cmds
      ∧ cmdFail s c code detail = { s with cmds := (cmdFail s c code detail).cmds } :=
  ⟨lupdate_lupdate _ _ _ _ fun _ h => h, rfl⟩

/-! PENNANT. -/

/-- The active pennants after queue `q` has named `tiles` again: they leave its earlier ones, and one without tiles is gone (14_power_thermal.md R455). -/
def pennantsLeft (q : Nat) (tiles : List Nat) (l : List Pennant) : List Pennant :=
  (l.map (fun p : Pennant => if p.queue = q then { p with tiles := p.tiles.filter (fun t => !tiles.contains t) } else p)).filter (fun p => decide (p.tiles ≠ []))

theorem pennantsLeft_queue {q : Nat} {tiles : List Nat} {l : List Pennant} : ∀ n ∈ pennantsLeft q tiles l, n.queue = q → ∀ k ∈ n.tiles, k ∉ tiles := by
  intro n hn hq k hk
  obtain ⟨p, -, rfl⟩ := List.mem_map.mp (List.mem_filter.mp hn).1
  split at hq
  · next h =>
    rw [if_pos h] at hk
    simpa using (List.mem_filter.mp hk).2
  · next h => exact absurd hq h

theorem mem_pennantsLeft {q : Nat} (tiles : List Nat) {l : List Pennant} : ∀ n ∈ l, n.queue ≠ q → n.tiles ≠ [] → n ∈ pennantsLeft q tiles l := by
  intro n hn hq ht
  exact List.mem_filter.mpr ⟨List.mem_map.mpr ⟨n, hn, if_neg hq⟩, decide_eq_true ht⟩

/-- The pennant that a command of queue `q` sets. -/
def cmdPennant (s : State) (q : Nat) (b : List Byte) : Pennant :=
  ⟨q, cmdTiles b, cmdLe b 0x12 1, cmdLe b 0x14 4, cmdLe b 0x18 4, cmdLe b 0x1C 1, s.ref + 100 * cmdLe b 0x14 4⟩

theorem execPennant_completes {s : State} {q : Nat} {pos : BitVec 32} {c : Cmd} (h : CmdRuns s q pos 8 c) :
    Completes (.pennant q pos) s (fun t => CmdMoved s t c (fun k => { k with stage := 2 })
      ∧ t.pennants = pennantsLeft q (cmdTiles c.bytes) s.pennants ++ [cmdPennant s q c.bytes] ∧ t = { s with cmds := t.cmds, pennants := t.pennants }) := by
  obtain ⟨k, u, ⟨huid, hbytes, honly, hmoved⟩, hrun⟩ := h.runs
  have hexec : exec (.pennant q pos) s = .next (cmdEnd2 { u with
      pennants := pennantsLeft q (cmdTiles k.bytes) u.pennants ++ [cmdPennant u q k.bytes] } k.uid) := by
    change execPennant q pos s = _
    rw [execPennant, hrun]
    rfl
  refine ⟨_, hexec, ?_, ?_, ?_⟩
  · rw [huid]; exact hmoved _
  · rw [hbytes, honly]; rfl
  · rw [honly]; rfl

theorem execPennantExpiry_eq {s : State} {q k : Nat} {n : Pennant} (hq : q < 16384) (hn : (s.pennants.filter (fun p => decide (p.queue = q)))[k]? = some n) :
    execPennantExpiry q k s = .next (if n.stop ≤ s.ref then { s with pennants := lremoveFirst (fun x => decide (x = n)) s.pennants } else s) := by
  rw [execPennantExpiry, onUnit, if_pos (decide_eq_true hq), hn]

/-- Settles O43: each operation by where its command stands, and the completion record part by part. -/
theorem commandWaits : Obligations.CommandWaits := by
  refine ⟨fun s q pos c => ⟨fun h => h.moves _ rfl, fun h => h.moves _ rfl, fun h => h.moves _ rfl, fun h => ?_⟩,
    fun s q pos c hq halive hat hstage => ⟨fun x hdir hheld hfar hfree hf => ?_, fun hlim hdue => ?_, fun hnot => ?_⟩,
    fun s q k n hq hn => ⟨fun hdue => ?_, fun hearly => ?_⟩, fun s q pos c hq halive hfind => ⟨fun hheld => ?_, fun hheld hf => ?_⟩⟩
  · obtain ⟨t, hexec, hmoved, hpennants, honly⟩ := execPennant_completes h
    refine ⟨t, hexec, hmoved, ?_, ?_, ?_, honly⟩ <;> rw [hpennants]
    · exact List.getLast?_concat
    · rw [List.dropLast_concat]; exact pennantsLeft_queue
    · exact fun n hn hne ht => List.mem_append_left _ (mem_pennantsLeft _ n hn hne ht)
  · have hexec : exec (.waitConditionMet q pos) s = _ := execWaitConditionMet_local hq halive hat hstage hdir hheld hfar hfree hf
    have hiff := waitCond_iff (s.hnat x.a 8) (cmdLe c.bytes 0x20 8) (cond := cmdBf c.bytes 0x18 0 2) (Nat.mod_lt _ (by decide))
    refine ⟨fun hmet => ⟨_, hexec.trans (congrArg _ (if_pos (hiff.mpr hmet))), ?_⟩, fun hnot => hexec.trans (congrArg _ (if_neg (mt hiff.mp hnot)))⟩
    have honly := acquireCheck_only (sliceTouch s .qeng x.a 8 false) x.a 8 (ordScope (cmdLe c.bytes 0x19 1)) qengTag
    rw [honly]
    exact ⟨rfl, rfl⟩
  · exact ⟨_, (execWaitTimeout_eq hq halive hat hstage).trans (congrArg _ (if_pos ⟨hlim, hdue⟩)), cmdFail_leaves s c 0x36 0⟩
  · exact (execWaitTimeout_eq hq halive hat hstage).trans (congrArg _ (if_neg (by omega)))
  · exact ⟨_, (execPennantExpiry_eq hq hn).trans (congrArg _ (if_pos hdue)), rfl⟩
  · exact (execPennantExpiry_eq hq hn).trans (congrArg _ (if_neg (by omega)))
  · exact execCompletionRecord_held hq hfind hheld
  · exact ⟨_, execCompletionRecord_put hq hfind halive hheld hf, completionRecord_leaves hq c hf rfl⟩

end Sys2Proof.Machine
end

section
/-! Thread instructions that compute on registers and predicates (O7 to O11): what a result of some registers stands for, and the obligations by instruction. -/

namespace Sys2Proof.Machine

open Sys2Proof

/-! Values of registers. -/

/-- Writes of `n` registers take the value modulo 2^(32 n). -/
theorem putN_congr (lane : Nat) : ∀ (n r : Nat) {v w : Nat}, v % 2 ^ (32 * n) = w % 2 ^ (32 * n) → putN lane r n v = putN lane r n w
  | 0, _, _, _, _ => rfl
  | n + 1, r, v, w, h => by
    have hsplit : 2 ^ (32 * (n + 1)) = 2 ^ 32 * 2 ^ (32 * n) := by rw [← Nat.pow_add]; congr 1; omega
    rw [hsplit] at h
    have hlow : v % 2 ^ 32 = w % 2 ^ 32 := by rw [← Nat.mod_mul_right_mod v (2 ^ 32) (2 ^ (32 * n)), h, Nat.mod_mul_right_mod]
    have hhigh : v / 2 ^ 32 % 2 ^ (32 * n) = w / 2 ^ 32 % 2 ^ (32 * n) := by
      rw [← Nat.mod_mul_right_div_self, ← Nat.mod_mul_right_div_self, h]
    rw [putN, putN, hlow, putN_congr lane n (r + 1) hhigh]

theorem reg_lt (g : Group) (lane r : Nat) : g.reg lane r < 2 ^ 32 := (fget (fun _ => (0 : Word)) g.regs (32 * r + lane)).isLt

theorem getN_lt (g : Group) (lane : Nat) : ∀ n r : Nat, g.getN lane r n < 2 ^ (32 * n)
  | 0, _ => by simp [Group.getN]
  | n + 1, r => by
    have hreg := reg_lt g lane r
    have hrest := getN_lt g lane n (r + 1)
    have hsplit : 2 ^ (32 * (n + 1)) = 2 ^ 32 * 2 ^ (32 * n) := by rw [← Nat.pow_add]; congr 1; omega
    rw [Group.getN, hsplit]
    nlinarith

theorem get_lt (tc : TC) (lane : Nat) (r : BitVec 8) (n : Nat) : tc.get lane r n < 2 ^ (32 * n) := getN_lt _ _ _ _

theorem srcB_lt (tc : TC) (lane n : Nat) : srcB tc lane n < 2 ^ (32 * n) := by
  unfold srcB
  split
  · exact Nat.mod_lt _ (by positivity)
  · exact get_lt ..

@[simp] theorem toNat_a32 (tc : TC) (l : Nat) : (tc.a32 l).toNat = tc.get l tc.x.a 1 := by
  rw [TC.a32, BitVec.toNat_ofNat, Nat.mod_eq_of_lt (get_lt ..)]

@[simp] theorem toNat_b32 (tc : TC) (l : Nat) : (tc.b32 l).toNat = srcB tc l 1 := by
  rw [TC.b32, BitVec.toNat_ofNat, Nat.mod_eq_of_lt (srcB_lt ..)]

/-! Integer instructions (05_thread_groups.md R542). -/

section
variable {s : State} {gr : GRef} {x : TInstr} {tc : TC} {c : Instr}

/-- An instruction that passes its checks and leaves a value of `n` registers and no events in each active lane. -/
theorem laneOp_quiet (hat : ThreadAt s gr x tc) {checks : TC → List (Bool × Nat)} (hk : firstBad (checks tc) = none) {f : TC → Nat → Nat} {n : Nat} {v : Nat → Nat}
    (hc : exec c s = laneOp gr x s checks (fun tc l => (tc.put l n (f tc l), .zero))) (hv : ∀ l, f tc l % 2 ^ (32 * n) = v l % 2 ^ (32 * n)) :
    LaneResult c s tc n v .zero := by
  have h := laneOp_result n v hc hat.1 hat.2 hk (fun l => putN_congr l n _ (hv l))
  rwa [gather_snd, events_zero] at h

/-- An instruction that passes its checks and leaves a value of `n` registers and events in each active lane. -/
theorem laneOp_counted (hat : ThreadAt s gr x tc) {checks : TC → List (Bool × Nat)} (hk : firstBad (checks tc) = none) {n : TC → Nat}
    {f : TC → Nat → Nat × NEv} (hc : exec c s = laneOp gr x s checks (fun tc l => (tc.put l (n tc) (f tc l).1, (f tc l).2))) :
    LaneResult c s tc (n tc) (fun l => (f tc l).1) (tc.events (fun l => (f tc l).2)) := by
  have h := laneOp_result (n tc) (fun l => (f tc l).1) hc hat.1 hat.2 hk (fun l => rfl)
  rwa [gather_snd] at h

theorem intOp2_result (hat : ThreadAt s gr x tc) (hk : firstBad (checks2 1 tc) = none) {f : Nat → Nat → Nat} (hc : exec c s = intOp2 gr x s f) (g : Word → Word → Word)
    (hf : ∀ a b : Word, f a.toNat b.toNat % 2 ^ 32 = (g a b).toNat) : LaneResult c s tc 1 (fun l => (g (tc.a32 l) (tc.b32 l)).toNat) .zero := by
  refine laneOp_quiet hat hk hc fun l => ?_
  rw [← toNat_a32, ← toNat_b32, hf, Nat.mod_eq_of_lt (BitVec.isLt _)]

theorem intOp1_result (hat : ThreadAt s gr x tc) (hk : firstBad (checks1 tc) = none) {f : Nat → Nat} (hc : exec c s = intOp1 gr x s f) (v : Word → Nat)
    (hf : ∀ a : Word, f a.toNat = v a) : LaneResult c s tc 1 (fun l => v (tc.a32 l)) .zero := by
  refine laneOp_quiet hat hk hc fun l => ?_
  rw [← toNat_a32, hf]

theorem sint_toNat (a : Word) : sint 32 a.toNat = a.toInt := by rw [sint_eq_toInt, BitVec.ofNat_toNat, BitVec.setWidth_eq]

theorem signed_choice (a b : Word) {u v : Word} : (if sint 32 a.toNat < sint 32 b.toNat then u.toNat else v.toNat) % 2 ^ 32 = (if a.slt b then u else v).toNat := by
  rw [sint_toNat, sint_toNat, ← apply_ite BitVec.toNat, Nat.mod_eq_of_lt (BitVec.isLt _)]
  simp only [BitVec.slt, decide_eq_true_eq]

/-- The image of an integer as a word. -/
theorem uimg_eq_ofInt (n : Nat) (i : Int) : uimg n i = (BitVec.ofInt n i).toNat := (BitVec.toNat_ofInt i).symm

theorem sar_value (a b : Word) : uimg 32 (sint 32 a.toNat / ((2 ^ (b.toNat % 32) : Nat) : Int)) % 2 ^ 32 = (a.sshiftRight (b.toNat % 32)).toNat := by
  have hshift : a.sshiftRight (b.toNat % 32) = BitVec.ofInt 32 (a.toInt / ((2 ^ (b.toNat % 32) : Nat) : Int)) := by
    rw [BitVec.sshiftRight, Int.shiftRight_eq_div_pow]
  rw [sint_toNat, uimg_eq_ofInt, ← hshift, Nat.mod_eq_of_lt (BitVec.isLt _)]

/-- The high half of the signed product. -/
theorem mulHi_signed (a b : Word) : uimg 64 (sint 32 a.toNat * sint 32 b.toNat) / 2 ^ 32 = (BitVec.ofInt 32 (a.toInt * b.toInt / 2 ^ 32)).toNat := by
  rw [sint_toNat, sint_toNat, ← uimg_eq_ofInt]
  unfold uimg
  generalize a.toInt * b.toInt = i
  omega

/-- The number of set bits of a number of `n` bits. -/
theorem popc_eq_length (n x : Nat) : popc n x = ((List.range n).filter (fun i => x.testBit i)).length := by
  induction n generalizing x with
  | zero => rfl
  | succ n ih =>
    have hhalf : ((List.range n).map Nat.succ).filter (fun i => x.testBit i) = ((List.range n).filter (fun i => (x / 2).testBit i)).map Nat.succ := by
      rw [List.filter_map]
      congr 2
      funext i
      exact Nat.testBit_succ x i
    rw [popc, ih, List.range_succ_eq_map, List.filter_cons, Nat.testBit_zero, hhalf]
    rcases Nat.mod_two_eq_zero_or_one x with h | h
    · simp [h]
    · simp [h, Nat.add_comm]

/-- The number of leading zeros of a word. -/
def clzOf (a : Word) : Nat := if a.toNat = 0 then 32 else 31 - Nat.log2 a.toNat

theorem clzOf_spec (a : Word) : (a = 0 → clzOf a = 32) ∧ (a ≠ 0 → clzOf a < 32 ∧ 2 ^ (31 - clzOf a) ≤ a.toNat ∧ a.toNat < 2 ^ (32 - clzOf a)) := by
  refine ⟨fun h => by simp [clzOf, h], fun h => ?_⟩
  have hne : a.toNat ≠ 0 := fun h0 => h (BitVec.eq_of_toNat_eq h0)
  have hlog : Nat.log2 a.toNat < 32 := (Nat.log2_lt hne).mpr a.isLt
  rw [clzOf, if_neg hne, show 31 - (31 - Nat.log2 a.toNat) = Nat.log2 a.toNat by omega, show 32 - (31 - Nat.log2 a.toNat) = Nat.log2 a.toNat + 1 by omega]
  exact ⟨by omega, Nat.log2_self_le hne, Nat.lt_log2_self⟩

end

/-- Checks that find nothing bad find no single condition bad. -/
theorem firstBad_none {l : List (Bool × Nat)} (h : firstBad l = none) : ∀ y ∈ l, y.1 = false := by
  induction l with
  | nil => simp
  | cons y l ih =>
    obtain ⟨b, code⟩ := y
    cases b with
    | true => simp [firstBad] at h
    | false => exact List.forall_mem_cons.mpr ⟨rfl, ih (by simpa [firstBad] using h)⟩

/-- The registers that mov moves, by its c field. -/
theorem movRegs_eq {tc : TC} (hk : firstBad (checksMov tc) = none) : movRegs tc.x = if tc.x.c = 2 then 2 else 1 := by
  have hc : tc.x.c = 0 ∨ tc.x.c = 2 := by
    by_contra hne
    have hgood := firstBad_none hk (decide (tc.x.c ≠ 0 ∧ tc.x.c ≠ 2), 1) (List.mem_append_right _ (List.mem_cons_self ..))
    exact of_decide_eq_false hgood (not_or.mp hne)
  rcases hc with h | h
  · rw [movRegs, h]; rfl
  · rw [movRegs, h]; rfl

/-- Settles O7: each instruction's value is its operation on the words of a and b, modulo 2^32. -/
theorem integerOps : Obligations.IntegerOps := by
  refine ⟨fun s gr x tc hat hk => ⟨?_, ?_, ?_, ?_, ?_, ?_, ?_, ?_, ?_, ?_, ?_⟩, fun s gr x tc hat => ⟨fun hk => ⟨?_, ?_⟩, fun hk => ⟨fun hc => ?_, fun hc => ?_⟩, fun hk => ?_, fun hk => ?_⟩⟩
  · exact intOp2_result (f := fun a b => a + b) hat hk rfl (· + ·) fun a b => (BitVec.toNat_add a b).symm
  · exact intOp2_result (f := fun a b => a + 2 ^ 32 - b) hat hk rfl (· - ·) fun a b => by rw [BitVec.toNat_sub]; congr 1; omega
  · exact intOp2_result (f := fun a b => a * b) hat hk rfl (· * ·) fun a b => (BitVec.toNat_mul a b).symm
  · exact intOp2_result (f := fun a b => a &&& b) hat hk rfl (· &&& ·) fun a b => by rw [← BitVec.toNat_and, Nat.mod_eq_of_lt (BitVec.isLt _)]
  · exact intOp2_result (f := fun a b => a ||| b) hat hk rfl (· ||| ·) fun a b => by rw [← BitVec.toNat_or, Nat.mod_eq_of_lt (BitVec.isLt _)]
  · exact intOp2_result (f := fun a b => a ^^^ b) hat hk rfl (· ^^^ ·) fun a b => by rw [← BitVec.toNat_xor, Nat.mod_eq_of_lt (BitVec.isLt _)]
  · exact intOp2_result (f := fun a b => a * 2 ^ (b % 32)) hat hk rfl (fun a b => a <<< (b.toNat % 32)) fun a b => by rw [BitVec.toNat_shiftLeft, Nat.shiftLeft_eq]
  · exact intOp2_result (f := fun a b => a / 2 ^ (b % 32)) hat hk rfl (fun a b => a >>> (b.toNat % 32)) fun a b => by
      rw [BitVec.toNat_ushiftRight, Nat.shiftRight_eq_div_pow, Nat.mod_eq_of_lt (Nat.lt_of_le_of_lt (Nat.div_le_self _ _) a.isLt)]
  · exact intOp2_result (f := fun a b => uimg 32 (sint 32 a / ((2 ^ (b % 32) : Nat) : Int))) hat hk rfl (fun a b => a.sshiftRight (b.toNat % 32)) sar_value
  · exact intOp2_result (f := fun a b => if sint 32 b < sint 32 a then b else a) hat hk rfl (fun a b => if b.slt a then b else a) fun a b => signed_choice b a
  · exact intOp2_result (f := fun a b => if sint 32 a < sint 32 b then b else a) hat hk rfl (fun a b => if a.slt b then b else a) fun a b => signed_choice a b
  · exact intOp1_result hat hk rfl (fun a => ((List.range 32).filter (fun i => a.getLsbD i)).length) fun a => popc_eq_length 32 a.toNat
  · exact ⟨fun l => clzOf (tc.a32 l), fun l => clzOf_spec _, intOp1_result (f := fun a => if a = 0 then 32 else 31 - Nat.log2 a) hat hk rfl clzOf fun a => rfl⟩
  · obtain ⟨-, hx, -⟩ := threadCtx_spec hat.2
    refine laneOp_quiet hat hk rfl fun l => ?_
    rw [hx, hc, ← hx, ← mulHi_signed, toNat_a32, toNat_b32]
    rfl
  · obtain ⟨-, hx, -⟩ := threadCtx_spec hat.2
    refine laneOp_quiet hat hk rfl fun l => ?_
    rw [hx, hc, ← hx, toNat_a32, toNat_b32]
    rfl
  · refine laneOp_quiet hat hk rfl fun l => ?_
    rw [(threadCtx_spec hat.2).2.1, BitVec.toNat_add, BitVec.toNat_ofNat, BitVec.toNat_ofNat, ← Nat.add_mod, Nat.mod_mod]
  · obtain ⟨-, hx, -⟩ := threadCtx_spec hat.2
    have h := laneOp_counted (c := .mov gr x) (n := fun tc => movRegs tc.x) (f := fun tc l => (if tc.x.wide then tc.x.imm.toNat else tc.get l tc.x.a (movRegs tc.x), .zero)) hat hk rfl
    rw [events_zero] at h
    rw [movRegs_eq hk, hx] at h
    exact h

/-! Floating point (R150). -/

section
variable {s : State} {gr : GRef} {x : TInstr} {tc : TC} {c : Instr}

theorem fpOp2_result (hat : ThreadAt s gr x tc) (hk : firstBad (checksFp 2 tc) = none) (f : Bool → FV → FV → FV) (hc : exec c s = fpOp2 gr x s f) :
    let a (l : Nat) : FV := decodeFV tc.fmt (tc.get l tc.x.a (fmtRegs tc.fmt))
    let b (l : Nat) : FV := decodeFV tc.fmt (srcB tc l (fmtRegs tc.fmt))
    let r (l : Nat) : Nat × NEv := finish tc.fmt (tc.rnd (tc.tid l)) ((a l).isNan || (b l).isNan) (f (decide (tc.cvt % 8 = 2)) (a l) (b l))
    LaneResult c s tc (fmtRegs tc.fmt) (fun l => (r l).1) (tc.events (fun l => (r l).2)) :=
  laneOp_counted (n := fun tc => fmtRegs tc.fmt) (f := fun tc l =>
    finish tc.fmt (tc.rnd (tc.tid l)) ((decodeFV tc.fmt (tc.get l tc.x.a (fmtRegs tc.fmt))).isNan || (decodeFV tc.fmt (srcB tc l (fmtRegs tc.fmt))).isNan)
      (f (decide (tc.cvt % 8 = 2)) (decodeFV tc.fmt (tc.get l tc.x.a (fmtRegs tc.fmt))) (decodeFV tc.fmt (srcB tc l (fmtRegs tc.fmt))))) hat hk hc

theorem fpOp1_result (hat : ThreadAt s gr x tc) (hk : firstBad (checksFp 1 tc) = none) (f : Nat → Nat → Rnd → Nat → Nat × NEv) (hc : exec c s = fpOp1 gr x s f) :
    let r (l : Nat) : Nat × NEv := f tc.fmt tc.cvt (tc.rnd (tc.tid l)) (tc.get l tc.x.a (fmtRegs tc.fmt))
    LaneResult c s tc (fmtRegs tc.fmt) (fun l => (r l).1) (tc.events (fun l => (r l).2)) :=
  laneOp_counted (n := fun tc => fmtRegs tc.fmt) (f := fun tc l => f tc.fmt tc.cvt (tc.rnd (tc.tid l)) (tc.get l tc.x.a (fmtRegs tc.fmt))) hat hk hc

end

/-- Settles O8: each operation on the exact values of its operands, rounded once. -/
theorem fpOps : Obligations.FpOps := by
  refine ⟨fun s gr x tc hat => ⟨fun hk => ?_, fun hk => ?_⟩, fun s gr x tc hat hk => ?_⟩
  · obtain ⟨-, hx, -⟩ := threadCtx_spec hat.2
    subst hx
    exact ⟨fpOp2_result hat hk fadd rfl, fpOp2_result hat hk (fun d a b => fadd d a (fneg b)) rfl, fpOp2_result hat hk (fun _ => fmul) rfl,
      fpOp2_result hat hk (fun _ => fminV) rfl, fpOp2_result hat hk (fun _ => fmaxV) rfl, fpOp2_result hat hk (fun _ => fdiv) rfl⟩
  · obtain ⟨-, hx, -⟩ := threadCtx_spec hat.2
    subst hx
    exact laneOp_counted (n := fun tc => fmtRegs tc.fmt) (f := fun tc l =>
      finish tc.fmt (tc.rnd (tc.tid l)) ((decodeFV tc.fmt (tc.get l tc.x.a (fmtRegs tc.fmt))).isNan || (decodeFV tc.fmt (srcB tc l (fmtRegs tc.fmt))).isNan
          || (decodeFV tc.fmt (tc.get l tc.x.c (fmtRegs tc.fmt))).isNan)
        (fadd (decide (tc.cvt % 8 = 2)) (fmul (decodeFV tc.fmt (tc.get l tc.x.a (fmtRegs tc.fmt))) (decodeFV tc.fmt (srcB tc l (fmtRegs tc.fmt))))
          (decodeFV tc.fmt (tc.get l tc.x.c (fmtRegs tc.fmt))))) hat hk rfl
  · obtain ⟨-, hx, -⟩ := threadCtx_spec hat.2
    subst hx
    exact ⟨fpOp1_result hat hk (fpExact fabs) rfl, fpOp1_result hat hk (fpExact fneg) rfl, fpOp1_result hat hk (fpExact fsqrt) rfl,
      fpOp1_result hat hk (mathFn 0x30) rfl, fpOp1_result hat hk (mathFn 0x31) rfl, fpOp1_result hat hk (mathFn 0x34) rfl,
      fpOp1_result hat hk (mathFn 0x36) rfl, fpOp1_result hat hk (mathFn 0x3B) rfl, fpOp1_result hat hk (mathFn 0x3C) rfl⟩

/-! Conversions (R151). -/

/-- A sum of `k` digits of `w` bits holds each of them in its place. -/
theorem bits_digitSum (w : Nat) (d : Nat → Nat) (k : Nat) : ∀ j, j < k →
    bits ((List.range k).foldl (fun a i => a + d i % 2 ^ w * 2 ^ (w * i)) 0) (w * j) w = d j % 2 ^ w := by
  have hlt : ∀ k, (List.range k).foldl (fun a i => a + d i % 2 ^ w * 2 ^ (w * i)) 0 < 2 ^ (w * k) := by
    intro k
    induction k with
    | zero => simp
    | succ k ih =>
      have hd : d k % 2 ^ w < 2 ^ w := Nat.mod_lt _ (by positivity)
      rw [List.range_succ, List.foldl_append, List.foldl_cons, List.foldl_nil, Nat.mul_succ, Nat.pow_add]
      nlinarith
  induction k with
  | zero => exact fun j hj => absurd hj (Nat.not_lt_zero j)
  | succ k ih =>
    intro j hj
    rw [List.range_succ, List.foldl_append, List.foldl_cons, List.foldl_nil]
    have hd : d k % 2 ^ w < 2 ^ w := Nat.mod_lt _ (by positivity)
    rcases Nat.lt_or_ge j k with hjk | hjk
    · rw [← ih j hjk]
      obtain ⟨m, hm⟩ : ∃ m, w * k = w * j + w + w * m := ⟨k - j - 1, by rw [← Nat.mul_succ, ← Nat.mul_add]; congr 1; omega⟩
      rw [bits, bits, hm, Nat.pow_add, Nat.pow_add, show ∀ a q, a + q * (2 ^ (w * j) * 2 ^ w * 2 ^ (w * m)) = a + 2 ^ (w * j) * (2 ^ w * (q * 2 ^ (w * m))) by intros; ring,
        Nat.add_mul_div_left _ _ (by positivity), Nat.add_mul_mod_self_left]
    · obtain rfl : j = k := by omega
      rw [bits, Nat.add_mul_div_right _ _ (by positivity), Nat.div_eq_of_lt (hlt j), Nat.zero_add, Nat.mod_mod]

theorem packRegs_fst (tc : TC) (l n : Nat) : (packRegs tc l n).1 = (List.range n).foldl (fun a j => a
    + (convert tc.x.c.toNat tc.fmt (tc.rnd (n * tc.tid l + j)) (tc.grp.reg l (tc.x.a.toNat + j))).1 % 2 ^ fmtBits tc.fmt * 2 ^ (fmtBits tc.fmt * j)) 0 := by
  have hfold : ∀ (L : List Nat) (acc : Nat × NEv) (f : Nat → Nat × NEv) (w : Nat),
      (L.foldl (fun (acc : Nat × NEv) j => (acc.1 + (f j).1 % 2 ^ w * 2 ^ (w * j), acc.2.add (f j).2)) acc).1
        = L.foldl (fun a j => a + (f j).1 % 2 ^ w * 2 ^ (w * j)) acc.1 := by
    intro L
    induction L with
    | nil => intros; rfl
    | cons y L ih => intro acc f w; exact ih _ f w
  exact hfold (List.range n) (0, .zero) (fun j => convert tc.x.c.toNat tc.fmt (tc.rnd (n * tc.tid l + j)) (tc.grp.reg l (tc.x.a.toNat + j))) _

/-- A packed format is known where a check has asked for it. -/
theorem packN_some {o : Option Nat} {b : Bool} (h : (o.isNone || b) = false) : o = some (o.getD 1) := by
  cases o with
  | none => simp at h
  | some k => rfl

/-- A register of a lane after writes that name, in each lane of `act`, the `n` registers from `dst` on. -/
theorem reg_applyWrites_lanes (g : Group) {act : List Nat} (hact : ∀ l ∈ act, l < 32) {dst n : Nat} (v : Nat → Nat → Nat) {w : List (Nat × Nat)}
    (hw : ∀ k y, (k, y) ∈ w ↔ ∃ l, l ∈ act ∧ ∃ i, i < n ∧ k = 32 * (dst + i) + l ∧ y = v l i) {l : Nat} (hl : l < 32) (r : Nat) :
    (g.applyWrites w).reg l r = if l ∈ act ∧ dst ≤ r ∧ r < dst + n then v l (r - dst) % 2 ^ 32 else g.reg l r := by
  split
  · next h =>
    obtain ⟨hmem, hlo, hhi⟩ := h
    refine applyWrites_in _ _ _ _ _ (List.mem_map.mpr ⟨(32 * r + l, v l (r - dst)), (hw _ _).mpr ⟨l, hmem, r - dst, by omega, by congr 2; omega, rfl⟩, rfl⟩) ?_
    rintro ⟨k, y⟩ hy rfl
    obtain ⟨l', hl', i, hi, hk, rfl⟩ := (hw _ _).mp hy
    have := hact l' hl'
    obtain ⟨rfl, rfl⟩ : l' = l ∧ i = r - dst := by omega
    rfl
  · next h =>
    refine applyWrites_out _ _ _ _ ?_
    rintro ⟨k, y⟩ hy rfl
    obtain ⟨l', hl', i, hi, hk, -⟩ := (hw _ _).mp hy
    have := hact l' hl'
    obtain rfl : l' = l := by omega
    exact h ⟨hl', by omega, by omega⟩

/-- A group whose registers have taken writes and whose path has moved on. -/
theorem applyWrites_advance {s : State} {gr : GRef} {x : TInstr} {tc : TC} (h : threadCtx s gr x = some tc) (w : List (Nat × Nat)) :
    (tc.grp.applyWrites w).advance tc.len
      = { tc.grp with regs := (tc.grp.applyWrites w).regs, run := some { tc.path with pc := tc.path.pc + tc.len } } := by
  obtain ⟨-, -, hrun, -⟩ := threadCtx_spec h
  rw [Group.advance, applyWrites_only]
  simp [hrun]

theorem mem_gather (L : List Nat) (f : Nat → List (Nat × Nat) × NEv) (y : Nat × Nat) : y ∈ (gather (L.map f)).1 ↔ ∃ l, l ∈ L ∧ y ∈ (f l).1 := by
  simp [gather_fst, List.mem_flatten]

theorem packN_of_checksPack {tc : TC} (hk : firstBad (checksPack tc) = none) : packN tc.fmt = some ((packN tc.fmt).getD 1) :=
  packN_some (firstBad_none hk ((packN tc.fmt).isNone || !(tc.x.c = 1 || tc.x.c = 9), 0x0B) (List.mem_append_right _ (.tail _ (.tail _ (.head _)))))

theorem packN_of_checksUnpack {tc : TC} (hk : firstBad (checksUnpack tc) = none) : packN tc.x.c.toNat = some ((packN tc.x.c.toNat).getD 1) :=
  packN_some (firstBad_none hk ((packN tc.x.c.toNat).isNone || tc.fmt ≠ unpackTo tc.x.c.toNat, 0x0B) (List.mem_append_right _ (.tail _ (.tail _ (.head _)))))

/-- Element `j` of the packed register of a lane, converted. -/
def unpacked (tc : TC) (l j : Nat) : Nat × NEv :=
  convert tc.x.c.toNat tc.fmt (tc.rnd (tc.tid l)) (bits (tc.get l tc.x.a 1) (fmtBits tc.x.c.toNat * j) (fmtBits tc.x.c.toNat))

/-- What cvt.unpack writes in a lane, and its events. -/
def unpackLane (tc : TC) (l : Nat) : List (Nat × Nat) × NEv :=
  gather ((List.range ((packN tc.x.c.toNat).getD 1)).map (fun j => ([(32 * (tc.x.dst.toNat + j) + l, (unpacked tc l j).1)], (unpacked tc l j).2)))

theorem exec_cvtUnpack {s : State} {tc : TC} (hat : ThreadAt s tc.gr tc.x tc) (hk : firstBad (checksUnpack tc) = none) :
    exec (.cvtUnpack tc.gr tc.x) s = .next (commit tc s (gather (tc.act.map (unpackLane tc))).1 (gather (tc.act.map (unpackLane tc))).2) :=
  runThread_passes (f := fun tc s => commit tc s (gather (tc.act.map (unpackLane tc))).1 (gather (tc.act.map (unpackLane tc))).2) hat hk

theorem mem_unpackWrites (tc : TC) (k y : Nat) : (k, y) ∈ (gather (tc.act.map (unpackLane tc))).1 ↔
    ∃ l, l ∈ tc.act ∧ ∃ j, j < (packN tc.x.c.toNat).getD 1 ∧ k = 32 * (tc.x.dst.toNat + j) + l ∧ y = (unpacked tc l j).1 := by
  simp [mem_gather, unpackLane]

/-- Settles O9: cvt by its conversion, cvt.pack by its digits, cvt.unpack by its writes. -/
theorem conversions : Obligations.Conversions := by
  intro s gr x tc hat
  obtain ⟨hgr, hx, -⟩ := threadCtx_spec hat.2
  subst hgr hx
  refine ⟨fun hk => ?_, fun hk => ?_, fun hk => ?_⟩
  · exact laneOp_counted (n := fun tc => fmtRegs tc.fmt) (f := fun tc l =>
      convert tc.x.c.toNat tc.fmt (tc.rnd (tc.tid l)) (tc.get l tc.x.a (fmtRegs tc.x.c.toNat))) hat hk rfl
  · refine ⟨_, packN_of_checksPack hk, _, _, laneOp_counted (n := fun _ => 1) (f := fun tc l => packRegs tc l ((packN tc.fmt).getD 1)) hat hk rfl, fun l j _ hj => ?_⟩
    rw [packRegs_fst]
    exact bits_digitSum _ (fun j => (convert tc.x.c.toNat tc.fmt (tc.rnd ((packN tc.fmt).getD 1 * tc.tid l + j)) (tc.grp.reg l (tc.x.a.toNat + j))).1) _ j hj
  · have hreg := fun l hl => reg_applyWrites_lanes tc.grp (fun l => act_lt hat.2) (fun l j => (unpacked tc l j).1) (mem_unpackWrites tc) (l := l) hl
    refine ⟨_, packN_of_checksUnpack hk, _, exec_cvtUnpack hat hk, _, _, rfl, fun l j hl hj => ?_, fun l r hl hr => ?_, applyWrites_advance hat.2 _⟩
    · refine (hreg l (act_lt hat.2 hl) _).trans ?_
      rw [if_pos ⟨hl, by omega, by omega⟩, Nat.add_sub_cancel_left]
      rfl
    · refine (hreg l hl r).trans (if_neg ?_)
      rintro ⟨hact, hlo, hhi⟩
      rcases hr with h | h | h
      · exact h hact
      · omega
      · omega

/-! Comparisons, predicates and votes (R172, R542). -/

section
variable {s : State} {gr : GRef} {x : TInstr} {tc : TC} {c : Instr}

theorem PredResult.congr {v w : Nat → Bool} (h : PredResult c s tc v) (hvw : v = w) : PredResult c s tc w := hvw ▸ h

theorem predOp_passes (hat : ThreadAt s gr x tc) {checks : TC → List (Bool × Nat)} (hk : firstBad (checks tc) = none) (f : TC → Nat → Bool)
    (hc : exec c s = predOp gr x s checks f) : PredResult c s tc (f tc) := predOp_result hc hat.1 hat.2 hk

theorem cmpOp_result (hat : ThreadAt s gr x tc) (hk : firstBad (checksCmp tc) = none) (f : FV → FV → Bool) (hc : exec c s = cmpOp gr x s f) :
    PredResult c s tc (fun l => f (decodeFV tc.fmt (tc.get l tc.x.a (fmtRegs tc.fmt))) (decodeFV tc.fmt (srcB tc l (fmtRegs tc.fmt)))) :=
  predOp_passes hat hk (fun tc l => f (decodeFV tc.fmt (tc.get l tc.x.a (fmtRegs tc.fmt))) (decodeFV tc.fmt (srcB tc l (fmtRegs tc.fmt)))) hc

end

/-- Settles O10: a NaN decides before the order of the exact values does. -/
theorem comparisons : Obligations.Comparisons := by
  intro s gr x tc hat
  obtain ⟨hgr, hx, -⟩ := threadCtx_spec hat.2
  subst hgr hx
  refine ⟨fun hk => ⟨cmpOp_result hat hk (ordered (fun o => o = .eq)) rfl, (cmpOp_result hat hk (fun a b => !ordered (fun o => o = .eq) a b) rfl).congr ?_,
    cmpOp_result hat hk (ordered (fun o => o = .lt)) rfl, cmpOp_result hat hk (ordered (fun o => o ≠ .gt)) rfl,
    cmpOp_result hat hk (ordered (fun o => o = .gt)) rfl, cmpOp_result hat hk (ordered (fun o => o ≠ .lt)) rfl,
    cmpOp_result hat hk (fun a b => a.isNan || b.isNan) rfl⟩, fun hk => ?_⟩
  · funext l
    simp [ordered, Bool.not_and]
  · have h := laneOp_counted (c := .select tc.gr tc.x) (n := fun tc => fmtRegs tc.fmt) (f := fun tc l =>
      (if tc.predOf tc.x.c l then tc.get l tc.x.a (fmtRegs tc.fmt) else srcB tc l (fmtRegs tc.fmt), .zero)) hat hk rfl
    rwa [events_zero] at h

/-! Shuffles and special reads (R148, R172). -/

section
variable {s : State} {gr : GRef} {x : TInstr} {tc : TC} {c : Instr}

theorem LaneResult.congr {n : Nat} {v w : Nat → Nat} {e : NEv} (h : LaneResult c s tc n v e) (hvw : v = w) : LaneResult c s tc n w e := hvw ▸ h

/-- The lane that a shuffle reads: the one named, where it is active. -/
def shflSource (tc : TC) (o : Option Nat) (l : Nat) : Nat :=
  match o with
  | some k => if tc.act.contains k then k else l
  | none => l

theorem shflOp_result (hat : ThreadAt s gr x tc) (hk : firstBad (checksShfl tc) = none) (f : Nat → Nat → Option Nat) (hc : exec c s = shflOp gr x s f) :
    LaneResult c s tc 1 (fun l => tc.get (shflSource tc (f l (tc.get l tc.x.b 1)) l) tc.x.a 1) .zero :=
  laneOp_quiet hat hk (f := fun tc l => tc.get (shflSource tc (f l (tc.get l tc.x.b 1)) l) tc.x.a 1) hc fun _ => rfl

theorem get_shflSource (tc : TC) (k l : Nat) : tc.get (shflSource tc (some k) l) tc.x.a 1 = if k ∈ tc.act then tc.get k tc.x.a 1 else tc.get l tc.x.a 1 := by
  rw [← apply_ite (fun l => tc.get l tc.x.a 1)]
  simp [shflSource]

theorem readOp_result (hat : ThreadAt s gr x tc) {n : Nat} (hk : firstBad (checksRead n tc) = none) (f : TC → Nat → Nat) (hc : exec c s = readOp gr x s n f) :
    LaneResult c s tc n (f tc) .zero := laneOp_quiet hat hk hc fun _ => rfl

end

/-- Settles O11: predicates by their definition, shuffles by the lane they read, special reads by what they read. -/
theorem predicatesAndShuffles : Obligations.PredicatesAndShuffles := by
  refine ⟨fun s gr x tc hat => ?_, fun s gr x tc hat => ?_⟩ <;> obtain ⟨hgr, hx, -⟩ := threadCtx_spec hat.2 <;> subst hgr hx
  · refine ⟨fun hk => ⟨predOp_passes hat hk (fun tc l => tc.predOf tc.x.a l && tc.predOf tc.x.b l) rfl,
        predOp_passes hat hk (fun tc l => tc.predOf tc.x.a l || tc.predOf tc.x.b l) rfl,
        predOp_passes hat hk (fun tc l => tc.predOf tc.x.a l != tc.predOf tc.x.b l) rfl⟩,
      fun hk => predOp_passes hat hk (fun tc l => !tc.predOf tc.x.a l) rfl, fun hk => ⟨?_, ?_⟩, fun hk => ?_⟩
    · refine (predOp_passes hat hk (fun tc _ => tc.act.any (tc.predOf tc.x.c)) rfl).congr (funext fun _ => ?_)
      rw [Bool.eq_iff_iff, List.any_eq_true, decide_eq_true_eq]
      rfl
    · refine (predOp_passes hat hk (fun tc _ => tc.act.all (tc.predOf tc.x.c)) rfl).congr (funext fun _ => ?_)
      rw [Bool.eq_iff_iff, List.all_eq_true, decide_eq_true_eq]
      rfl
    · refine ⟨tc.maskWhere (tc.predOf tc.x.c), laneOp_quiet hat hk (f := fun tc _ => tc.maskWhere (tc.predOf tc.x.c)) rfl fun _ => rfl, fun l => ?_⟩
      rw [TC.maskWhere, testBit_maskOf]
      exact decide_eq_decide.mpr List.mem_filter
  · refine ⟨fun hk => ⟨?_, ?_, ?_, ?_⟩, fun hk => ⟨readOp_result hat hk (fun _ l => l) rfl, readOp_result hat hk (fun tc _ => tc.gr.grp) rfl,
      readOp_result hat hk (fun tc _ => tc.blk.index) rfl, readOp_result hat hk (fun tc _ => tc.gr.tile) rfl,
      readOp_result hat hk (fun _ _ => nodeId s) rfl, readOp_result hat hk (fun tc _ => tc.blk.launch.nblocks) rfl⟩,
      fun hk => readOp_result hat hk (fun _ _ => s.ref) rfl⟩
    · exact (shflOp_result hat hk (fun _ b => some b) rfl).congr (funext fun l => get_shflSource ..)
    · refine (shflOp_result hat hk (fun l b => if b ≤ l then some (l - b) else none) rfl).congr (funext fun l => ?_)
      by_cases hle : tc.get l tc.x.b 1 ≤ l
      · simp only [hle, if_true, true_and, get_shflSource]
      · simp only [hle, if_false, false_and, shflSource]
    · exact (shflOp_result hat hk (fun l b => some (l + b)) rfl).congr (funext fun l => get_shflSource ..)
    · exact (shflOp_result hat hk (fun l b => some (l ^^^ b)) rfl).congr (funext fun l => get_shflSource ..)

end Sys2Proof.Machine
end

section
/-! Control flow (O12): how a control instruction answers, and what a divergent branch leaves. -/

namespace Sys2Proof.Machine

open Sys2Proof

section
variable {s : State} {tc : TC} {c : Instr} {checks : TC → List (Bool × Nat)} {ts : List Nat} {f : TC → State → State}

theorem runThread_eq (hat : ThreadAt s tc.gr tc.x tc) (f : TC → State → State) : runThread tc.gr tc.x s f = .next (f tc s) := by
  rw [runThread, onUnit, if_pos (decide_eq_true hat.1), hat.2]

/-- A control instruction that passes its checks: nothing more where no lane is active (R152), else its effect. -/
theorem ctlOp_passes (hat : ThreadAt s tc.gr tc.x tc) (hk : firstBad (checks tc) = none) :
    ctlOp tc.gr tc.x s checks ts f = .next (if tc.act = [] then stepOn tc s else f tc s) := by
  rw [ctlOp, runThread_eq hat, guardedCtl, hk]

theorem ctlOp_acts (hat : ThreadAt s tc.gr tc.x tc) (hk : firstBad (checks tc) = none) (hact : tc.act ≠ []) :
    ctlOp tc.gr tc.x s checks ts f = .next (f tc s) := by rw [ctlOp_passes hat hk, if_neg hact]

theorem GroupResult.of_eq {P : Group → Prop} {g : Group → Group} (hc : exec c s = .next (s.modGroup tc.gr g)) (h : P (g tc.grp)) : GroupResult c s tc P :=
  ⟨_, hc, g, h, rfl⟩

/-- The running path moves on behind the instruction. -/
theorem goesOn_advance (hat : ThreadAt s tc.gr tc.x tc) : GoesOn tc (tc.path.pc + tc.len) (tc.grp.advance tc.len) := by
  obtain ⟨-, -, hrun, -⟩ := threadCtx_spec hat.2
  simp [GoesOn, Group.advance, hrun]

theorem goesOn_jump (hat : ThreadAt s tc.gr tc.x tc) (t : Nat) :
    GoesOn tc t { tc.grp with run := tc.grp.run.map (fun p => { p with pc := t }) } := by
  obtain ⟨-, -, hrun, -⟩ := threadCtx_spec hat.2
  simp [GoesOn, hrun]

end

/-! Lanes that take a branch. -/

/-- The condition of bra and bra.div in a lane. -/
def TC.takes (tc : TC) (l : Nat) : Prop := tc.grp.pred (tc.x.c.toNat % 8) l ≠ bit tc.x.c.toNat 3

theorem testBit_condMask (tc : TC) (l : Nat) : tc.condMask.testBit l = true ↔ l ∈ tc.act ∧ tc.takes l := by
  rw [TC.condMask, TC.maskWhere, testBit_maskOf, decide_eq_true_eq, List.mem_filter, bne_iff_ne]
  rfl

theorem condMask_eq_zero {tc : TC} (h : ∀ l ∈ tc.act, ¬ tc.takes l) : tc.condMask = 0 := by
  refine Nat.eq_of_testBit_eq fun l => ?_
  rw [Nat.zero_testBit, Bool.eq_false_iff, Ne, testBit_condMask]
  exact fun ⟨hl, ht⟩ => h l hl ht

theorem condMask_ne_zero {tc : TC} {l : Nat} (hl : l ∈ tc.act) (ht : tc.takes l) : tc.condMask ≠ 0 := by
  intro h0
  have h := (testBit_condMask tc l).mpr ⟨hl, ht⟩
  rw [h0, Nat.zero_testBit] at h
  exact absurd h (by decide)

theorem condMask_eq_mask {tc : TC} (h : ∀ l ∈ tc.act, tc.takes l) : tc.condMask = tc.mask := by
  refine Nat.eq_of_testBit_eq fun l => ?_
  rw [Bool.eq_iff_iff, testBit_condMask, TC.mask, testBit_maskOf, decide_eq_true_eq]
  exact ⟨fun hl => hl.1, fun hl => ⟨hl, h l hl⟩⟩

section
variable {s : State} {tc : TC} (hat : ThreadAt s tc.gr tc.x tc)
include hat

/-- The active lanes: those of the running path whose guard holds. -/
theorem act_eq : tc.act = (List.range 32).filter (fun l => tc.path.lanes.testBit l && (tc.grp.pred tc.x.pred.toNat l != tc.x.predNeg)) := by
  obtain ⟨-, -, -, -, -, -, hact⟩ := threadCtx_spec hat.2
  exact hact

theorem act_sorted : tc.act.Pairwise (· < ·) := by
  rw [act_eq hat]
  exact List.Pairwise.filter _ List.pairwise_lt_range

theorem act_nodup : tc.act.Nodup := (act_sorted hat).imp Nat.ne_of_lt

theorem grp_eq : tc.blk.groups[tc.gr.grp]? = some tc.grp := by
  obtain ⟨-, -, -, -, -, hgrp, -⟩ := threadCtx_spec hat.2
  exact hgrp

theorem act_lane {l : Nat} (hl : l ∈ tc.act) : l < 32 ∧ tc.path.lanes.testBit l = true := by
  rw [act_eq hat, List.mem_filter, List.mem_range, Bool.and_eq_true] at hl
  exact ⟨hl.1, hl.2.1⟩

theorem condMask_eq_lanes (hlanes : tc.path.lanes < 2 ^ 32) (h : ∀ l, l < 32 → tc.path.lanes.testBit l = true → l ∈ tc.act ∧ tc.takes l) :
    tc.condMask = tc.path.lanes := by
  refine Nat.eq_of_testBit_eq fun l => ?_
  rw [Bool.eq_iff_iff, testBit_condMask]
  refine ⟨fun hl => (act_lane hat hl.1).2, fun hl => h l ?_ hl⟩
  by_contra hge
  rw [Nat.testBit_lt_two_pow (Nat.lt_of_lt_of_le hlanes (Nat.pow_le_pow_right (by decide) (by omega)))] at hl
  exact absurd hl (by decide)

end

/-! A split (R153). -/

/-- The lanes of a mask that another leaves. -/
theorem testBit_left (a b : Nat) {l : Nat} (hl : l < 32) : (a &&& (allLanes ^^^ b)).testBit l = (a.testBit l && !b.testBit l) := by
  rw [Nat.testBit_and, Nat.testBit_xor, allLanes, Nat.testBit_two_pow_sub_one, decide_eq_true hl, Bool.true_xor]

/-- The lowest lane of a mask. -/
theorem head_setBits {m l : Nat} (hl : l < 32) (h : m.testBit l = true) :
    ∃ k, (setBits 32 m).head? = some k ∧ k < 32 ∧ m.testBit k = true ∧ ∀ j, j < 32 → m.testBit j = true → k ≤ j := by
  have hmem : ∀ j, j ∈ setBits 32 m ↔ j < 32 ∧ m.testBit j = true := fun j => by simp [setBits]
  have hsorted : (setBits 32 m).Pairwise (· < ·) := List.Pairwise.filter _ List.pairwise_lt_range
  cases hbits : setBits 32 m with
  | nil => exact absurd ((hmem l).mpr ⟨hl, h⟩) (by simp [hbits])
  | cons k L =>
    rw [hbits] at hsorted hmem
    obtain ⟨hk, hkb⟩ := (hmem k).mp (List.mem_cons_self ..)
    refine ⟨k, rfl, hk, hkb, fun j hj hb => ?_⟩
    rcases List.mem_cons.mp ((hmem j).mpr ⟨hj, hb⟩) with rfl | hjL
    · exact Nat.le_refl _
    · exact Nat.le_of_lt (List.rel_of_pairwise_cons hsorted hjL)

section
variable (g : Group) (p : Path) (taken target recon nxt : Nat)

/-- The two ways of a split. -/
def splitTaken : Path := ⟨taken, target, [.split g.nextId]⟩
def splitLeft : Path := ⟨p.lanes &&& (allLanes ^^^ taken), nxt, [.split g.nextId]⟩

/-- What a split leaves in its group where `a` runs and `b` waits. -/
def Group.splitAs (a b : Path) : Group :=
  { g with run := some a, ready := b :: g.ready, splits := ⟨g.nextId, recon, p.lanes, 0, p.frames⟩ :: g.splits, nextId := g.nextId + 1 }

variable {g p taken target recon nxt} {j k : Nat} (hj : (setBits 32 taken).head? = some j) (hk : (setBits 32 p.lanes).head? = some k)
include hj hk

theorem split_of_low (hne : taken % 2 ^ 32 ≠ 0) (h : j = k) :
    g.split p taken target recon nxt = g.splitAs p recon (splitTaken g taken target) (splitLeft g p taken nxt) := by
  simp only [Group.split, Group.splitAs, splitTaken, splitLeft, hj, hk, h, decide_true, Bool.and_true, decide_eq_true hne, if_true]

theorem split_of_high (h : j ≠ k) :
    g.split p taken target recon nxt = g.splitAs p recon (splitLeft g p taken nxt) (splitTaken g taken target) := by
  have hlow : decide (some j = some k) = false := decide_eq_false (by simpa using h)
  simp only [Group.split, Group.splitAs, splitTaken, splitLeft, hj, hk, hlow, Bool.and_false, Bool.false_eq_true, if_false]

end

/-- The two ways of a split: the lanes `taken` at the target and the rest of the path behind it; the way with the path's lowest lane runs, the other waits. -/
theorem split_spec (g : Group) (p : Path) {taken l m : Nat} (target recon nxt : Nat) (hl : l < 32) (htl : taken.testBit l = true)
    (hm : m < 32) (hpm : p.lanes.testBit m = true) (hsub : ∀ k, taken.testBit k = true → p.lanes.testBit k = true) :
    ∃ a b : Path, g.split p taken target recon nxt = g.splitAs p recon a b
      ∧ (∀ k, k < 32 → (p.lanes.testBit k = true ↔ (a.lanes.testBit k = true ∨ b.lanes.testBit k = true)))
      ∧ (∀ k, k < 32 → ¬ (a.lanes.testBit k = true ∧ b.lanes.testBit k = true))
      ∧ ((a.pc = target ∧ b.pc = nxt ∧ a.lanes = taken) ∨ (a.pc = nxt ∧ b.pc = target ∧ b.lanes = taken))
      ∧ ∃ k, k < 32 ∧ a.lanes.testBit k = true ∧ ∀ j, j < 32 → p.lanes.testBit j = true → k ≤ j := by
  obtain ⟨k, hhead, hk, hkb, hlow⟩ := head_setBits hm hpm
  obtain ⟨j, hjhead, hj, hjb, hjlow⟩ := head_setBits hl htl
  have hne : taken % 2 ^ 32 ≠ 0 := by
    intro h0
    have hbit : (taken % 2 ^ 32).testBit l = true := by rw [Nat.testBit_mod_two_pow, decide_eq_true hl, htl]; rfl
    rw [h0, Nat.zero_testBit] at hbit
    exact absurd hbit (by decide)
  have hunion : ∀ i, i < 32 → (p.lanes.testBit i = true ↔ (taken.testBit i = true ∨ (p.lanes &&& (allLanes ^^^ taken)).testBit i = true)) := fun i hi => by
    rw [testBit_left _ _ hi]
    cases hti : taken.testBit i with
    | true => simp [hsub i hti]
    | false => simp
  have hdisj : ∀ i, i < 32 → ¬ (taken.testBit i = true ∧ (p.lanes &&& (allLanes ^^^ taken)).testBit i = true) := fun i hi => by
    rw [testBit_left _ _ hi]
    cases taken.testBit i <;> simp
  by_cases hjk : j = k
  · exact ⟨_, _, split_of_low hjhead hhead hne hjk, hunion, hdisj, .inl ⟨rfl, rfl, rfl⟩, k, hk, hjk ▸ hjb, hlow⟩
  · have hkt : taken.testBit k = false := by
      by_contra hb
      have h1 := hjlow k hk (by simpa using hb)
      have h2 := hlow j hj (hsub j hjb)
      omega
    exact ⟨_, _, split_of_high hjhead hhead hjk, fun i hi => (hunion i hi).trans or_comm, fun i hi h => hdisj i hi h.symm, .inr ⟨rfl, rfl, rfl⟩,
      k, hk, by rw [splitLeft, testBit_left _ _ hk, hkb, hkt]; rfl, hlow⟩

/-! The instructions. -/

theorem exec_bra (gr : GRef) (x : TInstr) (s : State) : exec (.bra gr x) s = execBra gr x s := rfl
theorem exec_braDiv (gr : GRef) (x : TInstr) (s : State) : exec (.braDiv gr x) s = execBraDiv gr x s := rfl
theorem exec_join (gr : GRef) (x : TInstr) (s : State) : exec (.join gr x) s = execJoin gr x s := rfl
theorem exec_call (gr : GRef) (x : TInstr) (s : State) : exec (.call gr x) s = execCall gr x s := rfl
theorem exec_ret (gr : GRef) (x : TInstr) (s : State) : exec (.ret gr x) s = execRet gr x s := rfl
theorem exec_nop (gr : GRef) (x : TInstr) (s : State) : exec (.nop gr x) s = execNop gr x s := rfl

section
variable {s : State} {tc : TC} (hat : ThreadAt s tc.gr tc.x tc)
include hat

/-- bra: none of the active lanes or all of them take the branch (R154). -/
theorem bra_result (hk : firstBad (checksBra tc) = none) :
    ((∀ l ∈ tc.act, ¬ tc.takes l) → GroupResult (.bra tc.gr tc.x) s tc (GoesOn tc (tc.path.pc + tc.len)))
    ∧ (tc.act ≠ [] → (∀ l ∈ tc.act, tc.takes l) → GroupResult (.bra tc.gr tc.x) s tc (GoesOn tc (ctlTarget tc.x))) := by
  refine ⟨fun hnone => .of_eq (g := fun g => g.advance tc.len) ?_ (goesOn_advance hat), fun hact hall => ?_⟩
  · rw [exec_bra, execBra, ctlOp_passes hat hk, condMask_eq_zero hnone, if_pos rfl, ite_self, stepOn]
  · obtain ⟨l, hl⟩ := List.exists_mem_of_ne_nil _ hact
    refine .of_eq (g := fun g => { g with run := g.run.map (fun p => { p with pc := ctlTarget tc.x }) }) ?_ (goesOn_jump hat _)
    rw [exec_bra, execBra, ctlOp_acts hat hk hact, if_neg (condMask_ne_zero hl (hall l hl)), if_pos (condMask_eq_mask hall), jumpTo]

/-- bra.div that passes its checks (R153, R154). -/
theorem braDiv_answers (hk : firstBad (checksBraDiv tc) = none) : exec (.braDiv tc.gr tc.x) s = .next (
    if tc.condMask = 0 then stepOn tc s
    else if tc.condMask = tc.path.lanes then jumpTo tc s (ctlTarget tc.x)
    else if 32 < tc.grp.depth + 2 then threadFault tc s 0x0E 0
    else s.modGroup tc.gr (fun g => g.split tc.path tc.condMask (ctlTarget tc.x) (ctlRecon tc.x) (tc.path.pc + tc.len))) := by
  rw [exec_braDiv, execBraDiv, runThread_eq hat, guardedCtl, hk]

theorem braDiv_none (hk : firstBad (checksBraDiv tc) = none) (hnone : ∀ l ∈ tc.act, ¬ tc.takes l) :
    GroupResult (.braDiv tc.gr tc.x) s tc (GoesOn tc (tc.path.pc + tc.len)) := by
  refine .of_eq (g := fun g => g.advance tc.len) ?_ (goesOn_advance hat)
  rw [braDiv_answers hat hk, if_pos (condMask_eq_zero hnone), stepOn]

theorem braDiv_all (hk : firstBad (checksBraDiv tc) = none) (hlanes : tc.path.lanes < 2 ^ 32)
    (hall : ∀ l, l < 32 → tc.path.lanes.testBit l = true → l ∈ tc.act ∧ tc.takes l) (hne : tc.path.lanes ≠ 0) :
    GroupResult (.braDiv tc.gr tc.x) s tc (GoesOn tc (ctlTarget tc.x)) := by
  have hmask := condMask_eq_lanes hat hlanes hall
  refine .of_eq (g := fun g => { g with run := g.run.map (fun p => { p with pc := ctlTarget tc.x }) }) ?_ (goesOn_jump hat _)
  rw [braDiv_answers hat hk, if_neg (hmask ▸ hne), if_pos hmask, jumpTo]

theorem braDiv_splits (hk : firstBad (checksBraDiv tc) = none) (hdepth : tc.grp.depth + 2 ≤ 32) {l m : Nat} (hl : l ∈ tc.act) (ht : tc.takes l)
    (hpm : tc.path.lanes.testBit m = true) (hnot : ¬ (m ∈ tc.act ∧ tc.takes m)) :
    exec (.braDiv tc.gr tc.x) s
      = .next (s.modGroup tc.gr (fun g => g.split tc.path tc.condMask (ctlTarget tc.x) (ctlRecon tc.x) (tc.path.pc + tc.len))) := by
  have hne : tc.condMask ≠ tc.path.lanes := fun h => hnot ((testBit_condMask tc m).mp (h ▸ hpm))
  rw [braDiv_answers hat hk, if_neg (condMask_ne_zero hl ht), if_neg hne, if_neg (by omega)]

end

/-- Settles O12: each instruction by its lanes and the frame on top of its path. -/
theorem controlFlow : Obligations.ControlFlow := by
  intro s gr x tc hat
  obtain ⟨hgr, hx, -⟩ := threadCtx_spec hat.2
  subst hgr hx
  refine ⟨fun hk => bra_result hat hk, fun hk => ⟨braDiv_none hat hk, braDiv_all hat hk, fun hlanes hdepth => ?_⟩, fun hk hact id rest hframe => ?_,
    fun hk hact hdepth => ?_, fun hk hact r lanes rest hframe => ?_, fun hk => ?_⟩
  · rintro ⟨l, hl, ht⟩ ⟨m, hm, hpm, hnot⟩
    obtain ⟨a, b, hsplit, hunion, hdisj, hways, k, hlow⟩ := split_spec tc.grp tc.path (ctlTarget tc.x) (ctlRecon tc.x) (tc.path.pc + tc.len)
      (act_lane hat hl).1 ((testBit_condMask tc l).mpr ⟨hl, ht⟩) hm hpm (fun k hk => (act_lane hat ((testBit_condMask tc k).mp hk).1).2)
    refine .of_eq (braDiv_splits hat hk hdepth hl ht hpm hnot) ?_
    rw [hsplit]
    refine ⟨a, b, rfl, rfl, rfl, rfl, rfl, rfl, rfl, hunion, hdisj, hways.imp ?_ ?_, k, hlow⟩
    · rintro ⟨ha, hb, hmask⟩
      exact ⟨ha, hb, fun k _ => by rw [hmask]; exact testBit_condMask tc k⟩
    · rintro ⟨ha, hb, hmask⟩
      exact ⟨ha, hb, fun k _ => by rw [hmask]; exact testBit_condMask tc k⟩
  · refine .of_eq (g := fun g => g.joinLanes tc.path id tc.mask tc.len) ?_ rfl
    rw [exec_join, execJoin, ctlOp_acts hat hk hact, hframe]
  · refine .of_eq (g := fun g => { g with run := some { tc.path with pc := ctlTarget tc.x, frames := .call (tc.path.pc + 16) tc.path.lanes :: tc.path.frames } }) ?_ rfl
    rw [exec_call, execCall, ctlOp_acts hat hk hact, if_neg (by omega)]
  · refine .of_eq (g := fun g => { g with run := some ⟨lanes &&& (allLanes ^^^ g.exited), r, rest⟩ }) ?_ rfl
    rw [exec_ret, execRet, ctlOp_acts hat hk hact, hframe]
  · refine .of_eq (g := fun g => g.advance tc.len) ?_ (goesOn_advance hat)
    rw [exec_nop, execNop, ctlOp_passes hat hk, ite_self, stepOn]

end Sys2Proof.Machine
end

section
/-! SUPPORT. Words of one page, tiles after a change, and what stops a block (05_thread_groups.md R176, R177): one lemma per part of it. -/

namespace Sys2Proof.Machine

open Sys2Proof

/-! Words of one page. -/

/-- Every word of the page reads as before, but for those at the listed offsets. -/
structure WordsKept (p : Page) (s t : State) (offs : List Nat) : Prop where
  rd : ∀ a, a % 4 = 0 → a ∉ offs → t.rd p a = s.rd p a

section
variable {p : Page} {s t u : State}

theorem WordsKept.trans {l m : List Nat} (h : WordsKept p s t l) (k : WordsKept p t u m) : WordsKept p s u (l ++ m) := ⟨fun a ha hn => by
  rw [List.mem_append, not_or] at hn
  rw [k.rd a ha hn.2, h.rd a ha hn.1]⟩

theorem WordsKept.mono {l m : List Nat} (h : WordsKept p s t l) (hsub : l ⊆ m) : WordsKept p s t m := ⟨fun a ha hn => h.rd a ha (fun hl => hn (hsub hl))⟩

theorem WordsKept.of_regs (h : t.regs = s.regs) : WordsKept p s t [] := ⟨fun a _ _ => rd_congr h p a⟩

theorem WordsKept.rdB {l : List Nat} (h : WordsKept p s t l) {a : Nat} (ha : a % 4 = 0) (hn : a ∉ l) (n : Nat) : t.rdB p a n = s.rdB p a n := by
  rw [State.rdB, State.rdB, h.rd a ha hn]

theorem wr_wordsKept (s : State) {a : Nat} (ha : a % 4 = 0) (v : Nat) : WordsKept p s (s.wr p a v) [a] := ⟨fun b hb hn => by
  rw [List.mem_singleton] at hn
  exact rd_wr_off s p v ha hb hn⟩

theorem inc_wordsKept (s : State) {a : Nat} (ha : a % 4 = 0) (n : Nat) : WordsKept p s (s.inc p a n) [a] := wr_wordsKept s ha _

theorem raise_wordsKept (s : State) (n code queue addr : Nat) (detail : List Nat) :
    WordsKept p s (raise s p n code queue addr detail) [0x18, 0x780 + 4 * n, 0x1C] := ⟨fun a ha hn => by
  rw [rd_congr (raise_regs ..), setFlag]
  exact ((wr_wordsKept s (by decide) _).trans ((inc_wordsKept _ (by omega) 1).trans (inc_wordsKept _ (by decide) 1))).rd a ha hn⟩

end

/-- Words of a page written in a row. -/
def State.wrAll (s : State) (p : Page) (words : List (Nat × Nat)) : State := words.foldl (fun s w => s.wr p w.1 w.2) s

theorem wrAll_kept (p : Page) (words : List (Nat × Nat)) : ∀ s : State, (∀ w ∈ words, w.1 % 4 = 0) → WordsKept p s (s.wrAll p words) (words.map (fun w => w.1)) := by
  induction words with
  | nil => exact fun s _ => .of_regs rfl
  | cons w words ih =>
    intro s h4
    exact (wr_wordsKept s (h4 w (List.mem_cons_self ..)) w.2).trans (ih (s.wr p w.1 w.2) (fun y hy => h4 y (List.mem_cons_of_mem _ hy)))

/-- Each of them reads as written. -/
theorem rd_wrAll (p : Page) (words : List (Nat × Nat)) : ∀ s : State, (∀ w ∈ words, w.1 % 4 = 0) → (words.map (fun w => w.1)).Nodup →
    ∀ w ∈ words, (s.wrAll p words).rd p w.1 = w.2 % 2 ^ 32 := by
  induction words with
  | nil => exact fun s _ _ w hw => absurd hw List.not_mem_nil
  | cons y words ih =>
    intro s h4 hd w hw
    rw [List.map_cons, List.nodup_cons] at hd
    have h4' : ∀ w ∈ words, w.1 % 4 = 0 := fun w hw => h4 w (List.mem_cons_of_mem _ hw)
    rcases List.mem_cons.mp hw with rfl | hw
    · exact ((wrAll_kept p words (s.wr p w.1 w.2) h4').rd w.1 (h4 w (List.mem_cons_self ..)) hd.1).trans (rd_wr_self ..)
    · exact ih (s.wr p y.1 y.2) h4' hd.2 w hw

theorem wrAll_only (p : Page) (words : List (Nat × Nat)) : ∀ s : State, OnlyRegs s (s.wrAll p words) := by
  induction words with
  | nil => exact fun s => rfl
  | cons w words ih => exact fun s => (wr_only s p w.1 w.2).trans (ih _)

theorem raise_rdB_self (s : State) (p : Page) (n code queue addr : Nat) (detail : List Nat) (hn : n < 32) : (raise s p n code queue addr detail).rdB p 0x18 n = true :=
  (raise_flagged s p n code queue addr detail hn).rdB

/-- A flag that is set stays set when another is raised. -/
theorem raise_rdB_of (s : State) (p : Page) {m : Nat} (n code queue addr : Nat) (detail : List Nat) (hn : n < 32) (h : s.rdB p 0x18 m = true) :
    (raise s p n code queue addr detail).rdB p 0x18 m = true := by
  obtain ⟨hflags, -⟩ := raise_flagged s p n code queue addr detail hn
  rw [State.rdB, bit] at h ⊢
  rw [hflags, Nat.testBit_or, h, Bool.true_or]

/-! Tiles. -/

@[simp] theorem tile_setTile_self (s : State) (t : Nat) (x : Tile) : (s.setTile t x).tile t = x := fget_fset_self _ _ _ _

theorem tile_setTile_ne (s : State) {t k : Nat} (x : Tile) (h : k ≠ t) : (s.setTile t x).tile k = s.tile k := fget_fset_ne _ _ _ h

@[simp] theorem tile_modTile_self (s : State) (t : Nat) (f : Tile → Tile) : (s.modTile t f).tile t = f (s.tile t) := tile_setTile_self ..

theorem tile_modTile_ne (s : State) {t k : Nat} (f : Tile → Tile) (h : k ≠ t) : (s.modTile t f).tile k = s.tile k := tile_setTile_ne s _ h

theorem tile_congr {s t : State} (h : t.tiles = s.tiles) (k : Nat) : t.tile k = s.tile k := by simp only [State.tile, h]

/-- What follows a change of registers, the error log, tiles and commands only. -/
def OnlyTileWork (s t : State) : Prop := t = { s with regs := t.regs, log := t.log, tiles := t.tiles, cmds := t.cmds }

theorem OnlyTileWork.trans {s t u : State} (h : OnlyTileWork s t) (k : OnlyTileWork t u) : OnlyTileWork s u := by
  unfold OnlyTileWork at *
  rw [k, h]

theorem OnlyRegsLog.toTileWork {s t : State} (h : OnlyRegsLog s t) : OnlyTileWork s t := by
  unfold OnlyRegsLog at h
  rw [h]; rfl

theorem OnlyRegs.toTileWork {s t : State} (h : OnlyRegs s t) : OnlyTileWork s t := h.toLog.toTileWork

theorem setTile_only (s : State) (t : Nat) (x : Tile) : OnlyTileWork s (s.setTile t x) := rfl

theorem cmdFault_only (s : State) (uid : Nat) (f : CmdFault) : OnlyTileWork s (cmdFault s uid f) := rfl

/-! The end of a block (R143, R176, R177). -/

theorem tileNumFault_only (s : State) (t code : Nat) : OnlyRegs s (tileNumFault s t code) := by
  unfold tileNumFault
  split
  · exact wr_only ..
  · rfl

theorem tileNumFault_kept (s : State) (t code : Nat) : WordsKept (pTile t) s (tileNumFault s t code) [0x6DC] := by
  unfold tileNumFault
  split
  · exact inc_wordsKept s (by decide) 1
  · exact ⟨fun _ _ _ => rfl⟩

section
variable (s : State) (t code grp lanes pc block addr queue : Nat)

/-- The words that a thread fault latches (R176). -/
def gfWords : List (Nat × Nat) :=
  [(0x210, code + grp * 256 + 2 ^ 31), (0x214, lanes), (0x218, pc), (0x21C, block), (0x220, addr), (0x224, addr / 2 ^ 32), (0x228, queue)]

theorem gfWords_aligned : ∀ w ∈ gfWords code grp lanes pc block addr queue, w.1 % 4 = 0 := by
  simp [gfWords]

theorem gfWords_offsets : (gfWords code grp lanes pc block addr queue).map (fun w => w.1) = [0x210, 0x214, 0x218, 0x21C, 0x220, 0x224, 0x228] := rfl

theorem latchGF_free (hfree : s.rdB (pTile t) 0x210 31 = false) :
    latchGF s t code grp lanes pc block addr queue = s.wrAll (pTile t) (gfWords code grp lanes pc block addr queue) := by
  rw [latchGF, hfree, if_neg Bool.false_ne_true]
  rfl

theorem latchGF_used (hused : s.rdB (pTile t) 0x210 31 = true) : latchGF s t code grp lanes pc block addr queue = s.inc (pTile t) 0x22C 1 := by
  rw [latchGF, hused, if_pos rfl]

theorem latchGF_only : OnlyRegs s (latchGF s t code grp lanes pc block addr queue) := by
  cases hlatch : s.rdB (pTile t) 0x210 31 with
  | true => rw [latchGF_used _ _ _ _ _ _ _ _ _ hlatch]; exact wr_only ..
  | false => rw [latchGF_free _ _ _ _ _ _ _ _ _ hlatch]; exact wrAll_only ..

theorem latchGF_kept : WordsKept (pTile t) s (latchGF s t code grp lanes pc block addr queue) [0x22C, 0x210, 0x214, 0x218, 0x21C, 0x220, 0x224, 0x228] := by
  cases hlatch : s.rdB (pTile t) 0x210 31 with
  | true =>
    rw [latchGF_used _ _ _ _ _ _ _ _ _ hlatch]
    exact (inc_wordsKept s (by decide) 1).mono (by decide)
  | false =>
    rw [latchGF_free _ _ _ _ _ _ _ _ _ hlatch]
    exact (wrAll_kept _ _ s (gfWords_aligned _ _ _ _ _ _ _)).mono (by rw [gfWords_offsets]; decide)

/-- A free latch takes the fault. -/
theorem latchGF_takes (hfree : s.rdB (pTile t) 0x210 31 = false) :
    let u := latchGF s t code grp lanes pc block addr queue
    let p := pTile t
    u.rd p 0x210 = (code + 256 * grp + 2 ^ 31) % 2 ^ 32 ∧ u.rd p 0x214 = lanes % 2 ^ 32 ∧ u.rd p 0x218 = pc % 2 ^ 32
      ∧ u.rd p 0x21C = block % 2 ^ 32 ∧ u.rd64 p 0x220 = addr % 2 ^ 64 ∧ u.rd p 0x228 = queue % 2 ^ 32 := by
  simp only [latchGF_free _ _ _ _ _ _ _ _ _ hfree]
  have hrd := rd_wrAll (pTile t) (gfWords code grp lanes pc block addr queue) s (gfWords_aligned _ _ _ _ _ _ _) (by rw [gfWords_offsets]; decide)
  simp only [gfWords, List.forall_mem_cons] at hrd ⊢
  obtain ⟨hinfo, hlanes, hpc, hblock, haddr, hhigh, hqueue, -⟩ := hrd
  refine ⟨by rw [hinfo, Nat.mul_comm grp], hlanes, hpc, hblock, ?_, hqueue⟩
  rw [State.rd64, haddr, hhigh]
  omega

/-- A latch in use keeps what it holds and counts the fault as lost. -/
theorem latchGF_counts (hused : s.rdB (pTile t) 0x210 31 = true) :
    let u := latchGF s t code grp lanes pc block addr queue
    u.rd (pTile t) 0x210 = s.rd (pTile t) 0x210 ∧ u.rd (pTile t) 0x22C = (s.rd (pTile t) 0x22C + 1) % 2 ^ 32 := by
  simp only [latchGF_used _ _ _ _ _ _ _ _ _ hused]
  exact ⟨(inc_wordsKept s (by decide) 1).rd _ (by decide) (by decide), rd_wr_self ..⟩

end

/-! A block stopped by a fault. -/

section
variable (s : State) (t : Nat) (b : Block) (code grp lanes pc addr : Nat)

/-- The state in which the fault of a block is latched and flagged. -/
def faultNoted : State :=
  raise (latchGF (tileNumFault s t code) t code grp lanes pc b.index addr b.launch.queue) (pTile t) 8 code b.launch.queue addr
    [code + grp * 256 + 2 ^ 31, lanes, pc, b.index]

theorem blockFault_eq : blockFault s t b code grp lanes pc addr
    = endBlock (cmdFault (faultNoted s t b code grp lanes pc addr) b.launch.cmd ⟨code, 1, t, b.index⟩) t b.id := rfl

theorem faultNoted_only : OnlyRegsLog s (faultNoted s t b code grp lanes pc addr) :=
  (((tileNumFault_only s t code).trans (latchGF_only ..)).toLog).trans (raise_only ..)

theorem faultNoted_latch : WordsKept (pTile t) (latchGF (tileNumFault s t code) t code grp lanes pc b.index addr b.launch.queue)
    (faultNoted s t b code grp lanes pc addr) [0x18, 0x7A0, 0x1C] := raise_wordsKept ..

/-- The words that the fault of a block may change, but for TG_DONE. -/
def faultWords : List Nat := [0x6DC, 0x22C, 0x210, 0x214, 0x218, 0x21C, 0x220, 0x224, 0x228, 0x18, 0x7A0, 0x1C]

theorem faultNoted_kept : WordsKept (pTile t) s (faultNoted s t b code grp lanes pc addr) faultWords :=
  ((tileNumFault_kept s t code).trans (latchGF_kept ..)).trans (faultNoted_latch ..)

theorem endBlock_tiles (id : Nat) : (endBlock s t id).tiles = (s.modTile t (fun T => { T with blocks := T.blocks.filter (fun b => decide (b.id ≠ id)) })).tiles :=
  State.inc_tiles ..

theorem cmdFault_kept (p : Page) (uid : Nat) (f : CmdFault) : WordsKept p s (cmdFault s uid f) [] := .of_regs rfl

theorem cmdFault_tile (uid k : Nat) (f : CmdFault) : (cmdFault s uid f).tile k = s.tile k := rfl

theorem modTile_kept (f : Tile → Tile) : WordsKept (pTile t) s (s.modTile t f) [] := .of_regs rfl

theorem endBlock_only (id : Nat) : OnlyTileWork s (endBlock s t id) := by
  rw [endBlock, State.modTile, State.inc]
  exact (setTile_only ..).trans (wr_only ..).toTileWork

theorem endBlock_kept (id : Nat) : WordsKept (pTile t) s (endBlock s t id) [0x204] := by
  rw [endBlock]
  exact (modTile_kept s t _).trans (inc_wordsKept _ (show 0x204 % 4 = 0 by decide) 1)

theorem endBlock_done (id : Nat) : (endBlock s t id).rd (pTile t) 0x204 = (s.rd (pTile t) 0x204 + 1) % 2 ^ 32 := rd_wr_self ..

theorem endBlock_tile (id : Nat) :
    (endBlock s t id).tile t = { s.tile t with blocks := (s.tile t).blocks.filter (fun b => decide (b.id ≠ id)) } := by
  rw [tile_congr (endBlock_tiles s t id), tile_modTile_self]

theorem endBlock_tile_ne (id : Nat) {k : Nat} (h : k ≠ t) : (endBlock s t id).tile k = s.tile k := by
  rw [tile_congr (endBlock_tiles s t id), tile_modTile_ne _ _ h]

theorem endBlock_block (id : Nat) : ((endBlock s t id).tile t).block id = none := by
  rw [endBlock_tile, Tile.block, List.find?_eq_none]
  intro b hb
  simpa using (List.mem_filter.mp hb).2

theorem blockFault_only : OnlyTileWork s (blockFault s t b code grp lanes pc addr) := by
  rw [blockFault_eq]
  exact ((faultNoted_only s t b code grp lanes pc addr).toTileWork.trans (cmdFault_only ..)).trans (endBlock_only ..)

theorem blockFault_done : (blockFault s t b code grp lanes pc addr).rd (pTile t) 0x204 = (s.rd (pTile t) 0x204 + 1) % 2 ^ 32 := by
  rw [blockFault_eq, endBlock_done, (cmdFault_kept ..).rd 0x204 (by decide) (by decide), (faultNoted_kept ..).rd 0x204 (by decide) (by decide)]

/-- A word of the latch reads as the latch leaves it. -/
theorem blockFault_rd {a : Nat} (ha : a % 4 = 0) (hn : a ∉ [0x18, 0x7A0, 0x1C, 0x204]) : (blockFault s t b code grp lanes pc addr).rd (pTile t) a
    = (latchGF (tileNumFault s t code) t code grp lanes pc b.index addr b.launch.queue).rd (pTile t) a := by
  have hkept := ((faultNoted_latch s t b code grp lanes pc addr).trans (cmdFault_kept _ _ b.launch.cmd ⟨code, 1, t, b.index⟩)).trans (endBlock_kept _ t b.id)
  exact hkept.rd a ha hn

theorem blockFault_flag {n : Nat} (h : s.rdB (pTile t) 0x18 n = true ∨ n = 8) : (blockFault s t b code grp lanes pc addr).rdB (pTile t) 0x18 n = true := by
  rw [blockFault_eq, (endBlock_kept ..).rdB (by decide) (by decide), (cmdFault_kept ..).rdB (by decide) (by decide), faultNoted]
  rcases h with h | rfl
  · refine raise_rdB_of _ _ 8 _ _ _ _ (by decide) ?_
    rwa [(latchGF_kept ..).rdB (by decide) (by decide), (tileNumFault_kept ..).rdB (by decide) (by decide)]
  · exact raise_rdB_self _ _ 8 _ _ _ _ (by decide)

theorem blockFault_cmds : (blockFault s t b code grp lanes pc addr).cmds
    = lupdate (fun c => decide (c.uid = b.launch.cmd)) (fun c => { c with fault := c.fault <|> some ⟨code, 1, t, b.index⟩ }) s.cmds := by
  have hcmds : (faultNoted s t b code grp lanes pc addr).cmds = s.cmds := by rw [faultNoted_only s t b code grp lanes pc addr]
  rw [blockFault_eq, endBlock, State.inc_cmds, State.modTile_cmds, cmdFault, hcmds]

theorem faultNoted_tile (uid k : Nat) (f : CmdFault) : (cmdFault (faultNoted s t b code grp lanes pc addr) uid f).tile k = s.tile k := by
  have htiles : (faultNoted s t b code grp lanes pc addr).tiles = s.tiles := by rw [faultNoted_only s t b code grp lanes pc addr]
  rw [cmdFault_tile, tile_congr htiles]

theorem blockFault_tile : (blockFault s t b code grp lanes pc addr).tile t
    = { s.tile t with blocks := (s.tile t).blocks.filter (fun x => decide (x.id ≠ b.id)) } := by
  rw [blockFault_eq, endBlock_tile, faultNoted_tile]

theorem blockFault_tile_ne {k : Nat} (h : k ≠ t) : (blockFault s t b code grp lanes pc addr).tile k = s.tile k := by
  rw [blockFault_eq, endBlock_tile_ne _ _ _ h, faultNoted_tile]

theorem blockFault_block : ((blockFault s t b code grp lanes pc addr).tile t).block b.id = none := by rw [blockFault_eq, endBlock_block]

/-- A free latch takes the fault of the block. -/
theorem blockFault_takes (hfree : s.rdB (pTile t) 0x210 31 = false) :
    let u := blockFault s t b code grp lanes pc addr
    let p := pTile t
    u.rd p 0x210 = (code + 256 * grp + 2 ^ 31) % 2 ^ 32 ∧ u.rd p 0x214 = lanes % 2 ^ 32 ∧ u.rd p 0x218 = pc % 2 ^ 32
      ∧ u.rd p 0x21C = b.index % 2 ^ 32 ∧ u.rd64 p 0x220 = addr % 2 ^ 64 ∧ u.rd p 0x228 = b.launch.queue % 2 ^ 32 := by
  have hrd := fun a ha hn => blockFault_rd s t b code grp lanes pc addr (a := a) ha hn
  simp only [State.rd64, hrd _ (show 0x210 % 4 = 0 by decide) (by decide), hrd _ (show 0x214 % 4 = 0 by decide) (by decide),
    hrd _ (show 0x218 % 4 = 0 by decide) (by decide), hrd _ (show 0x21C % 4 = 0 by decide) (by decide), hrd _ (show 0x220 % 4 = 0 by decide) (by decide),
    hrd _ (show (0x220 + 4) % 4 = 0 by decide) (by decide), hrd _ (show 0x228 % 4 = 0 by decide) (by decide)]
  exact latchGF_takes (tileNumFault s t code) t code grp lanes pc b.index addr b.launch.queue (by rwa [(tileNumFault_kept ..).rdB (by decide) (by decide)])

/-- A latch in use keeps what it holds and counts the fault of the block as lost. -/
theorem blockFault_counts (hused : s.rdB (pTile t) 0x210 31 = true) :
    let u := blockFault s t b code grp lanes pc addr
    u.rd (pTile t) 0x210 = s.rd (pTile t) 0x210 ∧ u.rd (pTile t) 0x22C = (s.rd (pTile t) 0x22C + 1) % 2 ^ 32 := by
  have hrd := fun a ha hn => blockFault_rd s t b code grp lanes pc addr (a := a) ha hn
  simp only [hrd _ (show 0x210 % 4 = 0 by decide) (by decide), hrd _ (show 0x22C % 4 = 0 by decide) (by decide)]
  have h := latchGF_counts (tileNumFault s t code) t code grp lanes pc b.index addr b.launch.queue (by rwa [(tileNumFault_kept ..).rdB (by decide) (by decide)])
  rwa [(tileNumFault_kept ..).rd 0x210 (by decide) (by decide), (tileNumFault_kept ..).rd 0x22C (by decide) (by decide)] at h

end

/-- A fault of the instruction in progress stops its block. -/
theorem threadFault_stopped (tc : TC) (s : State) (code addr : Nat) : Stopped s (threadFault tc s code addr) tc code addr := by
  rw [threadFault]
  unfold Stopped
  refine ⟨?_, blockFault_done .., ?_, blockFault_takes _ _ _ _ _ _ _ _, blockFault_counts _ _ _ _ _ _ _ _, ?_, ?_⟩
  · rw [blockFault_tile]
  · exact blockFault_flag _ _ _ _ _ _ _ _ (.inr rfl)
  · rw [blockFault_cmds]
  · exact blockFault_only ..

/-- A command that answers a fault of the instruction in progress. -/
theorem completes_stopped {c : Instr} {s : State} {tc : TC} {code addr : Nat} (h : exec c s = .next (threadFault tc s code addr)) :
    Completes c s (fun t => Stopped s t tc code addr) := ⟨_, h, threadFault_stopped tc s code addr⟩

end Sys2Proof.Machine
end

section
/-! Exit, trap and faults (O13). -/

namespace Sys2Proof.Machine

open Sys2Proof

theorem exec_exit (gr : GRef) (x : TInstr) (s : State) : exec (.exit gr x) s = execExit gr x s := rfl
theorem exec_trap (gr : GRef) (x : TInstr) (s : State) : exec (.trap gr x) s = execTrap gr x s := rfl

section
variable {s : State} {tc : TC} {code : Nat}

/-- A control instruction whose static checks fail stops its block (R177). -/
theorem ctlOp_fails (hat : ThreadAt s tc.gr tc.x tc) {f : TC → State → State} (hk : firstBad (checksPlain tc) = some code) :
    ctlOp tc.gr tc.x s checksPlain [] f = .next (threadFault tc s code 0) := by
  rw [ctlOp, runThread_eq hat, guardedCtl, hk]
  simp only [badTargetAddr, List.find?_nil, Option.getD_none, ite_self]

theorem laneOp_fails (hat : ThreadAt s tc.gr tc.x tc) {checks : TC → List (Bool × Nat)} {f : TC → Nat → List (Nat × Nat) × NEv}
    (hk : firstBad (checks tc) = some code) : laneOp tc.gr tc.x s checks f = .next (threadFault tc s code 0) := by
  rw [laneOp, runThread_eq hat, guarded, hk]

end

/-! Groups that run on (R153, R156). -/

/-- What decides the next path of a group touches neither its registers and predicates nor the lanes that have left. -/
theorem settle_keeps (n : Nat) : ∀ g : Group, (g.settle n).exited = g.exited ∧ (g.settle n).regs = g.regs ∧ (g.settle n).preds = g.preds
    ∧ (g.settle n).parked = g.parked ∧ (g.settle n).outst = g.outst := by
  induction n with
  | zero => exact fun g => ⟨rfl, rfl, rfl, rfl, rfl⟩
  | succ n ih =>
    intro g
    unfold Group.settle
    split
    · exact ⟨rfl, rfl, rfl, rfl, rfl⟩
    · split
      · dsimp only
        split
        · exact ih _
        · exact ⟨rfl, rfl, rfl, rfl, rfl⟩
      · split
        · exact ⟨rfl, rfl, rfl, rfl, rfl⟩
        · dsimp only
          split
          · exact ih _
          · exact ⟨rfl, rfl, rfl, rfl, rfl⟩

theorem next_keeps (g : Group) : g.next.exited = g.exited ∧ g.next.regs = g.regs ∧ g.next.preds = g.preds ∧ g.next.parked = g.parked ∧ g.next.outst = g.outst :=
  settle_keeps 70 { g with run := none }

theorem exitLanes_keeps (g : Group) (mask n : Nat) :
    (g.exitLanes mask n).exited = g.exited ||| mask ∧ (g.exitLanes mask n).regs = g.regs ∧ (g.exitLanes mask n).preds = g.preds := by
  unfold Group.exitLanes
  simp only
  split
  · exact ⟨rfl, rfl, rfl⟩
  · split
    · obtain ⟨hexited, hregs, hpreds, -⟩ := next_keeps { g with exited := g.exited ||| mask }
      exact ⟨hexited, hregs, hpreds⟩
    · exact ⟨rfl, rfl, rfl⟩

/-- The block that the last exit leaves ends (R143). -/
theorem afterExit_ends {s : State} {t id : Nat} {b : Block} (hb : ((s.modBlock t id (fun b => b.barSettleAll)).tile t).block id = some b)
    (hended : b.ended = true) : afterExit s t id = endBlock (s.modBlock t id (fun b => b.barSettleAll)) t id := by
  rw [afterExit]
  simp only [hb, hended, if_true]

theorem afterExit_only (s : State) (t id : Nat) : afterExit s t id = { s with tiles := (afterExit s t id).tiles, regs := (afterExit s t id).regs } := by
  unfold afterExit
  simp only
  split
  · split
    · rfl
    · rfl
  · rfl

/-- Settles O13: exits by the lanes that leave, faults by what stops a block. -/
theorem exitAndFaults : Obligations.ExitAndFaults := by
  intro s gr x tc hat
  obtain ⟨hgr, hx, -⟩ := threadCtx_spec hat.2
  subst hgr hx
  refine ⟨fun hk hact => ⟨?_, completes_stopped (by rw [exec_trap, execTrap, ctlOp_acts hat hk hact])⟩, fun code hk => ⟨
    completes_stopped (by rw [exec_exit, execExit, ctlOp_fails hat hk]), completes_stopped (by rw [exec_trap, execTrap, ctlOp_fails hat hk]),
    completes_stopped (by rw [exec_nop, execNop, ctlOp_fails hat hk]), completes_stopped (by rw [exec_join, execJoin, ctlOp_fails hat hk]),
    completes_stopped (by rw [exec_ret, execRet, ctlOp_fails hat hk])⟩,
    fun code hk _ => ⟨completes_stopped (laneOp_fails hat hk), completes_stopped (laneOp_fails hat hk)⟩⟩
  obtain ⟨hexited, hregs, hpreds⟩ := exitLanes_keeps tc.grp tc.mask tc.len
  refine ⟨_, by rw [exec_exit, execExit, ctlOp_acts hat hk hact], fun g => g.exitLanes tc.mask tc.len, rfl, hexited, hregs, hpreds, fun b hb hended => ?_, afterExit_only ..⟩
  rw [afterExit_ends hb hended, endBlock_done]
  exact ⟨rfl, endBlock_block ..⟩

end Sys2Proof.Machine
end

section
/-! Issue to the engines (O32) and the return of an outstanding access (O16). -/

namespace Sys2Proof.Machine

open Sys2Proof

theorem exec_issueMx (gr : GRef) (x : TInstr) (s : State) : exec (.issueMx gr x) s = execIssueMx gr x s := rfl
theorem exec_issueVx (gr : GRef) (x : TInstr) (s : State) : exec (.issueVx gr x) s = execIssueVx gr x s := rfl
theorem exec_issueDma (gr : GRef) (x : TInstr) (s : State) : exec (.issueDma gr x) s = execIssueDma gr x s := rfl

section
variable {s : State} {tc : TC} {l : Nat} {ls : List Nat} (hat : ThreadAt s tc.gr tc.x tc) (hk : firstBad (checksIssue tc) = none)
  (hact : tc.act = l :: ls)
include hat hk hact

/-- An issue that passes its checks, by the offset in register a of the lowest active lane (R171). -/
theorem issueOp_answers (n : Nat) (len : Tile → Nat) (push : Desc → Tile → Tile) : issueOp tc.gr tc.x s n len push = .next (
    if tc.get l tc.x.a 1 % 64 ≠ 0 then threadFault tc s 3 (tc.get l tc.x.a 1)
    else if 0x1800000 < tc.get l tc.x.a 1 + n then threadFault tc s 5 (tc.get l tc.x.a 1)
    else if intakeCap s tc.gr.tile ≤ len (s.tile tc.gr.tile) then s
    else (s.setTile tc.gr.tile { push (mkDesc tc s (tc.get l tc.x.a 1) n) (s.tile tc.gr.tile) with
        nextId := (s.tile tc.gr.tile).nextId + 1 }).modGroup tc.gr (fun g => g.advance tc.len)) := by
  rw [issueOp, runThread_eq hat, guarded, hk, hact]
  rfl

/-- What an issue of `n` bytes to an engine of `have_` descriptors does: it enters the intake, waits or stops its block. -/
theorem issueOp_spec {i : Instr} {n : Nat} {len : Tile → Nat} {push : Desc → Tile → Tile} (hi : exec i s = issueOp tc.gr tc.x s n len push) :
    let off : Nat := tc.get l tc.x.a 1
    let T : Tile := s.tile tc.gr.tile
    (off % 64 = 0 → off + n ≤ 0x1800000 → len T < intakeCap s tc.gr.tile → Completes i s (fun t => ∃ (d : Desc) (f : Group → Group),
        d.bytes = s.trd tc.gr.tile off n ∧ d.off = off ∧ d.uid = T.nextId ∧ d.checked = false ∧ d.wait = none ∧ d.extents = tc.blk.launch.extents
        ∧ d.iss = ⟨tc.blk.launch.queue, tc.blk.launch.cmd, some tc.blk.id, tc.blk.index⟩ ∧ d.raw = trawIn s tc.gr.tile off n
        ∧ GoesOn tc (tc.path.pc + tc.len) (f tc.grp) ∧ t = (s.setTile tc.gr.tile { push d T with nextId := T.nextId + 1 }).modGroup tc.gr f))
      ∧ (off % 64 = 0 → off + n ≤ 0x1800000 → intakeCap s tc.gr.tile ≤ len T → Idle i s)
      ∧ (off % 64 ≠ 0 → Completes i s (fun t => Stopped s t tc 3 off))
      ∧ (off % 64 = 0 → 0x1800000 < off + n → Completes i s (fun t => Stopped s t tc 5 off)) := by
  rw [issueOp_answers hat hk hact] at hi
  refine ⟨fun h64 hin hroom => ?_, fun h64 hin hfull => ?_, fun h64 => ?_, fun h64 hout => ?_⟩
  · rw [if_neg (by omega), if_neg (by omega), if_neg (by omega)] at hi
    exact ⟨_, hi, mkDesc tc s (tc.get l tc.x.a 1) n, fun g => g.advance tc.len, rfl, rfl, rfl, rfl, rfl, rfl, rfl, rfl, goesOn_advance hat, rfl⟩
  · rwa [if_neg (by omega), if_neg (by omega), if_pos hfull] at hi
  · rw [if_pos h64] at hi
    exact completes_stopped hi
  · rw [if_neg (by omega), if_pos hout] at hi
    exact completes_stopped hi

end

/-- Settles O32: each issue by the offset of its descriptor and the places left in its intake. -/
theorem issues : Obligations.Issues := by
  intro s gr x tc l ls hat hk hact
  obtain ⟨hgr, hx, -⟩ := threadCtx_spec hat.2
  subst hgr hx
  exact ⟨issueOp_spec hat hk hact (by rw [exec_issueMx, execIssueMx]), issueOp_spec hat hk hact (by rw [exec_issueVx, execIssueVx]),
    issueOp_spec hat hk hact (by rw [exec_issueDma, execIssueDma])⟩

/-! The return of an outstanding access (R178). -/

section
variable {s : State} {gr : GRef} {b : Block} {g : Group} {a : Access} (ht : gr.tile < 160) (hon : tileOn s gr.tile = true)
  (hb : (s.tile gr.tile).block gr.blk = some b) (hg : b.groups[gr.grp]? = some g) (ha : a ∈ g.outst) (huniq : ∀ y ∈ g.outst, y.id = a.id → y = a)
  (hdone : a.remote = 0)

include huniq ha hdone in
/-- The access that an id names. -/
theorem find_outst : g.outst.find? (fun y => decide (y.id = a.id) && decide (y.remote = 0)) = some a := by
  cases hfind : g.outst.find? (fun y => decide (y.id = a.id) && decide (y.remote = 0)) with
  | none => exact absurd (List.find?_eq_none.mp hfind a ha) (by simp [hdone])
  | some y =>
    have hy := List.find?_some hfind
    rw [Bool.and_eq_true, decide_eq_true_eq] at hy
    rw [huniq y (List.mem_of_find?_eq_some hfind) hy.1]

include ht hon hb hg ha huniq hdone in
theorem accessResponse_answers : exec (.globalAccessResponse gr a.id) s = .next (accessReturn s gr b a) := by
  have hexec : exec (.globalAccessResponse gr a.id) s = execGlobalAccessResponse gr a.id s := rfl
  rw [hexec, execGlobalAccessResponse, onUnit, if_pos (decide_eq_true ht)]
  simp only [hb, hg, find_outst ha huniq hdone, hon, if_true]

end

/-- The group after an access's results have arrived. -/
def Group.returned (g : Group) (a : Access) : Group :=
  { g.applyWrites (a.writes.map (fun w => (w.1, w.2.toNat))) with outst := g.outst.filter (fun y => decide (y.id ≠ a.id)) }

theorem returned_only (g : Group) (a : Access) : g.returned a = { g with regs := (g.returned a).regs, outst := (g.returned a).outst } := by
  rw [Group.returned, applyWrites_only]

theorem reg_returned_out (g : Group) {a : Access} {l r : Nat} (h : ∀ p ∈ a.writes, p.1 ≠ 32 * r + l) : (g.returned a).reg l r = g.reg l r := by
  refine applyWrites_out _ l r g fun y hy => ?_
  obtain ⟨p, hp, rfl⟩ := List.mem_map.mp hy
  exact h p hp

theorem reg_returned_in (g : Group) {a : Access} {l r : Nat} {v : Word} (hd : (a.writes.map (fun p => p.1)).Nodup) (hv : (32 * r + l, v) ∈ a.writes) :
    (g.returned a).reg l r = v.toNat := by
  refine applyWrites_in _ l r v.toNat g (List.mem_map.mpr ⟨_, List.mem_map.mpr ⟨_, hv, rfl⟩, rfl⟩) fun y hy hkey => ?_
  obtain ⟨p, hp, rfl⟩ := List.mem_map.mp hy
  obtain rfl : p = (32 * r + l, v) := List.inj_on_of_nodup_map hd hp hv hkey
  exact Nat.mod_eq_of_lt v.isLt

theorem accessReturn_writes {s : State} {gr : GRef} {b : Block} {a : Access} (h : a.fault = none) : accessReturn s gr b a = s.modGroup gr (fun g => g.returned a) := by
  rw [accessReturn, h]; rfl

theorem accessReturn_faults {s : State} {gr : GRef} {b : Block} {a : Access} {code addr : Nat} (h : a.fault = some (code, addr)) :
    accessReturn s gr b a = blockFault s gr.tile b code gr.grp a.lanes a.pc addr := by
  rw [accessReturn, h]

/-- Settles O16: the access's writes, or the fault of its block. -/
theorem accessReturns : Obligations.AccessReturns := by
  intro s gr b g a ht hon hb hg ha huniq hdone
  have hanswer := accessResponse_answers ht hon hb hg ha huniq hdone
  refine ⟨fun hok => ⟨_, hanswer, fun g => g.returned a, rfl, fun l r _ h => reg_returned_out g h, fun l r v _ hd hv => reg_returned_in g hd hv,
    returned_only g a, accessReturn_writes hok⟩, fun code addr hfault => ⟨_, hanswer, ?_⟩⟩
  rw [accessReturn_faults hfault]
  exact ⟨blockFault_block .., blockFault_flag _ _ _ _ _ _ _ _ (.inr rfl), blockFault_done .., blockFault_only ..⟩

end Sys2Proof.Machine
end

section
/-! Launches on a tile (O35): delivery, and what the start of a block leaves. -/

namespace Sys2Proof.Machine

open Sys2Proof

/-! Writes of one entry. -/

section
variable {α : Type}

theorem ferase_ferase (m : FMap α) (k : Nat) : ferase (ferase m k) k = ferase m k := by
  induction m with
  | nil => rfl
  | cons y m ih =>
    obtain ⟨j, v⟩ := y
    by_cases h : j = k
    · rw [ferase, if_pos h, ih]
    · rw [ferase, if_neg h, ferase, if_neg h, ih]

theorem ferase_finsert (m : FMap α) (k : Nat) (v : α) : ferase (finsert m k v) k = ferase m k := by
  induction m with
  | nil => simp only [finsert, ferase, if_true]
  | cons y m ih =>
    obtain ⟨j, w⟩ := y
    rw [finsert]
    split
    · rw [ferase, if_pos rfl]
    · rw [ferase, ferase, ih]

/-- The later of two writes of an entry stands. -/
theorem fset_fset [DecidableEq α] (d : Nat → α) (m : FMap α) (k : Nat) (v w : α) : fset d (fset d m k v) k w = fset d m k w := by
  have herase : ferase (fset d m k v) k = ferase m k := by
    unfold fset
    split
    · exact ferase_ferase m k
    · rw [ferase_finsert, ferase_ferase]
  unfold fset at herase ⊢
  rw [herase]

end

theorem setTile_setTile (s : State) (t : Nat) (x y : Tile) : (s.setTile t x).setTile t y = s.setTile t y := by
  simp only [State.setTile, fset_fset]

theorem modTile_modTile (s : State) (t : Nat) (f g : Tile → Tile) : (s.modTile t f).modTile t g = s.modTile t (fun T => g (f T)) := by
  simp only [State.modTile, setTile_setTile, tile_setTile_self]

theorem mem_lupdate_of {β : Type} {p : β → Bool} {f : β → β} {l : List β} {y : β} (hy : y ∈ l) (h : p y = true) : f y ∈ lupdate p f l :=
  List.mem_map.mpr ⟨y, hy, if_pos h⟩

theorem mem_lupdate_off {β : Type} {p : β → Bool} {f : β → β} {l : List β} {y : β} (hy : y ∈ l) (h : p y = false) : y ∈ lupdate p f l :=
  List.mem_map.mpr ⟨y, hy, if_neg (by rw [h]; exact Bool.false_ne_true)⟩

/-! Delivery (R145). -/

section
variable {s : State} {t : Nat} {a : Arrive} {rest : List Arrive}

theorem launchDelivery_answers (ht : t < 160) (harr : (s.tile t).arriving = a :: rest) : exec (.launchDelivery t) s = .next (
    if !alive s || !tilePowered s t then s
    else if !boundUnder s (pTile t) a.gen a.epoch then cmdFault (s.modTile t (fun T => { T with arriving := rest })) a.uid ⟨0x34, 0, t, 0x10⟩
    else if launchBad a then launchFault (raise (s.modTile t (fun T => { T with arriving := rest })) (pTile t) 11 0x15 a.queue) a.uid t
    else (s.modTile t (fun T => { T with arriving := rest })).modTile t (fun T => { T with launches := T.launches ++ [mkLaunch s T.nextId a], nextId := T.nextId + 1 })) := by
  have hexec : exec (.launchDelivery t) s = execLaunchDelivery t s := rfl
  rw [hexec, execLaunchDelivery, onUnit, if_pos (decide_eq_true ht), harr]

theorem launchDelivery_waits (ht : t < 160) (hoff : alive s = false ∨ tilePowered s t = false) : Idle (.launchDelivery t) s := by
  cases harr : (s.tile t).arriving with
  | nil =>
    have hexec : exec (.launchDelivery t) s = execLaunchDelivery t s := rfl
    rw [Idle, hexec, execLaunchDelivery, onUnit, if_pos (decide_eq_true ht), harr]
  | cons a rest =>
    have hwait : (!alive s || !tilePowered s t) = true := by rcases hoff with h | h <;> simp [h]
    rw [Idle, launchDelivery_answers ht harr, if_pos hwait]

/-- A refused launch: the tile drops it, flags it and leaves its command at fault. -/
theorem launchFault_spec {s u : State} {t : Nat} {f : Tile → Tile} (hflag : Flagged (s.modTile t f) u (pTile t) 11) (honly : OnlyRegsLog (s.modTile t f) u) (uid : Nat) :
    let v := launchFault u uid t
    Flagged s v (pTile t) 11 ∧ v.tile t = f (s.tile t) ∧ v = { s with tiles := v.tiles, cmds := v.cmds, regs := v.regs, log := v.log } := by
  have htiles : u.tiles = (s.modTile t f).tiles := by rw [honly]
  refine ⟨Flagged.congr (fun _ _ => rfl) rfl rfl hflag, (tile_congr htiles t).trans (tile_modTile_self s t f), ?_⟩
  unfold OnlyRegsLog at honly
  rw [honly]
  rfl

/-- What LAUNCH_INVALID leaves of a command: its fault is 0x15 and names a tile no higher. -/
theorem launchFault_cmds (s : State) (uid t : Nat) : (∀ c ∈ (launchFault s uid t).cmds, c.uid = uid → ∃ f, c.fault = some f ∧ f.code = 0x15 ∧ f.tile ≤ t)
    ∧ (∀ c, c.uid ≠ uid → (c ∈ (launchFault s uid t).cmds ↔ c ∈ s.cmds)) := by
  have hmem : ∀ c, c ∈ (launchFault s uid t).cmds ↔ ∃ d ∈ s.cmds, (if decide (d.uid = uid) = true then { d with fault := match d.fault with
      | some f => if f.code = 0x15 ∧ f.tile ≤ t then some f else some ⟨0x15, 1, t, 0⟩
      | none => some ⟨0x15, 1, t, 0⟩ } else d) = c := fun c => List.mem_map
  refine ⟨fun c hc huid => ?_, fun c huid => ⟨fun hc => ?_, fun hc => ?_⟩⟩
  · obtain ⟨d, -, rfl⟩ := (hmem c).mp hc
    by_cases hd : d.uid = uid
    · rw [if_pos (decide_eq_true hd)]
      dsimp only
      split
      · split
        · next f _ hf => exact ⟨f, rfl, hf⟩
        · exact ⟨_, rfl, rfl, Nat.le_refl t⟩
      · exact ⟨_, rfl, rfl, Nat.le_refl t⟩
    · rw [if_neg (by simpa using hd)] at huid
      exact absurd huid hd
  · obtain ⟨d, hd, rfl⟩ := (hmem c).mp hc
    by_cases hdu : d.uid = uid
    · rw [if_pos (decide_eq_true hdu)] at huid
      exact absurd hdu huid
    · rwa [if_neg (by simpa using hdu)]
  · exact (hmem c).mpr ⟨c, hc, if_neg (by simpa using huid)⟩

end

/-! The start of a block (R142). -/

/-- A group that starts on a core. -/
def groupOn (entry core : Nat) : Group := ⟨core, 0, some ⟨allLanes, entry, []⟩, [], [], [], 0, [], [], []⟩

/-- The next block of a launch, with its groups on `cores`. -/
def blockOf (T : Tile) (l : Launch) (cores : List Nat) : Block :=
  ⟨T.nextId, l, l.blockBase + l.started, cores.map (groupOn l.entry), List.replicate 8 ⟨[], none, 0, false, [], []⟩⟩

/-- The launches of a tile without `l`, whose last block starts. -/
def launchesWithout (now : Nat) (T : Tile) (l : Launch) : List Launch :=
  let rest := T.launches.filter (fun x => decide (x.uid ≠ l.uid))
  if (T.launches.head?).map (fun x => x.uid) = some l.uid then
    match rest with
    | x :: r => { x with since := now, stuck := now, bypass := 0 } :: r
    | [] => []
  else rest

/-- The launches of a tile after `l` has started a block. -/
def launchesAfter (now : Nat) (T : Tile) (l : Launch) : List Launch :=
  if l.started + 1 < l.nblocks then lupdate (fun x : Launch => decide (x.uid = l.uid)) (fun _ => { l with started := l.started + 1, stuck := now }) T.launches
  else launchesWithout now T l

/-- The headroom of the dies after `l` has started a block. -/
def headroomAfter (s : State) (t : Nat) (l : Launch) : FMap Int :=
  match heavyOf s t l with
  | some p => fset (fun _ => 0) s.headroom (dieOf t) (fget (fun _ => 0) s.headroom (dieOf t) - pennantDraw p)
  | none => s.headroom

/-- The tile after `l` has started a block on `cores`. -/
def startedTile (now : Nat) (T : Tile) (l : Launch) (cores : List Nat) : Tile :=
  { T with nextId := T.nextId + 1, blocks := T.blocks ++ [blockOf T l cores], launches := launchesAfter now T l }

section
variable {s : State} {t : Nat} {l : Launch} {cores : List Nat} (h : placeGroups (s.tile t) l.nregs l.groups = some cores)
include h

theorem startBlock_eq : startBlock s t l = { s.setTile t (startedTile s.ref (s.tile t) l cores) with headroom := headroomAfter s t l } := by
  rw [startBlock, h, headroomAfter]
  cases heavyOf s t l with
  | none => rfl
  | some p => rfl

theorem startBlock_tile : (startBlock s t l).tile t = startedTile s.ref (s.tile t) l cores := by
  rw [startBlock_eq h]
  exact tile_setTile_self ..

theorem startBlock_tile_ne {k : Nat} (hk : k ≠ t) : (startBlock s t l).tile k = s.tile k := by
  rw [startBlock_eq h]
  exact tile_setTile_ne s _ hk

end

theorem placeGroups_length {T : Tile} {nregs n : Nat} {cores : List Nat} (h : placeGroups T nregs n = some cores) : cores.length = n := by
  unfold placeGroups at h
  simp only at h
  split at h
  · next hle =>
    rw [← Option.some.inj h, List.length_take]
    omega
  · exact absurd h (by simp)

/-- Every group of a block that starts has zeroed registers and all its lanes at the entry point. -/
theorem blockOf_groups (T : Tile) (l : Launch) (cores : List Nat) : ∀ g ∈ (blockOf T l cores).groups, g.regs = [] ∧ g.preds = [] ∧ g.exited = 0
    ∧ g.run = some ⟨allLanes, l.entry, []⟩ ∧ g.ready = [] ∧ g.parked = [] ∧ g.splits = [] ∧ g.outst = [] := by
  intro g hg
  obtain ⟨core, -, rfl⟩ := List.mem_map.mp hg
  exact ⟨rfl, rfl, rfl, rfl, rfl, rfl, rfl, rfl⟩

/-- A launch that has been left behind stays so, with what it has been passed over reset where it comes first. -/
theorem launchesWithout_uid (now : Nat) (T : Tile) (l : Launch) : ∀ y ∈ launchesWithout now T l, y.uid ≠ l.uid := by
  have hrest : ∀ y ∈ T.launches.filter (fun x => decide (x.uid ≠ l.uid)), y.uid ≠ l.uid := fun y hy => of_decide_eq_true (List.mem_filter.mp hy).2
  intro y hy
  unfold launchesWithout at hy
  simp only at hy
  split at hy
  · split at hy
    · next x r hx =>
      rw [hx] at hrest
      rcases List.mem_cons.mp hy with rfl | hy
      · exact hrest x (List.mem_cons_self ..)
      · exact hrest y (List.mem_cons_of_mem _ hy)
    · exact absurd hy List.not_mem_nil
  · exact hrest y hy

/-- Every other launch is kept, with its bypasses or with none. -/
theorem launchesAfter_keeps (now : Nat) {T : Tile} {x k : Launch} (hk : k ∈ T.launches) (hne : x.uid ≠ k.uid) :
    ∃ y ∈ launchesAfter now T x, y.uid = k.uid ∧ y.bypass = k.bypass ∨ y.uid = k.uid ∧ y.bypass = 0 := by
  have hrest : k ∈ T.launches.filter (fun y => decide (y.uid ≠ x.uid)) := List.mem_filter.mpr ⟨hk, decide_eq_true hne.symm⟩
  unfold launchesAfter
  split
  · exact ⟨k, mem_lupdate_off hk (decide_eq_false hne.symm), .inl ⟨rfl, rfl⟩⟩
  · unfold launchesWithout
    simp only
    split
    · split
      · next z r hz =>
        rw [hz] at hrest
        rcases List.mem_cons.mp hrest with rfl | hmem
        · exact ⟨_, List.mem_cons_self .., .inr ⟨rfl, rfl⟩⟩
        · exact ⟨k, List.mem_cons_of_mem _ hmem, .inl ⟨rfl, rfl⟩⟩
      · next hz =>
        rw [hz] at hrest
        exact absurd hrest List.not_mem_nil
    · exact ⟨k, hrest, .inl ⟨rfl, rfl⟩⟩

section
variable {s : State} {t : Nat} {h l : Launch} {rest able : List Launch} (ht : t < 160) (hon : tileOn s t = true)
  (hl : (s.tile t).launches = h :: rest) (hable : (s.tile t).launches.filter (launchFits (s.tile t)) = l :: able)

/-- The earliest launch holds the others (R142). -/
def launchLate (s : State) (t : Nat) (h : Launch) : Bool := !launchFits (s.tile t) h && decide (h.stuck + 10000 ≤ s.ref)

/-- The earliest candidate may be passed over for its draw (14_power_thermal.md R454, R457). -/
def launchHeavy (s : State) (t : Nat) (l : Launch) : Bool :=
  match heavyOf s t l with
  | some p => decide (fget (fun _ => 0) s.headroom (dieOf t) < pennantDraw p)
  | none => false

/-- It has been passed over as often, or has waited as long, as its bounds allow. -/
def launchBound (s : State) (l : Launch) : Bool := decide (s.rdF pPower 0x108 8 8 ≤ l.bypass) || decide (l.since + 1000 * s.rdF pPower 0x108 16 16 ≤ s.ref)

/-- The tile when the earliest candidate has been passed over once more. -/
def passedOver (l : Launch) (T : Tile) : Tile :=
  { T with launches := lupdate (fun y : Launch => decide (y.uid = l.uid)) (fun y => { y with bypass := y.bypass + 1 }) T.launches }

include ht hon hl hable in
theorem blockStart_answers (pass : Bool) : exec (.blockStart t pass) s = .next (
    if launchLate s t h then s
    else if !pass then startBlock s t l
    else if s.rdB pPower 0x108 0 && launchHeavy s t l && !launchBound s l then
      match able.find? (fun x => (heavyOf s t x).isNone) with
      | some x => startBlock (s.modTile t (passedOver l)) t x
      | none => s
    else s) := by
  have hexec : exec (.blockStart t pass) s = execBlockStart t pass s := rfl
  rw [hexec, execBlockStart, onUnit, if_pos (decide_eq_true ht)]
  simp only [hable, hon, Bool.not_true, Bool.false_eq_true, if_false]
  simp only [hl]
  rfl

include ht in
/-- Nothing starts where nothing may. -/
theorem blockStart_idle {pass : Bool} (hidle : ∀ h rest l able, tileOn s t = true → (s.tile t).launches = h :: rest → (s.tile t).launches.filter (launchFits (s.tile t)) = l :: able →
    launchLate s t h = true ∨ pass = true ∧ (s.rdB pPower 0x108 0 && launchHeavy s t l && !launchBound s l) = false) : Idle (.blockStart t pass) s := by
  cases hon : tileOn s t with
  | false =>
    have hexec : exec (.blockStart t pass) s = execBlockStart t pass s := rfl
    rw [Idle, hexec, execBlockStart, onUnit, if_pos (decide_eq_true ht)]
    cases hl : (s.tile t).launches with
    | nil => simp only [hl]
    | cons h rest => simp only [hl, hon, Bool.not_false, if_true]
  | true =>
    cases hable : (s.tile t).launches.filter (launchFits (s.tile t)) with
    | nil =>
      have hexec : exec (.blockStart t pass) s = execBlockStart t pass s := rfl
      rw [Idle, hexec, execBlockStart, onUnit, if_pos (decide_eq_true ht)]
      simp only [hable, ite_self]
      cases (s.tile t).launches with
      | nil => rfl
      | cons h rest => rfl
    | cons l able =>
      cases hl : (s.tile t).launches with
      | nil => rw [hl] at hable; exact absurd hable (by simp)
      | cons h rest =>
        rw [Idle, blockStart_answers ht hon hl hable]
        rcases hidle h rest l able hon hl hable with hlate | ⟨rfl, hno⟩
        · rw [if_pos hlate]
        · rw [hno]; simp

include hable in
/-- The first launch that fits is one of the tile's, and has its cores. -/
theorem able_places : ∀ x ∈ l :: able, x ∈ (s.tile t).launches ∧ ∃ cores, placeGroups (s.tile t) x.nregs x.groups = some cores := by
  intro x hx
  rw [← hable, List.mem_filter, launchFits, Bool.and_eq_true] at hx
  exact ⟨hx.1, Option.isSome_iff_exists.mp hx.2.2⟩

theorem launchLate_false (hmay : launchFits (s.tile t) h = true ∨ s.ref < h.stuck + 10000) : launchLate s t h = false := by
  rcases hmay with hfits | hsoon
  · rw [launchLate, hfits]; rfl
  · rw [launchLate, decide_eq_false (by omega), Bool.and_false]

end

/-- What the start of a block leaves. -/
theorem startBlock_spec {s : State} {t : Nat} {l : Launch} {cores : List Nat} (hmem : l ∈ (s.tile t).launches)
    (h : placeGroups (s.tile t) l.nregs l.groups = some cores) :
    let u := startBlock s t l
    (l.started + 1 < l.nblocks → ∃ y ∈ (u.tile t).launches, y = { l with started := l.started + 1, stuck := s.ref })
      ∧ (l.nblocks ≤ l.started + 1 → ∀ y ∈ (u.tile t).launches, y.uid ≠ l.uid)
      ∧ (heavyOf s t l = none → u.headroom = s.headroom)
      ∧ (∀ p, heavyOf s t l = some p → fget (fun _ => 0) u.headroom (dieOf t) = fget (fun _ => 0) s.headroom (dieOf t) - pennantDraw p)
      ∧ u = { s with tiles := u.tiles, headroom := u.headroom } := by
  simp only [startBlock_tile h, startedTile, launchesAfter]
  refine ⟨fun hmore => ?_, fun hlast => ?_, ?_⟩
  · rw [if_pos hmore]
    exact ⟨_, mem_lupdate_of (p := fun x : Launch => decide (x.uid = l.uid)) hmem (decide_eq_true rfl), rfl⟩
  · rw [if_neg (by omega)]
    exact launchesWithout_uid _ _ _
  · rw [startBlock_eq h]
    refine ⟨fun hlight => ?_, fun p hheavy => ?_, rfl⟩
    · simp only [headroomAfter, hlight]
    · simp only [headroomAfter, hheavy, fget_fset_self]

/-- Settles O35: delivery by the checks of the arriving launch, a start by the candidates. -/
theorem launches : Obligations.Launches := by
  intro s t ht T
  refine ⟨fun a rest harr halive hpow => ?_, launchDelivery_waits ht, fun h rest l able hon hl hable hmay => ?_, fun h rest hl hfits hstuck => ?_,
    fun h rest l able hl hable hno => ?_, fun h rest l able q x hon hl hable hmay hmode hbypass hsince hheavy hroom hfind huid => ?_⟩
  · have hgo : ¬ ((!alive s || !tilePowered s t) = true) := by simp [halive, hpow]
    have hanswer := launchDelivery_answers ht harr
    rw [if_neg hgo] at hanswer
    refine ⟨fun hunbound => ?_, fun hbound hbad => ?_, fun hbound hok => ?_⟩
    · rw [hunbound] at hanswer
      exact ⟨_, hanswer, rfl, tile_setTile_self .., rfl⟩
    · rw [hbound, hbad] at hanswer
      obtain ⟨hflag, htile, honly⟩ := launchFault_spec (s := s) (f := fun T => { T with arriving := rest })
        (raise_flagged _ (pTile t) 11 0x15 a.queue 0 [] (by decide)) (raise_only ..) a.uid
      obtain ⟨hfault, hothers⟩ := launchFault_cmds (raise (s.modTile t (fun T => { T with arriving := rest })) (pTile t) 11 0x15 a.queue 0 []) a.uid t
      refine ⟨_, hanswer, hflag, htile, hfault, fun c hc => (hothers c hc).trans ?_, honly⟩
      have hcmds : (raise (s.modTile t (fun T => { T with arriving := rest })) (pTile t) 11 0x15 a.queue 0 []).cmds = s.cmds := by
        rw [raise_only (s.modTile t (fun T => { T with arriving := rest })) (pTile t) 11 0x15 a.queue 0 []]; rfl
      rw [hcmds]
    · rw [hbound, hok, Bool.not_true, if_neg Bool.false_ne_true, if_neg Bool.false_ne_true, modTile_modTile] at hanswer
      refine ⟨_, hanswer, mkLaunch s T.nextId a, rfl, rfl, rfl, rfl, ?_, rfl, rfl, rfl, ?_, rfl, rfl, rfl, ?_⟩
      · simp [mkLaunch, bits]
      · simp [mkLaunch, bits]
      · rfl
  · obtain ⟨hmem, cores, hcores⟩ := able_places hable l (List.mem_cons_self ..)
    have hanswer := blockStart_answers ht hon hl hable false
    rw [launchLate_false hmay, if_neg Bool.false_ne_true, Bool.not_false, if_pos rfl] at hanswer
    obtain ⟨hmore, hlast, hlight, hdraw, honly⟩ := startBlock_spec hmem hcores
    exact ⟨_, hanswer, blockOf T l cores, by rw [startBlock_tile hcores, startedTile], rfl, rfl, rfl, by rw [blockOf, List.length_map, placeGroups_length hcores], blockOf_groups T l cores,
      hmore, hlast, hlight, hdraw, fun k hk => startBlock_tile_ne hcores hk, honly⟩
  · refine blockStart_idle ht fun h' rest' l able _ hl' _ => .inl ?_
    obtain ⟨rfl, -⟩ := List.cons.inj (hl.symm.trans hl')
    rw [launchLate, hfits, decide_eq_true hstuck]
    rfl
  · refine blockStart_idle ht fun h' rest' l' able' _ _ hable' => .inr ⟨rfl, ?_⟩
    obtain ⟨rfl, -⟩ := List.cons.inj (hable.symm.trans hable')
    rcases hno with hmode | hbypass | hsince | hlight
    · rw [hmode]; rfl
    · rw [launchBound, decide_eq_true hbypass]; simp
    · rw [launchBound, decide_eq_true hsince]; simp
    · rw [launchHeavy, hlight]; simp
  · obtain ⟨hmem, -⟩ := able_places hable l (List.mem_cons_self ..)
    obtain ⟨hxmem, cores, hcores⟩ := able_places hable x (List.mem_cons_of_mem _ (List.mem_of_find?_eq_some hfind))
    have hlight : heavyOf s t x = none := by simpa using List.find?_some hfind
    have hbound : launchBound s l = false := by rw [launchBound, decide_eq_false (by omega), decide_eq_false (by omega)]; rfl
    have hheavy' : launchHeavy s t l = true := by rw [launchHeavy, hheavy]; exact decide_eq_true hroom
    have hanswer := blockStart_answers ht hon hl hable true
    rw [launchLate_false hmay, hmode, hheavy', hbound, hfind, if_neg Bool.false_ne_true, Bool.not_true, if_neg Bool.false_ne_true] at hanswer
    have hplace : placeGroups ((s.modTile t (passedOver l)).tile t) x.nregs x.groups = some cores := by rw [tile_modTile_self]; exact hcores
    have htile := startBlock_tile hplace
    rw [tile_modTile_self] at htile
    obtain ⟨y, hy, hyl⟩ := launchesAfter_keeps s.ref (T := passedOver l T) (x := x) (k := { l with bypass := l.bypass + 1 })
      (mem_lupdate_of (p := fun y : Launch => decide (y.uid = l.uid)) hmem (decide_eq_true rfl)) huid
    refine ⟨startBlock (s.modTile t (passedOver l)) t x, hanswer, blockOf (passedOver l T) x cores, by rw [htile]; rfl, rfl, rfl,
      by rw [blockOf, List.length_map, placeGroups_length hcores], ⟨y, by rw [htile]; exact hy, hyl⟩, ?_⟩
    have hheadroom : headroomAfter (s.modTile t (passedOver l)) t x = s.headroom := by
      have hsame : heavyOf (s.modTile t (passedOver l)) t x = none := hlight
      rw [headroomAfter, hsame]
      rfl
    rw [startBlock_eq hplace, hheadroom]
    exact ⟨rfl, rfl⟩

end Sys2Proof.Machine
end

section
/-! SUPPORT. A block or a group changed in its tile, a stall's report (05_thread_groups.md R173) and an engine's fault (06_matrix_engine.md R205). -/

namespace Sys2Proof.Machine

open Sys2Proof

/-! One element of a list, one block of a tile. -/

theorem lmod_eq_modify {α : Type} (f : α → α) : ∀ (l : List α) (i : Nat), lmod f l i = l.modify i f
  | [], i => by cases i <;> rfl
  | x :: l, 0 => rfl
  | x :: l, i + 1 => by rw [lmod, List.modify_succ_cons, lmod_eq_modify f l i]

theorem getElem?_lmod {α : Type} (f : α → α) (l : List α) (i : Nat) : (lmod f l i)[i]? = l[i]?.map f := by
  rw [lmod_eq_modify, List.getElem?_modify_eq]
  rfl

theorem getElem?_lmod_ne {α : Type} (f : α → α) (l : List α) {i j : Nat} (h : j ≠ i) : (lmod f l i)[j]? = l[j]? := by
  rw [lmod_eq_modify, List.getElem?_modify_ne _ _ h.symm]

section
variable {f : Block → Block} (hid : ∀ b, (f b).id = b.id)
include hid

theorem find?_lupdate_block (id : Nat) (bs : List Block) :
    (lupdate (fun b => decide (b.id = id)) f bs).find? (fun b => decide (b.id = id)) = (bs.find? (fun b => decide (b.id = id))).map f := by
  induction bs with
  | nil => rfl
  | cons b bs ih =>
    have hcons : lupdate (fun b => decide (b.id = id)) f (b :: bs)
        = (if decide (b.id = id) = true then f b else b) :: lupdate (fun b => decide (b.id = id)) f bs := rfl
    rw [hcons]
    by_cases h : b.id = id
    · simp only [List.find?_cons, hid, h, decide_true, if_true, Option.map_some]
    · simp only [List.find?_cons, h, decide_false, Bool.false_eq_true, if_false, ih]

theorem block_modBlock (s : State) (t id : Nat) : ((s.modBlock t id f).tile t).block id = ((s.tile t).block id).map f := by
  rw [State.modBlock, tile_modTile_self]
  exact find?_lupdate_block hid id (s.tile t).blocks

theorem blockIds_modBlock (s : State) (t id : Nat) : ((s.modBlock t id f).tile t).blocks.map (fun b => b.id) = (s.tile t).blocks.map (fun b => b.id) := by
  rw [State.modBlock, tile_modTile_self, lupdate, List.map_map]
  refine List.map_congr_left fun b _ => ?_
  rw [Function.comp_apply]
  split
  · exact hid b
  · rfl

end

/-! The report of a stall (R173). -/

section
variable (s : State) (t kind bar word block queue : Nat) (waiting missing : List Nat)

/-- The lanes of group `w` among the threads of a list. -/
def groupMask (threads : List Nat) (w : Nat) : Nat := maskOf ((threads.filter (fun x => decide (x / 32 = w))).map (fun x => x % 32))

/-- The words that a report latches. -/
def stallWords : List (Nat × Nat) :=
  [(0x240, bar + 8 * kind + 2 ^ 31), (0x244, block), (0x248, word)]
    ++ (List.range 32).flatMap (fun w => [(0x300 + 4 * w, groupMask waiting w), (0x380 + 4 * w, groupMask missing w)])

/-- Their offsets. -/
def stallOffsets : List Nat := [0x240, 0x244, 0x248] ++ (List.range 32).flatMap (fun w => [0x300 + 4 * w, 0x380 + 4 * w])

theorem stallWords_offsets : (stallWords kind bar word block waiting missing).map (fun w => w.1) = stallOffsets := by
  simp [stallWords, stallOffsets, List.map_flatMap]

theorem stallWords_aligned : ∀ w ∈ stallWords kind bar word block waiting missing, w.1 % 4 = 0 := by
  have hoffs : ∀ a ∈ stallOffsets, a % 4 = 0 := by decide
  intro w hw
  exact hoffs w.1 (stallWords_offsets kind bar word block waiting missing ▸ List.mem_map.mpr ⟨w, hw, rfl⟩)

/-- The flag of a stall: BARRIER_STALL or WAIT_STALL. -/
def stallFlag (kind : Nat) : Nat := if kind = 0 then 9 else 10

theorem stallFlag_lt : stallFlag kind < 32 := by unfold stallFlag; split <;> decide

/-- The state in which a report is latched. -/
def stallLatched : State := if s.rdB (pTile t) 0x240 31 then s else s.wrAll (pTile t) (stallWords kind bar word block waiting missing)

theorem stallReport_eq : stallReport s t kind bar word block queue waiting missing
    = raise (stallLatched s t kind bar word block waiting missing) (pTile t) (stallFlag kind) (if kind = 0 then 0x13 else 0x14) queue (sigOff word * kind)
        [bar + 8 * kind + 2 ^ 31, block, word, groupMask waiting 0] := by
  have hwords : ∀ v : State, v.wrAll (pTile t) (stallWords kind bar word block waiting missing)
      = (List.range 32).foldl (fun s w => (s.wr (pTile t) (0x300 + 4 * w) (groupMask waiting w)).wr (pTile t) (0x380 + 4 * w) (groupMask missing w))
          (((v.wr (pTile t) 0x240 (bar + 8 * kind + 2 ^ 31)).wr (pTile t) 0x244 block).wr (pTile t) 0x248 word) := fun v => by
    rw [State.wrAll, stallWords, List.foldl_append, List.foldl_flatMap]
    rfl
  rw [stallReport, stallLatched, hwords]
  rfl

theorem stallLatched_kept : WordsKept (pTile t) s (stallLatched s t kind bar word block waiting missing) stallOffsets := by
  unfold stallLatched
  split
  · exact (WordsKept.of_regs rfl).mono (List.nil_subset _)
  · rw [← stallWords_offsets kind bar word block waiting missing]
    exact wrAll_kept _ _ s (stallWords_aligned _ _ _ _ _ _)

theorem stallLatched_only : OnlyRegs s (stallLatched s t kind bar word block waiting missing) := by
  unfold stallLatched
  split
  · rfl
  · exact wrAll_only ..

theorem stallReport_only : OnlyRegsLog s (stallReport s t kind bar word block queue waiting missing) := by
  rw [stallReport_eq]
  exact (stallLatched_only ..).toLog.trans (raise_only ..)

/-- The words that a report may change. -/
theorem stallReport_kept : WordsKept (pTile t) s (stallReport s t kind bar word block queue waiting missing)
    (stallOffsets ++ [0x18, 0x780 + 4 * stallFlag kind, 0x1C]) := by
  rw [stallReport_eq]
  exact (stallLatched_kept ..).trans (raise_wordsKept ..)

theorem stallReport_flagged : Flagged s (stallReport s t kind bar word block queue waiting missing) (pTile t) (stallFlag kind) := by
  have honly := stallLatched_only s t kind bar word block waiting missing
  rw [stallReport_eq]
  refine Flagged.congr (fun x hx => ?_) (by rw [honly]) (by rw [honly]) (raise_flagged _ (pTile t) (stallFlag kind) _ _ _ _ (stallFlag_lt kind))
  have hkept := stallLatched_kept s t kind bar word block waiting missing
  simp only [flagWords, List.mem_cons, List.not_mem_nil, or_false] at hx
  unfold stallFlag at hx
  rcases hx with rfl | rfl | rfl
  · exact hkept.rd 0x18 (by decide) (by decide)
  · exact hkept.rd 0x1C (by decide) (by decide)
  · split
    · exact hkept.rd 0x7A4 (by decide) (by decide)
    · exact hkept.rd 0x7A8 (by decide) (by decide)

/-- A free report takes the stall. -/
theorem stallReport_takes (hfree : s.rdB (pTile t) 0x240 31 = false) :
    ∀ w ∈ [(0x240, bar + 8 * kind + 2 ^ 31), (0x244, block), (0x248, word)],
      (stallReport s t kind bar word block queue waiting missing).rd (pTile t) w.1 = w.2 % 2 ^ 32 := by
  intro w hw
  have hmem : w ∈ stallWords kind bar word block waiting missing := List.mem_append_left _ hw
  have hoff : w.1 ∉ [0x18, 0x780 + 4 * stallFlag kind, 0x1C] := by
    have hlow : w.1 = 0x240 ∨ w.1 = 0x244 ∨ w.1 = 0x248 := by
      simp only [List.mem_cons, List.not_mem_nil, or_false] at hw
      exact hw.imp (congrArg Prod.fst) (Or.imp (congrArg Prod.fst) (congrArg Prod.fst))
    simp only [List.mem_cons, List.not_mem_nil, or_false]
    omega
  rw [stallReport_eq, (raise_wordsKept ..).rd w.1 (stallWords_aligned _ _ _ _ _ _ w hmem) hoff, stallLatched, hfree, if_neg Bool.false_ne_true]
  exact rd_wrAll _ _ s (stallWords_aligned _ _ _ _ _ _) (by rw [stallWords_offsets]; decide) w hmem

/-- A report in use keeps what it holds. -/
theorem stallReport_used (hused : s.rdB (pTile t) 0x240 31 = true) :
    (stallReport s t kind bar word block queue waiting missing).rd (pTile t) 0x240 = s.rd (pTile t) 0x240 := by
  have hoff : 0x240 ∉ [0x18, 0x780 + 4 * stallFlag kind, 0x1C] := by
    simp only [List.mem_cons, List.not_mem_nil, or_false]
    omega
  rw [stallReport_eq, (raise_wordsKept ..).rd 0x240 (by decide) hoff, stallLatched, hused, if_pos rfl]

end

/-! The fault of an engine's descriptor (06_matrix_engine.md R205). -/

section
variable (s : State) (t info lost : Nat) (words : List (Nat × Nat))

theorem latchEng_free (hfree : s.rdB (pTile t) info 31 = false) : latchEng s t info lost words = s.wrAll (pTile t) words := by
  rw [latchEng, hfree, if_neg Bool.false_ne_true]
  rfl

theorem latchEng_used (hused : s.rdB (pTile t) info 31 = true) : latchEng s t info lost words = s.inc (pTile t) lost 1 := by
  rw [latchEng, hused, if_pos rfl]

theorem latchEng_only : OnlyRegs s (latchEng s t info lost words) := by
  cases hlatch : s.rdB (pTile t) info 31 with
  | true => rw [latchEng_used _ _ _ _ _ hlatch]; exact wr_only ..
  | false => rw [latchEng_free _ _ _ _ _ hlatch]; exact wrAll_only ..

end

section
variable {s u v : State} {t info lost n unit code : Nat} {d : Desc} {words : List (Nat × Nat)}

/-- What else happens on other words leaves an engine's fault as it is. -/
theorem EngineFaulted.after (h : EngineFaulted s u t info lost n unit code d words) {offs : List Nat} (hkept : WordsKept (pTile t) u v offs)
    (haligned : ∀ a ∈ info :: lost :: words.map (fun w => w.1), a % 4 = 0) (hoff : ∀ a ∈ info :: lost :: words.map (fun w => w.1), a ∉ offs)
    (hflag : u.rdB (pTile t) 0x18 n = true → v.rdB (pTile t) 0x18 n = true) (hcmds : v.cmds = u.cmds) (honly : OnlyTileWork u v)
    (htiles : ∀ k, k ≠ t → v.tile k = u.tile k) : EngineFaulted s v t info lost n unit code d words := by
  obtain ⟨hset, hcmd, hfree, hused, hu, hother⟩ := h
  have hrd : ∀ a ∈ info :: lost :: words.map (fun w => w.1), v.rd (pTile t) a = u.rd (pTile t) a := fun a ha => hkept.rd a (haligned a ha) (hoff a ha)
  refine ⟨hflag hset, by rw [CmdFaulted, hcmds]; exact hcmd, fun h31 w hw => ?_, fun h31 => ?_, OnlyTileWork.trans hu honly, fun k hk => (htiles k hk).trans (hother k hk)⟩
  · rw [hrd _ (List.mem_cons_of_mem _ (List.mem_cons_of_mem _ (List.mem_map.mpr ⟨w, hw, rfl⟩)))]
    exact hfree h31 w hw
  · rw [hrd _ (List.mem_cons_self ..), hrd _ (List.mem_cons_of_mem _ (List.mem_cons_self ..))]
    exact hused h31

/-- What happened on other words before an engine's fault leaves it as it is. -/
theorem EngineFaulted.before (h : EngineFaulted u v t info lost n unit code d words) {offs : List Nat} (hkept : WordsKept (pTile t) s u offs)
    (haligned : info % 4 = 0 ∧ lost % 4 = 0) (hoff : info ∉ offs ∧ lost ∉ offs) (hcmds : u.cmds = s.cmds) (honly : OnlyTileWork s u)
    (htiles : ∀ k, k ≠ t → u.tile k = s.tile k) : EngineFaulted s v t info lost n unit code d words := by
  obtain ⟨hset, hcmd, hfree, hused, hv, hother⟩ := h
  rw [hkept.rdB haligned.1 hoff.1] at hfree hused
  rw [hkept.rd info haligned.1 hoff.1, hkept.rd lost haligned.2 hoff.2] at hused
  exact ⟨hset, by rw [CmdFaulted, ← hcmds]; exact hcmd, hfree, hused, OnlyTileWork.trans honly hv, fun k hk => (hother k hk).trans (htiles k hk)⟩

theorem EngineFaulted.subset (h : EngineFaulted s u t info lost n unit code d words) {few : List (Nat × Nat)} (hsub : few ⊆ words) :
    EngineFaulted s u t info lost n unit code d few := by
  obtain ⟨hset, hcmd, hfree, hused, hu, hother⟩ := h
  exact ⟨hset, hcmd, fun h31 w hw => hfree h31 w (hsub hw), hused, hu, hother⟩

end

section
variable (s : State) (t info lost n unit code queue addr : Nat) (d : Desc) (words : List (Nat × Nat)) (detail : List Nat)

/-- The state in which an engine's fault is latched, flagged and kept for its command. -/
def engineNoted : State :=
  cmdFault (raise (latchEng (tileNumFault s t code) t info lost words) (pTile t) n code queue addr detail) d.iss.cmd ⟨code, unit, t, d.iss.index⟩

theorem engineNoted_only : OnlyTileWork s (engineNoted s t info lost n unit code queue addr d words detail) :=
  (((tileNumFault_only s t code).trans (latchEng_only ..)).toLog.trans (raise_only ..)).toTileWork.trans (cmdFault_only ..)

theorem engineNoted_tiles : (engineNoted s t info lost n unit code queue addr d words detail).tiles = s.tiles := by
  have h : OnlyRegsLog s (raise (latchEng (tileNumFault s t code) t info lost words) (pTile t) n code queue addr detail) :=
    ((tileNumFault_only s t code).trans (latchEng_only ..)).toLog.trans (raise_only ..)
  show (raise (latchEng (tileNumFault s t code) t info lost words) (pTile t) n code queue addr detail).tiles = s.tiles
  rw [h]

theorem engineNoted_cmds : CmdFaulted s (engineNoted s t info lost n unit code queue addr d words detail) d.iss.cmd ⟨code, unit, t, d.iss.index⟩ := by
  have h : OnlyRegsLog s (raise (latchEng (tileNumFault s t code) t info lost words) (pTile t) n code queue addr detail) :=
    ((tileNumFault_only s t code).trans (latchEng_only ..)).toLog.trans (raise_only ..)
  have hcmds : (raise (latchEng (tileNumFault s t code) t info lost words) (pTile t) n code queue addr detail).cmds = s.cmds := by rw [h]
  rw [CmdFaulted, ← hcmds]
  rfl

theorem engineNoted_kept : WordsKept (pTile t) (latchEng (tileNumFault s t code) t info lost words)
    (engineNoted s t info lost n unit code queue addr d words detail) [0x18, 0x780 + 4 * n, 0x1C] := by
  have hkept := (raise_wordsKept (p := pTile t) (latchEng (tileNumFault s t code) t info lost words) n code queue addr detail).trans
    (cmdFault_kept _ _ d.iss.cmd ⟨code, unit, t, d.iss.index⟩)
  rwa [List.append_nil] at hkept

theorem engineNoted_flag (hn : n < 32) : (engineNoted s t info lost n unit code queue addr d words detail).rdB (pTile t) 0x18 n = true := by
  rw [engineNoted, (cmdFault_kept ..).rdB (by decide) (List.not_mem_nil)]
  exact raise_rdB_self _ (pTile t) n code queue addr detail hn

/-- An engine's fault, where its registers lie apart from those of its flag. -/
theorem engineNoted_faulted (hn : n < 32) (haligned : ∀ a ∈ info :: lost :: words.map (fun w => w.1), a % 4 = 0)
    (hnum : ∀ a ∈ info :: lost :: words.map (fun w => w.1), a ∉ [0x6DC])
    (hoff : ∀ a ∈ info :: lost :: words.map (fun w => w.1), a ∉ [0x18, 0x780 + 4 * n, 0x1C])
    (hd : (words.map (fun w => w.1)).Nodup) (hne : info ≠ lost) :
    EngineFaulted s (engineNoted s t info lost n unit code queue addr d words detail) t info lost n unit code d words := by
  rw [List.forall_mem_cons, List.forall_mem_cons] at haligned hnum hoff
  have hcount := tileNumFault_kept s t code
  have hkept := engineNoted_kept s t info lost n unit code queue addr d words detail
  have hbusy := hcount.rdB haligned.1 hnum.1 31
  refine ⟨engineNoted_flag _ _ _ _ _ _ _ _ _ _ _ _ hn, engineNoted_cmds .., fun hfree w hw => ?_, fun hused => ?_, engineNoted_only ..,
    fun k _ => tile_congr (engineNoted_tiles ..) k⟩
  · have hmem : w.1 ∈ words.map (fun w => w.1) := List.mem_map.mpr ⟨w, hw, rfl⟩
    rw [hkept.rd w.1 (haligned.2.2 w.1 hmem) (hoff.2.2 w.1 hmem), latchEng_free _ _ _ _ _ (hbusy.trans hfree)]
    exact rd_wrAll _ _ _ (fun w hw => haligned.2.2 _ (List.mem_map.mpr ⟨w, hw, rfl⟩)) hd w hw
  · have hinc := inc_wordsKept (p := pTile t) (tileNumFault s t code) haligned.2.1 1
    rw [hkept.rd info haligned.1 hoff.1, hkept.rd lost haligned.2.1 hoff.2.1, latchEng_used _ _ _ _ _ (hbusy.trans hused),
      hinc.rd info haligned.1 (by simpa using hne), hcount.rd info haligned.1 hnum.1]
    refine ⟨rfl, ?_⟩
    rw [← hcount.rd lost haligned.2.1 hnum.2.1]
    exact rd_wr_self ..

end

end Sys2Proof.Machine
end

section
/-! The watchdog (O36). -/

namespace Sys2Proof.Machine

open Sys2Proof

/-! A stall of a block: its report on what has been marked as reported. -/

section
variable (s : State) (t id kind bar word block queue : Nat) (waiting missing : List Nat) (f : Block → Block)

/-- The state after a stall of a block has been marked and reported. -/
def stalled : State := stallReport (s.modBlock t id f) t kind bar word block queue waiting missing

theorem stalled_tile (k : Nat) : (stalled s t id kind bar word block queue waiting missing f).tile k = (s.modBlock t id f).tile k := by
  have hlog := stallReport_only (s.modBlock t id f) t kind bar word block queue waiting missing
  have htiles : (stalled s t id kind bar word block queue waiting missing f).tiles = (s.modBlock t id f).tiles := by rw [stalled, hlog]
  exact tile_congr htiles k

theorem stalled_tile_ne {k : Nat} (hk : k ≠ t) : (stalled s t id kind bar word block queue waiting missing f).tile k = s.tile k :=
  (stalled_tile ..).trans (tile_modTile_ne s _ hk)

theorem stalled_only : stalled s t id kind bar word block queue waiting missing f
    = { s with regs := (stalled s t id kind bar word block queue waiting missing f).regs, log := (stalled s t id kind bar word block queue waiting missing f).log,
               tiles := (stalled s t id kind bar word block queue waiting missing f).tiles } := by
  have hlog := stallReport_only (s.modBlock t id f) t kind bar word block queue waiting missing
  unfold OnlyRegsLog at hlog
  rw [stalled, hlog]
  rfl

theorem stalled_flagged : Flagged s (stalled s t id kind bar word block queue waiting missing f) (pTile t) (stallFlag kind) :=
  Flagged.congr (fun _ _ => rfl) rfl rfl (stallReport_flagged (s.modBlock t id f) t kind bar word block queue waiting missing)

theorem stalled_kept : WordsKept (pTile t) s (stalled s t id kind bar word block queue waiting missing f) (stallOffsets ++ [0x18, 0x780 + 4 * stallFlag kind, 0x1C]) :=
  (modTile_kept s t _).trans (stallReport_kept (s.modBlock t id f) t kind bar word block queue waiting missing)

theorem stalled_takes (hfree : s.rdB (pTile t) 0x240 31 = false) : let u := stalled s t id kind bar word block queue waiting missing f
    u.rd (pTile t) 0x240 = (bar + 8 * kind + 2 ^ 31) % 2 ^ 32 ∧ u.rd (pTile t) 0x244 = block % 2 ^ 32 ∧ u.rd (pTile t) 0x248 = word % 2 ^ 32 := by
  have htakes := stallReport_takes (s.modBlock t id f) t kind bar word block queue waiting missing hfree
  simp only [List.forall_mem_cons] at htakes
  obtain ⟨hinfo, hblock, hword, -⟩ := htakes
  exact ⟨hinfo, hblock, hword⟩

theorem stalled_used (hused : s.rdB (pTile t) 0x240 31 = true) :
    (stalled s t id kind bar word block queue waiting missing f).rd (pTile t) 0x240 = s.rd (pTile t) 0x240 :=
  stallReport_used (s.modBlock t id f) t kind bar word block queue waiting missing hused

end

section
variable {s u : State} {t : Nat} {b : Block} {code : Nat}

/-- The fault of a block, found where nothing but reports has been made. -/
theorem blockFault_blockStopped (hids : (u.tile t).blocks.map (fun x => x.id) = (s.tile t).blocks.map (fun x => x.id)) (htiles : ∀ k, k ≠ t → u.tile k = s.tile k)
    (honly : OnlyTileWork s u) (hcmds : u.cmds = s.cmds) {offs : List Nat} (hkept : WordsKept (pTile t) s u offs) (hdone : 0x204 ∉ offs) (hlatch : 0x210 ∉ offs)
    (hcode : code < 256) (grp lanes pc addr : Nat) : BlockStopped s (blockFault u t b code grp lanes pc addr) t b code := by
  refine ⟨?_, ?_, blockFault_flag _ _ _ _ _ _ _ _ (.inr rfl), ?_, fun hfree => ?_, honly.trans (blockFault_only ..), fun k hk => (blockFault_tile_ne _ _ _ _ _ _ _ _ hk).trans (htiles k hk)⟩
  · rw [blockFault_tile, ← hids, List.filter_map]
    rfl
  · rw [blockFault_done, hkept.rd 0x204 (by decide) hdone]
  · rw [CmdFaulted, blockFault_cmds, hcmds]
  · rw [(blockFault_takes u t b code grp lanes pc addr ((hkept.rdB (by decide) hlatch 31).trans hfree)).1]
    omega

/-- A stall that stops its block. -/
theorem stalled_blockStopped {f : Block → Block} (hid : ∀ b, (f b).id = b.id) (hcode : code < 256) (kind bar word block queue : Nat) (waiting missing : List Nat)
    (grp lanes pc addr : Nat) : let v := blockFault (stalled s t b.id kind bar word block queue waiting missing f) t b code grp lanes pc addr
    v.rdB (pTile t) 0x18 (stallFlag kind) = true ∧ BlockStopped s v t b code := by
  have hoffs : ∀ a ∈ stallOffsets ++ [0x18, 0x780 + 4 * stallFlag kind, 0x1C], a ∉ [0x204, 0x210] := by
    have hlow : ∀ a ∈ stallOffsets, a ∉ [0x204, 0x210] := by decide
    intro a ha
    rcases List.mem_append.mp ha with ha | ha
    · exact hlow a ha
    · simp only [List.mem_cons, List.not_mem_nil, or_false] at ha ⊢
      omega
  have honly := stalled_only s t b.id kind bar word block queue waiting missing f
  have hcmds : (stalled s t b.id kind bar word block queue waiting missing f).cmds = s.cmds := by rw [honly]
  have hwork : OnlyTileWork s (stalled s t b.id kind bar word block queue waiting missing f) := by rw [OnlyTileWork, hcmds]; exact honly
  refine ⟨blockFault_flag _ _ _ _ _ _ _ _ (.inl (stalled_flagged ..).rdB), blockFault_blockStopped ?_ (fun k hk => stalled_tile_ne _ _ _ _ _ _ _ _ _ _ _ hk) hwork hcmds
    (stalled_kept ..) (fun h => hoffs _ h (by decide)) (fun h => hoffs _ h (by decide)) hcode ..⟩
  rw [stalled_tile]
  exact blockIds_modBlock hid ..

end

/-! A barrier use and a wait at their limits. -/

/-- A block whose barrier use `n` has been reported. -/
def Block.barReported (n : Nat) (b : Block) : Block := { b with bars := lmod (fun x => { x with reported := true }) b.bars n }

/-- A block whose parked path `k` of group `grp` has been reported. -/
def Block.waitReported (grp k : Nat) (b : Block) : Block :=
  { b with groups := lmod (fun g => { g with parked := lmod (fun p => { p with reported := true }) g.parked k }) b.groups grp }

/-- The thread that a report of barrier `n` names, and its offset: the lowest that waits, or else the lowest that has arrived. -/
def Block.stalledThread (b : Block) (n : Nat) (x : Bar) : Nat :=
  ((b.waitingAt n).head?).getD (((x.pcs.map (fun y => y.1)).foldl (fun m u => match m with | none => some u | some v => some (if u < v then u else v)) none).getD 0)

def Block.stalledPc (b : Block) (n : Nat) (x : Bar) : Nat :=
  (b.waitPc n (b.stalledThread n x)).getD (((x.pcs.find? (fun y => decide (y.1 = b.stalledThread n x))).map (fun y => y.2)).getD 0)

/-- The first word that a parked wait still waits for. -/
def waitWord (ls : List LaneWait) : Nat := ((ls.filter (fun y => y.got.isNone)).head?.map (fun y => y.word)).getD 0

theorem barReported_id (n : Nat) (b : Block) : (b.barReported n).id = b.id := rfl

theorem waitReported_id (grp k : Nat) (b : Block) : (b.waitReported grp k).id = b.id := rfl

section
variable {s : State} {t : Nat} (ht : t < 160) (hon : tileOn s t = true)
include ht hon

theorem watchdog_barrier {b : Block} {n : Nat} {x : Bar} {s0 : Nat} (hb : (s.tile t).block b.id = some b) (hx : b.bars[n]? = some x) (hsince : x.since = some s0)
    (hrep : x.reported = false) (hlate : s0 + x.limit ≤ s.ref) : exec (.watchdogExpiry t (.barrier b.id n)) s = .next (
      let s2 := stalled s t b.id 0 n 0 b.index b.launch.queue (b.waitingAt n) (b.live.filter (fun u => decide (x.count u = 0))) (Block.barReported n)
      let grp := b.stalledThread n x / 32
      if s.rdB (pTile t) 0x104 0 then
        blockFault s2 t b 0x13 grp (maskOf (((b.waitingAt n).filter (fun u => decide (u / 32 = grp))).map (fun u => u % 32))) (b.stalledPc n x) 0
      else s2) := by
  have hexec : exec (.watchdogExpiry t (.barrier b.id n)) s = execWatchdogExpiry t (.barrier b.id n) s := rfl
  have hgo : (x.reported || decide (s.ref < s0 + x.limit)) = false := by rw [hrep, decide_eq_false (by omega)]; rfl
  rw [hexec, execWatchdogExpiry, onUnit, if_pos (decide_eq_true ht), hon]
  simp only [Bool.not_true, Bool.false_eq_true, if_false, hb, wdBarrier, hx, hsince, hgo]
  rfl

theorem watchdog_wait {b : Block} {g k d o : Nat} {w : Park} {ls : List LaneWait} {gp : Group} (hb : (s.tile t).block b.id = some b) (hg : b.groups[g]? = some gp)
    (hw : gp.parked[k]? = some w) (hkind : w.kind = .wait d o ls) (hrep : w.reported = false) (hok : w.ok = false) (hen : s.rdB (pTile t) 0x104 2 = true)
    (hlate : w.since + w.limit ≤ s.ref) : exec (.watchdogExpiry t (.wait b.id g k)) s = .next (
      let s2 := stalled s t b.id 1 0 (waitWord ls) b.index b.launch.queue (w.waiting.map (fun l => 32 * g + l)) [] (Block.waitReported g k)
      if s.rdB (pTile t) 0x104 1 then blockFault s2 t b 0x14 g w.path.lanes w.path.pc (sigOff (waitWord ls)) else s2) := by
  have hexec : exec (.watchdogExpiry t (.wait b.id g k)) s = execWatchdogExpiry t (.wait b.id g k) s := rfl
  have hgo : (w.reported || w.ok || !s.rdB (pTile t) 0x104 2 || decide (s.ref < w.since + w.limit)) = false := by
    rw [hrep, hok, hen, decide_eq_false (by omega)]; rfl
  rw [hexec, execWatchdogExpiry, onUnit, if_pos (decide_eq_true ht), hon]
  simp only [Bool.not_true, Bool.false_eq_true, if_false, hb, wdWait, hg, Option.bind_some, hw, hkind, hgo]
  rfl

theorem watchdog_mx {d : Desc} (hin : (s.tile t).mx.intake = [d]) (hlate : engWaitLate s d = true) (hchecked : d.checked = true)
    (hen : s.rdB (pTile t) 0x104 2 = true) : exec (.watchdogExpiry t .mx) s = .next (
      mxAbortWaiting (mxFailHead (stallReport s t 1 0 (d.bf 0x58 0 12) d.iss.index d.iss.queue [] []) t d 0x14 0 0) t) := by
  have hexec : exec (.watchdogExpiry t .mx) s = execWatchdogExpiry t .mx s := rfl
  rw [hexec, execWatchdogExpiry, onUnit, if_pos (decide_eq_true ht), hon]
  simp only [Bool.not_true, Bool.false_eq_true, if_false, hin, hlate, hchecked, hen, Bool.and_true, if_true]

end

theorem OnlyRegsLog.tile {s u : State} (h : OnlyRegsLog s u) (k : Nat) : u.tile k = s.tile k := tile_congr (by rw [h]) k

theorem OnlyRegsLog.cmds {s u : State} (h : OnlyRegsLog s u) : u.cmds = s.cmds := by rw [h]

/-! The matrix engine's head descriptor (06_matrix_engine.md R205). -/

section
variable (s : State) (t : Nat) (d : Desc) (code field addr done : Nat)

/-- The registers that a fault of the matrix engine latches. -/
def mxWords : List (Nat × Nat) :=
  [(0x410, code + 2 ^ 31), (0x414, d.off), (0x418, mxTag d), (0x41C, d.iss.index), (0x420, addr), (0x424, field), (0x428, d.iss.queue), (0x42C, done)]

theorem mxWords_offsets : (mxWords d code field addr done).map (fun w => w.1) = [0x410, 0x414, 0x418, 0x41C, 0x420, 0x424, 0x428, 0x42C] := rfl

/-- The state in which a fault of the matrix engine is latched and flagged. -/
def mxNoted : State :=
  engineNoted s t 0x410 0x430 12 2 code d.iss.queue addr d (mxWords d code field addr done) [code + 2 ^ 31, d.off, mxTag d, d.iss.index]

theorem mxFault_cases : mxFault s t d code field addr done = mxNoted s t d code field addr done
    ∨ ∃ b, mxFault s t d code field addr done
      = raise ((mxNoted s t d code field addr done).modMx t (fun e => { e with halted := e.halted ++ [b] })) (pTile t) 13 0 d.iss.queue := by
  unfold mxFault
  dsimp only
  split
  · next b _ =>
    split
    · exact .inr ⟨b, rfl⟩
    · exact .inl rfl
  · exact .inl rfl

theorem mxNoted_faulted : EngineFaulted s (mxNoted s t d code field addr done) t 0x410 0x430 12 2 code d (mxWords d code field addr done) := by
  refine engineNoted_faulted _ _ _ _ _ _ _ _ _ _ _ _ (by decide) ?_ ?_ ?_ ?_ (by decide)
  · rw [mxWords_offsets]; decide
  · rw [mxWords_offsets]; decide
  · rw [mxWords_offsets]; decide
  · rw [mxWords_offsets]; decide

theorem mxNoted_tile (k : Nat) : (mxNoted s t d code field addr done).tile k = s.tile k := tile_congr (engineNoted_tiles ..) k

theorem modMx_kept (f : MxEng → MxEng) : WordsKept (pTile t) s (s.modMx t f) [] := .of_regs rfl

theorem modMx_tile_ne (f : MxEng → MxEng) {k : Nat} (hk : k ≠ t) : (s.modMx t f).tile k = s.tile k := tile_modTile_ne s _ hk

theorem modMx_tile (f : MxEng → MxEng) : (s.modMx t f).tile t = { s.tile t with mx := f (s.tile t).mx } := tile_modTile_self ..

/-- A change of the matrix engine leaves its fault as it is. -/
theorem EngineFaulted.then_modMx {u : State} {info lost n unit : Nat} {words : List (Nat × Nat)} (h : EngineFaulted s u t info lost n unit code d words) (f : MxEng → MxEng)
    (haligned : ∀ a ∈ info :: lost :: words.map (fun w => w.1), a % 4 = 0) : EngineFaulted s (u.modMx t f) t info lost n unit code d words :=
  h.after (modMx_kept u t f) haligned (fun _ _ => List.not_mem_nil) id rfl (setTile_only ..) (fun _ hk => modMx_tile_ne u t f hk)

/-- HALTED raised behind a fault of the matrix engine leaves it as it is. -/
theorem EngineFaulted.then_halted {u : State} (h : EngineFaulted s u t 0x410 0x430 12 2 code d (mxWords d code field addr done)) (queue : Nat) :
    EngineFaulted s (raise u (pTile t) 13 0 queue) t 0x410 0x430 12 2 code d (mxWords d code field addr done) := by
  have honly := raise_only u (pTile t) 13 0 queue 0 []
  refine h.after (raise_wordsKept u 13 0 queue 0 []) ?_ ?_ (raise_rdB_of u (pTile t) 13 0 queue 0 [] (by decide)) honly.cmds honly.toTileWork
    (fun k _ => honly.tile k)
  · rw [mxWords_offsets]; decide
  · rw [mxWords_offsets]; decide

theorem mxWords_aligned : ∀ a ∈ 0x410 :: 0x430 :: (mxWords d code field addr done).map (fun w => w.1), a % 4 = 0 := by
  rw [mxWords_offsets]; decide

/-- A fault of the matrix engine: the engine's own fault, and what it leaves of the tile. -/
theorem mxFault_spec : EngineFaulted s (mxFault s t d code field addr done) t 0x410 0x430 12 2 code d (mxWords d code field addr done)
    ∧ ∃ h, (mxFault s t d code field addr done).tile t = { s.tile t with mx := { (s.tile t).mx with halted := h } } := by
  rcases mxFault_cases s t d code field addr done with hsame | ⟨b, hhalts⟩
  · rw [hsame]
    exact ⟨mxNoted_faulted .., (s.tile t).mx.halted, mxNoted_tile ..⟩
  · rw [hhalts]
    refine ⟨((mxNoted_faulted s t d code field addr done).then_modMx _ _ _ _ _ (mxWords_aligned _ _ _ _ _)).then_halted .., (s.tile t).mx.halted ++ [b], ?_⟩
    have honly := raise_only ((mxNoted s t d code field addr done).modMx t (fun e => { e with halted := e.halted ++ [b] })) (pTile t) 13 0 d.iss.queue 0 []
    rw [honly.tile, modMx_tile, mxNoted_tile]

theorem latchEng_kept {info lost : Nat} {words : List (Nat × Nat)} (haligned : ∀ a ∈ lost :: words.map (fun w => w.1), a % 4 = 0) :
    WordsKept (pTile t) s (latchEng s t info lost words) (lost :: words.map (fun w => w.1)) := by
  rw [List.forall_mem_cons] at haligned
  cases hlatch : s.rdB (pTile t) info 31 with
  | true =>
    rw [latchEng_used _ _ _ _ _ hlatch]
    exact (inc_wordsKept s haligned.1 1).mono (List.cons_subset_cons _ (List.nil_subset _))
  | false =>
    rw [latchEng_free _ _ _ _ _ hlatch]
    exact (wrAll_kept _ _ s (fun w hw => haligned.2 _ (List.mem_map.mpr ⟨w, hw, rfl⟩))).mono (List.subset_cons_self _ _)

/-- A flag that is set stays set when a fault of the matrix engine is noted. -/
theorem mxNoted_flag {m : Nat} (h : s.rdB (pTile t) 0x18 m = true) : (mxNoted s t d code field addr done).rdB (pTile t) 0x18 m = true := by
  have hlatch := latchEng_kept (tileNumFault s t code) t (info := 0x410) (lost := 0x430) (words := mxWords d code field addr done) (by rw [mxWords_offsets]; decide)
  rw [mxNoted, engineNoted, (cmdFault_kept ..).rdB (by decide) List.not_mem_nil]
  refine raise_rdB_of _ _ 12 _ _ _ _ (by decide) ?_
  rwa [hlatch.rdB (by decide) (by rw [mxWords_offsets]; decide), (tileNumFault_kept ..).rdB (by decide) (by decide)]

/-- A flag that is set stays set when the head descriptor fails. -/
theorem mxFailHead_flag {m : Nat} (h : s.rdB (pTile t) 0x18 m = true) : (mxFailHead s t d code field addr).rdB (pTile t) 0x18 m = true := by
  have hnoted := mxNoted_flag s t d code field addr 0 h
  rw [mxFailHead, (modMx_kept ..).rdB (by decide) List.not_mem_nil]
  rcases mxFault_cases s t d code field addr 0 with hsame | ⟨b, hhalts⟩
  · rwa [hsame]
  · rw [hhalts]
    refine raise_rdB_of _ _ 13 _ _ _ _ (by decide) ?_
    rwa [(modMx_kept ..).rdB (by decide) List.not_mem_nil]

theorem mxAbortWaiting_empty (h : (s.tile t).mx.intake = []) : mxAbortWaiting s t = s := by rw [mxAbortWaiting, h]

/-- The head descriptor fails: it leaves the intake for the jobs, its fault marked. -/
theorem mxFailHead_failed : MxFailed s (mxFailHead s t d code field addr) t d code field addr := by
  obtain ⟨hfault, h, htile⟩ := mxFault_spec s t d code field addr 0
  refine ⟨⟨h, code = 0x21 || !mxRdEn d, ?_⟩, (hfault.then_modMx _ _ _ _ _ (mxWords_aligned _ _ _ _ _)).subset ?_⟩
  · rw [mxFailHead, modMx_tile, htile]
  · exact fun w hw => List.mem_append_left [(0x42C, 0)] hw

end

/-- Settles O36: a barrier use and a wait by the report of their stall, the matrix engine by the failure of its head. -/
theorem watchdog : Obligations.Watchdog := by
  intro s t ht hon p T
  refine ⟨fun b n x s0 hb hx hn hsince hrep hlate => ?_, fun b g k w d o ls hb gp hg hw hkind hrep hok hen hlate => ?_, fun d rest hin hchecked hlate hen hrest => ?_⟩
  · have hanswer := watchdog_barrier ht hon hb hx hsince hrep hlate
    refine ⟨fun hact => ?_, fun hact => ?_⟩
    · rw [hact, if_neg Bool.false_ne_true] at hanswer
      refine ⟨_, hanswer, stalled_flagged .., fun hfree => ?_, fun hused => stalled_used _ _ _ _ _ _ _ _ _ _ _ hused, ?_, fun k hk => stalled_tile_ne _ _ _ _ _ _ _ _ _ _ _ hk, stalled_only ..⟩
      · obtain ⟨hinfo, hblock, hword⟩ := stalled_takes s t b.id 0 n 0 b.index b.launch.queue (b.waitingAt n) (b.live.filter (fun u => decide (x.count u = 0))) (Block.barReported n) hfree
        exact ⟨hinfo.trans (by omega), hblock, hword⟩
      · refine ⟨Block.barReported n b, { x with reported := true }, ?_, rfl, ?_, rfl⟩
        · rw [stalled_tile, block_modBlock (barReported_id n), hb, Option.map_some]
        · rw [Block.barReported, getElem?_lmod, hx, Option.map_some]
    · rw [hact, if_pos rfl] at hanswer
      exact ⟨_, hanswer, stalled_blockStopped (barReported_id n) (show 0x13 < 256 by decide) 0 n 0 b.index b.launch.queue _ _ _ _ _ _⟩
  · have hanswer := watchdog_wait ht hon hb hg hw hkind hrep hok hen hlate
    refine ⟨fun hact => ?_, fun hact => ?_⟩
    · rw [hact, if_neg Bool.false_ne_true] at hanswer
      refine ⟨_, hanswer, stalled_flagged .., fun hfree => ?_, ?_, fun k hk => stalled_tile_ne _ _ _ _ _ _ _ _ _ _ _ hk, stalled_only ..⟩
      · exact (stalled_takes s t b.id 1 0 (waitWord ls) b.index b.launch.queue (w.waiting.map (fun l => 32 * g + l)) [] (Block.waitReported g k) hfree).1
      · refine ⟨Block.waitReported g k b, { gp with parked := lmod (fun p => { p with reported := true }) gp.parked k }, { w with reported := true }, ?_, ?_, ?_, rfl, rfl⟩
        · rw [stalled_tile, block_modBlock (waitReported_id g k), hb, Option.map_some]
        · rw [Block.waitReported, getElem?_lmod, hg, Option.map_some]
        · rw [getElem?_lmod, hw, Option.map_some]
    · rw [hact, if_pos rfl] at hanswer
      exact ⟨_, hanswer, stalled_blockStopped (waitReported_id g k) (show 0x14 < 256 by decide) 1 0 (waitWord ls) b.index b.launch.queue _ _ _ _ _ _⟩
  · subst hrest
    have hanswer := watchdog_mx ht hon hin hlate hchecked hen
    have honly := stallReport_only s t 1 0 (d.bf 0x58 0 12) d.iss.index d.iss.queue [] []
    obtain ⟨⟨h, r, htile⟩, hfault⟩ := mxFailHead_failed (stallReport s t 1 0 (d.bf 0x58 0 12) d.iss.index d.iss.queue [] []) t d 0x14 0 0
    have hflag := (stallReport_flagged s t 1 0 (d.bf 0x58 0 12) d.iss.index d.iss.queue [] []).rdB
    rw [honly.tile] at htile
    have hempty : ((mxFailHead (stallReport s t 1 0 (d.bf 0x58 0 12) d.iss.index d.iss.queue [] []) t d 0x14 0 0).tile t).mx.intake = [] := by
      rw [htile]
      exact congrArg List.tail hin
    rw [mxAbortWaiting_empty _ _ hempty] at hanswer
    refine ⟨_, hanswer, mxFailHead_flag _ _ _ _ _ _ hflag, ⟨h, r, htile⟩, hfault.before (stallReport_kept ..) (by decide) (by decide) honly.cmds honly.toTileWork (fun k _ => honly.tile k)⟩

end Sys2Proof.Machine
end

section
/-! Per-tile loads and stores (O14). -/

namespace Sys2Proof.Machine

open Sys2Proof

/-! Bytes of per-tile space. -/

section
variable (s : State) (t off : Nat) (l : List Byte)

theorem tb_twr_out {a : Nat} (h : a < off ∨ off + l.length ≤ a) : (s.twr t off l).tb t a = s.tb t a :=
  fget_writeCells_out _ _ _ _ (by unfold tkey; omega)

theorem tb_twr_in {i : Nat} (h : i < l.length) : (s.twr t off l).tb t (off + i) = l[i] := by
  have hkey : tkey t (off + i) = tkey t off + i := by unfold tkey; omega
  rw [State.tb, hkey]
  exact fget_writeCells_in _ _ _ i h

theorem tb_twr_ne {k a : Nat} (hk : k ≠ t) (ha : a < 2 ^ 32) (hoff : off + l.length ≤ 2 ^ 32) : (s.twr t off l).tb k a = s.tb k a := by
  refine fget_writeCells_out _ _ _ _ ?_
  unfold tkey
  rcases Nat.lt_or_gt_of_ne hk with hlt | hgt
  · left; omega
  · right; omega

end

/-- Stores of several lanes leave every byte that none of them names. -/
theorem tileStores_out (t : Nat) {a : Nat} (l : List (Nat × List Byte)) : ∀ s : State, (∀ x ∈ l, a < x.1 ∨ x.1 + x.2.length ≤ a) → (tileStores s t l).tb t a = s.tb t a := by
  induction l with
  | nil => exact fun s _ => rfl
  | cons x l ih =>
    intro s h
    rw [List.forall_mem_cons] at h
    exact (ih (s.twr t x.1 x.2) h.2).trans (tb_twr_out s t x.1 x.2 h.1)

theorem tileStores_ne (t : Nat) {k a : Nat} (hk : k ≠ t) (ha : a < 2 ^ 32) (l : List (Nat × List Byte)) :
    ∀ s : State, (∀ x ∈ l, x.1 + x.2.length ≤ 2 ^ 32) → (tileStores s t l).tb k a = s.tb k a := by
  induction l with
  | nil => exact fun s _ => rfl
  | cons x l ih =>
    intro s h
    rw [List.forall_mem_cons] at h
    exact (ih (s.twr t x.1 x.2) h.2).trans (tb_twr_ne s t x.1 x.2 hk ha h.1)

/-- A byte that a store names, and no later one, is the byte of that store. -/
theorem tileStores_in (s : State) (t : Nat) (pre post : List (Nat × List Byte)) (x : Nat × List Byte) {i : Nat} (hi : i < x.2.length)
    (hpost : ∀ y ∈ post, x.1 + i < y.1 ∨ y.1 + y.2.length ≤ x.1 + i) : (tileStores s t (pre ++ x :: post)).tb t (x.1 + i) = x.2[i] := by
  rw [tileStores, List.foldl_append, List.foldl_cons]
  exact (tileStores_out t post _ hpost).trans (tb_twr_in _ t x.1 x.2 hi)

theorem tileStores_only (t : Nat) (l : List (Nat × List Byte)) :
    ∀ s : State, tileStores s t l = { s with tmem := (tileStores s t l).tmem, traw := (tileStores s t l).traw } := by
  induction l with
  | nil => exact fun s => rfl
  | cons x l ih => exact fun s => (ih (s.twr t x.1 x.2)).trans rfl

/-! Lanes. -/

/-- The active lanes before and after one of them: lower ones and higher ones. -/
theorem act_split {s : State} {tc : TC} (hat : ThreadAt s tc.gr tc.x tc) {l : Nat} (hl : l ∈ tc.act) :
    ∃ pre post, tc.act = pre ++ l :: post ∧ (∀ k ∈ pre, k < l) ∧ ∀ k ∈ post, l < k := by
  have hsorted := act_sorted hat
  obtain ⟨pre, post, hsplit⟩ := List.append_of_mem hl
  rw [hsplit, List.pairwise_append, List.pairwise_cons] at hsorted
  obtain ⟨-, ⟨hpost, -⟩, hpre⟩ := hsorted
  exact ⟨pre, post, hsplit, fun k hk => hpre k hk l (List.mem_cons_self ..), hpost⟩

section
variable {offs : List (Nat × Nat)} {fault : Nat → Option Nat}

theorem firstTileFault_none (h : ∀ x ∈ offs, fault x.2 = none) : firstTileFault offs fault = none := by
  rw [firstTileFault, List.findSome?_eq_none_iff]
  exact fun x hx => by rw [h x hx, Option.map_none]

theorem firstTileFault_some {pre post : List (Nat × Nat)} {x : Nat × Nat} {code : Nat} (hpre : ∀ y ∈ pre, fault y.2 = none) (hx : fault x.2 = some code) :
    firstTileFault (pre ++ x :: post) fault = some (code, x.2) := by
  have hbefore := firstTileFault_none hpre
  rw [firstTileFault] at hbefore ⊢
  rw [List.findSome?_append, hbefore, Option.none_or, List.findSome?_cons, hx, Option.map_some]

end

theorem foldl_append_eq {α : Type} (L : List (List α)) : ∀ acc : List α, L.foldl (· ++ ·) acc = acc ++ L.flatten := by
  induction L with
  | nil => exact fun acc => (List.append_nil acc).symm
  | cons l L ih => exact fun acc => by rw [List.foldl_cons, ih, List.flatten_cons, List.append_assoc]

/-! The instructions. -/

theorem exec_ldSp (gr : GRef) (x : TInstr) (s : State) : exec (.ldSp gr x) s = execLdSp gr x s := rfl
theorem exec_stSp (gr : GRef) (x : TInstr) (s : State) : exec (.stSp gr x) s = execStSp gr x s := rfl
theorem exec_ldAcc (gr : GRef) (x : TInstr) (s : State) : exec (.ldAcc gr x) s = execLdAcc gr x s := rfl
theorem exec_ldArg (gr : GRef) (x : TInstr) (s : State) : exec (.ldArg gr x) s = execLdArg gr x s := rfl
theorem exec_ldX (gr : GRef) (x : TInstr) (s : State) : exec (.ldX gr x) s = execLdX gr x s := rfl
theorem exec_stX (gr : GRef) (x : TInstr) (s : State) : exec (.stX gr x) s = execStX gr x s := rfl

/-- What a per-tile store of `n` bytes of each active lane leaves, lane by lane at `place`: the highest lane wins a byte, and the path moves on. -/
def StoredAt (s t : State) (tc : TC) (w : Nat) (place : Nat → Nat) : Prop :=
  (∀ a, (∀ l ∈ tc.act, a < place l ∨ place l + 2 ^ w ≤ a) → t.tb tc.gr.tile a = s.tb tc.gr.tile a)
  ∧ (∀ l ∈ tc.act, ∀ i, i < 2 ^ w → (∀ k ∈ tc.act, l < k → ¬ (place k ≤ place l + i ∧ place l + i < place k + 2 ^ w)) →
      t.tb tc.gr.tile (place l + i) = ((toLE (2 ^ w) (tc.get l tc.x.dst (wRegs w)))[i]?).getD 0)
  ∧ (∀ k a, k ≠ tc.gr.tile → a < 2 ^ 32 → t.tb k a = s.tb k a)
  ∧ ∃ f : Group → Group, GoesOn tc (tc.path.pc + tc.len) (f tc.grp) ∧ t = ({ s with tmem := t.tmem, traw := t.traw } : State).modGroup tc.gr f

theorem tileNum_zero (s : State) (t : Nat) : tileNum s t .zero = s := if_pos rfl

section
variable {s : State} {tc : TC} {c : Instr} (hat : ThreadAt s tc.gr tc.x tc)
include hat

/-- A load that writes `n` registers of every active lane. -/
theorem loaded_result {n : Nat} {v : Nat → Nat} (hc : exec c s = .next (commit tc s ((tc.act.map (fun l => tc.put l n (v l))).foldl (· ++ ·) []) .zero)) :
    LaneResult c s tc n v .zero := by
  have hflat : (tc.act.map (fun l => tc.put l n (v l))).foldl (· ++ ·) [] = (gather (tc.act.map (fun l => (tc.put l n (v l), NEv.zero)))).1 := by
    rw [gather_fst, List.map_map, foldl_append_eq, List.nil_append]
    rfl
  have hwrote := wrote_of_put hat.2 (fun l => (tc.put l n (v l), NEv.zero)) n v (fun _ => rfl)
  rw [← hflat] at hwrote
  exact ⟨_, hc, _, hwrote, rfl⟩

/-- A store of every active lane. -/
theorem stored_result {w : Nat} {place : Nat → Nat} (hplace : ∀ l ∈ tc.act, place l + 2 ^ w ≤ 2 ^ 32)
    (hc : exec c s = .next (commit tc (tileStores s tc.gr.tile (tc.act.map (fun l => (place l, tc.data l w)))) [] .zero)) :
    Completes c s (fun t => StoredAt s t tc w place) := by
  have hlen : ∀ l, (tc.data l w).length = 2 ^ w := fun l => length_toLE ..
  refine ⟨_, hc, fun a ha => ?_, fun l hl i hi hwins => ?_, fun k a hk ha => ?_, fun g => (g.applyWrites []).advance tc.len, goesOn_advance hat, ?_⟩
  · refine tileStores_out tc.gr.tile _ s fun x hx => ?_
    obtain ⟨l, hl, rfl⟩ := List.mem_map.mp hx
    rw [hlen]
    exact ha l hl
  · obtain ⟨pre, post, hsplit, -, hpost⟩ := act_split hat hl
    have hbyte : (tc.data l w)[i]? = some ((tc.data l w)[i]'(by rw [hlen]; exact hi)) := List.getElem?_eq_getElem _
    rw [hsplit, List.map_append, List.map_cons]
    refine (tileStores_in s tc.gr.tile _ _ (place l, tc.data l w) (by rw [hlen]; exact hi) fun y hy => ?_).trans ?_
    · obtain ⟨k, hk, rfl⟩ := List.mem_map.mp hy
      have hkact : k ∈ tc.act := hsplit ▸ List.mem_append_right _ (List.mem_cons_of_mem _ hk)
      have := hwins k hkact (hpost k hk)
      rw [hlen]
      dsimp only
      omega
    · exact (congrArg (fun o => Option.getD o 0) hbyte).symm
  · refine tileStores_ne tc.gr.tile hk ha _ s fun x hx => ?_
    obtain ⟨l, hl, rfl⟩ := List.mem_map.mp hx
    rw [hlen]
    exact hplace l hl
  · rw [commit, tileNum_zero]
    exact congrArg (fun u : State => u.modGroup tc.gr (fun g => (g.applyWrites []).advance tc.len)) (tileStores_only ..)

end

/-- An access that a tile grants lies in its regions. -/
theorem tileFault_none_le {off n : Nat} {st : Bool} (h : tileFault off n st = none) : off + n ≤ 2 ^ 32 := by
  unfold tileFault at h
  split at h
  · exact absurd h (by simp)
  · next r _ =>
    split at h
    · exact absurd h (by simp)
    · next hin =>
      have hle : off + n ≤ regionHi r := by simp [inRegion] at hin; omega
      have hhi : regionHi r ≤ 0x1A08000 := by cases r <;> decide
      omega

/-- A load from the accumulator store that is granted. -/
theorem tileFault_acc {off n : Nat} (hn : 0 < n) (hlo : 0x1800000 ≤ off) (hhi : off + n ≤ 0x1900000) (hal : off % n = 0) :
    inRegion .acc off n = true ∧ tileFault off n false = none := by
  have hin : inRegion .acc off n = true := decide_eq_true ⟨hlo, hhi⟩
  have hregion : regionOf off = some .acc := by rw [regionOf, if_neg (by omega), if_pos (by omega)]
  refine ⟨hin, ?_⟩
  simp [tileFault, hregion, hin, hal]

section
variable {s : State} {tc : TC} (hat : ThreadAt s tc.gr tc.x tc)

/-- A per-tile access of the active lanes that none of them faults. -/
theorem tileAccess_granted {w : Nat} {place : Nat → Nat} {fault : Nat → Option Nat} (h : ∀ l ∈ tc.act, fault (place l) = none) (st : Bool) :
    tileAccess tc s w st (tc.act.map (fun l => (l, place l))) fault
      = if st then commit tc (tileStores s tc.gr.tile (tc.act.map (fun l => (place l, tc.data l w)))) [] .zero
        else commit tc s ((tc.act.map (fun l => tc.put l (wRegs w) (s.tnat tc.gr.tile (place l) (2 ^ w)))).foldl (· ++ ·) []) .zero := by
  have hnone : firstTileFault (tc.act.map (fun l => (l, place l))) fault = none := firstTileFault_none fun x hx => by
    obtain ⟨l, hl, rfl⟩ := List.mem_map.mp hx
    exact h l hl
  rw [tileAccess, hnone, List.map_map, List.map_map]
  rfl

/-- A row of an exchange register that does not pass row 31 (R161). -/
theorem xAccess_granted (hk : firstBad (checksX tc) = none) (hin : tc.x.c.toNat * 128 + 32 * 2 ^ tc.x.mod.toNat ≤ 4096) (st : Bool) :
    xAccess tc s st = tileAccess tc s tc.x.mod.toNat st
      (tc.act.map (fun l => (l, 0x1900000 + tc.x.b.toNat * 0x1000 + tc.x.c.toNat * 128 + 2 ^ tc.x.mod.toNat * l))) (fun _ => none) := by
  have hc : tc.x.c.toNat % 32 = tc.x.c.toNat :=
    Nat.mod_eq_of_lt (Nat.lt_of_not_le (of_decide_eq_false (firstBad_none hk (decide (32 ≤ tc.x.c.toNat), 1) (List.mem_cons_self ..))))
  have hpast : xrowPast tc = false := by
    rw [xrowPast, hc]
    exact decide_eq_false (Nat.not_lt.mpr hin)
  rw [xAccess, guarded, hk, hpast, xrowOff, hc]
  rfl

include hat in
/-- A read of argument bytes that lie in the launch's 64 (R542). -/
theorem ldArg_granted (hk : firstBad (checksTile tc true) = none)
    (hok : ∀ l ∈ tc.act, tc.get l tc.x.a 1 + 2 ^ tc.x.mod.toNat ≤ 64 ∧ tc.get l tc.x.a 1 % 2 ^ tc.x.mod.toNat = 0) : exec (.ldArg tc.gr tc.x) s = .next
      (commit tc s ((tc.act.map (fun l => tc.put l (wRegs tc.x.mod.toNat) (leAt tc.blk.launch.args (tc.get l tc.x.a 1) (2 ^ tc.x.mod.toNat)))).foldl (· ++ ·) []) .zero) := by
  rw [exec_ldArg, execLdArg, runThread_eq hat, guarded, hk]
  dsimp only
  rw [firstTileFault_none fun y hy => ?_, TC.offs, List.map_map]
  · rfl
  · obtain ⟨l, hl, rfl⟩ := List.mem_map.mp hy
    obtain ⟨hle, hal⟩ := hok l hl
    exact (if_neg (show ¬ 64 < tc.get l tc.x.a 1 + 2 ^ tc.x.mod.toNat by omega)).trans (if_neg (show ¬ tc.get l tc.x.a 1 % 2 ^ tc.x.mod.toNat ≠ 0 by omega))

include hat in
/-- A per-tile access that a lane faults, and none below it. -/
theorem tileAccess_faulted {w : Nat} {place : Nat → Nat} {fault : Nat → Option Nat} {l code : Nat} (hl : l ∈ tc.act) (hfault : fault (place l) = some code)
    (hlow : ∀ k ∈ tc.act, k < l → fault (place k) = none) (st : Bool) :
    tileAccess tc s w st (tc.act.map (fun l => (l, place l))) fault = threadFault tc s code (place l) := by
  obtain ⟨pre, post, hsplit, hpre, -⟩ := act_split hat hl
  have hsome : firstTileFault (tc.act.map (fun l => (l, place l))) fault = some (code, place l) := by
    rw [hsplit, List.map_append, List.map_cons]
    refine firstTileFault_some (x := (l, place l)) (fun y hy => ?_) hfault
    obtain ⟨k, hk, rfl⟩ := List.mem_map.mp hy
    exact hlow k (hsplit ▸ List.mem_append_left _ hk) (hpre k hk)
  rw [tileAccess, hsome]

end

/-- Settles O14: each access by the lanes it faults, a load by its registers, a store by its bytes. -/
theorem tileMemory : Obligations.TileMemory := by
  intro s gr x tc hat
  obtain ⟨hgr, hx, -⟩ := threadCtx_spec hat.2
  subst hgr hx
  refine ⟨fun hk => ⟨fun hok => ?_, fun hok => ?_, fun l code hl hfault hlow => ?_, fun hok => ?_⟩, fun hk hok => ?_, fun hk hin => ?_⟩
  · refine loaded_result hat ?_
    rw [exec_ldSp, execLdSp, runThread_eq hat, guarded, hk, TC.offs]
    exact congrArg _ (tileAccess_granted (fault := fun o => tileFault o (2 ^ tc.x.mod.toNat) false) hok false)
  · refine stored_result hat (fun l hl => tileFault_none_le (hok l hl)) ?_
    rw [exec_stSp, execStSp, runThread_eq hat, guarded, hk, TC.offs]
    exact congrArg _ (tileAccess_granted (fault := fun o => tileFault o (2 ^ tc.x.mod.toNat) true) hok true)
  · refine completes_stopped ?_
    rw [exec_stSp, execStSp, runThread_eq hat, guarded, hk, TC.offs]
    exact congrArg _ (tileAccess_faulted hat (fault := fun o => tileFault o (2 ^ tc.x.mod.toNat) true) hl hfault hlow true)
  · exact loaded_result hat (ldArg_granted hat hk hok)
  · have hgrant : ∀ l ∈ tc.act, (fun o => if inRegion .acc o (2 ^ tc.x.mod.toNat) then tileFault o (2 ^ tc.x.mod.toNat) false else some 5) (tc.get l tc.x.a 1) = none :=
      fun l hl => by
        obtain ⟨hlo, hhi, hal⟩ := hok l hl
        obtain ⟨hin, hfault⟩ := tileFault_acc (by positivity) hlo hhi hal
        dsimp only
        rw [hin, if_pos rfl, hfault]
    refine loaded_result hat ?_
    rw [exec_ldAcc, execLdAcc, runThread_eq hat, guarded, hk, TC.offs]
    exact congrArg _ (tileAccess_granted hgrant false)
  · refine ⟨loaded_result hat ?_, stored_result hat (fun l hl => ?_) ?_⟩
    · rw [exec_ldX, execLdX, runThread_eq hat, xAccess_granted hk hin]
      exact congrArg _ (tileAccess_granted (fun _ _ => rfl) false)
    · have hlane := (act_lane hat hl).1
      have hb := tc.x.b.isLt
      have hwidth : 2 ^ tc.x.mod.toNat * l + 2 ^ tc.x.mod.toNat ≤ 32 * 2 ^ tc.x.mod.toNat := by
        rw [← Nat.mul_succ, Nat.mul_comm]
        exact Nat.mul_le_mul_right _ hlane
      omega
    · rw [exec_stX, execStX, runThread_eq hat, xAccess_granted hk hin]
      exact congrArg _ (tileAccess_granted (fun _ _ => rfl) true)

end Sys2Proof.Machine
end

section
/-! Barriers (O20): arrivals counted, one use completed, the paths that go on. -/

namespace Sys2Proof.Machine

open Sys2Proof

/-! Arrivals (05_thread_groups.md R165). -/

/-- The arrivals of a thread in a list of them. -/
def countIn (l : List (Nat × Nat)) (th : Nat) : Nat := ((l.find? (fun y => decide (y.1 = th))).map (fun y => y.2)).getD 0

/-- One arrival more of a thread. -/
def addArrival (l : List (Nat × Nat)) (t : Nat) : List (Nat × Nat) :=
  match l.find? (fun y => decide (y.1 = t)) with
  | some _ => lupdate (fun y => decide (y.1 = t)) (fun y => (y.1, y.2 + 1)) l
  | none => l ++ [(t, 1)]

theorem countIn_cons (y : Nat × Nat) (l : List (Nat × Nat)) (th : Nat) : countIn (y :: l) th = if y.1 = th then y.2 else countIn l th := by
  unfold countIn
  by_cases h : y.1 = th
  · simp [h]
  · simp [h]

theorem countIn_absent {l : List (Nat × Nat)} {th : Nat} (h : th ∉ l.map (fun y => y.1)) : countIn l th = 0 := by
  have hnone : l.find? (fun y => decide (y.1 = th)) = none :=
    List.find?_eq_none.mpr fun y hy hkey => h (List.mem_map.mpr ⟨y, hy, of_decide_eq_true hkey⟩)
  rw [countIn, hnone]
  rfl

theorem find?_arrival_none {l : List (Nat × Nat)} {t : Nat} : l.find? (fun y => decide (y.1 = t)) = none ↔ t ∉ l.map (fun y => y.1) := by
  rw [List.find?_eq_none, List.mem_map, not_exists]
  exact forall_congr' fun y => by simp

theorem lupdate_cons_of {β : Type} {P : β → Prop} [DecidablePred P] (f : β → β) {x : β} (l : List β) (h : P x) :
    lupdate (fun y => decide (P y)) f (x :: l) = f x :: lupdate (fun y => decide (P y)) f l := by
  rw [lupdate, List.map_cons, if_pos (decide_eq_true h), lupdate]

theorem lupdate_cons_off {β : Type} {P : β → Prop} [DecidablePred P] (f : β → β) {x : β} (l : List β) (h : ¬ P x) :
    lupdate (fun y => decide (P y)) f (x :: l) = x :: lupdate (fun y => decide (P y)) f l := by
  rw [lupdate, List.map_cons, if_neg (by simpa using h), lupdate]

theorem countIn_raised_ne {t th : Nat} (hne : th ≠ t) (l : List (Nat × Nat)) :
    countIn (lupdate (fun y => decide (y.1 = t)) (fun y => (y.1, y.2 + 1)) l) th = countIn l th := by
  induction l with
  | nil => rfl
  | cons y l ih =>
    by_cases hy : y.1 = t
    · rw [lupdate_cons_of (P := fun y : Nat × Nat => y.1 = t) _ _ hy, countIn_cons, countIn_cons, ih, if_neg (by rw [hy]; exact hne.symm), if_neg (by rw [hy]; exact hne.symm)]
    · rw [lupdate_cons_off (P := fun y : Nat × Nat => y.1 = t) _ _ hy, countIn_cons, countIn_cons, ih]

theorem countIn_raised_self {t : Nat} (l : List (Nat × Nat)) (h : t ∈ l.map (fun y => y.1)) :
    countIn (lupdate (fun y => decide (y.1 = t)) (fun y => (y.1, y.2 + 1)) l) t = countIn l t + 1 := by
  induction l with
  | nil => exact absurd h List.not_mem_nil
  | cons y l ih =>
    by_cases hy : y.1 = t
    · rw [lupdate_cons_of (P := fun y : Nat × Nat => y.1 = t) _ _ hy, countIn_cons, countIn_cons, if_pos hy, if_pos hy]
    · rw [lupdate_cons_off (P := fun y : Nat × Nat => y.1 = t) _ _ hy, countIn_cons, countIn_cons, if_neg hy, if_neg hy]
      exact ih ((List.mem_cons.mp h).resolve_left (Ne.symm hy))

theorem countIn_append (l m : List (Nat × Nat)) (th : Nat) (h : th ∉ l.map (fun y => y.1)) : countIn (l ++ m) th = countIn m th := by
  rw [countIn, List.find?_append, find?_arrival_none.mpr h, Option.none_or]
  rfl

theorem countIn_append_in (l m : List (Nat × Nat)) (th : Nat) (h : th ∉ m.map (fun y => y.1)) : countIn (l ++ m) th = countIn l th := by
  rw [countIn, List.find?_append, find?_arrival_none.mpr h, Option.or_none]
  rfl

theorem countIn_addArrival (l : List (Nat × Nat)) (t th : Nat) : countIn (addArrival l t) th = countIn l th + (if th = t then 1 else 0) := by
  unfold addArrival
  split
  · next y hy =>
    have hmem : t ∈ l.map (fun y => y.1) := List.mem_map.mpr ⟨y, List.mem_of_find?_eq_some hy, by simpa using List.find?_some hy⟩
    by_cases h : th = t
    · rw [if_pos h, h, countIn_raised_self l hmem]
    · rw [if_neg h, countIn_raised_ne h]; rfl
  · next hnone =>
    have hnew := find?_arrival_none.mp hnone
    by_cases h : th = t
    · rw [if_pos h, h, countIn_append _ _ _ hnew, countIn_absent hnew, countIn_cons, if_pos rfl]
    · rw [if_neg h, countIn_append_in _ _ _ (by simpa using h)]; rfl

theorem keys_addArrival {l : List (Nat × Nat)} (hd : (l.map (fun y => y.1)).Nodup) (t : Nat) : ((addArrival l t).map (fun y => y.1)).Nodup := by
  unfold addArrival
  split
  · have hkeys : (lupdate (fun y : Nat × Nat => decide (y.1 = t)) (fun y => (y.1, y.2 + 1)) l).map (fun y => y.1) = l.map (fun y => y.1) := by
      rw [lupdate, List.map_map]
      refine List.map_congr_left fun y _ => ?_
      rw [Function.comp_apply]
      split <;> rfl
    rwa [hkeys]
  · next hnone =>
    rw [List.map_append, List.nodup_append]
    refine ⟨hd, List.nodup_singleton t, fun a ha b hb => ?_⟩
    rw [List.mem_singleton.mp hb]
    rintro rfl
    exact find?_arrival_none.mp hnone ha

/-- The arrivals of threads, each once. -/
theorem countIn_arrivals (th : Nat) (ts : List Nat) : ∀ l, ts.Nodup → countIn (ts.foldl addArrival l) th = countIn l th + (if th ∈ ts then 1 else 0) := by
  induction ts with
  | nil => exact fun l _ => by simp
  | cons t ts ih =>
    intro l hd
    rw [List.nodup_cons] at hd
    rw [List.foldl_cons, ih _ hd.2, countIn_addArrival]
    by_cases h : th = t
    · rw [if_pos h, if_neg (h ▸ hd.1), if_pos (h ▸ List.mem_cons_self ..)]
    · simp [h]

theorem keys_arrivals (ts : List Nat) : ∀ l : List (Nat × Nat), (l.map (fun y => y.1)).Nodup → ((ts.foldl addArrival l).map (fun y => y.1)).Nodup := by
  induction ts with
  | nil => exact fun l hd => hd
  | cons t ts ih => exact fun l hd => ih _ (keys_addArrival hd t)

/-- One completion uses up one arrival of each thread. -/
theorem countIn_completed (th : Nat) (l : List (Nat × Nat)) (hd : (l.map (fun y => y.1)).Nodup) :
    countIn ((l.map (fun y => (y.1, y.2 - 1))).filter (fun y => decide (y.2 ≠ 0))) th = countIn l th - 1 := by
  induction l with
  | nil => rfl
  | cons y l ih =>
    rw [List.map_cons, List.nodup_cons] at hd
    have hrest := ih hd.2
    rw [List.map_cons, List.filter_cons, countIn_cons]
    by_cases hy : y.1 = th
    · rw [if_pos hy]
      have hzero : countIn l th = 0 := countIn_absent (hy ▸ hd.1)
      split
      · rw [countIn_cons, if_pos hy]
      · next hz =>
        have hz' : y.2 - 1 = 0 := by simpa using hz
        rw [hrest, hzero, hz']
    · rw [if_neg hy]
      split
      · rw [countIn_cons, if_neg hy, hrest]
      · exact hrest

/-! The block (R165). -/

theorem arrive_groups (b : Block) (n pc now limit : Nat) (ts : List Nat) : (b.arrive n pc now limit ts).groups = b.groups := rfl

theorem arrive_bars_ne (b : Block) {n m : Nat} (h : m ≠ n) (pc now limit : Nat) (ts : List Nat) : (b.arrive n pc now limit ts).bars[m]? = b.bars[m]? :=
  getElem?_lmod_ne _ _ h

/-- A barrier after threads have arrived. -/
theorem arrive_bar {b : Block} {n : Nat} {x : Bar} (hx : b.bars[n]? = some x) (hd : (x.arrivals.map (fun y => y.1)).Nodup) (pc now limit : Nat) {ts : List Nat} (hts : ts.Nodup) :
    ∃ y : Bar, (b.arrive n pc now limit ts).bars[n]? = some y ∧ (y.arrivals.map (fun z => z.1)).Nodup
      ∧ ∀ th, y.count th = x.count th + (if th ∈ ts then 1 else 0) := by
  have hbar := getElem?_lmod (fun x : Bar => { x with
    arrivals := ts.foldl addArrival x.arrivals, since := x.since <|> (if ts = [] then none else some now), limit := if x.since.isSome then x.limit else limit,
    pcs := x.pcs ++ (ts.filter (fun t => decide (x.count t = 0))).map (fun t => (t, pc)),
    later := x.later ++ (ts.filter (fun t => decide (1 ≤ x.count t))).map (fun t => (t, now, limit, pc)) }) b.bars n
  rw [hx, Option.map_some] at hbar
  exact ⟨_, hbar, keys_arrivals ts _ hd, fun th => countIn_arrivals th ts _ hts⟩

/-- The paths of a group that wait at barrier `n`, with one completion more. -/
def Group.released (n : Nat) (g : Group) : Group := { g with parked := g.parked.map (fun k => k.released n) }

theorem barComplete_groups (b : Block) (n : Nat) : (b.barComplete n).groups = b.groups.map (Group.released n) := by
  refine List.map_congr_left fun g _ => ?_
  unfold Group.released
  congr 1

theorem barComplete_bars_ne (b : Block) {n m : Nat} (h : m ≠ n) : (b.barComplete n).bars[m]? = b.bars[m]? := getElem?_lmod_ne _ _ h

/-- A barrier after one completion. -/
theorem barComplete_bar {b : Block} {n : Nat} {x : Bar} (hx : b.bars[n]? = some x) (hd : (x.arrivals.map (fun y => y.1)).Nodup) :
    ∃ y : Bar, (b.barComplete n).bars[n]? = some y ∧ ∀ th, y.count th = x.count th - 1 := by
  have hbar := getElem?_lmod (fun x : Bar => { x with
    arrivals := (x.arrivals.map (fun y => (y.1, y.2 - 1))).filter (fun y => decide (y.2 ≠ 0))
    since := (nextArrivals [] x.later).1.head?.map (fun y => y.2.1), limit := ((nextArrivals [] x.later).1.head?.map (fun y => y.2.2.1)).getD 0, reported := false
    pcs := (nextArrivals [] x.later).1.map (fun y => (y.1, y.2.2.2)), later := (nextArrivals [] x.later).2 }) b.bars n
  rw [hx, Option.map_some] at hbar
  exact ⟨_, hbar, fun th => countIn_completed th _ hd⟩

/-- The threads that live depend on the lanes that have exited alone. -/
theorem live_congr {b c : Block} (h : c.groups.map (fun g => g.exited) = b.groups.map (fun g => g.exited)) : c.live = b.live := by
  have hlive : ∀ b : Block, b.live = ((List.range (b.groups.map (fun g => g.exited)).length).map (fun i =>
      match (b.groups.map (fun g => g.exited))[i]? with
      | some e => (setBits 32 (allLanes ^^^ e)).map (fun l => 32 * i + l)
      | none => [])).foldl (· ++ ·) [] := fun b => by
    rw [Block.live, List.length_map]
    refine congrArg (fun L : List (List Nat) => L.foldl (· ++ ·) []) (List.map_congr_left fun i _ => ?_)
    rw [List.getElem?_map]
    cases b.groups[i]? <;> rfl
  rw [hlive, hlive, h]

theorem barComplete_live (b : Block) (n : Nat) : (b.barComplete n).live = b.live := by
  refine live_congr ?_
  rw [barComplete_groups, List.map_map]
  rfl

/-- A use is complete when some thread lives and each has arrived. -/
theorem barDone_eq {b : Block} {n : Nat} {x : Bar} (hx : b.bars[n]? = some x) : b.barDone n = decide (b.live ≠ [] ∧ ∀ th ∈ b.live, 1 ≤ x.count th) := by
  rw [Block.barDone, hx, Bool.eq_iff_iff, Bool.and_eq_true, decide_eq_true_eq, decide_eq_true_eq, List.all_eq_true]
  simp only [decide_eq_true_eq]

theorem barSettle_succ (b : Block) (n k : Nat) : b.barSettle n (k + 1) = if b.barDone n then (b.barComplete n).barSettle n k else b := rfl

/-- A use that completes once. -/
theorem barSettle_once {b : Block} {n : Nat} (h : (b.barComplete n).barDone n = false) : b.barSettle n 1025 = if b.barDone n then b.barComplete n else b := by
  rw [show 1025 = 1023 + 1 + 1 from rfl, barSettle_succ, barSettle_succ, h, if_neg Bool.false_ne_true]

/-! A use of a barrier after arrivals (R165). -/

/-- Whether the arrivals complete the use: some thread lives and each has arrived. -/
def useFull (b : Block) (arrived : Nat → Nat) : Bool := decide (b.live ≠ [] ∧ ∀ th ∈ b.live, 1 ≤ arrived th)

/-- The arrivals of a thread that are left. -/
def leftOf (full : Bool) (arrived : Nat → Nat) (th : Nat) : Nat := if full then arrived th - 1 else arrived th

/-- A parked path after the use. -/
def Park.freedIf (full : Bool) (n : Nat) (k : Park) : Park := if full then k.released n else k

/-- A group after the use. -/
def Group.freedIf (full : Bool) (n : Nat) (g : Group) : Group := { g with parked := g.parked.map (Park.freedIf full n) }

theorem freedIf_false (n : Nat) (g : Group) : g.freedIf false n = g := by
  have hsame : g.parked.map (Park.freedIf false n) = g.parked := (List.map_congr_left fun k _ => rfl).trans (List.map_id _)
  rw [Group.freedIf, hsame]

section
variable {b b1 : Block} {n : Nat} {x y : Bar} {arrived : Nat → Nat} (hx : b.bars[n]? = some x) (hopen : b.barDone n = false)
  (hy : b1.bars[n]? = some y) (hd : (y.arrivals.map (fun z => z.1)).Nodup) (hcount : ∀ th, y.count th = arrived th) (hone : ∀ th, arrived th ≤ x.count th + 1)
  (hlive : b1.live = b.live)
include hx hopen hy hd hcount hone hlive

/-- A use that was not complete completes once at most. -/
theorem barComplete_open : (b1.barComplete n).barDone n = false := by
  obtain ⟨z, hz, hleft⟩ := barComplete_bar hy hd
  rw [barDone_eq hx, decide_eq_false_iff_not] at hopen
  rw [barDone_eq hz, barComplete_live, hlive, decide_eq_false_iff_not]
  rintro ⟨hsome, hall⟩
  refine hopen ⟨hsome, fun th hth => ?_⟩
  have h1 := hall th hth
  have h2 := hone th
  rw [hleft, hcount] at h1
  omega

/-- The arrivals settled: the use completes where it is full. -/
theorem barSettle_arrived : b1.barSettle n 1025 = if useFull b arrived then b1.barComplete n else b1 := by
  rw [barSettle_once (barComplete_open hx hopen hy hd hcount hone hlive), barDone_eq hy, hlive, useFull]
  simp only [hcount]

theorem barSettle_arrived_groups : (b1.barSettle n 1025).groups = b1.groups.map (Group.freedIf (useFull b arrived) n) := by
  rw [barSettle_arrived hx hopen hy hd hcount hone hlive]
  cases useFull b arrived with
  | true => exact barComplete_groups b1 n
  | false => exact ((List.map_congr_left fun g _ => freedIf_false n g).trans (List.map_id _)).symm

theorem barSettle_arrived_bar : ∃ z : Bar, (b1.barSettle n 1025).bars[n]? = some z ∧ ∀ th, z.count th = leftOf (useFull b arrived) arrived th := by
  rw [barSettle_arrived hx hopen hy hd hcount hone hlive]
  cases useFull b arrived with
  | true =>
    obtain ⟨z, hz, hleft⟩ := barComplete_bar hy hd
    exact ⟨z, hz, fun th => by rw [hleft, hcount]; rfl⟩
  | false => exact ⟨y, hy, fun th => by rw [hcount]; rfl⟩

theorem barSettle_arrived_bars_ne {m : Nat} (hm : m ≠ n) : (b1.barSettle n 1025).bars[m]? = b1.bars[m]? := by
  rw [barSettle_arrived hx hopen hy hd hcount hone hlive]
  cases useFull b arrived with
  | true => exact barComplete_bars_ne b1 hm
  | false => rfl

end

/-! The instructions. -/

theorem map_lmod {α β : Type} {f : α → α} {h : α → β} (hf : ∀ x, h (f x) = h x) : ∀ (l : List α) (i : Nat), (lmod f l i).map h = l.map h
  | [], _ => rfl
  | x :: l, 0 => by rw [lmod, List.map_cons, List.map_cons, hf]
  | x :: l, i + 1 => by rw [lmod, List.map_cons, List.map_cons, map_lmod hf l i]

theorem barSettle_id (n k : Nat) : ∀ b : Block, (b.barSettle n k).id = b.id := by
  induction k with
  | zero => exact fun b => rfl
  | succ k ih =>
    intro b
    rw [barSettle_succ]
    split
    · exact ih (b.barComplete n)
    · rfl

theorem modBlock_modBlock (s : State) (t id : Nat) {f : Block → Block} (hf : ∀ b, (f b).id = b.id) (g : Block → Block) :
    (s.modBlock t id f).modBlock t id g = s.modBlock t id (fun b => g (f b)) := by
  have hlist : ∀ bs : List Block, lupdate (fun b => decide (b.id = id)) g (lupdate (fun b => decide (b.id = id)) f bs)
      = lupdate (fun b => decide (b.id = id)) (fun b => g (f b)) bs := fun bs => lupdate_lupdate _ f g bs fun b hb => by rw [hf]; exact hb
  simp only [State.modBlock, modTile_modTile, hlist]

theorem exec_barArrive (gr : GRef) (x : TInstr) (s : State) : exec (.barArrive gr x) s = execBarArrive gr x s := rfl
theorem exec_barSync (gr : GRef) (x : TInstr) (s : State) : exec (.barSync gr x) s = execBarSync gr x s := rfl
theorem exec_fence (gr : GRef) (x : TInstr) (s : State) : exec (.fence gr x) s = execFence gr x s := rfl

section
variable {s : State} {tc : TC} (hat : ThreadAt s tc.gr tc.x tc)

include hat in
theorem blk_id : tc.blk.id = tc.gr.blk := by
  obtain ⟨-, -, -, -, hblk, -⟩ := threadCtx_spec hat.2
  simpa using List.find?_some hblk

include hat in
/-- The threads of the active lanes are distinct. -/
theorem threads_nodup : tc.threads.Nodup := by
  exact (act_nodup hat).map fun a b h => by unfold TC.tid at h; omega

theorem bar_lt (hk : firstBad (checksBar tc) = none) : tc.x.c.toNat % 8 = tc.x.c.toNat := by
  have hgood := firstBad_none hk (decide (8 ≤ tc.x.c.toNat), 1) (List.mem_append_right _ (List.mem_cons_self ..))
  have := of_decide_eq_false hgood
  omega

/-- A block after the arrivals of bar.arrive, its group having moved on. -/
def TC.arriveBlock (tc : TC) (s : State) (b : Block) : Block :=
  let c := (b.arrive tc.x.c.toNat tc.path.pc s.ref (wdLimit s tc.gr.tile) tc.threads).barSettle tc.x.c.toNat 1025
  { c with groups := lmod (fun g => g.advance tc.len) c.groups tc.gr.grp }

/-- A block after the arrivals of bar.sync, its path parked. -/
def TC.parkBlock (tc : TC) (s : State) (b : Block) : Block :=
  let b1 := b.arrive tc.x.c.toNat tc.path.pc s.ref (wdLimit s tc.gr.tile) tc.threads
  let k : Park := ⟨tc.path, .bar tc.x.c.toNat (barNeed tc b1 tc.x.c.toNat), s.ref, wdLimit s tc.gr.tile, false⟩
  { b1 with groups := lmod (fun g => { g with run := none, parked := g.parked ++ [k] }) b1.groups tc.gr.grp }

/-- A block after bar.sync. -/
def TC.syncBlock (tc : TC) (s : State) (b : Block) : Block :=
  let c := (tc.parkBlock s b).barSettle tc.x.c.toNat 1025
  { c with groups := lmod (fun g => g.barGo tc.len) c.groups tc.gr.grp }

include hat

theorem barArrive_answers (hk : firstBad (checksBar tc) = none) : exec (.barArrive tc.gr tc.x) s = .next (s.modBlock tc.gr.tile tc.gr.blk (tc.arriveBlock s)) := by
  rw [exec_barArrive, execBarArrive, runThread_eq hat, guarded, hk]
  simp only [bar_lt hk, blk_id hat]
  have hid : ∀ b : Block, ((b.arrive tc.x.c.toNat tc.path.pc s.ref (wdLimit s tc.gr.tile) tc.threads).barSettle tc.x.c.toNat 1025).id = b.id :=
    fun b => barSettle_id tc.x.c.toNat 1025 (b.arrive tc.x.c.toNat tc.path.pc s.ref (wdLimit s tc.gr.tile) tc.threads)
  exact congrArg _ (modBlock_modBlock s tc.gr.tile tc.gr.blk hid _)

theorem barSync_answers (hk : firstBad (checksBar tc) = none) (hact : tc.act ≠ []) :
    exec (.barSync tc.gr tc.x) s = .next (s.modBlock tc.gr.tile tc.gr.blk (tc.syncBlock s)) := by
  rw [exec_barSync, execBarSync, runThread_eq hat, guarded, hk]
  simp only [bar_lt hk, blk_id hat, if_neg hact]
  rfl

theorem barSync_passes (hk : firstBad (checksBar tc) = none) (hact : tc.act = []) : GroupResult (.barSync tc.gr tc.x) s tc (GoesOn tc (tc.path.pc + tc.len)) := by
  refine .of_eq (g := fun g => g.advance tc.len) ?_ (goesOn_advance hat)
  rw [exec_barSync, execBarSync, runThread_eq hat, guarded, hk]
  simp only [if_pos hact]

theorem fence_passes (hk : firstBad (checksFence tc) = none) : GroupResult (.fence tc.gr tc.x) s tc (GoesOn tc (tc.path.pc + tc.len)) := by
  refine .of_eq (g := fun g => g.advance tc.len) ?_ (goesOn_advance hat)
  rw [exec_fence, execFence, runThread_eq hat, guarded, hk]

end

/-! What the instructions leave of the block. -/

/-- The arrivals of a thread once the active lanes have arrived. -/
def TC.arrived (tc : TC) (bar : Bar) (th : Nat) : Nat := bar.count th + (if th ∈ tc.threads then 1 else 0)

/-- The use is complete with these arrivals. -/
def TC.full (tc : TC) (bar : Bar) : Bool := useFull tc.blk (tc.arrived bar)

/-- What the use of the barrier leaves: its counts, the other barriers and the paths of the other groups. -/
def TC.Recorded (tc : TC) (bar : Bar) (b : Block) : Prop :=
  (∃ bar2, b.bars[tc.x.c.toNat]? = some bar2 ∧ ∀ th, bar2.count th = leftOf (tc.full bar) (tc.arrived bar) th)
  ∧ (∀ m, m ≠ tc.x.c.toNat → b.bars[m]? = tc.blk.bars[m]?)
  ∧ ∀ i g, i ≠ tc.gr.grp → tc.blk.groups[i]? = some g → b.groups[i]? = some (g.freedIf (tc.full bar) tc.x.c.toNat)

section
variable {s : State} {tc : TC} (hat : ThreadAt s tc.gr tc.x tc) {bar : Bar} (hbar : tc.blk.bars[tc.x.c.toNat]? = some bar)
  (hd : (bar.arrivals.map (fun y => y.1)).Nodup) (hopen : tc.blk.barDone tc.x.c.toNat = false)
include hat hbar hd hopen

/-- The block once the arrivals have been settled: `b1` is the block with them, its groups changed in what they run and park. -/
theorem settled_spec {b1 : Block} (hbars : b1.bars = (tc.blk.arrive tc.x.c.toNat tc.path.pc s.ref (wdLimit s tc.gr.tile) tc.threads).bars) (hlive : b1.live = tc.blk.live) :
    let c := b1.barSettle tc.x.c.toNat 1025
    (∃ bar2, c.bars[tc.x.c.toNat]? = some bar2 ∧ ∀ th, bar2.count th = leftOf (tc.full bar) (tc.arrived bar) th)
      ∧ (∀ m, m ≠ tc.x.c.toNat → c.bars[m]? = tc.blk.bars[m]?)
      ∧ c.groups = b1.groups.map (Group.freedIf (tc.full bar) tc.x.c.toNat) := by
  obtain ⟨y, hy, hyd, hcount⟩ := arrive_bar hbar hd tc.path.pc s.ref (wdLimit s tc.gr.tile) (threads_nodup hat)
  rw [← hbars] at hy
  have hone : ∀ th, tc.arrived bar th ≤ bar.count th + 1 := fun th => by unfold TC.arrived; split <;> omega
  refine ⟨barSettle_arrived_bar hbar hopen hy hyd hcount hone hlive, fun m hm => ?_, barSettle_arrived_groups hbar hopen hy hyd hcount hone hlive⟩
  rw [barSettle_arrived_bars_ne hbar hopen hy hyd hcount hone hlive hm, hbars, arrive_bars_ne _ hm]

theorem arriveBlock_spec : tc.Recorded bar (tc.arriveBlock s tc.blk)
    ∧ (tc.arriveBlock s tc.blk).groups[tc.gr.grp]? = some ((tc.grp.freedIf (tc.full bar) tc.x.c.toNat).advance tc.len) := by
  obtain ⟨hcounts, hothers, hgroups⟩ := settled_spec hat hbar hd hopen (b1 := tc.blk.arrive tc.x.c.toNat tc.path.pc s.ref (wdLimit s tc.gr.tile) tc.threads) rfl rfl
  refine ⟨⟨hcounts, hothers, fun i g hi hg => ?_⟩, ?_⟩
  · rw [TC.arriveBlock, getElem?_lmod_ne _ _ hi, hgroups, List.getElem?_map, arrive_groups, hg, Option.map_some]
  · rw [TC.arriveBlock, getElem?_lmod, hgroups, List.getElem?_map, arrive_groups, grp_eq hat, Option.map_some, Option.map_some]

/-- The path of the group, parked at the barrier with what its lanes still need. -/
def TC.barPark (tc : TC) (s : State) (need : Nat → Nat) : Park :=
  ⟨tc.path, .bar tc.x.c.toNat (tc.act.map (fun l => (l, need (tc.tid l)))), s.ref, wdLimit s tc.gr.tile, false⟩

omit hopen in
theorem parkBlock_groups : (tc.parkBlock s tc.blk).groups
    = lmod (fun g => { g with run := none, parked := g.parked ++ [tc.barPark s (tc.arrived bar)] }) tc.blk.groups tc.gr.grp := by
  obtain ⟨y, hy, -, hcount⟩ := arrive_bar hbar hd tc.path.pc s.ref (wdLimit s tc.gr.tile) (threads_nodup hat)
  have hneed : barNeed tc (tc.blk.arrive tc.x.c.toNat tc.path.pc s.ref (wdLimit s tc.gr.tile) tc.threads) tc.x.c.toNat
      = tc.act.map (fun l => (l, tc.arrived bar (tc.tid l))) := by
    rw [barNeed, hy]
    simp only [hcount, TC.arrived]
  rw [TC.parkBlock, hneed]
  rfl

theorem syncBlock_spec : tc.Recorded bar (tc.syncBlock s tc.blk)
    ∧ (tc.syncBlock s tc.blk).groups[tc.gr.grp]? = some (Group.barGo (Group.freedIf (tc.full bar) tc.x.c.toNat
        { tc.grp with run := none, parked := tc.grp.parked ++ [tc.barPark s (tc.arrived bar)] }) tc.len) := by
  have hparked := parkBlock_groups (s := s) hat hbar hd
  have hlive : (tc.parkBlock s tc.blk).live = tc.blk.live := live_congr (by rw [hparked]; exact map_lmod (f := fun g : Group => { g with run := none, parked := g.parked ++ [tc.barPark s (tc.arrived bar)] }) (fun _ => rfl) _ _)
  obtain ⟨hcounts, hothers, hgroups⟩ := settled_spec hat hbar hd hopen (s := s) (b1 := tc.parkBlock s tc.blk) rfl hlive
  refine ⟨⟨hcounts, hothers, fun i g hi hg => ?_⟩, ?_⟩
  · rw [TC.syncBlock, getElem?_lmod_ne _ _ hi, hgroups, List.getElem?_map, hparked, getElem?_lmod_ne _ _ hi, hg, Option.map_some]
  · rw [TC.syncBlock, getElem?_lmod, hgroups, List.getElem?_map, hparked, getElem?_lmod, grp_eq hat, Option.map_some, Option.map_some, Option.map_some]

end

/-- A path parked at the barrier, after the use. -/
theorem barPark_freedIf (tc : TC) (s : State) (full : Bool) (arrived : Nat → Nat) :
    (tc.barPark s arrived).freedIf full tc.x.c.toNat = tc.barPark s (leftOf full arrived) := by
  cases full with
  | true => simp only [Park.freedIf, Park.released, TC.barPark, leftOf, if_true, List.map_map]; rfl
  | false => rfl

theorem barPark_ok (tc : TC) (s : State) (left : Nat → Nat) : (tc.barPark s left).ok = true ↔ ∀ l ∈ tc.act, left (tc.tid l) = 0 := by
  simp [TC.barPark, Park.ok]

/-- The group's own path goes on where its last parked path is satisfied, and gives way to the next one otherwise. -/
theorem barGo_last (g : Group) (n : Nat) (k : Park) : Group.barGo { g with parked := g.parked ++ [k] } n
    = if k.ok then { g with run := some { k.path with pc := k.path.pc + n } } else Group.next { g with parked := g.parked ++ [k] } := by
  simp only [Group.barGo, List.getLast?_append, List.getLast?_singleton, Option.some_or, List.dropLast_concat]

theorem freedIf_parked (full : Bool) (n : Nat) (g : Group) (k : Park) : Group.freedIf full n { g with run := none, parked := g.parked ++ [k] }
    = { { g with run := none, parked := g.parked.map (Park.freedIf full n) } with parked := g.parked.map (Park.freedIf full n) ++ [k.freedIf full n] } := by
  rw [Group.freedIf, List.map_append, List.map_singleton]

/-- Settles O20: the arrivals counted, the use settled once, the paths by what their lanes still need. -/
theorem barriers : Obligations.Barriers := by
  intro s gr x tc hat
  obtain ⟨hgr, hx, hrun, -⟩ := threadCtx_spec hat.2
  subst hgr hx
  refine ⟨fun hk bar hbar hd hopen => ⟨⟨_, barArrive_answers hat hk, tc.arriveBlock s, rfl, ?_⟩, barSync_passes hat hk, fun hact => ⟨_, barSync_answers hat hk hact, tc.syncBlock s, rfl, ?_⟩⟩,
    fence_passes hat⟩
  · obtain ⟨hrec, hown⟩ := arriveBlock_spec (s := s) hat hbar hd hopen
    refine ⟨hrec, hown.trans ?_⟩
    rw [Group.advance, Group.freedIf, hrun]
    rfl
  · obtain ⟨hrec, hown⟩ := syncBlock_spec (s := s) hat hbar hd hopen
    rw [freedIf_parked, barGo_last, barPark_freedIf] at hown
    refine ⟨hrec, fun hfree => ?_, fun hwait => ?_⟩
    · rw [if_pos ((barPark_ok ..).mpr hfree)] at hown
      exact hown
    · obtain ⟨l, hl, hne⟩ := hwait
      rw [if_neg (fun hok => hne ((barPark_ok ..).mp hok l hl))] at hown
      exact hown

end Sys2Proof.Machine
end

section
/-! Signal waits (O19). -/

namespace Sys2Proof.Machine

open Sys2Proof

/-! Acquires of signal words (03_memory_model.md R85). -/

theorem countMismatch_only (s : State) (p : Page) (loc relScope acqScope : Nat) (remote : Bool) : OnlyRegs s (countMismatch s p loc relScope acqScope remote) :=
  (wr_only ..).trans ((wr_only ..).trans (wr_only ..))

theorem sigAcquire_only (s : State) (t w scope : Nat) (me : RelTag) : OnlyRegs s (sigAcquire s t w scope me) := by
  unfold sigAcquire
  split
  · split
    · split
      · rfl
      · exact countMismatch_only ..
    · rfl
  · rfl

theorem sigAcq_only (tc : TC) (s : State) (w : Nat) : OnlyRegs s (tc.sigAcq s w) := by
  unfold TC.sigAcq
  split
  · exact sigAcquire_only ..
  · rfl

theorem acquireMet_only (tc : TC) (ls : List LaneWait) : ∀ s : State, OnlyRegs s (acquireMet tc ls s) := by
  induction ls with
  | nil => exact fun s => rfl
  | cons y ls ih =>
    intro s
    have hstep : OnlyRegs s (if y.got.isSome then tc.sigAcq s y.word else s) := by
      split
      · exact sigAcq_only ..
      · rfl
    exact hstep.trans (ih _)

/-! A wait (05_thread_groups.md R168). -/

theorem exec_waitGe (gr : GRef) (x : TInstr) (s : State) : exec (.waitGe gr x) s = execWaitGe gr x s := rfl
theorem exec_waitEq (gr : GRef) (x : TInstr) (s : State) : exec (.waitEq gr x) s = execWaitEq gr x s := rfl
theorem exec_waitNe (gr : GRef) (x : TInstr) (s : State) : exec (.waitNe gr x) s = execWaitNe gr x s := rfl
theorem exec_waitAny (gr : GRef) (x : TInstr) (s : State) : exec (.waitAny gr x) s = execWaitAny gr x s := rfl

/-- The word of a lane. -/
def TC.seen (tc : TC) (s : State) (l : Nat) : Nat := s.sig tc.gr.tile (tc.word l)

/-- The path of the group, parked at a wait. -/
def TC.waitPark (tc : TC) (s : State) (op : Nat) : Park :=
  ⟨tc.path, .wait tc.x.dst.toNat tc.x.mod.toNat (laneWaits tc s op), s.ref, wdLimit s tc.gr.tile, false⟩

section
variable {s : State} {tc : TC} {op : Nat}

theorem laneWaits_all : (laneWaits tc s op).all (fun y => y.got.isSome) = true ↔ ∀ l ∈ tc.act, waitHolds op (tc.seen s l) (tc.get l tc.x.a 2) = true := by
  rw [laneWaits, List.all_map, List.all_eq_true]
  refine forall₂_congr fun l _ => ?_
  rw [Function.comp_apply]
  cases hmet : waitHolds op (tc.seen s l) (tc.get l tc.x.a 2) with
  | true => simp [TC.seen] at hmet; simp [hmet]
  | false => simp [TC.seen] at hmet; simp [hmet]

/-- What the wait of a lane holds: its word where the word meets the condition. -/
theorem laneWaits_got {y : LaneWait} (hy : y ∈ laneWaits tc s op) : y.got = if waitHolds op (tc.seen s y.lane) (tc.get y.lane tc.x.a 2) then some (tc.seen s y.lane) else none := by
  obtain ⟨l, -, rfl⟩ := List.mem_map.mp hy
  rfl

theorem waitPark_waiting (l : Nat) : l ∈ (tc.waitPark s op).waiting ↔ l ∈ tc.act := by
  have hlanes : (tc.waitPark s op).waiting = tc.act := by
    have hmap : (laneWaits tc s op).map (fun y => y.lane) = tc.act := by
      rw [laneWaits, List.map_map]
      exact List.map_id _
    exact hmap
  rw [hlanes]

theorem waitWrites_eq (h : ∀ l ∈ tc.act, waitHolds op (tc.seen s l) (tc.get l tc.x.a 2) = true) :
    waitWrites tc.x.dst.toNat (laneWaits tc s op) = (gather (tc.act.map (fun l => (tc.put l 2 (tc.seen s l), NEv.zero)))).1 := by
  rw [waitWrites, laneWaits, foldl_append_eq, List.nil_append, gather_fst, List.map_map, List.map_map]
  refine congrArg List.flatten (List.map_congr_left fun l hl => ?_)
  have hmet := h l hl
  rw [TC.seen] at hmet
  simp only [Function.comp_apply, hmet, if_true, Option.getD_some]
  rfl

variable (hat : ThreadAt s tc.gr tc.x tc) (hbad : tc.sigBad = none) (hk : firstBad (checksSig true true tc) = none)
include hat hbad hk

theorem waitOp_answers : waitOp tc.gr tc.x s op = .next (
    if (laneWaits tc s op).all (fun y => y.got.isSome) then commit tc (acquireMet tc (laneWaits tc s op) s) (waitWrites tc.x.dst.toNat (laneWaits tc s op)) .zero
    else (acquireMet tc (laneWaits tc s op) s).modGroup tc.gr (fun g => g.park (tc.waitPark s op))) := by
  rw [waitOp, runThread_eq hat, guarded, hk, hbad]
  rfl

/-- A wait whose condition holds in every active lane. -/
theorem waitOp_passes {c : Instr} (hc : exec c s = waitOp tc.gr tc.x s op) (h : ∀ l ∈ tc.act, waitHolds op (tc.seen s l) (tc.get l tc.x.a 2) = true) :
    Completes c s (fun t => ∃ (u : State) (f : Group → Group), t = u.modGroup tc.gr f ∧ u = { s with regs := u.regs } ∧ Wrote tc 2 (tc.seen s) (f tc.grp)) := by
  rw [waitOp_answers hat hbad hk, if_pos (laneWaits_all.mpr h), waitWrites_eq h, commit, tileNum_zero] at hc
  exact ⟨_, hc, _, _, rfl, acquireMet_only .., wrote_of_put hat.2 (fun l => (tc.put l 2 (tc.seen s l), NEv.zero)) 2 (tc.seen s) (fun _ => rfl)⟩

/-- A wait whose condition fails in an active lane. -/
theorem waitOp_parks {c : Instr} (hc : exec c s = waitOp tc.gr tc.x s op) (h : ∃ l ∈ tc.act, ¬ waitHolds op (tc.seen s l) (tc.get l tc.x.a 2) = true) :
    Completes c s (fun t => ∃ (u : State) (f : Group → Group), t = u.modGroup tc.gr f ∧ u = { s with regs := u.regs }
      ∧ (f tc.grp).regs = tc.grp.regs ∧ (f tc.grp).parked = tc.grp.parked ++ [tc.waitPark s op]) := by
  obtain ⟨l, hl, hne⟩ := h
  rw [waitOp_answers hat hbad hk, if_neg (fun hall => hne (laneWaits_all.mp hall l hl))] at hc
  obtain ⟨-, hregs, -, hparked, -⟩ := next_keeps { tc.grp with parked := tc.grp.parked ++ [tc.waitPark s op] }
  exact ⟨_, hc, _, fun g => g.park (tc.waitPark s op), rfl, acquireMet_only .., hregs, hparked⟩

/-- A wait by its condition. -/
theorem wait_spec {c : Instr} (hc : exec c s = waitOp tc.gr tc.x s op) {cond : Nat → Nat → Prop} (hcond : ∀ word v, waitHolds op word v = true ↔ cond word v) :
    ((∀ l ∈ tc.act, cond (tc.seen s l) (tc.get l tc.x.a 2)) →
      Completes c s (fun t => ∃ (u : State) (f : Group → Group), t = u.modGroup tc.gr f ∧ u = { s with regs := u.regs } ∧ Wrote tc 2 (tc.seen s) (f tc.grp)))
    ∧ ((∃ l ∈ tc.act, ¬ cond (tc.seen s l) (tc.get l tc.x.a 2)) →
      Completes c s (fun t => ∃ (u : State) (f : Group → Group), t = u.modGroup tc.gr f ∧ u = { s with regs := u.regs }
        ∧ (f tc.grp).regs = tc.grp.regs
        ∧ ∃ k : Park, (f tc.grp).parked = tc.grp.parked ++ [k] ∧ k.path = tc.path ∧ k.since = s.ref ∧ k.limit = wdLimit s tc.gr.tile
          ∧ k.reported = false ∧ (∀ l, l ∈ k.waiting ↔ l ∈ tc.act)
          ∧ ∃ ls, k.kind = .wait tc.x.dst.toNat tc.x.mod.toNat ls
            ∧ ∀ y ∈ ls, (cond (tc.seen s y.lane) (tc.get y.lane tc.x.a 2) → y.got = some (tc.seen s y.lane))
                ∧ (¬ cond (tc.seen s y.lane) (tc.get y.lane tc.x.a 2) → y.got = none))) := by
  simp only [← hcond]
  refine ⟨waitOp_passes hat hbad hk hc, fun hfails => ?_⟩
  obtain ⟨t, ht, u, f, htu, hu, hregs, hparked⟩ := waitOp_parks hat hbad hk hc hfails
  refine ⟨t, ht, u, f, htu, hu, hregs, tc.waitPark s op, hparked, rfl, rfl, rfl, rfl, waitPark_waiting, laneWaits tc s op, rfl, fun y hy => ?_⟩
  rw [laneWaits_got hy]
  exact ⟨fun hmet => if_pos hmet, fun hnot => if_neg hnot⟩

end

/-! A parked path goes on (R166). -/

/-- A group whose parked path `k` goes on, where it may. -/
def Group.resumed (k : Nat) (g : Group) : Group :=
  match g.run, g.parked[k]? with
  | none, some p =>
    if p.ok then
      let g1 := match p.kind with
        | .wait d _ ls => g.applyWrites (waitWrites d ls)
        | .bar _ _ => g
      { g1 with run := some { p.path with pc := p.path.pc + 8 }, parked := g1.parked.eraseIdx k }
    else g
  | _, _ => g

theorem pathResume_answers {s : State} {gr : GRef} (ht : gr.tile < 160) (hon : tileOn s gr.tile = true) (k : Nat) :
    exec (.pathResume gr k) s = .next (s.modGroup gr (Group.resumed k)) := by
  have hexec : exec (.pathResume gr k) s = execPathResume gr k s := rfl
  rw [hexec, execPathResume, onUnit, if_pos (decide_eq_true ht), hon, if_pos rfl]
  rfl

section
variable {g : Group} {k : Nat} {p : Park} (hrun : g.run = none) (hp : g.parked[k]? = some p) (hok : p.ok = true)
include hrun hp hok

theorem resumed_bar {n : Nat} {need : List (Nat × Nat)} (hkind : p.kind = .bar n need) :
    g.resumed k = { g with run := some { p.path with pc := p.path.pc + 8 }, parked := g.parked.eraseIdx k } := by
  simp only [Group.resumed, hrun, hp, hok, if_true, hkind]

theorem resumed_wait {d o : Nat} {ls : List LaneWait} (hkind : p.kind = .wait d o ls) :
    g.resumed k = { g with regs := (g.applyWrites (waitWrites d ls)).regs, run := some { p.path with pc := p.path.pc + 8 }, parked := g.parked.eraseIdx k } := by
  simp only [Group.resumed, hrun, hp, hok, if_true, hkind]
  rw [applyWrites_only]

theorem resumed_runs : (g.resumed k).run = some { p.path with pc := p.path.pc + 8 } ∧ (g.resumed k).parked = g.parked.eraseIdx k := by
  cases hkind : p.kind with
  | bar n need => rw [resumed_bar hrun hp hok hkind]; exact ⟨rfl, rfl⟩
  | wait d o ls => rw [resumed_wait hrun hp hok hkind]; exact ⟨rfl, rfl⟩

end

/-- A word that reaches a pair of registers of one lane. -/
theorem reg_waitWrites_one (g : Group) {y : LaneWait} (hy : y.lane < 32) (d : Nat) {l : Nat} (hl : l < 32) (r : Nat) : (g.applyWrites (waitWrites d [y])).reg l r
    = if l = y.lane ∧ (r = d ∨ r = d + 1) then y.got.getD 0 / 2 ^ (32 * (r - d)) % 2 ^ 32 else g.reg l r := by
  have hwrites : ∀ k v, (k, v) ∈ waitWrites d [y] ↔ ∃ l, l ∈ [y.lane] ∧ ∃ i, i < 2 ∧ k = 32 * (d + i) + l ∧ v = y.got.getD 0 / 2 ^ (32 * i) % 2 ^ 32 := fun k v => by
    rw [waitWrites, List.map_singleton, List.foldl_cons, List.foldl_nil, List.nil_append, mem_putN]
    simp
  rw [reg_applyWrites_lanes g (act := [y.lane]) (fun l h => by rw [List.mem_singleton.mp h]; exact hy) (fun _ i => y.got.getD 0 / 2 ^ (32 * i) % 2 ^ 32) hwrites hl r, Nat.mod_mod]
  refine if_congr ?_ rfl rfl
  rw [List.mem_singleton]
  omega

namespace Waits

/-- Settles O19: a wait by its condition in the active lanes, a parked path by what it is parked at. -/
theorem signalWaits : Obligations.SignalWaits := by
  refine ⟨fun s gr x tc hat hbad hk i cond hi => ?_, fun s gr k ht hon => ⟨_, pathResume_answers ht hon k, Group.resumed k, rfl, fun g p hrun hp hok => ?_, fun g hstays => ?_⟩⟩
  · obtain ⟨hgr, hx, -⟩ := threadCtx_spec hat.2
    subst hgr hx
    rcases hi with ⟨rfl, rfl⟩ | ⟨rfl, rfl⟩ | ⟨rfl, rfl⟩ | ⟨rfl, rfl⟩
    · exact wait_spec hat hbad hk (op := 0) (by rw [exec_waitGe, execWaitGe]) (fun _ _ => decide_eq_true_iff)
    · exact wait_spec hat hbad hk (op := 1) (by rw [exec_waitEq, execWaitEq]) (fun _ _ => decide_eq_true_iff)
    · exact wait_spec hat hbad hk (op := 2) (by rw [exec_waitNe, execWaitNe]) (fun _ _ => decide_eq_true_iff)
    · exact wait_spec hat hbad hk (op := 3) (by rw [exec_waitAny, execWaitAny]) (fun _ _ => decide_eq_true_iff)
  · obtain ⟨hruns, hleft⟩ := resumed_runs hrun hp hok
    refine ⟨hruns, hleft, fun n need hkind => by rw [resumed_bar hrun hp hok hkind], fun d o l y hkind hy hl r => ?_⟩
    rw [resumed_wait hrun hp hok hkind]
    exact reg_waitWrites_one g hy d hl r
  · rcases hstays with hruns | hnone
    · obtain ⟨p, hp⟩ := Option.isSome_iff_exists.mp hruns
      simp only [Group.resumed, hp]
    · simp only [Group.resumed, hnone]
      cases g.run <;> rfl

end Waits

end Sys2Proof.Machine
end

section
/-! SUPPORT. Signal words (05_thread_groups.md R168, R169): what one update leaves of a tile. -/

namespace Sys2Proof.Machine

open Sys2Proof

/-! Numbers in per-tile space. -/

theorem trd_twr_self (s : State) (t off : Nat) (l : List Byte) : (s.twr t off l).trd t off l.length = l := by
  refine List.ext_getElem (by simp [State.trd]) fun i _ hi => ?_
  simp only [State.trd, List.getElem_map, List.getElem_range]
  exact tb_twr_in s t off l hi

theorem tnat_twr_self (s : State) (t off n v : Nat) : (s.twr t off (toLE n v)).tnat t off n = v % 2 ^ (8 * n) := by
  have h := trd_twr_self s t off (toLE n v)
  rw [length_toLE] at h
  rw [State.tnat, h, leNat_toLE]

theorem tnat_congr {s u : State} {t off n : Nat} (h : ∀ a, off ≤ a → a < off + n → u.tb t a = s.tb t a) : u.tnat t off n = s.tnat t off n := by
  refine congrArg leNat (List.map_congr_left fun i hi => ?_)
  have := List.mem_range.mp hi
  exact h (off + i) (by omega) (by omega)

theorem tb_congr {s u : State} (h : u.tmem = s.tmem) (t a : Nat) : u.tb t a = s.tb t a := by rw [State.tb, State.tb, h]

theorem sig_congr {s u : State} (h : u.tmem = s.tmem) (t w : Nat) : u.sig t w = s.sig t w := tnat_congr fun a _ _ => tb_congr h t a

theorem sig_lt (s : State) (t w : Nat) : s.sig t w < 2 ^ 64 := by
  have h := leNat_lt (s.trd t (sigOff w) 8)
  rwa [State.trd, List.length_map, List.length_range] at h

/-! What an update may touch. -/

/-- What an update of signal words leaves of a group. -/
def Group.kept (g : Group) : FMap Word × FMap Word × Nat × Option Path × List Access := (g.regs, g.preds, g.exited, g.run, g.outst)

/-- What it leaves of a block. -/
def Block.kept (b : Block) : Nat × List Bar × List (FMap Word × FMap Word × Nat × Option Path × List Access) := (b.id, b.bars, b.groups.map Group.kept)

theorem SignalOnly.refl (s : State) (k : Nat) : SignalOnly s s k := ⟨rfl, fun _ _ => rfl, (s.tile k).blocks, (s.tile k).tags, rfl, rfl⟩

theorem SignalOnly.trans {s t u : State} {k : Nat} (h : SignalOnly s t k) (i : SignalOnly t u k) : SignalOnly s u k := by
  obtain ⟨hst, hother, bs, tg, htile, hkept⟩ := h
  obtain ⟨htu, iother, cs, th, itile, ikept⟩ := i
  refine ⟨?_, fun j hj => (iother j hj).trans (hother j hj), cs, th, ?_, ?_⟩
  · rw [htu, hst]
  · rw [itile, htile]
  · rw [htile] at ikept
    exact ikept.trans hkept

theorem SignalOnly.of_onlyRegs {s u : State} (h : OnlyRegs s u) (k : Nat) : SignalOnly s u k := by
  have htile : ∀ j, u.tile j = s.tile j := fun j => tile_congr (by rw [h]) j
  refine ⟨?_, fun j _ => htile j, (s.tile k).blocks, (s.tile k).tags, htile k, rfl⟩
  unfold OnlyRegs at h
  rw [h]

theorem SignalOnly.twr (s : State) (t off : Nat) (l : List Byte) : SignalOnly s (s.twr t off l) t :=
  ⟨rfl, fun _ _ => rfl, (s.tile t).blocks, (s.tile t).tags, rfl, rfl⟩

theorem SignalOnly.modTile (s : State) (t : Nat) {f : Tile → Tile} {bs : List Block} {tg : List RelTag} (hf : f (s.tile t) = { s.tile t with blocks := bs, tags := tg })
    (hkept : bs.map Block.kept = (s.tile t).blocks.map Block.kept) : SignalOnly s (s.modTile t f) t :=
  ⟨rfl, fun _ hj => tile_modTile_ne s f hj, bs, tg, (tile_modTile_self s t f).trans hf, hkept⟩

/-! The lanes that wait on a word (R168). -/

/-- A lane's wait after word `w` has taken the value `v`. -/
def LaneWait.woken (w v : Nat) (y : LaneWait) : LaneWait := if y.word = w ∧ y.got = none ∧ waitHolds y.op v y.val = true then { y with got := some v } else y

/-- A parked path after it. -/
def Park.woken (w v : Nat) (k : Park) : Park :=
  match k.kind with
  | .wait d o ls => { k with kind := .wait d o (ls.map (LaneWait.woken w v)) }
  | .bar _ _ => k

/-- A group and a block after it. -/
def Group.woken (w v : Nat) (g : Group) : Group := { g with parked := g.parked.map (Park.woken w v) }
def Block.woken (w v : Nat) (b : Block) : Block := { b with groups := b.groups.map (Group.woken w v) }

theorem wakeWord_eq (s : State) (t w v : Nat) : wakeWord s t w v = s.modTile t (fun T => { T with blocks := T.blocks.map (Block.woken w v) }) := rfl

theorem woken_kept (w v : Nat) (b : Block) : (b.woken w v).kept = b.kept := by
  have hgroups : (b.woken w v).groups.map Group.kept = b.groups.map Group.kept := by
    rw [Block.woken, List.map_map]
    rfl
  rw [Block.kept, hgroups]
  rfl

/-- A lane that waits on the word is satisfied where its condition holds. -/
theorem woken_got {w v : Nat} {y : LaneWait} (hw : (y.woken w v).word = w) (hmet : waitHolds (y.woken w v).op v (y.woken w v).val = true) :
    (y.woken w v).got.isSome = true := by
  unfold LaneWait.woken at hw hmet ⊢
  split at hw
  · next h => rw [if_pos h]; rfl
  · next h =>
    rw [if_neg h] at hmet ⊢
    rw [Option.isSome_iff_ne_none]
    exact fun hnone => h ⟨hw, hnone, hmet⟩

/-- After the word has taken the value, no lane whose condition it meets is left waiting. -/
theorem woken_satisfied {w v : Nat} {bs : List Block} : ∀ b ∈ bs.map (Block.woken w v), ∀ g ∈ b.groups, ∀ k ∈ g.parked, ∀ d o ls, k.kind = .wait d o ls →
    ∀ y ∈ ls, y.word = w → waitHolds y.op v y.val = true → y.got.isSome = true := by
  intro b hb g hg k hk d o ls hkind y hy hw hmet
  obtain ⟨b0, -, rfl⟩ := List.mem_map.mp hb
  obtain ⟨g0, -, rfl⟩ := List.mem_map.mp hg
  obtain ⟨k0, -, rfl⟩ := List.mem_map.mp hk
  unfold Park.woken at hkind
  split at hkind
  · obtain ⟨-, -, rfl⟩ := ParkKind.wait.inj hkind
    obtain ⟨y0, -, rfl⟩ := List.mem_map.mp hy
    exact woken_got hw hmet
  · next hbar => rw [hbar] at hkind; exact absurd hkind (by simp)

/-! One update (R168, R169). -/

/-- Word `w` of tile `t` has taken the value `v` modulo 2^64, and nothing but signal words has changed. -/
structure SigPut (s u : State) (t w v : Nat) : Prop where
  value : u.sig t w = v % 2 ^ 64
  frame : ∀ a, a < sigOff w ∨ sigOff w + 8 ≤ a → u.tb t a = s.tb t a
  only : SignalOnly s u t

section
variable {s u v : State} {t w x : Nat}

theorem SigPut.then_same (h : SigPut s u t w x) (hmem : v.tmem = u.tmem) (honly : SignalOnly u v t) : SigPut s v t w x :=
  ⟨(sig_congr hmem t w).trans h.value, fun a ha => (tb_congr hmem t a).trans (h.frame a ha), h.only.trans honly⟩

theorem SigPut.of_same (h : SigPut u v t w x) (hmem : u.tmem = s.tmem) (honly : SignalOnly s u t) : SigPut s v t w x :=
  ⟨h.value, fun a ha => (h.frame a ha).trans (tb_congr hmem t a), honly.trans h.only⟩

/-- Another word reads as before. -/
theorem SigPut.sig_ne (h : SigPut s u t w x) {k : Nat} (hk : k ≠ w) : u.sig t k = s.sig t k := tnat_congr fun a hlo hhi => h.frame a (by
  unfold sigOff at hlo hhi ⊢
  omega)

end

section
variable (s : State) (t w : Nat)

theorem wakeWord_signalOnly (v : Nat) : SignalOnly s (wakeWord s t w v) t := by
  rw [wakeWord_eq]
  refine SignalOnly.modTile s t (tg := (s.tile t).tags) rfl ?_
  rw [List.map_map]
  exact List.map_congr_left fun b _ => woken_kept w v b

theorem setSig_put (v : Nat) : SigPut s (setSig s t w v) t w v := by
  have hput : SigPut s (s.twr t (sigOff w) (toLE 8 v)) t w v :=
    ⟨tnat_twr_self s t (sigOff w) 8 v, fun a ha => tb_twr_out s t (sigOff w) _ (by rwa [length_toLE]), .twr ..⟩
  exact hput.then_same rfl (wakeWord_signalOnly ..)

theorem untagSig_signalOnly : SignalOnly s (untagSig s t w) t := .modTile s t rfl rfl

theorem tagSig_signalOnly (scope : Nat) (r : RelTag) : SignalOnly s (tagSig s t w scope r) t := by
  unfold tagSig
  split
  · exact .modTile s t rfl rfl
  · exact untagSig_signalOnly ..

theorem tagSig_tmem (scope : Nat) (r : RelTag) : (tagSig s t w scope r).tmem = s.tmem := by
  unfold tagSig
  split <;> rfl

theorem tagSig_blocks (scope : Nat) (r : RelTag) : ((tagSig s t w scope r).tile t).blocks = (s.tile t).blocks := by
  unfold tagSig
  split
  · rw [tile_modTile_self]
  · rw [untagSig, tile_modTile_self]

theorem setSig_blocks (v : Nat) : ((setSig s t w v).tile t).blocks = (s.tile t).blocks.map (Block.woken w v) := by
  rw [setSig, wakeWord_eq, tile_modTile_self]
  rfl

/-- The acquires of lanes that an update satisfies touch registers alone. -/
theorem acquires_only (l : List (Nat × RelTag)) : ∀ s : State, OnlyRegs s (l.foldl (fun s y => if ordAcq y.1 then sigAcquire s t w (ordScope y.1) y.2 else s) s) := by
  induction l with
  | nil => exact fun s => rfl
  | cons y l ih =>
    intro s
    have hstep : OnlyRegs s (if ordAcq y.1 then sigAcquire s t w (ordScope y.1) y.2 else s) := by
      split
      · exact sigAcquire_only ..
      · rfl
    exact hstep.trans (ih _)

theorem sigPlain_put (op v : Nat) : SigPut s (sigPlain s t w op v) t w (sigApply op (s.sig t w) v) :=
  (setSig_put ..).then_same rfl (untagSig_signalOnly ..)

theorem sigRelease_only (op v scope : Nat) (r : RelTag) :
    OnlyRegs (tagSig (setSig s t w (sigApply op (s.sig t w) v)) t w scope r) (sigRelease s t w op v scope r) :=
  acquires_only t w (newlyMet s t w (sigApply op (s.sig t w) v)) _

theorem sigRelease_put (op v scope : Nat) (r : RelTag) : SigPut s (sigRelease s t w op v scope r) t w (sigApply op (s.sig t w) v) := by
  have honly := sigRelease_only s t w op v scope r
  have htag := (setSig_put s t w (sigApply op (s.sig t w) v)).then_same (tagSig_tmem ..) (tagSig_signalOnly _ t w scope r)
  exact htag.then_same (by rw [honly]) (.of_onlyRegs honly t)

theorem sigRelease_blocks (op v scope : Nat) (r : RelTag) :
    ((sigRelease s t w op v scope r).tile t).blocks = (s.tile t).blocks.map (Block.woken w (sigApply op (s.sig t w) v)) := by
  have htiles : (sigRelease s t w op v scope r).tiles = (tagSig (setSig s t w (sigApply op (s.sig t w) v)) t w scope r).tiles := by rw [sigRelease_only]
  rw [tile_congr htiles, tagSig_blocks, setSig_blocks]

end

end Sys2Proof.Machine
end

section
/-! Signal operations of a group and updates of its words (O18). -/

namespace Sys2Proof.Machine

open Sys2Proof

/-! Lanes in ascending order (05_thread_groups.md R159, R168). -/

/-- What a lane leaves of a word under an operation: 0 st, 1 add, 2 or, 3 ld. -/
def TC.sigNew (tc : TC) (op old l : Nat) : Nat :=
  match op with
  | 0 => tc.get l tc.x.a 2
  | 1 => (old + tc.get l tc.x.a 2) % 2 ^ 64
  | 2 => old ||| tc.get l tc.x.a 2
  | _ => old

/-- A word after the lanes of a list that name it. -/
def TC.sigReach (tc : TC) (s : State) (op k : Nat) (ls : List Nat) : Nat := (ls.filter (fun l => decide (tc.word l = k))).foldl (tc.sigNew op) (s.sig tc.gr.tile k)

/-- The state after one lane. -/
def TC.sigStep (tc : TC) (op : Nat) (s : State) (l : Nat) : State :=
  if op = 3 then tc.sigAcq s (tc.word l)
  else if ordRel tc.x.mod.toNat then
    sigRelease (tc.sigAcq s (tc.word l)) tc.gr.tile (tc.word l) op (tc.get l tc.x.a 2) (ordScope tc.x.mod.toNat) tc.agent
  else sigPlain (tc.sigAcq s (tc.word l)) tc.gr.tile (tc.word l) op (tc.get l tc.x.a 2)

theorem sigLanes_cons (tc : TC) (op l : Nat) (r : List Nat) (s : State) (w : List (Nat × Nat)) : sigLanes tc op (l :: r) s w
    = sigLanes tc op r (tc.sigStep op s l) (if op = 0 then w else w ++ tc.put l 2 (s.sig tc.gr.tile (tc.word l))) := rfl

/-- Signal words of tile `t` have been updated: no byte outside them has changed. -/
structure SigWords (s u : State) (t : Nat) : Prop where
  frame : ∀ a, a < 0x1A00000 ∨ 0x1A08000 ≤ a → u.tb t a = s.tb t a
  only : SignalOnly s u t

theorem SigWords.refl (s : State) (t : Nat) : SigWords s s t := ⟨fun _ _ => rfl, .refl s t⟩

theorem SigWords.trans {s u v : State} {t : Nat} (h : SigWords s u t) (k : SigWords u v t) : SigWords s v t :=
  ⟨fun a ha => (k.frame a ha).trans (h.frame a ha), h.only.trans k.only⟩

theorem SigPut.words {s u : State} {t w v : Nat} (h : SigPut s u t w v) (hw : w < 4096) : SigWords s u t :=
  ⟨fun a ha => h.frame a (by unfold sigOff; omega), h.only⟩

section
variable (tc : TC) (op : Nat) (s : State) (l : Nat)

theorem sigNew_lt {old : Nat} (hold : old < 2 ^ 64) : tc.sigNew op old l < 2 ^ 64 := by
  have hval := get_lt tc l tc.x.a 2
  unfold TC.sigNew
  split
  · exact hval
  · exact Nat.mod_lt _ (by decide)
  · exact Nat.or_lt_two_pow hold hval
  · exact hold

/-- An operation that updates its word gives it the new value. -/
theorem sigApply_eq_sigNew (hop : op < 3) (old : Nat) : sigApply op old (tc.get l tc.x.a 2) = tc.sigNew op old l := by
  rcases (by omega : op = 0 ∨ op = 1 ∨ op = 2) with rfl | rfl | rfl <;> rfl

theorem sigStep_reads (hop : op = 3) : OnlyRegs s (tc.sigStep op s l) := by
  rw [TC.sigStep, if_pos hop]
  exact sigAcq_only ..

theorem sigStep_puts (hop : op < 3) : SigPut s (tc.sigStep op s l) tc.gr.tile (tc.word l) (tc.sigNew op (s.sig tc.gr.tile (tc.word l)) l) := by
  have honly := sigAcq_only tc s (tc.word l)
  have hmem : (tc.sigAcq s (tc.word l)).tmem = s.tmem := by rw [honly]
  rw [← sigApply_eq_sigNew tc op l hop, ← sig_congr hmem, TC.sigStep, if_neg (by omega)]
  split
  · exact (sigRelease_put ..).of_same hmem (.of_onlyRegs honly _)
  · exact (sigPlain_put ..).of_same hmem (.of_onlyRegs honly _)

variable (hop : op ≤ 3) (hw : tc.word l < 4096)
include hop

/-- What one lane leaves: its word, and nothing else of the signal words. -/
theorem sigStep_sig (k : Nat) : (tc.sigStep op s l).sig tc.gr.tile k = if tc.word l = k then tc.sigNew op (s.sig tc.gr.tile k) l else s.sig tc.gr.tile k := by
  rcases Nat.lt_or_ge op 3 with hlt | hge
  · have hput := sigStep_puts tc op s l hlt
    split
    · next hk => rw [← hk, hput.value, Nat.mod_eq_of_lt (sigNew_lt tc op l (sig_lt ..))]
    · next hk => exact hput.sig_ne (Ne.symm hk)
  · obtain rfl : op = 3 := by omega
    have honly := sigStep_reads tc 3 s l rfl
    rw [sig_congr (by rw [honly])]
    exact (ite_self _).symm

include hw in
theorem sigStep_words : SigWords s (tc.sigStep op s l) tc.gr.tile := by
  rcases Nat.lt_or_ge op 3 with hlt | hge
  · exact (sigStep_puts tc op s l hlt).words hw
  · have honly := sigStep_reads tc op s l (by omega)
    exact ⟨fun a _ => tb_congr (by rw [honly]) _ a, .of_onlyRegs honly _⟩

/-- The words after a lane and more. -/
theorem sigReach_step (k : Nat) (ls : List Nat) : tc.sigReach (tc.sigStep op s l) op k ls = tc.sigReach s op k (l :: ls) := by
  rw [TC.sigReach, TC.sigReach, sigStep_sig tc op s l hop, List.filter_cons]
  by_cases hk : tc.word l = k
  · rw [if_pos hk, if_pos (decide_eq_true hk), List.foldl_cons]
  · rw [if_neg hk, if_neg (by simpa using hk)]

end

section
variable {tc : TC} {op : Nat} (hop : op ≤ 3)
include hop

theorem sigLanes_words (ls : List Nat) : ∀ (s : State) (w : List (Nat × Nat)), (∀ l ∈ ls, tc.word l < 4096) → SigWords s (sigLanes tc op ls s w).1 tc.gr.tile := by
  induction ls with
  | nil => exact fun s w _ => .refl ..
  | cons l ls ih =>
    intro s w h
    rw [List.forall_mem_cons] at h
    exact (sigStep_words tc op s l hop h.1).trans (ih _ _ h.2)

theorem sigLanes_sig (k : Nat) (ls : List Nat) : ∀ (s : State) (w : List (Nat × Nat)), (sigLanes tc op ls s w).1.sig tc.gr.tile k = tc.sigReach s op k ls := by
  induction ls with
  | nil => exact fun s w => rfl
  | cons l ls ih => exact fun s w => (ih _ _).trans (sigReach_step tc op s l hop k ls)

/-- Each lane finds what the lanes before it have left. -/
theorem sigLanes_writes (hret : op ≠ 0) (ls : List Nat) : ∀ (s : State) (w : List (Nat × Nat)), ls.Nodup → (sigLanes tc op ls s w).2
    = w ++ (ls.map (fun l => tc.put l 2 (tc.sigReach s op (tc.word l) (ls.takeWhile (fun k => decide (k ≠ l)))))).flatten := by
  induction ls with
  | nil => exact fun s w _ => (List.append_nil w).symm
  | cons l ls ih =>
    intro s w hd
    rw [List.nodup_cons] at hd
    rw [sigLanes_cons, if_neg hret, ih _ _ hd.2, List.map_cons, List.flatten_cons, List.append_assoc]
    refine congrArg (w ++ ·) (congrArg₂ (· ++ ·) ?_ (congrArg List.flatten (List.map_congr_left fun k hk => ?_)))
    · rw [List.takeWhile_cons, if_neg (by simp)]
      rfl
    · have hne : l ≠ k := fun h => hd.1 (h ▸ hk)
      rw [sigReach_step tc op s l hop, List.takeWhile_cons, if_pos (decide_eq_true hne)]

theorem sigLanes_store (h0 : op = 0) (ls : List Nat) : ∀ (s : State) (w : List (Nat × Nat)), (sigLanes tc op ls s w).2 = w := by
  subst h0
  induction ls with
  | nil => exact fun s w => rfl
  | cons l ls ih => exact fun s w => ih _ _

end

/-! The instructions. -/

theorem exec_sigSt (gr : GRef) (x : TInstr) (s : State) : exec (.sigSt gr x) s = execSigSt gr x s := rfl
theorem exec_sigAdd (gr : GRef) (x : TInstr) (s : State) : exec (.sigAdd gr x) s = execSigAdd gr x s := rfl
theorem exec_sigOr (gr : GRef) (x : TInstr) (s : State) : exec (.sigOr gr x) s = execSigOr gr x s := rfl
theorem exec_sigLd (gr : GRef) (x : TInstr) (s : State) : exec (.sigLd gr x) s = execSigLd gr x s := rfl

section
variable {s : State} {tc : TC}

theorem sigBad_none (h : ∀ l ∈ tc.act, 0x1A00000 ≤ tc.get l tc.x.b 1 ∧ tc.get l tc.x.b 1 + 8 ≤ 0x1A08000 ∧ tc.get l tc.x.b 1 % 8 = 0) : tc.sigBad = none := by
  rw [TC.sigBad, List.findSome?_eq_none_iff]
  intro l hl
  obtain ⟨hlo, hhi, hal⟩ := h l hl
  have hin : inRegion .sig (tc.get l tc.x.b 1) 8 = true := decide_eq_true ⟨hlo, hhi⟩
  simp [sigFault, hin, hal]

variable (hat : ThreadAt s tc.gr tc.x tc)
include hat

theorem sigOp_answers {op : Nat} (hk : firstBad (checksSig (decide (op ≠ 3)) (decide (op ≠ 0)) tc) = none) (hbad : tc.sigBad = none) :
    sigOp tc.gr tc.x s op = .next ((sigLanes tc op tc.act s []).1.modGroup tc.gr (fun g => (g.applyWrites (sigLanes tc op tc.act s []).2).advance tc.len)) := by
  rw [sigOp, runThread_eq hat, guarded, hk, hbad, ← tileNum_zero (sigLanes tc op tc.act s []).1 tc.gr.tile]
  rfl

/-- A signal operation whose words all lie in the signal words. -/
theorem sigOp_spec {i : Instr} {op : Nat} (hop : op ≤ 3) (hi : exec i s = sigOp tc.gr tc.x s op) (hk : firstBad (checksSig (decide (op ≠ 3)) (decide (op ≠ 0)) tc) = none)
    (hin : ∀ l ∈ tc.act, 0x1A00000 ≤ tc.get l tc.x.b 1 ∧ tc.get l tc.x.b 1 + 8 ≤ 0x1A08000 ∧ tc.get l tc.x.b 1 % 8 = 0) :
    Completes i s (fun t => ∃ (u : State) (f : Group → Group), t = u.modGroup tc.gr f ∧ SignalOnly s u tc.gr.tile
      ∧ (∀ k, k < 4096 → t.sig tc.gr.tile k = tc.sigReach s op k tc.act)
      ∧ (∀ a, a < 0x1A00000 ∨ 0x1A08000 ≤ a → t.tb tc.gr.tile a = s.tb tc.gr.tile a)
      ∧ (op = 0 → GoesOn tc (tc.path.pc + tc.len) (f tc.grp))
      ∧ (op ≠ 0 → Wrote tc 2 (fun l => tc.sigReach s op (tc.word l) (tc.act.takeWhile (fun k => decide (k ≠ l)))) (f tc.grp))) := by
  have hword : ∀ l ∈ tc.act, tc.word l < 4096 := fun l hl => by
    obtain ⟨hlo, hhi, -⟩ := hin l hl
    unfold TC.word
    omega
  obtain ⟨hframe, honly⟩ := sigLanes_words hop tc.act s [] hword
  refine ⟨_, hi.trans (sigOp_answers hat hk (sigBad_none hin)), _, fun g => (g.applyWrites (sigLanes tc op tc.act s []).2).advance tc.len, rfl, honly,
    fun k _ => sigLanes_sig hop k tc.act s [], hframe, fun h0 => ?_, fun hret => ?_⟩
  · rw [sigLanes_store hop h0]
    exact goesOn_advance hat
  · rw [sigLanes_writes hop hret tc.act s [] (act_nodup hat), List.nil_append]
    have hwrote := wrote_of_put hat.2 (fun l => (tc.put l 2 (tc.sigReach s op (tc.word l) (tc.act.takeWhile (fun k => decide (k ≠ l)))), NEv.zero)) 2 _ (fun _ => rfl)
    rw [gather_fst, List.map_map] at hwrote
    exact hwrote

end

theorem signalWordUpdate_answers {s : State} {t w : Nat} (op : SigOp) (v : BitVec 64) (ht : t < 160) (hw : w < 4096) (hpow : tilePowered s t = true) :
    exec (.signalWordUpdate t w op v) s = .next (sigRelease s t w (sigOpNum op) v.toNat 4 (engineTag t)) := by
  have hexec : exec (.signalWordUpdate t w op v) s = execSignalWordUpdate t w op v s := rfl
  rw [hexec, execSignalWordUpdate, onUnit, if_pos (decide_eq_true ⟨ht, hw⟩), if_pos hpow]

/-- What an update from outside a group leaves of its word, of the other bytes and of the lanes that wait (R169). -/
theorem sigRelease_spec (s : State) (t w : Nat) (op : SigOp) (v : BitVec 64) :
    let u := sigRelease s t w (sigOpNum op) v.toNat 4 (engineTag t)
    u.sig t w = sigApply (sigOpNum op) (s.sig t w) v.toNat
      ∧ (∀ a, a < sigOff w ∨ sigOff w + 8 ≤ a → u.tb t a = s.tb t a)
      ∧ (∀ b ∈ (u.tile t).blocks, ∀ g ∈ b.groups, ∀ k ∈ g.parked, ∀ d o ls, k.kind = .wait d o ls →
          ∀ y ∈ ls, y.word = w → waitHolds y.op (sigApply (sigOpNum op) (s.sig t w) v.toNat) y.val = true → y.got.isSome = true)
      ∧ SignalOnly s u t := by
  have hlt : sigApply (sigOpNum op) (s.sig t w) v.toNat < 2 ^ 64 := by
    cases op with
    | st => exact v.isLt
    | add => exact Nat.mod_lt _ (by decide)
    | or => exact Nat.or_lt_two_pow (sig_lt ..) v.isLt
  obtain ⟨hvalue, hframe, honly⟩ := sigRelease_put s t w (sigOpNum op) v.toNat 4 (engineTag t)
  dsimp only
  rw [sigRelease_blocks]
  exact ⟨hvalue.trans (Nat.mod_eq_of_lt hlt), hframe, woken_satisfied, honly⟩

/-- Settles O18: the lanes in their order, each by one update of its word. -/
theorem signalOps : Obligations.SignalOps := by
  refine ⟨fun s gr x tc hat hin i op hi hk => ?_, fun s t w op v ht hw hpow => ⟨_, signalWordUpdate_answers op v ht hw hpow, ?_⟩⟩
  · obtain ⟨hgr, hx, -⟩ := threadCtx_spec hat.2
    subst hgr hx
    simp only [List.mem_cons, Prod.mk.injEq, List.not_mem_nil, or_false] at hi
    rcases hi with ⟨rfl, rfl⟩ | ⟨rfl, rfl⟩ | ⟨rfl, rfl⟩ | ⟨rfl, rfl⟩
    · exact sigOp_spec hat (by decide) (by rw [exec_sigSt, execSigSt]) hk hin
    · exact sigOp_spec hat (by decide) (by rw [exec_sigAdd, execSigAdd]) hk hin
    · exact sigOp_spec hat (by decide) (by rw [exec_sigOr, execSigOr]) hk hin
    · exact sigOp_spec hat (by decide) (by rw [exec_sigLd, execSigLd]) hk hin
  · have hspec := sigRelease_spec s t w op v
    cases op with
    | st => exact hspec
    | add => exact hspec
    | or => exact hspec

end Sys2Proof.Machine
end

section
/-! SUPPORT. Stores by address (05_thread_groups.md R158): the byte map of the lanes, its runs, and their writes. -/

namespace Sys2Proof.Machine

open Sys2Proof

/-! Maps as lists of entries with distinct keys. -/

section
variable {α : Type}

/-- The keys of a map. -/
def fkeys (m : FMap α) : List Nat := m.map (fun y => y.1)

theorem fget_absent (d : Nat → α) {m : FMap α} {k : Nat} (h : k ∉ fkeys m) : fget d m k = d k := by
  induction m with
  | nil => rfl
  | cons y m ih =>
    obtain ⟨hne, hrest⟩ := List.ne_and_not_mem_of_not_mem_cons h
    exact (if_neg (Ne.symm hne)).trans (ih hrest)

theorem fget_present (d e : Nat → α) {m : FMap α} {k : Nat} (h : k ∈ fkeys m) : fget d m k = fget e m k := by
  induction m with
  | nil => exact absurd h List.not_mem_nil
  | cons y m ih =>
    by_cases hk : y.1 = k
    · exact (if_pos hk).trans (if_pos hk).symm
    · exact (if_neg hk).trans ((ih ((List.mem_cons.mp h).resolve_left (Ne.symm hk))).trans (if_neg hk).symm)

/-- One map before another, where they share no key. -/
theorem fget_append (d : Nat → α) (l m : FMap α) (hdis : ∀ k ∈ fkeys l, k ∉ fkeys m) (k : Nat) : fget d (l ++ m) k = fget (fget d l) m k := by
  by_cases hk : k ∈ fkeys l
  · have hleft : ∀ l : FMap α, k ∈ fkeys l → fget d (l ++ m) k = fget d l k := fun l => by
      induction l with
      | nil => exact fun h => absurd h List.not_mem_nil
      | cons y l ih =>
        intro h
        by_cases hy : y.1 = k
        · exact (if_pos hy).trans (if_pos hy).symm
        · exact (if_neg hy).trans ((ih ((List.mem_cons.mp h).resolve_left (Ne.symm hy))).trans (if_neg hy).symm)
    rw [hleft l hk, fget_absent _ (hdis k hk)]
  · have hright : ∀ l : FMap α, k ∉ fkeys l → fget d (l ++ m) k = fget d m k := fun l => by
      induction l with
      | nil => exact fun _ => rfl
      | cons y l ih =>
        intro h
        obtain ⟨hne, hrest⟩ := List.ne_and_not_mem_of_not_mem_cons h
        exact (if_neg (Ne.symm hne)).trans (ih hrest)
    rw [hright l hk]
    by_cases hm : k ∈ fkeys m
    · exact fget_present _ _ hm
    · rw [fget_absent _ hm, fget_absent _ hm, fget_absent _ hk]

theorem fkeys_append (l m : FMap α) : fkeys (l ++ m) = fkeys l ++ fkeys m := List.map_append

theorem mem_fkeys_ferase {m : FMap α} {k j : Nat} : j ∈ fkeys (ferase m k) ↔ j ≠ k ∧ j ∈ fkeys m := by
  induction m with
  | nil => simp [ferase, fkeys]
  | cons y m ih =>
    have hcons : fkeys (y :: m) = y.1 :: fkeys m := rfl
    obtain ⟨i, v⟩ := y
    rw [ferase, hcons, List.mem_cons]
    by_cases hi : i = k
    · rw [if_pos hi, ih]
      simp only [hi]
      constructor
      · exact fun ⟨h1, h2⟩ => ⟨h1, .inr h2⟩
      · exact fun ⟨h1, h2⟩ => ⟨h1, h2.resolve_left h1⟩
    · rw [if_neg hi]
      have hcons' : fkeys ((i, v) :: ferase m k) = i :: fkeys (ferase m k) := rfl
      rw [hcons', List.mem_cons, ih]
      constructor
      · rintro (rfl | ⟨h1, h2⟩)
        · exact ⟨hi, .inl rfl⟩
        · exact ⟨h1, .inr h2⟩
      · rintro ⟨h1, rfl | h2⟩
        · exact .inl rfl
        · exact .inr ⟨h1, h2⟩

theorem fkeys_finsert_perm (m : FMap α) (k : Nat) (v : α) : (fkeys (finsert m k v)).Perm (k :: fkeys m) := by
  induction m with
  | nil => exact .refl _
  | cons y m ih =>
    obtain ⟨i, w⟩ := y
    rw [finsert]
    split
    · exact .refl _
    · exact (ih.cons i).trans (.swap ..)

theorem ferase_nodup {m : FMap α} (h : (fkeys m).Nodup) (k : Nat) : (fkeys (ferase m k)).Nodup := by
  induction m with
  | nil => exact List.nodup_nil
  | cons y m ih =>
    obtain ⟨i, v⟩ := y
    obtain ⟨hnot, hrest⟩ := List.nodup_cons.mp h
    rw [ferase]
    split
    · exact ih hrest
    · exact List.nodup_cons.mpr ⟨fun hmem => hnot (mem_fkeys_ferase.mp hmem).2, ih hrest⟩

/-- An entry put in the place of any other of its key. -/
theorem fput_nodup {m : FMap α} (h : (fkeys m).Nodup) (k : Nat) (v : α) : (fkeys (finsert (ferase m k) k v)).Nodup :=
  (fkeys_finsert_perm _ k v).nodup_iff.mpr (List.nodup_cons.mpr ⟨fun hmem => (mem_fkeys_ferase.mp hmem).1 rfl, ferase_nodup h k⟩)

theorem mem_fkeys_fput {m : FMap α} {k j : Nat} {v : α} (h : j ∈ fkeys (finsert (ferase m k) k v)) : j = k ∨ j ∈ fkeys m :=
  (List.mem_cons.mp ((fkeys_finsert_perm _ k v).mem_iff.mp h)).imp_right fun hmem => (mem_fkeys_ferase.mp hmem).2

end

/-! The byte map of a store. -/

/-- The bytes of one lane put into a map. -/
def putLane (m : FMap Byte) (x : Nat × List Byte) : FMap Byte :=
  (List.range x.2.length).foldl (fun m i => finsert (ferase m (x.1 + i)) (x.1 + i) ((x.2[i]?).getD 0)) m

theorem putLane_keys (x : Nat × List Byte) {m : FMap Byte} (h : (fkeys m).Nodup) :
    (fkeys (putLane m x)).Nodup ∧ ∀ k ∈ fkeys (putLane m x), k ∈ fkeys m ∨ (x.1 ≤ k ∧ k < x.1 + x.2.length) := by
  have hfold : ∀ (L : List Nat), (∀ i ∈ L, i < x.2.length) → ∀ m : FMap Byte, (fkeys m).Nodup →
      let u := L.foldl (fun m i => finsert (ferase m (x.1 + i)) (x.1 + i) ((x.2[i]?).getD 0)) m
      (fkeys u).Nodup ∧ ∀ k ∈ fkeys u, k ∈ fkeys m ∨ (x.1 ≤ k ∧ k < x.1 + x.2.length) := by
    intro L
    induction L with
    | nil => exact fun _ m hm => ⟨hm, fun k hk => .inl hk⟩
    | cons i L ih =>
      intro hL m hm
      rw [List.forall_mem_cons] at hL
      obtain ⟨hd, hkeys⟩ := ih hL.2 _ (fput_nodup hm (x.1 + i) ((x.2[i]?).getD 0))
      refine ⟨hd, fun k hk => ?_⟩
      rcases hkeys k hk with hk | hin
      · rcases mem_fkeys_fput hk with rfl | hk
        · exact .inr ⟨by omega, by omega⟩
        · exact .inl hk
      · exact .inr hin
  exact hfold _ (fun i hi => List.mem_range.mp hi) m h

/-- The keys of a store's byte map are distinct, and each lies in the bytes of a lane. -/
theorem storeMap_keys (l : List (Nat × List Byte)) : (fkeys (storeMap l)).Nodup ∧ ∀ k ∈ fkeys (storeMap l), ∃ x ∈ l, x.1 ≤ k ∧ k < x.1 + x.2.length := by
  have hfold : ∀ (l : List (Nat × List Byte)) (m : FMap Byte), (fkeys m).Nodup →
      (fkeys (l.foldl putLane m)).Nodup ∧ ∀ k ∈ fkeys (l.foldl putLane m), k ∈ fkeys m ∨ ∃ x ∈ l, x.1 ≤ k ∧ k < x.1 + x.2.length := by
    intro l
    induction l with
    | nil => exact fun m hm => ⟨hm, fun k hk => .inl hk⟩
    | cons x l ih =>
      intro m hm
      obtain ⟨hput, hputKeys⟩ := putLane_keys x hm
      obtain ⟨hd, hkeys⟩ := ih _ hput
      refine ⟨hd, fun k hk => ?_⟩
      rcases hkeys k hk with hk | ⟨y, hy, hin⟩
      · exact (hputKeys k hk).imp_right fun hin => ⟨x, List.mem_cons_self .., hin⟩
      · exact .inr ⟨y, List.mem_cons_of_mem _ hy, hin⟩
  obtain ⟨hd, hkeys⟩ := hfold l [] List.nodup_nil
  exact ⟨hd, fun k hk => (hkeys k hk).resolve_left List.not_mem_nil⟩

/-! Its runs. -/

/-- The entries of one run. -/
def runEntries : Nat → List Byte → FMap Byte
  | _, [] => []
  | a, b :: l => (a, b) :: runEntries (a + 1) l

/-- The entries of runs. -/
def entriesOf (runs : List (Nat × List Byte)) : FMap Byte := runs.flatMap (fun r => runEntries r.1 r.2)

/-- A run within one 64-byte block. -/
def OneBlock (r : Nat × List Byte) : Prop := 0 < r.2.length ∧ (r.1 + r.2.length - 1) / 64 = r.1 / 64

/-- The runs of a map hold its entries, each within one block. -/
theorem runsOf_spec (m : FMap Byte) : entriesOf (runsOf m) = m ∧ ∀ r ∈ runsOf m, OneBlock r := by
  induction m with
  | nil => exact ⟨rfl, fun r hr => absurd hr List.not_mem_nil⟩
  | cons y m ih =>
    obtain ⟨k, v⟩ := y
    obtain ⟨hentries, hblocks⟩ := ih
    have hone : OneBlock (k, [v]) := ⟨Nat.zero_lt_one, rfl⟩
    unfold runsOf
    split
    · next hruns =>
      rw [hruns] at hentries
      refine ⟨?_, fun r hr => by rw [List.mem_singleton.mp hr]; exact hone⟩
      rw [← hentries]
      rfl
    · next j l rest hruns =>
      rw [hruns] at hentries hblocks
      rw [List.forall_mem_cons] at hblocks
      split
      · next hjoin =>
        obtain ⟨rfl, hsame⟩ := hjoin
        obtain ⟨⟨hpos, hblock⟩, hrest⟩ := hblocks
        refine ⟨?_, List.forall_mem_cons.mpr ⟨⟨Nat.succ_pos _, ?_⟩, hrest⟩⟩
        · rw [← hentries]; rfl
        · dsimp only [List.length_cons] at hpos hblock ⊢
          omega
      · refine ⟨?_, List.forall_mem_cons.mpr ⟨hone, List.forall_mem_cons.mpr hblocks⟩⟩
        rw [← hentries]
        rfl

theorem runEntries_keys (l : List Byte) : ∀ a k, k ∈ fkeys (runEntries a l) ↔ a ≤ k ∧ k < a + l.length := by
  induction l with
  | nil => intro a k; simp [runEntries, fkeys]
  | cons b l ih =>
    intro a k
    have hcons : fkeys (runEntries a (b :: l)) = a :: fkeys (runEntries (a + 1) l) := rfl
    rw [hcons, List.mem_cons, ih, List.length_cons]
    omega

/-- A memory that has taken a run reads as the run's entries over what it held. -/
theorem fget_runEntries (d : Nat → Byte) (l : List Byte) : ∀ a i (h : i < l.length), fget d (runEntries a l) (a + i) = l[i] := by
  induction l with
  | nil => exact fun a i h => absurd h (Nat.not_lt_zero i)
  | cons b l ih =>
    intro a i h
    cases i with
    | zero => exact if_pos rfl
    | succ i =>
      have hne : ¬ a = a + (i + 1) := by omega
      refine (if_neg hne).trans ?_
      rw [show a + (i + 1) = a + 1 + i by omega]
      exact ih (a + 1) i (Nat.lt_of_succ_lt_succ h)

end Sys2Proof.Machine
end

section
/-! Global loads and stores (O15). -/

namespace Sys2Proof.Machine

open Sys2Proof

/-! A write within one block (11_memory_system.md R335, R344). -/

/-- The failed stacks are as before an access. -/
theorem touchBlock_failed (key : Nat) (wr : Bool) (m : MemSys) (b : Nat) : (touchBlock key wr m b).failed = m.failed := by
  have hroom : ∀ c, (makeRoom m key c (b / 4)).failed = m.failed := fun c => by
    unfold makeRoom
    extract_lets l
    split <;> rfl
  unfold touchBlock
  dsimp only
  split
  · exact hroom _
  · rfl

theorem sliceTouch_failed (s : State) (r : Requester) (a n : Nat) (wr : Bool) : (sliceTouch s r a n wr).mem.failed = s.mem.failed := by
  have hfold : ∀ (L : List Nat) (m : MemSys), (L.foldl (touchBlock (mapKey s) wr) m).failed = m.failed := by
    intro L
    induction L with
    | nil => exact fun m => rfl
    | cons b L ih => exact fun m => (ih _).trans (touchBlock_failed ..)
  exact hfold (blocksOf a n) (countReqs (mapKey s) r a n s.mem)

/-- What writes of a store leave of a state `s`: memory, raw blocks made good and what the slices note. -/
structure Written (s u : State) : Prop where
  only : u = { s with hbm := u.hbm, raw := u.raw, mem := u.mem }
  raw : ∀ b ∈ u.raw, b ∈ s.raw
  failed : u.mem.failed = s.mem.failed

theorem Written.refl (s : State) : Written s s := ⟨rfl, fun _ h => h, rfl⟩

theorem Written.trans {s u v : State} (h : Written s u) (k : Written u v) : Written s v := by
  refine ⟨?_, fun b hb => h.raw b (k.raw b hb), k.failed.trans h.failed⟩
  rw [k.only, h.only]

/-- A run that a store may write in a state: in HBM, in no failed stack, and a raw block only whole. -/
structure RunOk (s : State) (r : Nat × List Byte) : Prop where
  block : OneBlock r
  inHbm : inHbm s r.1 r.2.length = true
  sound : storeFault s r = none

section
variable {s u : State} {r : Nat × List Byte}

theorem storeFault_none (h : storeFault s r = none) : s.mem.failed.contains (sliceOf s r.1) = false ∧ (r.1 / 64 ∈ s.raw → 64 ≤ r.2.length) := by
  unfold storeFault at h
  split at h
  · exact absurd h (by simp)
  · next hfailed =>
    split at h
    · exact absurd h (by simp)
    · next hraw =>
      refine ⟨by simpa using hfailed, fun hmem => ?_⟩
      by_contra hshort
      exact hraw (by simp [hmem]; omega)

/-- A run that may be written may be written after other runs. -/
theorem RunOk.after (h : RunOk s r) (hw : Written s u) : RunOk u r := by
  obtain ⟨hfailed, hraw⟩ := storeFault_none h.sound
  have hregs : u.regs = s.regs := by rw [hw.only]
  have hin : Machine.inHbm u r.1 r.2.length = Machine.inHbm s r.1 r.2.length := by
    have hend : memEnd u = memEnd s := by simp only [memEnd, State.rd64, rd_congr hregs]
    rw [Machine.inHbm, Machine.inHbm, hend]
  have hslice : sliceOf u r.1 = sliceOf s r.1 := by simp only [sliceOf, mapKey, State.rd64, rd_congr hregs]
  refine ⟨h.block, hin.trans h.inHbm, ?_⟩
  have hnot : ¬ (u.raw.contains (r.1 / 64) && decide (r.2.length < 64)) = true := by
    rw [Bool.and_eq_true, List.contains_iff_mem, decide_eq_true_eq]
    rintro ⟨hmem, hlt⟩
    have := hraw (hw.raw _ hmem)
    omega
  rw [storeFault, hw.failed, hslice, if_neg (by rw [hfailed]; exact Bool.false_ne_true), if_neg hnot]

theorem RunOk.lost (h : RunOk s r) : lostBlocks s r.1 r.2.length = [] := by
  obtain ⟨hfailed, -⟩ := storeFault_none h.sound
  obtain ⟨hpos, hblock⟩ := h.block
  unfold lostBlocks
  split
  · rfl
  · rw [List.filter_eq_nil_iff]
    intro b hb hlost
    obtain ⟨j, hj, rfl⟩ := List.mem_map.mp hb
    rw [List.mem_range, hblock] at hj
    obtain rfl : j = 0 := by omega
    have hslice : homeStack (mapKey s) ((r.1 / 64 + 0) / 4) = sliceOf s r.1 := by rw [sliceOf]; congr 1; omega
    rw [hslice, hfailed] at hlost
    exact absurd hlost (by decide)

theorem RunOk.part (h : RunOk s r) : partRaw s r.1 r.2.length = [] := by
  obtain ⟨-, hraw⟩ := storeFault_none h.sound
  obtain ⟨hpos, hblock⟩ := h.block
  rw [partRaw, List.filter_eq_nil_iff]
  intro b hb hpart
  rw [decide_eq_true_eq, hblock] at hpart
  obtain ⟨hlo, hhi, hnot⟩ := hpart
  obtain rfl : b = r.1 / 64 := by omega
  have := hraw hb
  exact hnot (by omega)

/-- The write of a run. -/
theorem memWrite_run (h : RunOk s r) (who : Requester) : Written s (memWrite s who r.1 r.2).1
    ∧ ∀ k, (memWrite s who r.1 r.2).1.hb k = fget (fun k => s.hb k) (runEntries r.1 r.2) k := by
  obtain ⟨hpos, -⟩ := h.block
  have heq : (memWrite s who r.1 r.2).1 = wroteBlocks { writeSkip (sliceTouch s who r.1 r.2.length true) [] r.1 r.2 with
      raw := (writeSkip (sliceTouch s who r.1 r.2.length true) [] r.1 r.2).raw.filter
        (fun b => [].contains b || decide (¬ (r.1 ≤ 64 * b ∧ 64 * b + 64 ≤ r.1 + r.2.length))) } [] r.1 r.2.length := by
    simp only [memWrite, if_neg (show ¬ r.2.length = 0 by omega), h.inHbm, h.lost, h.part, List.filter_nil, List.append_nil]
    rfl
  have hbytes : ∀ k, (memWrite s who r.1 r.2).1.hb k = (writeSkip (sliceTouch s who r.1 r.2.length true) [] r.1 r.2).hb k := fun k => by rw [heq]; rfl
  obtain ⟨hbm, hskip⟩ := writeSkip_only [] r.2 (sliceTouch s who r.1 r.2.length true) r.1
  refine ⟨?_, fun k => ?_⟩
  · rw [heq, hskip]
    exact ⟨rfl, fun b hb => (List.mem_filter.mp hb).1, sliceTouch_failed ..⟩
  · rw [hbytes]
    by_cases hk : r.1 ≤ k ∧ k < r.1 + r.2.length
    · obtain ⟨i, rfl⟩ := Nat.exists_eq_add_of_le hk.1
      have hi : i < r.2.length := by omega
      rw [fget_runEntries _ _ _ _ hi]
      exact writeSkip_in [] r.2 _ r.1 i hi rfl
    · rw [fget_absent _ (fun hmem => hk ((runEntries_keys ..).mp hmem))]
      exact writeSkip_out [] r.2 (sliceTouch s who r.1 r.2.length true) r.1 k (by omega)

end

/-- The writes of runs whose bytes are distinct. -/
theorem memWrite_runs (who : Requester) (runs : List (Nat × List Byte)) : ∀ s : State, (∀ r ∈ runs, RunOk s r) → (fkeys (entriesOf runs)).Nodup →
    let u := runs.foldl (fun s r => (memWrite s who r.1 r.2).1) s
    Written s u ∧ ∀ k, u.hb k = fget (fun k => s.hb k) (entriesOf runs) k := by
  induction runs with
  | nil => exact fun s _ _ => ⟨.refl s, fun k => rfl⟩
  | cons r runs ih =>
    intro s hok hd
    rw [List.forall_mem_cons] at hok
    have hcons : entriesOf (r :: runs) = runEntries r.1 r.2 ++ entriesOf runs := rfl
    rw [hcons, fkeys_append, List.nodup_append] at hd
    obtain ⟨-, hrest, hdis⟩ := hd
    obtain ⟨hwrite, hbytes⟩ := memWrite_run hok.1 who
    obtain ⟨hwrites, hall⟩ := ih _ (fun q hq => (hok.2 q hq).after hwrite) hrest
    refine ⟨hwrite.trans hwrites, fun k => (hall k).trans ?_⟩
    rw [hcons, fget_append _ _ _ (fun k hk hk' => hdis k hk k hk' rfl), funext hbytes]

/-! Resolved lanes. -/

section
variable {tc : TC} {s : State} {n perm al alCode : Nat}

theorem locate_loc {ga a : Nat} (h : locate s ga n = .loc a) : inHbm s a n = true := by
  unfold locate at h
  dsimp only at h
  split at h
  · cases h
  · split at h
    · split at h
      · next hin =>
        cases h
        exact hin
      · cases h
    · cases h

theorem resolveLane_local {l : Nat} {x : LaneAcc} (h : resolveLane tc s l n perm al alCode = .ok x) {a : Nat} (ha : x.place = .inl a) : inHbm s a n = true := by
  unfold resolveLane at h
  dsimp only at h
  split at h
  · cases h
  · split at h
    · cases h
    · split at h
      · cases h
      · split at h
        · cases h
        · split at h
          · cases h
          · split at h
            · cases h
            · next hloc =>
              cases h
              cases ha
              exact locate_loc hloc
            · split at h
              · cases h
                cases ha
              · cases h

/-- A local access of a resolved lane lies in HBM. -/
theorem resolveAll_local (ls : List Nat) : ∀ las, resolveAll tc s n perm al alCode ls = .ok las → ∀ p ∈ localOf las, inHbm s p.2 n = true := by
  induction ls with
  | nil =>
    intro las h p hp
    cases h
    exact absurd hp List.not_mem_nil
  | cons l ls ih =>
    intro las h p hp
    unfold resolveAll at h
    split at h
    · cases h
    · next x hx =>
      split at h
      · cases h
      · next xs hxs =>
        cases h
        obtain ⟨y, hy, hplace⟩ := List.mem_filterMap.mp hp
        rcases List.mem_cons.mp hy with rfl | hy
        · split at hplace
          · next a ha =>
            cases hplace
            exact resolveLane_local hx ha
          · cases hplace
        · exact ih xs hxs p (List.mem_filterMap.mpr ⟨y, hy, hplace⟩)

end

/-- The group once an access has gone outstanding. -/
def TC.issued (tc : TC) (writes : List (Nat × Nat)) (remote ndst : Nat) (store acq : Bool) (g : Group) : Group :=
  { g.advance tc.len with
    outst := g.outst ++ [⟨g.nextId, tc.path.pc, tc.mask, writes.map (fun w => (w.1, BitVec.ofNat 32 w.2)), none, remote, tc.x.dst.toNat, ndst, store, acq⟩]
    nextId := g.nextId + 1 }

/-- What a load notes in the slices, and the pairs that its acquires find. -/
def loadNoted (tc : TC) (s : State) (loc : List (Nat × Nat)) (acq : Bool) : State :=
  let s2 := (nub (loc.map (fun x => x.2 / 64))).foldl (fun s b => sliceTouch s (.thread tc.gr.tile) (64 * b) 64 false) s
  if acq then loc.foldl (fun s x => acquireCheck s x.2 (2 ^ tc.x.c.toNat) (ordScope tc.x.mod.toNat) (threadTag tc.gr.tile (tc.gr.blk * 32 + tc.gr.grp))) s2 else s2

theorem loadNoted_only (tc : TC) (s : State) (loc : List (Nat × Nat)) (acq : Bool) :
    loadNoted tc s loc acq = { s with regs := (loadNoted tc s loc acq).regs, mem := (loadNoted tc s loc acq).mem } := by
  have htouch : ∀ (L : List Nat) (u : State), ∃ m, L.foldl (fun s b => sliceTouch s (.thread tc.gr.tile) (64 * b) 64 false) u = { u with mem := m } := by
    intro L
    induction L with
    | nil => exact fun u => ⟨u.mem, rfl⟩
    | cons b L ih =>
      intro u
      obtain ⟨m, hm⟩ := ih (sliceTouch u (.thread tc.gr.tile) (64 * b) 64 false)
      exact ⟨m, hm⟩
  have hacquire : ∀ (L : List (Nat × Nat)) (u : State), OnlyRegs u
      (L.foldl (fun s x => acquireCheck s x.2 (2 ^ tc.x.c.toNat) (ordScope tc.x.mod.toNat) (threadTag tc.gr.tile (tc.gr.blk * 32 + tc.gr.grp))) u) := by
    intro L
    induction L with
    | nil => exact fun u => rfl
    | cons x L ih => exact fun u => (acquireCheck_only ..).trans (ih _)
  obtain ⟨m, hm⟩ := htouch (nub (loc.map (fun x => x.2 / 64))) s
  have honly := hacquire loc { s with mem := m }
  unfold OnlyRegs at honly
  rw [loadNoted, hm]
  cases acq with
  | false => rfl
  | true =>
    rw [if_pos rfl, honly]

/-- The values of a load's local lanes, by register. -/
def localWrites (tc : TC) (s : State) (loc : List (Nat × Nat)) : List (Nat × Nat) :=
  (loc.map (fun x => tc.put x.1 (wRegs tc.x.c.toNat) (s.hnat x.2 (2 ^ tc.x.c.toNat)))).foldl (· ++ ·) []

theorem mem_localWrites {tc : TC} {s : State} {loc : List (Nat × Nat)} {p : Nat × Nat} (hp : p ∈ loc) {j : Nat} (hj : j < wRegs tc.x.c.toNat) :
    (32 * (tc.x.dst.toNat + j) + p.1, s.hnat p.2 (2 ^ tc.x.c.toNat) / 2 ^ (32 * j) % 2 ^ 32) ∈ localWrites tc s loc := by
  rw [localWrites, foldl_append_eq, List.nil_append]
  exact List.mem_flatten.mpr ⟨_, List.mem_map.mpr ⟨p, hp, rfl⟩, (mem_putN ..).mpr ⟨j, hj, rfl, rfl⟩⟩

/-! The instructions. -/

theorem exec_ldG (gr : GRef) (x : TInstr) (s : State) : exec (.ldG gr x) s = execLdG gr x s := rfl
theorem exec_ldGAcq (gr : GRef) (x : TInstr) (s : State) : exec (.ldGAcq gr x) s = execLdGAcq gr x s := rfl
theorem exec_stG (gr : GRef) (x : TInstr) (s : State) : exec (.stG gr x) s = execStG gr x s := rfl
theorem exec_stGRel (gr : GRef) (x : TInstr) (s : State) : exec (.stGRel gr x) s = execStGRel gr x s := rfl

/-- What a load leaves: the group with its access outstanding, and the requests for its remote blocks. -/
def LoadedFrom (s t : State) (tc : TC) (las : List LaneAcc) : Prop :=
  ∃ (u : State) (f : Group → Group) (a : Access), t = sendParts (u.modGroup tc.gr f) (readParts tc tc.x.c.toNat tc.grp.nextId (remoteOf las))
    ∧ u = { s with regs := u.regs, mem := u.mem }
    ∧ f tc.grp = { tc.grp with run := some { tc.path with pc := tc.path.pc + tc.len }, outst := tc.grp.outst ++ [a], nextId := tc.grp.nextId + 1 }
    ∧ a.id = tc.grp.nextId ∧ a.fault = none ∧ a.remote = (readParts tc tc.x.c.toNat tc.grp.nextId (remoteOf las)).length
    ∧ ∀ p ∈ localOf las, ∀ j, j < wRegs tc.x.c.toNat →
        (32 * (tc.x.dst.toNat + j) + p.1, BitVec.ofNat 32 (s.hnat p.2 (2 ^ tc.x.c.toNat) / 2 ^ (32 * j) % 2 ^ 32)) ∈ a.writes

/-- What a local store leaves: the bytes of its lanes over those of memory, and the path moved on. -/
def StoredIn (s t : State) (tc : TC) (las : List LaneAcc) : Prop :=
  ∃ (u : State) (f : Group → Group), t = u.modGroup tc.gr f ∧ GoesOn tc (tc.path.pc + tc.len) (f tc.grp)
    ∧ (∀ a, u.hb a = fget (fun k => s.hb k) (storeMap ((localOf las).map (fun p => (p.2, tc.data p.1 tc.x.c.toNat)))) a)
    ∧ u = { s with hbm := u.hbm, raw := u.raw, mem := u.mem }

section
variable {s : State} {tc : TC} {las : List LaneAcc}

/-- A load whose addresses resolve and whose local accesses are neither held nor at fault. -/
theorem globalLoad_answers (hact : tc.act ≠ []) (hres : resolveAll tc s (2 ^ tc.x.c.toNat) 1 (2 ^ tc.x.c.toNat) 3 tc.act = .ok las)
    (hok : ∀ p ∈ localOf las, memHeld s (.thread tc.gr.tile) p.2 (2 ^ tc.x.c.toNat) = false ∧ memFault s p.2 (2 ^ tc.x.c.toNat) = none) (acq : Bool) :
    globalLoad tc s acq = sendParts ((loadNoted tc s (localOf las) (acq && ordAcq tc.x.mod.toNat)).modGroup tc.gr
      (tc.issued (localWrites tc s (localOf las)) (readParts tc tc.x.c.toNat tc.grp.nextId (remoteOf las)).length (wRegs tc.x.c.toNat) false (acq && ordAcq tc.x.mod.toNat)))
      (readParts tc tc.x.c.toNat tc.grp.nextId (remoteOf las)) := by
  have hheld : (localOf las).any (fun p => memHeld s (.thread tc.gr.tile) p.2 (2 ^ tc.x.c.toNat)) = false := by
    simpa using fun l a hp => (hok (l, a) hp).1
  have hfault : localFaults s (localOf las) (2 ^ tc.x.c.toNat) = [] := by
    rw [localFaults, List.filterMap_eq_nil_iff.mpr fun p hp => (hok p hp).2]
    rfl
  unfold globalLoad
  simp only [wBytes, if_neg hact, hres, hheld, hfault, Bool.false_eq_true, if_false, List.foldl_nil]
  rfl

variable (hat : ThreadAt s tc.gr tc.x tc)
include hat

theorem issued_advances (writes : List (Nat × Nat)) (remote ndst : Nat) (store acq : Bool) : ∃ a : Access, tc.issued writes remote ndst store acq tc.grp
      = { tc.grp with run := some { tc.path with pc := tc.path.pc + tc.len }, outst := tc.grp.outst ++ [a], nextId := tc.grp.nextId + 1 }
    ∧ a.id = tc.grp.nextId ∧ a.fault = none ∧ a.remote = remote ∧ a.writes = writes.map (fun w => (w.1, BitVec.ofNat 32 w.2)) := by
  have hgo : tc.grp.advance tc.len = { tc.grp with run := some { tc.path with pc := tc.path.pc + tc.len } } := goesOn_advance hat
  refine ⟨⟨tc.grp.nextId, tc.path.pc, tc.mask, writes.map (fun w => (w.1, BitVec.ofNat 32 w.2)), none, remote, tc.x.dst.toNat, ndst, store, acq⟩, ?_, rfl, rfl, rfl, rfl⟩
  rw [TC.issued, hgo]

theorem load_result {c : Instr} {acq : Bool} (hc : exec c s = .next (globalLoad tc s acq)) (hact : tc.act ≠ [])
    (hres : resolveAll tc s (2 ^ tc.x.c.toNat) 1 (2 ^ tc.x.c.toNat) 3 tc.act = .ok las)
    (hok : ∀ p ∈ localOf las, memHeld s (.thread tc.gr.tile) p.2 (2 ^ tc.x.c.toNat) = false ∧ memFault s p.2 (2 ^ tc.x.c.toNat) = none) :
    Completes c s (fun t => LoadedFrom s t tc las) := by
  rw [globalLoad_answers hact hres hok] at hc
  obtain ⟨a, hissued, hid, hfault, hremote, hwrites⟩ := issued_advances hat (localWrites tc s (localOf las))
    (readParts tc tc.x.c.toNat tc.grp.nextId (remoteOf las)).length (wRegs tc.x.c.toNat) false (acq && ordAcq tc.x.mod.toNat)
  refine ⟨_, hc, _, _, a, rfl, loadNoted_only .., hissued, hid, hfault, hremote, fun p hp j hj => ?_⟩
  rw [hwrites]
  exact List.mem_map.mpr ⟨_, mem_localWrites hp hj, rfl⟩

end

/-- The runs of a store's local bytes. -/
def storeRuns (tc : TC) (las : List LaneAcc) : List (Nat × List Byte) :=
  runsOf (storeMap ((localOf las).map (fun p => (p.2, tc.data p.1 tc.x.c.toNat))))

/-- The state once they have been written, and released where the store is a release. -/
def storeWritten (tc : TC) (s : State) (las : List LaneAcc) (rel : Bool) : State :=
  let s1 := (storeRuns tc las).foldl (fun s r => (memWrite s (.thread tc.gr.tile) r.1 r.2).1) s
  if rel && ordRel tc.x.mod.toNat then
    (localOf las).foldl (fun s x => tagRelease s x.2 (2 ^ tc.x.c.toNat) (ordScope tc.x.mod.toNat) (threadTag tc.gr.tile (tc.gr.blk * 32 + tc.gr.grp))) s1
  else s1

/-- A release after the writes touches nothing but what the slices note. -/
theorem storeWritten_only (tc : TC) (s : State) (las : List LaneAcc) (rel : Bool) :
    ∃ m, storeWritten tc s las rel = { (storeRuns tc las).foldl (fun s r => (memWrite s (.thread tc.gr.tile) r.1 r.2).1) s with mem := m } := by
  have htags : ∀ (L : List (Nat × Nat)) (u : State), ∃ m,
      L.foldl (fun s x => tagRelease s x.2 (2 ^ tc.x.c.toNat) (ordScope tc.x.mod.toNat) (threadTag tc.gr.tile (tc.gr.blk * 32 + tc.gr.grp))) u = { u with mem := m } := by
    intro L
    induction L with
    | nil => exact fun u => ⟨u.mem, rfl⟩
    | cons x L ih =>
      intro u
      obtain ⟨m, hm⟩ := tagRelease_only u x.2 (2 ^ tc.x.c.toNat) (ordScope tc.x.mod.toNat) (threadTag tc.gr.tile (tc.gr.blk * 32 + tc.gr.grp))
      obtain ⟨m', hm'⟩ := ih { u with mem := m }
      refine ⟨m', ?_⟩
      rw [List.foldl_cons, hm, hm']
  unfold storeWritten
  dsimp only
  split
  · exact htags ..
  · exact ⟨_, rfl⟩

section
variable {s : State} {tc : TC} {las : List LaneAcc} (hres : resolveAll tc s (2 ^ tc.x.c.toNat) 2 (2 ^ tc.x.c.toNat) 3 tc.act = .ok las)
  (hok : ∀ r ∈ storeRuns tc las, memHeld s (.thread tc.gr.tile) r.1 1 = false ∧ storeFault s r = none)
include hres hok

/-- Every run of a granted store may be written. -/
theorem storeRuns_ok : ∀ r ∈ storeRuns tc las, RunOk s r := by
  intro r hr
  obtain ⟨hentries, hblocks⟩ := runsOf_spec (storeMap ((localOf las).map (fun p => (p.2, tc.data p.1 tc.x.c.toNat))))
  obtain ⟨hpos, hblock⟩ := hblocks r hr
  refine ⟨⟨hpos, hblock⟩, ?_, (hok r hr).2⟩
  have hlast : r.1 + (r.2.length - 1) ∈ fkeys (storeMap ((localOf las).map (fun p => (p.2, tc.data p.1 tc.x.c.toNat)))) := by
    obtain ⟨y, hy, hkey⟩ := List.mem_map.mp ((runEntries_keys r.2 r.1 (r.1 + (r.2.length - 1))).mpr ⟨by omega, by omega⟩)
    rw [← hentries]
    exact List.mem_map.mpr ⟨y, List.mem_flatMap.mpr ⟨r, hr, hy⟩, hkey⟩
  obtain ⟨x, hx, hlo, hhi⟩ := (storeMap_keys _).2 _ hlast
  obtain ⟨p, hp, rfl⟩ := List.mem_map.mp hx
  have hlane := of_decide_eq_true (resolveAll_local tc.act las hres p hp)
  have hlen : (tc.data p.1 tc.x.c.toNat).length = 2 ^ tc.x.c.toNat := length_toLE ..
  dsimp only at hlo hhi
  rw [hlen] at hhi
  exact decide_eq_true (by omega)

/-- The bytes that the store leaves. -/
theorem storeWritten_bytes (rel : Bool) : let u := storeWritten tc s las rel
    (∀ a, u.hb a = fget (fun k => s.hb k) (storeMap ((localOf las).map (fun p => (p.2, tc.data p.1 tc.x.c.toNat)))) a)
      ∧ u = { s with hbm := u.hbm, raw := u.raw, mem := u.mem } := by
  obtain ⟨hentries, -⟩ := runsOf_spec (storeMap ((localOf las).map (fun p => (p.2, tc.data p.1 tc.x.c.toNat))))
  obtain ⟨hwritten, hbytes⟩ := memWrite_runs (.thread tc.gr.tile) (storeRuns tc las) s (storeRuns_ok hres hok) (by
    rw [storeRuns, hentries]
    exact (storeMap_keys _).1)
  rw [storeRuns, hentries] at hbytes
  obtain ⟨m, hm⟩ := storeWritten_only tc s las rel
  have honly := hwritten.only
  dsimp only
  rw [hm]
  refine ⟨hbytes, ?_⟩
  rw [honly]

/-- A store whose addresses resolve to local memory, none of its bytes held or at fault. -/
theorem globalStore_answers (hrem : remoteOf las = []) (rel : Bool) : globalStore tc s rel = commit tc (storeWritten tc s las rel) [] .zero := by
  have hheld : (storeRuns tc las).any (fun r => memHeld s (.thread tc.gr.tile) r.1 1) = false := by
    simpa using fun a l hr => (hok (a, l) hr).1
  have hfault : (storeRuns tc las).findSome? (storeFault s) = none := List.findSome?_eq_none_iff.mpr fun r hr => (hok r hr).2
  unfold storeRuns at hheld hfault
  have hnone : runsOf (storeMap []) = [] := rfl
  unfold globalStore
  simp only [wBytes, hres, hheld, hfault, hrem, Bool.false_eq_true, if_false, List.map_nil, hnone, List.filterMap_nil]
  rfl

theorem store_result (hat : ThreadAt s tc.gr tc.x tc) (hrem : remoteOf las = []) {c : Instr} {rel : Bool} (hc : exec c s = .next (globalStore tc s rel)) :
    Completes c s (fun t => StoredIn s t tc las) := by
  obtain ⟨hbytes, honly⟩ := storeWritten_bytes hres hok rel
  rw [globalStore_answers hres hok hrem, commit, tileNum_zero] at hc
  exact ⟨_, hc, storeWritten tc s las rel, fun g => (g.applyWrites []).advance tc.len, rfl, goesOn_advance hat, hbytes, honly⟩

end

/-- Settles O15: a load by what it notes and asks for, a store by the runs of its bytes. -/
theorem globalMemory : Obligations.GlobalMemory := by
  intro s gr x tc hat
  obtain ⟨hgr, hx, -⟩ := threadCtx_spec hat.2
  subst hgr hx
  refine ⟨fun las hact hres hok => ⟨fun hk => load_result hat (acq := false) ?_ hact hres hok, fun hk => load_result hat (acq := true) ?_ hact hres hok⟩,
    fun las hres hrem hok => ⟨fun hk => store_result hres hok hat hrem (rel := false) ?_, fun hk => store_result hres hok hat hrem (rel := true) ?_⟩⟩
  · rw [exec_ldG, execLdG, runThread_eq hat, guarded, hk]
  · rw [exec_ldGAcq, execLdGAcq, runThread_eq hat, guarded, hk]
  · rw [exec_stG, execStG, runThread_eq hat, guarded, hk]
  · rw [exec_stGRel, execStGRel, runThread_eq hat, guarded, hk]

end Sys2Proof.Machine
end

section
/-! SUPPORT. What the results of the matrix engine leave (06_matrix_engine.md R189, R196, R202): numbers stored apart in per-tile space, numeric events, elements row by row. -/

namespace Sys2Proof.Machine

open Sys2Proof

/-! Numbers stored at apart places. -/

/-- Numbers of `n` bytes stored in tile `t` at their offsets, in order. -/
def storeNums (s : State) (t n : Nat) (out : List (Nat × Nat)) : State := tileStores s t (out.map (fun x => (x.1, toLE n x.2)))

theorem storeNums_cons (s : State) (t n : Nat) (x : Nat × Nat) (out : List (Nat × Nat)) :
    storeNums s t n (x :: out) = storeNums (s.twr t x.1 (toLE n x.2)) t n out := rfl

theorem foldl_twr_eq_storeNums {α : Type} (s : State) (t n : Nat) (f : α → Nat × Nat) (l : List α) :
    l.foldl (fun s x => s.twr t (f x).1 (toLE n (f x).2)) s = storeNums s t n (l.map f) := by
  rw [storeNums, tileStores, List.map_map, List.foldl_map]
  rfl

theorem storeNums_out {t n a : Nat} {out : List (Nat × Nat)} (s : State) (h : ∀ x ∈ out, a < x.1 ∨ x.1 + n ≤ a) : (storeNums s t n out).tb t a = s.tb t a := by
  refine tileStores_out t _ s fun y hy => ?_
  obtain ⟨x, hx, rfl⟩ := List.mem_map.mp hy
  rw [length_toLE]
  exact h x hx

theorem storeNums_only (s : State) (t n : Nat) (out : List (Nat × Nat)) :
    storeNums s t n out = { s with tmem := (storeNums s t n out).tmem, traw := (storeNums s t n out).traw } := tileStores_only ..

theorem storeNums_regs (s : State) (t n : Nat) (out : List (Nat × Nat)) : (storeNums s t n out).regs = s.regs := by rw [storeNums_only]

/-- Two numbers of `n` bytes at their offsets share no byte. -/
def Apart (n : Nat) (x y : Nat × Nat) : Prop := x.1 + n ≤ y.1 ∨ y.1 + n ≤ x.1

/-- Each of several numbers stored apart reads as stored. -/
theorem storeNums_tnat {t n : Nat} {out : List (Nat × Nat)} : ∀ s : State, out.Pairwise (Apart n) → ∀ x ∈ out, (storeNums s t n out).tnat t x.1 n = x.2 % 2 ^ (8 * n) := by
  induction out with
  | nil => exact fun s _ x hx => absurd hx List.not_mem_nil
  | cons y out ih =>
    intro s hapart x hx
    obtain ⟨hfirst, hrest⟩ := List.pairwise_cons.mp hapart
    rw [storeNums_cons]
    rcases List.mem_cons.mp hx with rfl | hx
    · refine (tnat_congr fun a hlo hhi => storeNums_out _ fun z hz => ?_).trans (tnat_twr_self ..)
      rcases hfirst z hz with h | h
      · exact .inl (by omega)
      · exact .inr (by omega)
    · exact ih _ hrest x hx

/-! Numeric events (04_number_formats.md R138). -/

theorem tileNum_only (s : State) (t : Nat) (e : NEv) : OnlyRegs s (tileNum s t e) := by
  unfold tileNum
  split
  · rfl
  · exact ((wr_only s ..).trans (wr_only ..)).trans (wr_only ..)

theorem tileNum_regsKept (s : State) (t : Nat) (e : NEv) : RegsKept s (tileNum s t e) [(pTile t, 0x6D0), (pTile t, 0x6D4), (pTile t, 0x6D8)] := by
  unfold tileNum
  split
  · exact regsKept_of_regs_eq rfl _
  · exact RegsKept.trans (RegsKept.trans (inc_kept s _ _ _) (inc_kept _ _ _ _)) (inc_kept _ _ _ _)

theorem tileNum_kept (s : State) (t : Nat) (e : NEv) : WordsKept (pTile t) s (tileNum s t e) [0x6D0, 0x6D4, 0x6D8] := by
  unfold tileNum
  split
  · exact (WordsKept.of_regs rfl).mono (List.nil_subset _)
  · exact ((inc_wordsKept s (by decide) _).trans (inc_wordsKept _ (by decide) _)).trans (inc_wordsKept _ (by decide) _)

/-- Stores in per-tile space and then registers. -/
theorem onlyRegs_after_stores {s v u : State} (h : v = { s with tmem := v.tmem, traw := v.traw }) (k : OnlyRegs v u) :
    u = { s with tmem := u.tmem, traw := u.traw, regs := u.regs } := by
  unfold OnlyRegs at k
  rw [k, h]

/-! Elements row by row. -/

/-- The elements of a matrix, row by row. -/
def gridOf {α β γ : Type} (rows : List α) (cols : List β) (f : α → β → γ) : List γ := (rows.map (fun r => cols.map (f r))).foldl (· ++ ·) []

theorem gridOf_eq_flatMap {α β γ : Type} (rows : List α) (cols : List β) (f : α → β → γ) : gridOf rows cols f = rows.flatMap (fun r => cols.map (f r)) :=
  (foldl_append_eq _ []).trans (List.nil_append _)

theorem mem_gridOf {α β γ : Type} {rows : List α} {cols : List β} {f : α → β → γ} {x : γ} : x ∈ gridOf rows cols f ↔ ∃ r ∈ rows, ∃ c ∈ cols, f r c = x := by
  simp only [gridOf_eq_flatMap, List.mem_flatMap, List.mem_map]

theorem gridOf_congr {α β γ : Type} {rows : List α} {cols : List β} {f g : α → β → γ} (h : ∀ r ∈ rows, ∀ c ∈ cols, f r c = g r c) : gridOf rows cols f = gridOf rows cols g := by
  rw [gridOf_eq_flatMap, gridOf_eq_flatMap]
  exact List.flatMap_congr fun r hr => List.map_congr_left fun c hc => h r hr c hc

/-- A relation holds between all elements in their order where it does within each row and between rows. -/
theorem pairwise_gridOf {γ : Type} {m n : Nat} {f : Nat → Nat → γ} {R : γ → γ → Prop}
    (hrow : ∀ r, ∀ c d, c < d → R (f r c) (f r d)) (hcol : ∀ q r, q < r → ∀ c < n, ∀ d < n, R (f q c) (f r d)) :
    (gridOf (List.range m) (List.range n) f).Pairwise R := by
  rw [gridOf_eq_flatMap, List.pairwise_flatMap]
  refine ⟨fun r _ => List.pairwise_map.mpr (List.pairwise_lt_range.imp fun hlt => hrow r _ _ hlt), List.pairwise_lt_range.imp fun hlt x hx y hy => ?_⟩
  obtain ⟨c, hc, rfl⟩ := List.mem_map.mp hx
  obtain ⟨d, hd, rfl⟩ := List.mem_map.mp hy
  exact hcol _ _ hlt c (List.mem_range.mp hc) d (List.mem_range.mp hd)

end Sys2Proof.Machine
end

section
/-! Register-form products and acc.clr (O33). -/

namespace Sys2Proof.Machine

open Sys2Proof

theorem exec_mmaRR (gr : GRef) (x : TInstr) (s : State) : exec (.mmaRR gr x) s = execMmaRR gr x s := rfl
theorem exec_mmaRS (gr : GRef) (x : TInstr) (s : State) : exec (.mmaRS gr x) s = execMmaRS gr x s := rfl
theorem exec_mmaSS (gr : GRef) (x : TInstr) (s : State) : exec (.mmaSS gr x) s = execMmaSS gr x s := rfl
theorem exec_accClr (gr : GRef) (x : TInstr) (s : State) : exec (.accClr gr x) s = execAccClr gr x s := rfl

/-- What an instruction that writes the 4 KiB of C at `oc` leaves: every other byte, and all but registers; its path moves on. -/
def OnlyC (s t : State) (tc : TC) (oc : Nat) : Prop :=
  (∀ a, a < oc ∨ oc + 4096 ≤ a → t.tb tc.gr.tile a = s.tb tc.gr.tile a) ∧ (∀ k a, k ≠ tc.gr.tile → a < 2 ^ 32 → t.tb k a = s.tb k a)
  ∧ ∃ (u : State) (f : Group → Group), t = u.modGroup tc.gr f ∧ GoesOn tc (tc.path.pc + tc.len) (f tc.grp)
    ∧ u = { s with tmem := u.tmem, traw := u.traw, regs := u.regs }

theorem tb_commit (tc : TC) (s : State) (w : List (Nat × Nat)) (e : NEv) (k a : Nat) : (commit tc s w e).tb k a = s.tb k a :=
  tb_congr (congrArg State.tmem (tileNum_only s tc.gr.tile e)) k a

/-- Stores within C and their commit. -/
theorem commit_onlyC {s : State} {tc : TC} (hat : ThreadAt s tc.gr tc.x tc) {oc : Nat} (hoc : oc + 4096 ≤ 2 ^ 32) {l : List (Nat × List Byte)}
    (hin : ∀ x ∈ l, oc ≤ x.1 ∧ x.1 + x.2.length ≤ oc + 4096) (e : NEv) : OnlyC s (commit tc (tileStores s tc.gr.tile l) [] e) tc oc := by
  refine ⟨fun a ha => ?_, fun k a hk ha => ?_, tileNum (tileStores s tc.gr.tile l) tc.gr.tile e, fun g => (g.applyWrites []).advance tc.len, rfl, goesOn_advance hat, ?_⟩
  · refine (tb_commit ..).trans (tileStores_out _ l s fun x hx => ?_)
    have := hin x hx
    omega
  · refine (tb_commit ..).trans (tileStores_ne _ hk ha l s fun x hx => ?_)
    have := hin x hx
    omega
  · exact onlyRegs_after_stores (tileStores_only ..) (tileNum_only ..)

/-- C lies in the accumulator store. -/
theorem mmaOff_acc_le {l : List (Bool × Nat)} {oc : Nat} (hk : firstBad l = none) (hmem : mmaOff true oc 4096 ⊆ l) : oc + 4096 ≤ 2 ^ 32 := by
  have hregion := firstBad_none hk (!inRegion .acc oc 4096, 5) (hmem (by simp [mmaOff]))
  have hin : inRegion .acc oc 4096 = true := by simpa using hregion
  obtain ⟨-, hhi⟩ : regionLo .acc ≤ oc ∧ oc + 4096 ≤ regionHi .acc := of_decide_eq_true hin
  exact hhi.trans (by decide)

section
variable (tc : TC) (s : State) (aReg bReg : Bool)

/-- Element (i, j) of a register-form product: its offset, its bits and its events (R196-R198). -/
def TC.product (i j : Nat) : (Nat × Nat) × NEv :=
  let o := tc.get 0 tc.x.c 1 + 4 * (32 * i + j)
  let a := mmaRow tc s aReg tc.x.a i
  let b := mmaRow tc s bReg tc.x.b j
  let c0 := if tc.x.mod.toNat = 1 then s.tnat tc.gr.tile o 4 else 0
  let e := mxElement (if isInt8 tc.x.fmt.toNat then 9 else 1) c0 (terms 0 32 a b [] []) (a.any FV.isNan || b.any FV.isNan) none
  ((o, e.1), e.2)

/-- The elements of the product, row by row. -/
def TC.products : List ((Nat × Nat) × NEv) := gridOf (List.range 32) (List.range 32) (tc.product s aReg bReg)

theorem getD_map_range {α : Type} (f : Nat → List α) {n i : Nat} (hi : i < n) : (((List.range n).map f)[i]?).getD [] = f i := by
  rw [List.getElem?_map, List.getElem?_range hi, Option.map_some, Option.getD_some]

/-- A product that passes its checks computes every element from the state before it, and stores them all. -/
theorem mmaOp_answers (hat : ThreadAt s tc.gr tc.x tc) (hk : firstBad (checksMma aReg bReg tc s) = none) :
    mmaOp tc.gr tc.x s aReg bReg = .next (commit tc (storeNums s tc.gr.tile 4 ((tc.products s aReg bReg).map (fun e => e.1))) []
      ((tc.products s aReg bReg).foldl (fun n e => n.add e.2) .zero)) := by
  rw [mmaOp, runThread_eq hat, ← foldl_twr_eq_storeNums]
  dsimp only
  rw [hk]
  have hgrid := gridOf_congr (rows := List.range 32) (cols := List.range 32) (f := tc.product s aReg bReg) fun i hi j hj => by
    rw [TC.product, ← getD_map_range (mmaRow tc s aReg tc.x.a) (List.mem_range.mp hi), ← getD_map_range (mmaRow tc s bReg tc.x.b) (List.mem_range.mp hj)]
  rw [TC.products, hgrid]
  rfl

theorem products_apart : ((tc.products s aReg bReg).map (fun e => e.1)).Pairwise (Apart 4) := by
  refine List.pairwise_map.mpr (pairwise_gridOf (fun r c d hlt => .inl ?_) (fun q r hlt c hc d hd => .inl ?_))
  · simp only [TC.product]; omega
  · simp only [TC.product]; omega

theorem products_within : ∀ x ∈ (tc.products s aReg bReg).map (fun e => e.1), tc.get 0 tc.x.c 1 ≤ x.1 ∧ x.1 + 4 ≤ tc.get 0 tc.x.c 1 + 4096 := by
  intro x hx
  obtain ⟨e, he, rfl⟩ := List.mem_map.mp hx
  obtain ⟨i, hi, j, hj, rfl⟩ := mem_gridOf.mp he
  have := List.mem_range.mp hi
  have := List.mem_range.mp hj
  simp only [TC.product]
  omega

/-- The state behind a product: its elements stored, nothing beyond C touched. -/
theorem product_result {i : Instr} (hat : ThreadAt s tc.gr tc.x tc) (hi : exec i s = mmaOp tc.gr tc.x s aReg bReg) (hk : firstBad (checksMma aReg bReg tc s) = none) :
    Completes i s (fun t => (∀ m n, m < 32 → n < 32 → t.tnat tc.gr.tile (tc.product s aReg bReg m n).1.1 4 = (tc.product s aReg bReg m n).1.2 % 2 ^ 32)
      ∧ OnlyC s t tc (tc.get 0 tc.x.c 1)) := by
  refine ⟨_, hi.trans (mmaOp_answers tc s aReg bReg hat hk), fun m n hm hn => ?_, commit_onlyC hat (mmaOff_acc_le hk ?_) (fun y hy => ?_) _⟩
  · refine (tnat_congr fun a _ _ => tb_commit ..).trans (storeNums_tnat s (products_apart tc s aReg bReg) (tc.product s aReg bReg m n).1 ?_)
    exact List.mem_map_of_mem (mem_gridOf.mpr ⟨m, List.mem_range.mpr hm, n, List.mem_range.mpr hn, rfl⟩)
  · exact fun y hy => List.mem_append_left _ (List.mem_append_right _ hy)
  · obtain ⟨x, hx, rfl⟩ := List.mem_map.mp hy
    rw [length_toLE]
    exact products_within tc s aReg bReg x hx

/-- acc.clr that passes its checks stores 4 KiB of zero bytes. -/
theorem accClr_result (hat : ThreadAt s tc.gr tc.x tc) (hk : firstBad (checksClr tc) = none) : Completes (.accClr tc.gr tc.x) s (fun t =>
    (∀ a, tc.get 0 tc.x.c 1 ≤ a → a < tc.get 0 tc.x.c 1 + 4096 → t.tb tc.gr.tile a = 0) ∧ OnlyC s t tc (tc.get 0 tc.x.c 1)) := by
  have hexec : exec (.accClr tc.gr tc.x) s = .next (commit tc (tileStores s tc.gr.tile [(tc.get 0 tc.x.c 1, List.replicate 4096 0)]) [] .zero) := by
    rw [exec_accClr, execAccClr, runThread_eq hat]
    dsimp only
    rw [hk]
    rfl
  refine ⟨_, hexec, fun a hlo hhi => (tb_commit ..).trans ?_, commit_onlyC hat (mmaOff_acc_le hk (fun y hy => List.mem_append_right _ hy)) (fun y hy => ?_) _⟩
  · obtain ⟨i, rfl⟩ := Nat.exists_eq_add_of_le hlo
    have hi : i < (List.replicate 4096 (0 : Byte)).length := by rw [List.length_replicate]; omega
    exact (tb_twr_in s tc.gr.tile (tc.get 0 tc.x.c 1) _ hi).trans (List.getElem_replicate _)
  · rw [List.mem_singleton.mp hy, List.length_replicate]
    exact ⟨le_rfl, le_rfl⟩

end

/-- The accumulating form, by mod as a number and as a field. -/
theorem mod_toNat_eq_one (tc : TC) : tc.x.mod.toNat = 1 ↔ tc.x.mod = 1 :=
  ⟨fun h => BitVec.eq_of_toNat_eq h, fun h => congrArg BitVec.toNat h⟩

/-- Settles O33: every element from the state before, stored apart from the others within C. -/
theorem registerProducts : Obligations.RegisterProducts := by
  intro s gr x tc hat oc stored product
  obtain ⟨hgr, hx, -⟩ := threadCtx_spec hat.2
  subst hgr hx
  have hproduct : ∀ (i : Instr) (aReg bReg : Bool), exec i s = mmaOp tc.gr tc.x s aReg bReg → product i aReg bReg := by
    intro i aReg bReg hi hk
    obtain ⟨t, ht, hel, honly⟩ := product_result tc s aReg bReg hat hi hk
    refine ⟨t, ht, fun m n hm hn => (hel m n hm hn).trans ?_, honly⟩
    simp only [TC.product, mod_toNat_eq_one]
    rfl
  refine ⟨hproduct _ _ _ (exec_mmaRR ..), hproduct _ _ _ (exec_mmaRS ..), hproduct _ _ _ (exec_mmaSS ..), accClr_result tc s hat⟩

end Sys2Proof.Machine
end

section
/-! SUPPORT. The signals of an engine (06_matrix_engine.md R192, R193): what one leaves of its tile. -/

namespace Sys2Proof.Machine

open Sys2Proof

/-- The words in which a tile's scope detector counts a mismatch (03_memory_model.md R85). -/
def scopeWords : List Nat := [0x6F4, 0x6F8, 0x6FC]

theorem countMismatch_kept (s : State) (p : Page) (loc relScope acqScope : Nat) (remote : Bool) :
    WordsKept p s (countMismatch s p loc relScope acqScope remote) scopeWords :=
  (inc_wordsKept s (by decide) 1).trans ((wr_wordsKept _ (by decide) _).trans (wr_wordsKept _ (by decide) _))

theorem sigAcquire_kept (s : State) (t w scope : Nat) (me : RelTag) : WordsKept (pTile t) s (sigAcquire s t w scope me) scopeWords := by
  have hsame : WordsKept (pTile t) s s scopeWords := (WordsKept.of_regs rfl).mono (List.nil_subset _)
  unfold sigAcquire
  split
  · split
    · split
      · exact hsame
      · exact countMismatch_kept ..
    · exact hsame
  · exact hsame

theorem acquires_kept (t w : Nat) (l : List (Nat × RelTag)) :
    ∀ s : State, WordsKept (pTile t) s (l.foldl (fun s y => if ordAcq y.1 then sigAcquire s t w (ordScope y.1) y.2 else s) s) scopeWords := by
  induction l with
  | nil => exact fun s => (WordsKept.of_regs rfl).mono (List.nil_subset _)
  | cons y l ih =>
    intro s
    have hstep : WordsKept (pTile t) s (if ordAcq y.1 then sigAcquire s t w (ordScope y.1) y.2 else s) scopeWords := by
      split
      · exact sigAcquire_kept ..
      · exact (WordsKept.of_regs rfl).mono (List.nil_subset _)
    exact (hstep.trans (ih _)).mono (List.append_subset.mpr ⟨List.Subset.refl _, List.Subset.refl _⟩)

theorem tagSig_regs (s : State) (t w scope : Nat) (r : RelTag) : (tagSig s t w scope r).regs = s.regs := by
  unfold tagSig
  split <;> rfl

theorem sigRelease_kept (s : State) (t w op v scope : Nat) (r : RelTag) : WordsKept (pTile t) s (sigRelease s t w op v scope r) scopeWords := by
  have htag : (tagSig (setSig s t w (sigApply op (s.sig t w) v)) t w scope r).regs = s.regs := tagSig_regs ..
  exact (WordsKept.of_regs htag).trans (acquires_kept ..)

theorem engSignal_kept (s : State) (t word v marks ord : Nat) : WordsKept (pTile t) s (engSignal s t word v marks ord) scopeWords := sigRelease_kept ..

/-- An engine's signal adds its value and sets its marks, and touches nothing but signal words and those who wait on them. -/
theorem engSignal_signalled (s : State) (t word v : Nat) {marks : Nat} (hmarks : marks < 2 ^ 64) (ord : Nat) :
    Signalled s (engSignal s t word v marks ord) t word v marks := by
  obtain ⟨hvalue, hframe, honly⟩ := sigRelease_put s t word 0 (((s.sig t word + v) % 2 ^ 64) ||| marks) (sigScope ord) (engineTag t)
  refine ⟨hvalue.trans (Nat.mod_eq_of_lt ?_), hframe, honly⟩
  exact Nat.or_lt_two_pow (Nat.mod_lt _ (Nat.two_pow_pos 64)) hmarks

theorem Signalled.only {s u : State} {t word v marks : Nat} (h : Signalled s u t word v marks) : SignalOnly s u t := by
  obtain ⟨-, -, honly⟩ := h
  exact honly

/-- Signals leave a tile's matrix engine as it is. -/
theorem SignalOnly.mx {s u : State} {k : Nat} (h : SignalOnly s u k) : (u.tile k).mx = (s.tile k).mx := by
  obtain ⟨-, -, bs, tg, htile, -⟩ := h
  rw [htile]

end Sys2Proof.Machine
end

section
/-! The matrix engine (O34). -/

namespace Sys2Proof.Machine

open Sys2Proof

theorem exec_mxDescCheck (t : Nat) (s : State) : exec (.mxDescCheck t) s = execMxDescCheck t s := rfl
theorem exec_mxWaitSatisfied (t : Nat) (s : State) : exec (.mxWaitSatisfied t) s = execMxWaitSatisfied t s := rfl
theorem exec_mxBlockStart (t n : Nat) (s : State) : exec (.mxBlockStart t n) s = execMxBlockStart t n s := rfl
theorem exec_mxBlockDone (t n : Nat) (s : State) : exec (.mxBlockDone t n) s = execMxBlockDone t n s := rfl
theorem exec_mxOperandsRead (t : Nat) (s : State) : exec (.mxOperandsRead t) s = execMxOperandsRead t s := rfl
theorem exec_mxCompletion (t : Nat) (s : State) : exec (.mxCompletion t) s = execMxCompletion t s := rfl

theorem modMx_became {s : State} {t : Nat} {f : MxEng → MxEng} {e : MxEng} (h : f (s.tile t).mx = e) : TileBecame s (s.modMx t f) t { s.tile t with mx := e } := by
  rw [TileBecame, State.modMx, State.modTile, h]

/-- Writes and then a change of a matrix engine. -/
theorem modMx_after_writes {s v : State} (h : v = { s with tmem := v.tmem, traw := v.traw, regs := v.regs }) (t : Nat) (f : MxEng → MxEng) :
    v.modMx t f = { s with tmem := (v.modMx t f).tmem, traw := (v.modMx t f).traw, regs := (v.modMx t f).regs, tiles := (v.modMx t f).tiles } := by
  rw [h]
  rfl

/-- The head starts: it leaves the intake for the jobs. -/
theorem mxStart_became {s : State} {t : Nat} {d : Desc} {rest : List Desc} (hin : (s.tile t).mx.intake = d :: rest) : TileBecame s (mxStart s t d) t
    { s.tile t with mx := { (s.tile t).mx with intake := rest, jobs := (s.tile t).mx.jobs ++ [⟨d, 0, 0, !mxRdEn d, none⟩] } } :=
  modMx_became (by rw [hin, List.tail_cons])

/-! The value of an element of C. -/

/-- The bits of C(row, col) that a block of `d` computes (R189). -/
def mxValue (s : State) (t : Nat) (d : Desc) (row col : Nat) : Nat :=
  let A := mxRowA s t d row
  let B := mxColB s t d col
  let c0 := if mxAcc d then s.tnat t (mxCOff d row col) (ctSize (mxCt d)) else 0
  let sc := if mxScale d then some (decodeFV 1 (d.le 0x30 4), decodeFV 1 (d.le 0x34 4)) else none
  (mxElement (mxCt d) c0 (terms (mxPass d) (if mxCt d = 0 then 8 else 32) A.1 B.1 A.2 B.2) (anyNanIn A || anyNanIn B) sc).1

/-- A block holds each of its elements, at its offset. -/
theorem mem_mxCompute (s : State) (t : Nat) (d : Desc) (b : Nat) {r c : Nat} (hr : r < (mxRows d b).2) (hc : c < (mxCols d b).2) :
    (mxCOff d ((mxRows d b).1 + r) ((mxCols d b).1 + c), mxValue s t d ((mxRows d b).1 + r) ((mxCols d b).1 + c)) ∈ (mxCompute s t d b).1 :=
  List.mem_map.mpr ⟨_, mem_gridOf.mpr ⟨_, List.mem_map_of_mem (List.mem_range.mpr hr), _, List.mem_map_of_mem (List.mem_range.mpr hc), rfl⟩, rfl⟩

/-! A block written back (R202). -/

section
variable (s : State) (t : Nat) (k : MxBlk)

/-- The state in which a block's results are stored and its events and the block itself counted. -/
def mxWritten : State := (tileNum (storeNums s t k.size k.out) t ⟨k.sat, k.nan, 0⟩).inc (pTile t) 0x408 1

theorem mxWritten_regsOnly : OnlyRegs (storeNums s t k.size k.out) (mxWritten s t k) := (tileNum_only ..).trans (wr_only ..)

theorem mxWritten_tb (a : Nat) : (mxWritten s t k).tb t a = (storeNums s t k.size k.out).tb t a := by
  obtain ⟨-, hmem⟩ := (mxWritten_regsOnly s t k).toLog.mem
  exact tb_congr hmem t a

theorem mxWritten_only : mxWritten s t k = { s with tmem := (mxWritten s t k).tmem, traw := (mxWritten s t k).traw, regs := (mxWritten s t k).regs } :=
  onlyRegs_after_stores (storeNums_only ..) (mxWritten_regsOnly ..)

theorem mxWritten_tile (i : Nat) : (mxWritten s t k).tile i = s.tile i := by
  have htiles : (mxWritten s t k).tiles = s.tiles := by rw [mxWritten_only]
  exact tile_congr htiles i

theorem mxWritten_kept : RegsKept s (mxWritten s t k) [(pTile t, 0x408), (pTile t, 0x6D0), (pTile t, 0x6D4), (pTile t, 0x6D8)] :=
  RegsKept.mono (RegsKept.trans (regsKept_of_regs_eq (storeNums_regs s t k.size k.out) [])
    (RegsKept.trans (tileNum_regsKept _ t ⟨k.sat, k.nan, 0⟩) (inc_kept _ (pTile t) 0x408 1))) (by simp)

theorem mxWritten_rd : (mxWritten s t k).rd (pTile t) 0x408 = (s.rd (pTile t) 0x408 + 1) % 2 ^ 32 := by
  have hkept : WordsKept (pTile t) s (tileNum (storeNums s t k.size k.out) t ⟨k.sat, k.nan, 0⟩) [0x6D0, 0x6D4, 0x6D8] :=
    (WordsKept.of_regs (storeNums_regs s t k.size k.out)).trans (tileNum_kept ..)
  rw [mxWritten, State.inc, rd_wr_self, hkept.rd 0x408 (by decide) (by decide)]

end

/-! The signals of a job (R192, R193). -/

/-- The state in which a completing job's operands-read signal has been performed. -/
def mxRdDone (s : State) (t : Nat) (j : MxJob) : State := if j.rdSent then s else mxSendRd s t j

/-- The state in which its completion signal has been performed too. -/
def mxDoneSent (s : State) (t : Nat) (j : MxJob) : State :=
  engSignal (mxRdDone s t j) t (j.d.bf 0x3C 0 12) (j.d.le 0x40 8) (if j.fail.isSome then 2 ^ 63 else 0) (j.d.le 0x3E 1)

section
variable (s : State) (t : Nat) (j : MxJob)

theorem mxSendRd_signalled : Signalled s (mxSendRd s t j) t (j.d.bf 0x48 0 12) (j.d.le 0x50 8) 0 := engSignal_signalled s t _ _ (by decide) _

theorem mxDoneSent_signalled : Signalled (mxRdDone s t j) (mxDoneSent s t j) t (j.d.bf 0x3C 0 12) (j.d.le 0x40 8) (if j.fail.isSome then 2 ^ 63 else 0) :=
  engSignal_signalled _ t _ _ (by split <;> decide) _

theorem mxRdDone_only : SignalOnly s (mxRdDone s t j) t := by
  unfold mxRdDone
  split
  · exact .refl s t
  · exact (mxSendRd_signalled s t j).only

theorem mxRdDone_kept : WordsKept (pTile t) s (mxRdDone s t j) scopeWords := by
  unfold mxRdDone
  split
  · exact (WordsKept.of_regs rfl).mono (List.nil_subset _)
  · exact engSignal_kept ..

/-- Both signals leave MX_DONE as it is. -/
theorem mxDoneSent_rd : (mxDoneSent s t j).rd (pTile t) 0x404 = s.rd (pTile t) 0x404 :=
  ((engSignal_kept ..).rd _ (by decide) (by decide)).trans ((mxRdDone_kept s t j).rd _ (by decide) (by decide))

theorem mxDoneSent_mx : ((mxDoneSent s t j).tile t).mx = (s.tile t).mx :=
  ((mxRdDone_only s t j).trans (mxDoneSent_signalled s t j).only).mx

/-- The state in which the descriptor has been counted, behind both signals. -/
def mxCounted : State := (mxDoneSent s t j).inc (pTile t) 0x404 1

theorem mxCounted_words : OnlyWords (mxDoneSent s t j) (mxCounted s t j) [(pTile t, 0x404)] := ⟨inc_kept _ _ _ _, wr_only ..⟩

theorem mxCounted_tile : (mxCounted s t j).tile t = (mxDoneSent s t j).tile t := by
  obtain ⟨-, honly⟩ := mxCounted_words s t j
  exact honly.toLog.tile t

theorem mxCounted_rd : (mxCounted s t j).rd (pTile t) 0x404 = (s.rd (pTile t) 0x404 + 1) % 2 ^ 32 := by
  rw [mxCounted, State.inc, rd_wr_self, mxDoneSent_rd]

/-- The oldest job leaves. -/
theorem mxCompleted_became {rest : List MxJob} (hjobs : (s.tile t).mx.jobs = j :: rest) :
    TileBecame (mxCounted s t j) ((mxCounted s t j).modMx t (fun e => { e with jobs := e.jobs.tail })) t
      { (mxDoneSent s t j).tile t with mx := { (s.tile t).mx with jobs := rest } } := by
  rw [← mxCounted_tile]
  exact modMx_became (by rw [mxCounted_tile, mxDoneSent_mx, hjobs, List.tail_cons])

end

/-! What the commands answer. -/

section
variable {s : State} {t : Nat} (ht : t < 160) (hon : tileOn s t = true)

/-! The head of the intake (R184, R191, R204). -/

section
variable {d : Desc} {rest : List Desc} (hin : (s.tile t).mx.intake = d :: rest)
include ht hon hin

theorem mxDescCheck_fails (hnew : d.checked = false) {c f a : Nat} (hcheck : mxCheck s t d = some (c, f, a)) :
    exec (.mxDescCheck t) s = .next (mxFailHead s t d c f a) := by
  rw [exec_mxDescCheck, execMxDescCheck, onUnit, if_pos (decide_eq_true ht), hin]
  simp only [hon, hnew, hcheck, Bool.not_true, Bool.or_self, Bool.false_eq_true, if_false]

theorem mxDescCheck_passes (hnew : d.checked = false) (hcheck : mxCheck s t d = none) : exec (.mxDescCheck t) s = .next (
    if isHalted s t d (s.tile t).mx.halted then mxFailHead s t d 0x22 0 0
    else if mxWaitEn d then s.modMx t (fun e => { e with intake := { d with checked := true, wait := some (s.ref, wdLimit s t) } :: e.intake.tail })
    else mxStart s t d) := by
  rw [exec_mxDescCheck, execMxDescCheck, onUnit, if_pos (decide_eq_true ht), hin]
  simp only [hon, hnew, hcheck, Bool.not_true, Bool.or_self, Bool.false_eq_true, if_false]

theorem mxWaitSatisfied_answers (hold : d.checked = true) : exec (.mxWaitSatisfied t) s = .next (
    if mxWaitMet s t d then mxStart (sigAcquire s t (d.bf 0x58 0 12) (ordScope (d.le 0x5A 1)) (engineTag t)) t d else s) := by
  rw [exec_mxWaitSatisfied, execMxWaitSatisfied, onUnit, if_pos (decide_eq_true ht), hin]
  simp only [hon, hold, Bool.true_and]

end

/-! Blocks (R188, R194, R202). -/

section
variable {n : Nat} (hn : n < 2)
include ht hn

theorem mxBlockStart_hazard {j : MxJob} (hfree : (s.tile t).mx.arr n = none) (hnext : mxNextJob (s.tile t).mx = some j)
    (hhaz : mxHazard (s.tile t).mx j.d j.next = true) : exec (.mxBlockStart t n) s = .next s := by
  rw [exec_mxBlockStart, execMxBlockStart, onUnit, if_pos (decide_eq_true ⟨ht, hn⟩)]
  simp only [hfree, hnext, hhaz, Bool.or_true, if_true]

include hon

theorem mxBlockStart_takes {j : MxJob} (hfree : (s.tile t).mx.arr n = none) (hnext : mxNextJob (s.tile t).mx = some j)
    (hhaz : mxHazard (s.tile t).mx j.d j.next = false) (hraw : mxRaw s t j.d j.next = none) : exec (.mxBlockStart t n) s = .next
      (s.modMx t (fun e => (e.modJob j.d.uid (fun j => { j with next := j.next + 1 })).setArr n
        (some ⟨j.d.uid, j.next, (mxCompute s t j.d j.next).1, ctSize (mxCt j.d), (mxCompute s t j.d j.next).2.sat, (mxCompute s t j.d j.next).2.nan⟩))) := by
  rw [exec_mxBlockStart, execMxBlockStart, onUnit, if_pos (decide_eq_true ⟨ht, hn⟩)]
  simp only [hfree, hnext, hhaz, hraw, hon, Bool.not_true, Bool.or_self, Bool.false_eq_true, if_false]

theorem mxBlockDone_answers {k : MxBlk} (harr : (s.tile t).mx.arr n = some k) : exec (.mxBlockDone t n) s = .next
    ((mxWritten s t k).modMx t (fun e => (e.modJob k.uid (fun j => { j with done := j.done + 1 })).setArr n none)) := by
  have hstores := foldl_twr_eq_storeNums s t k.size id k.out
  rw [List.map_id] at hstores
  rw [exec_mxBlockDone, execMxBlockDone, onUnit, if_pos (decide_eq_true ⟨ht, hn⟩), mxWritten, ← hstores]
  simp only [harr, hon, if_true, id]

end

/-! Signals of a job (R192, R193). -/

section
variable {j : MxJob}
include ht hon

theorem mxOperandsRead_answers (hfind : (s.tile t).mx.jobs.find? (fun j => !j.rdSent && j.fail.isNone && decide (j.next = mxBlocks j.d)) = some j) :
    exec (.mxOperandsRead t) s = .next ((mxSendRd s t j).modMx t (fun e => e.modJob j.d.uid (fun j => { j with rdSent := true }))) := by
  rw [exec_mxOperandsRead, execMxOperandsRead, onUnit, if_pos (decide_eq_true ht), hfind]
  simp only [hon, if_true]

theorem mxCompletion_answers {rest : List MxJob} (hjobs : (s.tile t).mx.jobs = j :: rest) (hready : j.ready = true) :
    exec (.mxCompletion t) s = .next ((mxCounted s t j).modMx t (fun e => { e with jobs := e.jobs.tail })) := by
  rw [exec_mxCompletion, execMxCompletion, onUnit, if_pos (decide_eq_true ht), hjobs]
  simp only [hon, hready, Bool.and_self, if_true]
  rfl

end

end

/-- Settles O34: the head of the intake by its check and its wait, a block by its elements, the signals by what one leaves of the tile. -/
theorem matrixEngine : Obligations.MatrixEngine := by
  intro s t ht hon T
  refine ⟨fun d rest hin hnew => ⟨fun c f a hcheck => ?_, fun hcheck hhalt => ?_, fun hcheck hhalt => ⟨fun hwait => ?_, fun hwait => ?_⟩⟩,
    fun d rest hin hold => ⟨fun hmet => ?_, fun hunmet => ?_⟩,
    fun n j hn hfree hnext => ⟨fun hhaz => mxBlockStart_hazard ht hn hfree hnext hhaz, fun hhaz hraw => ?_⟩,
    fun n k hn harr hapart => ?_, fun j hfind => ?_, fun j rest hjobs hready => ?_⟩
  · exact ⟨_, mxDescCheck_fails ht hon hin hnew hcheck, mxFailHead_failed ..⟩
  · have hexec := mxDescCheck_passes ht hon hin hnew hcheck
    rw [if_pos hhalt] at hexec
    exact ⟨_, hexec, mxFailHead_failed ..⟩
  · have hexec := mxDescCheck_passes ht hon hin hnew hcheck
    rw [if_neg (Bool.eq_false_iff.mp hhalt), if_pos hwait] at hexec
    exact ⟨_, hexec, modMx_became (by rw [hin, List.tail_cons])⟩
  · have hexec := mxDescCheck_passes ht hon hin hnew hcheck
    rw [if_neg (Bool.eq_false_iff.mp hhalt), if_neg (Bool.eq_false_iff.mp hwait)] at hexec
    exact ⟨_, hexec, mxStart_became hin⟩
  · have hexec := mxWaitSatisfied_answers ht hon hin hold
    have honly := sigAcquire_only s t (d.bf 0x58 0 12) (ordScope (d.le 0x5A 1)) (engineTag t)
    have htile := honly.toLog.tile t
    rw [if_pos (show mxWaitMet s t d = true from decide_eq_true hmet)] at hexec
    refine ⟨_, hexec, _, honly, ?_⟩
    have hbecame := mxStart_became ((congrArg (fun T : Tile => T.mx.intake) htile).trans hin)
    rwa [htile] at hbecame
  · have hexec := mxWaitSatisfied_answers ht hon hin hold
    rwa [if_neg (show ¬ mxWaitMet s t d = true from fun hmet => absurd (of_decide_eq_true hmet) (Nat.not_le.mpr hunmet))] at hexec
  · exact ⟨_, mxBlockStart_takes ht hon hn hfree hnext hhaz hraw, _, rfl, rfl, rfl, modMx_became rfl, fun r c hr hc => mem_mxCompute s t j.d j.next hr hc⟩
  · refine ⟨_, mxBlockDone_answers ht hon hn harr, fun x hx => ?_, fun a ha => ?_, mxWritten_rd s t k, ?_, fun i hi => ?_, mxWritten_kept s t k, ?_⟩
    · exact (tnat_congr fun a _ _ => mxWritten_tb s t k a).trans (storeNums_tnat s hapart x hx)
    · exact (mxWritten_tb s t k a).trans (storeNums_out s ha)
    · exact (modMx_tile (mxWritten s t k) t _).trans (by rw [mxWritten_tile])
    · exact (modMx_tile_ne (mxWritten s t k) t _ hi).trans (mxWritten_tile s t k i)
    · exact modMx_after_writes (mxWritten_only s t k) t _
  · have hsent := mxSendRd_signalled s t j
    exact ⟨_, mxOperandsRead_answers ht hon hfind, _, hsent, modMx_became (by rw [hsent.only.mx])⟩
  · refine ⟨_, mxCompletion_answers ht hon hjobs ?_, mxRdDone s t j, mxDoneSent s t j, fun hsent => if_pos hsent, fun hunsent => ?_, mxDoneSent_signalled s t j, ?_,
      mxCounted s t j, mxCounted_words s t j, mxCompleted_became s t j hjobs⟩
    · rw [MxJob.ready, Bool.or_eq_true, decide_eq_true_eq]
      exact hready
    · rw [mxRdDone, if_neg (Bool.eq_false_iff.mp hunsent)]
      exact mxSendRd_signalled s t j
    · exact ((modMx_kept (mxCounted s t j) t _).rd 0x404 (by decide) List.not_mem_nil).trans (mxCounted_rd s t j)

end Sys2Proof.Machine
end

section
/-! SUPPORT. The fault of a vector descriptor (07_vector_engine.md R239): what it latches, what it leaves of its tile, and the descriptors of a halted block that fail behind it. -/

namespace Sys2Proof.Machine

open Sys2Proof

/-! What follows an engine's fault. -/

section
variable {s u : State} {t info lost n unit code : Nat} {d : Desc} {words : List (Nat × Nat)}

/-- A change of the tile leaves an engine's fault as it is. -/
theorem EngineFaulted.then_modTile (h : EngineFaulted s u t info lost n unit code d words) (f : Tile → Tile)
    (haligned : ∀ a ∈ info :: lost :: words.map (fun w => w.1), a % 4 = 0) : EngineFaulted s (u.modTile t f) t info lost n unit code d words :=
  h.after (modTile_kept u t f) haligned (fun _ _ => List.not_mem_nil) id rfl (setTile_only ..) (fun _ hk => tile_modTile_ne u f hk)

/-- Another flag raised behind an engine's fault leaves it as it is. -/
theorem EngineFaulted.then_raise (h : EngineFaulted s u t info lost n unit code d words) {m : Nat} (hm : m < 32) (c queue : Nat)
    (haligned : ∀ a ∈ info :: lost :: words.map (fun w => w.1), a % 4 = 0)
    (hoff : ∀ a ∈ info :: lost :: words.map (fun w => w.1), a ∉ [0x18, 0x780 + 4 * m, 0x1C]) :
    EngineFaulted s (raise u (pTile t) m c queue) t info lost n unit code d words := by
  have honly := raise_only u (pTile t) m c queue 0 []
  exact h.after (raise_wordsKept u m c queue 0 []) haligned hoff (raise_rdB_of u (pTile t) m c queue 0 [] hm) honly.cmds honly.toTileWork
    (fun k _ => honly.tile k)

end

/-! A change of a vector engine. -/

section
variable (s : State) (t : Nat) (f : VxEng → VxEng)

theorem modVx_tile : (s.modVx t f).tile t = { s.tile t with vx := f (s.tile t).vx } := tile_modTile_self ..

theorem modVx_tile_ne {k : Nat} (hk : k ≠ t) : (s.modVx t f).tile k = s.tile k := tile_modTile_ne s _ hk

theorem modVx_became {s : State} {t : Nat} {f : VxEng → VxEng} {e : VxEng} (h : f (s.tile t).vx = e) : TileBecame s (s.modVx t f) t { s.tile t with vx := e } := by
  rw [TileBecame, State.modVx, State.modTile, h]

end

/-! The fault. -/

section
variable (s : State) (t : Nat) (d : Desc) (code field addr done : Nat)

/-- The registers that a fault of the vector engine latches. -/
def vxWords : List (Nat × Nat) :=
  [(0x490, code + 2 ^ 31), (0x494, d.off), (0x498, d.iss.index), (0x49C, addr), (0x4A0, field), (0x4A4, d.iss.queue), (0x4A8, done)]

theorem vxWords_offsets : (vxWords d code field addr done).map (fun w => w.1) = [0x490, 0x494, 0x498, 0x49C, 0x4A0, 0x4A4, 0x4A8] := rfl

theorem vxWords_aligned : ∀ a ∈ 0x490 :: 0x4AC :: (vxWords d code field addr done).map (fun w => w.1), a % 4 = 0 := by
  rw [vxWords_offsets]; decide

/-- The state in which a fault of the vector engine is latched and flagged. -/
def vxNoted : State :=
  engineNoted s t 0x490 0x4AC 14 3 code d.iss.queue addr d (vxWords d code field addr done) [code + 2 ^ 31, d.off, d.iss.index, addr]

theorem vxNoted_faulted : EngineFaulted s (vxNoted s t d code field addr done) t 0x490 0x4AC 14 3 code d (vxWords d code field addr done) := by
  refine engineNoted_faulted _ _ _ _ _ _ _ _ _ _ _ _ (by decide) (vxWords_aligned _ _ _ _ _) ?_ ?_ ?_ (by decide)
  · rw [vxWords_offsets]; decide
  · rw [vxWords_offsets]; decide
  · rw [vxWords_offsets]; decide

theorem vxNoted_tile (k : Nat) : (vxNoted s t d code field addr done).tile k = s.tile k := tile_congr (engineNoted_tiles ..) k

/-- The fault halts its descriptor's block: halt_on_fault is set and the block is resident and not halted yet. -/
def vxHalts (b : Nat) : Bool := s.rdB (pTile t) 0x110 2 && issuerLives s t d && !(s.tile t).vx.halted.contains b

/-- The blocks that are halted behind a fault. -/
def vxHalted : List Nat :=
  match d.iss.blk with
  | some b => if vxHalts s t d b then (s.tile t).vx.halted ++ [b] else (s.tile t).vx.halted
  | none => (s.tile t).vx.halted

/-- A fault is noted; it may halt a block, which is flagged. -/
theorem vxFault_cases : (vxFault s t d code field addr done = vxNoted s t d code field addr done ∧ vxHalted s t d = (s.tile t).vx.halted)
    ∨ ∃ b, vxFault s t d code field addr done
        = raise ((vxNoted s t d code field addr done).modVx t (fun e => { e with halted := e.halted ++ [b] })) (pTile t) 15 0 d.iss.queue
      ∧ vxHalted s t d = (s.tile t).vx.halted ++ [b] := by
  unfold vxFault vxHalted
  cases d.iss.blk with
  | none => exact .inl ⟨rfl, rfl⟩
  | some b =>
    dsimp only
    cases hhalts : vxHalts s t d b with
    | true => exact .inr ⟨b, if_pos hhalts, rfl⟩
    | false => exact .inl ⟨if_neg (Bool.eq_false_iff.mp hhalts), rfl⟩

theorem vxFault_faulted : EngineFaulted s (vxFault s t d code field addr done) t 0x490 0x4AC 14 3 code d (vxWords d code field addr done) := by
  have hnoted := vxNoted_faulted s t d code field addr done
  rcases vxFault_cases s t d code field addr done with ⟨hfault, -⟩ | ⟨b, hfault, -⟩
  · rw [hfault]
    exact hnoted
  · rw [hfault]
    refine (hnoted.then_modTile _ (vxWords_aligned _ _ _ _ _)).then_raise (by decide) 0 _ (vxWords_aligned _ _ _ _ _) ?_
    rw [vxWords_offsets]; decide

theorem vxFault_tile : (vxFault s t d code field addr done).tile t = { s.tile t with vx := { (s.tile t).vx with halted := vxHalted s t d } } := by
  rcases vxFault_cases s t d code field addr done with ⟨hfault, hhalted⟩ | ⟨b, hfault, hhalted⟩
  · rw [hfault, hhalted, vxNoted_tile]
  · rw [hfault, hhalted, (raise_only ..).tile, modVx_tile, vxNoted_tile]

/-- Where halt_on_fault is set, a fault leaves its resident block halted. -/
theorem mem_vxHalted {b : Nat} (hen : s.rdB (pTile t) 0x110 2 = true) (hblk : d.iss.blk = some b) (hlives : issuerLives s t d = true) : b ∈ vxHalted s t d := by
  rw [vxHalted, hblk]
  dsimp only
  cases hhalts : vxHalts s t d b with
  | true => exact List.mem_append_right _ (List.mem_singleton_self b)
  | false =>
    rw [vxHalts, hen, hlives] at hhalts
    exact List.contains_iff_mem.mp (by simpa using hhalts)

/-- The head descriptor fails: it leaves the intake for the jobs, its fault marked. -/
theorem vxFailHead_failed : VxFailed s (vxFailHead s t d code field addr) t d code field addr := by
  refine ⟨⟨vxHalted s t d, code = 0x24 || !vxRdEn d, ?_⟩, ((vxFault_faulted s t d code field addr 0).then_modTile _ (vxWords_aligned _ _ _ _ _)).subset ?_⟩
  · rw [vxFailHead, modVx_tile, vxFault_tile]
  · exact fun w hw => List.mem_append_left [(0x4A8, 0)] hw

end

/-! Descriptors that fail with another one of their block. -/

/-- A job that its block's failure has ended. -/
def VxJob.aborted (j : VxJob) : VxJob := { j with fail := some 0x27 }

/-- A job that uncorrectable data has ended. -/
def VxJob.spoiled (j : VxJob) : VxJob := { j with fail := some 0x23, items := [], events := [], emptyIdx := [] }

/-- The job `j` of a halted block fails. -/
def vxAbort (t : Nat) (s : State) (j : VxJob) : State := (vxFault s t j.d 0x27 0 0 0).modVx t (fun e => e.modJob j.d.uid VxJob.aborted)

/-- The jobs of halted blocks that have not begun. -/
def vxDoomed (s : State) (t : Nat) : List VxJob :=
  (s.tile t).vx.jobs.filter (fun j => !j.snap && j.fail.isNone && isHalted s t j.d (s.tile t).vx.halted)

theorem vxAbortJobs_eq (s : State) (t : Nat) : vxAbortJobs s t = (vxDoomed s t).foldl (vxAbort t) s := rfl

theorem vxAbort_jobs (t : Nat) (s : State) (j : VxJob) :
    ((vxAbort t s j).tile t).vx.jobs = lupdate (fun y => decide (y.d.uid = j.d.uid)) VxJob.aborted (s.tile t).vx.jobs := by
  rw [vxAbort, modVx_tile, vxFault_tile, VxEng.modJob]

/-- A job that is failed, or whose turn to fail comes, is failed once all have. -/
theorem vxAborts_fail (t : Nat) (l : List VxJob) : ∀ (s : State) (k : VxJob), k ∈ (s.tile t).vx.jobs → (k.fail = some 0x27 ∨ ∃ j ∈ l, k.d.uid = j.d.uid) →
    ∃ y ∈ ((l.foldl (vxAbort t) s).tile t).vx.jobs, y.d = k.d ∧ y.snap = k.snap ∧ y.fail = some 0x27 := by
  induction l with
  | nil =>
    rintro s k hk (hfail | ⟨j, hj, -⟩)
    · exact ⟨k, hk, rfl, rfl, hfail⟩
    · exact absurd hj List.not_mem_nil
  | cons j l ih =>
    intro s k hk hturn
    have hjobs := vxAbort_jobs t s j
    by_cases huid : k.d.uid = j.d.uid
    · exact ih (vxAbort t s j) k.aborted (hjobs ▸ mem_lupdate_of hk (decide_eq_true huid)) (.inl rfl)
    · refine ih (vxAbort t s j) k (hjobs ▸ mem_lupdate_off hk (decide_eq_false huid)) (hturn.imp_right ?_)
      rintro ⟨i, hi, hik⟩
      rcases List.mem_cons.mp hi with rfl | hi
      · exact absurd hik huid
      · exact ⟨i, hi, hik⟩

/-- Where every job has begun or failed, none fails with its block. -/
theorem vxAbortJobs_none {s : State} {t : Nat} (h : ∀ k ∈ (s.tile t).vx.jobs, k.snap = true ∨ k.fail.isSome = true) : vxAbortJobs s t = s := by
  have hnone : vxDoomed s t = [] := by
    refine List.filter_eq_nil_iff.mpr fun k hk => ?_
    rcases h k hk with hsnap | hfail
    · simp [hsnap]
    · simp [Option.isNone_eq_false_iff.mpr hfail]
  rw [vxAbortJobs_eq, hnone, List.foldl_nil]

theorem vxAbortWaiting_empty {s : State} {t : Nat} (h : (s.tile t).vx.intake = []) : vxAbortWaiting s t = s := by rw [vxAbortWaiting, h]

/-- A waiting head that fails joins the jobs; they stay as they are. -/
theorem vxAbortWaiting_jobs (s : State) (t : Nat) : (s.tile t).vx.jobs ⊆ ((vxAbortWaiting s t).tile t).vx.jobs := by
  unfold vxAbortWaiting
  split
  · next d _ _ =>
    split
    · obtain ⟨⟨h, r, htile⟩, -⟩ := vxFailHead_failed s t d 0x27 0 0
      rw [htile]
      exact List.subset_append_left ..
    · exact List.Subset.refl _
  · exact List.Subset.refl _

/-! A vector that meets uncorrectable data (R238). -/

section
variable (s : State) (t : Nat) (j : VxJob) (a : Nat)

/-- The state in which a job has failed for uncorrectable data at `a`. -/
def vxSpoiled : State := (vxFault s t j.d 0x23 0 a j.stored).modVx t (fun e => e.modJob j.d.uid VxJob.spoiled)

theorem vxSpoiled_tile : (vxSpoiled s t j a).tile t
    = { s.tile t with vx := { (s.tile t).vx.modJob j.d.uid VxJob.spoiled with halted := vxHalted s t j.d } } := by
  rw [vxSpoiled, modVx_tile, vxFault_tile]
  rfl

theorem vxSpoiled_faulted : EngineFaulted s (vxSpoiled s t j a) t 0x490 0x4AC 14 3 0x23 j.d (vxWords j.d 0x23 0 a j.stored) :=
  (vxFault_faulted ..).then_modTile _ (vxWords_aligned _ _ _ _ _)

/-- Where all the others have begun or failed, none is left that its block's failure could end. -/
theorem vxSpoiled_begun (h : ∀ k ∈ (s.tile t).vx.jobs, k ≠ j → k.snap = true ∨ k.fail.isSome = true) :
    ∀ k ∈ ((vxSpoiled s t j a).tile t).vx.jobs, k.snap = true ∨ k.fail.isSome = true := by
  rw [vxSpoiled_tile]
  intro k hk
  obtain ⟨y, hy, rfl⟩ := List.mem_map.mp hk
  split
  · exact .inr rfl
  · next huid => exact h y hy fun hyj => huid (decide_eq_true (congrArg (fun j : VxJob => j.d.uid) hyj))

variable {s t j}

/-- A job of the same block that has not begun is among those that fail with it. -/
theorem mem_vxDoomed {k : VxJob} {b : Nat} (hk : k ∈ (s.tile t).vx.jobs) (huid : k.d.uid ≠ j.d.uid) (hsnap : k.snap = false) (hfail : k.fail = none)
    (hen : s.rdB (pTile t) 0x110 2 = true) (hjb : j.d.iss.blk = some b) (hkb : k.d.iss.blk = some b) (hjl : issuerLives s t j.d = true)
    (hkl : issuerLives s t k.d = true) : k ∈ vxDoomed (vxSpoiled s t j a) t := by
  have htile := vxSpoiled_tile s t j a
  have hlives : issuerLives (vxSpoiled s t j a) t k.d = true := by
    rw [issuerLives, hkb] at hkl ⊢
    dsimp only at hkl ⊢
    rw [htile]
    exact hkl
  refine List.mem_filter.mpr ⟨?_, ?_⟩
  · rw [htile]
    exact mem_lupdate_off hk (decide_eq_false huid)
  · have hhalted : isHalted (vxSpoiled s t j a) t k.d ((vxSpoiled s t j a).tile t).vx.halted = true := by
      rw [isHalted, hkb, htile]
      dsimp only
      rw [hlives, List.contains_iff_mem.mpr (mem_vxHalted s t j.d hen hjb hjl), Bool.and_self]
    rw [hsnap, hfail, hhalted]
    rfl

end

end Sys2Proof.Machine
end

section
/-! SUPPORT. What a vector descriptor stores (07_vector_engine.md R223-R225): one item, the items of a vector, the plan of a chain without reduction. -/

namespace Sys2Proof.Machine

open Sys2Proof

/-! One item. -/

section
variable (t : Nat) (s : State) (x : VxItem)

/-- The first byte that an item touches, the place of its bits in it, and how many bytes it touches. -/
def VxItem.byteOff : Nat := x.off + x.bit / 8
def VxItem.low : Nat := x.bit % 8
def VxItem.bytes : Nat := ceilDiv (x.low + x.w) 8

/-- The contents of its bytes with an item merged in. -/
def VxItem.merged : Nat := putBits (s.tnat t x.byteOff x.bytes) x.low x.w x.val

theorem storeItem_eq : storeItem t s x = s.twr t x.byteOff (toLE x.bytes (x.merged t s)) := rfl

theorem VxItem.bits_within : x.low + x.w ≤ 8 * x.bytes := by
  unfold VxItem.bytes ceilDiv
  omega

/-- A field of the bytes of an item, after it is stored. -/
theorem storeItem_bits {a n : Nat} (h : a + n ≤ 8 * x.bytes) : bits ((storeItem t s x).tnat t x.byteOff x.bytes) a n = bits (x.merged t s) a n := by
  rw [storeItem_eq, tnat_twr_self]
  apply Nat.eq_of_testBit_eq
  intro i
  rw [testBit_bits, testBit_bits, Nat.testBit_mod_two_pow]
  by_cases hi : i < n
  · simp [show a + i < 8 * x.bytes by omega]
  · simp [hi]

theorem storeItem_out {a : Nat} (h : a < x.byteOff ∨ x.byteOff + x.bytes ≤ a) : (storeItem t s x).tb t a = s.tb t a := by
  rw [storeItem_eq]
  exact tb_twr_out s t _ _ (by rwa [length_toLE])

/-- Storing an item puts its bits in their place and leaves all others (R225). -/
theorem storeItem_merges (hval : x.val < 2 ^ x.w) : let u := storeItem t s x
    bits (u.tnat t x.byteOff x.bytes) x.low x.w = x.val ∧ bits (u.tnat t x.byteOff x.bytes) 0 x.low = bits (s.tnat t x.byteOff x.bytes) 0 x.low
      ∧ bits (u.tnat t x.byteOff x.bytes) (x.low + x.w) (8 * x.bytes - (x.low + x.w))
        = bits (s.tnat t x.byteOff x.bytes) (x.low + x.w) (8 * x.bytes - (x.low + x.w))
      ∧ (∀ a, a < x.byteOff ∨ x.byteOff + x.bytes ≤ a → u.tb t a = s.tb t a) ∧ u = { s with tmem := u.tmem, traw := u.traw } := by
  have hwithin := x.bits_within
  refine ⟨?_, ?_, ?_, fun a ha => storeItem_out t s x ha, rfl⟩
  · rw [storeItem_bits t s x hwithin, VxItem.merged, bits_putBits_self, Nat.mod_eq_of_lt hval]
  · rw [storeItem_bits t s x (by omega), VxItem.merged, bits_putBits_off _ _ _ _ _ _ (.inl (Nat.zero_add _).le)]
  · rw [storeItem_bits t s x (by omega), VxItem.merged, bits_putBits_off _ _ _ _ _ _ (.inr le_rfl)]

/-- What an item leaves in memory follows from the memory alone. -/
theorem storeItem_tmem_congr {s u : State} (h : u.tmem = s.tmem) : (storeItem t u x).tmem = (storeItem t s x).tmem := by
  have hold : x.merged t u = x.merged t s := by rw [VxItem.merged, VxItem.merged, tnat_congr fun a _ _ => tb_congr h t a]
  rw [storeItem_eq, storeItem_eq, hold, State.twr, State.twr, h]

end

/-! What the passing of a vector may touch. -/

/-- Only per-tile bytes, registers and the error log changed. -/
def OnlyStores (s u : State) : Prop := u = { s with tmem := u.tmem, traw := u.traw, regs := u.regs, log := u.log }

section
variable {s u v : State}

theorem OnlyStores.trans (h : OnlyStores s u) (k : OnlyStores u v) : OnlyStores s v := by
  unfold OnlyStores at *
  rw [k, h]

theorem OnlyRegsLog.toStores (h : OnlyRegsLog s u) : OnlyStores s u := by
  unfold OnlyRegsLog at h
  rw [h]; rfl

theorem twr_stores (s : State) (t off : Nat) (l : List Byte) : OnlyStores s (s.twr t off l) := rfl

theorem OnlyStores.tile (h : OnlyStores s u) (k : Nat) : u.tile k = s.tile k := tile_congr (by rw [h]) k

end

section
variable (t : Nat)

theorem storeItems_only (l : List VxItem) : ∀ s : State, OnlyStores s (l.foldl (storeItem t) s) := by
  induction l with
  | nil => exact fun s => rfl
  | cons x l ih => exact fun s => (twr_stores ..).trans (ih (storeItem t s x))

theorem storeItems_regs (l : List VxItem) : ∀ s : State, (l.foldl (storeItem t) s).regs = s.regs := by
  induction l with
  | nil => exact fun s => rfl
  | cons x l ih => exact fun s => ih (storeItem t s x)

theorem storeItems_tmem_congr (l : List VxItem) : ∀ {s u : State}, u.tmem = s.tmem → (l.foldl (storeItem t) u).tmem = (l.foldl (storeItem t) s).tmem := by
  induction l with
  | nil => exact fun h => h
  | cons x l ih => exact fun h => ih (storeItem_tmem_congr t x h)

end

/-! The elements of a chain. -/

section
variable (s : State) (t : Nat) (d : Desc)

/-- Elements read in their order, each from memory as the descriptor found it but where the output overlaps its inputs. -/
def ElementsRead (els : List (FV × NEv × Bool)) : Prop :=
  ∀ i, i < els.length → ∃ cur, (vxOpen d = false → cur = s) ∧ els[i]? = some (vxElement s cur t d i)

/-- The elements that the vector behind `els` reads. -/
def vxReadNext (els : List (FV × NEv × Bool)) : List (FV × NEv × Bool) :=
  (List.range (vxEnd d els.length - els.length)).map (fun i => vxElement s (vxStored s t d els) t d (els.length + i))

theorem ElementsRead.next {els : List (FV × NEv × Bool)} (h : ElementsRead s t d els) : ElementsRead s t d (els ++ vxReadNext s t d els) := by
  intro i hi
  rcases Nat.lt_or_ge i els.length with hold | hnew
  · rw [List.getElem?_append_left hold]
    exact h i hold
  · refine ⟨vxStored s t d els, fun hopen => if_neg (Bool.eq_false_iff.mp hopen), ?_⟩
    rw [List.length_append] at hi
    rw [List.getElem?_append_right hnew, vxReadNext, List.getElem?_map, List.getElem?_range (by rw [vxReadNext, List.length_map, List.length_range] at hi; omega),
      Option.map_some, Nat.add_sub_cancel' hnew]

/-- The elements that a vector holds at most (R223). -/
def vxCap : Nat := if vxType d = 0 then 512 else 1024

theorem vxEnd_eq (p : Nat) : vxEnd d p = min (min (p + vxCap d) ((p / vxDim d 0 + 16) * vxDim d 0)) (vxTotal d) := by
  simp only [min_def_lt]
  rfl

theorem vxEnd_le (p : Nat) : vxEnd d p ≤ vxTotal d := by
  rw [vxEnd_eq]
  exact Nat.min_le_right ..

/-- A vector holds an element where one is left. -/
theorem lt_vxEnd {p : Nat} (hrow : 0 < vxDim d 0) (hp : p < vxTotal d) : p < vxEnd d p := by
  have hrows : p < (p / vxDim d 0 + 16) * vxDim d 0 := Nat.lt_mul_of_div_lt (Nat.lt_add_of_pos_right (by decide)) hrow
  have hcap : 0 < vxCap d := by unfold vxCap; split <;> decide
  rw [vxEnd_eq]
  exact lt_min (lt_min (Nat.lt_add_of_pos_right hcap) hrows) hp

/-- With as many vectors as are needed, every element is read. -/
theorem vxElements_spec (hrow : 0 < vxDim d 0) (k : Nat) : ∀ els : List (FV × NEv × Bool), ElementsRead s t d els → els.length ≤ vxTotal d → vxTotal d ≤ els.length + k →
    ElementsRead s t d (vxElements s t d k els) ∧ (vxElements s t d k els).length = vxTotal d := by
  induction k with
  | zero => exact fun els hread hle hge => ⟨hread, Nat.le_antisymm hle hge⟩
  | succ k ih =>
    intro els hread hle hge
    rw [vxElements]
    split
    · next hall => exact ⟨hread, Nat.le_antisymm hle hall⟩
    · next hmore =>
      have hlt := lt_vxEnd d hrow (Nat.lt_of_not_le hmore)
      have hend := vxEnd_le d els.length
      have hlength : (els ++ vxReadNext s t d els).length = vxEnd d els.length := by
        rw [List.length_append, vxReadNext, List.length_map, List.length_range]
        omega
      exact ih (els ++ vxReadNext s t d els) (hread.next s t d) (by omega) (by omega)

end

/-! The store stage. -/

section
variable (d : Desc)

theorem storePlain_keeps (acc : StoreAcc) (o : OutVal) : acc.items ⊆ (storePlain d acc o).items := by
  unfold storePlain
  dsimp only
  split
  · exact fun x hx => List.mem_append_left _ (List.mem_append_left _ hx)
  · split
    · exact fun x hx => List.mem_append_left _ (List.mem_append_left _ hx)
    · exact fun x hx => List.mem_append_left _ hx

/-- An active output is stored rounded in the output's format, in its place. -/
theorem mem_storePlain (acc : StoreAcc) {o : OutVal} (hact : o.act = true) :
    elItem d o (encodeFV (strFmt d 3) (vxRnd d o.n) (divScale d o.v)).1 ∈ (storePlain d acc o).items := by
  rw [storePlain, if_pos hact]
  exact List.mem_append_left _ (List.mem_append_right _ (List.mem_singleton_self _))

theorem storePlains_keep (l : List OutVal) : ∀ acc : StoreAcc, acc.items ⊆ (l.foldl (storePlain d) acc).items := by
  induction l with
  | nil => exact fun acc => List.Subset.refl _
  | cons o l ih => exact fun acc => List.Subset.trans (storePlain_keeps d acc o) (ih _)

theorem mem_storePlains {o : OutVal} (hact : o.act = true) {l : List OutVal} (ho : o ∈ l) (acc : StoreAcc) :
    elItem d o (encodeFV (strFmt d 3) (vxRnd d o.n) (divScale d o.v)).1 ∈ (l.foldl (storePlain d) acc).items := by
  obtain ⟨pre, post, rfl⟩ := List.append_of_mem ho
  rw [List.foldl_append, List.foldl_cons]
  exact storePlains_keep d post _ (mem_storePlain d _ hact)

/-- The outputs of a chain without reduction. -/
def vxPlainOuts (els : List (FV × NEv × Bool)) : List OutVal :=
  (List.range els.length).map (fun n => ⟨n, n, ((els[n]?).getD (fzero, .zero, false)).1, ((els[n]?).getD (fzero, .zero, false)).2.2⟩)

theorem vxMake_items (free0 : Nat) (els : List (FV × NEv × Bool)) (hred : vxReduce d = none) (hmx : strMx d 3 = false) :
    (vxMake free0 d els).items = ((vxPlainOuts els).foldl (storePlain d) ⟨[], [], List.replicate 70 0⟩).items := by
  simp only [vxMake, hred, hmx, Bool.false_eq_true, if_false, List.append_nil]
  rfl

/-- The plan of a chain without reduction and block scales holds every active element. -/
theorem mem_vxPlan (s : State) (t : Nat) {n : Nat} (hred : vxReduce d = none) (hmx : strMx d 3 = false) (hrow : 0 < vxDim d 0) (hn : n < vxTotal d) :
    ∃ cur, (vxOpen d = false → cur = s) ∧ ((vxElement s cur t d n).2.2 = true →
      elItem d ⟨n, n, (vxElement s cur t d n).1, true⟩ (encodeFV (strFmt d 3) (vxRnd d n) (divScale d (vxElement s cur t d n).1)).1 ∈ (vxPlan s t d).items) := by
  obtain ⟨hread, hlength⟩ := vxElements_spec s t d hrow (vxTotal d) [] (fun i hi => absurd hi (Nat.not_lt_zero i)) (Nat.zero_le _) (Nat.zero_add (vxTotal d)).ge
  have hn' := hn.trans_eq hlength.symm
  obtain ⟨cur, hcur, hel⟩ := hread n hn'
  refine ⟨cur, hcur, fun hact => ?_⟩
  rw [vxPlan, vxMake_items d _ _ hred hmx]
  refine mem_storePlains d (o := ⟨n, n, (vxElement s cur t d n).1, true⟩) rfl (List.mem_map.mpr ⟨n, List.mem_range.mpr hn', ?_⟩) _
  rw [hel, Option.getD_some, hact]

end

end Sys2Proof.Machine
end

section
/-! The vector engine (O37). -/

namespace Sys2Proof.Machine

open Sys2Proof

theorem exec_vxDescCheck (t : Nat) (s : State) : exec (.vxDescCheck t) s = execVxDescCheck t s := rfl
theorem exec_vxWaitSatisfied (t : Nat) (s : State) : exec (.vxWaitSatisfied t) s = execVxWaitSatisfied t s := rfl
theorem exec_vxVector (t : Nat) (s : State) : exec (.vxVector t) s = execVxVector t s := rfl
theorem exec_vxInputsRead (t : Nat) (s : State) : exec (.vxInputsRead t) s = execVxInputsRead t s := rfl
theorem exec_vxCompletion (t : Nat) (s : State) : exec (.vxCompletion t) s = execVxCompletion t s := rfl

/-- A descriptor that starts. -/
def vxFresh (d : Desc) : VxJob := ⟨d, false, 0, [], 0, 0, [], false, !vxRdEn d, none, [], []⟩

/-- The head starts: it leaves the intake for the jobs. -/
theorem vxStart_became {s : State} {t : Nat} {d : Desc} {rest : List Desc} (hin : (s.tile t).vx.intake = d :: rest) : TileBecame s (vxStart s t d) t
    { s.tile t with vx := { (s.tile t).vx with intake := rest, jobs := (s.tile t).vx.jobs ++ [vxFresh d] } } :=
  modVx_became (by rw [hin, List.tail_cons, vxFresh])

/-! A vector that passes (R223, R229, R231). -/

section
variable (s : State) (t : Nat) (j : VxJob)

/-- What is still to store of a job, and the vectors that bring its empty outputs, once its first vector has read the inputs. -/
def vxItems : List VxItem := if j.snap then j.items else (vxPlan s t j.d).items
def vxEmptyAt : List Nat := if j.snap then j.emptyIdx else (vxPlan s t j.d).empty

/-- The reading of the inputs uses up free values only. -/
theorem vxSnap_state : (vxSnap s t j).1 = { s with free := (vxSnap s t j).1.free } := by
  unfold vxSnap
  split <;> rfl

/-- The job once its inputs have been read. -/
def vxLoaded : VxJob :=
  { j with snap := true, items := vxItems s t j, emptyIdx := vxEmptyAt s t j, hist := if j.snap then j.hist else (vxPlan s t j.d).hist,
           events := if j.snap then j.events else (vxPlan s t j.d).ev }

theorem vxSnap_job : (vxSnap s t j).2 = vxLoaded s t j := by
  unfold vxSnap vxLoaded vxItems vxEmptyAt
  cases hsnap : j.snap with
  | true =>
    simp only [if_true]
    rw [← hsnap]
  | false => rfl

/-- The next vector of a job is its last. -/
def VxJob.lastVector : Bool := decide (vxEnd j.d j.pos = vxTotal j.d)

/-- What carries the index `i` passes with the next vector of a job. -/
def VxJob.passes (i : Nat) : Bool := j.lastVector || decide (i < vxEnd j.d j.pos)

/-- The items that the next vector stores, and how many empty outputs are among them. -/
def vxNow : List VxItem := (vxItems s t j).filter (fun x => j.passes x.idx)
def vxEmptyNow : Nat := ((vxEmptyAt s t j).filter j.passes).length

/-- The job behind the vector. -/
def vxBehind : VxJob :=
  { vxLoaded s t j with
    pos := vxEnd j.d j.pos, items := (vxItems s t j).filter (fun x => !j.passes x.idx), stored := j.stored + ((vxNow s t j).filter (·.elem)).length, fin := j.lastVector,
    empty := j.empty + vxEmptyNow s t j, emptyIdx := (vxEmptyAt s t j).filter (fun i => !j.passes i),
    events := (vxLoaded s t j).events.filter (fun x => !j.passes x.idx) }

/-- The state in which the vector's numeric events are counted. -/
def vxCounted : State := countEvents (vxSnap s t j).1 t ((vxLoaded s t j).events.filter (fun x => j.passes x.idx))

/-- The state in which its items are stored and counted. -/
def vxWritten : State := ((vxNow s t j).foldl (storeItem t) (vxCounted s t j)).inc (pTile t) 0x488 ((vxNow s t j).filter (·.elem)).length

/-- The state in which the histogram has been written too, where one is due. -/
def vxHistogrammed : State :=
  if j.lastVector && vxHist j.d then writeHist (vxWritten s t j) t j.d (vxLoaded s t j).hist else vxWritten s t j

/-- The state in which its empty outputs are counted. -/
def vxEmptied : State := (vxHistogrammed s t j).inc (pTile t) 0x48C (vxEmptyNow s t j)

/-- The state behind the vector, but for the job: the first empty output of a descriptor is flagged. -/
def vxPassed : State :=
  if vxEmptyNow s t j ≠ 0 ∧ j.empty = 0 then raise (vxEmptied s t j) (pTile t) 16 0 j.d.iss.queue else vxEmptied s t j

theorem vxCounted_regs : OnlyRegs (vxSnap s t j).1 (vxCounted s t j) := tileNum_only ..

theorem vxCounted_tmem : (vxCounted s t j).tmem = s.tmem := by
  obtain ⟨-, hmem⟩ := (vxCounted_regs s t j).toLog.mem
  rw [hmem, vxSnap_state]

theorem vxCounted_kept : WordsKept (pTile t) s (vxCounted s t j) [0x6D0, 0x6D4, 0x6D8] :=
  (WordsKept.of_regs (by rw [vxSnap_state])).trans (tileNum_kept ..)

theorem vxStores_kept : WordsKept (pTile t) s ((vxNow s t j).foldl (storeItem t) (vxCounted s t j)) [0x6D0, 0x6D4, 0x6D8] :=
  (vxCounted_kept s t j).trans (.of_regs (storeItems_regs ..))

theorem vxWritten_tmem : (vxWritten s t j).tmem = ((vxNow s t j).foldl (storeItem t) s).tmem :=
  (State.inc_tmem ..).trans (storeItems_tmem_congr t _ (vxCounted_tmem s t j))

theorem vxWritten_kept : WordsKept (pTile t) s (vxWritten s t j) [0x6D0, 0x6D4, 0x6D8, 0x488] := (vxStores_kept s t j).trans (inc_wordsKept _ (by decide) _)

theorem vxWritten_rd : (vxWritten s t j).rd (pTile t) 0x488 = (s.rd (pTile t) 0x488 + ((vxNow s t j).filter (·.elem)).length) % 2 ^ 32 := by
  rw [vxWritten, State.inc, rd_wr_self, (vxStores_kept s t j).rd 0x488 (by decide) (by decide)]

theorem vxWritten_only : OnlyStores (vxSnap s t j).1 (vxWritten s t j) :=
  ((vxCounted_regs s t j).toLog.toStores.trans (storeItems_only ..)).trans (wr_onlyRegsLog ..).toStores

theorem vxHistogrammed_only : OnlyStores (vxWritten s t j) (vxHistogrammed s t j) := by
  unfold vxHistogrammed
  split
  · exact twr_stores ..
  · rfl

theorem vxHistogrammed_kept : WordsKept (pTile t) (vxWritten s t j) (vxHistogrammed s t j) [] := by
  unfold vxHistogrammed
  split
  · exact .of_regs rfl
  · exact .of_regs rfl

theorem vxHistogrammed_none (h : j.lastVector = false ∨ vxHist j.d = false) : vxHistogrammed s t j = vxWritten s t j := by
  rw [vxHistogrammed, if_neg]
  rcases h with h | h
  · simp [h]
  · simp [h]

theorem vxEmptied_rd : (vxEmptied s t j).rd (pTile t) 0x48C = (s.rd (pTile t) 0x48C + vxEmptyNow s t j) % 2 ^ 32 := by
  rw [vxEmptied, State.inc, rd_wr_self, (vxHistogrammed_kept s t j).rd 0x48C (by decide) (by decide), (vxWritten_kept s t j).rd 0x48C (by decide) (by decide)]

theorem vxPassed_log : OnlyRegsLog (vxEmptied s t j) (vxPassed s t j) := by
  unfold vxPassed
  split
  · exact raise_only ..
  · rfl

theorem vxPassed_kept : WordsKept (pTile t) (vxEmptied s t j) (vxPassed s t j) [0x18, 0x7C0, 0x1C] := by
  unfold vxPassed
  split
  · exact raise_wordsKept ..
  · exact (WordsKept.of_regs rfl).mono (List.nil_subset _)

theorem vxPassed_only : OnlyStores (vxSnap s t j).1 (vxPassed s t j) :=
  (((vxWritten_only s t j).trans (vxHistogrammed_only s t j)).trans (wr_onlyRegsLog ..).toStores).trans (vxPassed_log s t j).toStores

theorem vxPassed_tile (k : Nat) : (vxPassed s t j).tile k = s.tile k :=
  ((vxPassed_only s t j).tile k).trans (tile_congr (by rw [vxSnap_state]) k)

/-- Where no histogram is due, the memory holds what the items leave. -/
theorem vxPassed_tmem (h : j.lastVector = false ∨ vxHist j.d = false) : (vxPassed s t j).tmem = ((vxNow s t j).foldl (storeItem t) s).tmem := by
  obtain ⟨-, hmem⟩ := (vxPassed_log s t j).mem
  rw [hmem, vxEmptied, State.inc_tmem, vxHistogrammed_none s t j h, vxWritten_tmem]

theorem vxPassed_rd_stored : (vxPassed s t j).rd (pTile t) 0x488 = (s.rd (pTile t) 0x488 + ((vxNow s t j).filter (·.elem)).length) % 2 ^ 32 := by
  have hkept : WordsKept (pTile t) (vxWritten s t j) (vxPassed s t j) [0x48C, 0x18, 0x7C0, 0x1C] :=
    ((vxHistogrammed_kept s t j).trans (inc_wordsKept _ (by decide) _)).trans (vxPassed_kept s t j)
  rw [hkept.rd 0x488 (by decide) (by decide), vxWritten_rd]

theorem vxPassed_rd_empty : (vxPassed s t j).rd (pTile t) 0x48C = (s.rd (pTile t) 0x48C + vxEmptyNow s t j) % 2 ^ 32 := by
  rw [(vxPassed_kept s t j).rd 0x48C (by decide) (by decide), vxEmptied_rd]

theorem vxPassed_flag (hempty : vxEmptyNow s t j ≠ 0) (hfirst : j.empty = 0) : (vxPassed s t j).rdB (pTile t) 0x18 16 = true := by
  rw [vxPassed, if_pos ⟨hempty, hfirst⟩]
  exact raise_rdB_self _ _ 16 _ _ _ _ (by decide)

/-- Stores, events and then a change of a vector engine. -/
theorem modVx_after_stores {v w : State} (hv : v = { s with free := v.free }) (hw : OnlyStores v w) (f : VxEng → VxEng) :
    let u := w.modVx t f
    u = { s with tmem := u.tmem, traw := u.traw, regs := u.regs, tiles := u.tiles, log := u.log, free := u.free } := by
  unfold OnlyStores at hw
  rw [hw, hv]
  rfl

end

/-! The signals of a job (R233, R235). -/

/-- Signals leave a tile's vector engine as it is. -/
theorem SignalOnly.vx {s u : State} {k : Nat} (h : SignalOnly s u k) : (u.tile k).vx = (s.tile k).vx := by
  obtain ⟨-, -, bs, tg, htile, -⟩ := h
  rw [htile]

/-- The marks of a completion: bit 62 for an empty output, bit 63 for a failure. -/
def VxJob.marks (j : VxJob) : Nat := (if j.empty = 0 then 0 else 2 ^ 62) + (if j.fail.isSome then 2 ^ 63 else 0)

theorem VxJob.marks_lt (j : VxJob) : j.marks < 2 ^ 64 := by
  unfold VxJob.marks
  split <;> split <;> decide

section
variable (s : State) (t : Nat) (j : VxJob)

/-- The state in which a completing job's inputs-read signal has been performed. -/
def vxRdDone : State := if j.rdSent then s else vxSendRd s t j

/-- The state in which its completion signal has been performed too. -/
def vxDoneSent : State := engSignal (vxRdDone s t j) t (j.d.bf 0x10 0 12) (j.d.le 0x18 8) j.marks (j.d.le 0x12 1)

/-- The state in which the descriptor has been counted, behind both signals. -/
def vxDoneCounted : State := (vxDoneSent s t j).inc (pTile t) 0x484 1

theorem vxSendRd_signalled : Signalled s (vxSendRd s t j) t (j.d.bf 0x30 0 12) (j.d.le 0x38 8) 0 := engSignal_signalled s t _ _ (by decide) _

theorem vxDoneSent_signalled : Signalled (vxRdDone s t j) (vxDoneSent s t j) t (j.d.bf 0x10 0 12) (j.d.le 0x18 8) j.marks := engSignal_signalled _ t _ _ j.marks_lt _

theorem vxRdDone_only : SignalOnly s (vxRdDone s t j) t := by
  unfold vxRdDone
  split
  · exact .refl s t
  · exact (vxSendRd_signalled s t j).only

theorem vxRdDone_kept : WordsKept (pTile t) s (vxRdDone s t j) scopeWords := by
  unfold vxRdDone
  split
  · exact (WordsKept.of_regs rfl).mono (List.nil_subset _)
  · exact engSignal_kept ..

theorem vxDoneSent_vx : ((vxDoneSent s t j).tile t).vx = (s.tile t).vx := ((vxRdDone_only s t j).trans (vxDoneSent_signalled s t j).only).vx

theorem vxDoneCounted_words : OnlyWords (vxDoneSent s t j) (vxDoneCounted s t j) [(pTile t, 0x484)] := ⟨inc_kept _ _ _ _, wr_only ..⟩

theorem vxDoneCounted_tile : (vxDoneCounted s t j).tile t = (vxDoneSent s t j).tile t := by
  obtain ⟨-, honly⟩ := vxDoneCounted_words s t j
  exact honly.toLog.tile t

/-- Both signals leave VX_DONE to the count. -/
theorem vxDoneCounted_rd : (vxDoneCounted s t j).rd (pTile t) 0x484 = (s.rd (pTile t) 0x484 + 1) % 2 ^ 32 := by
  rw [vxDoneCounted, State.inc, rd_wr_self, vxDoneSent, (engSignal_kept ..).rd _ (by decide) (by decide), (vxRdDone_kept s t j).rd _ (by decide) (by decide)]

/-- The oldest job leaves. -/
theorem vxCompleted_became {rest : List VxJob} (hjobs : (s.tile t).vx.jobs = j :: rest) :
    TileBecame (vxDoneCounted s t j) ((vxDoneCounted s t j).modVx t (fun e => { e with jobs := e.jobs.tail })) t
      { (vxDoneSent s t j).tile t with vx := { (s.tile t).vx with jobs := rest } } := by
  rw [← vxDoneCounted_tile]
  exact modVx_became (by rw [vxDoneCounted_tile, vxDoneSent_vx, hjobs, List.tail_cons])

end

/-! What the commands answer. -/

section
variable {s : State} {t : Nat} (ht : t < 160) (hon : tileOn s t = true)

/-! The head of the intake (R214, R232, R238). -/

section
variable {d : Desc} {rest : List Desc} (hin : (s.tile t).vx.intake = d :: rest)
include ht hon hin

theorem vxDescCheck_fails (hnew : d.checked = false) {c f a : Nat} (hcheck : vxCheck s t d = some (c, f, a)) :
    exec (.vxDescCheck t) s = .next (vxFailHead s t d c f a) := by
  rw [exec_vxDescCheck, execVxDescCheck, onUnit, if_pos (decide_eq_true ht), hin]
  simp only [hon, hnew, hcheck, Bool.not_true, Bool.or_self, Bool.false_eq_true, if_false]

theorem vxDescCheck_passes (hnew : d.checked = false) (hcheck : vxCheck s t d = none) : exec (.vxDescCheck t) s = .next (
    if isHalted s t d (s.tile t).vx.halted then vxFailHead s t d 0x27 0 0
    else if vxWaitEn d then s.modVx t (fun e => { e with intake := { d with checked := true, wait := some (s.ref, wdLimit s t) } :: e.intake.tail })
    else vxStart s t d) := by
  rw [exec_vxDescCheck, execVxDescCheck, onUnit, if_pos (decide_eq_true ht), hin]
  simp only [hon, hnew, hcheck, Bool.not_true, Bool.or_self, Bool.false_eq_true, if_false]

theorem vxWaitSatisfied_answers (hold : d.checked = true) : exec (.vxWaitSatisfied t) s = .next (
    if vxWaitMet s t d then vxStart (sigAcquire s t (d.bf 0x14 0 12) (ordScope (d.le 0x16 1)) (engineTag t)) t d else s) := by
  rw [exec_vxWaitSatisfied, execVxWaitSatisfied, onUnit, if_pos (decide_eq_true ht), hin]
  simp only [hon, hold, Bool.true_and]

end

/-! Vectors and signals of a job. -/

section
variable {j : VxJob}
include ht hon

theorem vxVector_spoils (hrun : vxRunning (s.tile t).vx = some j) {a : Nat} (hraw : vxRaw s t j = some a) :
    exec (.vxVector t) s = .next (vxAbortWaiting (vxAbortJobs (vxSpoiled s t j a) t) t) := by
  rw [exec_vxVector, execVxVector, onUnit, if_pos (decide_eq_true ht), hrun]
  simp only [hon, hraw, Bool.not_true, Bool.false_eq_true, if_false]
  rfl

theorem vxVector_passes (hrun : vxRunning (s.tile t).vx = some j) (hraw : vxRaw s t j = none) :
    exec (.vxVector t) s = .next ((vxPassed s t j).modVx t (fun e => e.modJob j.d.uid (fun _ => vxBehind s t j))) := by
  rw [exec_vxVector, execVxVector, onUnit, if_pos (decide_eq_true ht), hrun]
  simp only [hon, hraw, Bool.not_true, Bool.false_eq_true, if_false]
  rw [vxSnap_job]
  rfl

theorem vxInputsRead_answers (hfind : (s.tile t).vx.jobs.find? (fun j => !j.rdSent && j.fail.isNone && vxAllRead s t j) = some j) :
    exec (.vxInputsRead t) s = .next ((vxSendRd s t j).modVx t (fun e => e.modJob j.d.uid (fun j => { j with rdSent := true }))) := by
  rw [exec_vxInputsRead, execVxInputsRead, onUnit, if_pos (decide_eq_true ht), hfind]
  simp only [hon, if_true]

theorem vxCompletion_answers {rest : List VxJob} (hjobs : (s.tile t).vx.jobs = j :: rest) (hready : j.fail.isSome = true ∨ j.fin = true) :
    exec (.vxCompletion t) s = .next ((vxDoneCounted s t j).modVx t (fun e => { e with jobs := e.jobs.tail })) := by
  rw [exec_vxCompletion, execVxCompletion, onUnit, if_pos (decide_eq_true ht), hjobs]
  simp only [hon, Bool.or_eq_true, hready, Bool.true_and, if_true]
  rfl

end

end

/-- A descriptor of the failing one's block that has not begun fails with it. -/
theorem vxSpoiled_aborts {s : State} {t : Nat} {j k : VxJob} (a : Nat) (hdoomed : k ∈ vxDoomed (vxSpoiled s t j a) t) :
    ∃ y ∈ ((vxAbortWaiting (vxAbortJobs (vxSpoiled s t j a) t) t).tile t).vx.jobs, y.d = k.d ∧ y.snap = k.snap ∧ y.fail = some 0x27 := by
  obtain ⟨y, hy, hfailed⟩ := vxAborts_fail t _ _ k (List.mem_of_mem_filter hdoomed) (.inr ⟨k, hdoomed, rfl⟩)
  exact ⟨y, vxAbortWaiting_jobs _ t hy, hfailed⟩

/-- Settles O37: the head of the intake by its check and its wait, a vector by the state it passes in, the signals by what one leaves of the tile; the plan by the elements read vector by vector, an item by its bits. -/
theorem vectorEngine : Obligations.VectorEngine := by
  refine ⟨?engine, fun s t => ⟨fun d n hred hmx hrow hn => mem_vxPlan d s t hred hmx hrow hn, fun x hval => ?item⟩⟩
  case engine =>
    intro s t ht hon T
    refine ⟨fun d rest hin hnew => ⟨fun c f a hcheck => ?_, fun hcheck hhalt => ?_, fun hcheck hhalt => ⟨fun hwait => ?_, fun hwait => ?_⟩⟩,
      fun d rest hin hold => ⟨fun hmet => ?_, fun hunmet => ?_⟩,
      fun j hrun => ⟨fun a hraw hempty hbegun => ?_, fun a k b hraw hk hne hsnap hfail hen hjb hkb hjl hkl huniq => ?_, fun hraw => ?_⟩,
      fun j hfind => ?_, fun j rest hjobs hready => ?_⟩
    · exact ⟨_, vxDescCheck_fails ht hon hin hnew hcheck, vxFailHead_failed ..⟩
    · have hexec := vxDescCheck_passes ht hon hin hnew hcheck
      rw [if_pos hhalt] at hexec
      exact ⟨_, hexec, vxFailHead_failed ..⟩
    · have hexec := vxDescCheck_passes ht hon hin hnew hcheck
      rw [if_neg (Bool.eq_false_iff.mp hhalt), if_pos hwait] at hexec
      exact ⟨_, hexec, modVx_became (by rw [hin, List.tail_cons])⟩
    · have hexec := vxDescCheck_passes ht hon hin hnew hcheck
      rw [if_neg (Bool.eq_false_iff.mp hhalt), if_neg (Bool.eq_false_iff.mp hwait)] at hexec
      exact ⟨_, hexec, vxStart_became hin⟩
    · have hexec := vxWaitSatisfied_answers ht hon hin hold
      have honly := sigAcquire_only s t (d.bf 0x14 0 12) (ordScope (d.le 0x16 1)) (engineTag t)
      have htile := honly.toLog.tile t
      rw [if_pos (show vxWaitMet s t d = true from decide_eq_true hmet)] at hexec
      have hbecame := vxStart_became ((congrArg (fun T : Tile => T.vx.intake) htile).trans hin)
      rw [htile] at hbecame
      exact ⟨_, hexec, _, honly, hbecame⟩
    · have hexec := vxWaitSatisfied_answers ht hon hin hold
      rwa [if_neg (show ¬ vxWaitMet s t d = true from fun hmet => absurd (of_decide_eq_true hmet) (Nat.not_le.mpr hunmet))] at hexec
    · have hexec := vxVector_spoils ht hon hrun hraw
      have htile := vxSpoiled_tile s t j a
      rw [vxAbortJobs_none (vxSpoiled_begun s t j a hbegun), vxAbortWaiting_empty (by rw [htile]; exact hempty)] at hexec
      exact ⟨_, hexec, (vxSpoiled_faulted s t j a).subset (by simp [vxWords]), _, htile⟩
    · have huid : k.d.uid ≠ j.d.uid := fun heq => hne (huniq j (List.mem_of_find?_eq_some hrun) heq.symm).symm
      obtain ⟨y, hy, hd, hbegun, hfailed⟩ := vxSpoiled_aborts a (mem_vxDoomed a hk huid hsnap hfail hen hjb hkb hjl hkl)
      exact ⟨_, vxVector_spoils ht hon hrun hraw, y, hy, hd, hbegun.trans hsnap, hfailed⟩
    · intro items emptyAt hi last now empty
      refine ⟨_, vxVector_passes ht hon hrun hraw, ⟨vxBehind s t j, rfl, rfl, rfl, rfl, rfl, rfl, rfl, rfl, ?_⟩, fun hlast => vxPassed_tmem s t j hlast, vxPassed_rd_stored s t j,
        vxPassed_rd_empty s t j, fun hempty hfirst => vxPassed_flag s t j hempty hfirst, fun i hne => ?_, modVx_after_stores s t (vxSnap_state s t j) (vxPassed_only s t j) _⟩
      · rw [modVx_tile, vxPassed_tile]
      · exact (modVx_tile_ne _ t _ hne).trans (vxPassed_tile s t j i)
    · have hsent := vxSendRd_signalled s t j
      exact ⟨_, vxInputsRead_answers ht hon hfind, _, hsent, modVx_became (by rw [hsent.only.vx])⟩
    · refine ⟨_, vxCompletion_answers ht hon hjobs hready, vxRdDone s t j, vxDoneSent s t j, fun hsent => if_pos hsent, fun hunsent => ?_, vxDoneSent_signalled s t j,
        vxDoneCounted_rd s t j, vxDoneCounted s t j, vxDoneCounted_words s t j, vxCompleted_became s t j hjobs⟩
      rw [vxRdDone, if_neg (Bool.eq_false_iff.mp hunsent)]
      exact vxSendRd_signalled s t j
  case item => exact storeItem_merges t s x hval

end Sys2Proof.Machine
end

section
/-! The register window of a tile (O39). -/

namespace Sys2Proof.Machine

open Sys2Proof

theorem exec_winRead (t : Nat) (inc : Bool) (s : State) : exec (.winRead t inc) s = execWinRead t inc s := rfl
theorem exec_winWrite (t : Nat) (inc : Bool) (s : State) : exec (.winWrite t inc) s = execWinWrite t inc s := rfl
theorem exec_winOpEnd (t : Nat) (s : State) : exec (.winOpEnd t) s = execWinOpEnd t s := rfl

/-- The state in which WIN_CTRL holds the mode of a go. -/
def winMode (s : State) (t : Nat) (wr inc : Bool) : State := s.wrF (pTile t) 0x584 1 2 (b2n wr + 2 * b2n inc)

/-- An operation has begun with its result, and the window is busy. -/
def winTaken (s : State) (t : Nat) (r : Nat × Option Nat × Bool) : State := (s.modTile t (fun T => { T with win := some r })).wrF (pTile t) 0x588 0 1 1

/-- The code with which an operation is refused (08_tile_data_movement.md R267). -/
def winRefusal (s : State) (t : Nat) : Option Nat :=
  if winPermitted s t = false then some 1
  else if tilePowered s t = false then some 2
  else if winAddrOk (s.rd (pTile t) 0x580) = false then some 3
  else none

/-- What every go leaves: the window is busy in the mode asked for, and the other tiles are as before. -/
def WinAsked (s u : State) (t : Nat) (inc : Bool) : Prop :=
  u.rdB (pTile t) 0x588 0 = true ∧ u.rdB (pTile t) 0x584 2 = inc ∧ ∀ k, k ≠ t → u.tile k = s.tile k

/-! The mode. -/

section
variable (s : State) (t : Nat) (wr inc : Bool)

theorem winMode_only : OnlyRegs s (winMode s t wr inc) := wr_only ..

theorem winMode_kept : WordsKept (pTile t) s (winMode s t wr inc) [0x584] := wr_wordsKept s (by decide) _

theorem winMode_inc : (winMode s t wr inc).rdB (pTile t) 0x584 2 = inc := by
  have hmode : (b2n wr + 2 * b2n inc).testBit 1 = inc := by cases wr <;> cases inc <;> rfl
  rw [winMode, State.rdB, State.wrF, rd_wr_self, bit, Nat.testBit_mod_two_pow, testBit_putBits, if_pos (by decide), hmode]
  rfl

end

/-! A go (R266, R268). -/

section
variable (s : State) (t : Nat) (r : Nat × Option Nat × Bool)

theorem winTaken_tile : (winTaken s t r).tile t = { s.tile t with win := some r } := by
  rw [winTaken, tile_congr (State.wrF_tiles ..), tile_modTile_self]

theorem winTaken_tile_ne {k : Nat} (hk : k ≠ t) : (winTaken s t r).tile k = s.tile k := by
  rw [winTaken, tile_congr (State.wrF_tiles ..), tile_modTile_ne _ _ hk]

theorem winTaken_tmem : (winTaken s t r).tmem = s.tmem := rfl

theorem winTaken_regsKept : RegsKept s (winTaken s t r) [(pTile t, 0x588)] :=
  RegsKept.trans (regsKept_of_regs_eq (State.modTile_regs ..) []) (wrF_kept (s.modTile t _) (pTile t) 0x588 0 1 1)

theorem winTaken_kept : WordsKept (pTile t) s (winTaken s t r) [0x588] := (modTile_kept s t _).trans (wr_wordsKept _ (by decide) _)

theorem winTaken_busy : (winTaken s t r).rdB (pTile t) 0x588 0 = true := rdB_wrF_bit _ (pTile t) 0x588 0 0 true (by decide)

end

/-- An operation that begins behind the mode of its go. -/
theorem winTaken_asked {s v : State} {t : Nat} {wr inc : Bool} (hkept : WordsKept (pTile t) (winMode s t wr inc) v []) (htiles : ∀ k, k ≠ t → v.tile k = s.tile k)
    (r : Nat × Option Nat × Bool) : WinAsked s (winTaken v t r) t inc := by
  refine ⟨winTaken_busy .., ?_, fun k hk => (winTaken_tile_ne _ _ _ hk).trans (htiles k hk)⟩
  rw [(winTaken_kept v t r).rdB (by decide) (by decide), hkept.rdB (by decide) List.not_mem_nil, winMode_inc]

/-- An operation that leaves no trace but its result. -/
theorem winTaken_noted (s : State) (t : Nat) (wr inc : Bool) (err : Nat) (data : Option Nat) :
    let u := winTaken (winMode s t wr inc) t (err, data, inc)
    WinAsked s u t inc ∧ u.tile t = { s.tile t with win := some (err, data, inc) } ∧ u.tmem = s.tmem := by
  have htile := (winMode_only s t wr inc).toLog.tile
  refine ⟨winTaken_asked (.of_regs rfl) (fun k _ => htile k) _, ?_, rfl⟩
  rw [winTaken_tile, htile]

/-- The words of a go. -/
theorem winTaken_goWords (s : State) (t : Nat) (wr inc : Bool) {v : State} (hregs : v.regs = (winMode s t wr inc).regs) (r : Nat × Option Nat × Bool) :
    RegsKept s (winTaken v t r) [(pTile t, 0x584), (pTile t, 0x588)] :=
  RegsKept.trans (wrF_kept s (pTile t) 0x584 1 2 _) (RegsKept.trans (regsKept_of_regs_eq hregs []) (winTaken_regsKept v t r))

section
variable {s : State} {t : Nat} {wr inc : Bool} (ht : t < 160) (hreach : reached s (pTile t) = true)
include ht hreach

theorem winGo_discarded (hwin : (s.tile t).win ≠ none) (run : State → State × Nat × Option Nat) :
    winGo t wr inc s run = .next (raise ((winMode s t wr inc).wrF (pTile t) 0x588 1 3 5) (pTile t) 20) := by
  obtain ⟨r, hr⟩ := Option.ne_none_iff_exists'.mp hwin
  rw [winGo, onUnit, if_pos (decide_eq_true ht)]
  simp only [hreach, hr, Bool.not_true, Bool.false_eq_true, if_false]
  rfl

variable (hfree : (s.tile t).win = none)
include hfree

theorem winGo_refused {c : Nat} (hc : winRefusal s t = some c) (run : State → State × Nat × Option Nat) :
    winGo t wr inc s run = .next (winTaken (winMode s t wr inc) t (c, none, inc)) := by
  unfold winRefusal at hc
  rw [winGo, onUnit, if_pos (decide_eq_true ht)]
  simp only [hreach, hfree, Bool.not_true, Bool.false_eq_true, if_false, Bool.not_eq_true']
  split at hc
  · next hperm => cases hc; rw [if_pos hperm]; rfl
  · next hperm =>
    rw [if_neg hperm]
    split at hc
    · next hpow => cases hc; rw [if_pos hpow]; rfl
    · next hpow =>
      rw [if_neg hpow]
      split at hc
      · next haddr => cases hc; rw [if_pos haddr]; rfl
      · cases hc

theorem winGo_runs (hc : winRefusal s t = none) (run : State → State × Nat × Option Nat) :
    winGo t wr inc s run = .next (winTaken (run (winMode s t wr inc)).1 t ((run (winMode s t wr inc)).2.1, (run (winMode s t wr inc)).2.2, inc)) := by
  unfold winRefusal at hc
  rw [winGo, onUnit, if_pos (decide_eq_true ht)]
  simp only [hreach, hfree, Bool.not_true, Bool.false_eq_true, if_false, Bool.not_eq_true']
  split at hc
  · cases hc
  · next hperm =>
    rw [if_neg hperm]
    split at hc
    · cases hc
    · next hpow =>
      rw [if_neg hpow]
      split at hc
      · cases hc
      · next haddr => rw [if_neg haddr]; rfl

end

/-- A go beside an operation in progress is counted and flagged, and leaves that operation alone (R268). -/
theorem winGo_discarded_spec (s : State) (t : Nat) (wr inc : Bool) :
    let u := raise ((winMode s t wr inc).wrF (pTile t) 0x588 1 3 5) (pTile t) 20
    u.rdF (pTile t) 0x588 1 3 = 5 ∧ u.rdB (pTile t) 0x18 20 = true ∧ u.tile t = s.tile t ∧ u.tmem = s.tmem := by
  have hraise := raise_only ((winMode s t wr inc).wrF (pTile t) 0x588 1 3 5) (pTile t) 20 0 0xFFFF 0 []
  have honly : OnlyRegsLog s ((winMode s t wr inc).wrF (pTile t) 0x588 1 3 5) := ((winMode_only s t wr inc).trans (wr_only ..)).toLog
  obtain ⟨-, hmem⟩ := (honly.trans hraise).mem
  refine ⟨?_, raise_rdB_self _ _ 20 _ _ _ _ (by decide), (honly.trans hraise).tile t, hmem⟩
  rw [State.rdF, (raise_wordsKept ..).rd 0x588 (by decide) (by decide), ← State.rdF, rdF_wrF_self _ _ _ _ _ _ (by decide)]
  rfl

/-! What a go reads or writes (R266, R269). -/

section
variable {s : State} {t : Nat} {inc : Bool} (ht : t < 160) (hreach : reached s (pTile t) = true) (hfree : (s.tile t).win = none)
include ht hreach hfree

theorem winRead_refused {c : Nat} (hc : winRefusal s t = some c) : Completes (.winRead t inc) s (fun u =>
    WinAsked s u t inc ∧ u.tile t = { s.tile t with win := some (c, none, inc) } ∧ u.tmem = s.tmem) :=
  ⟨_, (exec_winRead ..).trans (winGo_refused ht hreach hfree hc _), winTaken_noted s t false inc c none⟩

theorem winWrite_refused {c : Nat} (hc : winRefusal s t = some c) : Completes (.winWrite t inc) s (fun u =>
    WinAsked s u t inc ∧ u.tile t = { s.tile t with win := some (c, none, inc) } ∧ u.tmem = s.tmem) :=
  ⟨_, (exec_winWrite ..).trans (winGo_refused ht hreach hfree hc _), winTaken_noted s t true inc c none⟩

variable (hc : winRefusal s t = none)
include hc

theorem winRead_spoiled (hraw : trawIn s t (s.rd (pTile t) 0x580) 8 ≠ none) :
    exec (.winRead t inc) s = .next (winTaken (winMode s t false inc) t (4, some 0, inc)) := by
  obtain ⟨a, ha⟩ := Option.ne_none_iff_exists'.mp hraw
  have haddr := (winMode_kept s t false inc).rd 0x580 (by decide) (by decide)
  have hspoiled : trawIn (winMode s t false inc) t (s.rd (pTile t) 0x580) 8 = some a := ha
  rw [exec_winRead, execWinRead, winGo_runs ht hreach hfree hc]
  simp only [haddr, hspoiled]

theorem winRead_reads (hraw : trawIn s t (s.rd (pTile t) 0x580) 8 = none) : exec (.winRead t inc) s
    = .next (winTaken (winMode s t false inc) t (0, some (s.tnat t (s.rd (pTile t) 0x580) 8), inc)) := by
  have haddr := (winMode_kept s t false inc).rd 0x580 (by decide) (by decide)
  have hsound : trawIn (winMode s t false inc) t (s.rd (pTile t) 0x580) 8 = none := hraw
  rw [exec_winRead, execWinRead, winGo_runs ht hreach hfree hc]
  simp only [haddr, hsound]
  rfl

theorem winWrite_writes : exec (.winWrite t inc) s = .next (winTaken
    (if 0x1A00000 ≤ s.rd (pTile t) 0x580 then sigPlain (winMode s t true inc) t ((s.rd (pTile t) 0x580 - 0x1A00000) / 8) 0 (s.rd64 (pTile t) 0x590)
      else (winMode s t true inc).twr t (s.rd (pTile t) 0x580) (toLE 8 (s.rd64 (pTile t) 0x590))) t (0, none, inc)) := by
  have hkept := winMode_kept s t true inc
  have hdata : (winMode s t true inc).rd64 (pTile t) 0x590 = s.rd64 (pTile t) 0x590 := by
    rw [State.rd64, State.rd64, hkept.rd 0x590 (by decide) (by decide), hkept.rd (0x590 + 4) (by decide) (by decide)]
  rw [exec_winWrite, execWinWrite, winGo_runs ht hreach hfree hc]
  simp only [hkept.rd 0x580 (by decide) (by decide), hdata]

end

theorem rd64_lt (s : State) (p : Page) (a : Nat) : s.rd64 p a < 2 ^ 64 := by
  have hlow := rd_lt s p a
  have hhigh := rd_lt s p (a + 4)
  rw [State.rd64]
  omega

/-- Eight bytes written through the window, outside the signal words. -/
theorem winWrite_stored (s : State) (t off : Nat) (inc : Bool) {v : Nat} (hv : v < 2 ^ 64) :
    let u := winTaken ((winMode s t true inc).twr t off (toLE 8 v)) t (0, none, inc)
    WinAsked s u t inc ∧ u.tile t = { s.tile t with win := some (0, none, inc) }
      ∧ u.tnat t off 8 = v ∧ (∀ a, a < off ∨ off + 8 ≤ a → u.tb t a = s.tb t a)
      ∧ RegsKept s u [(pTile t, 0x584), (pTile t, 0x588)] ∧ u = { s with regs := u.regs, tiles := u.tiles, tmem := u.tmem, traw := u.traw } := by
  have htile (k : Nat) : ((winMode s t true inc).twr t off (toLE 8 v)).tile k = s.tile k :=
    (tile_congr (State.twr_tiles ..) k).trans ((winMode_only s t true inc).toLog.tile k)
  have hmem := winTaken_tmem ((winMode s t true inc).twr t off (toLE 8 v)) t (0, none, inc)
  refine ⟨winTaken_asked (.of_regs (State.twr_regs ..)) (fun k _ => htile k) _, ?_, ?_, fun a ha => ?_, winTaken_goWords s t true inc (State.twr_regs ..) _, rfl⟩
  · rw [winTaken_tile, htile]
  · rw [tnat_congr fun a _ _ => tb_congr hmem t a, tnat_twr_self, Nat.mod_eq_of_lt hv]
  · rw [tb_congr hmem, tb_twr_out _ _ _ _ (by rwa [length_toLE])]
    rfl

/-- A signal word written through the window. -/
theorem winWrite_signalled (s : State) (t : Nat) {w off : Nat} (hoff : sigOff w = off) (inc : Bool) {v : Nat} (hv : v < 2 ^ 64) :
    let u := winTaken (sigPlain (winMode s t true inc) t w 0 v) t (0, none, inc)
    u.tnat t off 8 = v ∧ u.rdB (pTile t) 0x588 0 = true ∧ (u.tile t).win = some (0, none, inc)
      ∧ (∀ a, a < off ∨ off + 8 ≤ a → u.tb t a = s.tb t a) := by
  subst hoff
  obtain ⟨hvalue, hframe, -⟩ := sigPlain_put (winMode s t true inc) t w 0 v
  have hmem := winTaken_tmem (sigPlain (winMode s t true inc) t w 0 v) t (0, none, inc)
  refine ⟨?_, winTaken_busy .., ?_, fun a ha => ?_⟩
  · exact ((sig_congr hmem t w).trans hvalue).trans (Nat.mod_eq_of_lt hv)
  · rw [winTaken_tile]
  · rw [tb_congr hmem, hframe a ha]
    rfl

/-! The end of an operation (R268, R269). -/

/-- What follows changes of a tile, registers and the error log. -/
theorem OnlyRegsLog.after_modTile {s u : State} {t : Nat} {f : Tile → Tile} (h : OnlyRegsLog (s.modTile t f) u) :
    u = { s with regs := u.regs, log := u.log, tiles := u.tiles } := by
  unfold OnlyRegsLog at h
  rw [h]
  rfl

section
variable (s : State) (t err : Nat) (data : Option Nat) (step : Bool)

/-- The operation is over, with its code. -/
def winOver : State := (s.modTile t (fun T => { T with win := none })).wrF (pTile t) 0x588 0 4 (2 * err)

/-- The data that it read stand in WIN_DATA. -/
def winLoaded : State :=
  match data with
  | some v => (winOver s t err).wr64 (pTile t) 0x590 v
  | none => winOver s t err

/-- Its failure is flagged, or the address moves on. -/
def winClosed : State :=
  let u := winLoaded s t err data
  if err ≠ 0 then raise u (pTile t) 20 else if step then u.wr (pTile t) 0x580 (u.rd (pTile t) 0x580 + 8) else u

theorem winOver_kept : WordsKept (pTile t) s (winOver s t err) [0x588] := (modTile_kept s t _).trans (wr_wordsKept _ (by decide) _)

theorem winLoaded_kept : WordsKept (pTile t) (winOver s t err) (winLoaded s t err data) [0x590, 0x594] := by
  unfold winLoaded
  split
  · exact (wr_wordsKept _ (by decide) _).trans (wr_wordsKept _ (by decide) _)
  · exact (WordsKept.of_regs rfl).mono (List.nil_subset _)

theorem winClosed_kept : WordsKept (pTile t) (winLoaded s t err data) (winClosed s t err data step) [0x18, 0x7D0, 0x1C, 0x580] := by
  unfold winClosed
  dsimp only
  split
  · exact (raise_wordsKept ..).mono (by decide)
  · split
    · exact (wr_wordsKept _ (by decide) _).mono (by decide)
    · exact (WordsKept.of_regs rfl).mono (List.nil_subset _)

theorem winClosed_only : OnlyRegsLog (s.modTile t (fun T => { T with win := none })) (winClosed s t err data step) := by
  have hload : OnlyRegs (winOver s t err) (winLoaded s t err data) := by
    unfold winLoaded
    split
    · exact (wr_only ..).trans (wr_only ..)
    · rfl
  refine OnlyRegsLog.trans (OnlyRegs.toLog ((wr_only _ (pTile t) 0x588 _).trans hload)) ?_
  unfold winClosed
  dsimp only
  split
  · exact raise_only ..
  · split
    · exact (wr_only ..).toLog
    · rfl

/-- The status word holds the code, with busy clear below it. -/
theorem winClosed_status (herr : err < 6) : (winClosed s t err data step).rdF (pTile t) 0x588 0 4 = 2 * err := by
  have hkept := (winLoaded_kept s t err data).trans (winClosed_kept s t err data step)
  rw [State.rdF, hkept.rd 0x588 (by decide) (by decide), ← State.rdF, winOver, rdF_wrF_self _ _ _ _ _ _ (by decide)]
  omega

theorem winClosed_busy (herr : err < 6) : (winClosed s t err data step).rdB (pTile t) 0x588 0 = false := by
  have hstatus := winClosed_status s t err data step herr
  rw [State.rdF, bits] at hstatus
  rw [State.rdB, bit, Nat.testBit_zero, decide_eq_false_iff_not]
  omega

theorem winClosed_code (herr : err < 6) : (winClosed s t err data step).rdF (pTile t) 0x588 1 3 = err := by
  have hstatus := winClosed_status s t err data step herr
  rw [State.rdF, bits] at hstatus ⊢
  omega

theorem winClosed_data {v : Nat} (hdata : data = some v) (hv : v < 2 ^ 64) : (winClosed s t err data step).rd64 (pTile t) 0x590 = v := by
  have hkept := winClosed_kept s t err data step
  rw [State.rd64, hkept.rd 0x590 (by decide) (by decide), hkept.rd (0x590 + 4) (by decide) (by decide), ← State.rd64, hdata]
  exact rd64_wr64_self _ (pTile t) (by decide) hv

theorem winClosed_addr (herr : err = 0) : (winClosed s t err data step).rd (pTile t) 0x580
    = if step then (s.rd (pTile t) 0x580 + 8) % 2 ^ 32 else s.rd (pTile t) 0x580 := by
  have haddr : (winLoaded s t err data).rd (pTile t) 0x580 = s.rd (pTile t) 0x580 :=
    ((winOver_kept s t err).trans (winLoaded_kept s t err data)).rd 0x580 (by decide) (by decide)
  rw [winClosed, if_neg (not_not_intro herr)]
  split
  · rw [rd_wr_self, haddr]
  · exact haddr

theorem winClosed_flag (herr : err ≠ 0) : (winClosed s t err data step).rdB (pTile t) 0x18 20 = true := by
  rw [winClosed, if_pos herr]
  exact raise_rdB_self _ (pTile t) 20 _ _ _ _ (by decide)

end

theorem winOpEnd_answers {s : State} {t err : Nat} {data : Option Nat} {step : Bool} (ht : t < 160) (hwin : (s.tile t).win = some (err, data, step)) :
    exec (.winOpEnd t) s = .next (winClosed s t err data step) := by
  rw [exec_winOpEnd, execWinOpEnd, onUnit, if_pos (decide_eq_true ht), hwin]
  cases data <;> rfl

theorem winOpEnd_idle {s : State} {t : Nat} (ht : t < 160) (hwin : (s.tile t).win = none) : exec (.winOpEnd t) s = .next s := by
  rw [exec_winOpEnd, execWinOpEnd, onUnit, if_pos (decide_eq_true ht), hwin]

/-- Settles O39: a go by what refuses it or by what it reads and writes, its end by the words that it leaves. -/
theorem registerWindow : Obligations.RegisterWindow := by
  intro s t inc ht hreach p T off asked
  refine ⟨fun hfree => ⟨fun hperm => ?denied, fun hperm hpow haddr => ?unfit, fun hperm hpow => ?dark, fun hperm hpow haddr => ?made⟩, fun hbusy => ?busy,
    fun err data step hwin herr => ?ended, fun hfree => winOpEnd_idle ht hfree⟩
  case denied =>
    have hc : winRefusal s t = some 1 := if_pos hperm
    exact ⟨winRead_refused ht hreach hfree hc, winWrite_refused ht hreach hfree hc⟩
  case unfit =>
    have hc : winRefusal s t = some 3 := by simp only [winRefusal, hperm, hpow, Bool.true_eq_false, if_false]; exact if_pos haddr
    exact ⟨winRead_refused ht hreach hfree hc, winWrite_refused ht hreach hfree hc⟩
  case dark =>
    have hc : winRefusal s t = some 2 := by rw [winRefusal, hperm, if_neg (by decide), if_pos hpow]
    exact ⟨winRead_refused ht hreach hfree hc, winWrite_refused ht hreach hfree hc⟩
  case made =>
    have hc : winRefusal s t = none := by simp only [winRefusal, hperm, hpow, Bool.true_eq_false, if_false]; exact if_neg (by rw [haddr]; decide)
    have hwrite := winWrite_writes (inc := inc) ht hreach hfree hc
    refine ⟨fun hraw => ?_, fun hraw => ?_, fun hlow => ?_, fun hhigh => ?_⟩
    · exact ⟨_, winRead_spoiled ht hreach hfree hc hraw, winTaken_noted s t false inc 4 (some 0)⟩
    · obtain ⟨hasked, htile, -⟩ := winTaken_noted s t false inc 0 (some (s.tnat t off 8))
      exact ⟨_, winRead_reads ht hreach hfree hc hraw, hasked, htile, winTaken_goWords s t false inc rfl _, rfl⟩
    · rw [if_neg (Nat.not_le.mpr hlow)] at hwrite
      exact ⟨_, hwrite, winWrite_stored s t off inc (rd64_lt ..)⟩
    · rw [if_pos hhigh] at hwrite
      obtain ⟨hal, -⟩ := of_decide_eq_true haddr
      have hoff : sigOff ((off - 0x1A00000) / 8) = off := by unfold sigOff; omega
      exact ⟨_, hwrite, winWrite_signalled s t hoff inc (rd64_lt ..)⟩
  case busy =>
    exact ⟨⟨_, (exec_winRead ..).trans (winGo_discarded ht hreach hbusy _), winGo_discarded_spec s t false inc⟩,
      ⟨_, (exec_winWrite ..).trans (winGo_discarded ht hreach hbusy _), winGo_discarded_spec s t true inc⟩⟩
  case ended =>
    have honly := winClosed_only s t err data step
    refine ⟨_, winOpEnd_answers ht hwin, winClosed_busy s t err data step herr, winClosed_code s t err data step herr, ?_,
      fun v hdata hv => winClosed_data s t err data step hdata hv, winClosed_flag s t err data step, winClosed_addr s t err data step, honly.after_modTile⟩
    rw [honly.tile, tile_modTile_self]

end Sys2Proof.Machine
end

section
/-! SUPPORT. The fault of a tile DMA descriptor (08_tile_data_movement.md R262, R265): what it latches, and what it leaves of its tile. -/

namespace Sys2Proof.Machine

open Sys2Proof

/-! A change of a DMA engine. -/

section
variable (s : State) (t : Nat) (f : DmaEng → DmaEng)

theorem modDma_tile : (s.modDma t f).tile t = { s.tile t with dma := f (s.tile t).dma } := tile_modTile_self ..

theorem modDma_tile_ne {k : Nat} (hk : k ≠ t) : (s.modDma t f).tile k = s.tile k := tile_modTile_ne s _ hk

theorem modDma_became {s : State} {t : Nat} {f : DmaEng → DmaEng} {e : DmaEng} (h : f (s.tile t).dma = e) :
    TileBecame s (s.modDma t f) t { s.tile t with dma := e } := by
  rw [TileBecame, State.modDma, State.modTile, h]

/-- The same behind a change that leaves the tile. -/
theorem modDma_became_after {s v : State} {t : Nat} {f : DmaEng → DmaEng} {e : DmaEng} (htile : v.tile t = s.tile t) (h : f (s.tile t).dma = e) :
    TileBecame v (v.modDma t f) t { s.tile t with dma := e } := by
  rw [← htile] at h ⊢
  exact modDma_became h

end

/-! The fault. -/

section
variable (s : State) (t : Nat) (d : Desc) (code field addr kind prog : Nat)

/-- The registers that a fault latches. -/
def dmaLatched : List (Nat × Nat) :=
  [(0x550, code + 256 * kind + 2 ^ 31), (0x554, d.off), (0x558, dmaTag d), (0x55C, d.iss.index), (0x560, addr), (0x564, addr / 2 ^ 32),
   (0x568, prog), (0x56C, field), (0x570, d.iss.queue)]

theorem dmaLatched_offsets : (dmaLatched d code field addr kind prog).map (fun w => w.1) = [0x550, 0x554, 0x558, 0x55C, 0x560, 0x564, 0x568, 0x56C, 0x570] := rfl

theorem dmaLatched_aligned : ∀ a ∈ 0x550 :: 0x574 :: (dmaLatched d code field addr kind prog).map (fun w => w.1), a % 4 = 0 := by
  rw [dmaLatched_offsets]; decide

/-- The statement's words are among them. -/
theorem dmaWords_subset : dmaWords d code field addr kind ⊆ dmaLatched d code field addr kind prog := by
  simp [dmaWords, dmaLatched]

/-- The state in which a fault is latched and flagged. -/
def dmaFlagged : State :=
  raise (latchEng s t 0x550 0x574 (dmaLatched d code field addr kind prog)) (pTile t) 17 code d.iss.queue addr
    [code + 256 * kind + 2 ^ 31, d.off, dmaTag d, d.iss.index]

/-- The state in which it is kept for its command too. -/
def dmaNoted : State := cmdFault (dmaFlagged s t d code field addr kind prog) d.iss.cmd ⟨code, 4, t, d.iss.index⟩

theorem dmaFlagged_only : OnlyRegsLog s (dmaFlagged s t d code field addr kind prog) := (latchEng_only ..).toLog.trans (raise_only ..)

theorem dmaNoted_only : OnlyTileWork s (dmaNoted s t d code field addr kind prog) :=
  (dmaFlagged_only s t d code field addr kind prog).toTileWork.trans (cmdFault_only ..)

theorem dmaNoted_kept : WordsKept (pTile t) (latchEng s t 0x550 0x574 (dmaLatched d code field addr kind prog))
    (dmaNoted s t d code field addr kind prog) [0x18, 0x7C4, 0x1C] :=
  ((raise_wordsKept ..).trans (cmdFault_kept _ _ d.iss.cmd ⟨code, 4, t, d.iss.index⟩)).mono (by decide)

theorem dmaNoted_tile (k : Nat) : (dmaNoted s t d code field addr kind prog).tile k = s.tile k := by
  rw [dmaNoted, cmdFault_tile, (dmaFlagged_only ..).tile]

theorem dmaNoted_cmds : CmdFaulted s (dmaNoted s t d code field addr kind prog) d.iss.cmd ⟨code, 4, t, d.iss.index⟩ := by
  rw [CmdFaulted, ← (dmaFlagged_only s t d code field addr kind prog).cmds]
  rfl

theorem dmaNoted_flag : (dmaNoted s t d code field addr kind prog).rdB (pTile t) 0x18 17 = true := by
  rw [dmaNoted, (cmdFault_kept ..).rdB (by decide) List.not_mem_nil]
  exact raise_rdB_self _ (pTile t) 17 _ _ _ _ (by decide)

/-- A free latch takes the fault. -/
theorem dmaNoted_takes (hfree : s.rdB (pTile t) 0x550 31 = false) :
    ∀ w ∈ dmaLatched d code field addr kind prog, (dmaNoted s t d code field addr kind prog).rd (pTile t) w.1 = w.2 % 2 ^ 32 := by
  have haligned : ∀ a ∈ (dmaLatched d code field addr kind prog).map (fun w => w.1), a % 4 = 0 := by rw [dmaLatched_offsets]; decide
  have hoff : ∀ a ∈ (dmaLatched d code field addr kind prog).map (fun w => w.1), a ∉ [0x18, 0x7C4, 0x1C] := by rw [dmaLatched_offsets]; decide
  rw [List.forall_mem_map] at haligned hoff
  intro w hw
  rw [(dmaNoted_kept ..).rd w.1 (haligned w hw) (hoff w hw), latchEng_free _ _ _ _ _ hfree]
  exact rd_wrAll _ _ s haligned (by rw [dmaLatched_offsets]; decide) w hw

/-- A latch in use keeps what it holds and counts the fault as lost. -/
theorem dmaNoted_counts (hused : s.rdB (pTile t) 0x550 31 = true) :
    (dmaNoted s t d code field addr kind prog).rd (pTile t) 0x550 = s.rd (pTile t) 0x550
      ∧ (dmaNoted s t d code field addr kind prog).rd (pTile t) 0x574 = (s.rd (pTile t) 0x574 + 1) % 2 ^ 32 := by
  have hkept := dmaNoted_kept s t d code field addr kind prog
  rw [hkept.rd 0x550 (by decide) (by decide), hkept.rd 0x574 (by decide) (by decide), latchEng_used _ _ _ _ _ hused]
  exact ⟨(inc_wordsKept s (by decide) 1).rd 0x550 (by decide) (by decide), rd_wr_self ..⟩

theorem dmaNoted_faulted :
    EngineFaulted s (dmaNoted s t d code field addr kind prog) t 0x550 0x574 17 4 code d (dmaLatched d code field addr kind prog) :=
  ⟨dmaNoted_flag .., dmaNoted_cmds .., dmaNoted_takes s t d code field addr kind prog, dmaNoted_counts s t d code field addr kind prog, dmaNoted_only ..,
    fun _ _ => dmaNoted_tile ..⟩

/-- The fault halts its descriptor's block: halt_on_fault is set and the block is resident and not halted yet. -/
def dmaHalts (b : Nat) : Bool := s.rdB (pTile t) 0x114 2 && issuerLives s t d && !(s.tile t).dma.halted.contains b

/-- A fault is noted; it may halt a block, which is flagged. -/
theorem dmaFault_cases : dmaFault s t d code field addr kind prog = dmaNoted s t d code field addr kind prog
    ∨ ∃ b, dmaFault s t d code field addr kind prog
        = raise ((dmaNoted s t d code field addr kind prog).modDma t (fun e => { e with halted := e.halted ++ [b] })) (pTile t) 18 0 d.iss.queue := by
  unfold dmaFault
  cases d.iss.blk with
  | none => exact .inl rfl
  | some b =>
    dsimp only
    cases hhalts : dmaHalts s t d b with
    | true => exact .inr ⟨b, if_pos hhalts⟩
    | false => exact .inl (if_neg (Bool.eq_false_iff.mp hhalts))

theorem dmaFault_faulted :
    EngineFaulted s (dmaFault s t d code field addr kind prog) t 0x550 0x574 17 4 code d (dmaLatched d code field addr kind prog) := by
  have hnoted := dmaNoted_faulted s t d code field addr kind prog
  rcases dmaFault_cases s t d code field addr kind prog with hfault | ⟨b, hfault⟩
  · rw [hfault]
    exact hnoted
  · rw [hfault]
    refine (hnoted.then_modTile _ (dmaLatched_aligned _ _ _ _ _ _)).then_raise (by decide) 0 _ (dmaLatched_aligned _ _ _ _ _ _) ?_
    rw [dmaLatched_offsets]; decide

theorem dmaFault_tile : ∃ h, (dmaFault s t d code field addr kind prog).tile t = { s.tile t with dma := { (s.tile t).dma with halted := h } } := by
  rcases dmaFault_cases s t d code field addr kind prog with hfault | ⟨b, hfault⟩
  · exact ⟨(s.tile t).dma.halted, by rw [hfault, dmaNoted_tile]⟩
  · exact ⟨(s.tile t).dma.halted ++ [b], by rw [hfault, (raise_only ..).tile, modDma_tile, dmaNoted_tile]⟩

/-- The head descriptor fails: it leaves the intake for the jobs, its fault marked. -/
theorem dmaFailHead_failed : DmaFailed s (dmaFailHead s t d code field addr kind) t d code field addr kind := by
  obtain ⟨h, htile⟩ := dmaFault_tile s t d code field addr kind 0
  refine ⟨⟨h, ⟨d, none, 0, [], s.ref, 0, false, code = 0x28 || !dmaRdEn d, 2, some code, none⟩, ?_, rfl, rfl, rfl⟩,
    ((dmaFault_faulted ..).then_modTile _ (dmaLatched_aligned _ _ _ _ _ _)).subset (dmaWords_subset d code field addr kind 0)⟩
  rw [dmaFailHead, modDma_tile, htile]

end

/-! A descriptor behind the one that fails. -/

theorem dmaAbortWaiting_empty {s : State} {t : Nat} (h : (s.tile t).dma.intake = []) : dmaAbortWaiting s t = s := by rw [dmaAbortWaiting, h]

/-- A head that has not been checked does not fail yet. -/
theorem dmaAbortWaiting_unchecked {s : State} {t : Nat} (h : ∀ d ∈ (s.tile t).dma.intake, d.checked = false) : dmaAbortWaiting s t = s := by
  unfold dmaAbortWaiting
  split
  · next d _ heq =>
    have hnew : d.checked = false := h d (heq ▸ List.mem_cons_self ..)
    rw [hnew, Bool.false_and, if_neg Bool.false_ne_true]
  · rfl

/-! A started descriptor. -/

/-- A job that has failed. -/
def DmaJob.failed (code : Nat) (j : DmaJob) : DmaJob := { j with fail := some code }

/-- A lost write of a descriptor is noted for its block; nothing that was known is forgotten (03_memory_model.md R82). -/
theorem dmaWriteLost_cases (s : State) (t : Nat) (d : Desc) (code : Nat) : dmaWriteLost s t d code = s
    ∨ ∃ l, (∀ x ∈ (s.tile t).dma.lost, x ∈ l) ∧ TileBecame s (dmaWriteLost s t d code) t { s.tile t with dma := { (s.tile t).dma with lost := l } } := by
  unfold dmaWriteLost
  split
  · next b _ =>
    right
    by_cases hknown : (s.tile t).dma.lost.any (fun x => decide (x.1 = b)) = true
    · exact ⟨(s.tile t).dma.lost, fun x hx => hx, modDma_became (if_pos hknown)⟩
    · exact ⟨(s.tile t).dma.lost ++ [(b, code)], fun x hx => List.mem_append_left _ hx, modDma_became (if_neg hknown)⟩
  · exact .inl rfl

section
variable (s : State) (t : Nat) (j : DmaJob) (code field addr kind : Nat)

/-- The progress that a fault reports: that of the job's slot. -/
def dmaProgress : Nat :=
  match j.slot with
  | some n => s.rd (pTile t) (0x510 + 16 * n)
  | none => 0

/-- The state in which a started descriptor has failed, before those behind it. -/
def dmaJobSpoiled : State := (dmaFault s t j.d code field addr kind (dmaProgress s t j)).modDma t (fun e => e.modJob j.d.uid (DmaJob.failed code))

theorem dmaFailJob_eq : dmaFailJob s t j code field addr kind = dmaAbortWaiting (dmaJobSpoiled s t j code field addr kind) t := rfl

theorem dmaJobSpoiled_tile : ∃ h, (dmaJobSpoiled s t j code field addr kind).tile t
    = { s.tile t with dma := { (s.tile t).dma.modJob j.d.uid (DmaJob.failed code) with halted := h } } := by
  obtain ⟨h, htile⟩ := dmaFault_tile s t j.d code field addr kind (dmaProgress s t j)
  refine ⟨h, ?_⟩
  rw [dmaJobSpoiled, modDma_tile, htile]
  rfl

theorem dmaJobSpoiled_faulted :
    EngineFaulted s (dmaJobSpoiled s t j code field addr kind) t 0x550 0x574 17 4 code j.d (dmaWords j.d code field addr kind) :=
  ((dmaFault_faulted ..).then_modTile _ (dmaLatched_aligned _ _ _ _ _ _)).subset (dmaWords_subset j.d code field addr kind (dmaProgress s t j))

variable {s t} (hempty : (s.tile t).dma.intake = [])
include hempty

/-- A started descriptor fails, and none waits behind it that could fail with it. -/
theorem dmaFailJob_failed : DmaJobFailed s (dmaFailJob s t j code field addr kind) t j code field addr kind := by
  obtain ⟨h, htile⟩ := dmaJobSpoiled_tile s t j code field addr kind
  rw [dmaFailJob_eq, dmaAbortWaiting_empty (by rw [htile]; exact hempty)]
  exact ⟨⟨h, (s.tile t).dma.lost, htile, fun x hx => hx⟩, dmaJobSpoiled_faulted ..⟩

/-- The same, once a failed write of the descriptor has been noted for its block (03_memory_model.md R82). -/
theorem dmaFailJob_lost (d : Desc) : DmaJobFailed s (dmaFailJob (dmaWriteLost s t d code) t j code field addr kind) t j code field addr kind := by
  rcases dmaWriteLost_cases s t d code with hsame | ⟨l, hlost, hbecame⟩
  · rw [hsame]
    exact dmaFailJob_failed j code field addr kind hempty
  · rw [TileBecame] at hbecame
    have htile := tile_setTile_self s t { s.tile t with dma := { (s.tile t).dma with lost := l } }
    obtain ⟨⟨h, m, hjob, hkept⟩, hfaulted⟩ := dmaFailJob_failed (s := s.setTile t { s.tile t with dma := { (s.tile t).dma with lost := l } }) j code field addr kind
      (by rw [htile]; exact hempty)
    rw [htile] at hjob hkept
    rw [hbecame]
    exact ⟨⟨h, m, hjob, fun x hx => hkept x (hlost x hx)⟩,
      hfaulted.before (.of_regs rfl) (by decide) (by decide) rfl (setTile_only ..) (fun k hk => tile_setTile_ne s _ hk)⟩

end

end Sys2Proof.Machine
end

section
/-! SUPPORT. A tile DMA job that has moved (08_tile_data_movement.md R256, R257, R263): its tile, and the registers of its slot. -/

namespace Sys2Proof.Machine

open Sys2Proof

/-- A job as its movement leaves it: a new stall interval begins. -/
def DmaJob.rested (s : State) (t : Nat) (j : DmaJob) : DmaJob := { j with since := s.ref, limit := s.rdF (pTile t) 0x114 16 16 * 1000, stalled := false }

/-- PROGRESS of its slot. -/
def DmaJob.slotWord (j : DmaJob) : Nat :=
  if j.moved then ceilDiv (dmaTotal j.d) 128 * 128 / 128 % 2 ^ 24 + 100 * 2 ^ 24 else progressWord j.low (dmaTotal j.d) 128

section
variable (s : State) (t : Nat) {j : DmaJob} {n : Nat} (hslot : j.slot = some n)
include hslot

theorem dmaMoved_eq : dmaMoved s t j
    = ((s.modDma t (fun e => e.modJob j.d.uid (fun _ => j.rested s t))).wr (pTile t) (0x510 + 16 * n) j.slotWord).wrF (pTile t) (0x518 + 16 * n) 1 1 0 := by
  unfold dmaMoved DmaJob.slotWord DmaJob.rested
  rw [hslot]
  cases j.moved <;> simp only [if_true, Bool.false_eq_true, if_false]

theorem dmaMoved_only : OnlyRegs (s.modDma t (fun e => e.modJob j.d.uid (fun _ => j.rested s t))) (dmaMoved s t j) := by
  rw [dmaMoved_eq s t hslot]
  exact (wr_only ..).trans (wr_only ..)

theorem dmaMoved_tile : (dmaMoved s t j).tile t = { s.tile t with dma := (s.tile t).dma.modJob j.d.uid (fun _ => j.rested s t) } := by
  rw [(dmaMoved_only s t hslot).toLog.tile, modDma_tile]

theorem dmaMoved_tile_ne {k : Nat} (hk : k ≠ t) : (dmaMoved s t j).tile k = s.tile k := by
  rw [(dmaMoved_only s t hslot).toLog.tile, modDma_tile_ne _ _ _ hk]

theorem dmaMoved_regsKept : RegsKept s (dmaMoved s t j) [(pTile t, 0x510 + 16 * n), (pTile t, 0x518 + 16 * n)] := by
  rw [dmaMoved_eq s t hslot]
  exact RegsKept.trans (regsKept_of_regs_eq (t := s.modDma t _) rfl []) (RegsKept.trans (wr_kept _ (pTile t) (0x510 + 16 * n) _) (wrF_kept _ (pTile t) (0x518 + 16 * n) 1 1 0))

theorem dmaMoved_progress : (dmaMoved s t j).rd (pTile t) (0x510 + 16 * n) = j.slotWord % 2 ^ 32 := by
  rw [dmaMoved_eq s t hslot, State.wrF, rd_wr_off _ _ _ (by omega) (by omega) (by omega), rd_wr_self]

/-- The stall flag of the slot goes, and no other bit of its status. -/
theorem dmaMoved_status {lo len : Nat} (hlen : lo + len ≤ 32) (hoff : lo + len ≤ 1 ∨ 2 ≤ lo) :
    (dmaMoved s t j).rdF (pTile t) (0x518 + 16 * n) lo len = s.rdF (pTile t) (0x518 + 16 * n) lo len := by
  rw [dmaMoved_eq s t hslot, rdF_wrF_off _ _ _ _ _ _ _ _ hlen hoff, State.rdF, rd_wr_off _ _ _ (by omega) (by omega) (by omega)]
  rfl

theorem dmaMoved_state : dmaMoved s t j = { s with regs := (dmaMoved s t j).regs, tiles := (dmaMoved s t j).tiles } := by
  have honly := dmaMoved_only s t hslot
  unfold OnlyRegs at honly
  rw [honly]
  rfl

end

/-- The job of a slot names it. -/
theorem slot_of_inSlot {e : DmaEng} {n : Nat} {j : DmaJob} (h : e.inSlot n = some j) : j.slot = some n := by
  simpa using List.find?_some h

end Sys2Proof.Machine
end

section
/-! SUPPORT. The intake and the slots of the tile DMA engine (08_tile_data_movement.md R244, R251, R255, R257). -/

namespace Sys2Proof.Machine

open Sys2Proof

theorem exec_dmaDescCheck (t : Nat) (s : State) : exec (.dmaDescCheck t) s = execDmaDescCheck t s := rfl
theorem exec_dmaWaitSatisfied (t : Nat) (s : State) : exec (.dmaWaitSatisfied t) s = execDmaWaitSatisfied t s := rfl
theorem exec_dmaSlotStart (t : Nat) (s : State) : exec (.dmaSlotStart t) s = execDmaSlotStart t s := rfl
theorem exec_dmaStallReport (t n : Nat) (cause : BitVec 3) (s : State) : exec (.dmaStallReport t n cause) s = execDmaStallReport t n cause s := rfl

/-! The head of the intake (R244, R249, R251). -/

section
variable {s : State} {t : Nat} {d : Desc} {rest : List Desc} (hin : (s.tile t).dma.intake = d :: rest)
include hin

/-- Nothing fails behind a head that fails where the rest has not been checked. -/
theorem dmaFailHead_alone (hrest : ∀ e ∈ rest, e.checked = false) (c f a k : Nat) :
    dmaAbortWaiting (dmaFailHead s t d c f a k) t = dmaFailHead s t d c f a k := by
  obtain ⟨⟨h, j, htile, -⟩, -⟩ := dmaFailHead_failed s t d c f a k
  refine dmaAbortWaiting_unchecked ?_
  rw [htile, hin]
  exact hrest

variable (ht : t < 160)
include ht

/-- A head that waits does not start. -/
theorem dmaSlotStart_waits {w : Nat × Nat} (hwait : d.wait = some w) : exec (.dmaSlotStart t) s = .next s := by
  rw [exec_dmaSlotStart, execDmaSlotStart, onUnit, if_pos (decide_eq_true ht), hin]
  simp only [hwait, Option.isNone_some, Bool.and_false, Bool.false_eq_true, if_false]
  split <;> rfl

variable (hon : tileOn s t = true)
include hon

theorem dmaDescCheck_fails (hnew : d.checked = false) {c f a k : Nat} (hcheck : dmaCheck s t d = some (c, f, a, k)) :
    exec (.dmaDescCheck t) s = .next (dmaAbortWaiting (dmaFailHead s t d c f a k) t) := by
  rw [exec_dmaDescCheck, execDmaDescCheck, onUnit, if_pos (decide_eq_true ht), hin]
  simp only [hon, hnew, hcheck, Bool.not_true, Bool.or_self, Bool.false_eq_true, if_false]

theorem dmaDescCheck_passes (hnew : d.checked = false) (hcheck : dmaCheck s t d = none) : exec (.dmaDescCheck t) s = .next (
    if isHalted s t d (s.tile t).dma.halted then dmaFailHead s t d 0x2B 0 0 0
    else s.modDma t (fun e =>
      { e with intake := { d with checked := true, wait := if dmaWaitEn d then some (s.ref, wdLimit s t) else none } :: e.intake.tail })) := by
  rw [exec_dmaDescCheck, execDmaDescCheck, onUnit, if_pos (decide_eq_true ht), hin]
  simp only [hon, hnew, hcheck, Bool.not_true, Bool.or_self, Bool.false_eq_true, if_false]

variable (hold : d.checked = true)
include hold

theorem dmaWaitSatisfied_answers {w : Nat × Nat} (hwait : d.wait = some w) : exec (.dmaWaitSatisfied t) s = .next (
    if d.le 0x60 8 ≤ s.sig t (d.bf 0x58 0 12) then
      (sigAcquire s t (d.bf 0x58 0 12) (ordScope (d.le 0x5A 1)) (engineTag t)).modDma t (fun e => { e with intake := { d with wait := none } :: e.intake.tail })
    else s) := by
  rw [exec_dmaWaitSatisfied, execDmaWaitSatisfied, onUnit, if_pos (decide_eq_true ht), hin]
  simp only [hon, hold, hwait, Option.isSome_some, Bool.true_and, decide_eq_true_eq]

end

/-! The start of a descriptor (R255, R263). -/

/-- A descriptor that takes slot `n`. -/
def dmaFresh (s : State) (d : Desc) (n : Nat) : DmaJob := ⟨d, some n, 0, [], s.ref, 0, false, !dmaRdEn d, if dmaSigDst d = 0 then 2 else 0, none, none⟩

/-- The lowest free slot is the one found. -/
theorem find?_freeSlot {e : DmaEng} {n : Nat} (hn : n < 4) (hfree : e.inSlot n = none) (hlow : ∀ k, k < n → e.inSlot k ≠ none) :
    (List.range 4).find? (fun n => (e.inSlot n).isNone) = some n := by
  refine List.find?_range_eq_some.mpr ⟨by rw [hfree]; rfl, List.mem_range.mpr hn, fun k hk => ?_⟩
  simpa [Option.isSome_iff_ne_none] using hlow k hk

/-- A change of the job that has joined the others last leaves them, where none has its number. -/
theorem lupdate_last {jobs : List DmaJob} {j : DmaJob} (huid : ∀ k ∈ jobs, k.d.uid ≠ j.d.uid) (f : DmaJob → DmaJob) :
    lupdate (fun k => decide (k.d.uid = j.d.uid)) f (jobs ++ [j]) = jobs ++ [f j] := by
  have hothers : lupdate (fun k => decide (k.d.uid = j.d.uid)) f jobs = jobs :=
    (List.map_congr_left fun k hk => if_neg (by simpa using huid k hk)).trans (List.map_id' jobs)
  rw [lupdate, List.map_append, ← lupdate, hothers, List.map_singleton, if_pos (decide_eq_true rfl)]

section
variable (s : State) (t : Nat) (d : Desc) (n : Nat)

/-- The head has left the intake for the jobs. -/
def dmaEntered : State := s.modDma t (fun e => { e with intake := e.intake.tail, jobs := e.jobs ++ [dmaFresh s d n] })

/-- The registers of its slot take it. -/
def dmaSlotTaken : State :=
  (((dmaEntered s t d n).wr (pTile t) (0x514 + 16 * n) d.off).wr (pTile t) (0x518 + 16 * n) (1 + d.iss.queue * 2 ^ 16)).wr (pTile t) (0x51C + 16 * n) (dmaTag d)

/-- It has started. -/
def dmaStarted : State := dmaMoved (dmaSlotTaken s t d n) t (dmaFresh s d n)

theorem dmaSlotTaken_only : OnlyRegs (dmaEntered s t d n) (dmaSlotTaken s t d n) := ((wr_only ..).trans (wr_only ..)).trans (wr_only ..)

theorem dmaSlotTaken_regsKept : RegsKept s (dmaSlotTaken s t d n) [(pTile t, 0x514 + 16 * n), (pTile t, 0x518 + 16 * n), (pTile t, 0x51C + 16 * n)] :=
  RegsKept.trans (regsKept_of_regs_eq (t := dmaEntered s t d n) rfl []) (RegsKept.trans (RegsKept.trans (wr_kept _ (pTile t) (0x514 + 16 * n) _)
    (wr_kept _ (pTile t) (0x518 + 16 * n) _)) (wr_kept _ (pTile t) (0x51C + 16 * n) _))

theorem dmaSlotTaken_tile (k : Nat) : (dmaSlotTaken s t d n).tile k = (dmaEntered s t d n).tile k := (dmaSlotTaken_only ..).toLog.tile k

/-- What the registers of the slot hold of the descriptor. -/
theorem dmaSlotTaken_rd : (dmaSlotTaken s t d n).rd (pTile t) (0x514 + 16 * n) = d.off % 2 ^ 32
    ∧ (dmaSlotTaken s t d n).rd (pTile t) (0x518 + 16 * n) = (1 + d.iss.queue * 2 ^ 16) % 2 ^ 32
    ∧ (dmaSlotTaken s t d n).rd (pTile t) (0x51C + 16 * n) = dmaTag d % 2 ^ 32 := by
  refine ⟨?_, ?_, rd_wr_self ..⟩
  · rw [dmaSlotTaken, rd_wr_off _ _ _ (by omega) (by omega) (by omega), rd_wr_off _ _ _ (by omega) (by omega) (by omega), rd_wr_self]
  · rw [dmaSlotTaken, rd_wr_off _ _ _ (by omega) (by omega) (by omega), rd_wr_self]

theorem dmaStarted_state : dmaStarted s t d n = { s with regs := (dmaStarted s t d n).regs, tiles := (dmaStarted s t d n).tiles } := by
  have hmoved := dmaMoved_state (dmaSlotTaken s t d n) t (j := dmaFresh s d n) rfl
  have honly := dmaSlotTaken_only s t d n
  unfold OnlyRegs at honly
  rw [dmaStarted, hmoved, honly]
  rfl

theorem dmaStarted_regsKept : RegsKept s (dmaStarted s t d n)
    [(pTile t, 0x510 + 16 * n), (pTile t, 0x514 + 16 * n), (pTile t, 0x518 + 16 * n), (pTile t, 0x51C + 16 * n)] :=
  RegsKept.mono (RegsKept.trans (dmaSlotTaken_regsKept s t d n) (dmaMoved_regsKept (dmaSlotTaken s t d n) t (j := dmaFresh s d n) rfl)) (by simp)

/-- A word of the slot that movement leaves. -/
theorem dmaStarted_rd {a : Nat} (ha : a % 4 = 0) (hne : a ≠ 0x510 + 16 * n ∧ a ≠ 0x518 + 16 * n) :
    (dmaStarted s t d n).rd (pTile t) a = (dmaSlotTaken s t d n).rd (pTile t) a := by
  refine (dmaMoved_regsKept (dmaSlotTaken s t d n) t (j := dmaFresh s d n) rfl).rd fun x hx => ?_
  simp only [List.mem_cons, List.not_mem_nil, or_false] at hx
  rcases hx with rfl | rfl
  · exact regKey_ne _ ha (by omega) hne.1
  · exact regKey_ne _ ha (by omega) hne.2

/-- Its status: valid, and the queue. -/
theorem dmaStarted_status : (dmaStarted s t d n).rdB (pTile t) (0x518 + 16 * n) 0 = true ∧ (dmaStarted s t d n).rdF (pTile t) (0x518 + 16 * n) 16 16 = d.iss.queue % 2 ^ 16 := by
  obtain ⟨-, hword, -⟩ := dmaSlotTaken_rd s t d n
  have hvalid := dmaMoved_status (dmaSlotTaken s t d n) t (j := dmaFresh s d n) rfl (lo := 0) (len := 1) (by decide) (by decide)
  have hqueue := dmaMoved_status (dmaSlotTaken s t d n) t (j := dmaFresh s d n) rfl (lo := 16) (len := 16) (by decide) (by decide)
  rw [State.rdF, State.rdF, hword, bits, bits] at hvalid hqueue
  rw [State.rdB, State.rdF, bits, bit, Nat.testBit_zero, decide_eq_true_eq, dmaStarted]
  omega

/-- Its progress, where it has anything to move. -/
theorem dmaStarted_progress (htotal : dmaTotal d ≠ 0) : (dmaStarted s t d n).rd (pTile t) (0x510 + 16 * n) = 0 := by
  have hmoved : (dmaFresh s d n).moved = false := by simp [DmaJob.moved, dmaFresh, htotal]
  have hword : (dmaFresh s d n).slotWord = 0 := by
    rw [DmaJob.slotWord, hmoved, if_neg Bool.false_ne_true, progressWord, show dmaTotal (dmaFresh s d n).d = dmaTotal d from rfl, if_neg htotal]
    simp [dmaFresh, DmaJob.low]
  rw [dmaStarted, dmaMoved_progress _ t rfl, hword, Nat.zero_mod]

theorem dmaStarted_tile_ne {k : Nat} (hk : k ≠ t) : (dmaStarted s t d n).tile k = s.tile k := by
  rw [dmaStarted, dmaMoved_tile_ne _ t rfl hk, dmaSlotTaken_tile, dmaEntered, modDma_tile_ne _ _ _ hk]

theorem dmaStarted_tile {rest : List Desc} (hin : (s.tile t).dma.intake = d :: rest) (huid : ∀ j ∈ (s.tile t).dma.jobs, j.d.uid ≠ d.uid) :
    (dmaStarted s t d n).tile t = { s.tile t with dma := { (s.tile t).dma with
      intake := rest, jobs := (s.tile t).dma.jobs ++ [(dmaFresh s d n).rested (dmaSlotTaken s t d n) t] } } := by
  rw [dmaStarted, dmaMoved_tile _ t rfl, dmaSlotTaken_tile, dmaEntered, modDma_tile, hin]
  simp only [List.tail_cons]
  rw [DmaEng.modJob, lupdate_last (j := dmaFresh s d n) huid]

end

theorem dmaSlotStart_starts {s : State} {t : Nat} (ht : t < 160) (hon : tileOn s t = true) {d : Desc} {rest : List Desc} (hin : (s.tile t).dma.intake = d :: rest)
    (hold : d.checked = true) (hwait : d.wait = none) {n : Nat} (hn : n < 4) (hfree : (s.tile t).dma.inSlot n = none)
    (hlow : ∀ k, k < n → (s.tile t).dma.inSlot k ≠ none) : exec (.dmaSlotStart t) s = .next (dmaStarted s t d n) := by
  rw [exec_dmaSlotStart, execDmaSlotStart, onUnit, if_pos (decide_eq_true ht), hin]
  simp only [find?_freeSlot hn hfree hlow, hon, hold, hwait, Option.isNone_none, Bool.and_self, if_true]
  rfl

/-! The report of a stall (R257). -/

section
variable (s : State) (t n : Nat) (j : DmaJob) (cause : BitVec 3)

/-- The slot of a job shows that it is stalled, and by what. -/
def dmaStallShown : State :=
  ((s.modDma t (fun e => e.modJob j.d.uid (fun j => { j with stalled := true }))).wrF (pTile t) (0x518 + 16 * n) 1 4 (1 + 2 * cause.toNat)).inc (pTile t) 0x508 1

/-- The stall is flagged. -/
def dmaStallReported : State :=
  raise (dmaStallShown s t n j cause) (pTile t) 19 0 j.d.iss.queue 0 [n, cause.toNat, (dmaStallShown s t n j cause).rd (pTile t) (0x510 + 16 * n), j.d.off]

theorem dmaStallShown_only : OnlyRegs (s.modDma t (fun e => e.modJob j.d.uid (fun j => { j with stalled := true }))) (dmaStallShown s t n j cause) :=
  (wr_only ..).trans (wr_only ..)

theorem dmaStallReported_only : OnlyRegsLog (s.modDma t (fun e => e.modJob j.d.uid (fun j => { j with stalled := true }))) (dmaStallReported s t n j cause) :=
  (dmaStallShown_only ..).toLog.trans (raise_only ..)

theorem dmaStallReported_tile :
    (dmaStallReported s t n j cause).tile t = { s.tile t with dma := (s.tile t).dma.modJob j.d.uid (fun j => { j with stalled := true }) } := by
  rw [(dmaStallReported_only ..).tile, modDma_tile]

theorem dmaStallShown_regsKept : RegsKept s (dmaStallShown s t n j cause) [(pTile t, 0x518 + 16 * n), (pTile t, 0x508)] :=
  RegsKept.trans (regsKept_of_regs_eq (t := s.modDma t (fun e => e.modJob j.d.uid (fun j => { j with stalled := true }))) rfl [])
    (RegsKept.trans (wrF_kept _ (pTile t) (0x518 + 16 * n) 1 4 _) (inc_kept _ (pTile t) 0x508 1))

theorem dmaStallReported_regsKept : RegsKept s (dmaStallReported s t n j cause) ([(pTile t, 0x518 + 16 * n), (pTile t, 0x508)] ++ flagWords (pTile t) 19) :=
  RegsKept.trans (dmaStallShown_regsKept s t n j cause) (raise_kept _ (pTile t) 19 0 j.d.iss.queue 0 _)

variable {n} (hn : n < 4)
include hn

theorem dmaStallReported_status : cause.toNat < 6 → (dmaStallReported s t n j cause).rdF (pTile t) (0x518 + 16 * n) 1 4 = 1 + 2 * cause.toNat := by
  intro hcause
  rw [State.rdF, dmaStallReported, (raise_wordsKept ..).rd (0x518 + 16 * n) (by omega) (by simp only [List.mem_cons, List.not_mem_nil, or_false]; omega),
    dmaStallShown, State.inc, rd_wr_off _ _ _ (by decide) (by omega) (by omega), ← State.rdF, rdF_wrF_self _ _ _ _ _ _ (by decide)]
  omega

theorem dmaStallReported_count : (dmaStallReported s t n j cause).rd (pTile t) 0x508 = (s.rd (pTile t) 0x508 + 1) % 2 ^ 32 := by
  rw [dmaStallReported, (raise_wordsKept ..).rd 0x508 (by decide) (by decide), dmaStallShown, State.inc, rd_wr_self, State.wrF,
    rd_wr_off _ _ _ (by omega) (by decide) (by omega)]
  rfl

theorem dmaStallReported_flagged : Flagged s (dmaStallReported s t n j cause) (pTile t) 19 := by
  have honly := dmaStallShown_only s t n j cause
  have hkept : WordsKept (pTile t) s (dmaStallShown s t n j cause) [0x518 + 16 * n, 0x508] :=
    (modTile_kept s t _).trans ((wr_wordsKept _ (show (0x518 + 16 * n) % 4 = 0 by omega) _).trans (inc_wordsKept _ (show 0x508 % 4 = 0 by decide) 1))
  refine Flagged.congr (fun x hx => ?_) (by rw [honly]; rfl) (by rw [honly]; rfl) (raise_flagged _ (pTile t) 19 _ _ _ _ (by decide))
  simp only [flagWords, List.mem_cons, List.not_mem_nil, or_false] at hx
  rcases hx with rfl | rfl | rfl
  · exact hkept.rd 0x18 (by decide) (by simp only [List.mem_cons, List.not_mem_nil, or_false]; omega)
  · exact hkept.rd 0x1C (by decide) (by simp only [List.mem_cons, List.not_mem_nil, or_false]; omega)
  · exact hkept.rd 0x7CC (by decide) (by simp only [List.mem_cons, List.not_mem_nil, or_false]; omega)

end

section
variable {s : State} {t n : Nat} {j : DmaJob} {cause : BitVec 3} (ht : t < 160) (hn : n < 4) (hslot : (s.tile t).dma.inSlot n = some j)
include ht hn hslot

theorem dmaStallReport_reserved (hcause : 6 ≤ cause.toNat) : exec (.dmaStallReport t n cause) s = .next s := by
  have hnot : decide (cause.toNat < 6) = false := decide_eq_false (Nat.not_lt.mpr hcause)
  rw [exec_dmaStallReport, execDmaStallReport, onUnit, if_pos (by rw [decide_eq_true ht, decide_eq_true hn]; rfl), hslot]
  simp only [hnot, Bool.and_false, Bool.false_eq_true, if_false]

theorem dmaStallReport_reports (hon : tileOn s t = true) (hfail : j.fail = none) (hstalled : j.stalled = false) (hwaits : j.moved = false ∨ j.sig = 1)
    (hlate : j.since + j.limit ≤ s.ref) (hcause : cause.toNat < 6) : exec (.dmaStallReport t n cause) s = .next (dmaStallReported s t n j cause) := by
  have hrest : (j.moved && decide (j.sig ≠ 1)) = false := by
    rcases hwaits with hmoved | hsig
    · rw [hmoved, Bool.false_and]
    · rw [hsig]; exact Bool.and_false _
  rw [exec_dmaStallReport, execDmaStallReport, onUnit, if_pos (by rw [decide_eq_true ht, decide_eq_true hn]; rfl), hslot]
  simp only [hon, hfail, hstalled, hrest, hlate, hcause, Option.isNone_none, Bool.not_false, decide_true, Bool.and_self, if_true]
  rfl

end

end Sys2Proof.Machine
end

section
/-! SUPPORT. An access of a tile DMA job that is made (08_tile_data_movement.md R248-R251): what its runs and bytes depend on, and what its reads, its write and the step of the job leave. -/

namespace Sys2Proof.Machine

open Sys2Proof

/-! What runs are found by. -/

/-- Registers, stacked memory, its raw blocks and the failed stacks are the same. -/
structure SameMem (s u : State) : Prop where
  regs : u.regs = s.regs
  hbm : u.hbm = s.hbm
  raw : u.raw = s.raw
  failed : u.mem.failed = s.mem.failed

section
variable {s u : State} (h : SameMem s u)
include h

theorem SameMem.inHbm (a n : Nat) : Machine.inHbm u a n = Machine.inHbm s a n := by
  have hend : memEnd u = memEnd s := by rw [memEnd, memEnd, State.rd64, State.rd64, rd_congr h.regs, rd_congr h.regs]
  rw [Machine.inHbm, Machine.inHbm, hend]

theorem SameMem.memFault (a n : Nat) : Machine.memFault u a n = Machine.memFault s a n := by
  have hkey : mapKey u = mapKey s := by rw [mapKey, mapKey, State.rd64, State.rd64, rd_congr h.regs, rd_congr h.regs]
  have hfailed : failedAt u a n = failedAt s a n := by rw [failedAt, failedAt, h.failed, hkey]
  have hraw : rawIn u a n = rawIn s a n := by rw [rawIn, rawIn, h.raw]
  rw [Machine.memFault, Machine.memFault, h.inHbm, hfailed, hraw]

theorem SameMem.hnat (a n : Nat) : u.hnat a n = s.hnat a n :=
  congrArg leNat (List.map_congr_left fun i _ => by rw [State.hb, State.hb, h.hbm])

theorem SameMem.extAddr (e : Extent) (o : Nat) : Machine.extAddr u e o = Machine.extAddr s e o := by
  simp only [Machine.extAddr, h.hnat]

theorem SameMem.extFault (e : Extent) (o : Nat) : Machine.extFault u e o = Machine.extFault s e o := by
  rw [Machine.extFault, Machine.extFault, h.memFault]

theorem SameMem.locate (ga n : Nat) : Machine.locate u ga n = Machine.locate s ga n := by
  have hnode : nodeId u = nodeId s := rd_congr h.regs pFabric 0x200
  rw [Machine.locate, Machine.locate, hnode, h.inHbm]

theorem SameMem.dmaPiece (d : Desc) (k i hi : Nat) : Machine.dmaPiece u d k i hi = Machine.dmaPiece s d k i hi := by
  simp only [Machine.dmaPiece, h.extFault, h.extAddr, h.locate]

theorem SameMem.dmaPieces (d : Desc) (k f : Nat) : ∀ i hi, Machine.dmaPieces u d k f i hi = Machine.dmaPieces s d k f i hi := by
  induction f with
  | zero => exact fun _ _ => rfl
  | succ f ih =>
    intro i hi
    simp only [Machine.dmaPieces, h.dmaPiece, ih]

theorem SameMem.dmaBytes (j : DmaJob) (i : Nat) (b : List Byte) : Machine.dmaBytes u j i b = Machine.dmaBytes s j i b := by
  simp only [Machine.dmaBytes, h.dmaPieces]

end

/-! What an access reads. -/

theorem dmaTouch_spec (t : Nat) (src : List Piece) : ∀ s : State, dmaTouch s t src = { s with mem := (dmaTouch s t src).mem } ∧ (dmaTouch s t src).mem.failed = s.mem.failed := by
  induction src with
  | nil => exact fun s => ⟨rfl, rfl⟩
  | cons x src ih =>
    intro s
    have hcons : dmaTouch s t (x :: src) = dmaTouch (if x.sp = 1 then sliceTouch s (.dma t) x.a x.n false else s) t src := rfl
    rw [hcons]
    split
    · obtain ⟨hmem, hfailed⟩ := ih (sliceTouch s (.dma t) x.a x.n false)
      refine ⟨?_, hfailed.trans (sliceTouch_failed ..)⟩
      rw [hmem]
      rfl
    · exact ih s

theorem dmaKeepOld_state (s : State) (t : Nat) (j : DmaJob) : (dmaKeepOld s t j).1 = { s with free := (dmaKeepOld s t j).1.free } := by
  unfold dmaKeepOld
  dsimp only
  split <;> rfl

theorem dmaKeepOld_job (s : State) (t : Nat) (j : DmaJob) : (dmaKeepOld s t j).2 = { j with ovl := (dmaKeepOld s t j).2.ovl } := by
  unfold dmaKeepOld
  dsimp only
  split <;> rfl

section
variable (s : State) (t : Nat) (j : DmaJob) (w : Piece) (src : List Piece) (b : List Byte)

/-- The state in which an access has read its sources. -/
def dmaReady : State := dmaTouch (dmaKeepOld s t j).1 t src

/-- The bytes that it writes. -/
def dmaData : List Byte := if dmaOp j.d = 1 then dmaPattern j.d w.i w.n else dmaBytes s (dmaKeepOld s t j).2 w.i b

/-- The job with its position moved on. -/
def dmaAdvanced : DmaJob := { (dmaKeepOld s t j).2 with pos := j.pos + w.n }

theorem dmaReady_state : dmaReady s t j src = { s with mem := (dmaReady s t j src).mem, free := (dmaReady s t j src).free } := by
  obtain ⟨htouch, -⟩ := dmaTouch_spec t src (dmaKeepOld s t j).1
  rw [dmaReady, htouch, dmaKeepOld_state]

theorem dmaReady_same : SameMem s (dmaReady s t j src) := by
  have hstate := dmaReady_state s t j src
  obtain ⟨-, hfailed⟩ := dmaTouch_spec t src (dmaKeepOld s t j).1
  refine ⟨by rw [hstate], by rw [hstate], by rw [hstate], hfailed.trans ?_⟩
  rw [dmaKeepOld_state]

theorem dmaAdvanced_slot : (dmaAdvanced s t j w).slot = j.slot := by rw [dmaAdvanced, dmaKeepOld_job]

theorem dmaAdvanced_d : (dmaAdvanced s t j w).d = j.d := by rw [dmaAdvanced, dmaKeepOld_job]

theorem dmaReady_bytes (i : Nat) : dmaBytes (dmaReady s t j src) (dmaKeepOld s t j).2 i b = dmaBytes s (dmaKeepOld s t j).2 i b := (dmaReady_same s t j src).dmaBytes _ i b

/-! What an access writes. -/

/-- The job with a remote write out on the fabric. -/
def dmaParted : DmaJob := { dmaAdvanced s t j w with parts := (dmaKeepOld s t j).2.parts ++ [⟨w.i, w.n, 1, [], true⟩] }

/-- The state in which a remote write is about to be handed to its connection: it is a part of the job, and counted. -/
def dmaHanded : State := countAccess (dmaStep (dmaReady s t j src) t (dmaParted s t j w) (src.any (fun p => decide (p.sp ≠ 2)))) 0 w.a w.n

/-- The request that the connection is handed. -/
def dmaRequest : OutReq := ⟨1, 0, w.n, t, 2, w.a / 2 ^ 40 % 2 ^ 20, w.a % 2 ^ 40, dmaData s t j w b, .dma t j.d.uid w.i⟩

variable {s t j w src b}

/-- A source that cannot be read fails the job. -/
theorem dmaMove_unread {c a k : Nat} (hread : dmaReadAll s t src = .error (c, a, k)) (hsound : c ≠ 0x10) :
    dmaMove s t j w src = dmaFailJob s t j c 0 (if k = 1 then globalOf s a else a) k := by
  simp only [dmaMove, hread, if_neg hsound]

variable (hread : dmaReadAll s t src = .ok b)
include hread

/-- An access within the module that meets no fault is made at once. -/
theorem dmaMove_near (hnear : ∀ x ∈ w :: src, x.sp ≠ 2) {v : State} (hwrite : dmaWrite (dmaReady s t j src) t w.a w.sp (dmaData s t j w b) = (v, none)) :
    dmaMove s t j w src = dmaMoved v t (dmaAdvanced s t j w) := by
  rw [List.forall_mem_cons] at hnear
  have hfar : src.filter (fun p => decide (p.sp = 2)) = [] := List.filter_eq_nil_iff.mpr fun x hx => by simpa using hnear.2 x hx
  have hpos : (dmaKeepOld s t j).2.pos = j.pos := by rw [dmaKeepOld_job]
  have hbytes := dmaReady_bytes s t j src b w.i
  unfold dmaReady at hbytes
  unfold dmaReady dmaData at hwrite
  simp only [dmaMove, hread, hbytes, hfar, if_neg hnear.1, ne_eq, not_true_eq_false, if_false, hwrite, hpos]
  rfl

/-- A remote write is handed to the connection. -/
theorem dmaMove_remote (hsp : w.sp = 2) : dmaMove s t j w src = connSend (dmaHanded s t j w src) (dmaConn j.d) (dmaRequest s t j w b) := by
  have hpos : (dmaKeepOld s t j).2.pos = j.pos := by rw [dmaKeepOld_job]
  have hbytes := dmaReady_bytes s t j src b w.i
  unfold dmaReady at hbytes
  simp only [dmaMove, hread, hbytes, if_pos hsp, hpos]
  rfl

end

/-! What an access within the module leaves. -/

/-- A job has moved on by one access, and its slot shows it. -/
def DmaStepped (s u : State) (t n : Nat) (j : DmaJob) (w : Piece) : Prop :=
  (∃ k : DmaJob, k = { (dmaKeepOld s t j).2 with pos := j.pos + w.n, since := s.ref, limit := k.limit, stalled := false }
    ∧ u.tile t = { s.tile t with dma := (s.tile t).dma.modJob j.d.uid (fun _ => k) })
  ∧ RegsKept s u [(pTile t, 0x510 + 16 * n), (pTile t, 0x518 + 16 * n)] ∧ (∀ k, k ≠ t → u.tile k = s.tile k)

section
variable {s v : State} {t n : Nat} {j : DmaJob} {w : Piece} (hslot : j.slot = some n)
include hslot

theorem dmaMoved_stepped (hregs : v.regs = s.regs) (htiles : v.tiles = s.tiles) (href : v.ref = s.ref) :
    DmaStepped s (dmaMoved v t (dmaAdvanced s t j w)) t n j w := by
  have hadv : (dmaAdvanced s t j w).slot = some n := (dmaAdvanced_slot s t j w).trans hslot
  refine ⟨⟨(dmaAdvanced s t j w).rested v t, ?_, ?_⟩, RegsKept.trans (regsKept_of_regs_eq hregs []) (dmaMoved_regsKept v t hadv), fun k hk => ?_⟩
  · rw [DmaJob.rested, dmaAdvanced, href]
  · rw [dmaMoved_tile v t hadv, dmaAdvanced_d, tile_congr htiles]
  · rw [dmaMoved_tile_ne v t hadv hk, tile_congr htiles]

/-- What it leaves of memory is what its write leaves. -/
theorem dmaMoved_memory : let u := dmaMoved v t (dmaAdvanced s t j w); u.hbm = v.hbm ∧ u.tmem = v.tmem := by
  dsimp only
  rw [dmaMoved_state v t ((dmaAdvanced_slot s t j w).trans hslot)]
  exact ⟨rfl, rfl⟩

end

/-! What a remote write leaves. -/

/-- Only registers, tiles, what the slices note and free values changed. -/
def OnlyDmaStep (s u : State) : Prop := u = { s with regs := u.regs, tiles := u.tiles, mem := u.mem, free := u.free }

theorem OnlyDmaStep.trans {s u v : State} (h : OnlyDmaStep s u) (k : OnlyDmaStep u v) : OnlyDmaStep s v := by
  unfold OnlyDmaStep at *
  rw [k, h]

theorem countAccess_tiles (s : State) (dir ga n : Nat) : (countAccess s dir ga n).tiles = s.tiles := by
  unfold countAccess
  split <;> rfl

theorem countAccess_only (s : State) (dir ga n : Nat) : OnlyDmaStep s (countAccess s dir ga n) := by
  unfold countAccess OnlyDmaStep
  split <;> rfl

theorem dmaReady_only (s : State) (t : Nat) (j : DmaJob) (src : List Piece) : OnlyDmaStep s (dmaReady s t j src) := by
  rw [OnlyDmaStep, dmaReady_state]

theorem dmaStep_only (s : State) (t : Nat) {j : DmaJob} {n : Nat} (hslot : j.slot = some n) (performed : Bool) : OnlyDmaStep s (dmaStep s t j performed) := by
  unfold dmaStep OnlyDmaStep
  split
  · rw [dmaMoved_state s t hslot]
  · rfl

/-- The job stands as given, but for its stall interval. -/
theorem dmaStep_tile (s : State) (t : Nat) {j : DmaJob} {n : Nat} (hslot : j.slot = some n) (performed : Bool) : ∃ k : DmaJob, k.pos = j.pos ∧ k.parts = j.parts
    ∧ (dmaStep s t j performed).tile t = { s.tile t with dma := (s.tile t).dma.modJob j.d.uid (fun _ => k) } := by
  unfold dmaStep
  split
  · exact ⟨j.rested s t, rfl, rfl, dmaMoved_tile s t hslot⟩
  · exact ⟨j, rfl, rfl, modDma_tile ..⟩

section
variable (s : State) (t : Nat) {j : DmaJob} {n : Nat} (w : Piece) (src : List Piece) (hslot : j.slot = some n)
include hslot

theorem dmaParted_slot : (dmaParted s t j w).slot = some n := (dmaAdvanced_slot s t j w).trans hslot

theorem dmaHanded_only : OnlyDmaStep s (dmaHanded s t j w src) :=
  ((dmaReady_only s t j src).trans (dmaStep_only _ t (dmaParted_slot s t w hslot) _)).trans (countAccess_only ..)

theorem dmaHanded_tile : ∃ k : DmaJob, k.pos = j.pos + w.n ∧ k.parts = j.parts ++ [⟨w.i, w.n, 1, [], true⟩]
    ∧ (dmaHanded s t j w src).tile t = { s.tile t with dma := (s.tile t).dma.modJob j.d.uid (fun _ => k) } := by
  obtain ⟨k, hpos, hparts, htile⟩ := dmaStep_tile (dmaReady s t j src) t (dmaParted_slot s t w hslot) (src.any (fun p => decide (p.sp ≠ 2)))
  have hready : (dmaReady s t j src).tile t = s.tile t := tile_congr (by rw [dmaReady_state]) t
  refine ⟨k, hpos, hparts.trans ?_, ?_⟩
  · rw [dmaParted, dmaKeepOld_job]
  · rw [dmaHanded, tile_congr (countAccess_tiles ..), htile, hready, dmaParted, dmaAdvanced_d]

end

end Sys2Proof.Machine
end

section
/-! SUPPORT. What an attempt of a tile DMA job at its next access comes to (08_tile_data_movement.md R249-R251, R256), and what one made within the module leaves. -/

namespace Sys2Proof.Machine

open Sys2Proof

theorem exec_dmaAccessPerformed (t n : Nat) (s : State) : exec (.dmaAccessPerformed t n) s = execDmaAccessPerformed t n s := rfl

section
variable (s : State) (t : Nat) (j : DmaJob) (w : Piece) (src : List Piece)

/-- A run of the access lies in another module. -/
def dmaFar : Prop := ∃ x ∈ w :: src, x.sp = 2

/-- The access is held behind an earlier descriptor, or where memory holds requests. -/
def dmaBarred : Prop := dmaHeld s ((s.tile t).dma.before j.d.uid) src [w] = true ∨ ∃ x ∈ w :: src, x.sp = 1 ∧ memHeld s (.dma t) x.a x.n = true

/-- The access lies 1 MiB beyond the job's position. -/
def dmaAhead : Prop := j.low / 128 * 128 + 2 ^ 20 < j.pos + w.n

/-- What an attempt at the access leaves. -/
def dmaAttempt : State :=
  let far := (w :: src).any (fun p => decide (p.sp = 2))
  if dmaHeld s ((s.tile t).dma.before j.d.uid) src [w] then s
  else if (w :: src).any (fun p => decide (p.sp = 1) && memHeld s (.dma t) p.a p.n) then s
  else match dmaRemoteBad s t j.d w src with
  | some c => dmaFailJob s t j c.1 c.2 0 0
  | none =>
    if far && decide (connState s (dmaConn j.d) = 5) then dmaFailJob (if w.sp = 2 then dmaWriteLost s t j.d 0x12 else s) t j 0x12 0 0 0
    else if (far && decide (connState s (dmaConn j.d) ≠ 3)) || decide (j.low / 128 * 128 + 2 ^ 20 < j.pos + w.n) then s
    else dmaMove s t j w src

theorem dmaFar_iff : (w :: src).any (fun p => decide (p.sp = 2)) = true ↔ dmaFar w src := by
  simp only [List.any_eq_true, decide_eq_true_eq, dmaFar]

theorem dmaBarred_iff : dmaBarred s t j w src ↔ dmaHeld s ((s.tile t).dma.before j.d.uid) src [w] = true
    ∨ (w :: src).any (fun p => decide (p.sp = 1) && memHeld s (.dma t) p.a p.n) = true := by
  simp only [dmaBarred, List.any_eq_true, Bool.and_eq_true, decide_eq_true_eq]

variable {s t j w src}

theorem dmaAttempt_barred (h : dmaBarred s t j w src) : dmaAttempt s t j w src = s := by
  rw [dmaBarred_iff] at h
  unfold dmaAttempt
  dsimp only
  split
  · rfl
  · next hheld => rw [if_pos (h.resolve_left hheld)]

variable (hfree : ¬ dmaBarred s t j w src)
include hfree

theorem dmaAttempt_refused {c f : Nat} (hbad : dmaRemoteBad s t j.d w src = some (c, f)) : dmaAttempt s t j w src = dmaFailJob s t j c f 0 0 := by
  rw [dmaBarred_iff, not_or] at hfree
  simp only [dmaAttempt, if_neg hfree.1, if_neg hfree.2, hbad]

variable (hgood : dmaRemoteBad s t j.d w src = none)
include hgood

theorem dmaAttempt_down (hfar : dmaFar w src) (hdown : connState s (dmaConn j.d) = 5) :
    dmaAttempt s t j w src = dmaFailJob (if w.sp = 2 then dmaWriteLost s t j.d 0x12 else s) t j 0x12 0 0 0 := by
  rw [dmaBarred_iff, not_or] at hfree
  rw [← dmaFar_iff] at hfar
  simp only [dmaAttempt, if_neg hfree.1, if_neg hfree.2, hgood, hfar, hdown, decide_true, Bool.and_self, if_true]

/-- Where no connection that it needs is DOWN, the access waits for one that is not OPEN, or for its position, or is made. -/
theorem dmaAttempt_up (hup : dmaFar w src → connState s (dmaConn j.d) ≠ 5) : (dmaFar w src ∧ connState s (dmaConn j.d) ≠ 3 ∨ dmaAhead j w → dmaAttempt s t j w src = s)
    ∧ ((dmaFar w src → connState s (dmaConn j.d) = 3) → ¬ dmaAhead j w → dmaAttempt s t j w src = dmaMove s t j w src) := by
  rw [dmaBarred_iff, not_or] at hfree
  rw [← dmaFar_iff] at hup ⊢
  unfold dmaAhead
  have hlive : ((w :: src).any (fun p => decide (p.sp = 2)) && decide (connState s (dmaConn j.d) = 5)) = false := by
    rw [Bool.and_eq_false_imp]
    exact fun h => decide_eq_false (hup h)
  simp only [dmaAttempt, if_neg hfree.1, if_neg hfree.2, hgood, hlive, Bool.false_eq_true, if_false, Bool.or_eq_true, Bool.and_eq_true, decide_eq_true_eq]
  refine ⟨fun hwait => if_pos hwait, fun hopen hnear => if_neg ?_⟩
  rintro (⟨hfar, hstate⟩ | hahead)
  · exact hstate (hopen hfar)
  · exact hnear hahead

end

/-- An attempt is made where the job has runs to move and its tile is not held. -/
theorem dmaAccess_attempts {s : State} {t n : Nat} {j : DmaJob} {w : Piece} {src : List Piece} (ht : t < 160) (hn : n < 4) (hon : tileOn s t = true)
    (hslot : (s.tile t).dma.inSlot n = some j) (hfail : j.fail = none) (hstall : pTile t ∉ s.stalls) (hpos : j.pos < dmaTotal j.d)
    (hchunk : dmaChunk s j.d j.pos = .ok (w, src)) : exec (.dmaAccessPerformed t n) s = .next (dmaAttempt s t j w src) := by
  have hopen : s.stalls.contains (pTile t) = false := by simpa using hstall
  rw [exec_dmaAccessPerformed, execDmaAccessPerformed, onUnit, if_pos (by rw [decide_eq_true ht, decide_eq_true hn]; rfl), hslot]
  simp only [hon, hopen, hfail, hchunk, decide_eq_false (Nat.not_le.mpr hpos), Option.isSome_none, Bool.not_true, Bool.or_self, Bool.false_eq_true, if_false]
  rfl

/-! An access made within the module. -/

/-- A write that meets no fault puts its bytes, if it has any. -/
theorem memWrite_made {s : State} (r : Requester) {a : Nat} {data : List Byte} (hf : memFault s a data.length = none) :
    ∃ v, memWrite s r a data = (v, none) ∧ v = { s with hbm := v.hbm, raw := v.raw, mem := v.mem }
      ∧ (∀ i (h : i < data.length), v.hb (a + i) = data[i]) ∧ (∀ k, (k < a ∨ a + data.length ≤ k) → v.hb k = s.hb k) := by
  rcases Nat.eq_zero_or_pos data.length with hzero | hpos
  · exact ⟨s, by simp only [memWrite, if_pos hzero], rfl, fun i h => absurd h (by omega), fun _ _ => rfl⟩
  · obtain ⟨hnone, ⟨hbm, raw, mem, hstate⟩, hin, hout⟩ := memWrite_faultless r hpos hf
    refine ⟨(memWrite s r a data).1, Prod.ext rfl hnone, ?_, hin, hout⟩
    rw [hstate]

section
variable {s : State} {t n : Nat} {j : DmaJob} {w : Piece} {src : List Piece} {b : List Byte} (hslot : j.slot = some n) (hnear : ¬ dmaFar w src)
  (hread : dmaReadAll s t src = .ok b)
include hslot hnear hread

/-- A destination in the tile takes the bytes. -/
theorem dmaMove_tile (hsp : w.sp = 0) : let u := dmaMove s t j w src
    DmaStepped s u t n j w
    ∧ (∀ i, i < (dmaData s t j w b).length → u.tb t (w.a + i) = ((dmaData s t j w b)[i]?).getD 0)
    ∧ (∀ a, a < w.a ∨ w.a + (dmaData s t j w b).length ≤ a → u.tb t a = s.tb t a)
    ∧ u = { s with tmem := u.tmem, traw := u.traw, regs := u.regs, tiles := u.tiles, mem := u.mem, free := u.free } := by
  have hready := dmaReady_state s t j src
  have hwrite : dmaWrite (dmaReady s t j src) t w.a w.sp (dmaData s t j w b) = ((dmaReady s t j src).twr t w.a (dmaData s t j w b), none) := if_pos hsp
  have hmem : (dmaReady s t j src).tmem = s.tmem := by rw [hready]
  dsimp only
  rw [dmaMove_near hread (fun x hx h => hnear ⟨x, hx, h⟩) hwrite]
  obtain ⟨-, hbytes⟩ := dmaMoved_memory (s := s) (v := (dmaReady s t j src).twr t w.a (dmaData s t j w b)) (t := t) (w := w) hslot
  refine ⟨dmaMoved_stepped hslot (by rw [State.twr_regs, hready]) (by rw [State.twr_tiles, hready]) (by rw [State.twr_ref, hready]), fun i hi => ?_, fun a ha => ?_, ?_⟩
  · rw [tb_congr hbytes, tb_twr_in _ _ _ _ hi, List.getElem?_eq_getElem hi, Option.getD_some]
  · rw [tb_congr hbytes, tb_twr_out _ _ _ _ ha, tb_congr hmem]
  · rw [dmaMoved_state _ t ((dmaAdvanced_slot s t j w).trans hslot), hready]
    rfl

/-- A destination in this module's memory takes them. -/
theorem dmaMove_memory (hsp : w.sp = 1) (hf : memFault s w.a (dmaData s t j w b).length = none) : let u := dmaMove s t j w src
    DmaStepped s u t n j w
    ∧ (∀ i, i < (dmaData s t j w b).length → u.hb (w.a + i) = ((dmaData s t j w b)[i]?).getD 0)
    ∧ (∀ a, a < w.a ∨ w.a + (dmaData s t j w b).length ≤ a → u.hb a = s.hb a)
    ∧ u = { s with hbm := u.hbm, raw := u.raw, mem := u.mem, regs := u.regs, tiles := u.tiles, free := u.free } := by
  have hready := dmaReady_state s t j src
  obtain ⟨v, hv, hstate, hin, hout⟩ := memWrite_made (.dma t) (((dmaReady_same s t j src).memFault _ _).trans hf)
  have hwrite : dmaWrite (dmaReady s t j src) t w.a w.sp (dmaData s t j w b) = (v, none) := (if_neg (by rw [hsp]; decide)).trans hv
  dsimp only
  rw [dmaMove_near hread (fun x hx h => hnear ⟨x, hx, h⟩) hwrite]
  obtain ⟨hbytes, -⟩ := dmaMoved_memory (s := s) (v := v) (t := t) (w := w) hslot
  have hsame : ∀ a, (dmaMoved v t (dmaAdvanced s t j w)).hb a = v.hb a := fun a => by rw [State.hb, hbytes, State.hb]
  refine ⟨dmaMoved_stepped hslot (by rw [hstate, hready]) (by rw [hstate, hready]) (by rw [hstate, hready]), fun i hi => ?_, fun a ha => ?_, ?_⟩
  · rw [hsame, hin i hi, List.getElem?_eq_getElem hi, Option.getD_some]
  · rw [hsame, hout a ha, State.hb, State.hb, (dmaReady_same s t j src).hbm]
  · rw [dmaMoved_state _ t ((dmaAdvanced_slot s t j w).trans hslot), hstate, hready]

end

end Sys2Proof.Machine
end

section
/-! SUPPORT. The signals of a tile DMA job and its completion (08_tile_data_movement.md R252-R254, R262). -/

namespace Sys2Proof.Machine

open Sys2Proof

theorem exec_dmaSourceRead (t n : Nat) (s : State) : exec (.dmaSourceRead t n) s = execDmaSourceRead t n s := rfl
theorem exec_dmaSignalSend (t n : Nat) (s : State) : exec (.dmaSignalSend t n) s = execDmaSignalSend t n s := rfl
theorem exec_dmaCompletion (t : Nat) (s : State) : exec (.dmaCompletion t) s = execDmaCompletion t s := rfl

/-! What signals leave. -/

/-- Signals leave every tile's DMA engine as it is. -/
theorem SignalOnly.dma {s u : State} {k : Nat} (h : SignalOnly s u k) (i : Nat) : (u.tile i).dma = (s.tile i).dma := by
  obtain ⟨-, hother, bs, tg, htile, -⟩ := h
  by_cases hi : i = k
  · rw [hi, htile]
  · rw [hother i hi]

/-- A release that adds to a signal word of any tile is a signal without marks. -/
theorem sigRelease_signalled (s : State) (t w v scope : Nat) (r : RelTag) : Signalled s (sigRelease s t w 1 v scope r) t w v 0 := by
  obtain ⟨hvalue, hframe, honly⟩ := sigRelease_put s t w 1 v scope r
  refine ⟨hvalue.trans ?_, hframe, honly⟩
  rw [Nat.or_zero]
  exact Nat.mod_mod _ _

/-- A change of a DMA engine behind signals. -/
theorem modDma_became_signalled {s v : State} {k t : Nat} (h : SignalOnly s v k) {f : DmaEng → DmaEng} {e : DmaEng} (he : f (s.tile t).dma = e) :
    TileBecame v (v.modDma t f) t { v.tile t with dma := e } := modDma_became (by rw [h.dma, he])

section
variable (s : State) (t : Nat) (j : DmaJob)

theorem dmaSendRd_signalled : Signalled s (dmaSendRd s t j) t (j.d.bf 0x5C 0 12) (j.d.le 0x68 8) 0 := engSignal_signalled s t _ _ (by decide) _

/-- The state in which a completing job's source-read signal has been performed. -/
def dmaRdDone : State := if j.rdSent then s else dmaSendRd s t j

/-- The marks of its completion signal. -/
def dmaMarks : Nat := if j.fail.isSome then 2 ^ 63 else 0

/-- The state in which its completion signal has been performed too. -/
def dmaDoneSent : State := engSignal (dmaRdDone s t j) t (j.d.bf 0x10 0 12) (j.d.le 0x18 8) (dmaMarks j) (j.d.le 0x12 1)

/-- The descriptor has been counted and has left the jobs. -/
def dmaRetired : State := ((dmaDoneSent s t j).inc (pTile t) 0x504 1).modDma t (fun e => { e with jobs := e.jobs.tail })

theorem dmaRdDone_only : SignalOnly s (dmaRdDone s t j) t := by
  unfold dmaRdDone
  split
  · exact .refl s t
  · exact (dmaSendRd_signalled s t j).only

theorem dmaRdDone_kept : WordsKept (pTile t) s (dmaRdDone s t j) scopeWords := by
  unfold dmaRdDone
  split
  · exact (WordsKept.of_regs rfl).mono (List.nil_subset _)
  · exact engSignal_kept ..

theorem dmaRdDone_signalled : (j.rdSent = true → dmaRdDone s t j = s) ∧ (j.rdSent = false → Signalled s (dmaRdDone s t j) t (j.d.bf 0x5C 0 12) (j.d.le 0x68 8) 0) := by
  refine ⟨fun hsent => if_pos hsent, fun hunsent => ?_⟩
  rw [dmaRdDone, if_neg (Bool.eq_false_iff.mp hunsent)]
  exact dmaSendRd_signalled s t j

theorem dmaDoneSent_signalled : Signalled (dmaRdDone s t j) (dmaDoneSent s t j) t (j.d.bf 0x10 0 12) (j.d.le 0x18 8) (dmaMarks j) :=
  engSignal_signalled _ t _ _ (by unfold dmaMarks; split <;> decide) _

theorem dmaDoneSent_only : SignalOnly s (dmaDoneSent s t j) t := (dmaRdDone_only s t j).trans (dmaDoneSent_signalled s t j).only

theorem dmaDoneSent_kept : WordsKept (pTile t) s (dmaDoneSent s t j) (scopeWords ++ scopeWords) := (dmaRdDone_kept s t j).trans (engSignal_kept ..)

/-- Both signals leave DMA_DONE to the count. -/
theorem dmaRetired_rd : (dmaRetired s t j).rd (pTile t) 0x504 = (s.rd (pTile t) 0x504 + 1) % 2 ^ 32 := by
  rw [dmaRetired, State.modDma, (modTile_kept _ t _).rd 0x504 (by decide) List.not_mem_nil, State.inc, rd_wr_self, (dmaDoneSent_kept s t j).rd 0x504 (by decide) (by decide)]

theorem dmaRetired_regsKept : RegsKept (dmaDoneSent s t j) (dmaRetired s t j) [(pTile t, 0x504)] :=
  RegsKept.trans (inc_kept _ (pTile t) 0x504 1) (regsKept_of_regs_eq (State.modTile_regs ..) [])

theorem dmaRetired_tile {rest : List DmaJob} (hjobs : (s.tile t).dma.jobs = j :: rest) :
    (dmaRetired s t j).tile t = { (dmaDoneSent s t j).tile t with dma := { (s.tile t).dma with jobs := rest } } := by
  rw [dmaRetired, modDma_tile, tile_congr (State.inc_tiles ..), (dmaDoneSent_only s t j).dma, hjobs, List.tail_cons]

end

/-! What the commands answer. -/

section
variable {s : State} {t : Nat} (ht : t < 160) (hon : tileOn s t = true) {j : DmaJob}

section
variable {rest : List DmaJob} (hjobs : (s.tile t).dma.jobs = j :: rest)
  (hready : (if j.fail.isSome then decide (j.parts = []) else j.moved && decide (j.sig = 2)) = true)
include ht hon hjobs hready

/-- The oldest descriptor, in a slot, completes: the slot is free. -/
theorem dmaCompletion_frees {n : Nat} (hslot : j.slot = some n) :
    exec (.dmaCompletion t) s = .next ((dmaRetired s t j).wrF (pTile t) (0x518 + 16 * n) 0 2 0) := by
  rw [exec_dmaCompletion, execDmaCompletion, onUnit, if_pos (decide_eq_true ht), hjobs]
  simp only [hon, hready, hslot, Bool.and_self, if_true]
  rfl

/-- The oldest descriptor, in none, completes. -/
theorem dmaCompletion_ends (hslot : j.slot = none) : exec (.dmaCompletion t) s = .next (dmaRetired s t j) := by
  rw [exec_dmaCompletion, execDmaCompletion, onUnit, if_pos (decide_eq_true ht), hjobs]
  simp only [hon, hready, hslot, Bool.and_self, if_true]
  rfl

end

variable {n : Nat} (hn : n < 4) (hslot : (s.tile t).dma.inSlot n = some j)
include ht hn hslot

/-- The signal waits for the earlier descriptors that it covers. -/
theorem dmaSignalSend_waits (hearly : dmaEarlierDone s t j (ordScope (j.d.le 0x71 1)) = false) : exec (.dmaSignalSend t n) s = .next s := by
  rw [exec_dmaSignalSend, execDmaSignalSend, onUnit, if_pos (by rw [decide_eq_true ht, decide_eq_true hn]; rfl), hslot]
  simp only [hearly, Bool.not_false, Bool.or_true, if_true]

variable (hfail : j.fail = none)
include hon hfail

theorem dmaSourceRead_answers (hunsent : j.rdSent = false) (hread : j.readAll = true) : exec (.dmaSourceRead t n) s = .next (
    if dmaEarlierDone s t j (ordScope (j.d.le 0x5E 1)) then (dmaSendRd s t j).modDma t (fun e => e.modJob j.d.uid (fun j => { j with rdSent := true })) else s) := by
  rw [exec_dmaSourceRead, execDmaSourceRead, onUnit, if_pos (by rw [decide_eq_true ht, decide_eq_true hn]; rfl), hslot]
  simp only [hon, hfail, hunsent, hread, Option.isNone_none, Bool.not_false, Bool.true_and]

variable (hunsent : j.sig = 0) (hmoved : j.moved = true) (hearly : dmaEarlierDone s t j (ordScope (j.d.le 0x71 1)) = true)
include hunsent hmoved hearly

/-- A lost write that the signal covers fails it. -/
theorem dmaSignalSend_lost {c : Nat} (hlost : dmaLost s t j.d = some c) : exec (.dmaSignalSend t n) s = .next (dmaFailJob s t j c 0 0 0) := by
  rw [exec_dmaSignalSend, execDmaSignalSend, onUnit, if_pos (by rw [decide_eq_true ht, decide_eq_true hn]; rfl), hslot]
  simp only [hon, hfail, hunsent, hmoved, hearly, hlost, Option.isSome_none, Option.isSome_some, Option.getD_some, ne_eq, not_true_eq_false, decide_false,
    Bool.not_true, Bool.or_self, Bool.false_eq_true, if_false, if_true]

variable (hlost : dmaLost s t j.d = none)
include hlost

/-- A signal to a tile of this module is applied, or refused where the tile serves another job. -/
theorem dmaSignalSend_local (hdst : dmaSigDst j.d = 1) : exec (.dmaSignalSend t n) s = .next (
    if boundTo s (pTile (j.d.le 0x74 1)) (s.rd (pTile t) 0x2C) then
      (sigRelease s (j.d.le 0x74 1) (j.d.bf 0x70 16 12) 1 (j.d.le 0x78 8) (ordScope (j.d.le 0x71 1)) (engineTag t)).modDma t
        (fun e => e.modJob j.d.uid (fun j => { j with sig := 2 }))
    else dmaFailJob s t j 0x2C 0 0 0) := by
  rw [exec_dmaSignalSend, execDmaSignalSend, onUnit, if_pos (by rw [decide_eq_true ht, decide_eq_true hn]; rfl), hslot]
  simp only [hon, hfail, hunsent, hmoved, hearly, hlost, hdst, Option.isSome_none, ne_eq, not_true_eq_false, decide_false, Bool.not_true, Bool.or_self,
    Bool.false_eq_true, if_false, if_true]

/-- A signal to the peer goes to a connection that is OPEN, fails with one that is DOWN, and waits for any other. -/
theorem dmaSignalSend_remote (hdst : dmaSigDst j.d = 2) (hlive : dmaConnLive s t j.d = true) : exec (.dmaSignalSend t n) s = .next (
    if connState s (dmaConn j.d) = 5 then dmaFailJob s t j 0x12 0 0 0
    else if connState s (dmaConn j.d) ≠ 3 then s
    else connSend (s.modDma t (fun e => e.modJob j.d.uid (fun j => { j with sig := 1 }))) (dmaConn j.d)
      ⟨4, j.d.le 0x71 1, 8, t, 2, s.rdF (pConn (dmaConn j.d)) 0x108 0 20, j.d.le 0x74 1 + 256 * j.d.bf 0x70 16 12 + 2 ^ 20, toLE 8 (j.d.le 0x78 8),
        .dma t j.d.uid (2 ^ 40)⟩) := by
  have hnot : ¬ dmaSigDst j.d = 1 := by rw [hdst]; decide
  rw [exec_dmaSignalSend, execDmaSignalSend, onUnit, if_pos (by rw [decide_eq_true ht, decide_eq_true hn]; rfl), hslot]
  simp only [hon, hfail, hunsent, hmoved, hearly, hlost, if_neg hnot, hlive, Option.isSome_none, ne_eq, not_true_eq_false, decide_false, Bool.not_true, Bool.or_self,
    Bool.false_eq_true, if_false]

end

end Sys2Proof.Machine
end

section
/-! The tile DMA engine (O38). -/

namespace Sys2Proof.Machine

open Sys2Proof

/-- Settles O38, clause by clause: the intake and the slots from what each command leaves; an access from what its attempt comes to; the signals and the completion from what an engine's signal leaves. -/
theorem dmaEngine : Obligations.DmaEngine := by
  refine ⟨?intake, ?moves⟩
  case intake =>
    intro s t ht hon T p
    refine ⟨fun d rest hin hnew hrest => ⟨fun c f a k hcheck => ?fails, fun hcheck hhalt => ?halts, fun hcheck hhalt => ?passes⟩,
      fun d rest w hin hold hwait => ⟨fun hmet => ?met, fun hunmet => ?unmet, dmaSlotStart_waits hin ht hwait⟩,
      fun d rest n hin hold hwait hn hfree hlow huid => ?starts,
      fun n j cause hn hslot hfail hstalled hwaits hlate => ⟨fun hcause => ?stalls, dmaStallReport_reserved ht hn hslot⟩⟩
    case fails =>
      have hexec := dmaDescCheck_fails hin ht hon hnew hcheck
      rw [dmaFailHead_alone hin hrest] at hexec
      exact ⟨_, hexec, dmaFailHead_failed ..⟩
    case halts =>
      have hexec := dmaDescCheck_passes hin ht hon hnew hcheck
      rw [if_pos hhalt] at hexec
      exact ⟨_, hexec, dmaFailHead_failed ..⟩
    case passes =>
      have hexec := dmaDescCheck_passes hin ht hon hnew hcheck
      rw [if_neg (Bool.eq_false_iff.mp hhalt)] at hexec
      exact ⟨_, hexec, modDma_became (by rw [hin, List.tail_cons])⟩
    case met =>
      have hexec := dmaWaitSatisfied_answers hin ht hon hold hwait
      have honly := sigAcquire_only s t (d.bf 0x58 0 12) (ordScope (d.le 0x5A 1)) (engineTag t)
      rw [if_pos hmet] at hexec
      exact ⟨_, hexec, _, honly, modDma_became_after (honly.toLog.tile t) (by rw [hin, List.tail_cons])⟩
    case unmet =>
      have hexec := dmaWaitSatisfied_answers hin ht hon hold hwait
      rwa [if_neg (Nat.not_le.mpr hunmet)] at hexec
    case starts =>
      obtain ⟨hoff, -, htag⟩ := dmaSlotTaken_rd s t d n
      obtain ⟨hvalid, hqueue⟩ := dmaStarted_status s t d n
      have href : (dmaSlotTaken s t d n).ref = s.ref := by rw [dmaSlotTaken_only]; rfl
      refine ⟨_, dmaSlotStart_starts ht hon hin hold hwait hn hfree hlow, ⟨_, rfl, rfl, rfl, rfl, href, rfl, rfl, rfl, dmaStarted_tile s t d n hin huid⟩,
        ?_, hvalid, hqueue, ?_, dmaStarted_progress s t d n, fun k hk => dmaStarted_tile_ne s t d n hk, dmaStarted_regsKept s t d n, dmaStarted_state s t d n⟩
      · rw [dmaStarted_rd s t d n (by omega) (by omega), hoff]
      · rw [dmaStarted_rd s t d n (by omega) (by omega), htag]
    case stalls =>
      exact ⟨_, dmaStallReport_reports ht hn hslot hon hfail hstalled hwaits hlate hcause, dmaStallReported_tile s t n j cause, dmaStallReported_status s t j cause hn hcause,
        dmaStallReported_count s t j cause hn, dmaStallReported_flagged s t j cause hn, dmaStallReported_regsKept s t n j cause,
        (dmaStallReported_only s t n j cause).after_modTile⟩
  case moves =>
    intro s t n j ht hn hon hin hfail T p
    have hslot := slot_of_inSlot hin
    refine ⟨fun w src hstall hpos hchunk => ?access, fun hunsent hread => ⟨fun hearly => ?readSent, fun hearly => ?readWaits⟩,
      fun hunsent hmoved => ⟨dmaSignalSend_waits ht hn hin, fun hearly => ⟨fun c hlost hempty => ?lost, fun hlost => ⟨fun hdst hbound hlt => ?near,
        fun hdst hbound hempty => ?unbound, fun hdst hlive => ?remote⟩⟩⟩,
      fun rest hjobs hmoved hsig => ?done, fun k rest f hjobs hkfail hparts hkslot => ?failed⟩
    case access =>
      intro far held ahead
      have hexec := dmaAccess_attempts ht hn hon hin hfail hstall hpos hchunk
      refine ⟨fun hheld => hexec.trans (congrArg _ (dmaAttempt_barred hheld)), fun hfree => ⟨fun c f hbad hempty => ?refused, fun hgood => ⟨fun hfar hdown hempty => ?down,
        fun hfar hopen hup => ?waits, fun hahead hup => ?ahead, fun hnear b hread => ⟨fun hhome hsp => ?tile, fun hhome hsp hf => ?memory, fun hsp hopen => ?fabric⟩,
        fun c a k hnear hhome hread hempty hsound => ?unread⟩⟩⟩
      case refused => exact ⟨_, hexec.trans (congrArg _ (dmaAttempt_refused hfree hbad)), dmaFailJob_failed j c f 0 0 hempty⟩
      case down =>
        refine ⟨_, hexec.trans (congrArg _ (dmaAttempt_down hfree hgood hfar hdown)), ?_⟩
        split
        · exact dmaFailJob_lost j 0x12 0 0 0 hempty j.d
        · exact dmaFailJob_failed j 0x12 0 0 0 hempty
      case waits => exact hexec.trans (congrArg _ ((dmaAttempt_up hfree hgood fun _ => hup).1 (.inl ⟨hfar, hopen⟩)))
      case ahead => exact hexec.trans (congrArg _ ((dmaAttempt_up hfree hgood hup).1 (.inr hahead)))
      case tile =>
        have hmade := (dmaAttempt_up hfree hgood fun hfar => absurd hfar hhome).2 (fun hfar => absurd hfar hhome) hnear
        exact ⟨_, hexec.trans (congrArg _ hmade), dmaMove_tile hslot hhome hread hsp⟩
      case memory =>
        have hmade := (dmaAttempt_up hfree hgood fun hfar => absurd hfar hhome).2 (fun hfar => absurd hfar hhome) hnear
        exact ⟨_, hexec.trans (congrArg _ hmade), dmaMove_memory hslot hhome hread hsp hf⟩
      case fabric =>
        have hmade := (dmaAttempt_up hfree hgood fun _ => by rw [hopen]; decide).2 (fun _ => hopen) hnear
        exact ⟨_, hexec.trans (congrArg _ hmade), dmaHanded s t j w src, dmaMove_remote hread hsp, dmaHanded_tile s t w src hslot, dmaHanded_only s t w src hslot⟩
      case unread =>
        have hmade := (dmaAttempt_up hfree hgood fun hfar => absurd hfar hhome).2 (fun hfar => absurd hfar hhome) hnear
        exact ⟨_, hexec.trans (congrArg _ (hmade.trans (dmaMove_unread hread hsound))), dmaFailJob_failed j c 0 _ k hempty⟩
    case readSent =>
      have hexec := dmaSourceRead_answers ht hon hn hin hfail hunsent hread
      have hsent := dmaSendRd_signalled s t j
      rw [if_pos hearly] at hexec
      exact ⟨_, hexec, _, hsent, modDma_became_signalled hsent.only rfl⟩
    case readWaits =>
      have hexec := dmaSourceRead_answers ht hon hn hin hfail hunsent hread
      rwa [if_neg (Bool.eq_false_iff.mp hearly)] at hexec
    case lost => exact ⟨_, dmaSignalSend_lost ht hon hn hin hfail hunsent hmoved hearly hlost, dmaFailJob_failed j c 0 0 0 hempty⟩
    case near =>
      have hexec := dmaSignalSend_local ht hon hn hin hfail hunsent hmoved hearly hlost hdst
      have hsent := sigRelease_signalled s (j.d.le 0x74 1) (j.d.bf 0x70 16 12) (j.d.le 0x78 8) (ordScope (j.d.le 0x71 1)) (engineTag t)
      rw [if_pos hbound] at hexec
      refine ⟨_, hexec, _, hsent, ?_, fun k hk => modDma_tile_ne _ _ _ hk, rfl⟩
      rw [modDma_tile, hsent.only.dma]
    case unbound =>
      have hexec := dmaSignalSend_local ht hon hn hin hfail hunsent hmoved hearly hlost hdst
      rw [if_neg (Bool.eq_false_iff.mp hbound)] at hexec
      exact ⟨_, hexec, dmaFailJob_failed j 0x2C 0 0 0 hempty⟩
    case remote =>
      have hexec := dmaSignalSend_remote ht hon hn hin hfail hunsent hmoved hearly hlost hdst hlive
      refine ⟨fun hopen => ?_, fun hdown hempty => ?_, fun hopen hup => ?_⟩
      · rw [if_neg (by rw [hopen]; decide), if_neg (not_not_intro hopen)] at hexec
        exact ⟨_, hexec, rfl⟩
      · rw [if_pos hdown] at hexec
        exact ⟨_, hexec, dmaFailJob_failed j 0x12 0 0 0 hempty⟩
      · rwa [if_neg hup, if_pos hopen] at hexec
    case done =>
      have hready : (if j.fail.isSome then decide (j.parts = []) else j.moved && decide (j.sig = 2)) = true := by simp [hfail, hmoved, hsig]
      have hsent := dmaDoneSent_signalled s t j
      have hmarks : dmaMarks j = 0 := by rw [dmaMarks, hfail]; rfl
      rw [hmarks] at hsent
      obtain ⟨hrd, hunsent⟩ := dmaRdDone_signalled s t j
      refine ⟨_, dmaCompletion_frees ht hon hjobs hready hslot, dmaRdDone s t j, dmaDoneSent s t j, hrd, hunsent, hsent, ?_, ?_, rdF_wrF_self _ _ _ _ _ _ (by decide),
        RegsKept.trans (dmaRetired_regsKept s t j) (wrF_kept _ (pTile t) (0x518 + 16 * n) 0 2 0), rfl⟩
      · rw [tile_congr (State.wrF_tiles ..), dmaRetired_tile s t j hjobs]
      · rw [State.wrF, rd_wr_off _ _ _ (by omega) (by decide) (by omega), dmaRetired_rd]
    case failed =>
      have hready : (if k.fail.isSome then decide (k.parts = []) else k.moved && decide (k.sig = 2)) = true := by simp [hkfail, hparts]
      have hsent := dmaDoneSent_signalled s t k
      have hmarks : dmaMarks k = 2 ^ 63 := by rw [dmaMarks, hkfail]; rfl
      rw [hmarks] at hsent
      obtain ⟨hrd, -⟩ := dmaRdDone_signalled s t k
      exact ⟨_, dmaCompletion_ends ht hon hjobs hready hkslot, dmaRdDone s t k, dmaDoneSent s t k, hsent, hrd, dmaRetired_tile s t k hjobs, dmaRetired_rd s t k⟩

end Sys2Proof.Machine
end

section
/-! SUPPORT. States of a queue (09_command_queues.md R274, R275): what a change of one leaves, and which words belong to no queue. -/

namespace Sys2Proof.Machine

open Sys2Proof

/-! Words below the pages of the queues (02_register_pages.md R35). -/

theorem regKey_pQueue_ne (q a : Nat) {p : Page} {b : Nat} (h : pageBase p + b < 0xFC10000000) : regKey (pQueue q) a ≠ regKey p b := by
  unfold regKey
  simp only [pageBase, pQueue, base0] at h ⊢
  omega

/-- A write below the pages of the queues leaves their words. -/
theorem wr_below_wordsKept (s : State) (q : Nat) {p : Page} {b : Nat} (h : pageBase p + b < 0xFC10000000) (v : Nat) : WordsKept (pQueue q) s (s.wr p b v) [] :=
  ⟨fun a _ _ => by rw [rd_wr, if_neg (regKey_pQueue_ne q a h)]⟩

/-- A word below them is left by a write to a page of a queue. -/
theorem rd_wr_pQueue (s : State) (q a v : Nat) {p : Page} {b : Nat} (h : pageBase p + b < 0xFC10000000) : (s.wr (pQueue q) a v).rd p b = s.rd p b := by
  rw [rd_wr, if_neg (regKey_pQueue_ne q a h).symm]

theorem rd_raise_pQueue (s : State) (q n code queue addr : Nat) (detail : List Nat) {p : Page} {b : Nat} (h : pageBase p + b < 0xFC10000000) :
    (raise s (pQueue q) n code queue addr detail).rd p b = s.rd p b := by
  refine (raise_kept s (pQueue q) n code queue addr detail).rd ?_
  simp only [flagWords, List.forall_mem_cons]
  exact ⟨(regKey_pQueue_ne q _ h).symm, (regKey_pQueue_ne q _ h).symm, (regKey_pQueue_ne q _ h).symm, by simp⟩

/-- A set event of a queue's flag leaves the words of its page but three. -/
theorem qState_raise (s : State) (q n code queue addr : Nat) (detail : List Nat) : qState (raise s (pQueue q) n code queue addr detail) q = qState s q := by
  rw [qState, State.rdF, rd_raise (by decide) ⟨by decide, by decide, by omega⟩, ← State.rdF, ← qState]

/-! A change of state (R275, R279). -/

/-- A queue that leaves ARMED keeps no fetch in progress. -/
def QSt.stopped (x : QSt) : QSt := { x with torn := none, held := none, poolAt := none }

theorem OnlyRegs.toQs {s t : State} (h : OnlyRegs s t) : t = { s with regs := t.regs, qs := t.qs } := by
  unfold OnlyRegs at h
  rw [h]

theorem OnlyRegs.after_setQ {s t : State} {q : Nat} {x : QSt} (h : OnlyRegs (s.setQ q x) t) : t = { s with regs := t.regs, qs := t.qs } := by
  unfold OnlyRegs at h
  rw [h]
  rfl

section
variable (s : State) (q : Nat) {st : Nat}

theorem setQState_qState (hst : st < 8) : qState (setQState s q st) q = st :=
  (rdF_wrF_self _ (pQueue q) 0x14 16 3 st (by decide)).trans (Nat.mod_eq_of_lt hst)

theorem setQState_leaves (h : qState s q = 2) (hst : st ≠ 2) :
    setQState s q st = ((s.setQ q (s.q q).stopped).wr pQeng 0x200 (s.rd pQeng 0x200 - 1)).wrF (pQueue q) 0x14 16 3 st := by
  rw [setQState, if_pos ⟨h, hst⟩]
  rfl

theorem setQState_arms (h : qState s q ≠ 2) : setQState s q 2 = (s.inc pQeng 0x200 1).wrF (pQueue q) 0x14 16 3 2 := by
  rw [setQState, if_neg (fun hh => h hh.1), if_pos ⟨h, rfl⟩]

theorem setQState_regsKept (st : Nat) : RegsKept s (setQState s q st) [(pQueue q, 0x14), (pQeng, 0x200)] := by
  refine RegsKept.mono (ws := [(pQeng, 0x200), (pQueue q, 0x14)]) ?_ (List.Perm.swap _ _ []).subset
  unfold setQState
  split
  · exact (wr_kept (s.setQ q _) pQeng 0x200 (s.rd pQeng 0x200 - 1)).trans (wrF_kept _ (pQueue q) 0x14 16 3 st)
  · split
    · exact (inc_kept s pQeng 0x200 1).trans (wrF_kept _ (pQueue q) 0x14 16 3 st)
    · exact (wrF_kept s (pQueue q) 0x14 16 3 st).mono (List.subset_cons_self _ _)

theorem setQState_only (st : Nat) : setQState s q st = { s with regs := (setQState s q st).regs, qs := (setQState s q st).qs } := by
  have hst (x : State) : OnlyRegs x (x.wrF (pQueue q) 0x14 16 3 st) := wr_only x (pQueue q) 0x14 _
  unfold setQState
  split
  · exact ((wr_only (s.setQ q _) pQeng 0x200 _).trans (hst _)).after_setQ
  · split
    · exact ((wr_only s pQeng 0x200 _).trans (hst _)).toQs
    · exact (hst s).toQs

theorem setQState_log (st : Nat) : (setQState s q st).log = s.log := by rw [setQState_only]

/-- Of the page of the queue only STATUS changes. -/
theorem setQState_wordsKept (st : Nat) : WordsKept (pQueue q) s (setQState s q st) [0x14] := ⟨fun a h4 ha => by
  refine (setQState_regsKept s q st).rd ?_
  simp only [List.forall_mem_cons]
  exact ⟨regKey_ne _ h4 (by decide) (by simpa using ha), regKey_pQueue_ne q a (by decide), by simp⟩⟩

end

end Sys2Proof.Machine
end

section
/-! SUPPORT. What the work of tiles leaves of the command queues and of the network: their pages. Tiles that are powered again (16_bringup_errors_test.md R509). -/

namespace Sys2Proof.Machine

open Sys2Proof

/-- The blocks of the queues, the queue engine and the network. -/
def coreBlock : Blk → Bool
  | .queue | .qeng | .net => true
  | _ => false

/-- Their pages read as before, and so does what a queue holds beside its page. -/
structure CoreKept (s t : State) : Prop where
  qs : t.qs = s.qs
  rd : ∀ p a, coreBlock p.blk = true → pageOk p = true → a < 0x1000 → t.rd p a = s.rd p a

section
variable {o s t : State}

theorem CoreKept.refl (s : State) : CoreKept s s := ⟨rfl, fun _ _ _ _ _ => rfl⟩

theorem CoreKept.trans (h : CoreKept o s) (k : CoreKept s t) : CoreKept o t :=
  ⟨k.qs.trans h.qs, fun p a hp hok ha => (k.rd p a hp hok ha).trans (h.rd p a hp hok ha)⟩

theorem CoreKept.of_eq (h : CoreKept o s) (hregs : t.regs = s.regs) (hqs : t.qs = s.qs) : CoreKept o t :=
  h.trans ⟨hqs, fun p a _ _ _ => rd_congr hregs p a⟩

theorem CoreKept.ite {c : Prop} {_ : Decidable c} {a b : State} (ha : CoreKept o a) (hb : CoreKept o b) : CoreKept o (if c then a else b) := by
  split
  · exact ha
  · exact hb

theorem CoreKept.foldlMem {α : Type} {f : State → α → State} {l : List α} (h : CoreKept o s)
    (hf : ∀ t x, x ∈ l → CoreKept o t → CoreKept o (f t x)) : CoreKept o (l.foldl f s) := by
  induction l generalizing s with
  | nil => exact h
  | cons x l ih => exact ih (hf s x (.head l) h) fun t y hy => hf t y (.tail x hy)

/-- A word of another page is written. -/
theorem CoreKept.then_wr (h : CoreKept o s) {p : Page} (hp : pageOk p = true) (hno : coreBlock p.blk = false) {a : Nat} (ha : a < 0x1000) (v : Nat) :
    CoreKept o (s.wr p a v) :=
  h.trans ⟨rfl, fun r b hr hok hb => by rw [rd_wr, if_neg (regKey_page hok hp (fun e => by rw [e, hno] at hr; cases hr) hb ha)]⟩

theorem CoreKept.then_raise (h : CoreKept o s) {p : Page} (hp : pageOk p = true) (hno : coreBlock p.blk = false) {n : Nat} (hn : n < 32)
    (code queue addr : Nat) (detail : List Nat) : CoreKept o (raise s p n code queue addr detail) := by
  refine h.trans ⟨raise_qs .., fun r b hr hok hb => (raise_kept s p n code queue addr detail).rd fun x hx => ?_⟩
  obtain ⟨hpage, hlt, -⟩ := mem_flagWords hn hx
  rw [hpage]
  exact regKey_page hok hp (fun e => by rw [e, hno] at hr; cases hr) hb hlt

theorem CoreKept.then_modBind (h : CoreKept o s) (f : BindSt → BindSt) : CoreKept o (s.modBind f) := h.of_eq rfl rfl

theorem CoreKept.then_modPower (h : CoreKept o s) (f : PowerSt → PowerSt) : CoreKept o (s.modPower f) := h.of_eq rfl rfl

/-! Binding of a tile (13_binding_and_jobs.md R405, R413). -/

theorem pageOk_pTile {t : Nat} (ht : t < 160) : pageOk (pTile t) = true := decide_eq_true ht

/-- A word of a tile's page is written. -/
theorem CoreKept.then_wr_tile (h : CoreKept o s) {t : Nat} (ht : t < 160) {a : Nat} (ha : a < 0x1000) (v : Nat) : CoreKept o (s.wr (pTile t) a v) :=
  h.then_wr (pageOk_pTile ht) rfl ha v

theorem CoreKept.then_wrF_tile (h : CoreKept o s) {t : Nat} (ht : t < 160) {a : Nat} (ha : a < 0x1000) (lo len v : Nat) :
    CoreKept o (s.wrF (pTile t) a lo len v) := h.then_wr_tile ht ha _

theorem CoreKept.then_setBstate (h : CoreKept o s) {t : Nat} (ht : t < 160) (v : Nat) : CoreKept o (setBstate s (pTile t) v) :=
  h.then_wrF_tile ht (by decide) _ _ _

theorem CoreKept.then_bindRefuse (h : CoreKept o s) {t : Nat} (ht : t < 160) (code : Nat) : CoreKept o (bindRefuse s (pTile t) code) :=
  (h.then_wrF_tile ht (by decide) _ _ _).then_raise (pageOk_pTile ht) rfl (by simp [bindFlag, pTile]) _ _ _ _

/-- A fresh working state of a tile (R405): its bytes are zero and it runs nothing. -/
theorem resetWork_tile (s : State) (t : Nat) : resetWork s (pTile t) = (scrubTile s t).setTile t Tile.init := rfl

theorem CoreKept.then_scrub (h : CoreKept o s) (t : Nat) : CoreKept o ((scrubTile s t).setTile t Tile.init) := h.of_eq rfl rfl

theorem CoreKept.then_bindApply (h : CoreKept o s) {t : Nat} (ht : t < 160) (epoch gen : Nat) : CoreKept o (bindApply s (pTile t) epoch gen) := by
  unfold bindApply
  extract_lets s1 s2
  have hs1 : CoreKept o s1 := ((h.then_wr_tile ht (a := 0x28) (by decide) epoch).then_wr_tile ht (by decide) gen).then_wrF_tile ht (by decide) _ _ _
  have hs2 : CoreKept o s2 := by
    simp only [s2, resetWork_tile]
    exact ((hs1.then_setBstate ht 2).then_wrF_tile ht (by decide) _ _ _).then_scrub t
  exact (hs2.then_modBind _).then_raise (pageOk_pTile ht) rfl (by simp [bindFlag, pTile]) _ _ _ _

theorem CoreKept.then_genSettle (h : CoreKept o s) (gen : Nat) : CoreKept o (genSettle s gen) := by
  unfold genSettle
  split
  · next j hslot =>
    have hj : j < 16 := by
      unfold slotOf at hslot
      split at hslot
      · cases hslot
      · exact List.mem_range.mp (List.mem_of_find?_eq_some hslot)
    have hset (v : Nat) : CoreKept o (setJobState s j v) := h.then_wr (p := pHoist) (by decide) rfl (by omega) _
    exact CoreKept.ite (hset 1) (CoreKept.ite (hset 2) h)
  · exact h

theorem CoreKept.then_bindTry (h : CoreKept o s) {t : Nat} (ht : t < 160) (epoch gen : Nat) : CoreKept o (bindTry s (pTile t) epoch gen) := by
  have hheld : CoreKept o ((s.modBind (fun b => { b with holds := b.holds ++ [⟨pTile t, epoch, gen, bstate s (pTile t)⟩] })).wrF (pTile t) 0x608 3 1 1) :=
    (h.then_modBind _).then_wrF_tile ht (by decide) _ _ _
  exact CoreKept.ite (h.then_bindRefuse ht 6) (CoreKept.ite (h.then_bindRefuse ht 2) (CoreKept.ite (h.then_bindRefuse ht 3)
    (CoreKept.ite (h.then_bindRefuse ht 5) (CoreKept.ite ((CoreKept.ite hheld (hheld.then_setBstate ht 1)).then_genSettle gen)
      (CoreKept.ite (h.then_bindRefuse ht 4) (h.then_bindApply ht epoch gen))))))

theorem CoreKept.then_holdApply (h : CoreKept o s) {t : Nat} (ht : t < 160) : CoreKept o (holdApply s (pTile t)) := by
  unfold holdApply
  split
  · exact h
  · next y _ =>
    extract_lets s1 s2
    have hs1 : CoreKept o s1 := (h.then_modBind _).then_wrF_tile ht (by decide) _ _ _
    exact ((CoreKept.ite (hs1.then_setBstate ht y.prior) hs1).then_bindTry ht y.epoch y.gen).then_genSettle y.gen

theorem CoreKept.then_quarantine (h : CoreKept o s) {t : Nat} (ht : t < 160) : CoreKept o (quarantine s (pTile t)) := by
  unfold quarantine
  split
  · extract_lets s1
    have hs1 : CoreKept o s1 := by
      simp only [s1, resetWork_tile]
      exact ((h.then_setBstate ht 4).then_wrF_tile ht (by decide) _ _ _).then_scrub t
    exact hs1.then_raise (pageOk_pTile ht) rfl (by simp [bindFlag, pTile]) _ _ _ _
  · exact CoreKept.ite (h.then_scrub t) (CoreKept.ite (h.then_scrub t) h)

theorem CoreKept.then_ungate (h : CoreKept o s) {t : Nat} (ht : t < 160) : CoreKept o (ungate s t) := by
  unfold ungate
  extract_lets p s1
  have hs1 : CoreKept o s1 := by
    simp only [s1]
    split
    · exact CoreKept.ite (h.then_setBstate ht _) h
    · exact h
  exact (hs1.then_quarantine ht).then_holdApply ht

/-! The end of P1. -/

theorem CoreKept.then_railStart (h : CoreKept o s) {d : Nat} (hd : d < 4) : CoreKept o (railStart s d) := by
  have hwr {u : State} (hu : CoreKept o u) {a : Nat} (ha : a < 0x1000) (v : Nat) : CoreKept o (u.wr (pDie d) a v) :=
    hu.then_wr (decide_eq_true hd) rfl ha v
  have hrailRegs {u : State} (hu : CoreKept o u) : CoreKept o (railRegs u d) := hwr (hwr hu (a := 0x200) (by decide) _) (a := 0x210) (by decide) _
  have hset : CoreKept o ((s.modPower (fun w => { w with rails := sinsert d w.rails })).wrF (pDie d) 0x200 0 10 600) := hwr (h.then_modPower _) (by decide) _
  exact hrailRegs (hset.then_modPower _)

theorem leaveP1_coreKept (s : State) : CoreKept s (leaveP1 s) := by
  refine CoreKept.ite ?_ (.refl s)
  have hp0 : CoreKept s (s.wrF pErrlog 0x220 4 2 0) := (CoreKept.refl s).then_wr (by decide) rfl (by decide) _
  have hrails : CoreKept s (railsOn (s.wrF pErrlog 0x220 4 2 0)) :=
    hp0.foldlMem fun _ d hd hu => CoreKept.ite hu (hu.then_railStart (List.mem_range.mp hd))
  refine hrails.foldlMem fun _ t ht hu => CoreKept.ite (hu.then_ungate ?_) hu
  exact List.mem_range.mp (List.mem_filter.mp ht).1

end

theorem leaveP1_eq_self {s : State} (h : powerState s ≠ 1) : leaveP1 s = s := if_neg h

end Sys2Proof.Machine
end

section
/-! SUPPORT. Doorbells, arming and stopping of queues (09_command_queues.md R274-R278, R286, R287). -/

namespace Sys2Proof.Machine

open Sys2Proof

theorem wr_onlyWord (s : State) (p : Page) (a v : Nat) : OnlyWords s (s.wr p a v) [(p, a)] := ⟨wr_kept s p a v, wr_only s p a v⟩

theorem inc_onlyWord (s : State) (p : Page) (a n : Nat) : OnlyWords s (s.inc p a n) [(p, a)] := wr_onlyWord s p a _

theorem rd_inc_self (s : State) (p : Page) (a n : Nat) : (s.inc p a n).rd p a = (s.rd p a + n) % 2 ^ 32 := rd_wr_self s p a _

section
variable {s : State} {q : Nat}

theorem exec_doorbell_served (hq : q < 16384) (hup : served s = true) (d : BitVec 32) : exec (.doorbell q d) s = .next (ringQueue s q d.toNat) := by
  change onUnit _ (if served s then _ else s) = _
  rw [if_pos hup, onUnit, if_pos (decide_eq_true hq)]

theorem exec_queueArm_served (hq : q < 16384) (hup : served s = true) :
    exec (.queueArm q) s = .next (if qState (armQueue s q) q = 2 then leaveP1 (armQueue s q) else armQueue s q) := by
  change onUnit _ (if served s then _ else s) = _
  rw [if_pos hup, onUnit, if_pos (decide_eq_true hq)]

theorem exec_queueStop_served (hq : q < 16384) (hup : served s = true) :
    exec (.queueStop q) s = .next (if qState s q = 2 then setQState s q 3 else s) := by
  change onUnit _ (if served s && decide (qState s q = 2) then _ else s) = _
  simp [hup, onUnit, hq]

theorem exec_cqHeadWrite_served (hq : q < 16384) (hup : served s = true) (v : BitVec 32) :
    exec (.cqHeadWrite q v) s = .next (if 1 ≤ diff32 v.toNat (s.rd (pQueue q) 0x20C) ∧ diff32 v.toNat (s.rd (pQueue q) 0x20C) ≤ 2 ^ 31
      then illegalWrite s (pQueue q) else s.wr (pQueue q) 0x208 v.toNat) := by
  change onUnit _ (if (!served s) = true then s else _) = _
  rw [if_neg (by simp [hup]), onUnit, if_pos (decide_eq_true hq)]

/-! What a doorbell value does, case by case. -/

/-- A value beyond the ring (R287): QF holds DOORBELL_OVERRUN and its flag is set. -/
def overrunNoted (s : State) (q : Nat) : State :=
  raise (latchQF s q 0x37 (s.rd (pQueue q) 0x204) 0) (pQueue q) 13 0x37 q (s.rd (pQueue q) 0x204) [0x37 + 2 ^ 31, s.rd (pQueue q) 0x204, 0, 0]

variable {d : Nat}

theorem ringQueue_stale (h : qState s q = 0 ∨ s.quarantined (pQueue q) = true) : ringQueue s q d = s.inc (pQueue q) 0x708 1 := if_pos h

theorem ringQueue_bound (h : ¬ (qState s q = 0 ∨ s.quarantined (pQueue q) = true)) :
    ringQueue s q d = if qState s q = 5 then s
      else if diff32 d (s.rd (pQueue q) 0x200) = 0 then s
      else if 2 ^ 31 ≤ diff32 d (s.rd (pQueue q) 0x200) then s.inc (pQueue q) 0x21C 1
      else if qEntries s q < diff32 d (s.rd (pQueue q) 0x204) then
        if qState s q = 2 then setQState (overrunNoted s q) q 3 else overrunNoted s q
      else s.wr (pQueue q) 0x200 d := if_neg h

theorem latchQF_only (s : State) (q code pos detail : Nat) : OnlyRegs s (latchQF s q code pos detail) := by
  unfold latchQF
  extract_lets p
  split
  · exact wr_only ..
  · exact ((wr_only ..).trans (wr_only ..)).trans (wr_only ..)

theorem latchQF_wordsKept (s : State) (q code pos detail : Nat) : WordsKept (pQueue q) s (latchQF s q code pos detail) [0x220, 0x224, 0x228, 0x22C] := by
  unfold latchQF
  extract_lets p
  split
  · exact (inc_wordsKept s (by decide) 1).mono (by decide)
  · exact (((wr_wordsKept s (by decide) _).trans (wr_wordsKept _ (by decide) pos)).trans (wr_wordsKept _ (by decide) detail)).mono (by decide)

theorem overrunNoted_only (s : State) (q : Nat) : OnlyRegsLog s (overrunNoted s q) := (latchQF_only ..).toLog.trans (raise_only ..)

theorem overrunNoted_wordsKept (s : State) (q : Nat) : WordsKept (pQueue q) s (overrunNoted s q) [0x220, 0x224, 0x228, 0x22C, 0x18, 0x7B4, 0x1C] :=
  (latchQF_wordsKept ..).trans (raise_wordsKept ..)

theorem overrunNoted_flag (s : State) (q : Nat) : (overrunNoted s q).rdB (pQueue q) 0x18 13 = true := raise_rdB_self _ _ _ _ _ _ _ (by decide)

theorem overrunNoted_qState (s : State) (q : Nat) : qState (overrunNoted s q) q = qState s q := by
  rw [qState, qState, State.rdF, State.rdF, (overrunNoted_wordsKept s q).rd 0x14 (by decide) (by decide)]

/-- A free latch takes the fault and the position of HEAD. -/
theorem overrunNoted_latch (h : s.rdB (pQueue q) 0x220 31 = false) :
    (overrunNoted s q).rd (pQueue q) 0x220 = 0x37 + 2 ^ 31 ∧ (overrunNoted s q).rd (pQueue q) 0x224 = s.rd (pQueue q) 0x204 := by
  obtain ⟨-, -, -, -, hlatch⟩ := latchQF_leaves s q 0x37 (s.rd (pQueue q) 0x204) 0
  obtain ⟨hcode, hpos, -⟩ := hlatch h
  rw [overrunNoted, rd_raise (by decide) (by decide), rd_raise (by decide) (by decide), hcode, hpos, Nat.mod_eq_of_lt (rd_lt ..)]
  exact ⟨rfl, rfl⟩

/-- A stop of an ARMED queue, and nothing otherwise, leaves the words of its page but STATUS. -/
theorem setQState_if (u : State) (q st : Nat) (c : Prop) [Decidable c] {t : State} (ht : t = if c then setQState u q st else u) :
    WordsKept (pQueue q) u t [0x14] ∧ t = { u with regs := t.regs, qs := t.qs } := by
  rw [ht]
  split
  · exact ⟨setQState_wordsKept .., setQState_only ..⟩
  · exact ⟨(WordsKept.of_regs rfl).mono (List.nil_subset _), rfl⟩

/-- The queue after an overrun: stopped where it was ARMED. -/
theorem overrun_outcome (s : State) (q : Nat) {t : State} (ht : t = if qState s q = 2 then setQState (overrunNoted s q) q 3 else overrunNoted s q) :
    t.rd (pQueue q) 0x200 = s.rd (pQueue q) 0x200 ∧ t.rdB (pQueue q) 0x18 13 = true
    ∧ (s.rdB (pQueue q) 0x220 31 = false → t.rd (pQueue q) 0x220 = 0x37 + 2 ^ 31 ∧ t.rd (pQueue q) 0x224 = s.rd (pQueue q) 0x204)
    ∧ qState t q = (if qState s q = 2 then 3 else qState s q) ∧ t = { s with regs := t.regs, log := t.log, qs := t.qs } := by
  have honly := overrunNoted_only s q
  obtain ⟨hwords, honlyQs⟩ := setQState_if _ _ _ _ ht
  refine ⟨?_, ?_, fun hfree => ?_, ?_, ?_⟩
  · rw [hwords.rd _ (by decide) (by decide), (overrunNoted_wordsKept s q).rd _ (by decide) (by decide)]
  · rw [hwords.rdB (by decide) (by decide), overrunNoted_flag]
  · rw [hwords.rd _ (by decide) (by decide), hwords.rd _ (by decide) (by decide)]
    exact overrunNoted_latch hfree
  · rw [ht]
    split
    · exact setQState_qState _ _ (by decide)
    · exact overrunNoted_qState s q
  · unfold OnlyRegsLog at honly
    rw [honlyQs, honly]

/-! The doorbell block (R286). -/

/-- What a block has been written bears on no fault of its bytes. -/
theorem memFault_dbWritten (s : State) (l : List Nat) (a n : Nat) : memFault { s with mem := { s.mem with dbWritten := l } } a n = memFault s a n := rfl

theorem served_congr {s t : State} (hup : t.up = s.up) (hregs : t.regs = s.regs) : served t = served s := by
  rw [served, served, State.rdF, State.rdF, rd_congr hregs, hup]

theorem doorbellBlock_read {w : Nat} (hq : q < 16384) (hwatch : s.mem.watch.find? (fun w => decide (w.1 = q)) = some (q, w)) (halive : alive s = true)
    (hwritten : q ∈ s.mem.dbWritten) (hopen : memHeld s .qeng (64 * w) 4 = false) (hok : memFault s (64 * w) 4 = none) :
    exec (.doorbellBlockWrite q) s = .next (ringQueue (sliceTouch { s with mem := { s.mem with dbWritten := sremove q s.mem.dbWritten } } .qeng (64 * w) 4 false)
      q (s.hnat (64 * w) 4)) := by
  have hread := (memRead_spec { s with mem := { s.mem with dbWritten := sremove q s.mem.dbWritten } } .qeng (64 * w) 4).1 hok
  have hgo : (!alive s || !s.mem.dbWritten.contains q || memHeld s .qeng (64 * w) 4) = false := by simp [halive, hopen, hwritten]
  change execDoorbellBlockWrite q s = _
  unfold execDoorbellBlockWrite
  rw [hwatch]
  dsimp only
  rw [hgo, if_neg Bool.false_ne_true, hread, onUnit, if_pos (decide_eq_true hq)]
  rfl

theorem doorbellBlock_idle {w : Nat} (hq : q < 16384) (hwatch : s.mem.watch.find? (fun w => decide (w.1 = q)) = some (q, w))
    (hwritten : q ∉ s.mem.dbWritten) : Idle (.doorbellBlockWrite q) s := by
  change execDoorbellBlockWrite q s = _
  unfold execDoorbellBlockWrite
  rw [hwatch]
  simp [onUnit, hq, hwritten]

/-! Arming (R276). -/

/-- The positions that an arm sets. -/
def armPlaced (s : State) (q : Nat) : State :=
  let s1 := (s.setQ q { s.q q with held := none, torn := none, poolAt := none, lost := none }).wr (pQueue q) 0x204 (s.rd (pQueue q) 0x210)
  if qEntries s q < diff32 (s.rd (pQueue q) 0x200) (s.rd (pQueue q) 0x210) then s1.wr (pQueue q) 0x200 (s.rd (pQueue q) 0x210) else s1

theorem armQueue_armed (h : (qState s q = 1 ∨ qState s q = 3 ∨ qState s q = 4) ∧ s.rdB (pQueue q) 0x10 0 = true ∧ s.swapPending (pQueue q) = false) :
    armQueue s q = setQState (armPlaced s q) q 2 := if_pos h

theorem armQueue_refused (h : ¬ ((qState s q = 1 ∨ qState s q = 3 ∨ qState s q = 4) ∧ s.rdB (pQueue q) 0x10 0 = true ∧ s.swapPending (pQueue q) = false)) :
    armQueue s q = raise s (pQueue q) 14 0 q := if_neg h

theorem armPlaced_only (s : State) (q : Nat) :
    OnlyRegs (s.setQ q { s.q q with held := none, torn := none, poolAt := none, lost := none }) (armPlaced s q) := by
  unfold armPlaced
  split
  · exact (wr_only ..).trans (wr_only ..)
  · exact wr_only ..

theorem armPlaced_regsKept (s : State) (q : Nat) : RegsKept s (armPlaced s q) [(pQueue q, 0x204), (pQueue q, 0x200)] := by
  have hhead : RegsKept s ((s.setQ q { s.q q with held := none, torn := none, poolAt := none, lost := none }).wr (pQueue q) 0x204 (s.rd (pQueue q) 0x210))
    [(pQueue q, 0x204)] := wr_kept (s.setQ q { s.q q with held := none, torn := none, poolAt := none, lost := none }) (pQueue q) 0x204 (s.rd (pQueue q) 0x210)
  unfold armPlaced
  split
  · exact hhead.trans (wr_kept _ _ _ _)
  · exact hhead.mono (List.cons_subset_cons _ (List.nil_subset _))

theorem armPlaced_head (s : State) (q : Nat) : (armPlaced s q).rd (pQueue q) 0x204 = s.rd (pQueue q) 0x210 := by
  unfold armPlaced
  split
  · rw [rd_wr_off _ _ _ (by decide) (by decide) (by decide), rd_wr_self, Nat.mod_eq_of_lt (rd_lt ..)]
  · rw [rd_wr_self, Nat.mod_eq_of_lt (rd_lt ..)]

theorem armPlaced_doorbell (s : State) (q : Nat) : (armPlaced s q).rd (pQueue q) 0x200 =
    if diff32 (s.rd (pQueue q) 0x200) (s.rd (pQueue q) 0x210) ≤ qEntries s q then s.rd (pQueue q) 0x200 else s.rd (pQueue q) 0x210 := by
  unfold armPlaced
  split
  · next h => rw [rd_wr_self, Nat.mod_eq_of_lt (rd_lt ..), if_neg (by omega)]
  · next h => rw [rd_wr_off _ _ _ (by decide) (by decide) (by decide), if_pos (by omega)]; rfl

/-- Another word of the queue's page reads as before. -/
theorem armPlaced_rd (s : State) (q : Nat) {a : Nat} (h4 : a % 4 = 0) (hne : a ≠ 0x204 ∧ a ≠ 0x200) : (armPlaced s q).rd (pQueue q) a = s.rd (pQueue q) a := by
  refine (armPlaced_regsKept s q).rd ?_
  simp only [List.forall_mem_cons]
  exact ⟨regKey_ne _ h4 (by decide) hne.1, regKey_ne _ h4 (by decide) hne.2, by simp⟩

theorem armPlaced_active (s : State) (q : Nat) : (armPlaced s q).rd pQeng 0x200 = s.rd pQeng 0x200 := by
  refine (armPlaced_regsKept s q).rd ?_
  simp only [List.forall_mem_cons]
  exact ⟨(regKey_pQueue_ne q _ (by decide)).symm, (regKey_pQueue_ne q _ (by decide)).symm, by simp⟩

theorem armPlaced_qs (s : State) (q : Nat) : (armPlaced s q).qs = (s.setQ q { s.q q with held := none, torn := none, poolAt := none, lost := none }).qs := by
  have h := armPlaced_only s q
  unfold OnlyRegs at h
  rw [h]

/-- An arm from another state counts one queue more as ARMED. -/
theorem armed_active {u : State} (h : qState u q ≠ 2) : (setQState u q 2).rd pQeng 0x200 = (u.rd pQeng 0x200 + 1) % 2 ^ 32 := by
  rw [setQState_arms u q h, State.wrF, rd_wr_pQueue _ _ _ _ (by decide), rd_inc_self]

theorem armed_qs {u : State} (h : qState u q ≠ 2) : (setQState u q 2).qs = u.qs := by
  rw [setQState_arms u q h, State.wrF, State.inc, State.wr_qs, State.wr_qs]

end

/-! The cases of the statement. -/

section
variable {s : State} {q : Nat} (hq : q < 16384) (hup : served s = true)

include hq hup

theorem doorbell_cases (d : BitVec 32) :
    (qState s q = 0 ∨ s.quarantined (pQueue q) = true → Completes (.doorbell q d) s (fun t =>
      t.rd (pQueue q) 0x708 = (s.rd (pQueue q) 0x708 + 1) % 2 ^ 32 ∧ OnlyWords s t [(pQueue q, 0x708)]))
    ∧ (qState s q = 5 → s.quarantined (pQueue q) = false → Idle (.doorbell q d) s)
    ∧ (1 ≤ qState s q ∧ qState s q ≤ 4 → s.quarantined (pQueue q) = false →
        (diff32 d.toNat (s.rd (pQueue q) 0x200) = 0 → Idle (.doorbell q d) s)
        ∧ (2 ^ 31 ≤ diff32 d.toNat (s.rd (pQueue q) 0x200) → Completes (.doorbell q d) s (fun t =>
            t.rd (pQueue q) 0x21C = (s.rd (pQueue q) 0x21C + 1) % 2 ^ 32 ∧ OnlyWords s t [(pQueue q, 0x21C)]))
        ∧ (1 ≤ diff32 d.toNat (s.rd (pQueue q) 0x200) ∧ diff32 d.toNat (s.rd (pQueue q) 0x200) < 2 ^ 31 →
            diff32 d.toNat (s.rd (pQueue q) 0x204) ≤ qEntries s q → Completes (.doorbell q d) s (fun t =>
            t.rd (pQueue q) 0x200 = d.toNat ∧ OnlyWords s t [(pQueue q, 0x200)]))
        ∧ (1 ≤ diff32 d.toNat (s.rd (pQueue q) 0x200) ∧ diff32 d.toNat (s.rd (pQueue q) 0x200) < 2 ^ 31 →
            qEntries s q < diff32 d.toNat (s.rd (pQueue q) 0x204) → Completes (.doorbell q d) s (fun t =>
            t.rd (pQueue q) 0x200 = s.rd (pQueue q) 0x200 ∧ t.rdB (pQueue q) 0x18 13 = true
            ∧ (s.rdB (pQueue q) 0x220 31 = false → t.rd (pQueue q) 0x220 = 0x37 + 2 ^ 31 ∧ t.rd (pQueue q) 0x224 = s.rd (pQueue q) 0x204)
            ∧ qState t q = (if qState s q = 2 then 3 else qState s q) ∧ t = { s with regs := t.regs, log := t.log, qs := t.qs }))) := by
  have hring := exec_doorbell_served hq hup d
  refine ⟨fun hstale => ⟨_, hring, ?_⟩, fun h5 hqn => ?_, fun ⟨h1, h4⟩ hqn => ?_⟩
  · rw [ringQueue_stale hstale]
    exact ⟨rd_inc_self .., inc_onlyWord ..⟩
  · rw [ringQueue_bound (by simp [h5, hqn]), if_pos h5] at hring
    exact hring
  · rw [ringQueue_bound (by simp [hqn]; omega), if_neg (by omega)] at hring
    refine ⟨fun hsame => ?_, fun hback => ?_, fun ⟨hf, hl⟩ hin => ?_, fun ⟨hf, hl⟩ hout => ?_⟩
    · rw [if_pos hsame] at hring
      exact hring
    · rw [if_neg (by omega), if_pos hback] at hring
      exact ⟨_, hring, rd_inc_self .., inc_onlyWord ..⟩
    · rw [if_neg (by omega), if_neg (by omega), if_neg (by omega)] at hring
      exact ⟨_, hring, (rd_wr_self ..).trans (Nat.mod_eq_of_lt d.isLt), wr_onlyWord ..⟩
    · rw [if_neg (by omega), if_neg (by omega), if_pos hout] at hring
      exact ⟨_, hring, overrun_outcome s q rfl⟩

theorem queueArm_arms (hst : qState s q = 1 ∨ qState s q = 3 ∨ qState s q = 4) (hen : s.rdB (pQueue q) 0x10 0 = true) (hswap : s.swapPending (pQueue q) = false) :
    Completes (.queueArm q) s (fun t => qState t q = 2 ∧ t.rd (pQueue q) 0x204 = s.rd (pQueue q) 0x210 ∧ t.rd pQeng 0x200 = (s.rd pQeng 0x200 + 1) % 2 ^ 32
      ∧ t.rd (pQueue q) 0x200 = (if diff32 (s.rd (pQueue q) 0x200) (s.rd (pQueue q) 0x210) ≤ qEntries s q then s.rd (pQueue q) 0x200 else s.rd (pQueue q) 0x210)
      ∧ t.rd (pQueue q) 0x20C = s.rd (pQueue q) 0x20C ∧ (t.q q).seq = (s.q q).seq
      ∧ (powerState s ≠ 1 → RegsKept s t [(pQueue q, 0x204), (pQueue q, 0x200), (pQueue q, 0x14), (pQeng, 0x200)]
          ∧ t.q q = { s.q q with held := none, torn := none, poolAt := none, lost := none }
          ∧ (∀ k, k ≠ q → t.q k = s.q k) ∧ t = { s with regs := t.regs, qs := t.qs })) := by
  have harm := armQueue_armed ⟨hst, hen, hswap⟩
  have hexec := exec_queueArm_served hq hup
  rw [harm, if_pos (setQState_qState _ _ (by decide))] at hexec
  have hbefore : qState (armPlaced s q) q ≠ 2 := by
    rw [qState, State.rdF, armPlaced_rd s q (by decide) (by decide), ← State.rdF, ← qState]
    omega
  have hwords := setQState_wordsKept (armPlaced s q) q 2
  have hwake := leaveP1_coreKept (setQState (armPlaced s q) q 2)
  have hpage (a : Nat) (ha : a < 0x1000) : (leaveP1 (setQState (armPlaced s q) q 2)).rd (pQueue q) a = (setQState (armPlaced s q) q 2).rd (pQueue q) a :=
    hwake.rd _ _ rfl (pageOk_pQueue hq) ha
  have hqs : (leaveP1 (setQState (armPlaced s q) q 2)).qs = (s.setQ q { s.q q with held := none, torn := none, poolAt := none, lost := none }).qs := by
    rw [hwake.qs, armed_qs hbefore, armPlaced_qs]
  have hself : (leaveP1 (setQState (armPlaced s q) q 2)).q q = { s.q q with held := none, torn := none, poolAt := none, lost := none } := by
    rw [State.q, hqs, State.setQ, fget_fset_self]
  refine ⟨_, hexec, ?_, ?_, ?_, ?_, ?_, ?_, fun hp => ?_⟩
  · rw [qState, State.rdF, hpage _ (by decide), ← State.rdF, ← qState, setQState_qState _ _ (by decide)]
  · rw [hpage _ (by decide), hwords.rd _ (by decide) (by decide), armPlaced_head]
  · rw [hwake.rd _ _ rfl (by decide) (by decide), armed_active hbefore, armPlaced_active]
  · rw [hpage _ (by decide), hwords.rd _ (by decide) (by decide), armPlaced_doorbell]
  · rw [hpage _ (by decide), hwords.rd _ (by decide) (by decide), armPlaced_rd s q (by decide) (by decide)]
  · rw [hself]
  · have hregs : RegsKept s (setQState (armPlaced s q) q 2) [(pQueue q, 0x204), (pQueue q, 0x200), (pQueue q, 0x14), (pQeng, 0x200)] :=
      (armPlaced_regsKept s q).trans (setQState_regsKept _ _ _)
    have hpow : powerState (setQState (armPlaced s q) q 2) = powerState s := by
      rw [powerState, powerState, State.rdF, State.rdF, hregs.rd]
      simp only [List.forall_mem_cons]
      exact ⟨(regKey_pQueue_ne q _ (by decide)).symm, (regKey_pQueue_ne q _ (by decide)).symm, (regKey_pQueue_ne q _ (by decide)).symm, by decide, by simp⟩
    rw [leaveP1_eq_self (by rwa [hpow])] at hself hqs ⊢
    refine ⟨hregs, hself, fun k hk => ?_, ?_⟩
    · rw [State.q, hqs, State.setQ, fget_fset_ne _ _ _ hk, ← State.q]
    · exact (setQState_only (armPlaced s q) q 2).trans (by rw [(armPlaced_only s q).after_setQ])

theorem queueArm_refuses (h : (qState s q ≠ 1 ∧ qState s q ≠ 3 ∧ qState s q ≠ 4) ∨ s.rdB (pQueue q) 0x10 0 = false ∨ s.swapPending (pQueue q) = true)
    (h2 : qState s q ≠ 2) : Completes (.queueArm q) s (fun t => OneFlag s t (pQueue q) 14) := by
  have harm : armQueue s q = raise s (pQueue q) 14 0 q := armQueue_refused (by
    rintro ⟨hst, hen, hswap⟩
    rw [hen, hswap] at h
    simp only [Bool.true_eq_false, Bool.false_eq_true, or_false] at h
    omega)
  refine ⟨_, exec_queueArm_served hq hup, ?_⟩
  rw [harm, if_neg (by rwa [qState_raise])]
  exact raise_oneFlag _ _ _ _ _ _ _ (by decide)

theorem queueStop_stops (h : qState s q = 2) : Completes (.queueStop q) s (fun t => qState t q = 3 ∧ (t.q q).torn = none ∧ (t.q q).held = none
    ∧ RegsKept s t [(pQueue q, 0x14), (pQeng, 0x200)] ∧ t = { s with regs := t.regs, qs := t.qs }) := by
  have hself : (setQState s q 3).q q = (s.q q).stopped := by
    rw [setQState_leaves s q h (by decide), State.q, State.wrF, State.wr_qs, State.wr_qs, State.setQ, fget_fset_self]
  have hexec := exec_queueStop_served hq hup
  rw [if_pos h] at hexec
  exact ⟨_, hexec, setQState_qState _ _ (by decide), by rw [hself]; rfl, by rw [hself]; rfl, setQState_regsKept _ _ _, setQState_only ..⟩

theorem cqHeadWrite_cases (v : BitVec 32) :
    (1 ≤ diff32 v.toNat (s.rd (pQueue q) 0x20C) ∧ diff32 v.toNat (s.rd (pQueue q) 0x20C) ≤ 2 ^ 31 → Completes (.cqHeadWrite q v) s (fun t => OneFlag s t (pQueue q) 2))
    ∧ (¬ (1 ≤ diff32 v.toNat (s.rd (pQueue q) 0x20C) ∧ diff32 v.toNat (s.rd (pQueue q) 0x20C) ≤ 2 ^ 31) →
      Completes (.cqHeadWrite q v) s (fun t => t.rd (pQueue q) 0x208 = v.toNat ∧ OnlyWords s t [(pQueue q, 0x208)])) := by
  refine ⟨fun h => ⟨_, exec_cqHeadWrite_served hq hup v, ?_⟩, fun h => ⟨_, exec_cqHeadWrite_served hq hup v, ?_⟩⟩
  · rw [if_pos h]
    exact raise_oneFlag _ _ _ _ _ _ _ (by decide)
  · rw [if_neg h]
    exact ⟨(rd_wr_self ..).trans (Nat.mod_eq_of_lt v.isLt), wr_onlyWord ..⟩

theorem doorbellBlock_cases (w : Nat) (hwatch : s.mem.watch.find? (fun w => decide (w.1 = q)) = some (q, w)) (halive : alive s = true) :
    (q ∈ s.mem.dbWritten → memHeld s .qeng (64 * w) 4 = false → memFault s (64 * w) 4 = none → Completes (.doorbellBlockWrite q) s (fun t =>
      exec (.doorbell q (BitVec.ofNat 32 (s.hnat (64 * w) 4)))
        (sliceTouch { s with mem := { s.mem with dbWritten := sremove q s.mem.dbWritten } } .qeng (64 * w) 4 false) = .next t))
    ∧ (q ∉ s.mem.dbWritten → Idle (.doorbellBlockWrite q) s) := by
  refine ⟨fun hwritten hopen hok => ⟨_, doorbellBlock_read hq hwatch halive hwritten hopen hok, ?_⟩, doorbellBlock_idle hq hwatch⟩
  have hring := exec_doorbell_served hq ((served_congr (t := sliceTouch { s with mem := { s.mem with dbWritten := sremove q s.mem.dbWritten } }
    .qeng (64 * w) 4 false) rfl rfl).trans hup) (BitVec.ofNat 32 (s.hnat (64 * w) 4))
  rwa [BitVec.toNat_ofNat, Nat.mod_eq_of_lt (hnat_lt s (64 * w) 4)] at hring

end

/-- Settles O40: each of the four commands by the cases of its definition; an arm that wakes the module from P1 leaves the words of the queues. -/
theorem queueControl : Obligations.QueueControl := by
  unfold Obligations.QueueControl
  intro s q hq hup
  refine ⟨doorbell_cases hq hup, doorbellBlock_cases hq hup, queueArm_arms hq hup,
    queueArm_refuses hq hup, queueStop_stops hq hup, fun h2 => ?_, cqHeadWrite_cases hq hup⟩
  have hexec := exec_queueStop_served hq hup
  rwa [if_neg h2] at hexec

end Sys2Proof.Machine
end

section
/-! SUPPORT. What work of a tile leaves of the pages of the network (16_bringup_errors_test.md R507 and the losses of 09_command_queues.md R299): faults of its blocks and of its transfers. -/

namespace Sys2Proof.Machine

open Sys2Proof

section
variable {o s : State} {t : Nat} (h : CoreKept o s) (ht : t < 160)

include h

theorem CoreKept.then_modTile (f : Tile → Tile) : CoreKept o (s.modTile t f) := h.of_eq rfl rfl

theorem CoreKept.then_modDma (f : DmaEng → DmaEng) : CoreKept o (s.modDma t f) := h.of_eq rfl rfl

theorem CoreKept.then_cmdFault (uid : Nat) (f : CmdFault) : CoreKept o (cmdFault s uid f) := h.of_eq rfl rfl

theorem CoreKept.then_freeNext : CoreKept o s.freeNext := h.of_eq rfl rfl

include ht

theorem CoreKept.then_raise_tile {n : Nat} (hn : n < 32) (code queue addr : Nat) (detail : List Nat) : CoreKept o (raise s (pTile t) n code queue addr detail) :=
  h.then_raise (pageOk_pTile ht) rfl hn code queue addr detail

theorem CoreKept.then_latchGF (code grp lanes pc block addr queue : Nat) : CoreKept o (latchGF s t code grp lanes pc block addr queue) := by
  unfold latchGF
  extract_lets p
  split
  · exact h.then_wr_tile ht (by decide) _
  · exact (((((((h.then_wr_tile ht (a := 0x210) (by decide) _).then_wr_tile ht (a := 0x214) (by decide) _).then_wr_tile ht (a := 0x218) (by decide) _).then_wr_tile ht
      (a := 0x21C) (by decide) _).then_wr_tile ht (a := 0x220) (by decide) _).then_wr_tile ht (a := 0x224) (by decide) _)).then_wr_tile ht (a := 0x228) (by decide) _

theorem CoreKept.then_blockFault (b : Block) (code grp lanes pc addr : Nat) : CoreKept o (blockFault s t b code grp lanes pc addr) := by
  have hcount : CoreKept o (tileNumFault s t code) := CoreKept.ite (h.then_wr_tile ht (by decide) _) h
  rw [blockFault_eq]
  exact ((((hcount.then_latchGF ht ..).then_raise_tile ht (by decide) ..).then_cmdFault ..).then_modTile _).then_wr_tile ht (by decide) _

theorem CoreKept.then_latchEng {info lost : Nat} (hlost : lost < 0x1000) {words : List (Nat × Nat)} (hwords : ∀ w ∈ words, w.1 < 0x1000) :
    CoreKept o (latchEng s t info lost words) := by
  unfold latchEng
  extract_lets p
  exact CoreKept.ite (h.then_wr_tile ht hlost _) (h.foldlMem fun _ w hw hu => hu.then_wr_tile ht (hwords w hw) _)

theorem CoreKept.then_dmaFault (d : Desc) (code field addr kind prog : Nat) : CoreKept o (dmaFault s t d code field addr kind prog) := by
  have hlatched : CoreKept o (dmaNoted s t d code field addr kind prog) :=
    ((h.then_latchEng ht (by decide) (by simp [dmaLatched])).then_raise_tile ht (by decide) ..).then_cmdFault ..
  rcases dmaFault_cases s t d code field addr kind prog with heq | ⟨b, heq⟩
  · rw [heq]
    exact hlatched
  · rw [heq]
    exact (hlatched.then_modDma _).then_raise_tile ht (by decide) ..

theorem CoreKept.then_dmaAbortWaiting : CoreKept o (dmaAbortWaiting s t) := by
  unfold dmaAbortWaiting
  split
  · exact CoreKept.ite ((h.then_dmaFault ht ..).then_modDma _) h
  · exact h

theorem CoreKept.then_dmaFailJob (j : DmaJob) (code field addr kind : Nat) : CoreKept o (dmaFailJob s t j code field addr kind) := by
  rw [dmaFailJob_eq]
  exact ((h.then_dmaFault ht ..).then_modDma _).then_dmaAbortWaiting ht

omit ht in
theorem CoreKept.then_dmaWriteLost (d : Desc) (code : Nat) : CoreKept o (dmaWriteLost s t d code) := by
  unfold dmaWriteLost
  split
  · exact h.then_modDma _
  · exact h

theorem CoreKept.then_xcFailDma : CoreKept o (xcFailDma s t) :=
  h.foldlMem fun _ j _ hu => CoreKept.ite hu (CoreKept.ite
    ((CoreKept.ite (hu.then_freeNext.then_dmaWriteLost j.d 0x11) hu.then_freeNext).then_dmaFailJob ht ..) hu.then_freeNext)

theorem CoreKept.then_xcFailBlocks : CoreKept o (xcFailBlocks s t) :=
  h.foldlMem fun u _ _ hu =>
    have hfree : CoreKept o u.freeNext.freeNext.freeNext.freeNext := hu.then_freeNext.then_freeNext.then_freeNext.then_freeNext
    CoreKept.ite (hfree.then_blockFault ht ..) hfree

end

/-! Nothing but tiles, their registers, commands and free values changes. -/

def OnlyTileLoss (s t : State) : Prop := t = { s with regs := t.regs, log := t.log, tiles := t.tiles, cmds := t.cmds, free := t.free }

theorem OnlyTileLoss.trans {s t u : State} (h : OnlyTileLoss s t) (k : OnlyTileLoss t u) : OnlyTileLoss s u := by
  unfold OnlyTileLoss at *
  rw [k, h]

theorem OnlyTileWork.toLoss {s t : State} (h : OnlyTileWork s t) : OnlyTileLoss s t := by
  unfold OnlyTileWork at h
  rw [h]
  rfl

theorem OnlyTileLoss.foldl {α : Type} {f : State → α → State} (hf : ∀ u x, OnlyTileLoss u (f u x)) (l : List α) (s : State) : OnlyTileLoss s (l.foldl f s) := by
  induction l generalizing s with
  | nil => rfl
  | cons x l ih => exact (hf s x).trans (ih _)

section
variable (s : State) (t : Nat)

theorem freeNext_loss : OnlyTileLoss s s.freeNext := rfl

theorem modDma_only (f : DmaEng → DmaEng) : OnlyTileWork s (s.modDma t f) := rfl

theorem dmaFault_only (d : Desc) (code field addr kind prog : Nat) : OnlyTileWork s (dmaFault s t d code field addr kind prog) := by
  obtain ⟨-, -, -, -, honly, -⟩ := dmaFault_faulted s t d code field addr kind prog
  exact honly

theorem dmaAbortWaiting_only : OnlyTileWork s (dmaAbortWaiting s t) := by
  unfold dmaAbortWaiting
  split
  · split
    · exact (dmaFault_only ..).trans (modDma_only ..)
    · rfl
  · rfl

theorem dmaFailJob_only (j : DmaJob) (code field addr kind : Nat) : OnlyTileWork s (dmaFailJob s t j code field addr kind) := by
  rw [dmaFailJob_eq]
  exact ((dmaFault_only ..).trans (modDma_only ..)).trans (dmaAbortWaiting_only ..)

theorem dmaWriteLost_only (d : Desc) (code : Nat) : OnlyTileWork s (dmaWriteLost s t d code) := by
  unfold dmaWriteLost
  split <;> rfl

theorem xcFailDma_loss : OnlyTileLoss s (xcFailDma s t) := OnlyTileLoss.foldl (fun u j => by
  split
  · rfl
  · split
    · refine OnlyTileLoss.trans ?_ (dmaFailJob_only ..).toLoss
      split
      · exact (freeNext_loss u).trans (dmaWriteLost_only ..).toLoss
      · exact freeNext_loss u
    · exact freeNext_loss u) _ s

theorem xcFailBlocks_loss : OnlyTileLoss s (xcFailBlocks s t) := OnlyTileLoss.foldl (fun u b => by
  have hfree : OnlyTileLoss u u.freeNext.freeNext.freeNext.freeNext := rfl
  unfold xcFailBlock
  extract_lets s1
  split
  · exact hfree.trans (blockFault_only ..).toLoss
  · exact hfree) _ s

variable {s t}

/-- A tile without transfers and blocks loses none. -/
theorem xcFail_idle (hjobs : (s.tile t).dma.jobs = []) (hblocks : (s.tile t).blocks = []) : xcFailBlocks (xcFailDma s t) t = s := by
  have hdma : xcFailDma s t = s := by rw [xcFailDma, hjobs]; rfl
  rw [hdma, xcFailBlocks, hblocks]
  rfl

end

/-- The losses of a list of tiles. -/
def xcFailTiles (s : State) (ts : List Nat) : State := ts.foldl (fun s t => xcFailBlocks (xcFailDma s t) t) s

theorem xcFailTiles_kept (s : State) {ts : List Nat} (hts : ∀ t ∈ ts, t < 160) : CoreKept s (xcFailTiles s ts) :=
  (CoreKept.refl s).foldlMem fun _ t ht hu => (hu.then_xcFailDma (hts t ht)).then_xcFailBlocks (hts t ht)

theorem xcFailTiles_loss (s : State) (ts : List Nat) : OnlyTileLoss s (xcFailTiles s ts) :=
  OnlyTileLoss.foldl (fun u t => (xcFailDma_loss u t).trans (xcFailBlocks_loss _ t)) ts s

theorem xcFailTiles_idle {s : State} {ts : List Nat} (h : ∀ t ∈ ts, (s.tile t).dma.jobs = [] ∧ (s.tile t).blocks = []) : xcFailTiles s ts = s := by
  induction ts with
  | nil => rfl
  | cons t ts ih =>
    obtain ⟨hjobs, hblocks⟩ := h t (.head _)
    rw [xcFailTiles, List.foldl_cons, xcFail_idle hjobs hblocks]
    exact ih fun x hx => h x (.tail t hx)

end Sys2Proof.Machine
end

section
/-! SUPPORT. What the loss of an XC4 link leaves (09_command_queues.md R299): commands of the queue engine, hart stores, and hart accesses. -/

namespace Sys2Proof.Machine

open Sys2Proof

/-- The losses of an XC4 link leave its lane word, the flag that announced it, the network's flags, and every hart without an access on its way. -/
structure HostLoss (s t : State) : Prop where
  lanes : t.rd pHostc 0x218 = s.rd pHostc 0x218
  flag : s.rdB pHostc 0x18 10 = true → t.rdB pHostc 0x18 10 = true
  net : t.rd pNet 0x18 = s.rd pNet 0x18
  harts : ∀ i, (s.hart i).wait = none → t.hart i = s.hart i
  only : t = { s with regs := t.regs, log := t.log, free := t.free, cmds := t.cmds, harts := t.harts }

section
variable {o s t : State}

theorem hart_congr (h : t.harts = s.harts) (i : Nat) : t.hart i = s.hart i := by rw [State.hart, h, State.hart]

theorem HostLoss.refl (s : State) : HostLoss s s := ⟨rfl, id, rfl, fun _ _ => rfl, rfl⟩

theorem HostLoss.trans (h : HostLoss o s) (k : HostLoss s t) : HostLoss o t where
  lanes := k.lanes.trans h.lanes
  flag hf := k.flag (h.flag hf)
  net := k.net.trans h.net
  harts i hi := by rw [k.harts i (by rw [h.harts i hi]; exact hi), h.harts i hi]
  only := by rw [k.only, h.only]

theorem HostLoss.foldl {α : Type} {f : State → α → State} {l : List α} (h : HostLoss o s) (hf : ∀ u x, HostLoss u (f u x)) : HostLoss o (l.foldl f s) := by
  induction l generalizing s with
  | nil => exact h
  | cons x l ih => exact ih (h.trans (hf s x))

/-- Registers do not matter, nor do commands and free values. -/
theorem HostLoss.of_eq (hregs : t.regs = s.regs) (hharts : t.harts = s.harts)
    (honly : t = { s with regs := t.regs, log := t.log, free := t.free, cmds := t.cmds, harts := t.harts }) : HostLoss s t :=
  ⟨rd_congr hregs _ _, fun h => by rwa [State.rdB, rd_congr hregs], rd_congr hregs _ _, fun i _ => hart_congr hharts i, honly⟩

theorem OnlyRegsLog.harts (h : OnlyRegsLog s t) (i : Nat) : t.hart i = s.hart i := by
  unfold OnlyRegsLog at h
  exact hart_congr (by rw [h]) i

/-- A word is written that is none of the three. -/
theorem wr_hostLoss (s : State) {p : Page} {a : Nat} (h1 : regKey pHostc 0x218 ≠ regKey p a) (h2 : regKey pHostc 0x18 ≠ regKey p a) (h3 : regKey pNet 0x18 ≠ regKey p a)
    (v : Nat) : HostLoss s (s.wr p a v) := by
  have hword {q : Page} {b : Nat} (hne : regKey q b ≠ regKey p a) : (s.wr p a v).rd q b = s.rd q b := by rw [rd_wr, if_neg hne]
  have honly := wr_only s p a v
  refine ⟨hword h1, fun hf => by rwa [State.rdB, hword h2], hword h3, fun i _ => honly.toLog.harts i, ?_⟩
  unfold OnlyRegs at honly
  rw [honly]

/-- A flag of a queue is set. -/
theorem raise_queue_hostLoss (s : State) (q n code queue addr : Nat) (detail : List Nat) : HostLoss s (raise s (pQueue q) n code queue addr detail) := by
  have honly := raise_only s (pQueue q) n code queue addr detail
  refine ⟨rd_raise_pQueue _ _ _ _ _ _ _ (by decide), fun hf => by rwa [State.rdB, rd_raise_pQueue _ _ _ _ _ _ _ (by decide)],
    rd_raise_pQueue _ _ _ _ _ _ _ (by decide), fun i _ => honly.harts i, ?_⟩
  unfold OnlyRegsLog at honly
  rw [honly]

/-- A flag of the host complex is set. -/
theorem raise_host_hostLoss (s : State) {n : Nat} (hn : n < 32) (code queue addr : Nat) (detail : List Nat) : HostLoss s (raise s pHostc n code queue addr detail) := by
  have honly := raise_only s pHostc n code queue addr detail
  have hnet : ∀ x ∈ flagWords pHostc n, regKey pNet 0x18 ≠ regKey x.1 x.2 := fun x hx => by
    obtain ⟨hpage, hlt, -⟩ := mem_flagWords hn hx
    rw [hpage]
    exact regKey_page (by decide) (by decide) (by decide) (by decide) hlt
  refine ⟨rd_raise (by decide) ⟨by decide, by decide, by omega⟩, raise_rdB_of s pHostc n code queue addr detail hn, (raise_kept s pHostc n code queue addr detail).rd hnet,
    fun i _ => honly.harts i, ?_⟩
  unfold OnlyRegsLog at honly
  rw [honly]

theorem freeNext_hostLoss (s : State) : HostLoss s s.freeNext := .of_eq rfl rfl rfl

theorem xc4FailCmd_hostLoss (s : State) (c : Cmd) : HostLoss s (xc4FailCmd s c) := by
  unfold xc4FailCmd
  extract_lets s1
  split
  · split
    · have hfail : HostLoss s (cmdFail (s1.modCmd c.uid (fun k => { k with begun := true })) c 0x38 0) := .of_eq rfl rfl rfl
      exact hfail.trans (raise_queue_hostLoss ..)
    · exact freeNext_hostLoss s
  · exact .refl s

theorem xc4LoseStores_hostLoss (s : State) : HostLoss s (xc4LoseStores s) := by
  unfold xc4LoseStores
  extract_lets n a s1
  have hfree : HostLoss s s1 := (freeNext_hostLoss s).trans (freeNext_hostLoss _)
  split
  · exact hfree
  · have hcount : HostLoss s (s1.inc pHostc 0x220 n) := hfree.trans (wr_hostLoss s1 (by decide) (by decide) (by decide) _)
    have hlow := hcount.trans (wr_hostLoss _ (p := pHostc) (a := 0x228) (by decide) (by decide) (by decide) a)
    have haddr : HostLoss s ((s1.inc pHostc 0x220 n).wr64 pHostc 0x228 a) := hlow.trans (wr_hostLoss _ (by decide) (by decide) (by decide) _)
    exact haddr.foldl fun u _ => raise_host_hostLoss u (by decide) ..

theorem hartFault_hostLoss (s : State) {n a : Nat} {st : Bool} (h : (s.hart n).wait = some (a, st)) : HostLoss s (hartFault s n a st) where
  lanes := rfl
  flag := id
  net := rfl
  harts i hi := fget_fset_ne _ _ _ fun e => by rw [e, h] at hi; cases hi
  only := rfl

theorem xc4FaultHarts_hostLoss (s : State) : HostLoss s (xc4FaultHarts s) := (HostLoss.refl s).foldl fun u n => by
  split
  · next a st hwait =>
    split
    · exact (freeNext_hostLoss u).trans (hartFault_hostLoss u.freeNext hwait)
    · exact freeNext_hostLoss u
  · exact .refl u

theorem moduleFatal_hostLoss (s : State) {cause : Nat} (hc : cause < 2 ^ 8) : HostLoss s (moduleFatal s cause) := by
  obtain ⟨⟨-, hkept, honly⟩, -⟩ := moduleFatal_becameFatal s cause hc
  refine ⟨hkept.rd (by decide), fun hf => by rwa [State.rdB, hkept.rd (by decide)], hkept.rd (by decide), fun i _ => honly.harts i, ?_⟩
  unfold OnlyRegsLog at honly
  rw [honly]

end

end Sys2Proof.Machine
end

section
/-! SUPPORT. The crossing links (09_command_queues.md R298, R299). -/

namespace Sys2Proof.Machine

open Sys2Proof

/-- Where the lane of a link stands: a word of the network's page, or the lane word of the host complex. -/
theorem xcNum_cases {k : XC} {n : Nat} {p : Page} {off b : Nat} (h : xcNum k = some (n, p, off, b)) :
    (p = pNet ∧ off ∈ [0x200, 0x204, 0x208, 0x20C] ∧ b < 32) ∨ (p = pHostc ∧ off = 0x218 ∧ b < 16) := by
  cases k with
  | xc1 d c =>
    obtain ⟨⟨hd, hc⟩, -, rfl, rfl, rfl⟩ := by simpa [xcNum] using h
    refine .inl ⟨rfl, ?_, by omega⟩
    have : d / 2 = 0 ∨ d / 2 = 1 := by omega
    rcases this with h2 | h2 <;> simp [h2]
  | xc3 d c =>
    obtain ⟨⟨hd, hc⟩, -, rfl, rfl, rfl⟩ := by simpa [xcNum] using h
    refine .inl ⟨rfl, ?_, by omega⟩
    have : d / 8 = 0 ∨ d / 8 = 1 := by omega
    rcases this with h2 | h2 <;> simp [h2]
  | xc4 c =>
    obtain ⟨hc, -, rfl, rfl, rfl⟩ := by simpa [xcNum] using h
    exact .inr ⟨rfl, rfl, hc⟩

/-- The tiles whose crossing a link carries. -/
def xcTiles : XC → List Nat
  | .xc1 d _ => (List.range 40).map (fun i => 40 * d + i)
  | _ => List.range 160

theorem xcTiles_lt {k : XC} {n : Nat} {p : Page} {off b : Nat} (h : xcNum k = some (n, p, off, b)) : ∀ t ∈ xcTiles k, t < 160 := by
  intro t ht
  cases k with
  | xc1 d c =>
    obtain ⟨⟨hd, -⟩, -⟩ := by simpa [xcNum] using h
    obtain ⟨i, hi, rfl⟩ := List.mem_map.mp ht
    have := List.mem_range.mp hi
    omega
  | xc3 d c => exact List.mem_range.mp ht
  | xc4 c => exact List.mem_range.mp ht

section
variable {s : State} {k : XC} {n : Nat} {p : Page} {off b : Nat} (hk : xcNum k = some (n, p, off, b))

include hk

/-- The link's error is noted. -/
theorem exec_xcLinkError_up (halive : alive s = true) (hup : s.rdB p off b = true) (hno : ∀ x ∈ s.xc, x.1 ≠ n) :
    exec (.xcLinkError k) s = .next (if p.blk = .hostc
      then raise (({ s with xc := s.xc ++ [(n, s.ref)] } : State).inc pHostc 0x21C 1) pHostc 9 0 0xFFFF 0 [n, 0, 0, 0]
      else raise (({ s with xc := s.xc ++ [(n, s.ref)] } : State).inc pNet 0x210 1) pNet 8 0 0xFFFF 0 [n, 0, 0, 0]) := by
  have hgo : (!alive s || !s.rdB p off b || s.xc.any (fun x => decide (x.1 = n))) = false := by
    simpa [halive, hup] using fun a c hx => hno (a, c) hx
  change execXcLinkError k s = _
  unfold execXcLinkError xcOk
  rw [hk]
  dsimp only
  rw [hgo]
  rfl

theorem xcLinkError_idle (h : s.rdB p off b = false ∨ ∃ x ∈ s.xc, x.1 = n) : Idle (.xcLinkError k) s := by
  have hstop : (!alive s || !s.rdB p off b || s.xc.any (fun x => decide (x.1 = n))) = true := by
    rcases h with h | ⟨x, hx, hn⟩
    · simp [h]
    · rw [List.any_eq_true.mpr ⟨x, hx, decide_eq_true hn⟩, Bool.or_true]
  change execXcLinkError k s = _
  unfold execXcLinkError xcOk
  rw [hk]
  dsimp only
  rw [hstop]
  rfl

theorem exec_xcRetrainComplete_eq : exec (.xcRetrainComplete k) s = .next { s with xc := s.xc.filter (fun x => decide (x.1 ≠ n)) } := by
  change execXcRetrainComplete k s = _
  unfold execXcRetrainComplete xcOk
  rw [hk]
  rfl

/-- The state in which the only retrain has been given up and its lane is down. -/
def xcDown (s : State) (p : Page) (off b : Nat) : State := ({ s with xc := [] } : State).wrF p off b 1 0

theorem exec_xcRetrainTimeout_early {m : Nat} (hxc : s.xc = [(n, m)]) (hm : s.ref < m + 1000000) : Idle (.xcRetrainTimeout k) s := by
  change execXcRetrainTimeout k s = _
  unfold execXcRetrainTimeout xcOk
  rw [hk, hxc]
  simp [hm, onUnit]

/-- A lane of the network goes down. -/
def netLinkDown (s : State) (p : Page) (off b n : Nat) : State :=
  raise (raise ((xcDown s p off b).inc pNet 0x214 1) pNet 9 0 0xFFFF 0 [n, 0, 0, 0]) pNet 10 0 0xFFFF 0 [n, 0, 0, 0]

/-- A lane of the host complex goes down. -/
def hostLinkDown (s : State) (p : Page) (off b n : Nat) : State :=
  raise (raise (xcDown s p off b) pHostc 10 0 0xFFFF 0 [n, 0, 0, 0]) pNet 10 0 0xFFFF 0 [n, 0, 0, 0]

/-- The losses of commands, hart stores and hart accesses. -/
def hostLosses (s : State) : State := xc4FaultHarts (xc4LoseStores (s.cmds.foldl xc4FailCmd s))

theorem exec_xcRetrainTimeout_late {m : Nat} (halive : alive s = true) (hxc : s.xc = [(n, m)]) (hm : m + 1000000 ≤ s.ref) :
    exec (.xcRetrainTimeout k) s = .next (if p.blk = .hostc
      then if (hostLosses (hostLinkDown s p off b n)).rdF pHostc 0x218 0 16 = 0 then moduleFatal (hostLosses (hostLinkDown s p off b n)) 3
        else hostLosses (hostLinkDown s p off b n)
      else xcFailTiles (netLinkDown s p off b n) (xcTiles k)) := by
  change execXcRetrainTimeout k s = _
  unfold execXcRetrainTimeout xcOk
  rw [hk, hxc]
  have hgo : (!alive s || decide (s.ref < m + 1000000)) = false := by simp [halive]; omega
  simp only [List.find?_cons, decide_true, hgo, if_false, Bool.false_eq_true, List.filter_cons, List.filter_nil, ne_eq, not_true_eq_false, decide_false]
  rfl

end

/-! What becomes of the lane. -/

section
variable (s : State) {off b : Nat} (n : Nat)

theorem xcDown_only (p : Page) (off b : Nat) : OnlyRegs { s with xc := [] } (xcDown s p off b) := wr_only ..

theorem xcDown_lane (p : Page) (hb : b < 32) : (xcDown s p off b).rdB p off b = false :=
  (rdB_wrF_bit { s with xc := [] } p off b b false hb).trans (if_pos rfl)

theorem netLinkDown_only (p : Page) (off b : Nat) : OnlyRegsLog { s with xc := [] } (netLinkDown s p off b n) :=
  (((xcDown_only s p off b).trans (wr_only ..)).toLog.trans (raise_only ..)).trans (raise_only ..)

theorem hostLinkDown_only (p : Page) (off b : Nat) : OnlyRegsLog { s with xc := [] } (hostLinkDown s p off b n) :=
  ((xcDown_only s p off b).toLog.trans (raise_only ..)).trans (raise_only ..)

/-- A word of the network's page behind its two flags. -/
theorem netLinkDown_rd (off b : Nat) {a : Nat} (h4 : a % 4 = 0) (hne : a ≠ 0x18 ∧ a ≠ 0x1C ∧ a ≠ 0x7A4 ∧ a ≠ 0x7A8) :
    (netLinkDown s pNet off b n).rd pNet a = ((xcDown s pNet off b).inc pNet 0x214 1).rd pNet a := by
  obtain ⟨h18, h1c, h9, h10⟩ := hne
  rw [netLinkDown, rd_raise h4 ⟨h18, h1c, h10⟩, rd_raise h4 ⟨h18, h1c, h9⟩]

theorem netLinkDown_lane (hoff : off ∈ [0x200, 0x204, 0x208, 0x20C]) (hb : b < 32) : (netLinkDown s pNet off b n).rdB pNet off b = false := by
  have hfacts : off % 4 = 0 ∧ (off ≠ 0x18 ∧ off ≠ 0x1C ∧ off ≠ 0x7A4 ∧ off ≠ 0x7A8) ∧ off ≠ 0x214 := by
    simp only [List.mem_cons, List.not_mem_nil, or_false] at hoff
    omega
  obtain ⟨h4, hflags, hcount⟩ := hfacts
  rw [State.rdB, netLinkDown_rd s n off b h4 hflags, State.inc, rd_wr_off _ _ _ (by decide) h4 hcount]
  exact xcDown_lane s pNet hb

theorem netLinkDown_count (hoff : off ∈ [0x200, 0x204, 0x208, 0x20C]) : (netLinkDown s pNet off b n).rd pNet 0x214 = (s.rd pNet 0x214 + 1) % 2 ^ 32 := by
  have hfacts : off % 4 = 0 ∧ 0x214 ≠ off := by
    simp only [List.mem_cons, List.not_mem_nil, or_false] at hoff
    omega
  rw [netLinkDown_rd s n off b (by decide) (by decide), rd_inc_self, xcDown, State.wrF, rd_wr_off _ _ _ hfacts.1 (by decide) hfacts.2]
  rfl

theorem netLinkDown_flags (p : Page) (off b : Nat) :
    (netLinkDown s p off b n).rdB pNet 0x18 9 = true ∧ (netLinkDown s p off b n).rdB pNet 0x18 10 = true :=
  ⟨raise_rdB_of _ _ _ _ _ _ _ (by decide) (raise_rdB_self _ _ _ _ _ _ _ (by decide)), raise_rdB_self _ _ _ _ _ _ _ (by decide)⟩

/-- A word of the host complex behind the flags of the loss. -/
theorem hostLinkDown_rd (off b : Nat) {a : Nat} (h4 : a % 4 = 0) (hlt : a < 0x1000) (hne : a ≠ 0x18 ∧ a ≠ 0x1C ∧ a ≠ 0x7A8) :
    (hostLinkDown s pHostc off b n).rd pHostc a = (xcDown s pHostc off b).rd pHostc a := by
  have hnet : ∀ x ∈ flagWords pNet 10, regKey pHostc a ≠ regKey x.1 x.2 := fun x hx => by
    obtain ⟨hpage, hxlt, -⟩ := mem_flagWords (by decide) hx
    rw [hpage]
    exact regKey_page (by decide) (by decide) (by decide) hlt hxlt
  rw [hostLinkDown, (raise_kept _ _ _ _ _ _ _).rd hnet, rd_raise h4 hne]

theorem hostLinkDown_flags (p : Page) (off b : Nat) :
    (hostLinkDown s p off b n).rdB pHostc 0x18 10 = true ∧ (hostLinkDown s p off b n).rdB pNet 0x18 10 = true := by
  have hnet : ∀ x ∈ flagWords pNet 10, regKey pHostc 0x18 ≠ regKey x.1 x.2 := by decide
  refine ⟨?_, raise_rdB_self _ _ _ _ _ _ _ (by decide)⟩
  rw [State.rdB, hostLinkDown, (raise_kept _ _ _ _ _ _ _).rd hnet, ← State.rdB]
  exact raise_rdB_self _ _ _ _ _ _ _ (by decide)

/-- A word without one of its bits is less by the value of the bit. -/
theorem bits_clear (x : Nat) {len : Nat} (hb : b < len) : bits (putBits x b 1 0) 0 len = bits x 0 len - bits x b 1 * 2 ^ b := by
  have hsum : bits (putBits x b 1 0) 0 len + bits x b 1 * 2 ^ b = bits x 0 len := by
    apply Nat.eq_of_testBit_eq
    intro i
    have hbit (j : Nat) : (bits x b 1 * 2 ^ b).testBit j = (decide (j = b) && x.testBit b) := by
      rw [bits_one, Nat.mul_comm]
      cases x.testBit b
      · simp [b2n]
      · simp [b2n, Nat.testBit_two_pow, eq_comm]
    have hclear (j : Nat) : (bits (putBits x b 1 0) 0 len).testBit j = (decide (j < len) && (!decide (j = b) && x.testBit j)) := by
      rw [testBit_bits, testBit_putBits, Nat.zero_add]
      by_cases hj : j = b
      · simp [hj]
      · rw [if_neg (by omega)]
        simp [hj]
    rw [testBit_add_of_disjoint (fun j hj => ?_), hbit, hclear, testBit_bits, Nat.zero_add]
    · by_cases hi : i = b
      · simp [hi, hb]
      · simp [hi]
    · rw [hclear] at hj
      rw [hbit]
      by_cases hjb : j = b
      · simp [hjb] at hj
      · simp [hjb]
  omega

theorem hostLinkDown_lanes (hb : b < 16) :
    (hostLinkDown s pHostc 0x218 b n).rdF pHostc 0x218 0 16 = s.rdF pHostc 0x218 0 16 - s.rdF pHostc 0x218 b 1 * 2 ^ b := by
  rw [State.rdF, hostLinkDown_rd s n _ _ (by decide) (by decide) (by decide), xcDown, State.wrF, rd_wr_self, bits_mod_word _ _ _ (by decide), bits_clear _ hb]
  rfl

theorem hostLosses_loss (s : State) : HostLoss s (hostLosses s) := by
  have hcmds : HostLoss s (s.cmds.foldl xc4FailCmd s) := (HostLoss.refl s).foldl xc4FailCmd_hostLoss
  exact (hcmds.trans (xc4LoseStores_hostLoss _)).trans (xc4FaultHarts_hostLoss _)

/-- Without a lane the module is fatal with cause 3. -/
def fatalIfCut (s : State) : State := if s.rdF pHostc 0x218 0 16 = 0 then moduleFatal s 3 else s

theorem fatalIfCut_loss (s : State) : HostLoss s (fatalIfCut s) := by
  unfold fatalIfCut
  split
  · exact moduleFatal_hostLoss s (by decide)
  · exact .refl s

theorem fatalIfCut_fatal {s : State} (h : s.rdF pHostc 0x218 0 16 = 0) :
    (fatalIfCut s).rdF pErrlog 0x220 0 2 = 2 ∧ (fatalIfCut s).rdF pErrlog 0x220 8 8 = 3 := by
  obtain ⟨-, hsev, hcause⟩ := moduleFatal_becameFatal s 3 (by decide)
  rw [fatalIfCut, if_pos h]
  exact ⟨hsev, hcause⟩

end

/-! The cases of the statement. -/

section
variable {s : State} {k : XC} {n : Nat} {p : Page} {off b : Nat} (hk : xcNum k = some (n, p, off, b)) (halive : alive s = true)

include hk halive

theorem xcLinkError_completes (hup : s.rdB p off b = true) (hno : ∀ x ∈ s.xc, x.1 ≠ n) :
    Completes (.xcLinkError k) s (fun t => t.xc = s.xc ++ [(n, s.ref)] ∧ t = { s with regs := t.regs, log := t.log, xc := t.xc }
      ∧ (p = pNet → Flagged s t pNet 8 ∧ t.rd pNet 0x210 = (s.rd pNet 0x210 + 1) % 2 ^ 32 ∧ RegsKept s t ((pNet, 0x210) :: flagWords pNet 8))
      ∧ (p = pHostc → Flagged s t pHostc 9 ∧ t.rd pHostc 0x21C = (s.rd pHostc 0x21C + 1) % 2 ^ 32 ∧ RegsKept s t ((pHostc, 0x21C) :: flagWords pHostc 9))) := by
  have hexec := exec_xcLinkError_up hk halive hup hno
  have hnoted (r : Page) (a m : Nat) (hm : m < 32) (h4 : a % 4 = 0) (hne : a ≠ 0x18 ∧ a ≠ 0x1C ∧ a ≠ 0x780 + 4 * m) (t : State)
      (ht : t = raise (({ s with xc := s.xc ++ [(n, s.ref)] } : State).inc r a 1) r m 0 0xFFFF 0 [n, 0, 0, 0]) :
      (t.xc = s.xc ++ [(n, s.ref)] ∧ t = { s with regs := t.regs, log := t.log, xc := t.xc })
      ∧ Flagged s t r m ∧ t.rd r a = (s.rd r a + 1) % 2 ^ 32 ∧ RegsKept s t ((r, a) :: flagWords r m) := by
    obtain ⟨hflag, hkept, honly⟩ := OnlyWords.then_raise_page (offs := [a]) (n := m) (inc_onlyWord ({ s with xc := s.xc ++ [(n, s.ref)] } : State) r a 1) hm
      (by simpa using h4) (by simpa using hne) 0 0xFFFF 0 [n, 0, 0, 0]
    rw [← ht] at hflag hkept honly
    refine ⟨?_, hflag, by rw [ht, rd_raise h4 hne, rd_inc_self]; rfl, hkept⟩
    unfold OnlyRegsLog at honly
    rw [honly]
    exact ⟨rfl, rfl⟩
  rcases xcNum_cases hk with ⟨rfl, -, -⟩ | ⟨rfl, -, -⟩
  · obtain ⟨⟨hxc, honly⟩, hrest⟩ := hnoted pNet 0x210 8 (by decide) (by decide) (by decide) _ rfl
    exact ⟨_, hexec, hxc, honly, fun _ => hrest, fun h => absurd h (by decide)⟩
  · obtain ⟨⟨hxc, honly⟩, hrest⟩ := hnoted pHostc 0x21C 9 (by decide) (by decide) (by decide) _ rfl
    exact ⟨_, hexec, hxc, honly, fun h => absurd h (by decide), fun _ => hrest⟩

theorem xcRetrainTimeout_completes {m : Nat} (hxc : s.xc = [(n, m)]) (hm : m + 1000000 ≤ s.ref) : Completes (.xcRetrainTimeout k) s (fun t =>
    t.xc = [] ∧ t.rdB p off b = false ∧ t.rdB pNet 0x18 10 = true
    ∧ (p = pNet → t.rdB pNet 0x18 9 = true ∧ t.rd pNet 0x214 = (s.rd pNet 0x214 + 1) % 2 ^ 32
        ∧ ((∀ i, i < 160 → (s.tile i).dma.jobs = [] ∧ (s.tile i).blocks = []) → t = { s with xc := [], regs := t.regs, log := t.log })
        ∧ t = { s with xc := [], regs := t.regs, log := t.log, tiles := t.tiles, cmds := t.cmds, free := t.free })
    ∧ (p = pHostc → t.rdB pHostc 0x18 10 = true ∧ t.rdF pHostc 0x218 0 16 = s.rdF pHostc 0x218 0 16 - s.rdF pHostc 0x218 b 1 * 2 ^ b
        ∧ (t.rdF pHostc 0x218 0 16 = 0 → t.rdF pErrlog 0x220 0 2 = 2 ∧ t.rdF pErrlog 0x220 8 8 = 3)
        ∧ (∀ i, (s.hart i).wait = none → t.hart i = s.hart i)
        ∧ t = { s with xc := [], regs := t.regs, log := t.log, free := t.free, cmds := t.cmds, harts := t.harts })) := by
  have hexec := exec_xcRetrainTimeout_late hk halive hxc hm
  rcases xcNum_cases hk with ⟨rfl, hoff, hb⟩ | ⟨rfl, rfl, hb⟩
  case inl =>
    have hdown := netLinkDown_only s n pNet off b
    have hkept := xcFailTiles_kept (netLinkDown s pNet off b n) (xcTiles_lt hk)
    have hloss := xcFailTiles_loss (netLinkDown s pNet off b n) (xcTiles k)
    have hword (a : Nat) (ha : a < 0x1000) : (xcFailTiles (netLinkDown s pNet off b n) (xcTiles k)).rd pNet a = (netLinkDown s pNet off b n).rd pNet a :=
      hkept.rd pNet a rfl (by decide) ha
    obtain ⟨h9, h10⟩ := netLinkDown_flags s n pNet off b
    have hlt : off < 0x1000 := by
      simp only [List.mem_cons, List.not_mem_nil, or_false] at hoff
      omega
    unfold OnlyTileLoss at hloss
    unfold OnlyRegsLog at hdown
    have honly : xcFailTiles (netLinkDown s pNet off b n) (xcTiles k) = { s with
        xc := [], regs := (xcFailTiles (netLinkDown s pNet off b n) (xcTiles k)).regs, log := (xcFailTiles (netLinkDown s pNet off b n) (xcTiles k)).log,
        tiles := (xcFailTiles (netLinkDown s pNet off b n) (xcTiles k)).tiles, cmds := (xcFailTiles (netLinkDown s pNet off b n) (xcTiles k)).cmds,
        free := (xcFailTiles (netLinkDown s pNet off b n) (xcTiles k)).free } := hloss.trans (by rw [hdown])
    refine ⟨_, hexec, ?_, ?_, ?_, fun _ => ⟨?_, ?_, fun hidle => ?_, honly⟩, fun h => absurd h (by decide)⟩
    · exact (congrArg State.xc honly).trans rfl
    · rw [State.rdB, if_neg (by decide), hword off hlt]
      exact netLinkDown_lane s n hoff hb
    · rw [State.rdB, if_neg (by decide), hword _ (by decide)]
      exact h10
    · rw [State.rdB, if_neg (by decide), hword _ (by decide)]
      exact h9
    · rw [if_neg (by decide), hword _ (by decide)]
      exact netLinkDown_count s n hoff
    · have hsame : xcFailTiles (netLinkDown s pNet off b n) (xcTiles k) = netLinkDown s pNet off b n := xcFailTiles_idle fun t ht => by
        have htile : (netLinkDown s pNet off b n).tile t = s.tile t := tile_congr (by rw [hdown]) t
        rw [htile]
        exact hidle t (xcTiles_lt hk t ht)
      rw [if_neg (by decide), hsame]
      exact hdown
  case inr =>
    have hdown := hostLinkDown_only s n pHostc 0x218 b
    have hloss : HostLoss (hostLinkDown s pHostc 0x218 b n) (fatalIfCut (hostLosses (hostLinkDown s pHostc 0x218 b n))) :=
      (hostLosses_loss _).trans (fatalIfCut_loss _)
    have hlanes : (fatalIfCut (hostLosses (hostLinkDown s pHostc 0x218 b n))).rdF pHostc 0x218 0 16
        = (hostLosses (hostLinkDown s pHostc 0x218 b n)).rdF pHostc 0x218 0 16 := by rw [State.rdF, (fatalIfCut_loss _).lanes, State.rdF]
    obtain ⟨hhost, hnet⟩ := hostLinkDown_flags s n pHostc 0x218 b
    unfold OnlyRegsLog at hdown
    have hexec' : exec (.xcRetrainTimeout k) s = .next (fatalIfCut (hostLosses (hostLinkDown s pHostc 0x218 b n))) := hexec
    refine ⟨_, hexec', ?_, ?_, ?_, fun h => absurd h (by decide), fun _ => ⟨hloss.flag hhost, ?_, fun h0 => fatalIfCut_fatal (hlanes ▸ h0), fun i hi => ?_, ?_⟩⟩
    · rw [hloss.only, hdown]
    · rw [State.rdB, hloss.lanes, hostLinkDown_rd s n _ _ (by decide) (by decide) (by decide)]
      exact xcDown_lane s pHostc (by omega)
    · rw [State.rdB, hloss.net]
      exact hnet
    · rw [State.rdF, hloss.lanes]
      exact hostLinkDown_lanes s n hb
    · have hsame : (hostLinkDown s pHostc 0x218 b n).hart i = s.hart i := hart_congr (by rw [hdown]) i
      rw [hloss.harts i (by rw [hsame]; exact hi), hsame]
    · exact hloss.only.trans (by rw [hdown])

end

/-- Settles O30: what the loss of a lane of the network may change is no word of the network's page, and what the loss of a lane of the host complex may change
is neither its lane word nor a hart without an access on its way. -/
theorem crossings : Obligations.Crossings := by
  unfold Obligations.Crossings
  intro s k n p off b hk halive
  refine ⟨xcLinkError_completes hk halive, xcLinkError_idle hk, ⟨_, exec_xcRetrainComplete_eq hk, fun x => ?_, rfl⟩, fun m => exec_xcRetrainTimeout_early hk,
    fun m => xcRetrainTimeout_completes hk halive⟩
  rw [List.mem_filter, decide_eq_true_eq]

end Sys2Proof.Machine
end

section
/-! SUPPORT. What any write to the stacked memory leaves, whatever it meets (11_cache_hbm_ras.md R335, R344). -/

namespace Sys2Proof.Machine

open Sys2Proof

/-- Nothing but the memory, its slices, their registers and the error log changed. -/
def OnlyMemory (s t : State) : Prop := t = { s with hbm := t.hbm, raw := t.raw, mem := t.mem, regs := t.regs, log := t.log }

theorem OnlyMemory.trans {s t u : State} (h : OnlyMemory s t) (k : OnlyMemory t u) : OnlyMemory s u := by
  unfold OnlyMemory at *
  rw [k, h]

theorem OnlyRegsLog.toMemory {s t : State} (h : OnlyRegsLog s t) : OnlyMemory s t := by
  unfold OnlyRegsLog at h
  unfold OnlyMemory
  rw [h]

theorem ueEvents_only (r : Requester) (l : List Nat) (s : State) : OnlyRegsLog s (ueEvents s r l) := by
  induction l generalizing s with
  | nil => rfl
  | cons b l ih => exact (ueEvent_only s r (64 * b)).trans (ih _)

/-- The bytes outside the range of a write stay, and so does everything else but the memory's own state. -/
theorem memWrite_frame (s : State) (r : Requester) (a : Nat) (data : List Byte) :
    OnlyMemory s (memWrite s r a data).1 ∧ ∀ k, (k < a ∨ a + data.length ≤ k) → (memWrite s r a data).1.hb k = s.hb k := by
  unfold memWrite
  extract_lets n lost part s1 s2 s3
  split
  · exact ⟨rfl, fun _ _ => rfl⟩
  · split
    · exact ⟨rfl, fun _ _ => rfl⟩
    · obtain ⟨m, htouch⟩ := sliceTouch_only s r a n true
      obtain ⟨hbm, hskip⟩ := writeSkip_only (lost ++ part) data (sliceTouch s r a n true) a
      have hs1 : OnlyMemory s s1 := by simp only [s1, hskip, htouch]; rfl
      have hs3 : OnlyMemory s s3 := hs1.trans rfl
      have hbytes (k : Nat) (hk : k < a ∨ a + data.length ≤ k) : s3.hb k = s.hb k :=
        (writeSkip_out (lost ++ part) data (sliceTouch s r a n true) a k hk)
      clear_value part s3
      cases part with
      | nil => exact ⟨hs3, hbytes⟩
      | cons b part =>
        have honly := ueEvents_only r (b :: part) s3
        refine ⟨hs3.trans honly.toMemory, fun k hk => ?_⟩
        rw [State.hb, honly.mem.1]
        exact hbytes k hk

end Sys2Proof.Machine
end

section
/-! SUPPORT. The host complex (09_command_queues.md R272, R297, 16_bringup_errors_test.md R507): its reset and the start of hart 0. -/

namespace Sys2Proof.Machine

open Sys2Proof

/-! The freezing of ARMED queues (R297). -/

def freezeQueue (s : State) (q : Nat) : State := if qState s q = 2 then raise (setQState s q 4) (pQueue q) 11 0 q else s

def freezeQueues (s : State) (l : List Nat) : State := l.foldl freezeQueue s

def OnlyQueueWork (s t : State) : Prop := t = { s with regs := t.regs, log := t.log, qs := t.qs }

theorem OnlyQueueWork.trans {s t u : State} (h : OnlyQueueWork s t) (k : OnlyQueueWork t u) : OnlyQueueWork s u := by
  unfold OnlyQueueWork at *
  rw [k, h]

theorem OnlyRegsLog.toQueueWork {s t : State} (h : OnlyRegsLog s t) : OnlyQueueWork s t := by
  unfold OnlyRegsLog at h
  unfold OnlyQueueWork
  rw [h]

theorem setQState_queueWork (s : State) (q st : Nat) : OnlyQueueWork s (setQState s q st) := by
  unfold OnlyQueueWork
  rw [setQState_only]

section
variable (s : State)

theorem freezeQueue_only (q : Nat) : OnlyQueueWork s (freezeQueue s q) := by
  unfold freezeQueue
  split
  · exact (setQState_queueWork s q 4).trans (raise_only ..).toQueueWork
  · rfl

/-- A word below the pages of the queues stays, but the count of ARMED queues. -/
theorem freezeQueue_rd (q : Nat) {p : Page} {a : Nat} (hlow : pageBase p + a < 0xFC10000000) (hne : regKey p a ≠ regKey pQeng 0x200) :
    (freezeQueue s q).rd p a = s.rd p a := by
  unfold freezeQueue
  split
  · rw [rd_raise_pQueue _ _ _ _ _ _ _ hlow]
    refine (setQState_regsKept s q 4).rd ?_
    simp only [List.forall_mem_cons]
    exact ⟨(regKey_pQueue_ne q _ hlow).symm, hne, by simp⟩
  · rfl

/-- The words of another queue's page stay. -/
theorem freezeQueue_other {q k : Nat} (hq : q < 16384) (hk : k < 16384) (hne : k ≠ q) {a : Nat} (ha : a < 0x1000) :
    (freezeQueue s q).rd (pQueue k) a = s.rd (pQueue k) a := by
  have hpage {b : Nat} (hb : b < 0x1000) : regKey (pQueue k) a ≠ regKey (pQueue q) b :=
    regKey_page (pageOk_pQueue hk) (pageOk_pQueue hq) (fun e => hne (congrArg Page.inst e)) ha hb
  unfold freezeQueue
  split
  · rw [(raise_kept _ _ _ _ _ _ _).rd fun x hx => ?_]
    · refine (setQState_regsKept s q 4).rd ?_
      simp only [List.forall_mem_cons]
      exact ⟨hpage (by decide), regKey_pQueue_ne k a (by decide), by simp⟩
    · obtain ⟨hxp, hlt, -⟩ := mem_flagWords (by decide) hx
      rw [hxp]
      exact hpage hlt
  · rfl

theorem freezeQueue_qState {q k : Nat} (hq : q < 16384) (hk : k < 16384) :
    qState (freezeQueue s q) k = if k = q ∧ qState s q = 2 then 4 else qState s k := by
  by_cases hkq : k = q
  · subst hkq
    unfold freezeQueue
    split
    · next h2 => rw [qState_raise, setQState_qState _ _ (by decide), if_pos ⟨rfl, h2⟩]
    · next h2 => rw [if_neg fun h => h2 h.2]
  · rw [if_neg fun h => hkq h.1, qState, State.rdF, freezeQueue_other s hq hk hkq (by decide), ← State.rdF, ← qState]

theorem freezeQueues_only (l : List Nat) : OnlyQueueWork s (freezeQueues s l) := by
  induction l generalizing s with
  | nil => rfl
  | cons q l ih => exact (freezeQueue_only s q).trans (ih _)

theorem freezeQueues_rd (l : List Nat) {p : Page} {a : Nat} (hlow : pageBase p + a < 0xFC10000000) (hne : regKey p a ≠ regKey pQeng 0x200) :
    (freezeQueues s l).rd p a = s.rd p a := by
  induction l generalizing s with
  | nil => rfl
  | cons q l ih => exact (ih _).trans (freezeQueue_rd s q hlow hne)

/-- The ARMED queues of a list are frozen, and no other queue changes its state. -/
theorem freezeQueues_qState {l : List Nat} (hl : ∀ q ∈ l, q < 16384) {k : Nat} (hk : k < 16384) :
    qState (freezeQueues s l) k = if k ∈ l ∧ qState s k = 2 then 4 else qState s k := by
  induction l generalizing s with
  | nil => exact (if_neg fun h => absurd h.1 (List.not_mem_nil)).symm
  | cons q l ih =>
    have hstep := freezeQueue_qState s (hl q (.head _)) hk
    rw [freezeQueues, List.foldl_cons, ← freezeQueues, ih _ (fun x hx => hl x (.tail _ hx)), hstep]
    by_cases hkq : k = q
    · subst hkq
      by_cases h2 : qState s k = 2
      · simp [h2]
      · simp [h2]
    · simp [hkq]

theorem mem_boundQueues (q : Nat) : q ∈ boundQueues s ↔ pQueue q ∈ s.bind.bound := by
  simp only [boundQueues, List.mem_map, List.mem_filter, decide_eq_true_eq]
  constructor
  · rintro ⟨⟨b, i⟩, ⟨hmem, rfl⟩, rfl⟩
    exact hmem
  · exact fun h => ⟨pQueue q, ⟨h, rfl⟩, rfl⟩

theorem boundQueues_lt (h : ∀ x ∈ s.bind.bound, pageOk x = true) {q : Nat} (hq : q ∈ boundQueues s) : q < 16384 :=
  of_decide_eq_true (h _ ((mem_boundQueues s q).mp hq))

/-! The reset. -/

/-- The harts have halted without their requests (10_translation.md R314). -/
def hostStopped : State := { hostStop s with xlat := { s.xlat with reqs := [] } }

/-- The registers of the reset before the queues freeze. -/
def hostCounted (cause : Nat) : State := ((((hostStopped s).wr pXlat 0x210 0).inc pHostc 0x210 1).wr pHostc 0x214 cause).wr pPalur 0x300 0

theorem hostReset_eq (cause : Nat) : hostReset s cause
    = raise (raise (freezeQueues (hostCounted s cause) (boundQueues (hostCounted s cause))) pQeng 8) pHostc 8 0 0xFFFF 0 [cause, 0, 0, 0] := rfl

theorem hostCounted_only (cause : Nat) : OnlyRegs (hostStopped s) (hostCounted s cause) :=
  (((wr_only (hostStopped s) pXlat 0x210 0).trans (wr_only _ pHostc 0x210 _)).trans (wr_only _ pHostc 0x214 cause)).trans (wr_only _ pPalur 0x300 0)

theorem hostCounted_kept (cause : Nat) : RegsKept s (hostCounted s cause) [(pXlat, 0x210), (pHostc, 0x210), (pHostc, 0x214), (pPalur, 0x300)] :=
  (((wr_kept (hostStopped s) pXlat 0x210 0).trans (wr_kept _ pHostc 0x210 _)).trans (wr_kept _ pHostc 0x214 cause)).trans (wr_kept _ pPalur 0x300 0)

theorem hostCounted_words {cause : Nat} (hc : cause < 2 ^ 32) :
    (hostCounted s cause).rd pXlat 0x210 = 0 ∧ (hostCounted s cause).rd pHostc 0x210 = (s.rd pHostc 0x210 + 1) % 2 ^ 32
    ∧ (hostCounted s cause).rd pHostc 0x214 = cause ∧ (hostCounted s cause).rd pPalur 0x300 = 0 := by
  have hxlat : regKey pXlat 0x210 ≠ regKey pPalur 0x300 ∧ regKey pXlat 0x210 ≠ regKey pHostc 0x214 ∧ regKey pXlat 0x210 ≠ regKey pHostc 0x210 := by decide
  have hhost : regKey pHostc 0x210 ≠ regKey pPalur 0x300 ∧ regKey pHostc 0x210 ≠ regKey pHostc 0x214 ∧ regKey pHostc 0x214 ≠ regKey pPalur 0x300 := by decide
  obtain ⟨x1, x2, x3⟩ := hxlat
  obtain ⟨y1, y2, y3⟩ := hhost
  refine ⟨?_, ?_, ?_, rd_wr_self ..⟩
  · rw [hostCounted, rd_wr, if_neg x1, rd_wr, if_neg x2, State.inc, rd_wr, if_neg x3, rd_wr_self]
    rfl
  · rw [hostCounted, rd_wr, if_neg y1, rd_wr, if_neg y2, rd_inc_self, rd_wr, if_neg x3.symm]
    rfl
  · rw [hostCounted, rd_wr, if_neg y3, rd_wr_self, Nat.mod_eq_of_lt hc]

theorem hostCounted_bound (cause : Nat) : boundQueues (hostCounted s cause) = boundQueues s := by
  have honly := hostCounted_only s cause
  unfold OnlyRegs at honly
  have hbind : (hostCounted s cause).bind = (hostStopped s).bind := by rw [honly]
  rw [boundQueues, hbind]
  rfl

theorem hostReset_only (cause : Nat) : OnlyQueueWork (hostStopped s) (hostReset s cause) := by
  rw [hostReset_eq]
  exact (((hostCounted_only s cause).toLog.toQueueWork.trans (freezeQueues_only ..)).trans (raise_only ..).toQueueWork).trans (raise_only ..).toQueueWork

/-- A word apart from the flags of the queue engine and the host complex is as the freezing of the queues leaves it. -/
theorem hostReset_rd (cause : Nat) {p : Page} {a : Nat} (hne : ∀ x ∈ flagWords pQeng 8 ++ flagWords pHostc 8, regKey p a ≠ regKey x.1 x.2) :
    (hostReset s cause).rd p a = (freezeQueues (hostCounted s cause) (boundQueues s)).rd p a := by
  rw [List.forall_mem_append] at hne
  rw [hostReset_eq, (raise_kept _ _ _ _ _ _ _).rd hne.2, (raise_kept _ _ _ _ _ _ _).rd hne.1, hostCounted_bound]

theorem hostReset_flags (cause : Nat) : (hostReset s cause).rdB pHostc 0x18 8 = true ∧ (hostReset s cause).rdB pQeng 0x18 8 = true := by
  have hne : ∀ x ∈ flagWords pHostc 8, regKey pQeng 0x18 ≠ regKey x.1 x.2 := by decide
  rw [hostReset_eq]
  refine ⟨raise_rdB_self _ _ _ _ _ _ _ (by decide), ?_⟩
  rw [State.rdB, (raise_kept _ _ _ _ _ _ _).rd hne, ← State.rdB]
  exact raise_rdB_self _ _ _ _ _ _ _ (by decide)

theorem hostReset_qState (cause : Nat) (h : ∀ x ∈ s.bind.bound, pageOk x = true) {q : Nat} (hq : q < 16384) :
    qState (hostReset s cause) q = if pQueue q ∈ s.bind.bound ∧ qState s q = 2 then 4 else qState s q := by
  have hkeep : qState (hostCounted s cause) q = qState s q := by
    rw [qState, qState, State.rdF, State.rdF, (hostCounted_kept s cause).rd]
    simp only [List.forall_mem_cons]
    exact ⟨regKey_pQueue_ne q _ (by decide), regKey_pQueue_ne q _ (by decide), regKey_pQueue_ne q _ (by decide), regKey_pQueue_ne q _ (by decide), by simp⟩
  rw [qState, State.rdF, hostReset_rd s cause ?_, ← State.rdF, ← qState, freezeQueues_qState _ (fun _ hx => boundQueues_lt s h hx) hq, hkeep]
  · simp only [mem_boundQueues]
  simp only [flagWords, List.forall_mem_cons, List.cons_append, List.nil_append]
  exact ⟨regKey_pQueue_ne q _ (by decide), regKey_pQueue_ne q _ (by decide), regKey_pQueue_ne q _ (by decide), regKey_pQueue_ne q _ (by decide),
    regKey_pQueue_ne q _ (by decide), regKey_pQueue_ne q _ (by decide), by simp⟩

/-- The words of the reset. -/
theorem hostReset_words {cause : Nat} (hc : cause < 2 ^ 32) :
    (hostReset s cause).rd pXlat 0x210 = 0 ∧ (hostReset s cause).rd pHostc 0x210 = (s.rd pHostc 0x210 + 1) % 2 ^ 32
    ∧ (hostReset s cause).rd pHostc 0x214 = cause ∧ (hostReset s cause).rd pPalur 0x300 = 0 := by
  rw [hostReset_rd s cause (by decide), hostReset_rd s cause (by decide), hostReset_rd s cause (by decide), hostReset_rd s cause (by decide),
    freezeQueues_rd _ _ (by decide) (by decide), freezeQueues_rd _ _ (by decide) (by decide), freezeQueues_rd _ _ (by decide) (by decide),
    freezeQueues_rd _ _ (by decide) (by decide)]
  exact hostCounted_words s hc

end

/-! The start. -/

section
variable (s : State) (entry : Nat)

theorem startHart0_hart : (startHart0 s entry).hart 0 = { Hart.init with pc := entry } := fget_fset_self (fun _ => Hart.init) s.harts 0 _

theorem startHart0_hart_ne {n : Nat} (hn : n ≠ 0) : (startHart0 s entry).hart n = s.hart n := fget_fset_ne (fun _ => Hart.init) s.harts _ hn

end

/-! The cases of the statement. -/

section
variable {s : State}

theorem ipiSet_completes (hup : served s = true) (hen : s.enabled pHostc = true) {w : Nat} (hw : w < 3) (v : BitVec 32) : Completes (.ipiSet w v) s (fun t =>
    (∀ i, t.ssip.testBit i = (s.ssip.testBit i || (decide (32 * w ≤ i) && v.getLsbD (i - 32 * w)))) ∧ t = { s with ssip := t.ssip }) := by
  have hexec : exec (.ipiSet w v) s = .next { s with ssip := s.ssip ||| v.toNat * 2 ^ (32 * w) } := by
    change onUnit _ (if (served s && s.enabled pHostc) = true then _ else _) = _
    rw [if_pos (by rw [hup, hen]; rfl), onUnit, if_pos (decide_eq_true hw)]
  refine ⟨_, hexec, fun i => ?_, rfl⟩
  rw [Nat.testBit_or, Nat.testBit_mul_two_pow]
  rfl

theorem ctrlHostReset_completes (hup : served s = true) (hen : s.enabled pHostc = true) (hbound : ∀ x ∈ s.bind.bound, pageOk x = true) :
    Completes .ctrlHostReset s (fun t =>
      t.hartsOn = 0 ∧ t.ssip = 0 ∧ (∀ n, t.hart n = Hart.init) ∧ t.xlat.reqs = [] ∧ t.rd pXlat 0x210 = 0 ∧ t.rd pHostc 0x210 = (s.rd pHostc 0x210 + 1) % 2 ^ 32
      ∧ t.rd pHostc 0x214 = 1 ∧ t.rd pPalur 0x300 = 0 ∧ t.rdB pHostc 0x18 8 = true ∧ t.rdB pQeng 0x18 8 = true
      ∧ (∀ q, q < 16384 → qState t q = if ⟨.queue, q⟩ ∈ s.bind.bound ∧ qState s q = 2 then 4 else qState s q)
      ∧ t = { s with hartsOn := 0, ssip := 0, harts := t.harts, hcache := ⟨[], [], []⟩,
                     mem := { s.mem with fillWait := s.mem.fillWait.filter (fun w => !ofHart w.req) },
                     xlat := { s.xlat with reqs := [] }, regs := t.regs, log := t.log, qs := t.qs }) := by
  have hexec : exec .ctrlHostReset s = .next (hostReset s 1) := congrArg Host.Outcome.next (if_pos (by rw [hup, hen]; rfl))
  have honly := hostReset_only s 1
  obtain ⟨hreqs, hcount, hcause, howner⟩ := hostReset_words s (cause := 1) (by decide)
  obtain ⟨hhost, hqeng⟩ := hostReset_flags s 1
  unfold OnlyQueueWork at honly
  refine ⟨_, hexec, ?_, ?_, fun n => ?_, ?_, hreqs, hcount, hcause, howner, hhost, hqeng, fun q hq => hostReset_qState s 1 hbound hq, ?_⟩
  · rw [honly]; rfl
  · rw [honly]; rfl
  · exact hart_congr (s := { s with harts := [] }) (by rw [honly]; rfl) n
  · rw [honly]; rfl
  · have hharts : (hostReset s 1).harts = [] := by rw [honly]; rfl
    rw [hharts]
    exact honly

theorem hartRestart_starts (halive : alive s = true) (htaken : s.palur.taken = true) (hwell : s.rdF pErrlog 0x220 0 2 = 0) (hpow : powerState s ≤ 1) (hoff : s.hartsOn = 0)
    (hmem : memHeld s .hostDie 0 (hostFw s).length = false) :
    Completes .hartRestart s (fun t => t.hartsOn = 1 ∧ t.palur = { s.palur with entry := 0 } ∧ t.hart 0 = { Hart.init with pc := 0 } ∧ (∀ n, n ≠ 0 → t.hart n = s.hart n)
      ∧ (∀ k, 2 ^ 28 ≤ k → t.hb k = s.hb k)
      ∧ t = { s with hartsOn := 1, harts := t.harts, palur := t.palur, hbm := t.hbm, raw := t.raw, mem := t.mem, regs := t.regs, log := t.log }) := by
  have hexec : exec .hartRestart s = .next (startHost s 0) := by
    change Host.Outcome.next (if _ then _ else _) = _
    rw [if_pos (by simp [halive, htaken, hwell, hpow, hoff, hmem])]
  obtain ⟨honly, hbytes⟩ := memWrite_frame s .hostDie 0 (hostFw s)
  have hlen : (hostFw s).length ≤ 2 ^ 28 := by
    unfold hostFw
    split
    · exact List.length_take_le ..
    · exact Nat.zero_le _
  unfold startHost at hexec
  generalize (memWrite s .hostDie 0 (hostFw s)).1 = u at honly hbytes hexec
  unfold OnlyMemory at honly
  refine ⟨_, hexec, rfl, ?_, startHart0_hart u 0, fun n hn => ?_, fun k hk => hbytes k (by omega), ?_⟩
  · rw [honly]; rfl
  · rw [startHart0_hart_ne u 0 hn, hart_congr (s := s) (by rw [honly])]
  · rw [honly]; rfl

theorem hartRestart_idle (h : s.hartsOn ≠ 0 ∨ memHeld s .hostDie 0 (hostFw s).length = true) : Idle .hartRestart s := by
  refine congrArg Host.Outcome.next (if_neg ?_)
  rcases h with h | h <;> simp [h]

end

/-- Settles O29: the reset by the registers it writes and the queues it freezes one after another, the restart by what a write of the firmware component leaves. -/
theorem hostComplex : Obligations.HostComplex := by
  unfold Obligations.HostComplex
  intro s hup hen
  exact ⟨fun w v hw => ipiSet_completes hup hen hw v, ctrlHostReset_completes hup hen, hartRestart_starts, hartRestart_idle⟩

end Sys2Proof.Machine
end

section
/-! SUPPORT. The fetch of commands (09_command_queues.md R281, R283, R285, R288, R289): what a read of the ring leaves, and what each check answers. -/

namespace Sys2Proof.Machine

open Sys2Proof

/-! The read of a command, as an acquire at node scope (03_memory_model.md R80). -/

/-- A read leaves all but the slices' state, and every register but those of the mismatch counters. -/
structure RingRead (s r : State) : Prop where
  only : r = { s with regs := r.regs, log := r.log, mem := r.mem }
  rd : ∀ p a, a % 0x1000 / 4 ∉ [0x6F4 / 4, 0x6F8 / 4, 0x6FC / 4] → r.rd p a = s.rd p a

section
variable {s r u : State} {q : Nat} {b : List Byte}

theorem RingRead.refl (s : State) : RingRead s s := ⟨rfl, fun _ _ _ => rfl⟩

theorem RingRead.trans (h : RingRead s r) (k : RingRead r u) : RingRead s u :=
  ⟨by rw [k.only, h.only], fun p a ha => (k.rd p a ha).trans (h.rd p a ha)⟩

/-- Bytes that are read without a fault. -/
theorem RingRead.of_memRead {a n : Nat} {l : List Byte} (h : memRead s .qeng a n = (r, .ok l)) (scope : Nat) (me : RelTag) :
    RingRead s (acquireCheck r a n scope me) := by
  have htouch : ∃ m, r = { s with mem := m } := by
    unfold memRead at h
    split at h
    · cases h
    · cases h
      exact sliceTouch_only ..
  obtain ⟨m, rfl⟩ := htouch
  refine ⟨?_, fun p a ha => rd_acquireCheck _ _ _ _ _ p ha⟩
  have honly := acquireCheck_only { s with mem := m } a n scope me
  unfold OnlyRegs at honly
  rw [honly]

theorem readSlots_read {pos n i : Nat} (h : readSlots q pos n i s = (r, some b)) : RingRead s r := by
  induction n generalizing i s b with
  | zero =>
    cases h
    exact .refl _
  | succ n ih =>
    unfold readSlots at h
    extract_lets a at h
    split at h
    · cases h
    · next s1 l hread =>
      split at h
      · next s2 rest hrest =>
        cases h
        exact (RingRead.of_memRead hread 3 qengTag).trans (ih hrest)
      · cases h

theorem readCmd_read (h : readCmd s q = (r, some b)) : RingRead s r := by
  unfold readCmd at h
  extract_lets pos at h
  split at h
  · cases h
  · next s1 l hfirst =>
    split at h
    · next s2 rest hrest =>
      cases h
      exact (readSlots_read hfirst).trans (readSlots_read hrest)
    · cases h

theorem RingRead.rdF (h : RingRead s r) {p : Page} {a : Nat} (ha : a % 0x1000 / 4 ∉ [0x6F4 / 4, 0x6F8 / 4, 0x6FC / 4]) (lo len : Nat) : r.rdF p a lo len = s.rdF p a lo len := by
  rw [State.rdF, h.rd p a ha, State.rdF]

end

/-! A command that fails a check (R283, R296). -/

section
variable (s : State) (q : Nat) (b : List Byte)

theorem takeCmd_words (c : Cmd) (n : Nat) : WordsKept (pQueue q) s (takeCmd s q c n) [0x204] :=
  ⟨(wr_wordsKept s (a := 0x204) (by decide) (s.rd (pQueue q) 0x204 + n)).rd⟩

theorem takeCmd_head (c : Cmd) (n : Nat) : (takeCmd s q c n).rd (pQueue q) 0x204 = (s.rd (pQueue q) 0x204 + n) % 2 ^ 32 :=
  rd_wr_self s (pQueue q) 0x204 (s.rd (pQueue q) 0x204 + n)

theorem takeCmd_rd (c : Cmd) (n : Nat) {p : Page} {a : Nat} (hlow : pageBase p + a < 0xFC10000000) : (takeCmd s q c n).rd p a = s.rd p a :=
  rd_wr_pQueue s q 0x204 (s.rd (pQueue q) 0x204 + n) hlow

theorem takeCmd_only (c : Cmd) (n : Nat) : takeCmd s q c n
    = { s with regs := (takeCmd s q c n).regs, cmds := s.cmds ++ [c], nextUid := s.nextUid + 1, qs := (takeCmd s q c n).qs } := by
  simp only [takeCmd, State.wr]

theorem takeCmd_qState (c : Cmd) (n : Nat) : qState (takeCmd s q c n) q = qState s q := by
  rw [qState, State.rdF, (takeCmd_words s q c n).rd _ (by decide) (by decide), ← State.rdF, ← qState]

/-- An armed queue under stop_on_fault stops; nothing else happens. -/
theorem faultStop_eq : faultStop s q = if s.rdB (pQueue q) 0x104 5 = true ∧ qState s q = 2 then raise (setQState s q 3) (pQueue q) 10 0 q else s := by
  simp only [faultStop, Bool.and_eq_true, decide_eq_true_eq]

theorem faultStop_words : WordsKept (pQueue q) s (faultStop s q) [0x14, 0x18, 0x7A8, 0x1C] := by
  rw [faultStop_eq]
  split
  · exact (setQState_wordsKept s q 3).trans (raise_wordsKept ..)
  · exact (WordsKept.of_regs rfl).mono (List.nil_subset _)

theorem faultStop_only : faultStop s q = { s with regs := (faultStop s q).regs, log := (faultStop s q).log, qs := (faultStop s q).qs } := by
  have h : OnlyQueueWork s (faultStop s q) := by
    rw [faultStop_eq]
    split
    · exact (setQState_queueWork s q 3).trans (raise_only ..).toQueueWork
    · rfl
  exact h

theorem faultStop_qState : qState (faultStop s q) q = if s.rdB (pQueue q) 0x104 5 = true ∧ qState s q = 2 then 3 else qState s q := by
  rw [faultStop_eq]
  split
  · rw [qState_raise, setQState_qState _ _ (by decide)]
  · rfl

theorem failCheck_failed (known : Bool) (code off : Nat) : CheckFailed s (failCheck s q b known code off) q b code off := by
  let c : Cmd := newCmd s q b known true (some ⟨code, 0, 0xFF, off⟩)
  let u : State := takeCmd s q c (cmdBf b 2 0 6 + 1)
  have hfail : failCheck s q b known code off = faultStop u q := rfl
  have honly := faultStop_only u q
  have htake : u = { s with regs := u.regs, cmds := s.cmds ++ [c], nextUid := s.nextUid + 1, qs := u.qs } := takeCmd_only s q c _
  have hcmds : (faultStop u q).cmds = s.cmds ++ [c] := (congrArg State.cmds honly).trans (congrArg State.cmds htake)
  refine ⟨⟨c, by rw [hfail, hcmds], rfl, rfl, rfl, rfl, rfl⟩, ?_, ?_, ?_⟩
  · rw [hfail, (faultStop_words u q).rd _ (by decide) (by decide)]
    exact takeCmd_head s q c _
  · rw [hfail, faultStop_qState, (takeCmd_words s q c _).rdB (by decide) (by decide), takeCmd_qState]
  · rw [hfail, hcmds]
    exact honly.trans (by rw [htake])

/-! The checks in their order (R283). -/

variable {s q b} (since : Option Nat)

/-- The version is outside the queue's range, or unknown. -/
def VersionBad (s : State) (q : Nat) (b : List Byte) : Prop :=
  cmdLe b 0 1 < s.rdF (pQueue q) 0x104 0 2 ∨ s.rdF (pQueue q) 0x104 2 2 < cmdLe b 0 1 ∨ cmdLe b 0 1 = 0 ∨ 3 < cmdLe b 0 1

/-- The command is of the queue's epoch. -/
def EpochOk (s : State) (q : Nat) (b : List Byte) : Prop :=
  if cmdLe b 0 1 = 1 then cmdLe b 4 2 = s.rd (pQueue q) 0x28 % 2 ^ 16 else cmdLe b 4 4 = s.rd (pQueue q) 0x28

theorem tryAccept_version (h : VersionBad s q b) : tryAccept s q b since = failCheck s q b false 0x31 0 := if_pos h

theorem tryAccept_fields (hv : ¬ VersionBad s q b) {c o : Nat} (h : firstCmdBad b = some (c, o)) : tryAccept s q b since = failCheck s q b true c o := by
  refine (if_neg hv).trans ?_
  rw [h]

theorem epochBad_iff : (if cmdLe b 0 1 = 1 then decide (cmdLe b 4 2 ≠ s.rd (pQueue q) 0x28 % 2 ^ 16) else decide (cmdLe b 4 4 ≠ s.rd (pQueue q) 0x28)) = true
    ↔ ¬ EpochOk s q b := by
  unfold EpochOk
  split <;> rw [decide_eq_true_eq]

theorem tryAccept_epoch (hv : ¬ VersionBad s q b) (hf : firstCmdBad b = none) (h : ¬ EpochOk s q b) :
    tryAccept s q b since = failCheck (s.inc (pQueue q) 0x708 1) q b true 0x33 4 := by
  refine (if_neg hv).trans ?_
  rw [hf]
  exact if_pos (epochBad_iff.mpr h)

theorem tryAccept_tiles (hv : ¬ VersionBad s q b) (hf : firstCmdBad b = none) (he : EpochOk s q b) (h : ∃ t ∈ cmdTiles b, tileFed s q t = false) :
    tryAccept s q b since = failCheck s q b true 0x34 (if cmdLe b 1 1 = 8 then 0x11 else 0x10) := by
  have hany : (cmdTiles b).any (fun t => !tileFed s q t) = true := by
    obtain ⟨t, ht, hfed⟩ := h
    exact List.any_eq_true.mpr ⟨t, ht, by rw [hfed]; rfl⟩
  refine (if_neg hv).trans ?_
  rw [hf]
  exact (if_neg fun hb => epochBad_iff.mp hb he).trans (if_pos hany)

/-- Nothing to place takes no pool space. -/
theorem placeCmd_empty (s : State) (q : Nat) (b : List Byte) : placeCmd s q b [] = acceptCmd s q b [] none := by
  unfold placeCmd
  exact if_pos rfl

/-- A command without addresses is accepted where the checks before hold. -/
theorem tryAccept_accepts (hv : ¬ VersionBad s q b) (hf : firstCmdBad b = none) (he : EpochOk s q b) (h : ∀ t ∈ cmdTiles b, tileFed s q t = true)
    (ha : cmdAddrs b = []) : tryAccept s q b since = acceptCmd s q b [] none := by
  have hany : ¬ (cmdTiles b).any (fun t => !tileFed s q t) = true := by
    rw [List.any_eq_true]
    rintro ⟨t, ht, hfed⟩
    rw [h t ht] at hfed
    cases hfed
  refine (if_neg hv).trans ?_
  rw [hf]
  refine (if_neg fun hb => epochBad_iff.mp hb he).trans ((if_neg hany).trans ?_)
  rw [ha]
  have hlocal : waitLocal s b [] = true := Bool.or_true _
  exact (if_pos hlocal).trans (placeCmd_empty s q b)

end

/-! Acceptance without addresses. -/

section
variable (s : State) (q : Nat) (b : List Byte)

/-- The command as it is accepted. -/
def plainCmd : Cmd :=
  { newCmd s q b true false none with
    extents := [], direct := [], pool := none, targets := (cmdTiles b).map (fun t => (t, s.rd (pTile t) 0x28)) }

theorem acceptCmd_plain : acceptCmd s q b [] none = poolUsed ((takeCmd s q (plainCmd s q b) (cmdBf b 2 0 6 + 1)).inc pQeng 0x204 1) := by
  unfold acceptCmd plainCmd
  simp [placeRanges]

theorem acceptCmd_accepts {t : State} (ht : t = acceptCmd s q b [] none) :
    (∃ c : Cmd, t.cmds = s.cmds ++ [c] ∧ c.queue = q ∧ c.pos = s.rd (pQueue q) 0x204 ∧ c.bytes = b ∧ c.op = cmdLe b 1 1
        ∧ c.bad = false ∧ c.begun = false ∧ c.fault = none ∧ c.pool = none ∧ c.targets = (cmdTiles b).map (fun t => (t, s.rd (pTile t) 0x28)))
      ∧ t.rd (pQueue q) 0x204 = (s.rd (pQueue q) 0x204 + cmdBf b 2 0 6 + 1) % 2 ^ 32 ∧ t.rd pQeng 0x204 = (s.rd pQeng 0x204 + 1) % 2 ^ 32
      ∧ t = { s with regs := t.regs, cmds := t.cmds, nextUid := s.nextUid + 1, qs := t.qs } := by
  rw [acceptCmd_plain] at ht
  have htake := takeCmd_only s q (plainCmd s q b) (cmdBf b 2 0 6 + 1)
  have hhead := takeCmd_head s q (plainCmd s q b) (cmdBf b 2 0 6 + 1)
  have hcount := takeCmd_rd s q (plainCmd s q b) (cmdBf b 2 0 6 + 1) (p := pQeng) (a := 0x204) (by decide)
  generalize takeCmd s q (plainCmd s q b) (cmdBf b 2 0 6 + 1) = u at ht htake hhead hcount
  have honly : OnlyRegs u t := by
    rw [ht]
    exact (wr_only u pQeng 0x204 _).trans (wr_only _ pXlat 0x218 _)
  have hne : regKey pQeng 0x204 ≠ regKey pXlat 0x218 := by decide
  unfold OnlyRegs at honly
  have hcmds : t.cmds = s.cmds ++ [plainCmd s q b] := by rw [honly, htake]
  refine ⟨⟨plainCmd s q b, hcmds, rfl, rfl, rfl, rfl, rfl, rfl, rfl, rfl, rfl⟩, ?_, ?_, ?_⟩
  · rw [ht, poolUsed, rd_wr, if_neg (regKey_pQueue_ne q _ (by decide)), State.inc, rd_wr, if_neg (regKey_pQueue_ne q _ (by decide)), hhead, Nat.add_assoc]
  · rw [ht, poolUsed, rd_wr, if_neg hne, rd_inc_self, hcount]
  · rw [hcmds, honly, htake]

/-! A torn command (R288). -/

theorem tornCmd_stops {t : State} (ht : t = tornCmd s q b) :
    qState t q = 3 ∧ t.rd (pQueue q) 0x204 = s.rd (pQueue q) 0x204 ∧ t.rdB (pQueue q) 0x18 8 = true ∧ t.rd pQeng 0x208 = (s.rd pQeng 0x208 + 1) % 2 ^ 32
    ∧ ∃ c : Cmd, t.cmds = s.cmds ++ [c] ∧ c.bad = true ∧ c.fault = some ⟨0x30, 0, 0xFF, 0⟩ ∧ c.queue = q ∧ c.pos = s.rd (pQueue q) 0x204 := by
  let c : Cmd := { newCmd s q b false true (some ⟨0x30, 0, 0xFF, 0⟩) with op := cmdLe b 1 1 }
  let u : State := (setQState s q 3).inc pQeng 0x208 1
  let v : State := raise u (pQueue q) 8 0x30 q (s.rd (pQueue q) 0x204) [0x30 + 2 ^ 31, s.rd (pQueue q) 0x204, 0, 0]
  have htv : t = { v with cmds := v.cmds ++ [c], nextUid := v.nextUid + 1 } := ht
  have hrd (p : Page) (a : Nat) : t.rd p a = v.rd p a := rd_congr (by rw [htv]) p a
  have hpage : WordsKept (pQueue q) (setQState s q 3) u [] := wr_below_wordsKept (setQState s q 3) q (p := pQeng) (b := 0x208) (by decide) _
  have hqueue : WordsKept (pQueue q) (setQState s q 3) v [0x18, 0x7A0, 0x1C] := hpage.trans (raise_wordsKept ..)
  have hcount : (setQState s q 3).rd pQeng 0x208 = s.rd pQeng 0x208 := (setQState_regsKept s q 3).rd (by
    simp only [List.forall_mem_cons]
    exact ⟨(regKey_pQueue_ne q _ (by decide)).symm, by decide, by simp⟩)
  have hcmds : v.cmds = s.cmds := by
    have hset := setQState_only s q 3
    rw [raise_cmds, State.inc_cmds, hset]
  refine ⟨?_, ?_, ?_, ?_, c, by rw [htv, hcmds], rfl, rfl, rfl, rfl⟩
  · rw [qState, State.rdF, hrd, hqueue.rd _ (by decide) (by decide), ← State.rdF, ← qState, setQState_qState _ _ (by decide)]
  · rw [hrd, hqueue.rd _ (by decide) (by decide), (setQState_wordsKept s q 3).rd _ (by decide) (by decide)]
  · rw [State.rdB, hrd, ← State.rdB]
    exact raise_rdB_self _ _ _ _ _ _ _ (by decide)
  · rw [hrd, rd_raise_pQueue _ _ _ _ _ _ _ (by decide), rd_inc_self, hcount]

end

/-! The commands of the engine. -/

section
variable {s : State} {q : Nat} (hq : q < 16384)

theorem fetchReady_of (hon : fetchOn s q = true) (htorn : (s.q q).torn = none) (hheld : (s.q q).held = none) (hstall : pXlat ∉ s.stalls)
    (hring : ringHeld s q = false) : fetchReady s q = true := by
  simp [fetchReady, hon, htorn, hheld, hstall, hring]

theorem fetchReady_torn {x : Nat × Nat × Nat} (htorn : (s.q q).torn = some x) : fetchReady s q = false := by
  simp [fetchReady, htorn]

include hq

theorem commandFetch_idle (h : fetchReady s q = false ∨ fetchIsNext s q = false) : Idle (.commandFetch q) s := by
  change execCommandFetch q s = _
  unfold execCommandFetch
  have hstop : (!fetchReady s q || !fetchIsNext s q) = true := by
    rcases h with h | h
    · rw [h]; rfl
    · rw [h, Bool.not_false, Bool.or_true]
  rw [if_pos hstop, onUnit, if_pos (decide_eq_true hq)]

/-- The read of a command in its turn. -/
theorem exec_commandFetch_reads (hnext : fetchIsNext s q = true) (hready : fetchReady s q = true) (hheld : (s.q q).held = none) {r : State} {b : List Byte}
    (hread : readCmd { s with fetchTurn := q } q = (r, some b)) :
    exec (.commandFetch q) s = .next (if sealOk b (s.rd (pQueue q) 0x204) (s.rdB (pQueue q) 0x104 4) then tryAccept r q b none
      else r.setQ q { r.q q with torn := some (s.ref, s.ref, 0) }) := by
  have hgo : (!fetchReady s q || !fetchIsNext s q) = false := by rw [hready, hnext]; rfl
  have hheld' : (({ s with fetchTurn := q } : State).q q).held = none := hheld
  change execCommandFetch q s = _
  unfold execCommandFetch
  rw [hgo, if_neg Bool.false_ne_true, onUnit, if_pos (decide_eq_true hq)]
  dsimp only
  rw [hheld']
  dsimp only
  rw [hread]
  rfl

theorem commandRefetch_idle {t0 t1 n : Nat} (htorn : (s.q q).torn = some (t0, t1, n)) (h : s.ref < t1 + 150 ∨ ringHeld s q = true) : Idle (.commandRefetch q) s := by
  change execCommandRefetch q s = _
  unfold execCommandRefetch
  have hstop : (!fetchOn s q || decide (s.ref < t1 + 150) || ringHeld s q) = true := by
    rcases h with h | h
    · rw [decide_eq_true h, Bool.or_true, Bool.true_or]
    · rw [h, Bool.or_true]
  rw [htorn]
  dsimp only
  rw [if_pos hstop, onUnit, if_pos (decide_eq_true hq)]

/-- The command is read again. -/
theorem exec_commandRefetch_reads (hon : fetchOn s q = true) {t0 t1 n : Nat} (htorn : (s.q q).torn = some (t0, t1, n)) (hdue : t1 + 150 ≤ s.ref) (hring : ringHeld s q = false)
    {r : State} {b : List Byte} (hread : readCmd (s.inc (pQueue q) 0x218 1) q = (r, some b)) :
    exec (.commandRefetch q) s = .next (if sealOk b (s.rd (pQueue q) 0x204) (s.rdB (pQueue q) 0x104 4) then tryAccept (r.setQ q { r.q q with torn := none }) q b none
      else if 64 ≤ n + 1 ∨ t0 + 10000 ≤ s.ref then tornCmd r q b else r.setQ q { r.q q with torn := some (t0, s.ref, n + 1) }) := by
  have hgo : (!fetchOn s q || decide (s.ref < t1 + 150) || ringHeld s q) = false := by
    rw [hon, hring, decide_eq_false (by omega)]
    rfl
  change execCommandRefetch q s = _
  unfold execCommandRefetch
  rw [htorn]
  dsimp only
  rw [hgo, if_neg Bool.false_ne_true, onUnit, if_pos (decide_eq_true hq), hread]
  rfl

end

theorem versionBad_congr {s t : State} {q : Nat} {b : List Byte} (h : t.rd (pQueue q) 0x104 = s.rd (pQueue q) 0x104) : VersionBad t q b ↔ VersionBad s q b := by
  rw [VersionBad, VersionBad, State.rdF, State.rdF, State.rdF, State.rdF, h]

theorem epochOk_congr {s t : State} {q : Nat} {b : List Byte} (h : t.rd (pQueue q) 0x28 = s.rd (pQueue q) 0x28) : EpochOk t q b ↔ EpochOk s q b := by
  rw [EpochOk, EpochOk, h]

/-! The cases of the statement. -/

section
variable {s : State} {q : Nat} {b : List Byte} (hq : q < 16384) (hon : fetchOn s q = true)

include hq hon

/-- The first read in the queue's turn. -/
theorem commandFetch_cases (hnext : fetchIsNext s q = true) (htorn : (s.q q).torn = none) (hheld : (s.q q).held = none) (hstall : pXlat ∉ s.stalls)
    (hring : ringHeld s q = false) {r : State} (hread : readCmd { s with fetchTurn := q } q = (r, some b)) :
    r = { s with fetchTurn := q, regs := r.regs, log := r.log, mem := r.mem }
    ∧ (sealOk b (s.rd (pQueue q) 0x204) (s.rdB (pQueue q) 0x104 4) = false → Completes (.commandFetch q) s (fun t =>
        (t.q q).torn = some (s.ref, s.ref, 0) ∧ t = { r with qs := t.qs }))
    ∧ (sealOk b (s.rd (pQueue q) 0x204) (s.rdB (pQueue q) 0x104 4) = true → VersionBad s q b → Completes (.commandFetch q) s (fun t => CheckFailed r t q b 0x31 0))
    ∧ (sealOk b (s.rd (pQueue q) 0x204) (s.rdB (pQueue q) 0x104 4) = true → ¬ VersionBad s q b → ∀ c o, firstCmdBad b = some (c, o) →
        Completes (.commandFetch q) s (fun t => CheckFailed r t q b c o))
    ∧ (sealOk b (s.rd (pQueue q) 0x204) (s.rdB (pQueue q) 0x104 4) = true → ¬ VersionBad s q b → firstCmdBad b = none → ¬ EpochOk s q b →
        Completes (.commandFetch q) s (fun t =>
          ∃ u, OnlyWords r u [(pQueue q, 0x708)] ∧ u.rd (pQueue q) 0x708 = (s.rd (pQueue q) 0x708 + 1) % 2 ^ 32 ∧ CheckFailed u t q b 0x33 4))
    ∧ (sealOk b (s.rd (pQueue q) 0x204) (s.rdB (pQueue q) 0x104 4) = true → ¬ VersionBad s q b → firstCmdBad b = none → EpochOk s q b →
        (∃ t ∈ cmdTiles b, tileFed r q t = false) →
        Completes (.commandFetch q) s (fun t => CheckFailed r t q b 0x34 (if cmdLe b 1 1 = 8 then 0x11 else 0x10)))
    ∧ (sealOk b (s.rd (pQueue q) 0x204) (s.rdB (pQueue q) 0x104 4) = true → ¬ VersionBad s q b → firstCmdBad b = none → EpochOk s q b →
        (∀ t ∈ cmdTiles b, tileFed r q t = true) → cmdAddrs b = [] → Completes (.commandFetch q) s (fun t =>
          (∃ c : Cmd, t.cmds = s.cmds ++ [c] ∧ c.queue = q ∧ c.pos = s.rd (pQueue q) 0x204 ∧ c.bytes = b ∧ c.op = cmdLe b 1 1
            ∧ c.bad = false ∧ c.begun = false ∧ c.fault = none ∧ c.pool = none ∧ c.targets = (cmdTiles b).map (fun t => (t, s.rd (pTile t) 0x28)))
          ∧ t.rd (pQueue q) 0x204 = (s.rd (pQueue q) 0x204 + cmdBf b 2 0 6 + 1) % 2 ^ 32 ∧ t.rd pQeng 0x204 = (s.rd pQeng 0x204 + 1) % 2 ^ 32
          ∧ t = { r with regs := t.regs, cmds := t.cmds, nextUid := s.nextUid + 1, qs := t.qs })) := by
  have hexec := exec_commandFetch_reads hq hnext (fetchReady_of hon htorn hheld hstall hring) hheld hread
  have hring := readCmd_read hread
  have honly := hring.only
  have hrd (p : Page) (a : Nat) (ha : a % 0x1000 / 4 ∉ [0x6F4 / 4, 0x6F8 / 4, 0x6FC / 4]) : r.rd p a = s.rd p a := hring.rd p a ha
  have hversion : VersionBad r q b ↔ VersionBad s q b := versionBad_congr (hrd _ _ (by decide))
  have hepoch : EpochOk r q b ↔ EpochOk s q b := epochOk_congr (hrd _ _ (by decide))
  refine ⟨honly, fun hs => ?torn, fun hs hv => ?version, fun hs hv c o hf => ?fields, fun hs hv hf he => ?epoch, fun hs hv hf he ht => ?tiles,
    fun hs hv hf he ht ha => ?accepted⟩
  case torn =>
    rw [if_neg (by rw [hs]; decide)] at hexec
    refine ⟨_, hexec, ?_, rfl⟩
    rw [State.q, State.setQ, fget_fset_self]
  all_goals
    rw [if_pos hs] at hexec
    rw [← hversion] at hv
  case version =>
    rw [tryAccept_version none hv] at hexec
    exact ⟨_, hexec, failCheck_failed ..⟩
  case fields =>
    rw [tryAccept_fields none hv hf] at hexec
    exact ⟨_, hexec, failCheck_failed ..⟩
  all_goals rw [← hepoch] at he
  case epoch =>
    rw [tryAccept_epoch none hv hf he] at hexec
    exact ⟨_, hexec, _, inc_onlyWord r (pQueue q) 0x708 1, by rw [rd_inc_self, hrd _ _ (by decide)], failCheck_failed ..⟩
  case tiles =>
    rw [tryAccept_tiles none hv hf he ht] at hexec
    exact ⟨_, hexec, failCheck_failed ..⟩
  case accepted =>
    rw [tryAccept_accepts none hv hf he ht ha] at hexec
    obtain ⟨⟨c, hcmds, hqueue, hpos, hbytes, hop, hbad, hbegun, hfault, hpool, htargets⟩, hhead, hcount, hleft⟩ := acceptCmd_accepts r q b rfl
    have hsame : r.cmds = s.cmds ∧ r.nextUid = s.nextUid := by rw [honly]; exact ⟨rfl, rfl⟩
    have htiles : (cmdTiles b).map (fun t => (t, r.rd (pTile t) 0x28)) = (cmdTiles b).map (fun t => (t, s.rd (pTile t) 0x28)) :=
      List.map_congr_left fun t _ => by rw [hrd _ _ (by decide)]
    rw [hrd _ _ (by decide)] at hpos hhead hcount
    rw [htiles] at htargets
    rw [hsame.1] at hcmds
    rw [hsame.2] at hleft
    exact ⟨_, hexec, ⟨c, hcmds, hqueue, hpos, hbytes, hop, hbad, hbegun, hfault, hpool, htargets⟩, hhead, hcount, hleft⟩

/-- A later read of a torn command. -/
theorem commandRefetch_cases {t0 t1 n : Nat} (htorn : (s.q q).torn = some (t0, t1, n)) (hdue : t1 + 150 ≤ s.ref) (hheld : ringHeld s q = false) {r : State}
    (hread : readCmd (s.inc (pQueue q) 0x218 1) q = (r, some b)) :
    (sealOk b (s.rd (pQueue q) 0x204) (s.rdB (pQueue q) 0x104 4) = false → n + 1 < 64 → s.ref < t0 + 10000 → Completes (.commandRefetch q) s (fun t =>
        (t.q q).torn = some (t0, s.ref, n + 1) ∧ t = { r with qs := t.qs }))
    ∧ (sealOk b (s.rd (pQueue q) 0x204) (s.rdB (pQueue q) 0x104 4) = false → 64 ≤ n + 1 ∨ t0 + 10000 ≤ s.ref → Completes (.commandRefetch q) s (fun t =>
        qState t q = 3 ∧ t.rd (pQueue q) 0x204 = s.rd (pQueue q) 0x204 ∧ t.rdB (pQueue q) 0x18 8 = true ∧ t.rd pQeng 0x208 = (s.rd pQeng 0x208 + 1) % 2 ^ 32
        ∧ (∃ c : Cmd, t.cmds = s.cmds ++ [c] ∧ c.bad = true ∧ c.fault = some ⟨0x30, 0, 0xFF, 0⟩ ∧ c.queue = q ∧ c.pos = s.rd (pQueue q) 0x204)))
    ∧ (sealOk b (s.rd (pQueue q) 0x204) (s.rdB (pQueue q) 0x104 4) = true → ¬ VersionBad s q b → ∀ c o, firstCmdBad b = some (c, o) →
        Completes (.commandRefetch q) s (fun t => ∃ w, CheckFailed w t q b c o ∧ w = { r with qs := w.qs } ∧ (w.q q).torn = none)) := by
  have hexec := exec_commandRefetch_reads hq hon htorn hdue hheld hread
  have hring := readCmd_read hread
  have honly := hring.only
  have hrdq (a : Nat) (ha : a % 0x1000 / 4 ∉ [0x6F4 / 4, 0x6F8 / 4, 0x6FC / 4] ∧ a % 4 = 0 ∧ a ≠ 0x218) : r.rd (pQueue q) a = s.rd (pQueue q) a :=
    (hring.rd _ a ha.1).trans (rd_wr_off _ _ _ (by decide) ha.2.1 ha.2.2)
  refine ⟨fun hs hn ht => ?again, fun hs hend => ?torn, fun hs hv c o hf => ?fields⟩
  case again =>
    rw [if_neg (by rw [hs]; decide), if_neg (by omega)] at hexec
    refine ⟨_, hexec, ?_, rfl⟩
    rw [State.q, State.setQ, fget_fset_self]
  case torn =>
    rw [if_neg (by rw [hs]; decide), if_pos hend] at hexec
    obtain ⟨hstate, hhead, hflag, hcount, c, hcmds, hbad, hfault, hqueue, hpos⟩ := tornCmd_stops r q b rfl
    have hsame : r.cmds = (s.inc (pQueue q) 0x218 1).cmds := by rw [honly]
    have hqeng : r.rd pQeng 0x208 = s.rd pQeng 0x208 := (hring.rd _ _ (by decide)).trans (rd_wr_pQueue _ _ _ _ (by decide))
    rw [hrdq 0x204 (by decide)] at hhead hpos
    rw [hqeng] at hcount
    rw [hsame, State.inc_cmds] at hcmds
    exact ⟨_, hexec, hstate, hhead, hflag, hcount, c, hcmds, hbad, hfault, hqueue, hpos⟩
  case fields =>
    have hversion : ¬ VersionBad (r.setQ q { r.q q with torn := none }) q b := fun h => hv ((versionBad_congr (hrdq 0x104 (by decide))).mp h)
    rw [if_pos hs, tryAccept_fields none hversion hf] at hexec
    refine ⟨_, hexec, _, failCheck_failed .., rfl, ?_⟩
    rw [State.q, State.setQ, fget_fset_self]

end

/-- Settles O41: a read leaves every register that the checks look at, and each check answers as its place in the order says. -/
theorem commandFetch : Obligations.CommandFetch := by
  unfold Obligations.CommandFetch
  intro s q b hq hon
  refine ⟨fun r hnext htorn hheld hstall hring hread => commandFetch_cases hq hon hnext htorn hheld hstall hring hread, fun h => commandFetch_idle hq (.inr h),
    fun t0 t1 n htorn => ⟨commandFetch_idle hq (.inl (fetchReady_torn htorn)), commandRefetch_idle hq htorn,
      fun r hdue hring hread => commandRefetch_cases hq hon htorn hdue hring hread⟩⟩

end Sys2Proof.Machine
end

section
/-! SUPPORT. An operation of the queue engine finds its command begun, and all else as before (09_command_queues.md R290): what it reads of the state reads as in the state before. -/

namespace Sys2Proof.Machine

open Sys2Proof

/-- The commands before one of them do not change with it. -/
theorem takeWhile_lupdate_uid {uid : Nat} {k : Cmd} (hk : k.uid = uid) (l : List Cmd) :
    (lupdate (fun x => decide (x.uid = uid)) (fun _ => k) l).takeWhile (fun x => decide (x.uid ≠ uid)) = l.takeWhile (fun x => decide (x.uid ≠ uid)) := by
  induction l with
  | nil => rfl
  | cons x l ih =>
    rw [lupdate, List.map_cons, ← lupdate]
    by_cases hx : x.uid = uid
    · rw [if_pos (decide_eq_true hx), List.takeWhile_cons_of_neg (by simp [hk]), List.takeWhile_cons_of_neg (by simp [hx])]
    · rw [if_neg (by simpa using hx), List.takeWhile_cons_of_pos (by simpa using hx), List.takeWhile_cons_of_pos (by simpa using hx), ih]

/-- The command `k` in the list `l` of commands in which the operation of command `c` runs: it has begun, and the commands before it are as they were. -/
structure CmdStands (s : State) (c k : Cmd) (l : List Cmd) : Prop where
  same : ∃ b m, k = { c with begun := b, since := m }
  before : cmdBefore { s with cmds := l } k = cmdBefore s c
  moved : ∀ f : Cmd → Cmd, lupdate (fun x => decide (x.uid = c.uid)) f l = lupdate (fun x => decide (x.uid = c.uid)) (fun x => f (begunAs s c x)) s.cmds

theorem CmdRuns.stands {s : State} {q : Nat} {pos : BitVec 32} {op : Nat} {c : Cmd} (h : CmdRuns s q pos op c) :
    ∃ k l, CmdStands s c k l ∧ ∀ f, runCmd q pos op s f = .next (f k { s with cmds := l }) := by
  obtain ⟨hq, halive, hpower, hat, hstands⟩ := h
  have hrun : ∀ f, runCmd q pos op s f = .next (if c.begun then (if c.stage = 2 then s else f c s)
      else if mayBegin s c then f { c with begun := true, since := s.ref } (s.modCmd c.uid (fun _ => { c with begun := true, since := s.ref })) else s) := by
    intro f
    rw [runCmd, onUnit, if_pos (decide_eq_true hq), if_neg (by simp [halive, hpower]), hat]
  obtain ⟨hbegun, hstage⟩ | ⟨hbegun, hmay⟩ := hstands
  · refine ⟨c, s.cmds, ⟨⟨c.begun, c.since, rfl⟩, rfl, fun f => by simp only [begunAs, if_pos hbegun]⟩, fun f => ?_⟩
    rw [hrun, if_pos hbegun, if_neg hstage]
  · refine ⟨{ c with begun := true, since := s.ref }, lupdate (fun x => decide (x.uid = c.uid)) (fun _ => { c with begun := true, since := s.ref }) s.cmds,
      ⟨⟨true, s.ref, rfl⟩, ?_, fun f => ?_⟩, fun f => ?_⟩
    · exact congrArg (List.filter _) (takeWhile_lupdate_uid rfl s.cmds)
    · simp only [begunAs, hbegun]
      exact lupdate_lupdate _ _ _ _ fun _ _ => decide_eq_true rfl
    · rw [hrun, hbegun, if_neg (by decide), if_pos hmay]
      rfl

/-! What does not look at the commands. -/

section
variable (s : State) (l : List Cmd)

theorem cmdPieces_cmds (e : Extent) (lim f o : Nat) : cmdPieces { s with cmds := l } e lim f o = cmdPieces s e lim f o := by
  induction f generalizing o with
  | zero => rfl
  | succ f ih =>
    have hfault : extFault { s with cmds := l } e o = extFault s e o := rfl
    have haddr : extAddr { s with cmds := l } e o = extAddr s e o := rfl
    simp only [cmdPieces, hfault, haddr, ih]

theorem dirPieces_cmds (x : Cmd) (off lim : Nat) : dirPieces { s with cmds := l } x off lim = dirPieces s x off lim := by
  unfold dirPieces
  split
  · exact cmdPieces_cmds ..
  · rfl

theorem cmdOpen_cmds (x : Cmd) : cmdOpen { s with cmds := l } x = cmdOpen s x := by
  have hlen (c : Nat) : connLen { s with cmds := l } c = connLen s c := rfl
  simp only [cmdOpen, dirPieces_cmds, hlen]

theorem far_cmds (x : CPiece) : x.far { s with cmds := l } = x.far s := rfl

theorem any_far_cmds (ps : List CPiece) : ps.any (CPiece.far { s with cmds := l }) = ps.any (CPiece.far s) := rfl

theorem memHeld_cmds (r : Requester) (a n : Nat) : memHeld { s with cmds := l } r a n = memHeld s r a n := rfl

theorem piecesHeld_cmds (ps : List CPiece) : piecesHeld { s with cmds := l } ps = piecesHeld s ps := rfl

theorem connState_cmds (c : Nat) : connState { s with cmds := l } c = connState s c := rfl

end

/-! What looks at the command and at those before it. -/

section
variable {s : State} {c k : Cmd} {l : List Cmd} (h : CmdStands s c k l)

include h

theorem CmdStands.uid : k.uid = c.uid := by obtain ⟨b, m, rfl⟩ := h.same; rfl

theorem CmdStands.bytes : k.bytes = c.bytes := by obtain ⟨b, m, rfl⟩ := h.same; rfl

theorem CmdStands.stage : k.stage = c.stage := by obtain ⟨b, m, rfl⟩ := h.same; rfl

theorem CmdStands.targets : k.targets = c.targets := by obtain ⟨b, m, rfl⟩ := h.same; rfl

theorem CmdStands.extents : k.extents = c.extents := by obtain ⟨b, m, rfl⟩ := h.same; rfl

theorem CmdStands.got : k.got = c.got := by obtain ⟨b, m, rfl⟩ := h.same; rfl

theorem CmdStands.remote : k.remote = c.remote := by obtain ⟨b, m, rfl⟩ := h.same; rfl

theorem CmdStands.earlierDone : earlierDone { s with cmds := l } k = Machine.earlierDone s c := by
  unfold Machine.earlierDone
  rw [h.before]
  rfl

theorem CmdStands.releaseLost : releaseLost { s with cmds := l } k = Machine.releaseLost s c := by
  have hlost : (({ s with cmds := l } : State).q k.queue).lost = (s.q c.queue).lost := by
    obtain ⟨b, m, rfl⟩ := h.same
    rfl
  rw [Machine.releaseLost, Machine.releaseLost, h.before, hlost]

theorem CmdStands.cmdOverlaps (ps : List CPiece) : cmdOverlaps { s with cmds := l } k ps = Machine.cmdOverlaps s c ps := by
  simp only [Machine.cmdOverlaps, h.before, cmdOpen_cmds]

theorem CmdStands.dirPieces (off lim : Nat) : dirPieces { s with cmds := l } k off lim = Machine.dirPieces s c off lim := by
  rw [dirPieces_cmds]
  obtain ⟨b, m, rfl⟩ := h.same
  rfl

theorem CmdStands.inlinePieces : inlinePieces { s with cmds := l } k = Machine.inlinePieces s c := by
  have hlen (n : Nat) : connLen { s with cmds := l } n = connLen s n := rfl
  simp only [Machine.inlinePieces, h.dirPieces, h.bytes, hlen]

theorem CmdStands.cmdConnOk (conn : Nat) (ps : List CPiece) : cmdConnOk { s with cmds := l } k conn ps = Machine.cmdConnOk s c conn ps := by
  obtain ⟨b, m, rfl⟩ := h.same
  rfl

/-- Pieces of this module that memory does not hold, and that no earlier command has to perform, are accessed now. -/
theorem CmdStands.piecesReady {ps : List CPiece} (hheld : piecesHeld s ps = false) (hnear : ps.any (CPiece.far s) = false)
    (hfree : Machine.cmdOverlaps s c ps = false) (conn : Nat) : piecesReady { s with cmds := l } k conn ps = true := by
  unfold Machine.piecesReady
  rw [h.cmdOverlaps, hfree, any_far_cmds, hnear, piecesHeld_cmds, hheld]
  rfl

/-- The operation moves its command. -/
theorem CmdStands.cmdMoved {t : State} (f : Cmd → Cmd) (ht : t.cmds = lupdate (fun x => decide (x.uid = k.uid)) f l) : CmdMoved s t c f := by
  rw [h.uid] at ht
  exact ht.trans (h.moved f)

/-- The operation fails its command. -/
theorem CmdStands.fails (code detail : Nat) {t : State} (ht : t = cmdFail { s with cmds := l } k code detail) :
    CmdMoved s t c (fun y => { y with stage := 2, fault := y.fault <|> some ⟨code, 0, 0xFF, detail⟩ }) ∧ t = { s with cmds := t.cmds } := by
  obtain ⟨hcmds, honly⟩ := cmdFail_leaves { s with cmds := l } k code detail
  rw [ht]
  exact ⟨h.cmdMoved _ hcmds, honly⟩

/-- The operation ends its command without more. -/
theorem CmdStands.ends {u : State} (hu : u.cmds = l) : CmdMoved s (cmdEnd2 u k.uid) c (fun y => { y with stage := 2 }) := by
  refine h.cmdMoved _ ?_
  rw [← hu]
  rfl

/-- The operation leaves its command where it stands. -/
theorem CmdStands.stays : CmdMoved s { s with cmds := l } c id := by
  refine h.cmdMoved id ?_
  simp [lupdate]

end

end Sys2Proof.Machine
end

section
/-! SUPPORT. LAUNCH and DMA (09_command_queues.md R290). -/

namespace Sys2Proof.Machine

open Sys2Proof

theorem cmdEnd2_tile (s : State) (uid t : Nat) : (cmdEnd2 s uid).tile t = s.tile t := rfl

/-- The launch that a command sends to the tile at place `i` of its targets. -/
def launchTo (c : Cmd) (q gen : Nat) (x : Nat × (Nat × Nat)) : Arrive :=
  ⟨c.uid, q, gen, x.2.2, cmdLe c.bytes 0x1C 4 + x.1 * cmdLe c.bytes 0x14 4, slice c.bytes 0x18 80, c.extents⟩

def sendLaunch (c : Cmd) (q gen : Nat) (s : State) (x : Nat × (Nat × Nat)) : State :=
  s.modTile x.2.1 (fun T => { T with arriving := T.arriving ++ [launchTo c q gen x] })

/-- Every target with its place. -/
def placedTargets (c : Cmd) : List (Nat × (Nat × Nat)) := (List.range c.targets.length).zip c.targets

section
variable (c : Cmd) (q gen : Nat)

theorem sendLaunches_only (xs : List (Nat × (Nat × Nat))) (s : State) : xs.foldl (sendLaunch c q gen) s = { s with tiles := (xs.foldl (sendLaunch c q gen) s).tiles } := by
  induction xs generalizing s with
  | nil => rfl
  | cons x xs ih =>
    rw [List.foldl_cons, ih]
    rfl

/-- A tile that no launch names is as before. -/
theorem sendLaunches_other {t : Nat} {xs : List (Nat × (Nat × Nat))} (h : t ∉ xs.map (fun x => x.2.1)) (s : State) : (xs.foldl (sendLaunch c q gen) s).tile t = s.tile t := by
  induction xs generalizing s with
  | nil => rfl
  | cons x xs ih =>
    rw [List.map_cons, List.mem_cons, not_or] at h
    rw [List.foldl_cons, ih h.2]
    exact tile_modTile_ne s _ h.1

/-- Of launches to different tiles each reaches its own. -/
theorem sendLaunches_named {xs : List (Nat × (Nat × Nat))} (hnodup : (xs.map (fun x => x.2.1)).Nodup) {x : Nat × (Nat × Nat)} (hx : x ∈ xs) (s : State) :
    (xs.foldl (sendLaunch c q gen) s).tile x.2.1 = { s.tile x.2.1 with arriving := (s.tile x.2.1).arriving ++ [launchTo c q gen x] } := by
  induction xs generalizing s with
  | nil => cases hx
  | cons y xs ih =>
    rw [List.map_cons, List.nodup_cons] at hnodup
    rw [List.foldl_cons]
    rcases List.mem_cons.mp hx with rfl | hx
    · rw [sendLaunches_other c q gen hnodup.1]
      exact tile_modTile_self ..
    · have hne : x.2.1 ≠ y.2.1 := fun e => hnodup.1 (e ▸ List.mem_map_of_mem (f := fun x : Nat × (Nat × Nat) => x.2.1) hx)
      rw [ih hnodup.2 hx, sendLaunch, tile_modTile_ne s _ hne]

theorem placedTargets_tiles : (placedTargets c).map (fun x => x.2.1) = c.targets.map (fun x => x.1) := by
  have hsnd : (placedTargets c).map Prod.snd = c.targets := List.map_snd_zip (by simp)
  conv_rhs => rw [← hsnd, List.map_map]
  rfl

theorem mem_placedTargets {i : Nat} {x : Nat × Nat} (h : c.targets[i]? = some x) : (i, x) ∈ placedTargets c := by
  obtain ⟨hi, rfl⟩ := List.getElem?_eq_some_iff.mp h
  refine List.mem_iff_getElem.mpr ⟨i, by simpa [placedTargets] using hi, ?_⟩
  simp [placedTargets]

end

theorem launch_completes {s : State} {q : Nat} {pos : BitVec 32} {c : Cmd} (h : CmdRuns s q pos 1 c) (hnodup : (c.targets.map (fun x => x.1)).Nodup) :
    Completes (.launch q pos) s (fun t => CmdMoved s t c (fun k => { k with stage := 2 })
      ∧ (∀ i x, c.targets[i]? = some x → t.tile x.1 = { s.tile x.1 with arriving := (s.tile x.1).arriving ++
          [⟨c.uid, q, qGen s q, x.2, cmdLe c.bytes 0x1C 4 + i * cmdLe c.bytes 0x14 4, slice c.bytes 0x18 80, c.extents⟩] })
      ∧ (∀ k, k ∉ c.targets.map (fun x => x.1) → t.tile k = s.tile k) ∧ t = { s with cmds := t.cmds, tiles := t.tiles }) := by
  obtain ⟨k, l, hs, hrun⟩ := h.stands
  have hplaced : placedTargets k = placedTargets c := by rw [placedTargets, placedTargets, hs.targets]
  have hsend : launchTo k q (qGen s q) = launchTo c q (qGen s q) := by
    funext x
    rw [launchTo, launchTo, hs.uid, hs.bytes, hs.extents]
  have hexec : exec (.launch q pos) s = .next (cmdEnd2 ((placedTargets k).foldl (sendLaunch k q (qGen s q)) { s with cmds := l }) k.uid) := by
    change execLaunch q pos s = _
    rw [execLaunch, hrun]
    rfl
  have honly := sendLaunches_only k q (qGen s q) (placedTargets k) { s with cmds := l }
  refine ⟨_, hexec, hs.ends (by rw [honly]), fun i x hx => ?_, fun t ht => ?_, ?_⟩
  · have hmem : (i, x) ∈ placedTargets k := by rw [hplaced]; exact mem_placedTargets c hx
    refine (sendLaunches_named k q (qGen s q) (by rw [hplaced, placedTargets_tiles]; exact hnodup) hmem { s with cmds := l }).trans ?_
    rw [hsend]
    rfl
  · exact sendLaunches_other k q (qGen s q) (by rw [hplaced, placedTargets_tiles]; exact ht) { s with cmds := l }
  · rw [cmdEnd2, honly]
    rfl

section
variable {s : State} {q : Nat} {pos : BitVec 32} {c : Cmd} {t epoch : Nat} (h : CmdRuns s q pos 2 c) (htargets : c.targets = [(t, epoch)]) (hpow : tilePowered s t = true)

include h htargets hpow

/-- A DMA command of one target that is powered goes by the binding of its tile and the room of its intake. -/
theorem exec_dma_powered : ∃ k l, CmdStands s c k l ∧ exec (.dma q pos) s = .next (
    if boundUnder s (pTile t) (qGen s q) epoch = false then cmdEnd2 (cmdFault { s with cmds := l } k.uid ⟨0x34, 0, t, 0x10⟩) k.uid
    else if intakeCap s t ≤ (s.tile t).dma.intake.length then { s with cmds := l }
    else cmdEnd2 (({ s with cmds := l } : State).modTile t (fun T => { T with
      dma := { T.dma with intake := T.dma.intake ++ [⟨(s.tile t).nextId, slice k.bytes 0x18 128, 0xFFFFFFFF, ⟨q, k.uid, none, 0⟩, k.extents, none, false, none⟩] },
      nextId := T.nextId + 1 })) k.uid) := by
  obtain ⟨k, l, hs, hrun⟩ := h.stands
  refine ⟨k, l, hs, ?_⟩
  change execDma q pos s = _
  rw [execDma, hrun, hs.targets, htargets]
  have hon : tilePowered { s with cmds := l } t = true := hpow
  dsimp only
  rw [hon, if_neg (by decide)]
  have hbound : boundUnder { s with cmds := l } (pTile t) (qGen { s with cmds := l } q) epoch = boundUnder s (pTile t) (qGen s q) epoch := rfl
  rw [hbound]
  cases boundUnder s (pTile t) (qGen s q) epoch <;> rfl

theorem dma_cases :
    (boundUnder s (pTile t) (qGen s q) epoch = true → (s.tile t).dma.intake.length < intakeCap s t → Completes (.dma q pos) s (fun u =>
        CmdMoved s u c (fun k => { k with stage := 2 }) ∧ (∃ d : Desc, d.bytes = slice c.bytes 0x18 128 ∧ d.iss = ⟨q, c.uid, none, 0⟩ ∧ d.extents = c.extents
          ∧ d.checked = false ∧ d.raw = none ∧ u.tile t = { s.tile t with dma := { (s.tile t).dma with intake := (s.tile t).dma.intake ++ [d] }, nextId := (s.tile t).nextId + 1 })
        ∧ (∀ j, j ≠ t → u.tile j = s.tile j) ∧ u = { s with cmds := u.cmds, tiles := u.tiles }))
    ∧ (boundUnder s (pTile t) (qGen s q) epoch = true → intakeCap s t ≤ (s.tile t).dma.intake.length → Completes (.dma q pos) s (fun u =>
        CmdMoved s u c id ∧ u = { s with cmds := u.cmds }))
    ∧ (boundUnder s (pTile t) (qGen s q) epoch = false → Completes (.dma q pos) s (fun u =>
        CmdMoved s u c (fun y => { y with stage := 2, fault := y.fault <|> some ⟨0x34, 0, t, 0x10⟩ }) ∧ u = { s with cmds := u.cmds })) := by
  obtain ⟨k, l, hs, hexec⟩ := exec_dma_powered h htargets hpow
  refine ⟨fun hb hroom => ?_, fun hb hfull => ?_, fun hb => ?_⟩
  · rw [if_neg (by rw [hb]; decide), if_neg (by omega)] at hexec
    refine ⟨_, hexec, hs.ends rfl, ⟨⟨(s.tile t).nextId, slice c.bytes 0x18 128, 0xFFFFFFFF, ⟨q, c.uid, none, 0⟩, c.extents, none, false, none⟩, rfl, rfl, rfl, rfl, rfl, ?_⟩,
      fun j hj => ?_, rfl⟩
    · rw [hs.bytes, hs.uid, hs.extents, cmdEnd2_tile, tile_modTile_self]
      rfl
    · rw [cmdEnd2_tile, tile_modTile_ne _ _ hj]
      rfl
  · rw [if_neg (by rw [hb]; decide), if_pos hfull] at hexec
    exact ⟨_, hexec, hs.stays, rfl⟩
  · rw [if_pos hb] at hexec
    exact ⟨_, hexec, hs.cmdMoved _ (lupdate_lupdate _ _ _ _ fun _ h => h), rfl⟩

end

end Sys2Proof.Machine
end

section
/-! SUPPORT. Writes of the queue engine (09_command_queues.md R290): what a faultless write of memory leaves for the next one. -/

namespace Sys2Proof.Machine

open Sys2Proof

theorem length_slice (l : List Byte) (off n : Nat) : (slice l off n).length = n := by
  simp only [slice, List.length_append, List.length_replicate, List.length_take, List.length_drop]
  omega

/-- A write that meets no fault makes raw blocks good and marks no stack failed. -/
theorem memWrite_written {s : State} (r : Requester) {a : Nat} {data : List Byte} (hf : memFault s a data.length = none) : Written s (memWrite s r a data).1 := by
  obtain ⟨hin, hfailed, hraw⟩ := memFault_none hf
  by_cases hlen : data.length = 0
  · simp only [memWrite, if_pos hlen]
    exact .refl s
  · have heq : (memWrite s r a data).1 = wroteBlocks { writeSkip (sliceTouch s r a data.length true) [] a data with
        raw := (writeSkip (sliceTouch s r a data.length true) [] a data).raw.filter
          (fun b => [].contains b || decide (¬ (a ≤ 64 * b ∧ 64 * b + 64 ≤ a + data.length))) } [] a data.length := by
      simp only [memWrite, if_neg hlen, hin, lostBlocks_of_failedAt hfailed, partRaw_of_rawIn hraw, List.filter_nil, List.append_nil]
      rfl
    obtain ⟨hbm, hskip⟩ := writeSkip_only [] data (sliceTouch s r a data.length true) a
    rw [heq, hskip]
    exact ⟨rfl, fun b hb => (List.mem_filter.mp hb).1, sliceTouch_failed ..⟩

section
variable {s u : State} (h : Written s u)

include h

theorem Written.regs : u.regs = s.regs := by rw [h.only]

/-- What met no fault before meets none after. -/
theorem Written.memFault {a n : Nat} (hf : memFault s a n = none) : memFault u a n = none := by
  obtain ⟨hin, hfailed, hraw⟩ := memFault_none hf
  have hin' : inHbm u a n = true := by
    have hend : memEnd u = memEnd s := by simp only [memEnd, State.rd64, rd_congr h.regs]
    rw [inHbm, hend]
    exact hin
  have hfailed' : failedAt u a n = none := by
    have hkey : mapKey u = mapKey s := by simp only [mapKey, State.rd64, rd_congr h.regs]
    rw [failedAt, h.failed, hkey]
    exact hfailed
  have hraw' : rawIn u a n = none := by
    rw [rawIn, List.find?_eq_none] at hraw ⊢
    exact fun b hb => hraw b (h.raw b hb)
  rw [Machine.memFault, hin', hfailed', hraw']
  rfl

theorem Written.far (x : CPiece) : x.far u = x.far s := by
  have hloc : locate u x.ga x.n = locate s x.ga x.n := by
    have hnode : nodeId u = nodeId s := rd_congr h.regs ..
    have hend : memEnd u = memEnd s := by simp only [memEnd, State.rd64, rd_congr h.regs]
    rw [locate, locate, inHbm, inHbm, hnode, hend]
  rw [CPiece.far, hloc, CPiece.far]

end

/-- One piece of this module is written at once. -/
theorem writePieces_near {s : State} (c : Cmd) (conn ord part : Nat) (data : List Byte) {x : CPiece} (hfar : x.far s = false) (hf : memFault s x.a x.n = none) :
    ∃ v, writePieces c conn ord part data [x] s = (v, none) ∧ Written s v
      ∧ (∀ i, i < x.n → v.hb (x.a + i) = ((slice data x.off x.n)[i]?).getD 0) ∧ (∀ k, (k < x.a ∨ x.a + x.n ≤ k) → v.hb k = s.hb k) := by
  have hlen := length_slice data x.off x.n
  rw [← hlen] at hf
  obtain ⟨v, hwrite, -, hin, hout⟩ := memWrite_made .qeng hf
  have hwritten := memWrite_written .qeng hf
  rw [hwrite] at hwritten
  rw [hlen] at hout
  refine ⟨v, ?_, hwritten, fun i hi => ?_, hout⟩
  · simp only [writePieces, hfar, Bool.false_eq_true, if_false, hwrite]
    rfl
  · have hi' : i < (slice data x.off x.n).length := by rwa [hlen]
    rw [hin i hi', List.getElem?_eq_getElem hi']
    rfl

end Sys2Proof.Machine
end

section
/-! SUPPORT. WRITE_INLINE (09_command_queues.md R284, R290). -/

namespace Sys2Proof.Machine

open Sys2Proof

/-- The data of a WRITE_INLINE are written, and its flag goes with them, or waits where it is a release. -/
def inlineBegins (c : Cmd) (d f : List CPiece) (s : State) : State :=
  let r := writePieces c (cmdBf c.bytes 0x1C 0 14) 0 0 (c.bytes.drop 0x30) d s
  let s1 := match r.2 with | some x => cmdFault r.1 c.uid ⟨x.1, 0, 0xFF, 0x10⟩ | none => r.1
  if f = [] then cmdEnd2 s1 c.uid
  else if ordRel (cmdLe c.bytes 0x1A 1) then s1.modCmd c.uid (fun k => { k with stage := 1 })
  else cmdEnd2 (inlineFlag s1 c f) c.uid

/-- The data have been written. -/
theorem inlineBegins_of_written {c : Cmd} {d f : List CPiece} {s v : State} (h : writePieces c (cmdBf c.bytes 0x1C 0 14) 0 0 (c.bytes.drop 0x30) d s = (v, none)) :
    inlineBegins c d f s = if f = [] then cmdEnd2 v c.uid
      else if ordRel (cmdLe c.bytes 0x1A 1) then v.modCmd c.uid (fun k => { k with stage := 1 }) else cmdEnd2 (inlineFlag v c f) c.uid := by
  rw [inlineBegins, h]

/-- The flag has been written without a release. -/
theorem inlineFlag_plain {c : Cmd} {f : List CPiece} {s v : State} (hrel : ordRel (cmdLe c.bytes 0x1A 1) = false)
    (h : writePieces c (cmdBf c.bytes 0x1C 0 14) 0 1 (slice c.bytes 0x28 8) f s = (v, none)) : inlineFlag s c f = v := by
  simp only [inlineFlag, hrel, Bool.false_eq_true, if_false, h]

section
variable {s : State} {q : Nat} {pos : BitVec 32} {c : Cmd} {x : CPiece} {f : List CPiece} (h : CmdRuns s q pos 3 c) (hstage : c.stage = 0)
  (hpieces : inlinePieces s c = .ok ([x], f))

include h hstage hpieces

theorem exec_writeInline_begins : ∃ k l, CmdStands s c k l ∧ exec (.writeInline q pos) s = .next (
    if ((x :: f).any (CPiece.far s) && !cmdConnOk s c (cmdBf c.bytes 0x1C 0 14) (x :: f)) = true then cmdFail { s with cmds := l } k 0x2A 0x1C
    else if (!piecesReady { s with cmds := l } k (cmdBf c.bytes 0x1C 0 14) (x :: f)) = true then { s with cmds := l }
    else inlineBegins k [x] f { s with cmds := l }) := by
  obtain ⟨k, l, hs, hrun⟩ := h.stands
  refine ⟨k, l, hs, ?_⟩
  change execWriteInline q pos s = _
  rw [execWriteInline, hrun]
  dsimp only
  rw [hs.inlinePieces, hpieces]
  dsimp only
  rw [if_pos (hs.stage.trans hstage), List.singleton_append, any_far_cmds, hs.bytes, hs.cmdConnOk, ← hs.bytes]
  rfl

/-- The pieces of this module that can be written now begin the command. -/
theorem exec_writeInline_near (hnear : (x :: f).any (CPiece.far s) = false) (hheld : piecesHeld s (x :: f) = false) (hfree : cmdOverlaps s c (x :: f) = false) :
    ∃ k l, CmdStands s c k l ∧ exec (.writeInline q pos) s = .next (inlineBegins k [x] f { s with cmds := l }) := by
  obtain ⟨k, l, hs, hexec⟩ := exec_writeInline_begins h hstage hpieces
  rw [if_neg (by rw [hnear]; exact Bool.false_ne_true), if_neg (by rw [hs.piecesReady hheld hnear hfree]; exact Bool.false_ne_true)] at hexec
  exact ⟨k, l, hs, hexec⟩

/-- The data alone, or the data before a flag that is a release. -/
theorem writeInline_data (hnear : (x :: f).any (CPiece.far s) = false) (hheld : piecesHeld s (x :: f) = false) (hfree : cmdOverlaps s c (x :: f) = false)
    (hf : memFault s x.a x.n = none) (hflag : f = [] ∨ ordRel (cmdLe c.bytes 0x1A 1) = true) : Completes (.writeInline q pos) s (fun t =>
      CmdMoved s t c (fun k => { k with stage := if f = [] then 2 else 1 })
      ∧ (∀ i, i < x.n → t.hb (x.a + i) = ((slice (c.bytes.drop 0x30) x.off x.n)[i]?).getD 0) ∧ (∀ a, a < x.a ∨ x.a + x.n ≤ a → t.hb a = s.hb a)
      ∧ t = { s with cmds := t.cmds, hbm := t.hbm, raw := t.raw, mem := t.mem }) := by
  obtain ⟨k, l, hs, hexec⟩ := exec_writeInline_near h hstage hpieces hnear hheld hfree
  have hxfar : x.far { s with cmds := l } = false := (Bool.or_eq_false_iff.mp hnear).1
  obtain ⟨v, hwrite, hwritten, hin, hout⟩ := writePieces_near (s := { s with cmds := l }) k (cmdBf k.bytes 0x1C 0 14) 0 0 (k.bytes.drop 0x30) hxfar hf
  rw [hs.bytes] at hin
  have honly := hwritten.only
  have hcmds : v.cmds = l := by rw [honly]
  rw [inlineBegins_of_written hwrite] at hexec
  by_cases hempty : f = []
  · rw [if_pos hempty] at hexec
    refine ⟨_, hexec, ?_, hin, hout, by rw [honly]; rfl⟩
    rw [if_pos hempty]
    exact hs.ends hcmds
  · rw [if_neg hempty, hs.bytes, if_pos (hflag.resolve_left hempty)] at hexec
    refine ⟨_, hexec, ?_, hin, hout, by rw [honly]; rfl⟩
    rw [if_neg hempty]
    exact hs.cmdMoved _ (by rw [← hcmds]; rfl)

/-- The data and a flag that goes with them. -/
theorem writeInline_flag (hnear : (x :: f).any (CPiece.far s) = false) {y : CPiece} (hfy : f = [y]) (hrel : ordRel (cmdLe c.bytes 0x1A 1) = false)
    (hheld : piecesHeld s [x, y] = false) (hfree : cmdOverlaps s c [x, y] = false) (hfx : memFault s x.a x.n = none) (hfault : memFault s y.a y.n = none)
    (hapart : x.a + x.n ≤ y.a ∨ y.a + y.n ≤ x.a) : Completes (.writeInline q pos) s (fun t => CmdMoved s t c (fun k => { k with stage := 2 })
      ∧ (∀ i, i < x.n → t.hb (x.a + i) = ((slice (c.bytes.drop 0x30) x.off x.n)[i]?).getD 0)
      ∧ (∀ i, i < y.n → t.hb (y.a + i) = ((slice (slice c.bytes 0x28 8) y.off y.n)[i]?).getD 0)
      ∧ (∀ a, (a < x.a ∨ x.a + x.n ≤ a) → (a < y.a ∨ y.a + y.n ≤ a) → t.hb a = s.hb a)
      ∧ t = { s with cmds := t.cmds, hbm := t.hbm, raw := t.raw, mem := t.mem }) := by
  subst hfy
  obtain ⟨k, l, hs, hexec⟩ := exec_writeInline_near h hstage hpieces hnear hheld hfree
  obtain ⟨hxfar, hyfar⟩ : x.far s = false ∧ y.far s = false := by simpa using hnear
  obtain ⟨v, hwrite, hwritten, hin, hout⟩ := writePieces_near (s := { s with cmds := l }) k (cmdBf k.bytes 0x1C 0 14) 0 0 (k.bytes.drop 0x30) hxfar hfx
  obtain ⟨w, hwrite', hwritten', hin', hout'⟩ := writePieces_near (s := v) k (cmdBf k.bytes 0x1C 0 14) 0 1 (slice k.bytes 0x28 8)
    ((hwritten.far y).trans hyfar) (hwritten.memFault hfault)
  rw [hs.bytes] at hin hin'
  have hflag : inlineFlag v k [y] = w := inlineFlag_plain (by rw [hs.bytes]; exact hrel) hwrite'
  have honly := (hwritten.trans hwritten').only
  rw [inlineBegins_of_written hwrite, if_neg (by simp), hs.bytes, if_neg (by rw [hrel]; exact Bool.false_ne_true), hflag] at hexec
  refine ⟨_, hexec, hs.ends (by rw [honly]), fun i hi => ?_, hin', fun a hx hy => ?_, by rw [honly]; rfl⟩
  · exact (hout' (x.a + i) (by omega)).trans (hin i hi)
  · exact (hout' a hy).trans (hout a hx)

/-- A remote piece over a connection that is not the job's. -/
theorem writeInline_refused (hfar : (x :: f).any (CPiece.far s) = true) (hconn : cmdConnOk s c (cmdBf c.bytes 0x1C 0 14) (x :: f) = false) :
    Completes (.writeInline q pos) s (fun t =>
      CmdMoved s t c (fun k => { k with stage := 2, fault := k.fault <|> some ⟨0x2A, 0, 0xFF, 0x1C⟩ }) ∧ t = { s with cmds := t.cmds }) := by
  obtain ⟨k, l, hs, hexec⟩ := exec_writeInline_begins h hstage hpieces
  rw [if_pos (by rw [hfar, hconn]; rfl)] at hexec
  exact ⟨_, hexec, hs.fails 0x2A 0x1C rfl⟩

end

end Sys2Proof.Machine
end

section
/-! SUPPORT. SIGNAL (09_command_queues.md R284, R290, 03_memory_model.md R82). -/

namespace Sys2Proof.Machine

open Sys2Proof

theorem leAt_lt (l : List Byte) (off n : Nat) : leAt l off n < 2 ^ (8 * n) := by
  refine Nat.lt_of_lt_of_le (leNat_lt _) (Nat.pow_le_pow_right (by decide) ?_)
  have := List.length_take_le n (l.drop off)
  omega

theorem sigApply_lt (op : Nat) {old v : Nat} (hold : old < 2 ^ 64) (hv : v < 2 ^ 64) : sigApply op old v < 2 ^ 64 := by
  unfold sigApply
  split
  · exact hv
  · exact Nat.mod_lt _ (Nat.two_pow_pos 64)
  · exact Nat.or_lt_two_pow hold hv

section
variable {s : State} {q : Nat} {pos : BitVec 32} {c : Cmd} (h : CmdRuns s q pos 4 c)

include h

theorem exec_signal_cases : ∃ k l, CmdStands s c k l ∧ exec (.signal q pos) s = .next (
    if (decide (cmdBf c.bytes 0x11 2 1 = 1) && !cmdConnOk s c (cmdBf c.bytes 0x16 0 14) []) = true then cmdFail { s with cmds := l } k 0x2A 0x16
    else if (!earlierDone s c) = true then { s with cmds := l }
    else if (releaseLost s c).isSome = true then cmdFail { s with cmds := l } k ((releaseLost s c).getD 0) 0x12
    else if cmdBf c.bytes 0x11 2 1 = 1 then
      if connState s (cmdBf c.bytes 0x16 0 14) ≠ 3 then { s with cmds := l }
      else connSend (({ s with cmds := l } : State).modCmd k.uid (fun y => { y with remote := 1, stage := 2 })) (cmdBf c.bytes 0x16 0 14)
        ⟨4, cmdLe c.bytes 0x12 1, 8, 0, 3, s.rdF (pConn (cmdBf c.bytes 0x16 0 14)) 0x108 0 20,
          cmdLe c.bytes 0x10 1 + 256 * cmdBf c.bytes 0x14 0 12 + 2 ^ 20 * cmdBf c.bytes 0x11 0 2, slice c.bytes 0x18 8, .cmd c.uid 0⟩
    else if (!tilePowered s (cmdLe c.bytes 0x10 1)) = true then { s with cmds := l }
    else match c.targets with
    | (_, epoch) :: _ =>
      if boundUnder s (pTile (cmdLe c.bytes 0x10 1)) (qGen s q) epoch then
        cmdEnd2 (sigRelease { s with cmds := l } (cmdLe c.bytes 0x10 1) (cmdBf c.bytes 0x14 0 12) (cmdBf c.bytes 0x11 0 2) (cmdLe c.bytes 0x18 8)
          (ordScope (cmdLe c.bytes 0x12 1)) qengTag) k.uid
      else cmdEnd2 (cmdFault { s with cmds := l } k.uid ⟨0x34, 0, cmdLe c.bytes 0x10 1, 0x10⟩) k.uid
    | [] => cmdEnd2 { s with cmds := l } k.uid) := by
  obtain ⟨k, l, hs, hrun⟩ := h.stands
  refine ⟨k, l, hs, ?_⟩
  change execSignal q pos s = _
  rw [execSignal, hrun]
  dsimp only
  rw [hs.cmdConnOk, hs.earlierDone, hs.releaseLost, hs.bytes, hs.targets, connState_cmds, ← hs.uid]
  rfl

/-- A release that would cover a lost write fails with it. -/
theorem signal_lost {code : Nat} (hconn : cmdBf c.bytes 0x11 2 1 = 0 ∨ cmdConnOk s c (cmdBf c.bytes 0x16 0 14) [] = true) (hdone : earlierDone s c = true)
    (hlost : releaseLost s c = some code) : Completes (.signal q pos) s (fun t =>
      CmdMoved s t c (fun y => { y with stage := 2, fault := y.fault <|> some ⟨code, 0, 0xFF, 0x12⟩ }) ∧ t = { s with cmds := t.cmds }) := by
  obtain ⟨k, l, hs, hexec⟩ := exec_signal_cases h
  rw [if_neg (by rcases hconn with hc | hc <;> simp [hc]), if_neg (by simp [hdone]), hlost, if_pos Option.isSome_some] at hexec
  exact ⟨_, hexec, hs.fails code 0x12 rfl⟩

/-- A signal word of this module takes its value. -/
theorem signal_near {epoch : Nat} (hnear : cmdBf c.bytes 0x11 2 1 = 0) (hdone : earlierDone s c = true) (hlost : releaseLost s c = none)
    (hpow : tilePowered s (cmdLe c.bytes 0x10 1) = true) (htargets : c.targets = [(cmdLe c.bytes 0x10 1, epoch)])
    (hbound : boundUnder s (pTile (cmdLe c.bytes 0x10 1)) (qGen s q) epoch = true) : Completes (.signal q pos) s (fun t =>
      CmdMoved s t c (fun y => { y with stage := 2 })
      ∧ t.sig (cmdLe c.bytes 0x10 1) (cmdBf c.bytes 0x14 0 12)
        = sigApply (cmdBf c.bytes 0x11 0 2) (s.sig (cmdLe c.bytes 0x10 1) (cmdBf c.bytes 0x14 0 12)) (cmdLe c.bytes 0x18 8)
      ∧ (∀ a, a < 0x1A00000 + 8 * cmdBf c.bytes 0x14 0 12 ∨ 0x1A00000 + 8 * cmdBf c.bytes 0x14 0 12 + 8 ≤ a →
          t.tb (cmdLe c.bytes 0x10 1) a = s.tb (cmdLe c.bytes 0x10 1) a)
      ∧ SignalOnly s { t with cmds := s.cmds } (cmdLe c.bytes 0x10 1)) := by
  obtain ⟨k, l, hs, hexec⟩ := exec_signal_cases h
  rw [if_neg (by simp [hnear]), if_neg (by simp [hdone]), hlost, if_neg (by simp), if_neg (by omega), if_neg (by simp [hpow]), htargets] at hexec
  dsimp only at hexec
  rw [if_pos hbound] at hexec
  obtain ⟨hvalue, hframe, honly, hother, hself⟩ := sigRelease_put { s with cmds := l } (cmdLe c.bytes 0x10 1) (cmdBf c.bytes 0x14 0 12) (cmdBf c.bytes 0x11 0 2)
    (cmdLe c.bytes 0x18 8) (ordScope (cmdLe c.bytes 0x12 1)) qengTag
  refine ⟨_, hexec, hs.ends (by rw [honly]), hvalue.trans (Nat.mod_eq_of_lt (sigApply_lt _ (sig_lt ..) (leAt_lt _ _ 8))), hframe, ?_, hother, hself⟩
  rw [cmdEnd2, State.modCmd, honly]

/-- A command before it is not done. -/
theorem signal_waits (hnear : cmdBf c.bytes 0x11 2 1 = 0) (hdone : earlierDone s c = false) :
    Completes (.signal q pos) s (fun t => CmdMoved s t c id ∧ t = { s with cmds := t.cmds }) := by
  obtain ⟨k, l, hs, hexec⟩ := exec_signal_cases h
  rw [if_neg (by simp [hnear]), if_pos (by simp [hdone])] at hexec
  exact ⟨_, hexec, hs.stays, rfl⟩

theorem signal_refused (hfar : cmdBf c.bytes 0x11 2 1 = 1) (hconn : cmdConnOk s c (cmdBf c.bytes 0x16 0 14) [] = false) :
    Completes (.signal q pos) s (fun t =>
      CmdMoved s t c (fun y => { y with stage := 2, fault := y.fault <|> some ⟨0x2A, 0, 0xFF, 0x16⟩ }) ∧ t = { s with cmds := t.cmds }) := by
  obtain ⟨k, l, hs, hexec⟩ := exec_signal_cases h
  rw [if_pos (by simp [hfar, hconn])] at hexec
  exact ⟨_, hexec, hs.fails 0x2A 0x16 rfl⟩

/-- A signal word of the peer goes out over the connection. -/
theorem signal_sent (hfar : cmdBf c.bytes 0x11 2 1 = 1) (hconn : cmdConnOk s c (cmdBf c.bytes 0x16 0 14) [] = true) (hdone : earlierDone s c = true)
    (hlost : releaseLost s c = none) (hopen : connState s (cmdBf c.bytes 0x16 0 14) = 3) : Completes (.signal q pos) s (fun t => ∃ u,
      CmdMoved s u c (fun y => { y with remote := 1, stage := 2 }) ∧ u = { s with cmds := u.cmds }
      ∧ t = connSend u (cmdBf c.bytes 0x16 0 14) ⟨4, cmdLe c.bytes 0x12 1, 8, 0, 3, s.rdF (pConn (cmdBf c.bytes 0x16 0 14)) 0x108 0 20,
          cmdLe c.bytes 0x10 1 + 256 * cmdBf c.bytes 0x14 0 12 + 2 ^ 20 * cmdBf c.bytes 0x11 0 2, slice c.bytes 0x18 8, .cmd c.uid 0⟩) := by
  obtain ⟨k, l, hs, hexec⟩ := exec_signal_cases h
  rw [if_neg (by simp [hconn]), if_neg (by simp [hdone]), hlost, if_neg (by simp), if_pos hfar, if_neg (by simp [hopen])] at hexec
  exact ⟨_, hexec, _, hs.cmdMoved _ rfl, rfl, rfl⟩

end

end Sys2Proof.Machine
end

section
/-! SUPPORT. ATOMIC (09_command_queues.md R290, 03_memory_model.md R90-R95). -/

namespace Sys2Proof.Machine

open Sys2Proof

/-- Nothing but memory, its slices, registers and the error log changed; no raw block was made good. -/
def OnlySlice (s t : State) : Prop := t = { s with hbm := t.hbm, mem := t.mem, regs := t.regs, log := t.log }

theorem OnlySlice.trans {s t u : State} (h : OnlySlice s t) (k : OnlySlice t u) : OnlySlice s u := by
  unfold OnlySlice at *
  rw [k, h]

theorem OnlyRegsLog.toSlice {s t : State} (h : OnlyRegsLog s t) : OnlySlice s t := by
  unfold OnlyRegsLog at h
  unfold OnlySlice
  rw [h]

theorem OnlyRegs.toSlice {s t : State} (h : OnlyRegs s t) : OnlySlice s t := h.toLog.toSlice

theorem slicePut_only (s : State) (a : Nat) (data : List Byte) : OnlySlice s (slicePut s a data) := rfl

theorem tagRelease_slice (s : State) (a n scope : Nat) (t : RelTag) : OnlySlice s (tagRelease s a n scope t) := by
  obtain ⟨m, h⟩ := tagRelease_only s a n scope t
  rw [h]
  rfl

theorem atomSeen_only (s : State) (r : Requester) (a sz aop : Nat) (clear : Bool) : OnlySlice s (atomSeen s r a sz aop clear) := by
  obtain ⟨m, h⟩ := sliceTouch_only s r a sz (decide (aop ≠ 0xE) || clear)
  have htouch : OnlySlice s (sliceTouch s r a sz (decide (aop ≠ 0xE) || clear)) := by rw [h]; rfl
  exact htouch.trans (wr_only ..).toSlice

/-- A plain atomic changes nothing else. -/
theorem memAtomic_only {s : State} {a aop width fmt : Nat} (r : Requester) (v cmp : Nat) (clear : Bool) (hf : memFault s a (atomSize aop width fmt) = none) (h : aop ≤ 0xC) :
    OnlySlice s (memAtomic s r a aop width fmt v cmp clear).1 := by
  have hseen := atomSeen_only s r a (atomSize aop width fmt) aop clear
  rw [memAtomic]
  extract_lets p seen old img val cleared new counted header taken
  have hcounted : OnlySlice s counted := hseen.trans (wr_only ..).toSlice
  have htaken : OnlySlice s taken := hcounted.trans (slicePut_only ..)
  rw [hf]
  simp only [if_neg (show ¬ aop = 0xD by omega), if_neg (show ¬ aop = 0xE by omega), if_neg (show ¬ aop = 0xF by omega)]
  cases if aop = 0 ∧ atomSize aop width fmt = 4 then orwIndex s (sliceOf s a) a else none with
  | some j =>
    clear_value taken
    by_cases hall : header ≤ new.1
    · simp only [if_pos hall]
      exact htaken.trans rfl
    · simp only [if_neg hall]
      exact hcounted.trans (slicePut_only ..)
  | none =>
    by_cases hfail : aop = 9 ∧ old ≠ cmp
    · simp only [if_pos hfail]
      exact hcounted
    · simp only [if_neg hfail]
      exact hcounted.trans (slicePut_only ..)

/-! The operation on a word of this module. -/

/-- The state in which the atomic of a command meets its operand: an acquire has checked its bytes (03_memory_model.md R85). -/
def cmdAcquired (c : Cmd) (x : CPiece) (s : State) : State :=
  if ordAcq (cmdLe c.bytes 0x12 1) then acquireCheck s x.a x.n (ordScope (cmdLe c.bytes 0x12 1)) qengTag else s

/-- The atomic of a command, in the owning slice. -/
def cmdAtomic (c : Cmd) (x : CPiece) (s : State) : State × Except (Nat × Nat) Nat :=
  memAtomic (cmdAcquired c x s) .qeng x.a (cmdBf c.bytes 0x10 0 4) (cmdBf c.bytes 0x10 4 2) (cmdBf c.bytes 0x11 0 4)
    (cmdLe c.bytes 0x20 (atomRet c.bytes)) (cmdLe c.bytes 0x30 (atomRet c.bytes)) false

/-- What follows it: a release is noted for the slice's detector, and the command goes on with the old value. -/
def cmdAtomicDone (c : Cmd) (x : CPiece) (s : State) (old : Nat) : State :=
  atomicDone (if ordRel (cmdLe c.bytes 0x12 1) && atomWrites (cmdBf c.bytes 0x10 0 4) old (cmdLe c.bytes 0x30 (atomRet c.bytes)) false
    then tagRelease s x.a x.n (ordScope (cmdLe c.bytes 0x12 1)) qengTag else s) c old

section
variable (c : Cmd) (x : CPiece) (s : State)

theorem cmdAcquired_samePlace : SamePlace s (cmdAcquired c x s) := by
  unfold cmdAcquired
  split
  · exact acquireCheck_samePlace ..
  · exact .refl s

theorem cmdAcquired_only : OnlySlice s (cmdAcquired c x s) := by
  unfold cmdAcquired
  split
  · exact (acquireCheck_only ..).toSlice
  · rfl

/-- What the release notes is no byte. -/
theorem cmdReleased_leaves (c : Cmd) (x : CPiece) (s : State) (old : Nat) : ∃ u, cmdAtomicDone c x s old = atomicDone u c old ∧ OnlySlice s u ∧ u.hbm = s.hbm := by
  unfold cmdAtomicDone
  split
  · obtain ⟨m, h⟩ := tagRelease_only s x.a x.n (ordScope (cmdLe c.bytes 0x12 1)) qengTag
    exact ⟨_, rfl, tagRelease_slice .., by rw [h]⟩
  · exact ⟨s, rfl, rfl, rfl⟩

theorem atomicDone_ends {c : Cmd} {old : Nat} (h : cmdBf c.bytes 0x13 0 1 = 0) : atomicDone s c old = cmdEnd2 s c.uid := if_pos h

/-- An operation that returns a value owes it where ret_en asks for it. -/
theorem atomicDone_returns {c : Cmd} {old : Nat} (h : cmdBf c.bytes 0x13 0 1 = 1) (haop : cmdBf c.bytes 0x10 0 4 ≤ 0xC) :
    atomicDone s c old = s.modCmd c.uid (fun k => { k with stage := 1, got := some old }) := by
  have hret : atomReturns (cmdBf c.bytes 0x10 0 4) = true := decide_eq_true (by omega)
  rw [atomicDone, if_neg (by omega), if_pos hret]

theorem atomicDone_only (c : Cmd) (old : Nat) : atomicDone s c old = { s with cmds := (atomicDone s c old).cmds } := by
  unfold atomicDone
  dsimp only
  split
  · rfl
  · split <;> rfl

end

section
variable {s : State} {q : Nat} {pos : BitVec 32} {c : Cmd} {x : CPiece} {ret : List CPiece} (h : CmdRuns s q pos 5 c) (hgot : c.got = none) (hremote : c.remote = 0)
  (hword : dirPieces s c 0x18 4096 = .ok [x]) (hret : dirPieces s c 0x40 16 = .ok ret) (hnear : (x :: ret).any (CPiece.far s) = false)

include h hgot hremote hword hret hnear

theorem exec_atomic_near : ∃ k l, CmdStands s c k l ∧ exec (.atomic q pos) s = .next (
    if cmdLe c.bytes 0x18 8 % atomAlign (cmdBf c.bytes 0x10 0 4) (cmdBf c.bytes 0x10 4 2) (cmdBf c.bytes 0x11 0 4) ≠ 0 then cmdFail { s with cmds := l } k 0x09 0x18
    else if (ordRel (cmdLe c.bytes 0x12 1) && !earlierDone s c) = true then { s with cmds := l }
    else if (ordRel (cmdLe c.bytes 0x12 1) && (releaseLost s c).isSome) = true then cmdFail { s with cmds := l } k ((releaseLost s c).getD 0) 0x12
    else if (!piecesReady { s with cmds := l } k (cmdBf c.bytes 0x14 0 14) [x]) = true then { s with cmds := l }
    else match cmdAtomic k x { s with cmds := l } with
    | (s1, .error e) => cmdFail s1 k e.1 0x18
    | (s1, .ok old) => cmdAtomicDone k x s1 old) := by
  obtain ⟨k, l, hs, hrun⟩ := h.stands
  obtain ⟨hxfar, hretfar⟩ := Bool.or_eq_false_iff.mp hnear
  refine ⟨k, l, hs, ?_⟩
  change execAtomic q pos s = _
  rw [execAtomic, hrun]
  dsimp only
  rw [hs.got.trans hgot]
  dsimp only
  rw [if_neg (by rw [hs.remote, hremote]; decide), hs.dirPieces, hs.dirPieces, hword, hret]
  dsimp only
  rw [any_far_cmds, any_far_cmds, List.singleton_append, hnear, if_neg (by simp), hs.earlierDone, hs.releaseLost]
  have hfar : [x].any (CPiece.far { s with cmds := l }) = false := by rw [any_far_cmds, List.any_cons, hxfar]; rfl
  rw [hfar, if_neg Bool.false_ne_true]
  unfold cmdAtomic cmdAcquired cmdAtomicDone
  rw [hs.bytes] <;> rfl

theorem atomic_misaligned (hal : cmdLe c.bytes 0x18 8 % atomAlign (cmdBf c.bytes 0x10 0 4) (cmdBf c.bytes 0x10 4 2) (cmdBf c.bytes 0x11 0 4) ≠ 0) :
    Completes (.atomic q pos) s (fun t =>
      CmdMoved s t c (fun k => { k with stage := 2, fault := k.fault <|> some ⟨9, 0, 0xFF, 0x18⟩ }) ∧ t = { s with cmds := t.cmds }) := by
  obtain ⟨k, l, hs, hexec⟩ := exec_atomic_near h hgot hremote hword hret hnear
  rw [if_pos hal] at hexec
  exact ⟨_, hexec, hs.fails 9 0x18 rfl⟩

theorem atomic_performed (hal : cmdLe c.bytes 0x18 8 % atomAlign (cmdBf c.bytes 0x10 0 4) (cmdBf c.bytes 0x10 4 2) (cmdBf c.bytes 0x11 0 4) = 0)
    (hrel : ordRel (cmdLe c.bytes 0x12 1) = true → earlierDone s c = true ∧ releaseLost s c = none) (hheld : memHeld s .qeng x.a x.n = false)
    (hfree : cmdOverlaps s c [x] = false) (hf : memFault s x.a (atomSize (cmdBf c.bytes 0x10 0 4) (cmdBf c.bytes 0x10 4 2) (cmdBf c.bytes 0x11 0 4)) = none)
    (hwin : cmdBf c.bytes 0x10 0 4 ≠ 0 ∨ atomSize (cmdBf c.bytes 0x10 0 4) (cmdBf c.bytes 0x10 4 2) (cmdBf c.bytes 0x11 0 4) ≠ 4
      ∨ orwIndex s (sliceOf s x.a) x.a = none) (haop : cmdBf c.bytes 0x10 0 4 ≤ 0xC) : Completes (.atomic q pos) s (fun t =>
      t.hnat x.a (atomSize (cmdBf c.bytes 0x10 0 4) (cmdBf c.bytes 0x10 4 2) (cmdBf c.bytes 0x11 0 4))
        = (atomNew (cmdBf c.bytes 0x10 0 4) (cmdBf c.bytes 0x10 4 2) (cmdBf c.bytes 0x11 0 4)
            (s.hnat x.a (atomSize (cmdBf c.bytes 0x10 0 4) (cmdBf c.bytes 0x10 4 2) (cmdBf c.bytes 0x11 0 4)))
            (cmdLe c.bytes 0x20 (atomRet c.bytes)) (cmdLe c.bytes 0x30 (atomRet c.bytes))).1
          % 2 ^ (8 * atomSize (cmdBf c.bytes 0x10 0 4) (cmdBf c.bytes 0x10 4 2) (cmdBf c.bytes 0x11 0 4))
      ∧ (∀ a, a < x.a ∨ x.a + atomSize (cmdBf c.bytes 0x10 0 4) (cmdBf c.bytes 0x10 4 2) (cmdBf c.bytes 0x11 0 4) ≤ a → t.hb a = s.hb a)
      ∧ (cmdBf c.bytes 0x13 0 1 = 0 → CmdMoved s t c (fun k => { k with stage := 2 }))
      ∧ (cmdBf c.bytes 0x13 0 1 = 1 → CmdMoved s t c (fun k => { k with
          stage := 1, got := some (s.hnat x.a (atomSize (cmdBf c.bytes 0x10 0 4) (cmdBf c.bytes 0x10 4 2) (cmdBf c.bytes 0x11 0 4))) }))
      ∧ t = { s with cmds := t.cmds, hbm := t.hbm, mem := t.mem, regs := t.regs, log := t.log }) := by
  obtain ⟨k, l, hs, hexec⟩ := exec_atomic_near h hgot hremote hword hret hnear
  obtain ⟨hxfar, -⟩ := Bool.or_eq_false_iff.mp hnear
  have hready : piecesReady { s with cmds := l } k (cmdBf c.bytes 0x14 0 14) [x] = true :=
    hs.piecesReady (by simp [piecesHeld, hheld]) (by rw [List.any_cons, hxfar]; rfl) hfree _
  have hgo : (ordRel (cmdLe c.bytes 0x12 1) && !earlierDone s c) = false ∧ (ordRel (cmdLe c.bytes 0x12 1) && (releaseLost s c).isSome) = false := by
    cases hr : ordRel (cmdLe c.bytes 0x12 1) with
    | false => exact ⟨rfl, rfl⟩
    | true =>
      obtain ⟨hdone, hlost⟩ := hrel hr
      rw [hdone, hlost]
      exact ⟨rfl, rfl⟩
  rw [if_neg (by omega), hgo.1, if_neg Bool.false_ne_true, hgo.2, if_neg Bool.false_ne_true, hready, if_neg (by decide)] at hexec
  obtain ⟨hbm, hslice, hfault, hwindow⟩ := cmdAcquired_samePlace k x { s with cmds := l }
  have hacquired := cmdAcquired_only k x { s with cmds := l }
  unfold cmdAtomic at hexec
  rw [hs.bytes] at hexec
  generalize cmdAcquired k x { s with cmds := l } = u at hbm hslice hfault hwindow hacquired hexec
  have hf' := (hfault _ _).trans hf
  obtain ⟨hans, w, ⟨hval, hframe⟩, hw⟩ := memAtomic_plain .qeng (cmdLe c.bytes 0x20 (atomRet c.bytes)) (cmdLe c.bytes 0x30 (atomRet c.bytes)) false hf' haop
  have honly := hacquired.trans (memAtomic_only .qeng (cmdLe c.bytes 0x20 (atomRet c.bytes)) (cmdLe c.bytes 0x30 (atomRet c.bytes)) false hf' haop)
  have hold : u.hnat x.a (atomSize (cmdBf c.bytes 0x10 0 4) (cmdBf c.bytes 0x10 4 2) (cmdBf c.bytes 0x11 0 4))
      = s.hnat x.a (atomSize (cmdBf c.bytes 0x10 0 4) (cmdBf c.bytes 0x10 4 2) (cmdBf c.bytes 0x11 0 4)) := hnat_congr hbm _ _
  have hnew := hw (fun ⟨h0, h4⟩ => (hwindow _ _).trans (by rw [hslice]; exact (hwin.resolve_left (fun hne => hne h0)).resolve_left (fun hne => hne h4)))
  rw [hold] at hans hnew
  generalize memAtomic u .qeng x.a (cmdBf c.bytes 0x10 0 4) (cmdBf c.bytes 0x10 4 2) (cmdBf c.bytes 0x11 0 4) (cmdLe c.bytes 0x20 (atomRet c.bytes))
    (cmdLe c.bytes 0x30 (atomRet c.bytes)) false = r at hexec hans hval hframe honly
  obtain ⟨v, ans⟩ := r
  dsimp only at hans hval hframe honly
  rw [hans] at hexec
  dsimp only at hexec
  obtain ⟨z, hdone, hz, hzbm⟩ := cmdReleased_leaves k x v (s.hnat x.a (atomSize (cmdBf c.bytes 0x10 0 4) (cmdBf c.bytes 0x10 4 2) (cmdBf c.bytes 0x11 0 4)))
  rw [hdone] at hexec
  have hzs := honly.trans hz
  have hcmds : z.cmds = l := by rw [hzs]
  have hlast := atomicDone_only z k (s.hnat x.a (atomSize (cmdBf c.bytes 0x10 0 4) (cmdBf c.bytes 0x10 4 2) (cmdBf c.bytes 0x11 0 4)))
  have hthbm : (atomicDone z k (s.hnat x.a (atomSize (cmdBf c.bytes 0x10 0 4) (cmdBf c.bytes 0x10 4 2) (cmdBf c.bytes 0x11 0 4)))).hbm = v.hbm := by
    rw [hlast]
    exact hzbm
  refine ⟨_, hexec, ?_, fun a ha => ?_, fun hno => ?_, fun hyes => ?_, ?_⟩
  · rw [hnat_congr hthbm, hval, hnew]
  · rw [hb_congr hthbm, hframe a ha, hb_congr hbm]
    rfl
  · rw [atomicDone_ends z (by rw [hs.bytes]; exact hno)]
    exact hs.ends hcmds
  · rw [atomicDone_returns z (by rw [hs.bytes]; exact hyes) (by rw [hs.bytes]; exact haop)]
    exact hs.cmdMoved _ (by rw [← hcmds]; rfl)
  · unfold OnlySlice at hzs
    rw [hlast, hzs]

end

/-- Settles O42: each operation runs on its command, begun, in a state that is as before but for the commands; what it then does goes by the operation. -/
theorem commandEffects : Obligations.CommandEffects := by
  unfold Obligations.CommandEffects
  refine ⟨fun s q pos c h hnodup => launch_completes h hnodup, fun s q pos c k epoch h htargets hpow => dma_cases h htargets hpow,
    fun s q pos c x f h hstage hpieces => ?inline, fun s q pos c h => ?signal, fun s q pos c x ret h hgot hremote hword hret hnear => ?atomic⟩
  case inline =>
    exact ⟨fun hnear hheld hfree hf hflag => writeInline_data h hstage hpieces hnear hheld hfree hf hflag,
      fun hnear y hfy hrel hheld hfree hfx hfault hapart => writeInline_flag h hstage hpieces hnear hfy hrel hheld hfree hfx hfault hapart,
      fun hfar hconn => writeInline_refused h hstage hpieces hfar hconn⟩
  case signal =>
    exact ⟨fun code hconn hdone hlost => signal_lost h hconn hdone hlost,
      fun epoch hn hdone hlost hpow htargets hbound => signal_near h hn hdone hlost hpow htargets hbound,
      fun hn hdone => signal_waits h hn hdone, fun hfar hconn => signal_refused h hfar hconn,
      fun hfar hconn hdone hlost hopen => signal_sent h hfar hconn hdone hlost hopen⟩
  case atomic =>
    exact ⟨fun hal hrel hheld hfree hf hwin haop => atomic_performed h hgot hremote hword hret hnear hal hrel hheld hfree hf hwin haop,
      fun hal => atomic_misaligned h hgot hremote hword hret hnear hal⟩

end Sys2Proof.Machine
end

section
/-! SUPPORT. Bytes of a message, and the words of a page that are written in a row. -/

namespace Sys2Proof.Machine

open Sys2Proof

/-- The bytes of the number that a byte list reads as are the list. -/
theorem toLE_leNat (l : List Byte) : toLE l.length (leNat l) = l := by
  induction l with
  | nil => rfl
  | cons b l ih =>
    have hb : b.toNat < 256 := b.isLt
    have hlow : BitVec.ofNat 8 (b.toNat + 256 * leNat l) = b :=
      BitVec.eq_of_toNat_eq (by rw [BitVec.toNat_ofNat]; omega)
    have hhigh : (b.toNat + 256 * leNat l) / 256 = leNat l := by omega
    rw [List.length_cons, leNat, toLE, hlow, hhigh, ih]

/-- The bytes of a list, word by word. -/
theorem flatMap_words (m : List Byte) {n : Nat} (h : 4 * n ≤ m.length) : (List.range n).flatMap (fun i => toLE 4 (leAt m (4 * i) 4)) = m.take (4 * n) := by
  induction n with
  | zero => rfl
  | succ n ih =>
    have hlen : ((m.drop (4 * n)).take 4).length = 4 := by rw [List.length_take, List.length_drop]; omega
    have hword : toLE 4 (leAt m (4 * n) 4) = (m.drop (4 * n)).take 4 := by
      have hbytes := toLE_leNat ((m.drop (4 * n)).take 4)
      rwa [hlen] at hbytes
    rw [List.range_succ, List.flatMap_append, ih (by omega), List.flatMap_singleton, hword, Nat.mul_succ, List.take_add]

theorem OnlyWords.trans {s t u : State} {ws vs : List (Page × Nat)} (h : OnlyWords s t ws) (k : OnlyWords t u vs) : OnlyWords s u (ws ++ vs) := by
  obtain ⟨hkept, honly⟩ := h
  obtain ⟨kkept, konly⟩ := k
  exact ⟨hkept.trans kkept, honly.trans konly⟩

theorem OnlyWords.mono {s t : State} {ws vs : List (Page × Nat)} (h : OnlyWords s t ws) (hsub : ws ⊆ vs) : OnlyWords s t vs := by
  obtain ⟨hkept, honly⟩ := h
  exact ⟨hkept.mono hsub, honly⟩

theorem wrAll_onlyWords (p : Page) (words : List (Nat × Nat)) (s : State) : OnlyWords s (s.wrAll p words) (words.map (fun w => (p, w.1))) := by
  induction words generalizing s with
  | nil => exact ⟨regsKept_of_regs_eq rfl [], rfl⟩
  | cons w words ih => exact (wr_onlyWord s p w.1 w.2).trans (ih _)

end Sys2Proof.Machine
end

section
/-! SUPPORT. Answers of Palur (09_command_queues.md R301, R303, 12_krovmo_fabric.md R398). -/

namespace Sys2Proof.Machine

open Sys2Proof

/-- The words of MBX_RSP that hold a message. -/
def rspWords (b : List Byte) : List (Nat × Nat) := (List.range 64).map (fun i => (0x500 + 4 * i, leAt b (4 * i) 4))

/-- The state in which a response stands in the mailbox. -/
def rspWritten (s : State) (b : List Byte) : State := (s.wrAll pPalur (rspWords b)).wrF pPalur 0x308 0 1 0

section
variable (b : List Byte)

theorem rspWords_offsets : (rspWords b).map (fun w => w.1) = (List.range 64).map (fun i => 0x500 + 4 * i) := by
  rw [rspWords, List.map_map]
  rfl

theorem rspWords_aligned : ∀ w ∈ rspWords b, w.1 % 4 = 0 := by
  intro w hw
  obtain ⟨i, -, rfl⟩ := List.mem_map.mp hw
  dsimp only
  omega

theorem rspWords_nodup : ((rspWords b).map (fun w => w.1)).Nodup := by
  rw [rspWords_offsets]
  decide

/-- A word of the response stands in it. -/
theorem rspWritten_word (s : State) {i : Nat} (hi : i < 64) : (rspWritten s b).rd pPalur (0x500 + 4 * i) = leAt b (4 * i) 4 := by
  have hmem : (0x500 + 4 * i, leAt b (4 * i) 4) ∈ rspWords b := List.mem_map.mpr ⟨i, List.mem_range.mpr hi, rfl⟩
  have hrd := rd_wrAll pPalur (rspWords b) s (rspWords_aligned b) (rspWords_nodup b) _ hmem
  rw [rspWritten, State.wrF, rd_wr_off _ _ _ (by decide) (by omega) (by omega), hrd]
  exact Nat.mod_eq_of_lt (leAt_lt _ _ 4)

theorem rspWritten_notBusy (s : State) : (rspWritten s b).rdB pPalur 0x308 0 = false := rdB_wrF_bit (s.wrAll pPalur (rspWords b)) pPalur 0x308 0 0 false (by decide)

theorem rspWritten_onlyWords (s : State) : OnlyWords s (rspWritten s b) ((0x308 :: (List.range 64).map (fun i => 0x500 + 4 * i)).map (fun a => (pPalur, a))) := by
  have hwords := wrAll_onlyWords pPalur (rspWords b) s
  have hoffs : (rspWords b).map (fun w => (pPalur, w.1)) = ((List.range 64).map (fun i => 0x500 + 4 * i)).map (fun a => (pPalur, a)) := by
    rw [← rspWords_offsets b, List.map_map]
    rfl
  rw [hoffs] at hwords
  refine (hwords.trans (wr_onlyWord _ pPalur 0x308 _)).mono ?_
  rw [List.map_cons]
  exact List.append_subset.mpr ⟨List.subset_cons_self _ _, by simp⟩

end

/-- The answer to a request of the mailbox. -/
theorem reply_mailbox (s : State) {r : PReq} (h : r.session = none) (status : Nat) (payload : List Byte) :
    reply s r status payload = raise (rspWritten s (slice (rspMsg r status payload) 0 256)) pPalur 8 := by
  rw [reply, h, rspWritten, rspWords, State.wrAll, List.foldl_map]

/-- The answer to a request of a session. -/
theorem reply_session (s : State) {r : PReq} {σ seq : Nat} (h : r.session = some (σ, seq)) (status : Nat) (payload : List Byte) :
    reply s r status payload = { s with palur := { s.palur with sent := datagram s 1 σ (seq + 2 ^ 63) (rspMsg r status payload) } } := by
  rw [reply, h]
  rfl

theorem reply_replied (s : State) (r : PReq) (status : Nat) (payload : List Byte) : Replied s (reply s r status payload) r status payload := by
  refine ⟨fun h => ?_, fun σ seq h => reply_session s h status payload⟩
  rw [reply_mailbox s h]
  have hflag := (rspWritten_onlyWords (slice (rspMsg r status payload) 0 256) s).then_raise_page (n := 8) (by decide)
    (by simp only [List.forall_mem_cons, List.forall_mem_map]; exact ⟨by decide, fun i _ => by omega⟩)
    (by simp only [List.forall_mem_cons, List.forall_mem_map]; exact ⟨by decide, fun i hi => by have := List.mem_range.mp hi; omega⟩) 0 0xFFFF 0 []
  refine ⟨fun i hi => ?_, ?_, ?_⟩
  · rw [rd_raise (by omega) (by omega)]
    exact rspWritten_word _ s hi
  · rw [State.rdB, rd_raise (by decide) (by decide)]
    exact rspWritten_notBusy _ s
  · rw [List.map_cons, List.map_map] at hflag
    exact hflag

/-- An answer adds no request. -/
theorem Replied.reqs {s t : State} {r : PReq} {status : Nat} {payload : List Byte} (h : Replied s t r status payload) : t.palur.reqs = s.palur.reqs := by
  obtain ⟨hmailbox, hsession⟩ := h
  rcases hs : r.session with _ | ⟨σ, seq⟩
  · obtain ⟨-, -, -, -, honly⟩ := hmailbox hs
    rw [honly]
  · rw [hsession σ seq hs]

theorem reply_reqs (s : State) (r : PReq) (status : Nat) (payload : List Byte) : (reply s r status payload).palur.reqs = s.palur.reqs := (reply_replied ..).reqs

end Sys2Proof.Machine
end

section
/-! SUPPORT. Palur takes a request at a time (09_command_queues.md R303). -/

namespace Sys2Proof.Machine

open Sys2Proof

theorem serveRest_of_empty {s : State} (h : s.palur.reqs = []) : serveRest s = s := by
  rw [serveRest, h]
  rfl

/-- A well-formed request waits for its command. -/
theorem serveRest_of_wellFormed {s : State} {r : PReq} (h : s.palur.reqs = [r]) (hr : malformed r = none) : serveRest s = s := by
  rw [serveRest, h, List.length_singleton, serveBad, h]
  dsimp only
  rw [hr]

/-- One that no command takes is answered. -/
theorem serveRest_of_malformed {s : State} {r : PReq} {status : Nat} {payload : List Byte} (h : s.palur.reqs = [r]) (hr : malformed r = some (status, payload))
    (hserve : canServe s r = true) : serveRest s = reply (s.modPalur (fun k => { k with reqs := [] })) r status payload := by
  rw [serveRest, h, List.length_singleton, serveBad, h]
  dsimp only
  rw [hr]
  dsimp only
  rw [if_pos hserve, serveBad]

theorem serveReq_of_empty {s : State} (h : s.palur.reqs = []) (row : Nat) (f : PReq → State → State) : serveReq row s f = .next s := by
  rw [serveReq, headReq, h]

section
variable {s0 s : State} {row : Nat} {r : PReq}

theorem Taken.reqs (h : Taken s0 s row r) : s.palur.reqs = [] := by
  obtain ⟨-, -, -, -, hs⟩ := h
  rw [hs]

/-- The request taken is refused in the fatal state, denied, or served. -/
theorem Taken.serveReq (h : Taken s0 s row r) (f : PReq → State → State) : serveReq row s0 f = .next (serveRest (
    if s.rdF pErrlog 0x220 0 2 = 2 ∧ fatalServes r.cmd = false then failed s r 0x1E else if denied s r then reply s r 4 else f r s)) := by
  obtain ⟨hreqs, hserve, hformed, hrow, hs⟩ := h
  have hhead : headReq s0 row = some r := by
    rw [headReq, hreqs]
    dsimp only
    rw [hserve, hformed, hrow]
    simp
  have htail : s0.modPalur (fun k => { k with reqs := k.reqs.tail }) = s := by
    rw [hs, State.modPalur, hreqs, List.tail_cons]
  have hstate : s0.rdF pErrlog 0x220 0 2 = s.rdF pErrlog 0x220 0 2 := by rw [hs]; rfl
  rw [Machine.serveReq, hhead]
  dsimp only
  rw [htail, hstate]

theorem Taken.fatal (h : Taken s0 s row r) (hfatal : s.rdF pErrlog 0x220 0 2 = 2) (hcmd : fatalServes r.cmd = false) (f : PReq → State → State) :
    Machine.serveReq row s0 f = .next (failed s r 0x1E) := by
  have hreqs : (failed s r 0x1E).palur.reqs = [] := (reply_reqs ..).trans h.reqs
  rw [h.serveReq, if_pos ⟨hfatal, hcmd⟩, serveRest_of_empty hreqs]

theorem Taken.denied (h : Taken s0 s row r) (hfatal : s.rdF pErrlog 0x220 0 2 ≠ 2) (hdenied : denied s r = true) (f : PReq → State → State) :
    Machine.serveReq row s0 f = .next (reply s r 4) := by
  rw [h.serveReq, if_neg (fun ⟨hf, _⟩ => hfatal hf), if_pos hdenied, serveRest_of_empty ((reply_reqs ..).trans h.reqs)]

theorem Serves.reqs (h : Serves s0 s row r) : s.palur.reqs = [] := h.1.reqs

/-- The request is served, and no other waits. -/
theorem Serves.serveReq (h : Serves s0 s row r) {f : PReq → State → State} {t : State} (hf : f r s = t) (ht : t.palur.reqs = []) :
    Machine.serveReq row s0 f = .next t := by
  obtain ⟨htaken, hfatal, hdenied⟩ := h
  rw [htaken.serveReq, if_neg (fun ⟨hf, _⟩ => hfatal hf), hdenied, if_neg Bool.false_ne_true, hf, serveRest_of_empty ht]

theorem Serves.next (h : Serves s0 s row r) {c : Instr} (g : State → Out) {f : PReq → State → State} (hc : exec c s0 = g s0) (hg : g s0 = Machine.serveReq row s0 f)
    {t : State} (hf : f r s = t) (ht : t.palur.reqs = []) : exec c s0 = .next t := (hc.trans hg).trans (h.serveReq hf ht)

/-- The command answers its request. -/
theorem Serves.replies (h : Serves s0 s row r) {c : Instr} (g : State → Out) {f : PReq → State → State} (hc : exec c s0 = g s0) (hg : g s0 = Machine.serveReq row s0 f)
    {u : State} {status : Nat} {payload : List Byte} (hf : f r s = reply u r status payload) (hu : u.palur.reqs = []) :
    Completes c s0 (fun t => Replied u t r status payload) :=
  ⟨_, h.next g hc hg hf ((reply_reqs ..).trans hu), reply_replied ..⟩

end

/-! The commands that take a request. -/

/-- A command takes a request of a row, and answers BUSY while a long operation runs where it begins one. -/
def TakesRow (s : State) (x : Instr × Nat × Bool) : Prop :=
  ∃ f, exec x.1 s = serveReq x.2.1 s f ∧ (x.2.2 = true → ∃ g : PReq → State → State, f = fun r s => if s.palur.long.isSome then reply s r 5 else g r s)

theorem takesRow_of_serveReq {s : State} {c : Instr} {row : Nat} {f : PReq → State → State} (g : State → Out) (hc : exec c s = g s) (hg : g s = serveReq row s f) :
    TakesRow s (c, row, false) := ⟨f, hc.trans hg, fun hlong => absurd hlong Bool.false_ne_true⟩

theorem takesRow_of_serveLong {s : State} {c : Instr} {row : Nat} {f : PReq → State → State} (g : State → Out) (hc : exec c s = g s) (hg : g s = serveLong row s f) :
    TakesRow s (c, row, true) := ⟨_, hc.trans hg, fun _ => ⟨f, rfl⟩⟩

/-- Each command of the table takes its row. -/
theorem palurTable_takesRow (s : State) : ∀ x ∈ palurTable, TakesRow s x := by
  simp only [palurTable, List.forall_mem_cons]
  exact ⟨takesRow_of_serveReq execGetInfo rfl rfl, takesRow_of_serveReq execGetResult rfl rfl, takesRow_of_serveLong execSleepEnterP1 rfl rfl,
    takesRow_of_serveLong execSleepEnterP2 rfl rfl, takesRow_of_serveLong execSleepEnterP3 rfl rfl, takesRow_of_serveLong execSleepExit rfl rfl,
    takesRow_of_serveLong execFwStageHost rfl rfl, takesRow_of_serveReq execFwStageChunk rfl rfl, takesRow_of_serveReq execFwStageAbort rfl rfl,
    takesRow_of_serveLong execFwActivate rfl rfl, takesRow_of_serveLong execSelfTestTileLogic rfl rfl, takesRow_of_serveLong execSelfTestStorage rfl rfl,
    takesRow_of_serveLong execSelfTestLoopback rfl rfl, takesRow_of_serveReq execDebugTokenPresent rfl rfl, takesRow_of_serveReq execDebugTokenChallenge rfl rfl,
    takesRow_of_serveReq execDebugTokenDeploy rfl rfl, takesRow_of_serveReq execDebugTokenMgmtKey rfl rfl, takesRow_of_serveReq execDebugTokenEnd rfl rfl,
    takesRow_of_serveReq execHostReset rfl rfl, takesRow_of_serveReq execModuleReset rfl rfl, takesRow_of_serveLong execAttestReport rfl rfl,
    takesRow_of_serveReq execAttestRead rfl rfl, takesRow_of_serveReq execAttestBurgee rfl rfl, takesRow_of_serveReq execErrlogRead rfl rfl,
    takesRow_of_serveReq execCalRead rfl rfl, takesRow_of_serveReq execCalWriteData rfl rfl, takesRow_of_serveReq execCalCommit rfl rfl,
    takesRow_of_serveReq execCalDiscard rfl rfl, by simp⟩

/-- A request is refused in the fatal state, denied by the state table, or answered BUSY. -/
theorem table_refusals {s0 s : State} {r : PReq} {x : Instr × Nat × Bool} (hx : x ∈ palurTable) (h : Taken s0 s x.2.1 r) :
    (s.rdF pErrlog 0x220 0 2 = 2 → fatalServes r.cmd = false → Completes x.1 s0 (fun t => RequestFailed s t r 0x1E))
    ∧ (s.rdF pErrlog 0x220 0 2 ≠ 2 → denied s r = true → Completes x.1 s0 (fun t => Replied s t r 4 []))
    ∧ (s.rdF pErrlog 0x220 0 2 ≠ 2 → denied s r = false → x.2.2 = true → s.palur.long ≠ none → Completes x.1 s0 (fun t => Replied s t r 5 [])) := by
  obtain ⟨f, hexec, hlong⟩ := palurTable_takesRow s0 x hx
  refine ⟨fun hfatal hcmd => ⟨_, hexec.trans (h.fatal hfatal hcmd f), reply_replied ..⟩, fun hfatal hdenied => ⟨_, hexec.trans (h.denied hfatal hdenied f), reply_replied ..⟩,
    fun hfatal hdenied hx hbusy => ?_⟩
  obtain ⟨g, rfl⟩ := hlong hx
  exact Serves.replies ⟨h, hfatal, hdenied⟩ (exec x.1) rfl hexec (if_pos (Option.isSome_iff_ne_none.mpr hbusy)) h.reqs

theorem table_idle {s : State} (h : s.palur.reqs = []) : ∀ x ∈ palurTable, Idle x.1 s := by
  intro x hx
  obtain ⟨f, hexec, -⟩ := palurTable_takesRow s x hx
  exact hexec.trans (serveReq_of_empty h ..)

end Sys2Proof.Machine
end

section
/-! SUPPORT. The mailbox (09_command_queues.md R300). -/

namespace Sys2Proof.Machine

open Sys2Proof

section
variable {s : State} (hs : served s = true)
include hs

theorem mbxOwnerWrite_cases (v : BitVec 8) :
    (96 < v.toNat → Completes (.mbxOwnerWrite v) s (fun t => OneFlag s t pPalur 2))
    ∧ (v.toNat ≤ 96 → v = 0 ∨ s.rd pPalur 0x300 = 0 → Completes (.mbxOwnerWrite v) s (fun t => t.rd pPalur 0x300 = v.toNat ∧ OnlyWords s t [(pPalur, 0x300)]))
    ∧ (1 ≤ v.toNat → v.toNat ≤ 96 → s.rd pPalur 0x300 ≠ 0 → Idle (.mbxOwnerWrite v) s) := by
  have hexec : exec (.mbxOwnerWrite v) s = .next (if 96 < v.toNat then illegalWrite s pPalur
      else if v = 0 ∨ s.rd pPalur 0x300 = 0 then s.wr pPalur 0x300 v.toNat else s) := by
    change execMbxOwnerWrite v s = _
    rw [execMbxOwnerWrite, hs]
    rfl
  refine ⟨fun hv => ?_, fun hv hfree => ?_, fun hone hv howned => ?_⟩
  · rw [if_pos hv] at hexec
    exact ⟨_, hexec, raise_oneFlag s _ 2 _ _ _ _ (by decide)⟩
  · rw [if_neg (by omega), if_pos hfree] at hexec
    exact ⟨_, hexec, (rd_wr_self ..).trans (Nat.mod_eq_of_lt (by omega)), wr_onlyWord ..⟩
  · have hne : ¬ (v = 0 ∨ s.rd pPalur 0x300 = 0) := by
      rintro (rfl | h)
      · exact absurd hone (by decide)
      · exact howned h
    rw [if_neg (by omega), if_neg hne] at hexec
    exact hexec

/-- Without an owner, or while a request is under way, a go is discarded. -/
theorem mbxGo_refused (h : s.rd pPalur 0x300 = 0 ∨ s.rdB pPalur 0x308 0 = true) : Completes .mbxGo s (fun t =>
    t.rdB pPalur 0x308 1 = true ∧ t.rdB pPalur 0x308 0 = s.rdB pPalur 0x308 0 ∧ OnlyWords s t [(pPalur, 0x308)]) := by
  have hexec : exec .mbxGo s = .next (s.wrF pPalur 0x308 1 1 1) := by
    change execMbxGo s = _
    rw [execMbxGo, hs, if_neg (by decide), if_pos h]
  exact ⟨_, hexec, rdB_wrF_bit s pPalur 0x308 1 1 true (by decide), rdB_wrF_bit s pPalur 0x308 1 0 true (by decide), wr_onlyWord ..⟩

section
variable (howner : s.rd pPalur 0x300 ≠ 0) (hidle : s.rdB pPalur 0x308 0 = false) {m : List Byte} (hm : ∀ i, i < 64 → leAt m (4 * i) 4 = s.rd pPalur (0x400 + 4 * i))
  (hlen : m.length = 256) (hreqs : s.palur.reqs = [])
include howner hidle hm hlen hreqs

/-- The go submits the request buffer. -/
theorem exec_mbxGo_submits : exec .mbxGo s = .next (serveRest { s.wr pPalur 0x308 1 with palur := { s.palur with reqs := [⟨none, m⟩] } }) := by
  have hmsg : ((List.range 64).map (fun i => toLE 4 (s.rd pPalur (0x400 + 4 * i)))).foldl (· ++ ·) [] = m := by
    rw [List.foldl_map, ← List.flatMap_eq_foldl, List.flatMap_congr (fun i hi => by rw [← hm i (List.mem_range.mp hi)]), flatMap_words m (by omega), List.take_of_length_le (by omega)]
  change execMbxGo s = _
  rw [execMbxGo, hs, if_neg (by decide), if_neg (by simp [howner, hidle])]
  dsimp only
  rw [hmsg, State.modPalur]
  simp only [State.wr_palur, hreqs, List.nil_append]

theorem mbxGo_accepted (hr : malformed ⟨none, m⟩ = none) : Completes .mbxGo s (fun t => t.palur = { s.palur with reqs := [⟨none, m⟩] } ∧ t.rd pPalur 0x308 = 1
    ∧ RegsKept s t [(pPalur, 0x308)] ∧ t = { s with regs := t.regs, palur := t.palur }) := by
  have hexec := exec_mbxGo_submits hs howner hidle hm hlen hreqs
  have hrd := rd_wr_self s pPalur 0x308 1
  obtain ⟨hkept, honly⟩ := wr_onlyWord s pPalur 0x308 1
  generalize s.wr pPalur 0x308 1 = u at hexec hrd hkept honly
  rw [serveRest_of_wellFormed (r := ⟨none, m⟩) rfl hr] at hexec
  exact ⟨_, hexec, rfl, hrd, hkept, by rw [honly]⟩

theorem mbxGo_answered (status : Nat) (payload : List Byte) (hr : malformed ⟨none, m⟩ = some (status, payload)) (hserve : canServe s ⟨none, m⟩ = true) :
    Completes .mbxGo s (fun t => ∃ u, u = { s with regs := u.regs } ∧ RegsKept s u [(pPalur, 0x308)] ∧ Replied u t ⟨none, m⟩ status payload) := by
  have hexec := exec_mbxGo_submits hs howner hidle hm hlen hreqs
  obtain ⟨hkept, honly⟩ := wr_onlyWord s pPalur 0x308 1
  generalize s.wr pPalur 0x308 1 = u at hexec hkept honly
  have hpower : u.rd pErrlog 0x220 = s.rd pErrlog 0x220 := hkept.rd (by simpa using regKey_ne_of_offset (by decide))
  have hserve' : canServe { u with palur := { s.palur with reqs := [⟨none, m⟩] } } ⟨none, m⟩ = true := by
    have hstate : powerState { u with palur := { s.palur with reqs := [⟨none, m⟩] } } = powerState s := congrArg (fun x => bits x 4 2) hpower
    rw [canServe] at hserve ⊢
    rw [hstate, honly]
    exact hserve
  have hempty : (({ u with palur := { s.palur with reqs := [⟨none, m⟩] } } : State).modPalur (fun k => { k with reqs := [] })) = u := by
    simp only [State.modPalur, ← hreqs]
    rw [honly]
  rw [serveRest_of_malformed (r := ⟨none, m⟩) rfl hr hserve', hempty] at hexec
  exact ⟨_, hexec, u, honly, hkept, reply_replied ..⟩

end
end

end Sys2Proof.Machine
end

section
/-! SUPPORT. Long operations of Palur (02_register_pages.md R56, 15_security_firmware.md R497). -/

namespace Sys2Proof.Machine

open Sys2Proof

theorem opStart_only (s : State) (p : Page) (unit shift : Nat) : OnlyRegs s (opStart s p unit shift) := by
  rw [opStart]
  have hbegun : OnlyRegs s ((s.wr p 0x20 0).wrF p 0x14 3 1 1) := (wr_only ..).trans (wr_only ..)
  split
  · exact hbegun.trans (wr_only ..)
  · exact hbegun

theorem opStart_busy (s : State) (p : Page) (unit shift : Nat) : (opStart s p unit shift).opBusy p = true := by
  have hbusy : ((s.wr p 0x20 0).wrF p 0x14 3 1 1).rdB p 0x14 3 = true := rdB_wrF_bit (s.wr p 0x20 0) p 0x14 3 3 true (by decide)
  rw [State.opBusy, opStart]
  split
  · rw [State.rdB, rd_wr_off _ _ _ (by decide) (by decide) (by decide)]
    exact hbusy
  · exact hbusy

/-- PROGRESS of what has completed. -/
theorem progressWord_done (done u : Nat) : progressWord done done u / 2 ^ 24 = 100 := by
  have hpercent : (if done = 0 then 100 else 100 * done / done) = 100 := by
    split
    · rfl
    · exact Nat.mul_div_cancel _ (by omega)
  rw [progressWord, hpercent]
  omega

/-- It has completed, and what it found is as before. -/
theorem longDone_ended (s : State) (pos : Nat) : LongEnded (longDone s pos) ∧ (longDone s pos).palur = { s.palur with long := none } := by
  have hpalur : (longDone s pos).palur = { s.palur with long := none } := by
    rw [longDone, opDone, raise_palur, State.wrF_palur, State.wr_palur, State.modPalur]
  have hprogress := progressWord_done pos 1
  refine ⟨⟨by rw [hpalur], ?_, raise_rdB_self _ _ _ _ _ _ _ (by decide), ?_⟩, hpalur⟩
  · rw [longDone, opDone, State.opBusy, State.rdB, rd_raise (by decide) (by decide)]
    exact rdB_wrF_bit _ pPalur 0x14 3 3 false (by decide)
  · rw [longDone, opDone, rd_raise (by decide) (by decide), State.wrF, rd_wr_off _ _ _ (by decide) (by decide) (by decide), rd_wr_self]
    omega

end Sys2Proof.Machine
end

section
/-! SUPPORT. What the requests read (09_command_queues.md R302, 15_security_firmware.md R475, R484-R488). -/

namespace Sys2Proof.Machine

open Sys2Proof

/-- An answer changes of what Palur holds at most the response last sent. -/
theorem Replied.palur {s t : State} {r : PReq} {status : Nat} {payload : List Byte} (h : Replied s t r status payload) : t.palur = { s.palur with sent := t.palur.sent } := by
  obtain ⟨hmailbox, hsession⟩ := h
  rcases hs : r.session with _ | ⟨σ, seq⟩
  · obtain ⟨-, -, -, -, honly⟩ := hmailbox hs
    rw [honly]
  · rw [hsession σ seq hs]

/-- The piece of a byte string that the request names, or BAD_LEN. -/
def PieceRead (s : State) (r : PReq) (b : List Byte) (t : State) : Prop :=
  (b.length < r.le 0xC 4 + r.le 0xA 2 → Replied s t r 3 []) ∧ (r.le 0xC 4 + r.le 0xA 2 ≤ b.length → Replied s t r 0 (slice b (r.le 0xC 4) (r.le 0xA 2)))

theorem Serves.reads {s0 s : State} {row : Nat} {r : PReq} (h : Serves s0 s row r) {c : Instr} (g : State → Out) {f : PReq → State → State} (hc : exec c s0 = g s0)
    (hg : g s0 = Machine.serveReq row s0 f) {b : List Byte} (hf : f r s = readPiece s r b) : Completes c s0 (PieceRead s r b) := by
  by_cases hlen : b.length < r.le 0xC 4 + r.le 0xA 2
  · rw [readPiece, if_pos hlen] at hf
    obtain ⟨t, hexec, hreply⟩ := h.replies g hc hg hf h.reqs
    exact ⟨t, hexec, fun _ => hreply, fun hle => absurd hlen (by omega)⟩
  · rw [readPiece, if_neg hlen] at hf
    obtain ⟨t, hexec, hreply⟩ := h.replies g hc hg hf h.reqs
    exact ⟨t, hexec, fun hlt => absurd hlt hlen, fun _ => hreply⟩

section
variable {s0 s : State} {r : PReq}

theorem getInfo_answers (h : Serves s0 s 0x0100 r) : Completes .getInfo s0 (fun t => ∃ b, Replied s t r 0 b) := by
  obtain ⟨t, hexec, hreply⟩ := h.replies (c := .getInfo) execGetInfo rfl rfl rfl h.reqs
  exact ⟨t, hexec, _, hreply⟩

theorem getResult_answers (h : Serves s0 s 0x0200 r) : Completes .getResult s0 (fun t => Replied s t r 0 s.palur.result) :=
  h.replies execGetResult rfl rfl rfl h.reqs

theorem attestBurgee_reads (h : Serves s0 s 0x5002 r) : Completes .attestBurgee s0 (PieceRead s r s.store.burgee) :=
  h.reads execAttestBurgee rfl rfl rfl

theorem attestRead_cases (h : Serves s0 s 0x5001 r) :
    (∀ b, s.palur.long = some (.attest b) → Completes .attestRead s0 (fun t => Replied s t r 5 []))
    ∧ (s.palur.long = none → s.palur.report = none → Completes .attestRead s0 (fun t => Replied s t r 7 []))
    ∧ (∀ b, s.palur.long = none → s.palur.report = some b → Completes .attestRead s0 (PieceRead s r b)) := by
  refine ⟨fun b hlong => ?_, fun hlong hreport => ?_, fun b hlong hreport => ?_⟩
  · exact h.replies execAttestRead rfl rfl (by rw [hlong]) h.reqs
  · exact h.replies execAttestRead rfl rfl (by rw [hlong, hreport]) h.reqs
  · exact h.reads execAttestRead rfl rfl (by rw [hlong, hreport])

/-! The calibration. -/

theorem calRead_cases (h : Serves s0 s 0x7000 r) :
    (r.arg = 0 → Completes .calRead s0 (PieceRead s r s.store.calib))
    ∧ (r.arg = 1 → (s.palur.calPend = none → Completes .calRead s0 (fun t => Replied s t r 7 []))
      ∧ (∀ b, s.palur.calPend = some b → Completes .calRead s0 (PieceRead s r b))) := by
  refine ⟨fun harg => ?_, fun harg => ⟨fun hpend => ?_, fun b hpend => ?_⟩⟩
  · exact h.reads execCalRead rfl rfl (if_pos harg)
  · exact h.replies execCalRead rfl rfl (by rw [if_neg (by omega), hpend]) h.reqs
  · exact h.reads execCalRead rfl rfl (by rw [if_neg (by omega), hpend])

theorem calWriteData_cases (h : Serves s0 s 0x7100 r) :
    (calOk s r = false → Completes .calWriteData s0 (fun t => Replied s t r 4 []))
    ∧ (calOk s r = true → 8192 < r.le 0xC 4 + r.le 0xA 2 → Completes .calWriteData s0 (fun t => Replied s t r 3 []))
    ∧ (calOk s r = true → r.le 0xC 4 + r.le 0xA 2 ≤ 8192 → Completes .calWriteData s0 (fun t =>
        Replied { s with palur := { s.palur with calPend := some (putBytes (s.palur.calPend.getD s.store.calib) (r.le 0xC 4) ((r.msg.drop 0x10).take (r.le 0xA 2))) } } t r 0 [])) := by
  refine ⟨fun hok => ?_, fun hok hlen => ?_, fun hok hlen => ?_⟩
  · exact h.replies execCalWriteData rfl rfl (if_pos (by rw [hok]; rfl)) h.reqs
  · exact h.replies execCalWriteData rfl rfl (by rw [hok, if_neg (by decide), if_pos hlen]) h.reqs
  · exact h.replies execCalWriteData rfl rfl (by rw [hok, if_neg (by decide), if_neg (by omega)]; rfl) h.reqs

theorem calCommit_refusals (h : Serves s0 s 0x7101 r) :
    (calOk s r = false → Completes .calCommit s0 (fun t => Replied s t r 4 []))
    ∧ (calOk s r = true → s.palur.calPend = none → Completes .calCommit s0 (fun t => Replied s t r 7 []))
    ∧ (∀ b, calOk s r = true → s.palur.calPend = some b → calBad s b (r.le 0xC 4) = true → Completes .calCommit s0 (fun t => Replied s t r 7 [])) := by
  refine ⟨fun hok => ?_, fun hok hpend => ?_, fun b hok hpend hbad => ?_⟩
  · exact h.replies execCalCommit rfl rfl (if_pos (by rw [hok]; rfl)) h.reqs
  · exact h.replies execCalCommit rfl rfl (by rw [hok, if_neg (by decide), hpend]) h.reqs
  · exact h.replies execCalCommit rfl rfl (by rw [hok, if_neg (by decide), hpend]; exact if_pos hbad) h.reqs

/-- The state in which a calibration set has been committed: the next control period takes it. -/
def calCommitted (s : State) (r : PReq) (b : List Byte) : State :=
  { s with palur := { s.palur with calPend := none, calDue := some (putBytes b 0x1FFC (toLE 4 (r.le 0xC 4))) }, store := { s.store with modified := true } }

theorem calCommit_commits (h : Serves s0 s 0x7101 r) {b : List Byte} (hok : calOk s r = true) (hpend : s.palur.calPend = some b) (hgood : calBad s b (r.le 0xC 4) = false) :
    Completes .calCommit s0 (fun t => ∃ u, Replied (calCommitted s r b) u r 0 [] ∧ OneFlag u t pPalur 17) := by
  have hreqs : (raise (reply (calCommitted s r b) r 0) pPalur 17).palur.reqs = [] := by
    rw [raise_palur, reply_reqs]
    exact h.reqs
  refine ⟨_, h.next execCalCommit rfl rfl ?_ hreqs, _, reply_replied .., raise_oneFlag _ _ 17 _ _ _ _ (by decide)⟩
  rw [hok, if_neg (by decide), hpend]
  exact if_neg (by rw [hgood]; exact Bool.false_ne_true)

theorem calDiscard_discards (h : Serves s0 s 0x7102 r) (hok : calOk s r = true) :
    Completes .calDiscard s0 (fun t => Replied { s with palur := { s.palur with calPend := none } } t r 0 []) :=
  h.replies execCalDiscard rfl rfl (if_pos hok) h.reqs

/-! The error log. -/

/-- The list of records that the request selects. -/
def logList (s : State) (r : PReq) : List (Nat × List Byte) :=
  match r.arg with
  | 0 => s.log.recent
  | 1 => s.store.class3
  | _ => retList s

/-- Up to three of them. -/
def logFound (s : State) (r : PReq) : List (Nat × List Byte) := ((logList s r).filter (fun x => decide (r.le 0xC 4 ≤ x.1))).take 3

theorem errlogRead_answers (h : Serves s0 s 0x6000 r) : Completes .errlogRead s0 (fun t =>
    Replied s t r 0 (toLE 4 (logFound s r).length ++ toLE 4 (match (logFound s r).getLast? with | some x => (x.1 + 1) % 2 ^ 32 | none => r.le 0xC 4)
      ++ ((logFound s r).map (fun x => x.2)).foldl (· ++ ·) [])) :=
  h.replies execErrlogRead rfl rfl rfl h.reqs

/-! The report. -/

/-- What a report begins with. -/
def reportHead (s : State) (nonce : List Byte) : List Byte :=
  toLE 1 1 ++ toLE 1 s.store.lifecycle ++ toLE 1 (debugState s) ++ toLE 1 (powerState s) ++ toLE 4 (s.palur.reports + 1) ++ slice nonce 0 48

theorem reportBytes_head (s : State) (nonce : List Byte) : (reportBytes s nonce).take 56 = reportHead s nonce := by
  have hlen : (reportHead s nonce).length = 56 := by simp only [reportHead, List.length_append, length_toLE, length_slice]
  obtain ⟨rest, hrest⟩ : ∃ rest, reportBytes s nonce = reportHead s nonce ++ rest := by
    refine ⟨?rest, ?split⟩
    case split =>
      unfold reportBytes reportHead
      simp only [List.append_assoc]
      rfl
  rw [hrest, List.take_left' hlen]

theorem attestReport_begins (h : Serves s0 s 0x5000 r) (hlong : s.palur.long = none) : Completes .attestReport s0 (fun t =>
    t.palur.report = none ∧ t.palur.reports = s.palur.reports + 1 ∧ t.opBusy pPalur = true
      ∧ ∃ b, t.palur.long = some (.attest b) ∧ b.take 56 = reportHead s (slice r.msg 0x10 48)) := by
  have hreply := (reply_replied s r 1 []).palur
  generalize hu : reply s r 1 [] = u at hreply
  let t : State := (longStart u (.attest (reportBytes s (slice r.msg 0x10 48))) 5 0).modPalur (fun k => { k with report := none, reports := k.reports + 1 })
  have hregs : t.regs = (opStart u pPalur 5 0).regs := by simp only [t, longStart, State.modPalur_regs]
  have hbusy : t.opBusy pPalur = true := by
    rw [← opStart_busy u pPalur 5 0]
    exact congrArg (fun x => bit x 3) (rd_congr hregs pPalur 0x14)
  have hpalur : t.palur = { u.palur with long := some (.attest (reportBytes s (slice r.msg 0x10 48))), report := none, reports := u.palur.reports + 1 } := by
    have honly := opStart_only u pPalur 5 0
    simp only [t, longStart, State.modPalur]
    rw [honly]
  have hexec : exec .attestReport s0 = .next t := by
    change execAttestReport s0 = _
    rw [execAttestReport, serveLong]
    refine h.serveReq ?_ (by rw [hpalur, hreply]; exact h.reqs)
    rw [hlong, Option.isSome_none, if_neg Bool.false_ne_true, hu]
  refine ⟨t, hexec, by rw [hpalur], by rw [hpalur, hreply], hbusy, _, by rw [hpalur], reportBytes_head ..⟩

end

theorem attestSignComplete_signs {s : State} {b : List Byte} (hup : s.up = true) (hpaused : s.paused = false) (hlong : s.palur.long = some (.attest b)) :
    Completes .attestSignComplete s (fun t => LongEnded t ∧ t.palur.result = [0, 0, 0, 0, 0]
      ∧ t.palur.report = some (b ++ slice (Config.sigOf (Config.deviceKey 0) b) 0 384 ++ slice (Config.sigOf (Config.deviceKey 1) b) 0 16224)) := by
  obtain ⟨hended, hpalur⟩ := longDone_ended ((setResult s 0 0).modPalur (fun k => { k with
    report := some (b ++ slice (Config.sigOf (Config.deviceKey 0) b) 0 384 ++ slice (Config.sigOf (Config.deviceKey 1) b) 0 16224) })) 1
  refine ⟨_, ?_, hended, by rw [hpalur]; rfl, by rw [hpalur]; rfl⟩
  change execAttestSignComplete s = _
  rw [execAttestSignComplete, hlong]
  dsimp only
  rw [hup, hpaused, if_neg (by decide)]

theorem attestSignComplete_idle {s : State} (hlong : s.palur.long = none) : Idle .attestSignComplete s := by
  change execAttestSignComplete s = _
  rw [execAttestSignComplete, hlong]

end Sys2Proof.Machine
end

section
/-! SUPPORT. Frames at the management port (12_krovmo_fabric.md R396). -/

namespace Sys2Proof.Machine

open Sys2Proof

/-- The frame is counted, and of the rest only the network side of the port changed. -/
def FrameTook (s : State) (k : FrameKind) (m : MgmtNet) : Prop :=
  Completes (.mgmtFrame k) s (fun t => t.rd pMgmt 0x210 = (s.rd pMgmt 0x210 + 1) % 2 ^ 32 ∧ RegsKept s t [(pMgmt, 0x210)] ∧ t = { s with regs := t.regs, mgmt := m })

/-- The VLAN tag of what the port sends (R399). -/
def portTag (s : State) : Option Nat := if s.rdB pMgmt 0x104 2 = true then some (s.rdF pMgmt 0x104 4 12) else none

/-- The client starts where PORT_CFG.dhcp4 selects it. -/
theorem dhcpStart_on {s : State} (h : s.rdB pMgmt 0x104 16 = true) : (dhcpStart s).regs = s.regs ∧ (dhcpStart s).mgmt.dhcp = 1 ∧ (dhcpStart s).mgmt.lease = none := by
  have hon : ({ s with mgmt := { s.mgmt with dhcp := 0, lease := none } } : State).rdB pMgmt 0x104 16 = true := h
  rw [dhcpStart, if_pos hon]
  exact ⟨rfl, rfl, rfl⟩

/-- The state `u` in which the port has counted a frame. -/
def Counted (s u : State) : Prop := OnlyWords s u [(pMgmt, 0x210)]

theorem inc_counted (s : State) : Counted s (s.inc pMgmt 0x210 1) := inc_onlyWord ..

section
variable {s u : State} (h : Counted s u)
include h

/-- The count of frames is no other word of the page. -/
theorem Counted.rd {a : Nat} (ha : a % 4 = 0) (hne : a ≠ 0x210) : u.rd pMgmt a = s.rd pMgmt a := by
  obtain ⟨hkept, -⟩ := h
  exact hkept.rd (by simpa using regKey_ne pMgmt ha (show 0x210 % 4 = 0 by decide) hne)

theorem Counted.rdB {a : Nat} (n : Nat) (ha : a % 4 = 0) (hne : a ≠ 0x210) : u.rdB pMgmt a n = s.rdB pMgmt a n :=
  congrArg (fun x => bit x n) (h.rd ha hne)

theorem Counted.mgmt : u.mgmt = s.mgmt := by
  obtain ⟨-, honly⟩ := h
  rw [honly]

theorem Counted.store : u.store = s.store := by
  obtain ⟨-, honly⟩ := h
  rw [honly]

theorem Counted.palur : u.palur = s.palur := by
  obtain ⟨-, honly⟩ := h
  rw [honly]

theorem Counted.ref : u.ref = s.ref := by
  obtain ⟨-, honly⟩ := h
  rw [honly]

theorem Counted.portTag : portTag u = Machine.portTag s := by
  rw [Machine.portTag, Machine.portTag, h.rdB 2 (by decide) (by decide), State.rdF, h.rd (by decide) (by decide), State.rdF]

theorem Counted.portIp4 : portIp4 u = Machine.portIp4 s := by
  rw [Machine.portIp4, Machine.portIp4, h.rdB 16 (by decide) (by decide), h.rd (by decide) (by decide), h.mgmt]

theorem Counted.portMac : portMac u = Machine.portMac s := by rw [Machine.portMac, Machine.portMac, h.store]

theorem Counted.ownIp6 (a : Nat) : ownIp6 u a = Machine.ownIp6 s a := by
  have hstatic : staticIp6 u = staticIp6 s := by
    simp only [staticIp6, State.rd64]
    rw [h.rd (by decide) (by decide), h.rd (by decide) (by decide), h.rd (by decide) (by decide), h.rd (by decide) (by decide)]
  have hlink : linkLocal u = linkLocal s := by rw [linkLocal, linkLocal, h.portMac]
  rw [Machine.ownIp6, Machine.ownIp6, hstatic, hlink]

/-- What the port sends bears its tag. -/
theorem Counted.mgmtSend (m : MgmtNet) (f : MgmtFrame) : mgmtSend { u with mgmt := m } f = { u with mgmt := { m with sent := some (Machine.portTag s, f) } } := by
  rw [← h.portTag]
  rfl

theorem Counted.same : u = { u with mgmt := s.mgmt } := by rw [← h.mgmt]

end

section
variable {s : State} (hs : mgmtHears s = true)
include hs

theorem exec_mgmtFrame_heard (k : FrameKind) : ∃ u, Counted s u ∧ u.rd pMgmt 0x210 = (s.rd pMgmt 0x210 + 1) % 2 ^ 32
    ∧ exec (.mgmtFrame k) s = .next (frameHeard k u) := by
  refine ⟨s.inc pMgmt 0x210 1, inc_counted s, rd_inc_self .., ?_⟩
  change execMgmtFrame k s = _
  rw [execMgmtFrame, hs]
  rfl

theorem frame_took {k : FrameKind} {m : MgmtNet} (h : ∀ u, Counted s u → frameHeard k u = { u with mgmt := m }) : FrameTook s k m := by
  obtain ⟨u, hu, hrd, hexec⟩ := exec_mgmtFrame_heard hs k
  rw [h u hu] at hexec
  obtain ⟨hkept, honly⟩ := hu
  exact ⟨_, hexec, hrd, hkept, by rw [honly]⟩

/-- A frame that the port answers where it asks for one of its addresses, and passes over otherwise. -/
theorem frame_answers {k : FrameKind} {b : Bool} {asks : Prop} {f : MgmtFrame} (hb : b = true ↔ asks)
    (h : ∀ u, Counted s u → frameHeard k u = if b then mgmtSend u f else u) :
    (asks → FrameTook s k { s.mgmt with sent := some (portTag s, f) }) ∧ (¬ asks → FrameTook s k s.mgmt) := by
  refine ⟨fun hasks => frame_took hs fun u hu => ?_, fun hno => frame_took hs fun u hu => ?_⟩
  · rw [h u hu, if_pos (hb.mpr hasks), ← hu.mgmtSend, ← hu.same]
  · rw [h u hu, if_neg (fun hyes => hno (hb.mp hyes)), ← hu.same]

theorem frame_other : Completes (.mgmtFrame .other) s (fun t => t.rd pMgmt 0x210 = (s.rd pMgmt 0x210 + 1) % 2 ^ 32
    ∧ t.rd pMgmt 0x214 = (s.rd pMgmt 0x214 + 1) % 2 ^ 32 ∧ OnlyWords s t [(pMgmt, 0x210), (pMgmt, 0x214)]) := by
  obtain ⟨u, hu, hrd, hexec⟩ := exec_mgmtFrame_heard hs .other
  refine ⟨u.inc pMgmt 0x214 1, hexec, ?_, ?_, OnlyWords.trans hu (inc_onlyWord u pMgmt 0x214 1)⟩
  · rw [State.inc, rd_wr_off _ _ _ (by decide) (by decide) (by decide), hrd]
  · rw [rd_inc_self, hu.rd (by decide) (by decide)]

theorem frame_arp (rq : Bool) (mac : BitVec 48) (ip target : BitVec 32) :
    (rq = true ∧ portIp4 s = some target.toNat → FrameTook s (.arp rq mac ip target) { s.mgmt with sent := some (portTag s, .arp target.toNat (portMac s) mac.toNat) })
    ∧ (¬ (rq = true ∧ portIp4 s = some target.toNat) → FrameTook s (.arp rq mac ip target) s.mgmt) :=
  frame_answers hs (b := rq && decide (portIp4 s = some target.toNat)) (by simp) fun u hu => by rw [frameHeard, hu.portIp4, hu.portMac]

theorem frame_ndp (rq : Bool) (source target : BitVec 128) :
    (rq = true ∧ ownIp6 s target.toNat = true → FrameTook s (.ndp rq source target) { s.mgmt with sent := some (portTag s, .ndp target.toNat (portMac s) source.toNat) })
    ∧ (¬ (rq = true ∧ ownIp6 s target.toNat = true) → FrameTook s (.ndp rq source target) s.mgmt) :=
  frame_answers hs (b := rq && ownIp6 s target.toNat) (by simp) fun u hu => by rw [frameHeard, hu.ownIp6, hu.portMac]

theorem frame_icmp6 (rq : Bool) (source target : BitVec 128) (data : List Byte) :
    (rq = true ∧ ownIp6 s target.toNat = true →
      FrameTook s (.icmp true rq source target data) { s.mgmt with sent := some (portTag s, .echo true target.toNat source.toNat data) })
    ∧ (¬ (rq = true ∧ ownIp6 s target.toNat = true) → FrameTook s (.icmp true rq source target data) s.mgmt) :=
  frame_answers hs (b := rq && ownIp6 s target.toNat) (by simp) fun u hu => by rw [frameHeard, hu.ownIp6, if_pos rfl]

theorem frame_icmp4 (rq : Bool) (source target : BitVec 128) (data : List Byte) :
    (rq = true ∧ portIp4 s = some target.toNat →
      FrameTook s (.icmp false rq source target data) { s.mgmt with sent := some (portTag s, .echo false target.toNat source.toNat data) })
    ∧ (¬ (rq = true ∧ portIp4 s = some target.toNat) → FrameTook s (.icmp false rq source target data) s.mgmt) :=
  frame_answers hs (b := rq && decide (portIp4 s = some target.toNat)) (by simp) fun u hu => by rw [frameHeard, hu.portIp4, if_neg Bool.false_ne_true]

/-! The DHCPv4 client. -/

section
variable (xid addr server : BitVec 32) (plen : Nat) (gateway : BitVec 32) (secs : Nat)

/-- A message of another transaction is passed over. -/
theorem dhcp_notMine (h : ¬ (s.rdB pMgmt 0x104 16 = true ∧ xid.toNat = s.mgmt.xid)) (kind : DhcpKind) :
    FrameTook s (.dhcp kind xid addr server plen gateway secs) s.mgmt := by
  refine frame_took hs fun u hu => Eq.trans ?_ hu.same
  have hnot : u.rdB pMgmt 0x104 16 = false ∨ xid.toNat ≠ u.mgmt.xid := by
    rw [hu.rdB 16 (by decide) (by decide), hu.mgmt]
    rw [not_and_or, Bool.not_eq_true] at h
    exact h
  exact if_pos hnot

section
variable (hmine : s.rdB pMgmt 0x104 16 = true ∧ xid.toNat = s.mgmt.xid)
include hmine

omit hs in
/-- A message of the client's own transaction is heard. -/
theorem Counted.hears_mine {u : State} (hu : Counted s u) : ¬ (u.rdB pMgmt 0x104 16 = false ∨ xid.toNat ≠ u.mgmt.xid) := by
  obtain ⟨hon, hxid⟩ := hmine
  rw [hu.rdB 16 (by decide) (by decide), hu.mgmt, hon, hxid]
  simp

/-- One that the client's state does not await is passed over. -/
theorem dhcp_passed {kind : DhcpKind} (h : (kind = .offer ∧ s.mgmt.dhcp ≠ 1) ∨ ((kind = .ack ∨ kind = .nak) ∧ s.mgmt.dhcp ≠ 2)) :
    FrameTook s (.dhcp kind xid addr server plen gateway secs) s.mgmt := by
  refine frame_took hs fun u hu => Eq.trans ?_ hu.same
  refine (if_neg (hu.hears_mine xid hmine)).trans ?_
  rw [← hu.mgmt] at h
  rcases h with ⟨rfl, hstate⟩ | ⟨rfl | rfl, hstate⟩
  · exact if_neg hstate
  · exact if_neg hstate
  · exact if_neg hstate

theorem dhcp_offer (hstate : s.mgmt.dhcp = 1) : FrameTook s (.dhcp .offer xid addr server plen gateway secs)
    { s.mgmt with dhcp := 2, sent := some (portTag s, .request xid.toNat addr.toNat server.toNat) } := by
  refine frame_took hs fun u hu => ?_
  refine (if_neg (hu.hears_mine xid hmine)).trans ((if_pos (by rw [hu.mgmt]; exact hstate)).trans ?_)
  rw [hu.mgmt, hu.mgmtSend]

theorem dhcp_ack (hstate : s.mgmt.dhcp = 2) : FrameTook s (.dhcp .ack xid addr server plen gateway secs)
    { s.mgmt with dhcp := 3, lease := some (addr.toNat, plen, gateway.toNat, s.ref + 100000000 * secs) } := by
  refine frame_took hs fun u hu => ?_
  refine (if_neg (hu.hears_mine xid hmine)).trans ((if_pos (by rw [hu.mgmt]; exact hstate)).trans ?_)
  rw [hu.mgmt, hu.ref]

/-- A refusal starts the client over. -/
theorem dhcp_nak (hstate : s.mgmt.dhcp = 2) : Completes (.mgmtFrame (.dhcp .nak xid addr server plen gateway secs)) s (fun t =>
    t.rd pMgmt 0x210 = (s.rd pMgmt 0x210 + 1) % 2 ^ 32 ∧ t.mgmt.dhcp = 1 ∧ t.mgmt.lease = none) := by
  obtain ⟨u, hu, hrd, hexec⟩ := exec_mgmtFrame_heard hs (.dhcp .nak xid addr server plen gateway secs)
  have hon : u.rdB pMgmt 0x104 16 = true := (hu.rdB 16 (by decide) (by decide)).trans hmine.1
  have hheard : frameHeard (.dhcp .nak xid addr server plen gateway secs) u = dhcpStart u :=
    (if_neg (hu.hears_mine xid hmine)).trans (if_pos (by rw [hu.mgmt]; exact hstate))
  rw [hheard] at hexec
  obtain ⟨hregs, hdhcp, hlease⟩ := dhcpStart_on hon
  exact ⟨_, hexec, (rd_congr hregs _ _).trans hrd, hdhcp, hlease⟩

end
end
end

end Sys2Proof.Machine
end

section
/-! SUPPORT. Datagrams at the management port (12_krovmo_fabric.md R398, 15_security_firmware.md R494). -/

namespace Sys2Proof.Machine

open Sys2Proof

/-- The envelope and the length of a datagram with a request are right. -/
def DatagramFormed (d : List Byte) : Prop :=
  16 ≤ d.length ∧ leAt d 1 1 = 0 ∧ leAt d 8 8 < 2 ^ 63 ∧ d.length = leAt d 2 2 + 32 ∧ 8 ≤ leAt d 2 2 ∧ leAt d 2 2 ≤ 256

/-- What the cipher opens of it. -/
def datagramClear (s : State) (d : List Byte) : Option (List Byte) :=
  Config.openSealed (sessKey s (leAt d 4 4)) (toLE 4 (leAt d 4 4) ++ toLE 8 (leAt d 8 8)) (d.take 16) ((d.drop 16).take (leAt d 2 2)) (d.drop (16 + leAt d 2 2))

/-- What the port finds wrong of one that is long enough. -/
theorem not_datagramFormed {d : List Byte} (hlen : ¬ d.length < 16) (h : ¬ DatagramFormed d) :
    leAt d 1 1 ≠ 0 ∨ 2 ^ 63 ≤ leAt d 8 8 ∨ d.length ≠ leAt d 2 2 + 32 ∨ leAt d 2 2 < 8 ∨ 256 < leAt d 2 2 := by
  by_contra hno
  simp only [not_or, Nat.not_le, Nat.not_lt, not_not] at hno hlen
  obtain ⟨hkind, hseq, hsize, hlow, hhigh⟩ := hno
  exact h ⟨hlen, hkind, hseq, hsize, hlow, hhigh⟩

theorem length_lastN_le {α : Type} (n : Nat) (l : List α) : (lastN n l).length ≤ n := by
  rw [lastN, List.length_drop]
  omega

/-- The last element stays. -/
theorem lastN_getLast {α : Type} (n : Nat) (l : List α) (x : α) : (lastN (n + 1) (l ++ [x])).getLast? = some x := by
  rw [lastN, List.getLast?_drop, if_neg (by rw [List.length_append, List.length_singleton]; omega), List.getLast?_concat]

/-- A datagram counted and, at another word, discarded, with a flag. -/
theorem Counted.then_discard {s u : State} (hu : Counted s u) {a n : Nat} (hn : n < 32) (ha : a % 4 = 0) (hcount : a ≠ 0x210)
    (hwords : a ≠ 0x18 ∧ a ≠ 0x1C ∧ a ≠ 0x780 + 4 * n) :
    (raise (u.inc pMgmt a 1) pMgmt n).rd pMgmt 0x210 = u.rd pMgmt 0x210 ∧ (raise (u.inc pMgmt a 1) pMgmt n).rd pMgmt a = (s.rd pMgmt a + 1) % 2 ^ 32
      ∧ WordsAndFlag s (raise (u.inc pMgmt a 1) pMgmt n) [(pMgmt, 0x210), (pMgmt, a)] pMgmt n := by
  have hboth : OnlyWords s (u.inc pMgmt a 1) ([0x210, a].map (fun a => (pMgmt, a))) := OnlyWords.trans hu (inc_onlyWord u pMgmt a 1)
  refine ⟨?_, ?_, hboth.then_raise_page hn ?_ ?_ 0 0xFFFF 0 []⟩
  · rw [rd_raise (by decide) ⟨by decide, by decide, by omega⟩, State.inc, rd_wr_off _ _ _ ha (by decide) (Ne.symm hcount)]
  · rw [rd_raise ha hwords, rd_inc_self, hu.rd ha hcount]
  · simpa using ha
  · simp only [List.forall_mem_cons]
    exact ⟨⟨by decide, by decide, by omega⟩, hwords, by simp⟩

section
variable {s : State} (hs : mgmtHears s = true) (d : List Byte)
include hs

theorem exec_mgmtDatagram_heard : ∃ u, Counted s u ∧ u.rd pMgmt 0x210 = (s.rd pMgmt 0x210 + 1) % 2 ^ 32 ∧ exec (.mgmtDatagram d) s = .next (
    if s.store.mgmtKey.isNone then authFail u
    else if d.length < 16 then authFail u
    else if leAt d 0 1 ≠ 1 then u.modPalur (fun k => { k with sent := toLE 1 1 ++ toLE 1 2 ++ toLE 2 2 ++ toLE 4 (leAt d 4 4) ++ toLE 8 (leAt d 8 8) ++ [1, 1] })
    else if leAt d 1 1 ≠ 0 ∨ 2 ^ 63 ≤ leAt d 8 8 ∨ d.length ≠ leAt d 2 2 + 32 ∨ leAt d 2 2 < 8 ∨ 256 < leAt d 2 2 then authFail u
    else if leAt d 4 4 ≤ s.store.sessHigh ∧ (s.palur.sessions.any (fun x => decide (x.1 = leAt d 4 4))) = false then authFail u
    else match datagramClear s d with
      | none => authFail u
      | some m => acceptDatagram u (leAt d 4 4) (leAt d 8 8) m) := by
  refine ⟨s.inc pMgmt 0x210 1, inc_counted s, rd_inc_self .., ?_⟩
  change execMgmtDatagram d s = _
  rw [execMgmtDatagram, hs]
  rfl

/-- A version that the port does not speak is answered. -/
theorem datagram_version (hlen : 16 ≤ d.length) (hkey : s.store.mgmtKey ≠ none) (hver : leAt d 0 1 ≠ 1) : Completes (.mgmtDatagram d) s (fun t =>
    t.rd pMgmt 0x210 = (s.rd pMgmt 0x210 + 1) % 2 ^ 32 ∧ RegsKept s t [(pMgmt, 0x210)]
      ∧ t = { s with regs := t.regs, palur := { s.palur with sent := toLE 1 1 ++ toLE 1 2 ++ toLE 2 2 ++ toLE 4 (leAt d 4 4) ++ toLE 8 (leAt d 8 8) ++ [1, 1] } }) := by
  obtain ⟨u, hu, hrd, hexec⟩ := exec_mgmtDatagram_heard hs d
  rw [if_neg (by simpa using hkey), if_neg (by omega), if_pos hver] at hexec
  obtain ⟨hkept, honly⟩ := hu
  exact ⟨_, hexec, hrd, hkept, by rw [State.modPalur, honly]⟩

/-- What is not authentic is counted. -/
theorem datagram_discarded (h : s.store.mgmtKey = none ∨ (leAt d 0 1 = 1 ∧ ¬ DatagramFormed d)
      ∨ (leAt d 0 1 = 1 ∧ leAt d 4 4 ≤ s.store.sessHigh ∧ ¬ ∃ x ∈ s.palur.sessions, x.1 = leAt d 4 4) ∨ (leAt d 0 1 = 1 ∧ datagramClear s d = none)) :
    Completes (.mgmtDatagram d) s (fun t => t.rd pMgmt 0x210 = (s.rd pMgmt 0x210 + 1) % 2 ^ 32 ∧ t.rd pMgmt 0x218 = (s.rd pMgmt 0x218 + 1) % 2 ^ 32
      ∧ WordsAndFlag s t [(pMgmt, 0x210), (pMgmt, 0x218)] pMgmt 10) := by
  obtain ⟨u, hu, hrd, hexec⟩ := exec_mgmtDatagram_heard hs d
  obtain ⟨hcount, hfails, hflag⟩ := hu.then_discard (a := 0x218) (n := 10) (by decide) (by decide) (by decide) (by decide)
  refine ⟨_, hexec.trans (congrArg Host.Outcome.next ?_), hcount.trans hrd, hfails, hflag⟩
  change _ = authFail u
  by_cases hkey : s.store.mgmtKey = none
  · rw [hkey]
    rfl
  by_cases hlen : d.length < 16
  · rw [if_pos hlen, ite_self]
  have hclear : leAt d 0 1 = 1 ∧ (¬ DatagramFormed d ∨ (leAt d 4 4 ≤ s.store.sessHigh ∧ ¬ ∃ x ∈ s.palur.sessions, x.1 = leAt d 4 4) ∨ datagramClear s d = none) := by
    rcases h with hno | ⟨hver, hform⟩ | ⟨hver, hnew⟩ | ⟨hver, hclear⟩
    · exact absurd hno hkey
    · exact ⟨hver, Or.inl hform⟩
    · exact ⟨hver, Or.inr (Or.inl hnew)⟩
    · exact ⟨hver, Or.inr (Or.inr hclear)⟩
  clear h
  obtain ⟨hver, h⟩ := hclear
  rw [if_neg (by simpa using hkey), if_neg hlen, if_neg (not_not.mpr hver)]
  rcases h with hform | ⟨hlow, hnew⟩ | hclear
  · rw [if_pos (not_datagramFormed hlen hform)]
  · have hany : s.palur.sessions.any (fun x => decide (x.1 = leAt d 4 4)) = false := List.any_eq_false.mpr fun x hx hsame => hnew ⟨x, hx, of_decide_eq_true hsame⟩
    rw [if_pos (show _ ∧ _ from ⟨hlow, hany⟩), ite_self]
  · rw [hclear, ite_self, ite_self]

section
variable {m : List Byte} (hkey : s.store.mgmtKey ≠ none) (hver : leAt d 0 1 = 1) (hformed : DatagramFormed d) (hclear : datagramClear s d = some m)
include hkey hver hformed hclear

/-- An authentic request of a session that is open, or may open, is accepted. -/
theorem exec_mgmtDatagram_authentic (hsession : s.store.sessHigh < leAt d 4 4 ∨ ∃ x ∈ s.palur.sessions, x.1 = leAt d 4 4) :
    ∃ u, Counted s u ∧ u.rd pMgmt 0x210 = (s.rd pMgmt 0x210 + 1) % 2 ^ 32 ∧ exec (.mgmtDatagram d) s = .next (acceptDatagram u (leAt d 4 4) (leAt d 8 8) m) := by
  obtain ⟨u, hu, hrd, hexec⟩ := exec_mgmtDatagram_heard hs d
  obtain ⟨hlen, hkind, hseq, hsize, hlow, hhigh⟩ := hformed
  have hknown : ¬ (leAt d 4 4 ≤ s.store.sessHigh ∧ (s.palur.sessions.any (fun x => decide (x.1 = leAt d 4 4))) = false) := by
    rintro ⟨hle, hno⟩
    rcases hsession with hgt | ⟨x, hx, hxσ⟩
    · omega
    · rw [List.any_eq_false] at hno
      exact hno x hx (decide_eq_true hxσ)
  rw [if_neg (by simpa using hkey), if_neg (by omega), if_neg (not_not.mpr hver), if_neg (by omega), if_neg hknown, hclear] at hexec
  exact ⟨u, hu, hrd, hexec⟩

section
variable {x : Nat × Nat} (hfind : s.palur.sessions.find? (fun x => decide (x.1 = leAt d 4 4)) = some x)
include hfind

/-- A number that the session has passed is a replay. -/
theorem datagram_replayed (hold : leAt d 8 8 ≤ x.2) : Completes (.mgmtDatagram d) s (fun t =>
    t.rd pMgmt 0x210 = (s.rd pMgmt 0x210 + 1) % 2 ^ 32 ∧ t.rd pMgmt 0x21C = (s.rd pMgmt 0x21C + 1) % 2 ^ 32
      ∧ WordsAndFlag s t [(pMgmt, 0x210), (pMgmt, 0x21C)] pMgmt 11) := by
  obtain ⟨u, hu, hrd, hexec⟩ := exec_mgmtDatagram_authentic hs d hkey hver hformed hclear
    (Or.inr ⟨x, List.mem_of_find?_eq_some hfind, of_decide_eq_true (List.find?_some (p := fun x : Nat × Nat => decide (x.1 = leAt d 4 4)) hfind)⟩)
  obtain ⟨hcount, hfails, hflag⟩ := hu.then_discard (a := 0x21C) (n := 11) (by decide) (by decide) (by decide) (by decide)
  rw [acceptDatagram, hu.palur, hfind] at hexec
  dsimp only at hexec
  rw [if_pos hold] at hexec
  exact ⟨_, hexec, hcount.trans hrd, hfails, hflag⟩

/-- A later one is taken, and the session goes on from it. -/
theorem datagram_accepted (hnew : x.2 < leAt d 8 8) (hreqs : s.palur.reqs = []) (hr : malformed ⟨some (leAt d 4 4, leAt d 8 8), slice m 0 256⟩ = none) :
    Completes (.mgmtDatagram d) s (fun t => t.rd pMgmt 0x210 = (s.rd pMgmt 0x210 + 1) % 2 ^ 32
      ∧ t.rd pMgmt 0x220 = (s.rd pMgmt 0x220 + 1) % 2 ^ 32 ∧ t.palur.reqs = [⟨some (leAt d 4 4, leAt d 8 8), slice m 0 256⟩] ∧ (leAt d 4 4, leAt d 8 8) ∈ t.palur.sessions
      ∧ RegsKept s t [(pMgmt, 0x210), (pMgmt, 0x220)] ∧ t = { s with regs := t.regs, palur := { s.palur with sessions := t.palur.sessions, reqs := t.palur.reqs } }) := by
  have hmem := List.mem_of_find?_eq_some hfind
  have hsame : decide (x.1 = leAt d 4 4) = true := List.find?_some (p := fun x : Nat × Nat => decide (x.1 = leAt d 4 4)) hfind
  obtain ⟨u, hu, hrd, hexec⟩ := exec_mgmtDatagram_authentic hs d hkey hver hformed hclear (Or.inr ⟨x, hmem, of_decide_eq_true hsame⟩)
  have hcount : (u.inc pMgmt 0x220 1).rd pMgmt 0x210 = u.rd pMgmt 0x210 := rd_wr_off _ _ _ (by decide) (by decide) (by decide)
  have hadded : (u.inc pMgmt 0x220 1).rd pMgmt 0x220 = (s.rd pMgmt 0x220 + 1) % 2 ^ 32 := by rw [rd_inc_self, hu.rd (by decide) (by decide)]
  obtain ⟨hkept, honly⟩ := OnlyWords.trans hu (inc_onlyWord u pMgmt 0x220 1)
  rw [acceptDatagram, hu.palur, hfind] at hexec
  dsimp only at hexec
  rw [if_neg (by omega)] at hexec
  generalize u.inc pMgmt 0x220 1 = v at hexec hcount hadded hkept honly
  have hpalur : v.palur = s.palur := by rw [honly]
  rw [State.modPalur, hpalur, hreqs, serveRest_of_wellFormed (r := ⟨some (leAt d 4 4, leAt d 8 8), slice m 0 256⟩) rfl hr] at hexec
  exact ⟨_, hexec, hcount.trans hrd, hadded, rfl, List.mem_map.mpr ⟨x, hmem, if_pos hsame⟩, hkept, by rw [honly]⟩

end

/-- The first of a session opens it; of nine open sessions the oldest closes. -/
theorem datagram_opens (hhigh : s.store.sessHigh < leAt d 4 4) (hunknown : ¬ ∃ x ∈ s.palur.sessions, x.1 = leAt d 4 4) (hreqs : s.palur.reqs = [])
    (hr : malformed ⟨some (leAt d 4 4, leAt d 8 8), slice m 0 256⟩ = none) : Completes (.mgmtDatagram d) s (fun t =>
      t.rd pMgmt 0x210 = (s.rd pMgmt 0x210 + 1) % 2 ^ 32 ∧ t.store = { s.store with sessHigh := leAt d 4 4 }
      ∧ t.palur.reqs = [⟨some (leAt d 4 4, leAt d 8 8), slice m 0 256⟩] ∧ t.palur.sessions.getLast? = some (leAt d 4 4, leAt d 8 8) ∧ t.palur.sessions.length ≤ 8) := by
  obtain ⟨u, hu, hrd, hexec⟩ := exec_mgmtDatagram_authentic hs d hkey hver hformed hclear (Or.inl hhigh)
  have hnone : s.palur.sessions.find? (fun x => decide (x.1 = leAt d 4 4)) = none := by
    rw [List.find?_eq_none]
    exact fun x hx hsame => hunknown ⟨x, hx, of_decide_eq_true hsame⟩
  let v : State := (u.modStore (fun r => { r with sessHigh := leAt d 4 4 })).inc pMgmt 0x220 1
  have hcount : v.rd pMgmt 0x210 = u.rd pMgmt 0x210 := rd_wr_off _ _ _ (by decide) (by decide) (by decide)
  have hstore : v.store = { s.store with sessHigh := leAt d 4 4 } := by rw [State.inc_store, State.modStore, hu.store]
  have hpalur : v.palur = s.palur := by rw [State.inc_palur, State.modStore_palur, hu.palur]
  rw [acceptDatagram, hu.palur, hnone] at hexec
  dsimp only at hexec
  change _ = Host.Outcome.next (serveRest (v.modPalur _)) at hexec
  clear_value v
  rw [State.modPalur, hpalur, hreqs, serveRest_of_wellFormed (r := ⟨some (leAt d 4 4, leAt d 8 8), slice m 0 256⟩) rfl hr] at hexec
  refine ⟨_, hexec, hcount.trans hrd, hstore, rfl, ?_, ?_⟩
  · exact lastN_getLast ..
  · exact length_lastN_le ..

end
end

end Sys2Proof.Machine
end

section
/-! O52. -/

namespace Sys2Proof.Machine

open Sys2Proof

/-- Settles O52: the mailbox and the port put requests in Palur's queue, each command takes the request of its row and answers it, and the other functions read or write what Palur holds. -/
theorem palurRequests : Obligations.PalurRequests := by
  unfold Obligations.PalurRequests
  refine ⟨fun s hs => ⟨mbxOwnerWrite_cases hs, mbxGo_refused hs, fun howner hidle m hm hlen hreqs =>
      ⟨mbxGo_accepted hs howner hidle hm hlen hreqs, mbxGo_answered hs howner hidle hm hlen hreqs⟩⟩,
    fun s hs => ⟨frame_other hs, frame_arp hs, frame_ndp hs, fun rq source target data => ⟨frame_icmp6 hs rq source target data, frame_icmp4 hs rq source target data⟩,
      fun xid addr server plen gateway secs => ?dhcp, fun d => ?datagram⟩,
    fun s0 s r x hx h => table_refusals hx h, fun s hreqs => table_idle hreqs, fun s0 s r row h => ?rows,
    fun s b hup hpaused hlong => attestSignComplete_signs hup hpaused hlong, fun s hlong => attestSignComplete_idle hlong⟩
  case dhcp =>
    exact ⟨fun kind hno => dhcp_notMine hs xid addr server plen gateway secs hno kind, dhcp_offer hs xid addr server plen gateway secs,
      fun hmine hstate => dhcp_passed hs xid addr server plen gateway secs hmine (Or.inl ⟨rfl, hstate⟩),
      fun hmine hstate => ⟨dhcp_ack hs xid addr server plen gateway secs hmine hstate, dhcp_nak hs xid addr server plen gateway secs hmine hstate⟩,
      fun hmine hstate => ⟨dhcp_passed hs xid addr server plen gateway secs hmine (Or.inr ⟨Or.inl rfl, hstate⟩),
        dhcp_passed hs xid addr server plen gateway secs hmine (Or.inr ⟨Or.inr rfl, hstate⟩)⟩⟩
  case datagram =>
    exact ⟨datagram_version hs d, datagram_discarded hs d,
      fun m x hkey hver hformed hclear hfind => ⟨datagram_replayed hs d hkey hver hformed hclear hfind, datagram_accepted hs d hkey hver hformed hclear hfind⟩,
      fun m hkey hver hformed hclear hhigh hunknown hreqs hr => datagram_opens hs d hkey hver hformed hclear hhigh hunknown hreqs hr⟩
  case rows =>
    refine ⟨?_, ?_, ?_, ?_, ?_, ?_, ?_, ?_, ?_, ?_⟩
    · rintro rfl
      exact getInfo_answers h
    · rintro rfl
      exact getResult_answers h
    · rintro rfl
      exact errlogRead_answers h
    · rintro rfl
      exact attestBurgee_reads h
    · rintro rfl
      exact attestRead_cases h
    · rintro rfl hlong
      exact attestReport_begins h hlong
    · rintro rfl
      exact calRead_cases h
    · rintro rfl
      exact calWriteData_cases h
    · rintro rfl
      obtain ⟨hdenied, hnone, hbad⟩ := calCommit_refusals h
      exact ⟨hdenied, hnone, fun b hok hpend => ⟨hbad b hok hpend, calCommit_commits h hok hpend⟩⟩
    · rintro rfl hok
      exact calDiscard_discards h hok

end Sys2Proof.Machine
end
